-- ==== Sys2Proof/Word.lean ====
section
/-! DEFINITION. Word types of the ZX4 (00 R3 to R5): bytes, words, doubles, and their plainest arithmetic. -/
namespace Sys2Proof

/-- A byte is 8 bits (R5). -/
abbrev Byte := BitVec 8
/-- A half is 16 bits (R5). -/
abbrev Half := BitVec 16
/-- A word is 32 bits (R5). -/
abbrev Word := BitVec 32
/-- A double is 64 bits (R5). -/
abbrev Dbl := BitVec 64

/-- An unsigned field of a number: bits `hi` down to `lo` (R3). -/
def natBits (n hi lo : Nat) : Nat := (n >>> lo) % 2 ^ (hi + 1 - lo)

end Sys2Proof
end

