-- ==== Sys2Proof/Config.lean ====
section
/-! DEFINITION. What an implementation of the ZX4 fixes and the manual leaves open: free values.

Every constant here is opaque and has no body: no proof can see a value of it, so a statement holds whatever it is.
The first argument of the `free` constants is the state's stamp, which every step advances; the second names the use. -/
namespace Sys2Proof.Config

/-- A choice that the manual leaves open, as a number (log 2): which of several allowed values, orders or members. -/
opaque freePick : Nat → Nat → Nat
/-- A double that the manual leaves open (log 2). -/
opaque freeDbl : Nat → Nat → BitVec 64

/-- The fused serial number, before the rule that it is nonzero. -/
opaque fusedSerial : BitVec 64
/-- SERIAL, fused at test: nonzero (01 R30). (Log 99, DESIGN CHOICE.) -/
def serial : BitVec 64 := if fusedSerial = 0 then 1 else fusedSerial
/-- The UALink accelerator identifier of this device, a 10-bit number (01 R28). -/
opaque accel : BitVec 10
/-- Whether a port reaches another accelerator: the wiring of the pod (04 R118). (Log 104, DESIGN CHOICE.) -/
opaque reaches : Nat → Nat → Bool
/-- Whether the host advertises AtomicOps completion (01 R26, 10 R259). -/
opaque hostAtomics : Bool
/-- The boot image of a bring-up stage, as measured (01 R36). -/
opaque bootImage : Nat → List (BitVec 8)
/-- The reserved ranges that firmware would choose at bring-up, before the rules on them. -/
opaque chosenReserved : List (Nat × Nat × Nat × Nat)
/-- The page at which they would begin. -/
opaque chosenBase : Nat
/-- Pages of a reserved area whose size the manual does not give, by kind and die. -/
opaque areaPages : Nat → Nat → Nat

/-- Two ranges of a reserved list share no byte. -/
def apart (a b : Nat × Nat × Nat × Nat) : Bool := a.1 + a.2.1 ≤ b.1 || b.1 + b.2.1 ≤ a.1

/-- No two ranges of a list share a byte. -/
def allApart : List (Nat × Nat × Nat × Nat) → Bool
  | [] => true
  | a :: r => r.all (apart a) && allApart r

/-- The size of the areas whose size the manual gives, in bytes: loft 4,096 MiB, park 4 GiB, overflow 2 GiB (04 R103, R115;
05 R134); else 0. -/
def areaSize (kind : Nat) : Nat :=
  match kind with
  | 1 => 2 ^ 32
  | 2 => 2 ^ 32
  | 3 => 2 ^ 31
  | _ => 0

/-- The areas that bring-up reserves, by kind and die (09 R230, 18 R435): the log rings have size 0 then. -/
def areas : List (Nat × Nat) :=
  [1, 2, 3, 4, 8, 9, 10].flatMap (fun k => (List.range 4).map fun d => (k, d)) ++ [(5, 0xFF), (11, 0xFF)]

/-- What 09 R230 and 18 R435 say of the list: whole pages of HBM, no byte in two ranges, every area there, with its size where
the manual gives one. -/
def reservedOk (l : List (Nat × Nat × Nat × Nat)) : Bool :=
  l.all (fun r => r.1 % 4096 == 0 && r.2.1 % 4096 == 0 && r.2.1 != 0 && r.1 + r.2.1 ≤ 2 ^ 39 &&
    areas.contains (r.2.2.1, r.2.2.2)) &&
  allApart l &&
  areas.all fun a =>
    let n := ((l.filter fun r => (r.2.2.1, r.2.2.2) == a).map fun r => r.2.1).sum
    n != 0 && (areaSize a.1 == 0 || n == areaSize a.1)

/-- The areas one behind the other from a base on. -/
def stacked (base : Nat) : List (Nat × Nat) → List (Nat × Nat × Nat × Nat)
  | [] => []
  | (k, d) :: r =>
    let n := if areaSize k = 0 then 4096 * (1 + areaPages k d % 2 ^ 20) else areaSize k
    (base, n, k, d) :: stacked (base + n) r

/-- The ranges of HBM that firmware reserves at bring-up: base, size, kind, die (09 R230, 18 R435): any list that the rules
allow. (Log 100, DESIGN CHOICE.) -/
def bootReserved : List (Nat × Nat × Nat × Nat) :=
  if reservedOk chosenReserved then chosenReserved else stacked (4096 * (chosenBase % (400 * 2 ^ 18))) areas

/-- SHA-384 (01 R35, R36; log 7). -/
opaque sha384 : List (BitVec 8) → BitVec 384
/-- Whether both signatures of a firmware image verify under Oponar's keys (01 R35). -/
opaque fwSigned : List (BitVec 8) → Bool
/-- Whether the digest of a firmware image matches its body (01 R35). -/
opaque fwDigest : List (BitVec 8) → Bool
/-- The header fields of a firmware image, before the rules of 01 R30. -/
opaque fwHeader : List (BitVec 8) → BitVec 32 × BitVec 32 × Nat
/-- The version, save layout and security version that a firmware image carries (01 R30, R35; 03 R95): version and layout are
nonzero. (Log 99, DESIGN CHOICE.) -/
def fwFields (img : List (BitVec 8)) : BitVec 32 × BitVec 32 × Nat :=
  let f := fwHeader img
  (if f.1 = 0 then 1 else f.1, if f.2.1 = 0 then 1 else f.2.1, f.2.2)
/-- The identity certificate (01 R34). -/
opaque certificate : List (BitVec 8)
/-- The Ed25519 signature of a report, 64 bytes (01 R37). -/
opaque signEd25519 : List (BitVec 8) → List (BitVec 8)
/-- The ML-DSA-65 signature of a report, 3,309 bytes (01 R37). -/
opaque signMlDsa : List (BitVec 8) → List (BitVec 8)

/-- Which of the F32 values within the bound of 13 R324 a special function returns, by function number and operand: the
same on every device and in every run (log 8). -/
opaque sfnPick : Nat → BitVec 32 → Nat
/-- The port that carries the messages of a reservation: a hash of the target and token (04 R118). -/
opaque portHash : Nat → Nat → Nat
/-- Whether a save image passes its check and converts from its layout (17 R401, R405). -/
opaque saveConverts : Nat → Bool
/-- Bytes of a save image whose layout the Nolle Firmware Release Notes give: barrier state, event counters and generator context,
by the number of teams (17 R401; log 112). -/
opaque imageExtra : Nat → Nat
/-- The bytes of HBM in a reserved area where nothing is kept (18 R435): by stamp, die and offset. -/
opaque areaRest : Nat → Nat → Nat → BitVec 512

end Sys2Proof.Config
end

