-- ==== Sys2Proof/Syntax.lean ====
section
/-! DEFINITION. The instruction syntax of the ZX4: one constructor of `Instr` for each row of the opcode table.

The encoded instructions carry the fields of their format (R157, R158, R162, R163; R86 for policy bytecode, R350 for
walk programs), already cut out of their words; the rows without an encoding are steps of the device, its Yards, its
host interface and its links, and carry what the step names (the queue, the register and value written, the access
performed, the message received). -/
namespace Sys2Proof

/-- Fields of an S32 instruction other than OP8 and MOD, which the constructor names (R157). -/
structure S32 where
  d : BitVec 9
  a : BitVec 9
  deriving DecidableEq, Repr

/-- Fields of an L64 instruction other than OP10 (R158). -/
structure L64 where
  d : BitVec 9
  a : BitVec 9
  b : BitVec 9
  c : BitVec 9
  hint : BitVec 2
  imm : BitVec 14
  deriving DecidableEq, Repr

/-- Fields of an M64 instruction other than OP10; bits 63:62 are reserved (R162). -/
structure M64 where
  d : BitVec 9
  base : BitVec 9
  off : BitVec 24
  wid : BitVec 3
  cache : BitVec 2
  ord : BitVec 2
  sx : BitVec 1
  deriving DecidableEq, Repr

/-- Fields of an X96 instruction other than OP10: those of an L64 instruction and the literal LIT32 (R163). -/
structure X96 where
  lo : L64
  lit : Word
  deriving DecidableEq, Repr

/-- Fields of a walk instruction other than OP (R350). -/
structure WalkOp where
  d : BitVec 4
  a : BitVec 4
  b : BitVec 4
  imm : BitVec 14
  deriving DecidableEq, Repr

/-- Fields of a policy-bytecode instruction other than OP; bits 43:32 are reserved (R86). -/
structure NpbOp where
  d : BitVec 4
  a : BitVec 4
  b : BitVec 4
  imm : Word
  deriving DecidableEq, Repr

/-- The formats of the scalar floating-point instructions, in the order of their codes (R166, R167). -/
inductive FFmt where
  | f32 | f16 | bf16 | f16x2
  deriving DecidableEq, Repr

/-- Where a watchdog restart meets a firmware activation (R96). -/
inductive WatchdogMeet where
  /-- The watchdog does not fire during the activation. -/
  | none
  /-- It fires before the switch of the save engine (R95 step 3). -/
  | beforeSwitch
  /-- It fires after that switch. -/
  | afterSwitch
  deriving DecidableEq, Repr

/-- Which of the two copies of a fetched line arrives damaged in transit (R153). -/
inductive LineDamage where
  | none
  | firstCopy
  | bothCopies
  deriving DecidableEq, Repr

/-- A RESERVE message (R117, R118): its sender, token and body. -/
structure ReserveMsg where
  srcAccel : Nat
  token : Nat
  job : Nat
  node : Nat
  count : Nat
  sizem1 : Nat
  depth : Nat
  deriving DecidableEq, Repr

/-- A RECORD message (R118): its sender, token, index in its group, and the record's words. -/
structure RecordMsg where
  srcAccel : Nat
  token : Nat
  index : Nat
  words : List Word
  deriving DecidableEq, Repr

/-- The instructions and steps of the ZX4: one constructor for each row of the opcode table. A row whose encoding has no
field that may differ from zero carries nothing. The rows of the main set that carry fields come first: Lean's runtime
builds a constructor with fields only up to number 244, so that this order keeps fetching and executing the main set
runnable; the kernel knows no such limit. -/
inductive Instr where
  /-- RET (R205): Transfers to the address in a register pair. -/
  | ret (o : S32)
  /-- TRAP (R386): Raises a fault with a program-chosen code 0x40 to 0x7F. -/
  | trap (o : S32)
  /-- BAR (R366): Arrives at a barrier and waits for its phase to complete. -/
  | bar (o : S32)
  /-- BAR.ARV (R366): Arrives at a barrier without waiting. -/
  | barArv (o : S32)
  /-- BAR.WAIT (R366): Waits for the phase of an earlier arrival to complete. -/
  | barWait (o : S32)
  /-- DRAIN (R371): Waits until STC, CPC and EMC are zero, then acts as BAR. -/
  | drain (o : S32)
  /-- WAITW (R274): Waits on the lane's watch and returns its status. -/
  | waitw (o : S32)
  /-- TWAIT.ANY (R254): Waits until any tag of a mask completes, reporting copy errors. -/
  | twaitAny (o : S32)
  /-- TWAIT.ALL (R254): Waits until every tag of a mask completes, reporting copy errors. -/
  | twaitAll (o : S32)
  /-- TFIND (R254): Returns the lowest completed tag of a mask without waiting. -/
  | tfind (o : S32)
  /-- WAITB (R343): Waits on a trough barrier and returns PHASE or faults NMVFAULT. -/
  | waitb (o : S32)
  /-- PRED (R203): Sets each lane's pending predicate from a mask. -/
  | pred (o : S32)
  /-- PRED.NOT (R203): Sets each lane's pending predicate from an inverted mask. -/
  | predNot (o : S32)
  /-- SREAD (R182): Reads a system register into a register or pair. -/
  | sread (o : S32)
  /-- SWRITE (R182): Writes a system register from a register or pair. -/
  | swrite (o : S32)
  /-- WGET (R181): Copies a team register into vector registers. -/
  | wget (o : S32)
  /-- WSET (R181): Writes a team register from the lowest Active lane. -/
  | wset (o : S32)
  /-- XSET (R179): Copies a vector register into an index register. -/
  | xset (o : S32)
  /-- XGET (R179): Copies an index register into a vector register. -/
  | xget (o : S32)
  /-- MOV (R179): Copies a vector register. -/
  | mov (o : S32)
  /-- MOV.B64 (R179): Copies a register pair. -/
  | movB64 (o : S32)
  /-- NOT (R194): Bitwise complement. -/
  | notV (o : S32)
  /-- NEG.S32 (R194): Two's-complement negation. -/
  | negS32 (o : S32)
  /-- ABS.S32 (R194): Signed absolute value. -/
  | absS32 (o : S32)
  /-- POPC (R194): Population count. -/
  | popc (o : S32)
  /-- CLZ (R194): Count of leading zeros. -/
  | clz (o : S32)
  /-- CTZ (R194): Count of trailing zeros. -/
  | ctz (o : S32)
  /-- BREV (R194): Bit reversal. -/
  | brev (o : S32)
  /-- ENROL (R211): Enrols the Active lanes in a mask. -/
  | enrol (o : S32)
  /-- JOIN (R212): Waits at a mask and clears the lane's bit on release. -/
  | join (o : S32)
  /-- LEAVE (R211): Clears the lane's bit in a mask. -/
  | leave (o : S32)
  /-- WAITK (R212): Waits at a mask without consuming enrolment. -/
  | waitk (o : S32)
  /-- STRIKE (R211): Clears the lane's bit in masks d to 11. -/
  | strike (o : S32)
  /-- KMOV (R216): Copies a mask whole. -/
  | kmov (o : S32)
  /-- KNOT (R216): Writes the complement of a mask. -/
  | knot (o : S32)
  /-- KAND (R216): ANDs a mask into another. -/
  | kand (o : S32)
  /-- KOR (R216): ORs a mask into another. -/
  | kor (o : S32)
  /-- KXOR (R216): XORs a mask into another. -/
  | kxor (o : S32)
  /-- KANDN (R216): ANDs the complement of a mask into another. -/
  | kandn (o : S32)
  /-- KACT (R216): Writes the Active set into a mask. -/
  | kact (o : S32)
  /-- KPOP (R216): Counts the set bits of a mask. -/
  | kpop (o : S32)
  /-- KGET (R216): Reads the lane's bit of a mask. -/
  | kget (o : S32)
  /-- KSET (R216): Sets the lane's mask bit from a register. -/
  | kset (o : S32)
  /-- FABS (R321): Clears the sign bit. -/
  | fabs (f : FFmt) (o : S32)
  /-- FNEG (R321): Inverts the sign bit. -/
  | fneg (f : FFmt) (o : S32)
  /-- FCLASS (R322): Writes a floating class mask. -/
  | fclass (f : FFmt) (o : S32)
  /-- FRCP (R323): Reciprocal. -/
  | frcp (f : FFmt) (o : S32)
  /-- FSQRT (R323): Square root. -/
  | fsqrt (f : FFmt) (o : S32)
  /-- FRSQ (R323): Reciprocal square root. -/
  | frsq (f : FFmt) (o : S32)
  /-- FEXP2 (R323): Base-2 exponential. -/
  | fexp2 (f : FFmt) (o : S32)
  /-- FLOG2 (R323): Base-2 logarithm. -/
  | flog2 (f : FFmt) (o : S32)
  /-- FSIN (R323): Sine. -/
  | fsin (f : FFmt) (o : S32)
  /-- FCOS (R323): Cosine. -/
  | fcos (f : FFmt) (o : S32)
  /-- FTANH (R323): Hyperbolic tangent. -/
  | ftanh (f : FFmt) (o : S32)
  /-- ADD.S32 (R184): Signed 32-bit add, optionally saturating. -/
  | addS32 (o : L64)
  /-- ADD.N32 (R184): Unsigned 32-bit add, optionally saturating. -/
  | addN32 (o : L64)
  /-- SUB.S32 (R184): Signed 32-bit subtract. -/
  | subS32 (o : L64)
  /-- SUB.N32 (R184): Unsigned 32-bit subtract. -/
  | subN32 (o : L64)
  /-- MUL (R185): Low 32 bits of a product. -/
  | mul (o : L64)
  /-- MULHI.S32 (R185): High 32 bits of a signed product. -/
  | mulhiS32 (o : L64)
  /-- MULHI.N32 (R185): High 32 bits of an unsigned product. -/
  | mulhiN32 (o : L64)
  /-- MAD (R185): Multiply-add, low 32 bits. -/
  | mad (o : L64)
  /-- DIV.S32 (R186): Signed 32-bit division. -/
  | divS32 (o : L64)
  /-- DIV.N32 (R186): Unsigned 32-bit division. -/
  | divN32 (o : L64)
  /-- REM.S32 (R186): Signed 32-bit remainder. -/
  | remS32 (o : L64)
  /-- REM.N32 (R186): Unsigned 32-bit remainder. -/
  | remN32 (o : L64)
  /-- MIN.S32 (R187): Signed 32-bit minimum. -/
  | minS32 (o : L64)
  /-- MIN.N32 (R187): Unsigned 32-bit minimum. -/
  | minN32 (o : L64)
  /-- MAX.S32 (R187): Signed 32-bit maximum. -/
  | maxS32 (o : L64)
  /-- MAX.N32 (R187): Unsigned 32-bit maximum. -/
  | maxN32 (o : L64)
  /-- AND (R187): Bitwise AND. -/
  | andV (o : L64)
  /-- OR (R187): Bitwise OR. -/
  | orV (o : L64)
  /-- XOR (R187): Bitwise XOR. -/
  | xorV (o : L64)
  /-- ANDN (R187): a AND NOT b. -/
  | andn (o : L64)
  /-- SHL (R188): Left shift. -/
  | shl (o : L64)
  /-- SHR (R188): Logical right shift. -/
  | shr (o : L64)
  /-- SAR (R188): Arithmetic right shift. -/
  | sar (o : L64)
  /-- ROT (R188): Left rotation. -/
  | rot (o : L64)
  /-- BFX.S32 (R189): Signed bit-field extract. -/
  | bfxS32 (o : L64)
  /-- BFX.N32 (R189): Unsigned bit-field extract. -/
  | bfxN32 (o : L64)
  /-- BFI (R189): Bit-field insert. -/
  | bfi (o : L64)
  /-- SEL (R191): Per-lane select by a mask. -/
  | sel (o : L64)
  /-- CMP.S32 (R190): Signed 32-bit compare into a mask. -/
  | cmpS32 (o : L64)
  /-- CMP.N32 (R190): Unsigned 32-bit compare into a mask. -/
  | cmpN32 (o : L64)
  /-- CMP.S64 (R190): Signed 64-bit compare into a mask. -/
  | cmpS64 (o : L64)
  /-- CMP.N64 (R190): Unsigned 64-bit compare into a mask. -/
  | cmpN64 (o : L64)
  /-- ADD.S64 (R184): Signed 64-bit add. -/
  | addS64 (o : L64)
  /-- ADD.N64 (R184): Unsigned 64-bit add. -/
  | addN64 (o : L64)
  /-- SUB.S64 (R184): Signed 64-bit subtract. -/
  | subS64 (o : L64)
  /-- SUB.N64 (R184): Unsigned 64-bit subtract. -/
  | subN64 (o : L64)
  /-- MUL.B64 (R185): Low 64 bits of a 64-bit product. -/
  | mulB64 (o : L64)
  /-- ADDA (R192): Adds a sign-extended register to an address pair. -/
  | adda (o : L64)
  /-- SHLA (R192): Adds a shifted zero-extended register to an address pair. -/
  | shla (o : L64)
  /-- DIV.S64 (R186): Signed 64-bit division. -/
  | divS64 (o : L64)
  /-- DIV.N64 (R186): Unsigned 64-bit division. -/
  | divN64 (o : L64)
  /-- REM.S64 (R186): Signed 64-bit remainder. -/
  | remS64 (o : L64)
  /-- REM.N64 (R186): Unsigned 64-bit remainder. -/
  | remN64 (o : L64)
  /-- MIN.S64 (R187): Signed 64-bit minimum. -/
  | minS64 (o : L64)
  /-- MIN.N64 (R187): Unsigned 64-bit minimum. -/
  | minN64 (o : L64)
  /-- MAX.S64 (R187): Signed 64-bit maximum. -/
  | maxS64 (o : L64)
  /-- MAX.N64 (R187): Unsigned 64-bit maximum. -/
  | maxN64 (o : L64)
  /-- ADD.S32 (R177): ADD.S32 with a 32-bit literal as B. -/
  | addS32X96 (o : X96)
  /-- ADD.N32 (R177): ADD.N32 with a literal as B. -/
  | addN32X96 (o : X96)
  /-- SUB.S32 (R177): SUB.S32 with a literal as B. -/
  | subS32X96 (o : X96)
  /-- SUB.N32 (R177): SUB.N32 with a literal as B. -/
  | subN32X96 (o : X96)
  /-- MUL (R177): MUL with a literal as B. -/
  | mulX96 (o : X96)
  /-- MULHI.S32 (R177): MULHI.S32 with a literal as B. -/
  | mulhiS32X96 (o : X96)
  /-- MULHI.N32 (R177): MULHI.N32 with a literal as B. -/
  | mulhiN32X96 (o : X96)
  /-- MAD (R177): MAD with a literal as B. -/
  | madX96 (o : X96)
  /-- DIV.S32 (R177): DIV.S32 with a literal as B. -/
  | divS32X96 (o : X96)
  /-- DIV.N32 (R177): DIV.N32 with a literal as B. -/
  | divN32X96 (o : X96)
  /-- REM.S32 (R177): REM.S32 with a literal as B. -/
  | remS32X96 (o : X96)
  /-- REM.N32 (R177): REM.N32 with a literal as B. -/
  | remN32X96 (o : X96)
  /-- MIN.S32 (R177): MIN.S32 with a literal as B. -/
  | minS32X96 (o : X96)
  /-- MIN.N32 (R177): MIN.N32 with a literal as B. -/
  | minN32X96 (o : X96)
  /-- MAX.S32 (R177): MAX.S32 with a literal as B. -/
  | maxS32X96 (o : X96)
  /-- MAX.N32 (R177): MAX.N32 with a literal as B. -/
  | maxN32X96 (o : X96)
  /-- AND (R177): AND with a literal as B. -/
  | andX96 (o : X96)
  /-- OR (R177): OR with a literal as B. -/
  | orX96 (o : X96)
  /-- XOR (R177): XOR with a literal as B. -/
  | xorX96 (o : X96)
  /-- ANDN (R177): ANDN with a literal as B. -/
  | andnX96 (o : X96)
  /-- SHL (R177): SHL with a literal count. -/
  | shlX96 (o : X96)
  /-- SHR (R177): SHR with a literal count. -/
  | shrX96 (o : X96)
  /-- SAR (R177): SAR with a literal count. -/
  | sarX96 (o : X96)
  /-- ROT (R177): ROT with a literal count. -/
  | rotX96 (o : X96)
  /-- BFX.S32 (R177): BFX.S32 with a literal position and length. -/
  | bfxS32X96 (o : X96)
  /-- BFX.N32 (R177): BFX.N32 with a literal position and length. -/
  | bfxN32X96 (o : X96)
  /-- BFI (R177): BFI with a literal position and length. -/
  | bfiX96 (o : X96)
  /-- SEL (R177): SEL with a literal as B. -/
  | selX96 (o : X96)
  /-- CMP.S32 (R177): CMP.S32 against a literal. -/
  | cmpS32X96 (o : X96)
  /-- CMP.N32 (R177): CMP.N32 against a literal. -/
  | cmpN32X96 (o : X96)
  /-- CMP.S64 (R177): CMP.S64 against a sign-extended literal. -/
  | cmpS64X96 (o : X96)
  /-- CMP.N64 (R177): CMP.N64 against a zero-extended literal. -/
  | cmpN64X96 (o : X96)
  /-- ADD.S64 (R177): ADD.S64 with a sign-extended literal. -/
  | addS64X96 (o : X96)
  /-- ADD.N64 (R177): ADD.N64 with a zero-extended literal. -/
  | addN64X96 (o : X96)
  /-- SUB.S64 (R177): SUB.S64 with a sign-extended literal. -/
  | subS64X96 (o : X96)
  /-- SUB.N64 (R177): SUB.N64 with a zero-extended literal. -/
  | subN64X96 (o : X96)
  /-- MUL.B64 (R177): MUL.B64 with a sign-extended literal. -/
  | mulB64X96 (o : X96)
  /-- ADDA (R177): ADDA with a sign-extended literal. -/
  | addaX96 (o : X96)
  /-- SHLA (R177): SHLA with a literal index. -/
  | shlaX96 (o : X96)
  /-- DIV.S64 (R177): DIV.S64 with a literal divisor. -/
  | divS64X96 (o : X96)
  /-- DIV.N64 (R177): DIV.N64 with a literal divisor. -/
  | divN64X96 (o : X96)
  /-- REM.S64 (R177): REM.S64 with a literal divisor. -/
  | remS64X96 (o : X96)
  /-- REM.N64 (R177): REM.N64 with a literal divisor. -/
  | remN64X96 (o : X96)
  /-- MIN.S64 (R177): MIN.S64 with a literal. -/
  | minS64X96 (o : X96)
  /-- MIN.N64 (R177): MIN.N64 with a literal. -/
  | minN64X96 (o : X96)
  /-- MAX.S64 (R177): MAX.S64 with a literal. -/
  | maxS64X96 (o : X96)
  /-- MAX.N64 (R177): MAX.N64 with a literal. -/
  | maxN64X96 (o : X96)
  /-- ADDI (R193): Adds a sign-extended immediate. -/
  | addi (o : L64)
  /-- ANDI (R193): ANDs a sign-extended immediate. -/
  | andi (o : L64)
  /-- ORI (R193): ORs a sign-extended immediate. -/
  | ori (o : L64)
  /-- XORI (R193): XORs a sign-extended immediate. -/
  | xori (o : L64)
  /-- SHLI (R193): Left shift by an immediate. -/
  | shli (o : L64)
  /-- SHRI (R193): Logical right shift by an immediate. -/
  | shri (o : L64)
  /-- SARI (R193): Arithmetic right shift by an immediate. -/
  | sari (o : L64)
  /-- CMPI.S32 (R193): Signed compare against an immediate into a mask. -/
  | cmpiS32 (o : L64)
  /-- ADDAI (R192): Adds a sign-extended immediate to an address pair. -/
  | addai (o : L64)
  /-- CMPI.N32 (R193): Unsigned compare against an immediate into a mask. -/
  | cmpiN32 (o : L64)
  /-- MOVI (R180): Loads a sign-extended 14-bit immediate. -/
  | movi (o : L64)
  /-- LIT (R180): Loads a 32-bit literal. -/
  | lit (o : X96)
  /-- LIT.B64 (R180): Loads a sign-extended literal into a pair. -/
  | litB64 (o : X96)
  /-- SHFL.IDX (R196): Reads operand A from an indexed lane of the segment. -/
  | shflIdx (o : L64)
  /-- SHFL.UP (R196): Reads operand A from a lower lane of the segment. -/
  | shflUp (o : L64)
  /-- SHFL.DOWN (R196): Reads operand A from a higher lane of the segment. -/
  | shflDown (o : L64)
  /-- SHFL.XOR (R196): Reads operand A from the XOR-indexed lane. -/
  | shflXor (o : L64)
  /-- BCAST (R197): Broadcasts one lane's value to the Active lanes. -/
  | bcast (o : L64)
  /-- VOTE.ANY (R198): 1 in every Active lane if any lane's value is nonzero. -/
  | voteAny (o : L64)
  /-- VOTE.ALL (R198): 1 in every Active lane if every lane's value is nonzero. -/
  | voteAll (o : L64)
  /-- VOTE.BAL (R198): Writes a whole mask of nonzero Active lanes. -/
  | voteBal (o : L64)
  /-- MATCH (R199): Groups lanes of equal value, giving count and leader. -/
  | matchLanes (o : L64)
  /-- REDSTEP (R200): One step of a log-step reduction. -/
  | redstep (o : L64)
  /-- SCANSTEP (R200): One step of an inclusive scan. -/
  | scanstep (o : L64)
  /-- FADD (R317): Floating add rounded once. -/
  | fadd (f : FFmt) (o : L64)
  /-- FSUB (R317): Floating subtract rounded once. -/
  | fsub (f : FFmt) (o : L64)
  /-- FMUL (R317): Floating multiply rounded once. -/
  | fmul (f : FFmt) (o : L64)
  /-- FFMA (R317): Fused multiply-add rounded once. -/
  | ffma (f : FFmt) (o : L64)
  /-- FMIN (R319): Floating minimum. -/
  | fmin (f : FFmt) (o : L64)
  /-- FMAX (R319): Floating maximum. -/
  | fmax (f : FFmt) (o : L64)
  /-- FCMP (R320): Floating compare into a mask. -/
  | fcmp (f : FFmt) (o : L64)
  /-- FADD (R315): FADD with a literal as B. -/
  | faddX96 (f : FFmt) (o : X96)
  /-- FSUB (R315): FSUB with a literal as B. -/
  | fsubX96 (f : FFmt) (o : X96)
  /-- FMUL (R315): FMUL with a literal as B. -/
  | fmulX96 (f : FFmt) (o : X96)
  /-- FFMA (R315): FFMA with a literal as B. -/
  | ffmaX96 (f : FFmt) (o : X96)
  /-- FMIN (R315): FMIN with a literal as B. -/
  | fminX96 (f : FFmt) (o : X96)
  /-- FMAX (R315): FMAX with a literal as B. -/
  | fmaxX96 (f : FFmt) (o : X96)
  /-- FCMP (R315): FCMP against a literal. -/
  | fcmpX96 (f : FFmt) (o : X96)
  /-- CVT (R326): Converts between numeric formats with scaling and rounding. -/
  | cvt (o : L64)
  /-- BRA (R205): Unconditional relative branch. -/
  | bra (o : L64)
  /-- BRNZ (R205): Branch if a register is nonzero. -/
  | brnz (o : L64)
  /-- BRZ (R205): Branch if a register is zero. -/
  | brz (o : L64)
  /-- BRK (R205): Branch if the lane's mask bit is set. -/
  | brk (o : L64)
  /-- CALL (R205): Relative call writing a link pair. -/
  | call (o : L64)
  /-- BRA (R205): BRA with a 32-bit displacement. -/
  | braLong (o : X96)
  /-- BRNZ (R205): BRNZ with a 32-bit displacement. -/
  | brnzLong (o : X96)
  /-- BRZ (R205): BRZ with a 32-bit displacement. -/
  | brzLong (o : X96)
  /-- BRK (R205): BRK with a 32-bit displacement. -/
  | brkLong (o : X96)
  /-- CALL (R205): CALL with a 32-bit displacement. -/
  | callLong (o : X96)
  /-- JMP (R205): Jump to a register address plus an offset. -/
  | jmp (o : L64)
  /-- CALLR (R205): Register call writing a link pair. -/
  | callr (o : L64)
  /-- JTAB (R206): Jumps through an indexed table of code addresses. -/
  | jtab (o : L64)
  /-- LIVE (R138): Zeroes the register groups not marked live. -/
  | live (o : X96)
  /-- PHINT (R399): Marks a cheap pre-emption point and its live state. -/
  | phint (o : X96)
  /-- WAITC (R246): Waits until the team's wait counters fall to the limits. -/
  | waitc (o : X96)
  /-- LD (R243): Loads 1 to 16 bytes per lane. -/
  | ld (o : M64)
  /-- ST (R243): Stores 1 to 16 bytes per lane. -/
  | st (o : M64)
  /-- TLD (R255): Loads through the cluster's non-coherent table cache. -/
  | tld (o : M64)
  /-- WATCH (R273): Loads and arms the lane's watch on the line. -/
  | watch (o : M64)
  /-- ATOM.ADD (R257): Atomic add returning the old value. -/
  | atomAdd (o : M64)
  /-- ATOM.FADD (R258): Atomic F32 add, summed exactly and rounded once. -/
  | atomFadd (o : M64)
  /-- ATOM.MIN (R257): Atomic signed minimum. -/
  | atomMin (o : M64)
  /-- ATOM.MAX (R257): Atomic signed maximum. -/
  | atomMax (o : M64)
  /-- ATOM.AND (R257): Atomic AND. -/
  | atomAnd (o : M64)
  /-- ATOM.OR (R257): Atomic OR. -/
  | atomOr (o : M64)
  /-- ATOM.XOR (R257): Atomic XOR. -/
  | atomXor (o : M64)
  /-- ATOM.XCHG (R257): Atomic exchange. -/
  | atomXchg (o : M64)
  /-- ATOM.CAS (R258): Atomic compare-and-swap. -/
  | atomCas (o : M64)
  /-- CPY (R251): Starts an asynchronous contiguous copy on a tag. -/
  | cpy (o : L64)
  /-- CPY2D (R252): Starts an asynchronous two-dimensional copy on a tag. -/
  | cpy2d (o : X96)
  /-- UPD.ADD (R262): Sends add pairs into the update stream. -/
  | updAdd (o : L64)
  /-- UPD.MIN (R262): Sends minimum pairs into the update stream. -/
  | updMin (o : L64)
  /-- UPD.MAX (R262): Sends maximum pairs into the update stream. -/
  | updMax (o : L64)
  /-- UPDCLR (R268): Discards a region's pending pairs and clears TORN. -/
  | updclr (o : L64)
  /-- ZSCAN (R271): Scans a tile and writes its zero-flag record. -/
  | zscan (o : L64)
  /-- MXM.F8 (R333): Accumulates an F8 fragment product. -/
  | mxmF8 (o : L64)
  /-- MXM.S2P8 (R333): Accumulates an S2P8 weight product. -/
  | mxmS2p8 (o : L64)
  /-- MXM.H16 (R333): Accumulates a BF16 or F16 product. -/
  | mxmH16 (o : L64)
  /-- MXM.W (R337): Accumulates a product with the next staged walker tile as B. -/
  | mxmW (o : L64)
  /-- MXZERO (R334): Clears an accumulator slot. -/
  | mxzero (o : L64)
  /-- MXRD (R335): Rounds accumulator rows into lane registers. -/
  | mxrd (o : L64)
  /-- MXST (R335): Rounds an accumulator slot and stores it to memory. -/
  | mxst (o : L64)
  /-- MXSKIP (R338): Decides per row whether a key block is still needed. -/
  | mxskip (o : L64)
  /-- NMV (R340): Issues a trough matrix-vector product on a barrier. -/
  | nmv (o : L64)
  /-- WALK.START (R356): Starts a walk program in the core's walker context. -/
  | walkStart (o : L64)
  /-- WALK.QUERY (R358): Returns the state of the team's walk. -/
  | walkQuery (o : L64)
  /-- EMIT (R373): Sends each lane's record to a literal target node. -/
  | emit (o : L64)
  /-- EMIT (R373): Sends each lane's record to the node named in a register. -/
  | emitReg (o : L64)
  /-- EMIT.SELF (R373): Sends each lane's record to the emitter's own node. -/
  | emitSelf (o : L64)
  /-- EMIT.REMOTE (R376): Reserves space and sends records to a node on another accelerator. -/
  | emitRemote (o : L64)
  /-- BOOT_STAGE_COMPLETE (R32): The agent of a bring-up stage finishes its work and the device advances STAGE to the next stage. -/
  | bootStageComplete (haltcode : Nat)
  /-- BARRIER_ARRIVAL (R365): A lane's barrier arrival is recorded once its team's earlier writes are acknowledged. -/
  | barrierArrival (t lane : Nat)
  /-- HOME_ACCESS (R277): An access is performed at its home, registering ownership for writes. -/
  | homeAccess (a : Nat)
  /-- ACKNOWLEDGEMENT (R278): A write's registration acknowledgement reaches its core, lowering STC and freeing release waits. -/
  | acknowledgement (a : Nat)
  /-- LOAD_RESULT (R243): A load's value is written to its destination and LDC falls. -/
  | loadResult (a : Nat)
  /-- PAIR_ACCEPT (R264): A pen accepts an update pair into its line's bin, acknowledging it. -/
  | pairAccept (p : Nat)
  /-- SC_FLOOR_REACHED (R285): When the fabric floor exceeds an SC operation's timestamp it performs its acquire and access. -/
  | scFloorReached (e : Nat)
  /-- NOP (R169): Does nothing but advance the PC. -/
  | nop
  /-- EXIT (R207): Ends the lane and strikes it from every mask. -/
  | exit
  /-- TRET (R387): Returns from a handler to TPC at user level. -/
  | tret
  /-- FENCE.ACQ (R247): Acquire fence discarding unowned L1 words. -/
  | fenceAcq
  /-- FENCE.REL (R247): Release fence waiting for earlier writes' acknowledgements. -/
  | fenceRel
  /-- FENCE.SC (R247): Release, Lamport timestamp and acquire in SC order. -/
  | fenceSc
  /-- FENCE.TBL (R247): Acquire then invalidation of the cluster's table cache. -/
  | fenceTbl
  /-- UPDFLUSH (R267): Counts in STC until the team's committed pairs are applied. -/
  | updflush
  /-- CANCEL.RUN (R377): Requests CANCEL of the issuing block's graph run. -/
  | cancelRun
  /-- CANCEL.PHASE (R377): Requests CANCEL of the issuing block's phase. -/
  | cancelPhase
  /-- CANCEL.JOB (R377): Requests CANCEL of the issuing block's job. -/
  | cancelJob
  /-- WALK.STOP (R359): Stops the team's walk and frees the context. -/
  | walkStop
  /-- COLD_RESET (R32): Release of the fundamental reset starts bring-up at stage 0x00 and clears all device state. -/
  | coldReset
  /-- WARM_RESET (R33): Warm reset reinitialises all state as in bring-up except the black box, SERIAL and the identity keys. -/
  | warmReset
  /-- VF_RESET (R404): A function level reset cancels the VF's jobs, stops its blocks, discards pen pairs marking regions TORN and resets its registers. -/
  | vfReset (f : Nat)
  /-- THERMAL_STEP (R24): Each millisecond while a die is above 100 C, or while clocks are being restored, firmware moves core and fabric clocks one 100 MHz step. -/
  | thermalStep (temps : List Nat)
  /-- THERMAL_TRIP (R24): A die reaching 115 C junction makes hardware remove the core rails. -/
  | thermalTrip (temps : List Nat)
  /-- WATCHDOG_RESTART (R93): After 100 ms without a heartbeat the monitor resets the scheduler cores and rebuilds each queue from its control block. -/
  | watchdogRestart
  /-- QCREATE (R85): Mailbox command that checks its arguments and creates and enables a work queue. -/
  | qcreate (f : Nat)
  /-- QDESTROY (R85): Mailbox command that disables or frees a work queue. -/
  | qdestroy (f : Nat)
  /-- POLICYLOAD (R88): Mailbox command that checks an NPB image and installs it as the function's policy. -/
  | policyload (f : Nat)
  /-- FWSTAGE (R94): PF mailbox command that verifies a firmware image and makes it the staged image. -/
  | fwstage
  /-- FWACTIVATE (R95): PF mailbox command that activates the staged firmware after the save-layout check. -/
  | fwactivate (w : WatchdogMeet)
  /-- FWFUSE (R94): PF mailbox command that raises the anti-rollback fuses to the running firmware's security version. -/
  | fwfuse
  /-- ATTEST (R37): Attestation request by mailbox or sideband, answered with a doubly signed report captured at acceptance. -/
  | attest (nonce : Option (List Byte))
  /-- TAIL_WRITE (R63): A write of TAIL applies the monotonic-maximum rule, setting STALE or OVERRUN if ignored, and triggers examination. -/
  | tailWrite (f j : Nat) (v : Dbl)
  /-- DOORBELL_BAD_WRITE (R61): A doorbell write of the wrong size, alignment or register is ignored and sets BADDB. -/
  | doorbellBadWrite (f j : Nat)
  /-- QUEUE_REEXAMINE (R65): Every 4,096 cycles while WAITVALID or BLOCKED is set, the queue is examined again. -/
  | queueReexamine (q : Nat)
  /-- HEAD_MIRROR_WRITE (R66): The command processor writes HEAD to the head mirror as a release store within 256 cycles of the last take. -/
  | headMirrorWrite (q : Nat)
  /-- SLICE (R89): Policy event raised every 100 us whose result overrides the function's weight for the next slice. -/
  | slice (f : Nat)
  /-- RUN (R74): Take of a RUN packet: checks, graph validation, admission and appending of entry records. -/
  | run (f : Nat)
  /-- CANCEL_PACKET_RUN (R75): Take of a CANCEL packet at run level, cancelling the named run. -/
  | cancelPacketRun (f : Nat)
  /-- CANCEL_PACKET_PHASE (R75): Take of a CANCEL packet at phase level, cancelling the named phase. -/
  | cancelPacketPhase (f : Nat)
  /-- CANCEL_PACKET_JOB (R75): Take of a CANCEL packet at job level, cancelling the named job. -/
  | cancelPacketJob (f : Nat)
  /-- SETCTR (R73): Take of a SETCTR packet, writing ARG into dependence counter SIGCTR. -/
  | setctr (f : Nat)
  /-- NOP_PACKET (R70): Take of a NOP packet, which completes at take. -/
  | nopPacket (f : Nat)
  /-- RUN_ADMIT (R78): A run waiting for free quota and loft reservation is admitted once its whole charge is free. -/
  | runAdmit (f : Nat)
  /-- ENTRY_RECORD_APPEND (R74): Entry records are read and appended to ENODE's stall, waiting while the stall is at capacity. -/
  | entryRecordAppend (run : Nat)
  /-- PARTOWN_WRITE (R433): A write of a partition-table register assigns a partition to a VF unless a rule makes it ignored. -/
  | partownWrite (who p : Nat) (v : Word)
  /-- QUOTA_WRITE (R79): A write of a quota-block register takes effect or is ignored under the active-function rules. -/
  | quotaWrite (who off : Nat) (v : Word)
  /-- LOFTHBM_WRITE (R103): A write of LOFTHBM resizes the die's HBM loft and its reserved range unless a loft reservation is held. -/
  | lofthbmWrite (who d : Nat) (v : Word)
  /-- PTROOT_WRITE (R232): A PTROOT write invalidates the function's address space and installs a new root, or is ignored whole. -/
  | ptrootWrite (who f : Nat) (v : Dbl)
  /-- INVALIDATE (R236): A write of INVCTL.GO starts a TLB and walk-cache invalidation for a function's range. -/
  | invalidate (who : Nat) (v : Word)
  /-- INVALIDATION_COMPLETE (R236): GO clears once matching entries are removed and accesses using them are accepted. -/
  | invalidationComplete
  /-- REGION_WRITE (R261): A write of a region-table entry, ignored under the VALID rules; clearing VALID sets PENDING. -/
  | regionWrite (who f off : Nat) (v : Dbl)
  /-- REGION_CLEAR_DONE (R261): Once every committed pending pair of the region is applied, PENDING clears and VALID is 0. -/
  | regionClearDone (f i : Nat)
  /-- PREEMPT_SAVE_FUNCTION (R398): PREEMPT OP 0 holds starts of a function and requests pre-emption of its running blocks. -/
  | preemptSaveFunction (f : Nat)
  /-- PREEMPT_SAVE_JOB (R398): PREEMPT OP 1 holds starts of a job and requests pre-emption of its running blocks. -/
  | preemptSaveJob (f job : Nat)
  /-- PREEMPT_RESUME_FUNCTION (R398): PREEMPT OP 2 clears the hold on a function so its saved blocks start again. -/
  | preemptResumeFunction (f : Nat)
  /-- PREEMPT_RESUME_JOB (R398): PREEMPT OP 3 clears the hold on a job so its saved blocks start again. -/
  | preemptResumeJob (f job : Nat)
  /-- CUT (R402): PREEMPT OP 4 freezes every unit of a function and full-saves its resident blocks. -/
  | cut (f : Nat)
  /-- CUT_RESUME (R402): PREEMPT OP 5 releases the units of a cut function in reverse order, delivering saved flits. -/
  | cutResume (f : Nat)
  /-- READBACK (R418): A write of RBCTL.GO reads 64 bytes of device state into RBDATA, or sets ERR. -/
  | readback
  /-- ASSIST_REPLY (R421): A write of ASRVAL delivers the PF's reply to an outstanding referral. -/
  | assistReply (v : Dbl)
  /-- ASSIST_TIMEOUT (R421): A referral left unanswered for its timeout takes its hardware fate. -/
  | assistTimeout (rseq : Nat)
  /-- REGISTER_WRITE (R7): A write to any other register takes effect, clears W1C bits or is ignored as its access code gives. -/
  | registerWrite (who bar off size : Nat) (v : Dbl)
  /-- RECORD_APPEND (R99): A record arriving at its home Yard is appended to its stall, or placed on the waiting list if the stall is FULL. -/
  | recordAppend (em : Nat)
  /-- MUSTER (R106): The Yard takes entries from the head of an eligible stall, forms a block and places it in a bay. -/
  | muster (r node : Nat)
  /-- MUSTER_TIMEOUT (R107): Expiry of a stall's muster timer in GATHERING triggers a partial muster of every entry. -/
  | musterTimeout (r node : Nat)
  /-- BLOCK_START (R111): A core of the home cluster starts the oldest bay block that fits its resident limits. -/
  | blockStart (core : Nat)
  /-- STEALABLE (R112): A block that has stood AGE x 32 cycles in its bay becomes stealable. -/
  | stealable (b : Nat)
  /-- STEAL (R112): Idle cores' steal requests are merged in the combining tree and given stealable blocks, or retry after 64 cycles. -/
  | steal (die : Nat) (cores : List Nat)
  /-- TEAM_PARK (R114): A team whose emission has waited BPI x 256 cycles writes back its state and frees its slots. -/
  | teamPark (t : Nat)
  /-- TEAM_RESUME (R114): A parked team whose emissions are accepted resumes on its own core when a resident slot is free. -/
  | teamResume (t : Nat)
  /-- PROBE_QUIET (R119): A probe reading high for 2,048 fabric cycles reports quiet and the node's inputs close if conditions still hold. -/
  | probeQuiet (r node : Nat)
  /-- BLOCK_RETIRE (R408): A block meeting every retirement condition releases, commits, frees resources and decrements its run's counter. -/
  | blockRetire (b : Nat)
  /-- TRAP_ENTRY (R384): A faulting lane saves trap state, enters trap mode and jumps to its handler. -/
  | trapEntry (t lane : Nat)
  /-- LOGFULL_TIMEOUT (R390): After 100 ms without room the LOGFULL default handler stops the block with reason DEFAULT. -/
  | logfullTimeout (t lane : Nat)
  /-- LINE_FILL (R153): A fetched line arrives at the instruction cache and its parity is checked, refetching once on mismatch. -/
  | lineFill (t : Nat) (va : Dbl) (damage : LineDamage)
  /-- REGISTER_FILL (R136): A register-group fill from the vault completes and the team may issue again. -/
  | registerFill (t : Nat)
  /-- FULL_SAVE (R400): When FORCETO elapses, each unsaved team of a pre-empted block saves fully at its next boundary. -/
  | fullSave (t : Nat)
  /-- SAVED_BLOCK_RESUME (R401): A saved block is checked, restored on a core of its home cluster and continues, or is stopped. -/
  | savedBlockResume (b core : Nat)
  /-- COPY_START (R250): A copy begins its transfer after every earlier overlapping access of its core is performed. -/
  | copyStart (core tag : Nat)
  /-- COPY_COMPLETE (R253): A copy's writes are acknowledged; its range locks are removed, its tag set and CPC lowered. -/
  | copyComplete (core tag : Nat)
  /-- WAITW_TIMEOUT (R274): A WAITW unreleased after 65,536 cycles returns 1. -/
  | waitwTimeout (t lane : Nat)
  /-- ZSCAN_COMPLETE (R271): A zero scan writes its flags and ZSTATE and delivers its status. -/
  | zscanComplete (e : Nat)
  /-- NMV_COMPLETE (R341): A trough NMV finishes, writes y, updates its barrier and removes its range locks. -/
  | nmvComplete (e : Nat)
  /-- MXST_COMPLETE (R335): MXST's element writes are acknowledged and TLC falls. -/
  | mxstComplete (e : Nat)
  /-- FLOOR_BROADCAST (R287): Every 32 fabric cycles the floor is computed and sent to every core. -/
  | floorBroadcast
  /-- RESERVE (R117): A RESERVE message at the target is resolved by gate and stall into GRANT, REFUSE or a wait. -/
  | reserve (m : ReserveMsg)
  /-- GRANT (R117): A GRANT at the emitter lets its records be sent after the release wait. -/
  | grant (token : Nat)
  /-- REFUSE (R117): A REFUSE at the emitter faults the group's lanes EMITNODE or RECDEPTH. -/
  | refuse (token reason : Nat)
  /-- HOLD (R118): A HOLD at the emitter restarts its 10 ms reservation limit. -/
  | hold (token : Nat)
  /-- RECORD (R118): A RECORD message at the target is appended in group index order once complete. -/
  | record (m : RecordMsg)
  /-- ARRIVED (R118): An ARRIVED message lowers the emitting team's EMC. -/
  | arrived (token count : Nat)
  /-- HOLD_TIMER (R118): Every 5 ms the target sends HOLD for each waiting or cut reservation. -/
  | holdTimer
  /-- REMOTE_TIMEOUT (R117): No reply within 10 ms stops the emitting block with reason REMOTETO. -/
  | remoteTimeout (token : Nat)
  /-- LINK_RESET (R417): A UALink port loses its link or retrains, is reported down or up, and a link-reset event with port, cause and last sequence numbers is written to the black box. -/
  | linkReset (port : Nat) (up : Bool) (cause seqs : Nat)
  /-- UNCORRECTED_ECC (R417): An ECC check in an SRAM finds an error: a corrected one is counted in the corrected-error counts, and an uncorrected one writes an Uncorrected ECC event to the black box. -/
  | uncorrectedEcc (die struc : Nat) (addr : Dbl) (corrected : Bool)
  /-- YARD_MESSAGE_DROPPED (R118): A write to the Yard message window that carries an unknown MTYPE, a set reserved bit or a version other than 1 is dropped and counted in the port's error counts. -/
  | yardMessageDropped (port : Nat)
  /-- END (R351): Flushes the partial tile and ends the walk. -/
  | walkEnd
  /-- MOVI (R351): Loads a sign-extended immediate. -/
  | walkMovi (o : WalkOp)
  /-- ADD (R351): 64-bit add. -/
  | walkAdd (o : WalkOp)
  /-- SUB (R351): 64-bit subtract. -/
  | walkSub (o : WalkOp)
  /-- ADDI (R351): Adds a sign-extended immediate. -/
  | walkAddi (o : WalkOp)
  /-- MUL (R351): 64-bit multiply. -/
  | walkMul (o : WalkOp)
  /-- DIVU (R351): Unsigned division. -/
  | walkDivu (o : WalkOp)
  /-- REMU (R351): Unsigned remainder. -/
  | walkRemu (o : WalkOp)
  /-- AND (R351): Bitwise AND. -/
  | walkAnd (o : WalkOp)
  /-- XOR (R351): Bitwise XOR. -/
  | walkXor (o : WalkOp)
  /-- SHLI (R351): Left shift by an immediate. -/
  | walkShli (o : WalkOp)
  /-- SHRI (R351): Logical right shift by an immediate. -/
  | walkShri (o : WalkOp)
  /-- HASH (R351): Mixes two registers by the fixed hash. -/
  | walkHash (o : WalkOp)
  /-- LDI (R351): Loads a 32-bit index from memory. -/
  | walkLdi (o : WalkOp)
  /-- LOOP (R352): Runs the following body a counted number of times. -/
  | walkLoop (o : WalkOp)
  /-- LIDX (R351): Reads the pass index of a loop level. -/
  | walkLidx (o : WalkOp)
  /-- BRZ (R352): Branches if a register is zero. -/
  | walkBrz (o : WalkOp)
  /-- BRNZ (R352): Branches if a register is nonzero. -/
  | walkBrnz (o : WalkOp)
  /-- ROW (R353): Appends a row of strided columns to the tile. -/
  | walkRow (o : WalkOp)
  /-- ROWM (R353): Appends a row of consecutive columns under a mask. -/
  | walkRowm (o : WalkOp)
  /-- CSET (R351): Sets one column-list entry. -/
  | walkCset (o : WalkOp)
  /-- CLD (R351): Loads the 32 column-list entries from memory. -/
  | walkCld (o : WalkOp)
  /-- ROWL (R353): Appends a row from the column list under a mask. -/
  | walkRowl (o : WalkOp)
  /-- MSK (R351): Builds a mask of bits lo to hi. -/
  | walkMsk (o : WalkOp)
  /-- FLUSH (R351): Zero-fills and stages a partial tile. -/
  | walkFlush
  /-- MOVI (R87): Loads a sign-extended immediate. -/
  | npbMovi (o : NpbOp)
  /-- MOVHI (R87): Sets the high 32 bits. -/
  | npbMovhi (o : NpbOp)
  /-- MOV (R87): Copies a register. -/
  | npbMov (o : NpbOp)
  /-- ADD (R87): Adds two registers. -/
  | npbAdd (o : NpbOp)
  /-- SUB (R87): Subtracts two registers. -/
  | npbSub (o : NpbOp)
  /-- ADDI (R87): Adds an immediate. -/
  | npbAddi (o : NpbOp)
  /-- AND (R87): Bitwise AND. -/
  | npbAnd (o : NpbOp)
  /-- OR (R87): Bitwise OR. -/
  | npbOr (o : NpbOp)
  /-- XOR (R87): Bitwise XOR. -/
  | npbXor (o : NpbOp)
  /-- SHL (R87): Left shift. -/
  | npbShl (o : NpbOp)
  /-- SHR (R87): Logical right shift. -/
  | npbShr (o : NpbOp)
  /-- MUL (R87): Low 64 bits of a product. -/
  | npbMul (o : NpbOp)
  /-- DIVU (R87): Unsigned division. -/
  | npbDivu (o : NpbOp)
  /-- MINU (R87): Unsigned minimum. -/
  | npbMinu (o : NpbOp)
  /-- MAXU (R87): Unsigned maximum. -/
  | npbMaxu (o : NpbOp)
  /-- SLTU (R87): Unsigned set-less-than. -/
  | npbSltu (o : NpbOp)
  /-- LDS (R87): Loads from the policy state area. -/
  | npbLds (o : NpbOp)
  /-- STS (R87): Stores to the policy state area. -/
  | npbSts (o : NpbOp)
  /-- LDV (R87): Loads from the event view. -/
  | npbLdv (o : NpbOp)
  /-- BEQ (R87): Forward branch on equality. -/
  | npbBeq (o : NpbOp)
  /-- BNE (R87): Forward branch on inequality. -/
  | npbBne (o : NpbOp)
  /-- BLTU (R87): Forward branch on unsigned less-than. -/
  | npbBltu (o : NpbOp)
  /-- LOOP (R87): Runs the following body COUNT times. -/
  | npbLoop (o : NpbOp)
  /-- RET (R87): Ends the event with the result in q0. -/
  | npbRet
  deriving DecidableEq, Repr

end Sys2Proof
end

