-- ==== Sys2Proof/Machine/State.lean ====
section
/-! DEFINITION. The state of the ZX4 as plain data, the reasons a step can stop, and the state at reset.

Sparse storage is a list of keys and values in one canonical form: keys strictly rising, and no entry equal to the
default, so that equal contents are equal data. The docstring of a field names the rule that gives it. -/
namespace Sys2Proof.Machine

/-- Reasons for which a step stops with a fault. -/
inductive Fault where
  /-- An instruction of a core, a walker or a policy program is executed although no team, walk or policy event is
  running it. Raised by the meanings of encoded instructions when they are run outside `step`, which always names who
  runs them. Safe: it stops where no hardware stands. -/
  | noIssuer
  deriving DecidableEq, Repr

/-- Reasons for which a step is refused. -/
inductive Refusal where
  /-- The instruction has no meaning in the model yet; raised by the arm of `exec`. Safe: it stops. -/
  | notModelled (mnemonic : String)
  deriving DecidableEq, Repr

/-- Sparse storage: keys with values other than the default. -/
abbrev SMap (α : Type) := List (Nat × α)

/-! ### Faults of a lane -/

/-- What a fault of a lane saves (17 R382, R393). -/
structure FaultInfo where
  code : Nat
  cause : Nat := 0
  subcode : Nat := 0
  addr : Dbl := 0
  info : Word := 0
  /-- For the default handlers: for ATOMEMU, the data register of the atomic; for LOGFULL, the die of the log; for a FEATURE of a
  translation, the address, which a walk's marker names (15 R355). -/
  reg : Nat := 0
  /-- For ATOMEMU, which instruction trapped, by the stamp of its step: its lanes are emulated together (10 R260). -/
  ins : Nat := 0
  deriving DecidableEq, Repr

/-- Where an access of a thread stands after its checks (09 R221, R226). -/
inductive Target where
  /-- HBM, by physical address. -/
  | hbm (p : Nat)
  /-- A vault byte: cluster and offset. -/
  | vault (c o : Nat)
  /-- Host memory over PCIe (MT 1), by bus address. (Log 5, DESIGN CHOICE.) -/
  | host (p : Nat)
  /-- Memory of another accelerator (MT 2). (Log 5, DESIGN CHOICE.) -/
  | remote (accel p : Nat)
  /-- The doorbell aperture (03 R62): offset from its base. -/
  | door (o : Nat)
  deriving DecidableEq, Repr

/-! ### Lanes and teams -/

/-- Which barrier instruction a lane executes (16 R366, R371). -/
inductive BarKind where
  | bar | arv | drain
  deriving DecidableEq, Repr

/-- How far the default ATOMEMU handler is for a lane (10 R260). -/
inductive EmuStep where
  /-- It spins for its lock word. -/
  | lock
  /-- It holds the lock. -/
  | held
  /-- MODES.AEMU was set when it began: the PF performs the operation (18 R420). -/
  | ask
  /-- The PF's answer has come while the lane's team does not run (17 R388). -/
  | told (old : Nat)
  /-- No answer has come in time, and the lane's team does not run. -/
  | failed
  /-- The lane has its old value, and waits for the other lanes that trapped at the instruction. -/
  | done
  deriving DecidableEq, Repr

/-- What holds a WAITING lane (05 R123). -/
inductive Wait where
  /-- At mask `k`; the arrival is a release over the accesses `after` (11 R280). -/
  | join (k : Nat) (after : List Nat)
  | waitk (k : Nat) (after : List Nat)
  /-- An arrival at barrier `b` that is not recorded yet: the team's earlier writes `after` must be acknowledged first
  (16 R365, R366). -/
  | arrive (kind : BarKind) (b : Nat) (after : List Nat)
  /-- Arrived at barrier `b`, waiting for its phase to advance. -/
  | phase (b : Nat)
  /-- BAR.WAIT after an arrival (16 R366). -/
  | barWait (b : Nat)
  /-- DRAIN before its condition holds (16 R371). -/
  | drain (b : Nat) (after : List Nat)
  /-- WAITW with its destination (10 R274). -/
  | watch (d : Nat)
  /-- TWAIT with its mask (10 R254). -/
  | tags (all : Bool) (mask : Dbl)
  /-- WAITC with its limits for LDC, STC, CPC and TLC (10 R246). -/
  | counters (ld st cp tl : Nat)
  /-- WAITB with its destination and the barrier's place (14 R343). -/
  | trough (d : Nat) (c o : Nat)
  /-- An EMIT whose record waits (16 R373, R374). -/
  | emit
  /-- An EMIT.REMOTE awaiting its reply (16 R376). -/
  | remote (token : Nat)
  /-- The default LOGFULL handler waits for room in a log of a die: 0 Yard decision log, 1 memory-order log (17 R390). -/
  | logRoom (log die : Nat)
  /-- The default ATOMEMU handler is at work on the lanes that trapped at instruction `ins`, for this one's atomic with data register
  `d` (10 R260). -/
  | emulate (d ins : Nat) (step : EmuStep)
  deriving DecidableEq, Repr

/-- Lane states (05 R123). -/
inductive LaneState where
  | ready
  | waiting (w : Wait)
  | exited
  deriving DecidableEq, Repr

/-- How a lane came to its PC, for the checks of line word and target mark (06 R151, R152). -/
inductive Arrival where
  /-- It stands in a line it already executes in. -/
  | inLine
  /-- By sequential flow, TRET or resumption into a line: the line word is checked. -/
  | newLine
  /-- By a transfer that checks the target mark; `src` is the PC of the transfer (0 at launch). -/
  | transfer (src : Dbl)
  deriving DecidableEq, Repr

/-- A lane's watch (10 R273). -/
inductive Watch where
  | none
  /-- Armed on a 64-byte line: of HBM by its number, of a vault by its number above 2^37. -/
  | armed (line : Nat)
  | triggered
  deriving DecidableEq, Repr

/-- What keeps a READY lane's path from issuing (05 R127; 10 R247; 11 R280, R285). -/
inductive Hold where
  | none
  /-- FENCE.REL: these accesses and pairs must be acknowledged. -/
  | acks (ids : List Nat)
  /-- A release check has freed the lane from its mask, and the arrivals that it freed still wait for these accesses and pairs (08 R213;
  11 R280). -/
  | freed (ids : List Nat)
  /-- FENCE.SC: the operation has not taken step 4. -/
  | sc (e : Nat)
  deriving DecidableEq, Repr

/-- The state of one lane (05 R123, R124; 08 R203; 17 R380, R382). -/
structure Lane where
  st : LaneState := .exited
  pc : Dbl := 0
  pend : Bool := true
  trap : Bool := false
  tpc : Dbl := 0
  tnext : Dbl := 0
  taddr : Dbl := 0
  tstatus : Word := 0
  tinfo : Word := 0
  arrival : Arrival := .inLine
  watch : Watch := .none
  hold : Hold := .none
  /-- Lamport clock of the lane's last FENCE.REL or FENCE.SC, or 0: what its later writes carry to their homes (11 R281,
  18 R414). (Log 15, DEDUCED.) -/
  rel : Nat := 0
  /-- In a version, what happens-before the lane's next instruction: by team, a bound on its issue numbers; what its last release
  fence covers, what its last arrival covers, and what its plain reads have seen released (11 R281, R282, R292). (Log 122,
  DEDUCED.) -/
  know : SMap Nat := []
  fenced : SMap Nat := []
  gave : SMap Nat := []
  heard : SMap Nat := []
  deriving DecidableEq, Repr

/-- An element of the wide accumulator (12 R305): TAG 0 FIN, 1 PINF, 2 NINF, 3 NAN. -/
structure AccElem where
  val : Int := 0
  tag : Nat := 0
  deriving DecidableEq, Repr

/-! ### Graphs, runs, blocks -/

/-- A node header's fields (02 R43). -/
structure Node where
  code : Dbl := 0
  traptab : Dbl := 0
  featreq : Dbl := 0
  vaultb : Nat := 0
  privb : Nat := 0
  shape : Word := 0
  block : Word := 0
  stall : Word := 0
  vers : Word := 0
  succs : List Word := []
  deriving DecidableEq, Repr

/-- The copy of a graph in Yard SRAM (02 R41): its nodes with their successor lists, and its record types. -/
structure Graph where
  nodes : List Node := []
  types : List Dbl := []
  deriving DecidableEq, Repr

/-- A launch packet as copied at its take (03 R69). -/
structure Packet where
  hdr : Word := 0
  phase : Word := 0
  job : Word := 0
  ctrs : Word := 0
  graph : Dbl := 0
  entry : Dbl := 0
  ecount : Word := 0
  enode : Word := 0
  cpl : Dbl := 0
  arg : Word := 0
  rsvd : Word := 0
  usertag : Dbl := 0
  deriving DecidableEq, Repr

/-- Where a graph run stands. -/
inductive RunStage where
  /-- Waits for admission (03 R78). -/
  | waiting
  | admitted
  /-- Completed with this OUTCOME (03 R76). -/
  | done (outcome : Nat)
  deriving DecidableEq, Repr

/-- A graph run (02 R52, R53, R57; 03 R74). -/
structure Run where
  stage : RunStage := .waiting
  /-- The run number assigned at admission (05 R143). -/
  number : Nat := 0
  func : Nat := 0
  job : Nat := 0
  phase : Nat := 0
  /-- The phase in flight that it belongs to, by its id. -/
  unit : Nat := 0
  det : Bool := false
  queue : Nat := 0
  seq : Nat := 0
  packet : Packet := {}
  graph : Graph := {}
  /-- Dies and clusters of the function at admission (04 R97, R111). -/
  dies : List Nat := []
  clusters : List Nat := []
  /-- Entry records appended so far (03 R74). -/
  appended : Nat := 0
  /-- The append of entry records has stopped at a failed read (03 R74). -/
  entryFailed : Bool := false
  /-- Predecessor counters of dependency nodes (02 R52). -/
  pred : SMap Nat := []
  /-- Dependency nodes already launched. -/
  launched : List Nat := []
  /-- Complete nodes (02 R53). -/
  complete : List Nat := []
  /-- A block of the run was stopped (03 R76). -/
  stopped : Bool := false
  cancelled : Bool := false
  /-- Charges held: RUNQ, STALLQ and PREDQ units (03 R78). -/
  charge : Nat × Nat × Nat := (0, 0, 0)
  /-- Loft bytes reserved at each die (04 R101). -/
  loft : SMap Nat := []
  /-- It has completed, and its completion record is still to be written: the counters above it fall after that (18 R409). -/
  ending : Bool := false
  deriving DecidableEq, Repr

/-- A stall entry: record header and record words (04 R98), with its append index (18 R413). -/
structure Entry where
  hdr : Dbl := 0
  words : List Word := []
  index : Nat := 0
  deriving DecidableEq, Repr

/-- An entry of a stall's waiting list: an emission of this device, or a remote reservation's record (04 R113, R117). -/
inductive Waiting where
  | emission (id : Nat)
  /-- The spaces of a reservation that are not granted yet. -/
  | remote (srcAccel token : Nat)
  deriving DecidableEq, Repr

/-- A stall (04 R98, R104 to R108). -/
structure Stall where
  entries : List Entry := []
  waiting : List Waiting := []
  /-- Spaces granted to remote records that have not arrived (04 R117). -/
  granted : Nat := 0
  closed : Bool := false
  /-- The muster timer has expired in GATHERING (04 R107). -/
  expired : Bool := false
  musters : Nat := 0
  appends : Nat := 0
  /-- A quiescence probe is in flight (04 R119). -/
  probe : Bool := false
  /-- The referral that asks the PF in place of the tree, plus one, or 0: MODES decides it when the probe starts (18 R420,
  R421). -/
  asked : Nat := 0
  /-- Its chain of segments (04 R100, 19 R424): tier (0 stall SRAM, 1 L2 loft, 2 HBM loft), entries, room at the end. -/
  segs : List (Nat × Nat × Nat) := []
  /-- The issue whose records are arriving, plus one, or 0 (16 R373). (Log 58, DEDUCED.) -/
  group : Nat := 0
  /-- The muster timer: the time in force when it started, in units of 256 cycles; 0 when it does not run (04 R103, R107). -/
  timer : Nat := 0
  /-- Since which cycle a muster may take from it, plus one, or 0 (04 R106). -/
  since : Nat := 0
  deriving DecidableEq, Repr

/-- Where a block stands (04 R111, R112; 17 R398). -/
inductive Place where
  /-- Referred to the PF for its cluster (04 R121). -/
  | referred
  /-- In the bay of its home cluster. -/
  | bay (stealable : Bool)
  | running
  /-- Pre-empted: every team is in its save image (17 R401). -/
  | saved
  /-- Stopped or exited, waiting for its last acknowledgements. -/
  | retired
  deriving DecidableEq, Repr

/-- A barrier of a block: arrival set by thread and phase count (16 R365). -/
structure Barrier where
  arr : BitVec 1024 := 0
  ph : BitVec 16 := 0
  /-- In a version, what the arrivals of this phase, and of the last completed one, carry. (Log 122, DEDUCED.) -/
  clock : SMap Nat := []
  last : SMap Nat := []
  deriving DecidableEq, Repr

/-- A held record of a version (16 R375). -/
structure HeldRec where
  node : Nat := 0
  team : Nat := 0
  entry : Entry := {}
  deriving DecidableEq, Repr

/-- A block (02 R57; 04 R110, R111; 17 R394, R395). -/
structure Block where
  place : Place := .bay false
  run : Nat := 0
  node : Nat := 0
  muster : Nat := 0
  func : Nat := 0
  job : Nat := 0
  /-- Records of the block, held in the loft until retirement (04 R110). -/
  records : List Entry := []
  dep : Bool := false
  cluster : Nat := 0
  core : Nat := 0
  teams : List Nat := []
  bars : SMap Barrier := []
  /-- Block event counters, keyed 4 · f + e (12 R309). -/
  events : SMap Nat := []
  vbase : Dbl := 0
  abase : Dbl := 0
  arena : Nat := 0
  taskid : Dbl := 0
  /-- Held writes of a version, by physical address (17 R395). -/
  held : List Host.Cell := []
  /-- Physical addresses whose byte is held, where the held byte is zero (the list above keeps no zero). -/
  heldZero : List Nat := []
  /-- Who wrote a held byte, each as team, lane and first issue number; and what the releases of the block's writes to a word
  carry (11 R292). (Log 122, DEDUCED.) -/
  heldBy : SMap (List (Nat × Nat × Nat)) := []
  words : SMap (SMap Nat) := []
  heldRecs : List HeldRec := []
  heldPairs : Nat := 0
  /-- Pre-emption request pending (17 R398). -/
  preempt : Bool := false
  /-- A full save of some team occurred; ranges named by PHINT saves (17 R400). -/
  fullSave : Bool := false
  vranges : List (Nat × Nat) := []
  /-- Vault bytes saved, by offset from VBASE (17 R400). -/
  savedVault : List Host.Cell := []
  /-- SAVELAYOUT and KIND of the save image (17 R401). -/
  saveLayout : Nat := 0
  saveKind : Nat := 0
  /-- Offset of the image in the die's save area; its bytes have been altered, so that its CHECK no longer matches (17 R401).
  (Log 112, DESIGN CHOICE.) -/
  saveAt : Nat := 0
  saveBad : Bool := false
  /-- Stop reason, or 0 (17 R389). -/
  stop : Nat := 0
  /-- The time at which it reached its bay, as an order of arrival. -/
  arrived : Nat := 0
  /-- The time at which it became stealable, plus one, or 0 (04 R112). -/
  stealAt : Nat := 0
  /-- A placement that waits for the decision log: cluster plus one, plus 256 when the PF chose it; or 0 (04 R120, R121).
  (Log 94, DEDUCED.) -/
  placing : Nat := 0
  deriving DecidableEq, Repr

/-! ### Memory operations in flight -/

/-- What an access does at its home (10 R243, R258, R273). -/
inductive AccKind where
  | load | tload | watch | store
  /-- An atomic: its OP10 less 0x204 (10 R257). -/
  | atomic (op : Nat)
  deriving DecidableEq, Repr

/-- Progress of an access (11 R277, R278). -/
inductive AccStage where
  | issued
  /-- Performed at the home; a load's or atomic's value. -/
  | performed (value : BitVec 128)
  deriving DecidableEq, Repr

/-- One lane's access in flight (11 R276). Its number gives program order. -/
structure Access where
  id : Nat
  /-- Number of the instruction issue it belongs to. -/
  ins : Nat
  kind : AccKind
  team : Nat
  block : Nat
  core : Nat
  lane : Nat
  func : Nat
  /-- The virtual address, for logs and traps. -/
  va : Dbl
  target : Target
  /-- Size in bytes. -/
  size : Nat
  /-- Plain 0, acquire 1, release 2, SC 3 (10 R162). -/
  ord : Nat
  /-- First data register and the number of result registers. -/
  dest : Nat
  ndest : Nat
  sx : Bool
  nol1 : Bool
  data : BitVec 128
  data2 : BitVec 128
  /-- Timestamp of an SC operation (11 R285), or the lane's last release clock for a plain write (18 R414), or 0.
  (Log 15, DEDUCED.) -/
  ts : Nat
  /-- The floor has passed the timestamp. -/
  floored : Bool
  /-- The issuing lane was in trap mode. -/
  supervisor : Bool
  stage : AccStage
  /-- Event indices of the element that it writes, counted as it is performed (12 R309). -/
  events : List Nat := []
  /-- In a version, what happens-before it, and what it carries as, or after, a release (11 R292). (Log 122, DEDUCED.) -/
  knows : SMap Nat := []
  carries : SMap Nat := []
  /-- The cluster's table cache lacked the line of this TLD when it was issued: its fill is in flight (10 R256). -/
  missed : Bool := false
  deriving DecidableEq, Repr

/-- An update pair (10 R262, R264). -/
structure Pair where
  id : Nat
  ins : Nat
  team : Nat
  block : Nat
  core : Nat
  lane : Nat
  q : Nat
  func : Nat
  region : Nat
  /-- Physical address of the key. -/
  p : Nat
  /-- Its address as the thread names it, for range locks (10 R249, R250). -/
  va : Dbl := 0
  value : Dbl
  /-- TYPE and OP of RCTL (10 R261). -/
  ty : Nat
  op : Nat
  accepted : Bool
  /-- Held by a version (10 R266). -/
  held : Bool
  /-- Its job, and whether the job is in deterministic mode (18 R410, R412). -/
  job : Nat := 0
  det : Bool := false
  deriving DecidableEq, Repr

/-- A copy on a tag (10 R251 to R253). -/
structure Copy where
  /-- Number of the operation, in issue order. -/
  op : Nat := 0
  func : Nat := 0
  team : Nat := 0
  block : Nat := 0
  lane : Nat := 0
  supervisor : Bool := false
  dst : Dbl := 0
  src : Dbl := 0
  rows : Nat := 1
  rowBytes : Nat := 0
  dstStride : Int := 0
  srcStride : Int := 0
  started : Bool := false
  /-- Bytes copied so far. -/
  done : Nat := 0
  /-- Source bytes read before any was written, where the ranges overlap. -/
  buffer : List Byte := []
  /-- The fault of the first source byte after those. -/
  bufferEnd : Option FaultInfo := none
  overlap : Bool := false
  /-- The fault at which the copy stopped. -/
  failed : Option FaultInfo := none
  aborted : Bool := false
  /-- In a version, what happens-before it. (Log 122, DEDUCED.) -/
  knows : SMap Nat := []
  /-- Clock of its lane's last release fence, and what that fence carries: its writes follow the fence (11 R281). (Log 15, DEDUCED.) -/
  rel : Nat := 0
  carries : SMap Nat := []
  deriving DecidableEq, Repr

/-- An error that a copy left on its tag (10 R253). -/
structure TagError where
  tag : Nat
  code : Nat
  cause : Nat
  addr : Dbl
  deriving DecidableEq, Repr

/-- A tile handle's fields (02 R54). -/
structure Handle where
  base : Dbl := 0
  fmt : Nat := 0
  rows : Nat := 1
  cols : Nat := 1
  stride : Nat := 0
  scale : Int := 0
  zfi : Nat := 0
  bits : BitVec 128 := 0
  deriving DecidableEq, Repr

/-- What an engine operation in flight does. -/
inductive EngineKind where
  /-- ZSCAN of a handle (10 R271); the status found at issue when it has no record to write. -/
  | zscan (h : Handle) (d : Nat) (early : Option Nat)
  /-- NMV (14 R339): y, x, handle, barrier place, formats, mode, SAT. -/
  | nmv (y x : Dbl) (h : Handle) (bc bo : Nat) (yfmt xfmt mode : Nat) (sat : Bool)
  /-- MXST's stores: their accesses are in flight under this operation's issue number (14 R335). -/
  | mxst
  /-- FENCE.SC with its timestamp (11 R285). -/
  | fenceSc (ts : Nat)
  /-- UPDFLUSH: pair numbers below this bound (10 R267). -/
  | updflush (bound : Nat)
  deriving DecidableEq, Repr

/-- An engine operation in flight. -/
structure Engine where
  id : Nat
  ins : Nat
  kind : EngineKind
  team : Nat
  block : Nat
  core : Nat
  func : Nat
  lane : Nat
  lanes : List Nat
  supervisor : Bool
  aborted : Bool
  /-- A ZSCAN has written ZSTATE 0 and is in progress (10 R271, 14 R345). -/
  begun : Bool := false
  /-- In a version, what happens-before it. (Log 122, DEDUCED.) -/
  knows : SMap Nat := []
  /-- Clock of its lane's last release fence, and what that fence carries: its writes follow the fence (11 R281). (Log 15, DEDUCED.) -/
  rel : Nat := 0
  carries : SMap Nat := []
  deriving DecidableEq, Repr

/-- An entry of a core's range-lock table (10 R249); `win` 0 global virtual, 1 vault (by cluster and offset), and
private ranges stand as their global alias. `op` names the operation that registered it. -/
structure RangeLock where
  slot : Nat
  first : Nat
  last : Nat
  dst : Bool
  func : Nat
  vault : Bool
  priv : Bool
  op : Nat
  deriving DecidableEq, Repr

/-! ### The layout walker -/

/-- One level of a walk's loop stack (15 R349). -/
structure WalkLoop where
  count : Nat
  pass : Nat
  first : Nat
  last : Nat
  deriving DecidableEq, Repr

/-- A staged item (15 R346, R355). -/
inductive Staged where
  /-- A tile: its FMT code and its K · 32 elements, row by row. -/
  | tile (fmt : Nat) (elems : List Half)
  /-- A fault marker: code, the read's own code and cause, address, tile number. -/
  | marker (code sub cause : Nat) (addr : Dbl) (t : Nat)
  deriving DecidableEq, Repr

/-- A walker context (15 R346, R349). -/
structure Walker where
  /-- The owning team's number plus one, or 0. -/
  owner : Nat := 0
  running : Bool := false
  /-- The walk ended at a fault marker. -/
  faulted : Bool := false
  staged : List Staged := []
  produced : Nat := 0
  y : SMap Dbl := []
  wpc : Nat := 0
  loops : List WalkLoop := []
  cols : SMap Dbl := []
  t : Nat := 0
  k : Nat := 0
  /-- Rows of the partial tile. -/
  part : List Half := []
  handle : Handle := {}
  shape : Nat := 0
  transposed : Bool := false
  /-- Address of the image, and of the running section's first instruction. -/
  image : Dbl := 0
  section0 : Dbl := 0
  /-- Instructions in the running section. -/
  len : Nat := 0
  /-- The lane that started it, its level, and the ZFLAG permission (15 R355, R360). -/
  lane : Nat := 0
  supervisor : Bool := false
  zflag : Bool := false
  /-- The accesses of the issuing team that the walk waits for (15 R357). (Log 34, DEDUCED.) -/
  after : List Nat := []
  lockOp : Nat := 0
  /-- Number of its WALK.START, and in a version what happens-before it. (Log 122, DEDUCED.) -/
  op : Nat := 0
  knows : SMap Nat := []
  deriving DecidableEq, Repr

/-! ### Teams -/

/-- The state of a team (05 R123 to R129, R134; 10 R245; 16 R370, R373). Vector registers are keyed 512 · lane + register,
index registers 4 · lane + number, accumulator elements 1024 · slot + 32 · row + column. -/
structure Team where
  block : Nat := 0
  index : Nat := 0
  core : Nat := 0
  /-- The team holds a resident slot; a parked or saved team does not. -/
  resident : Bool := false
  parked : Bool := false
  saved : Bool := false
  /-- Number of its resident slot (05 R130, 18 R435). -/
  slot : Nat := 0
  /-- The order in which teams parked (04 R114). -/
  parkedAt : Nat := 0
  /-- Its context stands in the die's overflow area (04 R115). -/
  overflowed : Bool := false
  lanes : SMap Lane := []
  v : SMap Word := []
  x : SMap Word := []
  w : SMap Word := []
  k : SMap Dbl := []
  acc : SMap AccElem := []
  insns : BitVec 16 := 0
  fcnt : Nat := 0
  fair : BitVec 16 := 512
  ldc : Nat := 0
  stc : Nat := 0
  cpc : Nat := 0
  tlc : Nat := 0
  emc : Nat := 0
  eseq : Word := 0
  /-- The service list (08 R209): the PC of each path, in order. -/
  service : List Dbl := []
  /-- The path last served, for FCNT: by a lane of it, which it is followed by while its lanes wait. -/
  lastLane : Option Nat := none
  /-- Cycle of the last issue, for the victim classes (05 R137). -/
  lastIssue : Nat := 0
  /-- Register groups whose fill is outstanding (05 R136), and the groups that the instruction names (R137). -/
  filling : List Nat := []
  fillFor : List Nat := []
  /-- The team has been told to park and parks as soon as it may (04 R114, 05 R137). -/
  parking : Bool := false
  /-- At its park deadline the areas could not take it: it keeps its slot until its emissions have been accepted (04 R115). -/
  stays : Bool := false
  /-- The registers as its context in the vault or the overflow area holds them (05 R134 to R136); keyed as `v`. -/
  vback : SMap Word := []
  /-- Offset of its context in the cluster's context region or the die's overflow area, and of its record in the die's park
  area. (Log 112, DESIGN CHOICE.) -/
  ctxAt : Nat := 0
  parkAt : Nat := 0
  /-- Zero map: keys 32 · lane + group of groups not marked all zero (05 R135). -/
  nonzero : SMap Bool := []
  /-- Generator context saved with the team at pre-emption (15 R362). -/
  walk : Option Walker := none
  deriving DecidableEq, Repr

/-! ### Cores and clusters -/

/-- A register group in a write-back buffer: its team, its number, and its registers, keyed as `Team.v` (05 R136). -/
structure WriteBack where
  team : Nat
  group : Nat
  vals : SMap Word
  deriving DecidableEq, Repr

/-- A core (05 R127; 10 R249, R253, R262; 11 R285). -/
structure Core where
  /-- Resident blocks, by start time. -/
  blocks : List Nat := []
  /-- The rotating pointer over them. -/
  pointer : Nat := 0
  tags : Dbl := 0xFFFFFFFFFFFFFFFF
  tagErrs : List TagError := []
  copies : SMap Copy := []
  locks : List RangeLock := []
  /-- By how much the core's Lamport clock leads CYCLE (11 R285). (Log 98, DEDUCED.) -/
  lead : Nat := 0
  q : Nat := 0
  /-- Cached register groups, most recently used first: team and group (05 R135). -/
  rcache : List (Nat × Nat) := []
  /-- Dirty victims in the write-back buffer, oldest first (05 R136). -/
  wbuf : List WriteBack := []
  walker : Walker := {}
  deriving DecidableEq, Repr

/-- A line in a core's instruction cache (06 R153, R156): function, line address, its sixteen words. -/
structure ILine where
  core : Nat
  func : Nat
  va : Nat
  words : List Word
  deriving DecidableEq, Repr

/-- A word in a core's L1 (09 R233, 11 R278). -/
structure L1Word where
  core : Nat
  /-- Physical word number. -/
  word : Nat
  val : Word
  owned : Bool
  deriving DecidableEq, Repr

/-- A line of a cluster's table cache (10 R256): 64 bytes of HBM as filled. -/
structure TLine where
  cluster : Nat
  line : Nat
  bytes : List Byte
  deriving DecidableEq, Repr

/-- A translation held in a TLB (09 R236): function, 4 KiB virtual page, leaf entry and level. -/
structure TlbEntry where
  cluster : Nat
  /-- The core whose L1 TLB holds it; none for the L2 TLB of the cluster. -/
  core : Option Nat := none
  func : Nat
  page : Nat
  pte : Dbl
  level : Nat
  deriving DecidableEq, Repr

/-- A non-leaf entry in a die's walk cache (09 R236): function, level of its table, the address bits above what it maps, and the
entry. -/
structure WalkEntry where
  die : Nat
  func : Nat
  level : Nat
  part : Nat
  entry : Nat
  deriving DecidableEq, Repr

/-- Owner of a word at its home (11 R278): the core plus one, or 0; with the timestamp of the release that registered it
(18 R414). -/
structure Owner where
  core : Nat := 0
  ts : Nat := 0
  deriving DecidableEq, Repr

/-- What a function's device writes that wait for room in the memory-order log hold up (03 R76; 18 R409, R415). -/
inductive PostedKind where
  /-- A write of `size` bytes at `addr`. -/
  | write
  /-- The vector `addr`. -/
  | vector
  /-- The decrement of SIGCTR `addr`. -/
  | counter
  /-- The fall of the counters above run `addr`. -/
  | run
  deriving DecidableEq, Repr

/-- Something that the device does for a function once the writes before it have been made (03 R76; 18 R409, R415). -/
structure Posted where
  func : Nat
  kind : PostedKind := .write
  addr : Nat
  size : Nat := 0
  val : Nat := 0
  deriving DecidableEq, Repr

/-! ### Emissions and remote records -/

/-- An emitted record on its way (16 R373). -/
structure Emission where
  id : Nat
  /-- Number of the issue that sent it: the records of one issue that reach one stall stand together (16 R373). -/
  ins : Nat
  team : Nat
  block : Nat
  core : Nat
  lane : Nat
  run : Nat
  node : Nat
  entry : Entry
  /-- Accesses that the release waits for. -/
  after : List Nat
  /-- It stands on the waiting list of its stall. -/
  listed : Bool
  /-- Its release wait is over: it has been sent, and EMC counts it (16 R370, R373). -/
  sent : Bool := false
  deriving DecidableEq, Repr

/-- A reservation sent to another accelerator (16 R376; 04 R117). -/
structure RemoteOut where
  token : Nat
  team : Nat
  block : Nat
  accel : Nat
  node : Nat
  job : Nat
  sizem1 : Nat
  depth : Nat
  lanes : List Nat
  records : List (List Word)
  after : List Nat
  granted : Bool
  /-- Records acknowledged so far. -/
  arrived : Nat
  deriving DecidableEq, Repr

/-- A reservation received from another accelerator (04 R117). -/
structure RemoteIn where
  srcAccel : Nat
  token : Nat
  run : Nat
  node : Nat
  count : Nat
  depth : Nat
  granted : Nat
  records : List (Nat × List Word)
  appended : Nat
  deriving DecidableEq, Repr

/-- A message sent on UALink (04 R118): type, this device's accelerator identifier, target accelerator, token, its body words,
and the port that carries it, none where no port reaches the target. (Log 28, DESIGN CHOICE.) -/
structure SentMsg where
  mtype : Nat
  src : Nat
  accel : Nat
  token : Nat
  body : List Word
  port : Option Nat
  deriving DecidableEq, Repr

/-- A received Yard message (04 R118), as a port saves it at a cut (17 R403). -/
inductive Flit where
  | reserve (m : ReserveMsg)
  | record (m : RecordMsg)
  | grant (token : Nat)
  | refuse (token reason : Nat)
  | hold (token : Nat)
  | arrived (token count : Nat)
  deriving DecidableEq, Repr

/-- A saved flit: function, link sequence number, message (17 R403). (Log 92, DEDUCED.) -/
structure CutFlit where
  func : Nat
  seq : Nat
  flit : Flit
  deriving DecidableEq, Repr

/-! ### Functions, queues, Yards -/

/-- A region-table entry (10 R261). -/
structure Region where
  rbase : Dbl := 0
  rctl : Dbl := 0
  /-- The RCTL that a write which clears VALID leaves once PENDING is over. -/
  next : Dbl := 0
  deriving DecidableEq, Repr

/-- A function's registers and policy (03 R77, R84, R89; 09 R232; 10 R260, R261, R270; 12 R310; 17 R392). -/
structure Func where
  qbase : Word := 0
  qcount : Word := 0
  dctrs : Word := 0
  stallq : Word := 0
  predq : Word := 0
  runq : Word := 0
  weight : Word := 0
  /-- WEIGHT as the arbitration round in progress takes it (03 R79). -/
  share : Nat := 0
  useRun : Nat := 0
  useStall : Nat := 0
  usePred : Nat := 0
  ctr : SMap Word := []
  mbBusy : Bool := false
  /-- The command in progress, 0 when none. -/
  mbCmd : Nat := 0
  mbResult : BitVec 16 := 0
  mbArg0 : Dbl := 0
  mbArg1 : Dbl := 0
  mbArg2 : Dbl := 0
  mbArg3 : Dbl := 0
  mbRes : Dbl := 0
  mbEvt : Word := 0
  policy : Option (List Dbl) := none
  policyMem : SMap Dbl := []
  policyFaults : Nat := 0
  override : Nat := 0
  /-- The queue that the PF's answer to a PICKS referral selects, plus one, or 0 (03 R83, 18 R421). -/
  pick : Nat := 0
  takes : Nat := 0
  ptroot : Dbl := 9
  /-- A root that has been written and is installed once the implied invalidation completes (09 R232, R238). -/
  newRoot : Option Dbl := none
  privarena : Dbl := 0
  privarsz : Dbl := 0
  waymask : Word := 0xFFFF
  gates : SMap Dbl := []
  lockTab : Dbl := 0
  zfbase : Dbl := 0
  evtbase : Dbl := 0
  evtctl : Word := 0
  evtstat : Word := 0
  stopbase : Dbl := 0
  stopctl : Word := 0
  stopcnt : Word := 0
  regions : SMap Region := []
  /-- Starts held by a pre-emption of the function; jobs held (17 R398). -/
  held : Bool := false
  heldJobs : List Nat := []
  cut : Bool := false
  /-- Link sequence number of the last flit delivered for the function (17 R403). -/
  lastFlit : Nat := 0
  deriving DecidableEq, Repr

/-- A control-block copy of a queue (03 R91). -/
structure QCopy where
  ringbase : Dbl := 0
  headmir : Dbl := 0
  cfg : Word := 0
  qstate : Word := 0
  seq : Word := 0
  check : Word := 0
  deriving DecidableEq, Repr

/-- The weighted round robin among functions (03 R83): the functions still to be visited in the round, the one visited at its
head; the takes that one has left; one more than the function served last, or 0. (Log 50, DEDUCED.) -/
structure Arbiter where
  rest : List Nat := []
  left : Nat := 0
  next : Nat := 0
  deriving DecidableEq, Repr

/-- A phase in flight (02 R57): the job it belongs to, its number, and whether a CANCEL of it has been accepted. -/
structure Phase where
  id : Nat
  jobId : Nat
  phase : Nat
  cancelled : Bool
  deriving DecidableEq, Repr

/-- A phase or job that has completed, with its status (02 R57 to R59): none for a job, COMPLETE or CANCELLED.
(Log 105, DESIGN CHOICE.) -/
structure Ended where
  func : Nat
  job : Nat
  phase : Option Nat
  cancelled : Bool
  deriving DecidableEq, Repr

/-- A taken packet of a queue, for BARRIER and run-level CANCEL (03 R72, R75): sequence, KIND, run number plus one for
an accepted RUN, completed. -/
structure Taken where
  seq : Nat
  kind : Nat
  run : Nat
  completed : Bool
  deriving DecidableEq, Repr

/-- A hardware work queue (03 R60, R61, R91). -/
structure Queue where
  created : Bool := false
  err : Bool := false
  owner : Nat := 0
  ringbase : Dbl := 0
  headmir : Dbl := 0
  log2 : Nat := 0
  vector : Nat := 0
  head : Nat := 0
  tail : Nat := 0
  overrun : Bool := false
  reject : Bool := false
  baddb : Bool := false
  stale : Bool := false
  waitvalid : Bool := false
  blocked : Bool := false
  /-- A head-mirror write is due (03 R66). -/
  mirrorDue : Bool := false
  /-- The head was takeable at the last examination; when that began, as an order. -/
  takeable : Bool := false
  /-- Its examination waits for room in the memory-order log (18 R415). -/
  unread : Bool := false
  readySince : Nat := 0
  taken : List Taken := []
  /-- Entries read ahead: sequence and contents (03 R64, R80). -/
  ahead : List (Nat × BitVec 512) := []
  copyA : QCopy := {}
  copyB : QCopy := {}
  deriving DecidableEq, Repr

/-- A Yard's registers and storage use (04 R100 to R103). -/
structure Yard where
  cfg : Word := 0x0210104B
  loftl2 : Word := 64
  lofthbm : Word := 4096
  /-- Loft bytes reserved by runs (04 R101). -/
  reserved : Nat := 0
  mode : Word := 0
  ylbase : Dbl := 0
  ylsize : Word := 0
  ylhead : Dbl := 0
  yltail : Dbl := 0
  mlbase : Dbl := 0
  mlsize : Word := 0
  mlhead : Dbl := 0
  mltail : Dbl := 0
  /-- Black box (18 R417): entries kept, newest last, each 64 bytes as a number's bits, and BBHEAD. -/
  bbox : List (BitVec 512) := []
  bbhead : Dbl := 0
  /-- Core clock of the die in MHz, junction temperature over 100 °C and not yet back at 95 °C (01 R24). -/
  coreMHz : Nat := 1200
  corrected : Nat := 0
  deriving DecidableEq, Repr

/-- A job in flight: its mode (03 R74), its graph copies by address (02 R41), and whether it is cancelled (02 R58). -/
structure Job where
  id : Nat := 0
  func : Nat
  job : Nat
  det : Bool
  graphs : List (Nat × Graph)
  cancelled : Bool := false
  deriving DecidableEq, Repr

/-- Who waits for a referred page walk (09 R236, R237): the cluster and team of an access, and who of the team makes it: a lane, by its
number, with the PC at which it waits, or an engine operation, by 64 more than its number. -/
structure Waiter where
  cluster : Nat
  team : Nat
  asks : Nat
  pc : Dbl
  deriving DecidableEq, Repr

/-- An outstanding referral to the PF (18 R421, R434). -/
structure Referral where
  rseq : Nat
  /-- MODES bit number. -/
  mode : Nat
  die : Nat
  func : Nat
  arg0 : Dbl
  arg1 : Dbl
  /-- Continuation entries, 32 bytes each. -/
  cont : List (BitVec 256)
  /-- Whether its entries stand in the ring. -/
  posted : Bool
  /-- What the reply acts on: block, run and node, team and lane, token. -/
  obj : Nat
  obj2 : Nat
  /-- Of a page walk, who waits for it (09 R236). -/
  who : List Waiter := []
  /-- Of a page walk, that its range has been invalidated, or its root replaced, while it was in flight: its reply is discarded
  (09 R236). -/
  stale : Bool := false
  deriving DecidableEq, Repr

/-- The reply to a referred page walk that says the walk fails, for one that waits for it; level 0 for a reply that did not come in
time (09 R237). (Log 43, DEDUCED.) -/
structure WalkAnswer where
  who : Waiter
  func : Nat
  page : Nat
  pte : Dbl
  level : Nat
  deriving DecidableEq, Repr

/-- A policy event being run (03 R86, R87, R89). -/
structure PolicyRun where
  func : Nat := 0
  prog : List Dbl := []
  view : List Dbl := []
  q : SMap Dbl := []
  pc : Nat := 0
  /-- The running loop: register, count, pass, first, last. -/
  loop : Option (Nat × Nat × Nat × Nat × Nat) := none
  /-- Result, once the event has ended; none after a policy fault. -/
  ended : Bool := false
  faulted : Bool := false
  deriving DecidableEq, Repr

/-- The staged firmware image (03 R94): version, layout, security version and the image itself. -/
structure FwImage where
  ver : Word
  layout : Word
  sec : Nat
  image : List Byte
  deriving DecidableEq, Repr

/-- The modes of a Nolle core (03 R81). -/
inductive NolleMode where
  | monitor | scheduler | user
  deriving DecidableEq, Repr

/-- The regions that PMP grants a plug-in (03 R82). -/
inductive PmpRegion where
  | interpreter
  | bytecode (func : Nat)
  | stateArea (func : Nat)
  | view (func : Nat)
  deriving DecidableEq, Repr

/-- A PMP entry: a region and the accesses it grants (03 R81, R82). -/
structure PmpEntry where
  region : PmpRegion
  r : Bool
  w : Bool
  x : Bool
  deriving DecidableEq, Repr

/-- A Nolle core (03 R81): its mode, whether it runs, and its PMP entries, of which it has 16. -/
structure NolleCore where
  mode : NolleMode := .monitor
  up : Bool := false
  pmp : List PmpEntry := []
  deriving DecidableEq, Repr

/-- What the host, a peer or the management sideband was last given (01 R29, R31; 04 R118). (Log 101, DESIGN CHOICE.) -/
inductive Reply where
  | none
  /-- The bytes read, lowest first. -/
  | data (bytes : List Byte)
  /-- Request Retry Status (01 R31). -/
  | retry
  deriving DecidableEq, Repr

/-- The device as a whole (01 R24, R28, R30, R32, R36; 03 R81). (Log 3, DESIGN CHOICE.) -/
structure Device where
  stage : BitVec 8 := 0
  haltcode : BitVec 8 := 0
  fwver : Word := 0
  savelayout : Word := 0
  secver : Nat := 0
  fuse : Nat := 0
  staged : Option FwImage := none
  meas : SMap (BitVec 384) := []
  fabricMHz : Nat := 2400
  throttling : Bool := false
  railsOff : Bool := false
  /-- Warm resets since cold reset (18 R417). -/
  boots : Word := 0
  /-- The report last sent over the management sideband (01 R37). -/
  sideband : List Byte := []
  schedulerUp : Bool := false
  /-- Ports that the PF has enabled, and ports on which it has enabled UALinkSec (01 R28, R32). -/
  portOn : BitVec 16 := 0
  portSec : BitVec 16 := 0
  /-- The eight Nolle cores (03 R81). -/
  nolle : SMap NolleCore := [(0, { up := true })]
  /-- The answer to the last read from outside. -/
  reply : Reply := .none
  deriving DecidableEq, Repr

/-- Registers of the PF's BAR0 that belong to the device as a whole (06 R153; 09 R235, R236; 17 R398; 18 R418, R421). -/
structure PfRegs where
  partown : SMap (BitVec 8) := []
  hbmil : Dbl := 0xFFFFFFFFFFFFFFFF
  invva : Dbl := 0
  invctl : Word := 0
  preempt : Word := 0
  forceto : Word := 100
  errvec : Word := 0
  rbaddr : Dbl := 0
  rbctl : Word := 0
  rbdata : BitVec 512 := 0
  asbase : Dbl := 0
  asctl : Word := 0
  ashead : Dbl := 0
  astail : Dbl := 0
  asrseq : Dbl := 0
  asrval : Dbl := 0
  asrvalhi : Dbl := 0
  deriving DecidableEq, Repr

/-- Who runs the instruction being executed (05 R125): a team's issue group, with the fetched instruction's first word
for TINFO and its length in slots. -/
structure Issue where
  team : Nat
  pc : Dbl
  /-- Lanes of the issue group. -/
  group : List Nat
  len : Nat
  word : Word
  deriving DecidableEq, Repr

/-- What a configuration read asks (01 R26). (Log 102, DESIGN CHOICE.) -/
inductive ConfigItem where
  /-- The Table Size field of the MSI-X capability: vectors less one, as PCIe encodes it. -/
  | msixTableSize
  /-- Whether a capability is there. -/
  | aer | acs | ats | pri
  /-- Virtual functions of the PF. -/
  | totalVfs
  deriving DecidableEq, Repr

/-- What the management sideband reads (01 R29). -/
inductive SidebandItem where
  | identity
  | blackBox (die n : Nat)
  /-- 64 bytes of read-back state, by RBADDR (18 R418, R435). -/
  | readback (addr : Dbl)
  deriving DecidableEq, Repr

/-- An agent's next action (log 1, DESIGN CHOICE). -/
inductive Turn where
  /-- One core cycle passes. -/
  | tick
  /-- Core `n` issues one instruction of one issue group. -/
  | issue (core : Nat)
  /-- The walker context of core `n` runs one walk instruction. -/
  | walk (core : Nat)
  /-- The Nolle complex runs one instruction of the current policy event. -/
  | policy
  /-- A step of the device, its Yards, its host interface or its links. (Log 97, DESIGN CHOICE.) -/
  | event (i : Instr)
  /-- The line of a word leaves a core's L1 (09 R233). -/
  | l1Evict (core word : Nat)
  /-- A load is served by the copy in its core's L1 (11 R278). -/
  | l1Hit (a : Nat)
  /-- The host reads `n` bytes of a BAR of a function (00 R7, 01 R31). -/
  | hostRead (who bar off n : Nat)
  /-- A configuration read of a function (01 R26, R31). -/
  | configRead (who : Nat) (item : ConfigItem)
  /-- A read over the management sideband (01 R29). -/
  | sidebandRead (item : SidebandItem)
  /-- The PF enables or disables a port, and UALinkSec on it (01 R28, R32). -/
  | portEnable (port : Nat) (on sec : Bool)
  /-- A peer reads the Yard message window (04 R118). -/
  | windowRead (off n : Nat)
  /-- The sector of a word of HBM is filled in a core's L1 (09 R233, 10 R241). -/
  | l1Fill (core word : Nat)
  /-- A page's translation is held by a cluster's L2 TLB, or by the L1 TLB of a core (09 R236). -/
  | tlbFill (cluster : Nat) (core : Option Nat) (func page : Nat)
  /-- A translation leaves a TLB (09 R236). -/
  | tlbEvict (cluster : Nat) (core : Option Nat) (func page : Nat)
  /-- A die's walk cache holds the non-leaf entry of a level for an address (09 R236). -/
  | walkFill (die func level va : Nat)
  /-- A non-leaf entry leaves a die's walk cache. -/
  | walkEvict (die func level va : Nat)
  /-- A core's write-back buffer drains one group to the vault (05 R136). -/
  | drainGroup (core : Nat)
  /-- A line leaves a core's instruction cache. -/
  | lineEvict (core func va : Nat)
  /-- A started copy moves up to `n` bytes (10 R251, 11 R288). -/
  | copyMove (core tag n : Nat)
  /-- A pen applies a line's committed pairs, on its own account (10 R264). -/
  | penApply (line : Nat)
  /-- A pen finds its spill area full (18 R420, R421). (Log 71, DEDUCED.) -/
  | penFull (pen : Nat)
  /-- Another agent writes `n` bytes: the host to its memory, a peer to its memory, or either to HBM (11 R277, 10 R269). -/
  | outsideWrite (t : Target) (n : Nat) (v : BitVec 512)
  deriving DecidableEq, Repr

/-- The state of the machine. -/
structure State where
  /-- The turns to be taken, in order (log 1, DESIGN CHOICE). -/
  agenda : List Turn
  /-- Stamp of the free values: advanced by every step (log 2, DESIGN CHOICE). -/
  stamp : Nat
  /-- Next number for runs, blocks, teams and accesses: the model's own numbering. -/
  fresh : Nat
  /-- What has happened in the current cycle, for the orders that the rules give within one: by resource, one more than the place
  in its order of the last event (03 R68, 04 R99, R106, R122, 18 R409). (Log 113, DEDUCED.) -/
  marks : SMap Nat
  /-- Crossings of THRESH in the current cycle: for function `f`, at 2 · f the one that it latched and at 2 · f + 1 the lowest
  that PEND kept from being latched, each one more than 128 · NODE + CTR (12 R312, R313). -/
  crossings : SMap Nat
  /-- CYCLE: core cycles since stage 0x05 (05 R143). -/
  cycle : Dbl
  /-- The floor of the Lamport clocks as last sent to the cores (11 R285, R287). -/
  floor : Nat
  dev : Device
  pf : PfRegs
  funcs : SMap Func
  queues : SMap Queue
  yards : SMap Yard
  /-- Position of the weighted round robin and takes used by the visited function (03 R83). (Log 50, DEDUCED.) -/
  arbiter : Arbiter
  jobs : List Job
  phases : List Phase
  /-- Completed phases and jobs, oldest first. -/
  ended : List Ended
  runs : SMap Run
  nextRun : Nat
  stalls : SMap Stall
  blocks : SMap Block
  teams : SMap Team
  cores : SMap Core
  /-- HBM by 2^36 · stack + address within the stack (09 R226, R235), and the vaults by 2^23 · cluster + offset
  (09 R221). -/
  hbm : List Host.Cell
  vaults : List Host.Cell
  /-- Host memory by bus address, and other accelerators' memory by 2^64 · ACCEL + address (09 R226). -/
  host : List Host.Cell
  remote : List Host.Cell
  /-- By function, what its blocks last wrote to each byte of its arena range, by global address (09 R225). -/
  arenas : SMap (List Host.Cell)
  /-- Arena pages of running blocks whose translation is not known yet, so that what they hold at the block's start is not
  settled: block and global address (09 R225). (Log 67, DESIGN CHOICE.) -/
  unsettled : List (Nat × Nat)
  /-- Write generations of the 64 KiB granules of HBM (10 R269). -/
  gens : SMap Nat
  owners : SMap Owner
  /-- By how much the Lamport clock of a fabric unit leads CYCLE (11 R285, 18 R412): Yards, pens, L2 slices and fabric ports, by the
number that `logUnit` gives. -/
  units : SMap Nat
  l1 : List L1Word
  ilines : List ILine
  tlines : List TLine
  tlb : List TlbEntry
  walks : List WalkEntry
  /-- Failed answers of referred walks, until the access that waits for one takes its fault (09 R237). -/
  answers : List WalkAnswer
  reserved : List (Nat × Nat × Nat × Nat)
  accesses : List Access
  pairs : List Pair
  engines : List Engine
  emissions : List Emission
  remoteOut : List RemoteOut
  remoteIn : List RemoteIn
  sent : List SentMsg
  /-- Flits received over the links, and those saved by the receive ports while a function is cut (17 R403). (Log 92,
  DEDUCED.) -/
  flits : Nat
  cutFlits : List CutFlit
  /-- Asynchronous faults not yet entered: team, lane, fault (17 R384). -/
  pendingTraps : List (Nat × Nat × FaultInfo)
  referrals : List Referral
  nextReferral : Nat
  policy : Option PolicyRun
  /-- Link state of the ports (up), and messages dropped by each (04 R118). -/
  ports : SMap Nat
  dropped : SMap Nat
  /-- Device writes that wait for room in the memory-order log, and the vectors after them, oldest first (18 R415). -/
  posted : List Posted
  /-- MSI-X vectors raised, newest first: function and vector (01 R26). (Log 96, DESIGN CHOICE.) -/
  raised : List (Nat × Nat)
  /-- The issue being executed. -/
  cur : Option Issue
  deriving DecidableEq, Repr

/-- The machine after release of the fundamental reset (01 R32): stage 0x00, every register at its reset value,
memory all zero. (Log 3, DESIGN CHOICE; log 4, DESIGN CHOICE; log 5, DESIGN CHOICE.) -/
def State.reset : State where
  agenda := []
  stamp := 0
  fresh := 0
  marks := []
  crossings := []
  cycle := 0
  floor := 0
  dev := {}
  pf := {}
  funcs := []
  queues := []
  yards := []
  arbiter := {}
  jobs := []
  phases := []
  ended := []
  runs := []
  nextRun := 0
  stalls := []
  blocks := []
  teams := []
  cores := []
  hbm := []
  vaults := []
  host := []
  remote := []
  arenas := []
  unsettled := []
  gens := []
  owners := []
  units := []
  l1 := []
  ilines := []
  tlines := []
  tlb := []
  walks := []
  answers := []
  reserved := []
  accesses := []
  pairs := []
  engines := []
  emissions := []
  remoteOut := []
  remoteIn := []
  sent := []
  flits := 0
  cutFlits := []
  pendingTraps := []
  referrals := []
  nextReferral := 0
  policy := none
  ports := []
  dropped := []
  posted := []
  raised := []
  cur := none

end Sys2Proof.Machine
end

