-- ==== Sys2Proof/Machine/Store.lean ====
section
/-! DEFINITION. Sparse storage and byte memories: reading, writing, and the canonical form. -/
namespace Sys2Proof.Machine

/-- The value at key `k`, the default `d` where none is listed. -/
def SMap.get {α : Type} (m : SMap α) (d : α) (k : Nat) : α :=
  match m with
  | [] => d
  | (k', v) :: r => if k' = k then v else SMap.get r d k

/-- Remove key `k`. -/
def SMap.erase {α : Type} (m : SMap α) (k : Nat) : SMap α :=
  match m with
  | [] => []
  | (k', v) :: r => if k' = k then SMap.erase r k else (k', v) :: SMap.erase r k

/-- Insert before the first key above `k`. -/
def SMap.insert {α : Type} (m : SMap α) (k : Nat) (v : α) : SMap α :=
  match m with
  | [] => [(k, v)]
  | (k', v') :: r => if k < k' then (k, v) :: (k', v') :: r else (k', v') :: SMap.insert r k v

/-- Store `v` at key `k`; the default is not listed. -/
def SMap.set {α : Type} [DecidableEq α] (m : SMap α) (d : α) (k : Nat) (v : α) : SMap α :=
  if v = d then m.erase k else (m.erase k).insert k v

/-- Keys strictly rising from above `lo` (none for no bound). -/
def SMap.rising {α : Type} (m : SMap α) (lo : Option Nat) : Bool :=
  match m with
  | [] => true
  | (k, _) :: r => (match lo with | none => true | some b => decide (b < k)) && SMap.rising r (some k)

/-- The canonical form: keys strictly rising, no entry equal to the default. -/
def SMap.wf {α : Type} [DecidableEq α] (m : SMap α) (d : α) : Bool :=
  m.rising none && m.all fun p => p.2 ≠ d

/-- A memory's canonical form: an unlisted byte reads zero (11 R283 for HBM and vaults; log 5 for the others). -/
def Memory.wf (m : List Host.Cell) : Bool := SMap.wf m 0

/-- The byte at address `a`. (Log 5, DESIGN CHOICE.) -/
def Memory.byte (m : List Host.Cell) (a : Nat) : Byte := SMap.get m 0 a

/-- Write a byte. -/
def Memory.setByte (m : List Host.Cell) (a : Nat) (v : Byte) : List Host.Cell := SMap.set m 0 a v

/-- The value of `n` bytes from `a`, least significant first (00 R4). -/
def Memory.read (m : List Host.Cell) (a n : Nat) : Nat :=
  match n with
  | 0 => 0
  | k + 1 => (Memory.byte m a).toNat + 256 * Memory.read m (a + 1) k

/-- Write the low `n` bytes of `v` from `a`, least significant first (00 R4). -/
def Memory.write (m : List Host.Cell) (a n v : Nat) : List Host.Cell :=
  match n with
  | 0 => m
  | k + 1 => Memory.write (Memory.setByte m a (BitVec.ofNat 8 v)) (a + 1) k (v / 256)

/-- The `n` bytes from `a`. -/
def Memory.bytes (m : List Host.Cell) (a n : Nat) : List Byte :=
  match n with
  | 0 => []
  | k + 1 => Memory.byte m a :: Memory.bytes m (a + 1) k

/-- Write a list of bytes from `a`. -/
def Memory.setBytes (m : List Host.Cell) (a : Nat) (bs : List Byte) : List Host.Cell :=
  match bs with
  | [] => m
  | b :: r => Memory.setBytes (Memory.setByte m a b) (a + 1) r

/-- Two byte ranges, given by first byte and size, share a byte. -/
def overlaps (a n b k : Nat) : Bool := 0 < n && 0 < k && a < b + k && b < a + n

/-! ### The parts of the state, by number -/

/-- Function `f` (0 is the PF). -/
def State.func (s : State) (f : Nat) : Func := s.funcs.get {} f
/-- Store function `f`. -/
def State.setFunc (s : State) (f : Nat) (v : Func) : State := { s with funcs := s.funcs.set {} f v }
/-- Queue `q`. -/
def State.queue (s : State) (q : Nat) : Queue := s.queues.get {} q
/-- Store queue `q`. -/
def State.setQueue (s : State) (q : Nat) (v : Queue) : State := { s with queues := s.queues.set {} q v }
/-- The Yard and logs of die `d`. -/
def State.yard (s : State) (d : Nat) : Yard := s.yards.get {} d
/-- Store die `d`. -/
def State.setYard (s : State) (d : Nat) (v : Yard) : State := { s with yards := s.yards.set {} d v }
/-- Run `r`, by the model's number. -/
def State.run (s : State) (r : Nat) : Run := s.runs.get {} r
/-- Store run `r`. -/
def State.setRun (s : State) (r : Nat) (v : Run) : State := { s with runs := s.runs.set {} r v }
/-- Key of the stall of `node` in run `r`. -/
def stallKey (r node : Nat) : Nat := 4096 * r + node
/-- The stall of `node` in run `r`. -/
def State.stall (s : State) (r node : Nat) : Stall := s.stalls.get {} (stallKey r node)
/-- Store a stall. -/
def State.setStall (s : State) (r node : Nat) (v : Stall) : State :=
  { s with stalls := s.stalls.set {} (stallKey r node) v }
/-- Block `b`. -/
def State.block (s : State) (b : Nat) : Block := s.blocks.get {} b
/-- Store block `b`. -/
def State.setBlock (s : State) (b : Nat) (v : Block) : State := { s with blocks := s.blocks.set {} b v }
/-- Team `t`. -/
def State.team (s : State) (t : Nat) : Team := s.teams.get {} t
/-- Store team `t`. -/
def State.setTeam (s : State) (t : Nat) (v : Team) : State := { s with teams := s.teams.set {} t v }
/-- Core `n`. -/
def State.core (s : State) (n : Nat) : Core := s.cores.get {} n
/-- Store core `n`. -/
def State.setCore (s : State) (n : Nat) (v : Core) : State := { s with cores := s.cores.set {} n v }
/-- The graph node that block `b` runs. -/
def State.nodeOf (s : State) (b : Nat) : Node :=
  let k := s.block b
  (s.run k.run).graph.nodes.getD k.node {}

/-- A number not used before, and the state after taking it. -/
def State.take (s : State) : Nat × State := (s.fresh, { s with fresh := s.fresh + 1 })

/-- Lane `L` of a team. -/
def Team.lane (t : Team) (L : Nat) : Lane := t.lanes.get {} L
/-- Store lane `L`. -/
def Team.setLane (t : Team) (L : Nat) (v : Lane) : Team := { t with lanes := t.lanes.set {} L v }
/-- V(L, n) (00 R14). -/
def Team.vreg (t : Team) (L n : Nat) : Word := t.v.get 0 (512 * L + n)
/-- Write V(L, n); its group's zero-map bit is cleared (05 R136). -/
def Team.setV (t : Team) (L n : Nat) (w : Word) : Team :=
  { t with v := t.v.set 0 (512 * L + n) w, nonzero := t.nonzero.set false (32 * L + n / 16) true }
/-- V(L, n:n+1): the even register holds the low half (00 R4). -/
def Team.vpair (t : Team) (L n : Nat) : Dbl := t.vreg L (n + 1) ++ t.vreg L n
/-- Write V(L, n:n+1). -/
def Team.setVpair (t : Team) (L n : Nat) (d : Dbl) : Team :=
  (t.setV L n (d.extractLsb' 0 32)).setV L (n + 1) (d.extractLsb' 32 32)
/-- Write `c` consecutive registers from the low words of `val`. -/
def Team.setVs (t : Team) (L n c : Nat) (val : Nat) : Team :=
  match c with
  | 0 => t
  | k + 1 => (t.setV L n (BitVec.ofNat 32 val)).setVs L (n + 1) k (val / 2 ^ 32)
/-- The value of `c` consecutive registers, the first lowest. -/
def Team.vregs (t : Team) (L n c : Nat) : Nat :=
  match c with
  | 0 => 0
  | k + 1 => (t.vreg L n).toNat + 2 ^ 32 * t.vregs L (n + 1) k
/-- x_i of lane L. -/
def Team.xreg (t : Team) (L i : Nat) : Word := t.x.get 0 (4 * L + i)
/-- Write x_i of lane L. -/
def Team.setX (t : Team) (L i : Nat) (w : Word) : Team := { t with x := t.x.set 0 (4 * L + i) w }
/-- w_j. -/
def Team.wreg (t : Team) (j : Nat) : Word := t.w.get 0 j
/-- Write w_j. -/
def Team.setW (t : Team) (j : Nat) (v : Word) : Team := { t with w := t.w.set 0 j v }
/-- k_n, bit L for lane L (05 R142). -/
def Team.kreg (t : Team) (n : Nat) : Dbl := t.k.get 0 n
/-- Write k_n. -/
def Team.setK (t : Team) (n : Nat) (v : Dbl) : Team := { t with k := t.k.set 0 n v }
/-- Accumulator element (i, n) of a slot. -/
def Team.elem (t : Team) (slot i n : Nat) : AccElem := t.acc.get {} (1024 * slot + 32 * i + n)
/-- Write an accumulator element. -/
def Team.setElem (t : Team) (slot i n : Nat) (e : AccElem) : Team :=
  { t with acc := t.acc.set {} (1024 * slot + 32 * i + n) e }

/-- Barrier `b` of a block. -/
def Block.bar (k : Block) (b : Nat) : Barrier := k.bars.get {} b
/-- Store barrier `b`. -/
def Block.setBar (k : Block) (b : Nat) (v : Barrier) : Block := { k with bars := k.bars.set {} b v }

/-! ### HBM by physical address -/

/-- Stack and address within it of a physical address, under HBMIL (09 R235). -/
def State.stackOf (s : State) (p : Nat) : Nat × Nat :=
  let g := natBits p 38 33
  let o := p % 2 ^ 33
  if s.pf.hbmil.getLsbD g then
    (Nat.xor (natBits o 14 12) (natBits o 17 15), g * 2 ^ 30 + natBits o 32 15 * 4096 + o % 4096)
  else (natBits o 32 30, g * 2 ^ 30 + o % 2 ^ 30)

/-- Where the byte of physical address `p` is stored: its stack (of 2^36 bytes) and its address within it. A write of
HBMIL moves no data (09 R235). -/
def State.hkey (s : State) (p : Nat) : Nat := (s.stackOf p).1 * 2 ^ 36 + (s.stackOf p).2
/-- The byte of HBM at physical address `p`. -/
def State.hbmByte (s : State) (p : Nat) : Byte := Memory.byte s.hbm (s.hkey p)
/-- Write a byte of HBM. -/
def State.setHbmByte (s : State) (p : Nat) (v : Byte) : State := { s with hbm := Memory.setByte s.hbm (s.hkey p) v }
/-- The value of `n` bytes of HBM from `p`, least significant first. -/
def State.hbmRead (s : State) (p n : Nat) : Nat :=
  match n with
  | 0 => 0
  | k + 1 => (s.hbmByte p).toNat + 256 * s.hbmRead (p + 1) k
/-- Write the low `n` bytes of `v` to HBM from `p`. -/
def State.hbmWrite (s : State) (p n v : Nat) : State :=
  match n with
  | 0 => s
  | k + 1 => (s.setHbmByte p (BitVec.ofNat 8 v)).hbmWrite (p + 1) k (v / 256)

/-! ### Lamport clocks (11 R285) -/

/-- The Lamport clock of core `n`: it advances with every cycle. (Log 14, DEDUCED.) -/
def State.coreClock (s : State) (n : Nat) : Nat := s.cycle.toNat + (s.core n).lead
/-- Unit field of a log entry (18 R412): kind and number. -/
def logUnit (kind num : Nat) : Nat := kind * 4096 + num
/-- The Yard of die `d`. -/
def yardUnit (d : Nat) : Nat := logUnit 1 d
/-- Pen `p` of the device: 8 for each die. -/
def penUnit (p : Nat) : Nat := logUnit 2 p
/-- L2 slice `n` of die `d`. -/
def sliceUnit (d n : Nat) : Nat := logUnit 3 (32 * d + n)
/-- The fabric port of die `d`, for accesses whose home is no slice. (Log 14, DEDUCED.) -/
def portUnit (d : Nat) : Nat := logUnit 4 d
/-- Every fabric unit that keeps a clock (11 R285, 18 R412). -/
def fabricUnits : List Nat :=
  (List.range 4).map yardUnit ++ (List.range 32).map penUnit ++ (List.range 128).map (logUnit 3 ·) ++ (List.range 4).map portUnit
/-- The Lamport clock of a fabric unit (18 R412). -/
def State.unitClock (s : State) (u : Nat) : Nat := s.cycle.toNat + s.units.get 0 u
/-- A message that was sent at a clock that leads CYCLE by `lead` reaches a fabric unit: the receiver's clock rises to it. -/
def State.tellLead (s : State) (u lead : Nat) : State :=
  if s.units.get 0 u < lead then { s with units := s.units.set 0 u lead } else s
/-- A message from core `n` reaches a fabric unit. -/
def State.tellUnit (s : State) (n u : Nat) : State := s.tellLead u (s.core n).lead
/-- A message from a fabric unit reaches core `n`. -/
def State.tellCore (s : State) (u n : Nat) : State :=
  if (s.core n).lead < s.units.get 0 u then s.setCore n { s.core n with lead := s.units.get 0 u } else s
/-- Two fabric units exchange messages. -/
def State.tellUnits (s : State) (u v : Nat) : State := (s.tellLead v (s.units.get 0 u)).tellLead u (s.units.get 0 v)

/-- All lane numbers of a team, ascending. -/
def laneList : List Nat := List.range 64

/-- A word with bit `L` set to `b`. -/
def setBit (w : Dbl) (L : Nat) (b : Bool) : Dbl :=
  if b then w ||| (1 <<< L) else w &&& ~~~((1 : Dbl) <<< L)

end Sys2Proof.Machine
end

