-- ==== Sys2Proof/Machine/Flags.lean ====
section
/-! DEFINITION. Flags: mask-register bits written by comparisons, and the floating-point event counters (07 R190; 12 R308,
R309). -/
namespace Sys2Proof.Machine

/-- The outcome of condition code `c` (07 R190) on an equality and an order. -/
def cond (c : Nat) (eq lt : Bool) : Bool :=
  if c = 0 then eq
  else if c = 1 then !eq
  else if c = 2 then lt
  else if c = 3 then lt || eq
  else if c = 4 then !(lt || eq)
  else !lt

/-- Write bit `L` of mask `n`; other bits are unchanged. -/
def Team.setKbit (t : Team) (n L : Nat) (b : Bool) : Team := t.setK n (setBit (t.kreg n) L b)

/-- Bit `L` of mask `n`. -/
def Team.kbit (t : Team) (n L : Nat) : Bool := (t.kreg n).getLsbD L

/-- The mask whose bits are the lanes of a list. -/
def maskOf (ls : List Nat) : Dbl := ls.foldl (fun m L => setBit m L true) 0

/-- Count one event of a block: `i` is 4 · f + e (12 R309), saturating. -/
def Block.countEvent (k : Block) (i : Nat) : Block :=
  { k with events := k.events.set 0 i (min (k.events.get 0 i + 1) 0xFFFFFFFF) }

/-- Count events of a block. -/
def State.countEvents (s : State) (b : Nat) (es : List Nat) : State :=
  match es with
  | [] => s
  | e :: r => s.setBlock b ((e :: r).foldl Block.countEvent (s.block b))

end Sys2Proof.Machine
end

