-- ==== Sys2Proof/Machine/Formats.lean ====
section
/-! DEFINITION. Number formats: exact values, the one rounding, weight formats and conversions to integers (12). -/
namespace Sys2Proof.Machine

/-- An exact value: NaN, an infinity, or ± mant · 2^exp (a zero keeps its sign). -/
inductive Num where
  | nan
  | inf (neg : Bool)
  | fin (neg : Bool) (mant : Nat) (exp : Int)
  deriving DecidableEq, Repr

/-- A floating format (12 R298): mantissa bits, exponent bits, bias; `noInf` for F8A. -/
structure FloatFmt where
  p : Nat
  e : Nat
  bias : Int
  noInf : Bool
  deriving DecidableEq, Repr

/-- F32. -/
def fmtF32 : FloatFmt := ⟨23, 8, 127, false⟩
/-- F16. -/
def fmtF16 : FloatFmt := ⟨10, 5, 15, false⟩
/-- BF16. -/
def fmtBF16 : FloatFmt := ⟨7, 8, 127, false⟩
/-- F8A. -/
def fmtF8A : FloatFmt := ⟨3, 4, 7, true⟩
/-- F8B. -/
def fmtF8B : FloatFmt := ⟨2, 5, 15, false⟩

/-- The floating format of index 0 to 4: F32, F16, BF16, F8A, F8B (12 R308). -/
def floatFmt (i : Nat) : FloatFmt :=
  if i = 0 then fmtF32 else if i = 1 then fmtF16 else if i = 2 then fmtBF16 else if i = 3 then fmtF8A else fmtF8B

/-- Bits of the format. -/
def FloatFmt.width (F : FloatFmt) : Nat := F.p + F.e + 1

/-- The all-ones exponent field. -/
def FloatFmt.emax (F : FloatFmt) : Nat := 2 ^ F.e - 1

/-- Canonical NaN (12 R299). -/
def FloatFmt.nan (F : FloatFmt) : Nat :=
  if F.noInf then 2 ^ (F.p + F.e) - 1 else F.emax * 2 ^ F.p + 2 ^ (F.p - 1)

/-- Encoding of an infinity. -/
def FloatFmt.inf (F : FloatFmt) (neg : Bool) : Nat := (if neg then 2 ^ (F.p + F.e) else 0) + F.emax * 2 ^ F.p

/-- Magnitude encoding of the largest finite value (12 R298). -/
def FloatFmt.maxEnc (F : FloatFmt) : Nat :=
  if F.noInf then F.emax * 2 ^ F.p + (2 ^ F.p - 2) else F.emax * 2 ^ F.p - 1

/-- The value of an encoding (12 R299); bits above the format are ignored (R296). -/
def FloatFmt.value (F : FloatFmt) (w : Nat) : Num :=
  let neg := w / 2 ^ (F.p + F.e) % 2 == 1
  let e := w / 2 ^ F.p % 2 ^ F.e
  let m := w % 2 ^ F.p
  if e = F.emax && F.noInf && m = 2 ^ F.p - 1 then .nan
  else if e = F.emax && !F.noInf then (if m = 0 then .inf neg else .nan)
  else if e = 0 then .fin neg m (1 - F.bias - F.p)
  else .fin neg (2 ^ F.p + m) (e - F.bias - F.p)

/-- Rounding modes, in the order of HINT (06 R161). -/
inductive Mode where
  | RN | RZ | RU | RD
  deriving DecidableEq, Repr

/-- The mode of a HINT value. -/
def Mode.ofHint (h : BitVec 2) : Mode :=
  if h = 0 then .RN else if h = 1 then .RZ else if h = 2 then .RU else .RD

/-- `n + r/2^k` rounded to an integer by the mode, for a value of the given sign; ties to even under RN. -/
def roundStep (mode : Mode) (neg : Bool) (n r half2 : Nat) : Nat :=
  if r = 0 then n
  else match mode with
    | .RN => if 2 * r < half2 then n else if half2 < 2 * r then n + 1 else n + n % 2
    | .RZ => n
    | .RU => if neg then n else n + 1
    | .RD => if neg then n + 1 else n

/-- `mant · 2^exp` as an integer number of units 2^q, with the remainder over `2^k`: (n, r, 2^k). -/
def scaleTo (mant : Nat) (exp q : Int) : Nat × Nat × Nat :=
  if q ≤ exp then (mant * 2 ^ (exp - q).toNat, 0, 1)
  else
    let k := 2 ^ (q - exp).toNat
    (mant / k, mant % k, k)

/-- A rounded result with the overflow and underflow findings of 12 R308. -/
structure Rounded where
  bits : Nat
  overflow : Bool := false
  underflow : Bool := false
  deriving DecidableEq, Repr

/-- Round (12 R302). (Log 31, DEDUCED.) -/
def roundTo (x : Num) (F : FloatFmt) (mode : Mode) (sat : Bool) : Rounded :=
  let signBit (neg : Bool) := if neg then 2 ^ (F.p + F.e) else 0
  let deliverInf (neg : Bool) : Nat :=
    if sat then signBit neg + F.maxEnc else if F.noInf then F.nan else F.inf neg
  match x with
  | .nan => ⟨F.nan, false, false⟩
  | .inf neg => ⟨deliverInf neg, false, false⟩
  | .fin neg mant exp =>
    if mant = 0 then ⟨signBit neg, false, false⟩
    else
      let lg : Int := (Nat.log2 mant : Int) + exp
      let emin : Int := 1 - F.bias
      let q : Int := max lg emin - F.p
      let (n, r, k) := scaleTo mant exp q
      let n' := roundStep mode neg n r k
      let mag : Nat :=
        if lg < emin then n' else (q + F.p + F.bias).toNat * 2 ^ F.p + n' - 2 ^ F.p
      if F.maxEnc < mag then
        let toInf := match mode with
          | .RN => true
          | .RZ => false
          | .RU => !neg
          | .RD => neg
        ⟨if toInf then deliverInf neg else signBit neg + F.maxEnc, true, false⟩
      else ⟨signBit neg + mag, false, decide (lg < emin) && r != 0⟩

/-! ### Weight formats (12 R300, R301, R303) -/

/-- A term T(s, c) in units of 2^-6 (12 R300). -/
def weightTerm (s c : Nat) : Int := if c = 7 then 0 else (if s = 1 then -1 else 1) * (2 ^ (6 - c) : Nat)

/-- Value of an S2P8 byte in units of 2^-6. -/
def s2p8Units (b : Nat) : Int := weightTerm (natBits b 7 7) (natBits b 6 4) + weightTerm (natBits b 3 3) (natBits b 2 0)

/-- Value of an S1P4 element in units of 2^-6. -/
def s1p4Units (b : Nat) : Int := weightTerm (natBits b 3 3) (natBits b 2 0)

/-- An integer number of units 2^e as an exact value. -/
def Num.ofInt (z : Int) (e : Int) : Num := .fin (decide (z < 0)) z.natAbs e

/-- Canonical S2P8 encoding of a value in units of 2^-6 (12 R301). -/
def s2p8Canon (z : Int) : Nat :=
  if z = 0 then 0x77
  else
    let one := (List.range 256).find? fun b => s2p8Units b == z && natBits b 3 0 == 7
    let two := (List.range 256).find? fun b =>
      s2p8Units b == z && natBits b 6 4 != 7 && natBits b 2 0 != 7 && (natBits b 7 7 == 1) == decide (z < 0)
    match one with
    | some b => b
    | none => two.getD 0x77

/-- Canonical S1P4 encoding (12 R301). -/
def s1p4Canon (z : Int) : Nat :=
  if z = 0 then 7 else ((List.range 16).find? fun b => s1p4Units b == z).getD 7

/-- Magnitudes that a weight format represents, in units of 2^-6 (12 R300). -/
def weightMember (two : Bool) (n : Nat) : Bool :=
  if two then (List.range 256).any fun b => s2p8Units b == (n : Int)
  else (List.range 16).any fun b => s1p4Units b == (n : Int)

/-- The largest member: 2 for S2P8, 1 for S1P4. -/
def weightMax (two : Bool) : Nat := if two then 128 else 64

/-- The largest member at or below `n`. -/
def memberBelow (two : Bool) (n : Nat) : Nat :=
  match n with
  | 0 => 0
  | k + 1 => if weightMember two (k + 1) then k + 1 else memberBelow two k

/-- The smallest member at or above `n`, within `fuel` units. -/
def memberAbove (two : Bool) (fuel n : Nat) : Nat :=
  match fuel with
  | 0 => n
  | k + 1 => if weightMember two n then n else memberAbove two k (n + 1)

/-- Round into a weight format at target scale `E` (12 R303): encoding, and whether the value was clamped. -/
def roundWeight (two : Bool) (x : Num) (E : Int) (mode : Mode) : Nat × Bool :=
  let canon (z : Int) : Nat := if two then s2p8Canon z else s1p4Canon z
  let signed (neg : Bool) (n : Nat) : Int := if neg then -(n : Int) else n
  match x with
  | .nan => (canon 0, false)
  | .inf neg => (canon (signed neg (weightMax two)), true)
  | .fin neg mant exp =>
    let (n, r, k) := scaleTo mant exp (E - 6)
    if weightMax two < n || (n = weightMax two && r != 0) then (canon (signed neg (weightMax two)), true)
    else
      let lo := memberBelow two n
      let hi := if r = 0 && weightMember two n then n else memberAbove two 128 (if r = 0 then n else n + 1)
      if lo = n && r = 0 then (canon (signed neg n), false)
      else
        let dlo := (n - lo) * k + r
        let dhi := (hi - n) * k - r
        let pick := match mode with
          | .RN => if dlo ≤ dhi then lo else hi
          | .RZ => lo
          | .RU => if neg then lo else hi
          | .RD => if neg then hi else lo
        (canon (signed neg pick), false)

/-- Round to an integer and clamp to `lo … hi` (12 R304): the integer, and whether it was clamped. -/
def roundInt (x : Num) (mode : Mode) (lo hi : Int) : Int × Bool :=
  match x with
  | .nan => (0, false)
  | .inf neg => (if neg then lo else hi, true)
  | .fin neg mant exp =>
    let (n, r, k) := scaleTo mant exp 0
    let n' := roundStep mode neg n r k
    let z : Int := if neg then -(n' : Int) else n'
    if z < lo then (lo, true) else if hi < z then (hi, true) else (z, false)

/-! ### Exact arithmetic -/

/-- An exact finite value as an integer number of units 2^e. -/
def Num.units (x : Num) (e : Int) : Int :=
  match x with
  | .fin neg mant exp => (if neg then -1 else 1) * (mant * 2 ^ (exp - e).toNat : Nat)
  | _ => 0

/-- Scale by 2^s exactly. -/
def Num.scale (x : Num) (s : Int) : Num :=
  match x with
  | .fin neg mant exp => .fin neg mant (exp + s)
  | y => y

/-- Negation. -/
def Num.neg (x : Num) : Num :=
  match x with
  | .nan => .nan
  | .inf n => .inf (!n)
  | .fin n m e => .fin (!n) m e

/-- NaN. -/
def Num.isNan (x : Num) : Bool :=
  match x with
  | .nan => true
  | _ => false

/-- An infinity. -/
def Num.isInf (x : Num) : Bool :=
  match x with
  | .inf _ => true
  | _ => false

/-- Exact product (13 R318): 0 · ∞ is NaN; a zero has the XOR of the signs. -/
def Num.mul (a b : Num) : Num :=
  match a, b with
  | .fin n m e, .fin n' m' e' => .fin (n != n') (m * m') (e + e')
  | .inf n, .inf n' => .inf (n != n')
  | .inf n, .fin n' m' _ => if m' = 0 then .nan else .inf (n != n')
  | .fin n m _, .inf n' => if m = 0 then .nan else .inf (n != n')
  | _, _ => .nan

/-- Exact sum (13 R318): a zero sum of terms of opposite signs is +0, −0 under RD. -/
def Num.add (a b : Num) (mode : Mode) : Num :=
  match a, b with
  | .fin n m e, .fin n' m' e' =>
    let q := min e e'
    let z := Num.units (.fin n m e) q + Num.units (.fin n' m' e') q
    if z = 0 then .fin (if n = n' then n else mode == .RD) 0 0 else Num.ofInt z q
  | .inf n, .inf n' => if n = n' then .inf n else .nan
  | .inf n, .fin _ _ _ => .inf n
  | .fin _ _ _, .inf n' => .inf n'
  | _, _ => .nan

/-- Comparison of two values that are not NaN: a < b. −0 and +0 compare equal. -/
def Num.lt (a b : Num) : Bool :=
  match a, b with
  | .inf n, .inf n' => n && !n'
  | .inf n, .fin _ _ _ => n
  | .fin _ _ _, .inf n' => !n'
  | .fin n m e, .fin n' m' e' =>
    let q := min e e'
    decide (Num.units (.fin n m e) q < Num.units (.fin n' m' e') q)
  | _, _ => false

/-- Equality of two values that are not NaN. -/
def Num.eqv (a b : Num) : Bool :=
  match a, b with
  | .inf n, .inf n' => n == n'
  | .fin n m e, .fin n' m' e' =>
    let q := min e e'
    decide (Num.units (.fin n m e) q = Num.units (.fin n' m' e') q)
  | _, _ => false

/-- FMIN and FMAX on encodings (13 R319): one operand unchanged; −0 below +0; the other operand where one is NaN. -/
def floatMinMax (F : FloatFmt) (wantMax : Bool) (a b : Nat) : Nat :=
  let va := F.value a
  let vb := F.value b
  let neg (w : Nat) : Bool := w / 2 ^ (F.p + F.e) % 2 == 1
  let a := a % 2 ^ F.width
  let b := b % 2 ^ F.width
  if va.isNan && vb.isNan then F.nan
  else if va.isNan then b
  else if vb.isNan then a
  else
    let aLess := va.lt vb || (va.eqv vb && neg a && !neg b)
    if aLess == wantMax then b else a

/-- Event index of a rounded result whose exact value is `x` (12 R308): `operandNan`, and `operandInf` for an infinite
operand. -/
def resultEvent (x : Num) (r : Rounded) (operandNan operandInf : Bool) : Option Nat :=
  if operandNan then none
  else match x with
    | .nan => some 0
    | .inf _ => if operandInf then none else some 1
    | .fin _ _ _ => if r.overflow then some 2 else if r.underflow then some 3 else none

end Sys2Proof.Machine
end

