-- ==== Sys2Proof/Machine/Logs.lean ====
section
/-! DEFINITION. Interrupt vectors, the logs of deterministic mode (18 R410 to R415) and the black boxes (18 R417). -/
namespace Sys2Proof.Machine

/-- Raise MSI-X vector `v` of function `f`; a vector beyond the table raises nothing (01 R26).
(Log 96, DESIGN CHOICE.) -/
def State.raise (s : State) (f v : Nat) : State :=
  if v < (if f = 0 then 256 else 32) then { s with raised := (f, v) :: s.raised } else s

/-- Write `n` bytes of HBM and advance the granule's generation (10 R269), without registration. (Log 65, DESIGN CHOICE.) -/
def State.rawWrite (s : State) (p n v : Nat) : State :=
  let g := p / 65536
  let s := s.hbmWrite p n v
  { s with gens := s.gens.set 0 g (min (s.gens.get 0 g + 1) 0xFFFFFFFF) }

/-! ### Logs -/

/-- Which log: the Yard decision log or the memory-order log. -/
inductive LogKind where
  | yard | order
  deriving DecidableEq, Repr

/-- Base, entries, entries written and entries consumed of a ring (18 R411). -/
def Yard.ring (y : Yard) (k : LogKind) : Nat × Nat × Nat × Nat :=
  match k with
  | .yard => (natBits y.ylbase.toNat 51 12 * 4096, 128 * natBits y.ylsize.toNat 19 0, y.ylhead.toNat, y.yltail.toNat)
  | .order => (natBits y.mlbase.toNat 51 12 * 4096, 128 * natBits y.mlsize.toNat 19 0, y.mlhead.toNat, y.mltail.toNat)

/-- Free entries of a ring. -/
def State.logFree (s : State) (die : Nat) (k : LogKind) : Nat :=
  let r := (s.yard die).ring k
  r.2.1 - (r.2.2.1 - r.2.2.2)

/-- Write one entry (18 R412). (Log 98, DEDUCED.) -/
def State.writeLog (s : State) (die : Nat) (k : LogKind) (kind func job unit ts a b : Nat) : State :=
  let y := s.yard die
  let r := y.ring k
  if r.2.1 = 0 then s
  else
    let p := r.1 + 32 * (r.2.2.1 % r.2.1)
    let hdr := kind % 256 * 2 ^ 24 + func % 256 * 2 ^ 16 + job % 65536
    let s := (((s.rawWrite p 8 ts).rawWrite (p + 8) 8 (hdr + unit % 2 ^ 32 * 2 ^ 32)).rawWrite (p + 16) 8 a).rawWrite
      (p + 24) 8 b
    let y := s.yard die
    s.setYard die (match k with
      | .yard => { y with ylhead := y.ylhead + 1 }
      | .order => { y with mlhead := y.mlhead + 1 })

/-! ### Black box -/

/-- XOR of `n` bytes of a number. -/
def xorBytes (v n : Nat) : Nat :=
  match n with
  | 0 => 0
  | k + 1 => Nat.xor (v % 256) (xorBytes (v / 256) k)

/-- Where it stands among the marks of a cycle that a die's black box has taken an entry. -/
def bbMark (die : Nat) : Nat := 2 ^ 33 + die

/-- Keep the newest 1,024 entries. -/
def keepNewest (l : List (BitVec 512)) : List (BitVec 512) := l.drop (l.length - 1024)

/-- Write an entry of KIND with `data`, 48 bytes as a number, to the black box of a die (18 R417).
(Log 62, DEDUCED; log 77, DESIGN CHOICE.) -/
def State.bbEvent (s : State) (die kind data : Nat) : State :=
  let y := s.yard die
  let time := if s.dev.stage = 5 then s.cycle.toNat else 0
  let head := time + s.dev.boots.toNat * 2 ^ 64 + kind % 65536 * 2 ^ 96 + die * 2 ^ 112
  let body := data % 2 ^ 384
  let check := Nat.xor (xorBytes head 15) (xorBytes body 48)
  let e := BitVec.ofNat 512 (head + check * 2 ^ 120 + body * 2 ^ 128)
  { s with marks := s.marks.set 0 (bbMark die) 1 }.setYard die { y with bbox := keepNewest (y.bbox ++ [e]), bbhead := y.bbhead + 1 }

/-- A reset may cut off an entry that is being written in its cycle, whether it does a free choice: its CHECK, which is written last, does
not match (18 R417, R422). (Log 77, DESIGN CHOICE.) -/
def State.cutEntry (s : State) (die : Nat) : List (BitVec 512) :=
  let l := (s.yard die).bbox
  let pick := Config.freePick s.stamp die
  if s.marks.get 0 (bbMark die) = 0 || pick % 2 = 0 then l
  else l.dropLast ++ l.getLast?.toList.map (· ^^^ BitVec.ofNat 512 ((1 + pick / 2 % 255) * 2 ^ 120))

/-! ### Jobs -/

/-- Block `b` belongs to a job in deterministic mode (18 R410). -/
def State.det (s : State) (b : Nat) : Bool := (s.run (s.block b).run).det

/-- Die of a core. -/
def dieOfCore (n : Nat) : Nat := n / 160
/-- Cluster of a core. -/
def clusterOfCore (n : Nat) : Nat := n / 4
/-- Die of a cluster. -/
def dieOfCluster (c : Nat) : Nat := c / 40

/-- Write an entry for an event of block `b` at core `n`'s Lamport clock, to the memory-order log of its die. -/
def State.orderLog (s : State) (b n kind ts a v : Nat) : State :=
  let k := s.block b
  s.writeLog (dieOfCore n) .order kind k.func k.job (logUnit 0 n) ts a v

end Sys2Proof.Machine
end

