-- ==== Sys2Proof/Machine/Paths.lean ====
section
/-! DEFINITION. Program counters, paths and the service list of a team (05 R125, 06 R150, 08 R209). -/
namespace Sys2Proof.Machine

/-- Slot number of a PC in its line (06 R147). -/
def slotOf (pc : Dbl) : Nat := natBits pc.toNat 5 2

/-- Line address of a PC. -/
def lineOf (pc : Dbl) : Dbl := pc &&& ~~~(63 : Dbl)

/-- The PC after an instruction of `len` slots that takes no branch (06 R150). (Log 23, DEDUCED.) -/
def nextPc (pc : Dbl) (len : Nat) : Dbl :=
  let p := pc + BitVec.ofNat 64 (4 * len)
  if slotOf p = 15 then p + 4 else p

/-- The lane moves to `dst` by sequential flow, TRET or resumption (06 R151, R152). -/
def Lane.flow (l : Lane) (dst : Dbl) : Lane :=
  { l with pc := dst, arrival := if lineOf dst = lineOf l.pc then l.arrival else .newLine }

/-- The lane moves to `dst` by a transfer that checks the target mark (06 R151). -/
def Lane.jump (l : Lane) (dst : Dbl) : Lane := { l with pc := dst, arrival := .transfer l.pc }

/-- The lane leaves WAITING and continues after the one-slot instruction at which it waited. -/
def Lane.release (l : Lane) (len : Nat) : Lane := { l.flow (nextPc l.pc len) with st := .ready }

/-- The lane is READY. -/
def Lane.isReady (l : Lane) : Bool := l.st == .ready

/-- The lane is EXITED. -/
def Lane.isExited (l : Lane) : Bool := l.st == .exited

/-- READY lanes at a PC: the path there (05 R125). -/
def Team.path (t : Team) (pc : Dbl) : List Nat :=
  laneList.filter fun L => (t.lane L).isReady && (t.lane L).pc == pc

/-- PCs at which READY lanes stand, in the order of their lowest lanes. -/
def Team.readyPcs (t : Team) : List Dbl :=
  laneList.foldl (fun ps L =>
    let l := t.lane L
    if l.isReady && !ps.contains l.pc then ps ++ [l.pc] else ps) []

/-- Remove repeated PCs, keeping the first. -/
def dedupPcs (ps : List Dbl) : List Dbl :=
  ps.foldl (fun acc p => if acc.contains p then acc else acc ++ [p]) []

/-- Bring the service list up to date (08 R209): paths without lanes leave, paths at one PC become one at the place of the
earlier, and new paths stand at the end. -/
def Team.refresh (t : Team) : Team :=
  let live := t.readyPcs
  let kept := (dedupPcs t.service).filter live.contains
  { t with service := kept ++ live.filter fun p => !kept.contains p }

/-- The place of path `pc` is taken by the new paths `ps`, in order (08 R209). -/
def Team.split (t : Team) (pc : Dbl) (ps : List Dbl) : Team :=
  { t with service := t.service.foldr (fun p acc => if p == pc then ps ++ acc else p :: acc) [] }.refresh

/-- Apply a function to each lane of a list. -/
def Team.mapLanes (t : Team) (ls : List Nat) (f : Nat → Lane → Lane) : Team :=
  ls.foldl (fun t L => t.setLane L (f L (t.lane L))) t

/-- Every lane of a team, started or not, becomes EXITED. -/
def Team.exitAll (t : Team) : Team :=
  { t with lanes := t.lanes.map fun p => (p.1, { p.2 with st := .exited, hold := .none, watch := .none }), service := [] }

/-- Lanes of a team that are not EXITED. -/
def Team.live (t : Team) : List Nat := laneList.filter fun L => !(t.lane L).isExited

/-- The lane waits at this kind of instruction. -/
def Lane.waitsAt (l : Lane) (p : Wait → Bool) : Bool :=
  match l.st with
  | .waiting w => p w
  | _ => false

/-- Lanes at mask `n` (08 R211). -/
def Team.atMask (t : Team) (n : Nat) : List Nat :=
  laneList.filter fun L => (t.lane L).waitsAt fun w =>
    match w with | .join k _ => k == n | .waitk k _ => k == n | _ => false

/-- Apply a function to every team. -/
def State.mapTeams (s : State) (f : Nat → Team → Team) : State :=
  { s with teams := s.teams.map fun p => (p.1, f p.1 p.2) }

/-- INSNS counts an issue, saturating (05 R128). -/
def Team.countIssue (t : Team) : Team :=
  { t with insns := if t.insns = 0xFFFF then t.insns else t.insns + 1 }

end Sys2Proof.Machine
end

