-- ==== Sys2Proof/Machine/Translate.lean ====
section
/-! DEFINITION. Windows, page tables and the checks that an access passes before any byte moves (09). -/
namespace Sys2Proof.Machine

/-- Access kinds (09 R231). -/
inductive AccessKind where
  | read | write | fetch
  deriving DecidableEq, Repr

/-- Whose read it is, for a version's held writes: team, lane, issue number, and what happens-before it (11 R292). (Log 122,
DEDUCED.) -/
structure Reader where
  team : Nat := 0
  lane : Nat := 0
  ins : Nat := 0
  know : SMap Nat := []
  deriving DecidableEq, Repr

/-- On whose behalf an address is checked. -/
structure Agent where
  func : Nat
  /-- Cluster whose L2 TLB serves the access, and the core whose L1 TLB does. -/
  cluster : Nat
  core : Option Nat := none
  /-- Supervisor level (17 R380). -/
  sup : Bool
  /-- Window address of the block's first vault byte, and VAULTB (05 R133). -/
  vbase : Nat
  vaultb : Nat
  /-- Private memory of the thread: its alias base ABASE + t·P, and PRIVB (09 R224). -/
  alias0 : Nat
  privb : Nat
  /-- The node has feature REMOTE (09 R226). -/
  remoteOk : Bool
  who : Reader := {}
  /-- Who of the team asks for a page walk: a lane, or 64 more than the number of an engine operation (09 R237). -/
  asks : Nat := 0
  /-- Of an engine operation: the clock of its lane's last release fence, and what that fence carries (11 R281). (Log 15, DEDUCED.) -/
  rel : Nat := 0
  carries : SMap Nat := []
  deriving DecidableEq, Repr

/-- Fault codes of 00 R17. -/
def codeIllegal := 0x01
/-- FEATURE. -/
def codeFeature := 0x02
/-- REGBOUND. -/
def codeRegbound := 0x03
/-- BARBOUND. -/
def codeBarbound := 0x04
/-- VAULTBOUND. -/
def codeVaultbound := 0x05
/-- ALIGN. -/
def codeAlign := 0x06
/-- STRADDLE. -/
def codeStraddle := 0x07
/-- NOWIN. -/
def codeNowin := 0x08
/-- PAGENP. -/
def codePagenp := 0x09
/-- PAGEPERM. -/
def codePageperm := 0x0A
/-- RANGELOCK. -/
def codeRangelock := 0x0B

/-- A fault with an address. -/
def FaultInfo.at (code cause : Nat) (a : Nat) : FaultInfo := { code := code, cause := cause, addr := BitVec.ofNat 64 a }

/-- Number of an access kind in a walk referral (18 R434). -/
def AccessKind.code : AccessKind → Nat
  | .read => 0
  | .write => 1
  | .fetch => 2

/-- The fault of a failed translation of `va` for an access that names `a`: FEATURE names the feature bit (09 R226); code
0 carries what the walk's referral names. -/
def transFault (ag : Agent) (kind : AccessKind) (va a c k : Nat) : FaultInfo :=
  if c = codeFeature then { code := c, info := 8, reg := a }
  else if c = 0 then { code := 0, cause := k, addr := BitVec.ofNat 64 va,
                       info := BitVec.ofNat 32 (kind.code + if ag.sup then 0 else 4) }
  else .at c k a

/-- The window of an address (09 R218): 0 global, 1 vault, 2 private, 3 none. -/
def windowOf (a : Nat) : Nat := if a < 3 * 2 ^ 56 then a / 2 ^ 56 else 3

/-- Base of the doorbell aperture and its size (03 R62). -/
def doorBase : Nat := 0x7F0000000000
/-- Size of the aperture, 128 MiB. -/
def doorSize : Nat := 0x8000000

/-- End of HBM physical addresses: 512 GiB (09 R226). -/
def hbmEnd : Nat := 2 ^ 39

/-- A range of HBM that firmware reserves overlaps `n` bytes from `p` (09 R230). (Log 45, DESIGN CHOICE.) -/
def State.reservedAt (s : State) (p n : Nat) : Bool := s.reserved.any fun r => overlaps r.1 r.2.1 p n

/-- Physical address of the next table or page in an entry: bits 51:12 (09 R228). -/
def pteFrame (e : Nat) : Nat := natBits e 51 12 * 4096

/-- What a leaf maps, in bytes, by level (09 R227): the page that R230 tests; of a C64 leaf the 4 KiB that its entry maps.
(Log 148, DESIGN CHOICE.) -/
def leafSize (level : Nat) : Nat := if level = 3 then 2 ^ 30 else if level = 2 then 2 ^ 21 else 4096

/-- The rules of 09 R228 and R229 on a leaf entry of `level` that maps address `a`. (Log 44, DEDUCED.) -/
def leafOk (e level a : Nat) : Bool :=
  natBits e 63 62 == 0 && natBits e 11 10 == 0 && natBits e 7 7 == 0 &&
  (natBits e 9 8 == 2 || natBits e 61 52 == 0) && natBits e 9 8 != 3 &&
  pteFrame e % leafSize level == 0 &&
  (level != 1 || natBits e 6 6 == 0 || natBits e 15 12 == natBits a 15 12)

/-- The rules of 09 R228 on a non-leaf entry. -/
def dirOk (e : Nat) : Bool := natBits e 63 62 == 0 && natBits e 61 52 == 0 && natBits e 11 10 == 0

/-- A walk's result: the leaf entry and its level, or a fault's code and cause. -/
abbrev WalkResult := Except (Nat × Nat) (Nat × Nat)

/-- A table may be read at `p` (09 R227). -/
def State.tableOk (s : State) (p n : Nat) : Except (Nat × Nat) Unit :=
  if hbmEnd ≤ p then .error (codePagenp, 4)
  else if s.reservedAt p n then .error (codePageperm, 0xA)
  else .ok ()

/-- What an entry of a table of `level` maps, as a part of the address space: 512 GiB, 1 GiB, 2 MiB or 4 KiB (09 R227). -/
def tablePart (level a : Nat) : Nat := a / 2 ^ (3 + 9 * level)

/-- The entry for address `a` in the table of `level` at `p`: from the die's walk cache, which may be older than the table and
holds non-leaf entries alone, else as it stands in HBM (09 R227, R236). -/
def State.tableEntry (s : State) (die func level p a : Nat) : Nat :=
  match s.walks.find? fun w => w.die == die && w.func == func && w.level == level && w.part == tablePart level a with
  | some w => w.entry
  | none => s.hbmRead (p + 8 * (if level = 4 then tablePart 4 a else tablePart level a % 512)) 8

/-- Where a walk of address `a` comes to: the table of `level` to which `a`'s non-leaf entries lead from the table at `p` of level
`l`, or the leaf or the fault that it meets above it (09 R227, R228). `l` counts down structurally. -/
def State.tableAt (s : State) (die func a level l p : Nat) : Except WalkResult Nat :=
  match l with
  | 0 => .error (.error (codePagenp, 2))
  | k + 1 =>
    match s.tableOk p 4096 with
    | .error e => .error (.error e)
    | .ok () =>
      if level = k + 1 then .ok p
      else
        let e := s.tableEntry die func (k + 1) p a
        if e % 2 = 0 then .error (.error (codePagenp, 1))
        else if natBits e 5 5 = 1 then
          .error (if leafOk e (k + 1) a then .ok (e, k + 1) else .error (codePagenp, 2))
        else if !dirOk e then .error (.error (codePagenp, 2))
        else s.tableAt die func a level k (pteFrame e)

/-- Global address `a` lies outside what a root maps (09 R227). -/
def rootOutside (root a : Nat) : Bool := natBits root 8 8 == 0 || decide (2 ^ (39 + natBits root 4 0) ≤ a)

/-- The table of `level`, 1 to 3, for global address `a` of a function, or what the walk meets before it (09 R227): the entry
of the top table stands at TABLE + 8 · index, whatever TABLE's alignment. (Log 138, DESIGN CHOICE.) -/
def State.walkTo (s : State) (die func a level : Nat) : Except WalkResult Nat :=
  let root := (s.func func).ptroot.toNat
  if rootOutside root a then .error (.error (codePagenp, 3))
  else
    let p := pteFrame root
    match s.tableOk p (8 * 2 ^ natBits root 4 0) with
    | .error e => .error (.error e)
    | .ok () =>
      let e := s.tableEntry die func 4 p a
      if e % 2 = 0 then .error (.error (codePagenp, 1))
      else if natBits e 5 5 = 1 || !dirOk e then .error (.error (codePagenp, 2))
      else s.tableAt die func a level 3 (pteFrame e)

/-- The level-1 entry for address `a` in the table at `p`, as its own entry gives it (09 R228). -/
def leafEntry (e a : Nat) : WalkResult :=
  if e % 2 = 0 then .error (codePagenp, 1)
  else if natBits e 5 5 = 1 && leafOk e 1 a then .ok (e, 1)
  else .error (codePagenp, 2)

/-- Place of entry `i` of the 64 KiB range of address `a` in the level-1 table at `p`. -/
def groupPlace (p a i : Nat) : Nat := p + 8 * (tablePart 1 (a / 65536 * 65536 + 4096 * i) % 512)

/-- The range of address `a` is a C64 group: one of its sixteen entries is a present C64 leaf (09 R229). -/
def State.isGroup (s : State) (p a : Nat) : Bool :=
  (List.range 16).any fun i => s.hbmByte (groupPlace p a i) &&& 0x61 == 0x61 &&
    leafOk (s.hbmRead (groupPlace p a i) 8) 1 (a / 65536 * 65536 + 4096 * i)

/-- Members of a C64 group that translate: of its sixteen entries, those that are present leaves, C64 or not (09 R229). -/
def State.groupMembers (s : State) (p a : Nat) : List Nat :=
  (List.range 16).filterMap fun i =>
    let e := s.hbmRead (groupPlace p a i) 8
    if e &&& 0x21 = 0x21 && leafOk e 1 (a / 65536 * 65536 + 4096 * i) then some e else none

/-- The translation of a group's member as it applies to the 4 KiB of address `a`: its 64 KiB frame, and `a`'s place in it. -/
def groupMoved (e a : Nat) : Nat := e - natBits e 15 12 * 4096 + natBits a 15 12 * 4096

/-- The entry that a TLB applies to address `a`, whose level-1 table stands at `p`: its own, and where the sixteen entries of a
C64 group do not agree, the address's own or any member's, whichever: a free value (09 R229). (Log 44, DEDUCED.) -/
def State.groupEntry (s : State) (p a : Nat) : WalkResult :=
  let e := s.hbmRead (p + 8 * (tablePart 1 a % 512)) 8
  if !s.isGroup p a then leafEntry e a
  else
    let moved := (s.groupMembers p a).map (groupMoved · a)
    if moved.length = 16 && moved.all (· == e) then .ok (e, 1)
    else match moved[Config.freePick s.stamp (a / 4096) % (moved.length + 1)]? with
      | some e' => .ok (e', 1)
      | none => leafEntry e a

/-- Walk a function's tables for global address `a`, with the walk cache of a die (09 R227 to R229, R236). -/
def State.walkRoot (s : State) (die func a : Nat) : WalkResult :=
  match s.walkTo die func a 1 with
  | .error r => r
  | .ok p => s.groupEntry p a

/-- The entry of a TLB that serves an access: of the core's L1 TLB, else of the cluster's L2 TLB (09 R236). -/
def State.tlbEntry (s : State) (ag : Agent) (a : Nat) : Option TlbEntry :=
  let hit (core : Option Nat) : Option TlbEntry := s.tlb.find? fun t =>
    t.cluster == ag.cluster && t.core == core && t.func == ag.func && t.page == a / 4096
  (if ag.core.isSome then hit ag.core else none).or (hit none)

/-- What the PF's reply to a referred walk says (09 R237): the level-1 entry, level 0 for a reply that did not come in time; a
reply that is no leaf is BADPTE. -/
def answerLeaf (pte level a : Nat) : WalkResult :=
  if level = 0 then .error (codePagenp, 0xB) else leafEntry pte a

/-- Who of a team waits for a page walk of an agent: an access of a lane waits where the lane stands (09 R237). -/
def State.waiter (s : State) (ag : Agent) : Waiter :=
  { cluster := ag.cluster, team := ag.who.team, asks := ag.asks,
    pc := if ag.asks < 64 then ((s.team ag.who.team).lane ag.asks).pc else 0 }

/-- The failed answer of a referred walk for an access of an agent of a core: it is for the one that waited, where that still stands
(09 R236, R237). -/
def State.walkAnswered (s : State) (ag : Agent) (a : Nat) : Option WalkAnswer :=
  if ag.core.isSome && s.answers != [] then
    s.answers.find? fun w => w.who == s.waiter ag && w.func == ag.func && w.page == a / 4096
  else none

/-- A referred walk of the page is outstanding at the die, though MODES may have been cleared since: the miss table merges every
miss to one page (09 R236, R237; 18 R420). (Log 43, DEDUCED.) -/
def State.walkOut (s : State) (ag : Agent) (a : Nat) : Bool :=
  s.referrals.any fun r => r.mode == 2 && r.die == ag.cluster / 40 && r.func == ag.func && r.arg0.toNat / 4096 == a / 4096

/-- The leaf for global address `a`: from the failed answer of a referred walk that the access waits for (09 R237); from a TLB where
one holds it (R236), whose entry may be older than the tables; else by a walk. Code 0 says that the walk is referred and not
answered yet. (Log 18, DEDUCED; log 43, DEDUCED; log 147, DESIGN CHOICE.) -/
def State.leaf (s : State) (ag : Agent) (a : Nat) : WalkResult :=
  match s.walkAnswered ag a, s.tlbEntry ag a with
  | some w, _ => answerLeaf w.pte.toNat w.level a
  | none, some t => .ok (t.pte.toNat, t.level)
  | none, none =>
    if rootOutside (s.func ag.func).ptroot.toNat a then .error (codePagenp, 3)
    else if (s.yard (ag.cluster / 40)).mode.getLsbD 2 || s.walkOut ag a then .error (0, 0xB)
    else s.walkRoot (ag.cluster / 40) ag.func a

/-- Rows of 09 R231, after the test of R230. `user` applies row 4. -/
def leafPermits (e : Nat) (kind : AccessKind) (user : Bool) (door : Bool) : Option Nat :=
  if kind = .fetch && (natBits e 2 2 = 0 || natBits e 9 8 != 0 || door) then some 7
  else if kind = .write && natBits e 4 4 = 1 then some 6
  else if kind = .write && natBits e 1 1 = 0 then some 5
  else if user && natBits e 3 3 = 0 then some 8
  else none

/-- Translate global address `a` (09 R226 to R231). `user` says that row 4 of R231 applies. A referred walk that has not
been answered gives code 0, cause WALKTIMEOUT (09 R237): no fault is raised and the access waits. FEATURE of a page of another
accelerator (R226) comes after the rows of R231. (Log 18, DEDUCED; log 146, DESIGN CHOICE.) -/
def State.translate (s : State) (ag : Agent) (kind : AccessKind) (user : Bool) (a : Nat) : Except (Nat × Nat) Target :=
  match s.leaf ag a with
  | .error e => .error e
  | .ok (e, level) =>
    let p := pteFrame e + a % leafSize level
    let mt := natBits e 9 8
    if mt = 0 && hbmEnd ≤ p && !(doorBase ≤ p && p < doorBase + doorSize) then .error (codePagenp, 4)
    else if mt = 0 && s.reservedAt (pteFrame e) (leafSize level) then .error (codePageperm, 0xA)
    else if mt = 2 && 0xFFFFF00000 ≤ p && p ≤ 0xFFFFFFFFFF then .error (codePagenp, 4)
    else
      let door := mt = 0 && decide (hbmEnd ≤ p)
      match leafPermits e kind user door with
      | some c => .error (codePageperm, c)
      | none =>
        if mt = 0 then (if door then .ok (.door (p - doorBase)) else .ok (.hbm p))
        else if mt = 1 then .ok (.host p)
        else if ag.remoteOk then .ok (.remote (natBits e 61 52) p)
        else .error (codeFeature, 0)

/-- A cluster belongs to a partition of function `f` (01 R433). -/
def State.ownsCluster (s : State) (f c : Nat) : Bool := ((s.pf.partown).get 0xFF (c / 4)).toNat == f && f != 0

/-- A vault byte that the agent may not touch (09 R222). -/
def State.vaultBad (s : State) (ag : Agent) (a : Nat) : Bool :=
  let c := natBits a 31 24
  natBits a 55 32 != 0 || 160 ≤ c || 0x400000 ≤ natBits a 23 0 ||
  (if ag.sup then !s.ownsCluster ag.func c else a < ag.vbase || ag.vbase + ag.vaultb ≤ a)

/-- The arena range of a function: base and size (09 R232). -/
def Func.arena (f : Func) : Nat × Nat := (natBits f.privarena.toNat 55 12 * 4096, natBits f.privarsz.toNat 47 12 * 4096)

/-- The lowest byte of `n` from `a` that lies in a range of size `k` from `b`. -/
def firstIn (a n b k : Nat) : Option Nat := if overlaps a n b k then some (max a b) else none

/-- The first of `n` addresses from `a` that satisfies `p`. -/
def firstBad (p : Nat → Bool) (a n : Nat) : Option Nat :=
  match n with
  | 0 => none
  | k + 1 => if p a then some a else firstBad p (a + 1) k

/-- Row 4 of 09 R219 for an access of `n` bytes that lies in one window and, if global or private, in one page of its
tables: the vault rules, the private rules, the arena test, translation. The arena test is one of accesses, not of instruction
fetch. (Log 123, DESIGN CHOICE.) -/
def State.resolve (s : State) (ag : Agent) (kind : AccessKind) (a n : Nat) : Except FaultInfo Target :=
  match windowOf a with
  | 1 =>
    if kind = .fetch then .error (.at codePageperm 7 a)
    else match firstBad (s.vaultBad ag) a n with
      | some b => .error (.at codeVaultbound 0 b)
      | none => .ok (.vault (natBits a 31 24) (natBits a 23 0))
  | 2 =>
    if kind = .fetch then .error (.at codePageperm 7 a)
    else
      let o := a - 2 * 2 ^ 56
      if ag.privb < o + n then .error (.at codePagenp 1 (max a (2 * 2 ^ 56 + ag.privb)))
      else match s.translate ag kind false (ag.alias0 + o) with
        | .ok t => .ok t
        | .error (c, k) => .error (transFault ag kind (ag.alias0 + o) a c k)
  | 0 =>
    let ar := (s.func ag.func).arena
    match (if ag.sup || kind = .fetch then none else firstIn a n ar.1 ar.2) with
    | some b => .error (.at codePageperm 9 b)
    | none =>
      match s.translate ag kind (!ag.sup) a with
      | .ok t => .ok t
      | .error (c, k) => .error (transFault ag kind a a c k)
  | _ => .error (.at codeNowin 0 a)

/-- The doorbell page at an aperture offset is that of a queue that the function owns (03 R60, R62). -/
def State.doorOwned (s : State) (func o : Nat) : Bool :=
  let f := s.func func
  let base := natBits f.qbase.toNat 14 0
  base ≤ o / 4096 && o / 4096 < base + natBits f.qcount.toNat 15 0

/-- A misaligned access faults ALIGN (09 R219), but to the doorbell page of another function's queue it does nothing, and no
fault is raised: that is decided first (03 R62). A translation that waits for the PF's walk makes the access wait. -/
def State.misaligned (s : State) (ag : Agent) (kind : AccessKind) (a : Nat) : Except FaultInfo Target :=
  match s.resolve ag kind a 1 with
  | .ok (.door o) => if kind ≠ .fetch && !s.doorOwned ag.func o then .ok (.door o) else .error (.at codeAlign 0 a)
  | .error e => if e.code = 0 then .error e else .error (.at codeAlign 0 a)
  | _ => .error (.at codeAlign 0 a)

/-- A data access at `a` meets the doorbell page of another function's queue: it does nothing and takes no fault, of whatever size,
alignment or kind it is (03 R62). A translation that waits for the PF's walk makes it wait. -/
def State.strangeDoor (s : State) (ag : Agent) (kind : AccessKind) (a : Nat) : Except FaultInfo (Option Target) :=
  if windowOf a = 1 || windowOf a = 3 then .ok none
  else match s.resolve ag kind a 1 with
    | .ok (.door o) => .ok (if s.doorOwned ag.func o then none else some (.door o))
    | .error e => if e.code = 0 then .error e else .ok none
    | _ => .ok none

/-- Rows 1 to 4 of 09 R219 for an access of `n` bytes at `a`, aligned to `align` bytes where the entry requires it. -/
def State.checkAccess (s : State) (ag : Agent) (kind : AccessKind) (a n align : Nat) : Except FaultInfo Target :=
  if windowOf a = 3 then .error (.at codeNowin 0 a)
  else if 2 ^ 64 ≤ a + n - 1 || windowOf (a + n - 1) ≠ windowOf a then .error (.at codeStraddle 0 a)
  else if a % align ≠ 0 then s.misaligned ag kind a
  else s.resolve ag kind a n

/-- Home of an HBM line: die and slice (09 R233). -/
def State.homeOf (s : State) (p : Nat) : Nat × Nat :=
  ((s.stackOf p).1 / 2, Nat.xor (natBits p 10 6) (Nat.xor (natBits p 15 11) (natBits p 20 16)))

/-- The fabric unit that answers for the home of a target: its L2 slice, or the fabric port of the die of the vault or of the core that
asks (11 R277, R285). (Log 14, DEDUCED.) -/
def State.homeUnit (s : State) (core : Nat) (t : Target) : Nat :=
  match t with
  | .hbm p => sliceUnit (s.homeOf p).1 (s.homeOf p).2
  | .vault c _ => portUnit (c / 40)
  | _ => portUnit (core / 160)

/-- A core's request reaches the home of a target and is answered: the clocks of the core and of the home's unit rise to each other's
(11 R285). (Log 14, DEDUCED.) -/
def State.callHome (s : State) (core : Nat) (t : Target) : State :=
  let u := s.homeUnit core t
  (s.tellUnit core u).tellCore u core

end Sys2Proof.Machine
end

