-- ==== Sys2Proof/Machine/Home.lean ====
section
/-! DEFINITION. The homes of memory: performing reads and writes, ownership, watches, and the sorting pens (10 R264 to R269,
R273; 11 R277, R278). -/
namespace Sys2Proof.Machine

/-- Line number of a watch on an HBM line or, above 2^37, a vault line (10 R273). -/
def Target.watchLine (t : Target) : Option Nat :=
  match t with
  | .hbm p => some (p / 64)
  | .vault c o => some (2 ^ 37 + (2 ^ 23 * c + o) / 64)
  | _ => none

/-- A write performed at a line triggers the lane's watch and releases its WAITW with status 0 (10 R273, R274). -/
def Team.trigger (t : Team) (line : Nat) : Team :=
  let hit := laneList.filter fun L => (t.lane L).watch == .armed line
  if hit = [] then t
  else
    (hit.foldl (fun t L =>
      let l := t.lane L
      match l.st with
      | .waiting (.watch d) => (t.setLane L { l.release 1 with watch := .none }).setV L d 0
      | _ => t.setLane L { l with watch := .triggered }) t).refresh

/-- Trigger the watches on a line. -/
def State.trigger (s : State) (line : Nat) : State := s.mapTeams fun _ t => t.trigger line

/-- The value of `n` bytes at a target, as it stands at the home now. -/
def State.peek (s : State) (t : Target) (n : Nat) : Nat :=
  match t with
  | .hbm p => s.hbmRead p n
  | .vault c o => Memory.read s.vaults (2 ^ 23 * c + o) n
  | .host p => Memory.read s.host p n
  | .remote a p => Memory.read s.remote (2 ^ 64 * a + p) n
  | .door _ => 0

/-- Word numbers of `n` bytes from `p`. -/
def wordsOf (p n : Nat) : List Nat := (List.range ((p + n - 1) / 4 + 1 - p / 4)).map (p / 4 + ·)

/-- Copies that leave the L1s when word `w` is registered by `who` (a core plus one, or 0): the former owner's copy, and
with it the unowned words of its sector; the writer's own copy and the unowned words of its sector. -/
def State.l1Leaves (s : State) (who w : Nat) (e : L1Word) : Bool :=
  e.word / 8 == w / 8 &&
  (if e.core + 1 == who then !e.owned || e.word == w
   else (e.owned && e.word == w) ||
     (!e.owned && s.l1.any fun x => x.core == e.core && x.word == w && x.owned))

/-- Lines of a core's L1: 128 KiB (09 R233). -/
def l1Lines : Nat := 2048

/-- The lines that a core's L1 holds, each once. -/
def State.l1Held (s : State) (core : Nat) : List Nat :=
  s.l1.foldl (fun l e => if e.core == core && !l.contains (e.word / 16) then (e.word / 16) :: l else l) []

/-- A core's L1 has room for line `line`: a full one loses a line, whichever (09 R233). (Log 13, DESIGN CHOICE.) -/
def State.l1Room (s : State) (core line : Nat) : State :=
  let held := s.l1Held core
  if held.contains line || held.length < l1Lines then s
  else
    let out := held.getD (Config.freePick s.stamp line % held.length) 0
    { s with l1 := s.l1.filter fun e => !(e.core == core && e.word / 16 == out) }

/-- The home of an HBM word revokes it from its former owner, another core, and is answered: clocks are exchanged (11 R278, R285). -/
def State.revoke (s : State) (who w : Nat) : State :=
  let old := (s.owners.get {} w).core
  if old = 0 || old = who then s else s.callHome (old - 1) (.hbm (4 * w))

/-- The home records the owner of a word and revokes it from the former owner's L1 (11 R278). `who` is the core plus one,
or 0 for a writer that is no core; `keep` says that the storing core's L1 keeps the word. -/
def State.own (s : State) (who ts : Nat) (keep : Bool) (w : Nat) : State :=
  let s := s.revoke who w
  let rest := s.l1.filter fun e => !s.l1Leaves who w e
  let s := { s with l1 := rest, owners := s.owners.set {} w { core := who, ts := ts } }
  if who = 0 || !keep then s
  else
    let s := s.l1Room (who - 1) (w / 16)
    { s with l1 := { core := who - 1, word := w, val := BitVec.ofNat 32 (s.hbmRead (4 * w) 4), owned := true } :: s.l1 }

/-- Number of the vault word at an offset, beyond those of HBM, where its home keeps its owner (11 R278). -/
def vaultWord (c o : Nat) : Nat := 2 ^ 38 + (2 ^ 23 * c + o) / 4

/-- Numbers of the words of `n` bytes at a target, under which the home keeps their owners (11 R277, R278): those of HBM, and beyond them
those of the vaults, of host memory and of other accelerators. -/
def Target.ownWords (t : Target) (n : Nat) : List Nat :=
  match t with
  | .hbm p => wordsOf p n
  | .vault c o => (wordsOf o n).map fun w => vaultWord c (4 * w)
  | .host p => (wordsOf p n).map (2 ^ 64 + ·)
  | .remote a p => (wordsOf p n).map (2 ^ 64 * (a + 2) + ·)
  | .door _ => []

/-- A home whose words no L1 holds records their owners (11 R278, 18 R414). -/
def State.ownAt (s : State) (who ts : Nat) (t : Target) (n : Nat) : State :=
  { s with owners := (t.ownWords n).foldl (fun m w => SMap.set m {} w { core := who, ts := ts }) s.owners }

/-- Perform a write at its home: the bytes, the granule's generation, ownership and watches. -/
def State.poke (s : State) (who ts : Nat) (keep : Bool) (t : Target) (n v : Nat) : State :=
  match t with
  | .hbm p =>
    let s := s.rawWrite p n v
    ((wordsOf p n).foldl (fun s w => s.own who ts keep w) s).trigger (p / 64)
  | .vault c o =>
    ({ s with vaults := Memory.write s.vaults (2 ^ 23 * c + o) n v }.ownAt who ts t n).trigger
      (2 ^ 37 + (2 ^ 23 * c + o) / 64)
  | .host p => { s with host := Memory.write s.host p n v }.ownAt who ts t n
  | .remote a p => { s with remote := Memory.write s.remote (2 ^ 64 * a + p) n v }.ownAt who ts t n
  | .door _ => s

/-- An acquire discards from a core's L1 every word that it does not own (11 R280). -/
def State.acquire (s : State) (core : Nat) : State :=
  { s with l1 := s.l1.filter fun e => e.core != core || e.owned }

/-- Drop the unowned words of a sector (32 bytes) from a core's L1. (Log 17, DEDUCED.) -/
def State.dropSector (s : State) (core sector : Nat) : State :=
  { s with l1 := s.l1.filter fun e => e.core != core || e.owned || e.word / 8 != sector }

/-- The copy of `n` bytes at physical address `p` in a core's L1, where it holds every word of them. -/
def State.l1Read (s : State) (core p n : Nat) : Option Nat :=
  let ws := wordsOf p n
  let find (w : Nat) : Option L1Word := s.l1.find? fun e => e.core == core && e.word == w
  if ws.all fun w => (find w).isSome then
    let v := ws.foldr (fun w acc => (match find w with | some e => e.val.toNat | none => 0) + 2 ^ 32 * acc) 0
    some (v / 2 ^ (8 * (p % 4)) % 2 ^ (8 * n))
  else none

/-! ### Sorting pens -/

/-- Bytes of a region TYPE (10 R261). -/
def regionBytes (ty : Nat) : Nat := if ty ≤ 2 then 4 else 8

/-- The operator of a region on key value `m` and pair value `v` (10 R261, R264). -/
def regionOp (ty op m v : Nat) : Nat :=
  let w := 8 * regionBytes ty
  let sgn (x : Nat) : Int := (BitVec.ofNat w x).toInt
  if ty = 2 then
    if op = 0 then (roundTo (Num.add (fmtF32.value m) (fmtF32.value v) .RN) fmtF32 .RN false).bits
    else floatMinMax fmtF32 (op == 2) m v
  else if op = 0 then (m + v) % 2 ^ w
  else
    let less := if ty = 0 || ty = 3 then decide (sgn m < sgn v) else decide (m < v)
    if (op == 1) == less then m else v

/-- Pair `a` comes before pair `b` in a batch: by (core, q) (10 R264). -/
def Pair.before (a b : Pair) : Bool := a.core < b.core || (a.core == b.core && a.q < b.q)

/-- Insert a pair into a batch in order. -/
def insertPair (x : Pair) (l : List Pair) : List Pair :=
  match l with
  | [] => [x]
  | y :: r => if x.before y then x :: y :: r else y :: insertPair x r

/-- The committed pairs of line `p / 64`, in batch order. -/
def State.batch (s : State) (line : Nat) : List Pair :=
  (s.pairs.filter fun q => q.accepted && !q.held && q.p / 64 == line).foldl (fun l q => insertPair q l) []

/-- A pair of an F32 region of a job in deterministic mode: its batch is logged (10 R264, 18 R414). -/
def Pair.logged (q : Pair) : Bool := q.ty == 2 && q.det

/-- Pen of a line: 8 · die + slice group, of four slices in a row (09 R233; 10 R264). (Log 151, DESIGN CHOICE.) -/
def State.penOf (s : State) (p : Nat) : Nat :=
  let h := s.homeOf p
  8 * h.1 + h.2 / 4

/-- The highest q of each core in a batch. -/
def batchCores (b : List Pair) : List (Nat × Nat) :=
  b.foldl (fun l q => (l.filter fun e => e.1 != q.core) ++ [(q.core, q.q)]) []

/-- Number of log entries that an apply of a line needs: BATCH and its continuations (18 R414). -/
def State.batchEntries (s : State) (line : Nat) : Nat :=
  let b := s.batch line
  if b.any Pair.logged then 1 + ((batchCores b).length + 1) / 2 else 0

/-- Continuation entries of a BATCH, two cores each (18 R414). -/
def State.logBatchCores (s : State) (die func job unit ts : Nat) (cs : List (Nat × Nat)) : State :=
  let enc (c : Nat × Nat) : Nat := c.1 * 2 ^ 54 + c.2 % 2 ^ 54
  match cs with
  | [] => s
  | [c] => s.writeLog die .order 0x15 func job unit ts (enc c) 0
  | c :: c' :: r => (s.writeLog die .order 0x15 func job unit ts (enc c) (enc c')).logBatchCores die func job unit ts r

/-- Log the composition of an F32 batch at its pen's clock (18 R414). -/
def State.logBatch (s : State) (line : Nat) (b : List Pair) : State :=
  match b.find? Pair.logged with
  | none => s
  | some q =>
    let die := (s.homeOf (64 * line)).1
    let unit := penUnit (s.penOf (64 * line))
    let ts := s.unitClock unit
    let cs := batchCores b
    let s := s.writeLog die .order 0x14 q.func q.job unit ts (64 * line) (b.length % 65536 + (cs.length + 1) / 2 * 65536)
    s.logBatchCores die q.func q.job unit ts cs

/-- A line holds committed pairs of a function that is cut: they are kept, and nothing reaches the line before them (10 R265; 17
R402). (Log 124, DEDUCED.) -/
def State.cutLine (s : State) (line : Nat) : Bool :=
  s.pairs.any fun q => q.accepted && !q.held && q.p / 64 == line && (s.func q.func).cut

/-- The pen applies the committed pairs of a line as one batch (10 R264), pen and slice exchanging clocks (18 R412); at a cut it applies
none (17 R402). (Log 14, DEDUCED.) -/
def State.applyLine (s : State) (line : Nat) : State :=
  match (if s.cutLine line then [] else s.batch line) with
  | [] => s
  | q :: r =>
    let b := q :: r
    let s := (s.tellUnits (sliceUnit (s.homeOf q.p).1 (s.homeOf q.p).2) (penUnit (s.penOf q.p))).logBatch line b
    let s := b.foldl (fun s q =>
      let n := regionBytes q.ty
      let m := s.hbmRead q.p n
      s.hbmWrite q.p n (regionOp q.ty q.op m q.value.toNat)) s
    let keys := b.foldl (fun ks q => if ks.contains (q.p, q.ty) then ks else ks ++ [(q.p, q.ty)]) ([] : List (Nat × Nat))
    let s := keys.foldl (fun s k => s.poke 0 0 false (.hbm k.1) (regionBytes k.2) (s.hbmRead k.1 (regionBytes k.2))) s
    { s with pairs := s.pairs.filter fun q => !(q.accepted && !q.held && q.p / 64 == line) }

/-- An access reaches a target: where it is a line with committed pairs, the pen applies them first (10 R265). -/
def State.reach (s : State) (t : Target) : State :=
  match t with
  | .hbm p => s.applyLine (p / 64)
  | _ => s

/-- Address `a` lies in a valid region of the function: its number (10 R261). -/
def Func.regionOf (f : Func) (a : Nat) : Option (Nat × Region) :=
  f.regions.find? fun r =>
    r.2.rctl.getLsbD 63 &&
    (let base := natBits r.2.rbase.toNat 55 6 * 64
     base ≤ a && a < base + 64 * natBits r.2.rctl.toNat 31 0)

/-- Pages of a region: global addresses of 4 KiB pages (10 R261). -/
def Region.pages (r : Region) : List Nat :=
  let base := natBits r.rbase.toNat 55 6 * 64
  let n := 64 * natBits r.rctl.toNat 31 0
  (List.range ((base + n + 4095) / 4096 - base / 4096)).map (base / 4096 + ·)

/-- HBM line `line` stands in a valid region of function `f`: a page of the region that the function's tables map holds it (10
R261, R265). -/
def State.regionHolds (s : State) (f line : Nat) (r : Region) : Bool :=
  r.rctl.getLsbD 63 && r.pages.any fun pg =>
    match s.walkRoot 4 f (4096 * pg) with
    | .ok (e, level) =>
      let p := pteFrame e + 4096 * pg % leafSize level
      let a := 4096 * pg + 64 * line % 4096
      let base := natBits r.rbase.toNat 55 6 * 64
      natBits e 9 8 == 0 && 64 * line / 4096 == p / 4096 && base ≤ a && a < base + 64 * natBits r.rctl.toNat 31 0
    | .error _ => false

/-- A line of a valid region, or one with pairs in its bin: no L1 holds it (10 R265). (Log 30, DEDUCED.) -/
def State.regionLine (s : State) (line : Nat) : Bool :=
  (s.pairs.any fun p => p.p / 64 == line) ||
  s.funcs.any fun f => f.2.regions.any fun r => s.regionHolds f.1 line r.2

/-- The lines of valid regions leave every L1 (10 R265). -/
def State.dropRegions (s : State) : State := { s with l1 := s.l1.filter fun e => !s.regionLine (e.word / 16) }

/-! ### Device accesses on a function's behalf (09 R432) -/

/-- The agent of a device access: user level, no block. (Log 42, DESIGN CHOICE.) -/
def deviceAgent (f : Nat) : Agent :=
  { func := f, cluster := 160, sup := false, vbase := 0, vaultb := 0, alias0 := 0, privb := 0, remoteOk := true }

/-- Translate one byte of a device access (09 R432). (Log 42, DESIGN CHOICE.) -/
def State.devByte (s : State) (f : Nat) (kind : AccessKind) (a : Nat) : Except FaultInfo Target :=
  if windowOf a = 0 then s.resolve (deviceAgent f) kind a 1 else .error (.at codeNowin 0 a)

/-- All `n` bytes from `a` pass the checks of a device access. -/
def State.devOk (s : State) (f : Nat) (kind : AccessKind) (a n : Nat) : Bool :=
  (firstBad (fun b => match s.devByte f kind b with | .ok _ => false | .error _ => true) a n).isNone

/-- Read `n` bytes at `a` on function `f`'s behalf, least significant first; none where a byte fails its checks. -/
def State.devRead (s : State) (f a n : Nat) : Option Nat :=
  match n with
  | 0 => some 0
  | k + 1 =>
    match s.devByte f .read a, s.devRead f (a + 1) k with
    | .ok t, some r => some (s.peek t 1 + 256 * r)
    | _, _ => none

/-- Where the lines of `n` bytes from `a` lie. -/
def devLines (a n : Nat) : List Nat := if n = 0 then [] else a :: (List.range ((a + n - 1) / 64 - a / 64)).map fun i => 64 * (a / 64 + 1 + i)

/-- Apply the pairs of every line of `n` bytes from `a` before a device read (10 R265). -/
def State.devReach (s : State) (f a n : Nat) : State :=
  (devLines a n).foldl (fun s i =>
    match s.devByte f .read i with
    | .ok t => s.reach t
    | .error _ => s) s

/-! ### Room in the logs (18 R415) -/

/-- Dies of the log entries that the applies of lines write (18 R414). -/
def State.batchDies (s : State) (ls : List Nat) : List Nat :=
  ls.flatMap fun l => List.replicate (s.batchEntries l) (s.homeOf (64 * l)).1

/-- The access acquires (11 R280). -/
def Access.acquires (a : Access) : Bool := a.kind != .store && (a.ord == 1 || a.ord == 3)

/-- Die and unit whose memory-order log takes the ATOM entry of a target (18 R412, R414): its L2 slice, or the core. -/
def State.atomLog (s : State) (core : Nat) (t : Target) : Nat × Nat :=
  match t with
  | .hbm p => let h := s.homeOf p; (h.1, sliceUnit h.1 h.2)
  | _ => (dieOfCore core, logUnit 0 core)

/-- Dies of the entries that an access in flight may still have to write (18 R414): the SC entry with its instruction's first access;
one entry for its address group with the group's first; one for each word that an acquire reads. -/
def State.accessOwes (s : State) (a : Access) : List Nat :=
  let first (same : Access → Bool) : Bool := s.accesses.all fun x => x.ins != a.ins || a.id ≤ x.id || !same x
  let core := dieOfCore a.core
  let acq := if a.acquires then List.replicate (a.target.ownWords a.size).length core else []
  (if a.ord = 3 && a.ts = 0 && first (fun _ => true) then [core] else []) ++
  match a.kind with
  | .atomic _ =>
    if first fun x => x.va == a.va && (windowOf a.va.toNat != 2 || x.lane == a.lane) then (s.atomLog a.core a.target).1 :: acq else []
  | _ => acq

/-- A lane of the block has arrived at a barrier in its phase, or is arriving (16 R365): the entry of the release is kept. -/
def State.barOwes (s : State) (b bar : Nat) : Bool :=
  let comes (t : Team) : Bool := laneList.any fun L => (t.lane L).waitsAt fun w =>
    match w with | .arrive _ n _ => n == bar | .drain n _ => n == bar | _ => false
  ((s.block b).bar bar).arr != 0 || (s.block b).teams.any fun tn => comes (s.team tn)

/-- Dies of the memory-order entries that threads of jobs in deterministic mode have found room for and not written yet (18 R415): of
their accesses and SC fences in flight, of the applies of the lines that these reach, of the barriers and masks at which lanes arrive or
wait, and of the atomics that the PF performs. (Log 140, DEDUCED.) -/
def State.owedDies (s : State) : List Nat :=
  let as := s.accesses.filter fun a => a.stage == .issued && s.det a.block
  let lines := as.filterMap fun a => match a.target with | .hbm p => some (p / 64) | _ => none
  let ofBlock (e : Nat × Block) : List Nat := ((List.range 16).filter (s.barOwes e.1)).map fun _ => dieOfCore e.2.core
  let ofTeam (t : Team) : List Nat := ((List.range 12).filter fun n => t.atMask n != []).map fun _ => dieOfCore t.core
  as.flatMap s.accessOwes ++ s.batchDies lines.eraseDups ++
  ((s.engines.filter fun e => e.kind == .fenceSc 0 && s.det e.block).map fun e => dieOfCore e.core) ++
  (s.blocks.filter fun e => s.det e.1).flatMap ofBlock ++
  (s.teams.filter fun t => s.det t.2.block).flatMap (fun t => ofTeam t.2) ++
  ((s.referrals.filter fun r => r.mode == 3 && s.det (s.team r.obj).block).map fun r => dieOfCore (s.team r.obj).core)

/-- Entries of a ring that are free: those of the memory-order log that are promised to a thread's event are not. -/
def State.roomLeft (s : State) (die : Nat) (k : LogKind) : Nat :=
  match k with
  | .yard => s.logFree die .yard
  | .order => s.logFree die .order - (s.owedDies.filter (· == die)).length

/-- A ring has room for `n` entries of a thread's event or of a Yard decision; the last 64 entries are kept for waiting
events (18 R415). -/
def State.logRoom (s : State) (die : Nat) (k : LogKind) (n : Nat) : Bool := n + 64 ≤ s.roomLeft die k

/-- Every log has room for these entries of the memory-order log, one for each die of the list, of an event that waits for it (18
R415). -/
def State.logsFit (s : State) (ds : List Nat) : Bool := ds.all fun d => (ds.filter (· == d)).length ≤ s.roomLeft d .order

/-- Every log has room for these entries, which were promised to the event. -/
def State.logsKept (s : State) (ds : List Nat) : Bool := ds.all fun d => (ds.filter (· == d)).length ≤ s.logFree d .order

/-- An access may reach a target: no pairs that a cut keeps stand in its way (17 R402), and the log has room for the batch that it
applies (18 R414, R415). -/
def State.reachable (s : State) (t : Target) : Bool :=
  match t with
  | .hbm p => !s.cutLine (p / 64) && s.logsFit (s.batchDies [p / 64])
  | _ => true

/-- Device reads, each of `n` bytes at `a`, may be made in one go: as `reachable` for all their lines together (18 R415). -/
def State.readsFit (s : State) (f : Nat) (rs : List (Nat × Nat)) : Bool :=
  let ls := (rs.flatMap fun r => devLines r.1 r.2).filterMap fun i =>
    match s.devByte f .read i with | .ok (.hbm p) => some (p / 64) | _ => none
  (ls.all fun l => !s.cutLine l) && s.logsFit (s.batchDies ls.eraseDups)

/-- A device read of `n` bytes at `a` may be made. -/
def State.devRoom (s : State) (f a n : Nat) : Bool := s.readsFit f [(a, n)]

/-- Write the low `n` bytes of `v` at `a` on function `f`'s behalf, `n` a size that lies in one page; a write to a line that it cannot reach
waits, and those of the function after it behind it (18 R415). To a page of the doorbell aperture it does nothing.
(Log 131, DESIGN CHOICE.) -/
def State.devWrite (s : State) (f a n v : Nat) : Option State :=
  if !s.devOk f .write a n then none
  else match s.devByte f .write a with
    | .ok t =>
      if s.reachable t && !(s.posted.any fun w => w.func == f) then some ((s.reach t).poke 0 0 false t n v)
      else some { s with posted := s.posted ++ [{ func := f, addr := a, size := n, val := v }] }
    | .error _ => none

/-- What follows the device writes of a function: at once, or after those that wait (03 R76; 17 R392; 18 R409). -/
def State.afterPosted (s : State) (f : Nat) (kind : PostedKind) (n : Nat) (act : State → State) : State :=
  if s.posted.any fun w => w.func == f then { s with posted := s.posted ++ [{ func := f, kind := kind, addr := n }] }
  else act s

/-- A vector that follows a device write of its function (03 R76; 17 R392). -/
def State.raiseAfter (s : State) (f v : Nat) : State := s.afterPosted f .vector v fun s => s.raise f v

end Sys2Proof.Machine
end

