-- ==== Sys2Proof/WellFormed.lean ====
section
/-! DEFINITION. Well-formedness of instructions: the checks of rows 6 and 7 of R165 that the encoding alone decides.

`Instr.form` gives every encoded instruction of the main set its operand kinds (R164), the role of IMM14 (R159), the
use of HINT (R161), its feature bits (R47) and its pairing class (R154), row by row from the opcode maps R166 to R168
and the instruction entries. -/
namespace Sys2Proof

/-- The kind of operand that a register field holds (R164), with the number of vector registers it names. -/
inductive Kind where
  /-- The field is not used and must be zero. -/
  | zero
  /-- One vector register. -/
  | v
  /-- An even-odd pair. -/
  | pair
  /-- Four registers from a multiple of 4. -/
  | quad
  /-- `n` registers from a multiple of `n` (fragments R332, MXRD R335, WALK.START R356, CAS.B128 R258). -/
  | frag (n : Nat)
  | x | w | k | acc
  /-- A barrier number, 0 to 15 (R366). -/
  | bar
  /-- A number of the range the entry gives. -/
  | num (lo hi : Nat)
  /-- A system register that SREAD may name (R144). -/
  | sysRead
  /-- A system register that SWRITE may name (R144). -/
  | sysWrite
  deriving DecidableEq, Repr

/-- The role of IMM14 (R159), with the sub-field rules of the SUB entries. -/
inductive Role where
  /-- No IMM14: S32 and M64 forms. -/
  | none
  /-- Reserved, must be zero. -/
  | zero
  /-- Indirect and saturation descriptor (R160). -/
  | ind
  /-- The same in an X96 literal form, where IOP must not name B (R168). -/
  | indx
  /-- An immediate of all 14 bits. -/
  | imm
  /-- A shift count: bits 13:5 zero (R193). -/
  | imm5
  /-- A displacement or count of all 14 bits (R204). -/
  | br
  /-- REDSTEP and SCANSTEP (R200). -/
  | step
  /-- CVT (R325). -/
  | cvt
  /-- MXM (R333). -/
  | mxm
  /-- MXM.W (R337). -/
  | mxw
  /-- MXRD and MXST (R335). -/
  | mxr
  /-- MXSKIP (R338). -/
  | mxskip
  /-- NMV (R339). -/
  | nmv
  /-- WALK.START (R356). -/
  | wks
  /-- EMIT with a literal node (R372). -/
  | emitn
  /-- EMIT with the node in a register (R372). -/
  | emitr
  /-- EMIT.REMOTE (R372). -/
  | emitx
  /-- CPY and CPY2D (R251). -/
  | tag
  /-- UPD forms (R262). -/
  | upd
  /-- PHINT (R399). -/
  | phint
  deriving DecidableEq, Repr

/-- What HINT may hold (R161). -/
inductive HintUse where
  | zero | branch | round
  deriving DecidableEq, Repr

/-- Pairing classes (R154). -/
inductive PairClass where
  | I | F | M | X | C
  deriving DecidableEq, Repr

/-- A register field with the kind that the entry gives it. -/
structure Opnd where
  kind : Kind
  field : BitVec 9
  deriving DecidableEq, Repr

/-- What an instruction entry says of an encoding: operands, IMM14, HINT, feature bits and pairing class. -/
structure Form where
  d : Opnd
  a : Opnd
  b : Opnd
  c : Opnd
  role : Role
  imm : BitVec 14
  sat : Bool
  hint : HintUse
  hintv : BitVec 2
  feats : List Nat
  cls : PairClass
  deriving DecidableEq, Repr

/-- A field that the format does not have. -/
def Opnd.absent : Opnd := ⟨.zero, 0⟩

/-- Bits `hi` down to `lo` of IMM14, as a number. -/
def immBits (imm : BitVec 14) (hi lo : Nat) : Nat := natBits imm.toNat hi lo

/-- The form of an S32 instruction. -/
def Form.s32 (kd ka : Kind) (feat : Nat) (cls : PairClass) (o : S32) : Form :=
  ⟨⟨kd, o.d⟩, ⟨ka, o.a⟩, .absent, .absent, .none, 0, false, .zero, 0, [feat], cls⟩

/-- The form of an L64 instruction, and of the low 64 bits of an X96 instruction. -/
def Form.l64 (kd ka kb kc : Kind) (role : Role) (sat : Bool) (hint : HintUse) (feat : Nat) (cls : PairClass)
    (o : L64) : Form :=
  ⟨⟨kd, o.d⟩, ⟨ka, o.a⟩, ⟨kb, o.b⟩, ⟨kc, o.c⟩, role, o.imm, sat, hint, o.hint, [feat], cls⟩

/-- The form of an M64 instruction: a base pair and a data operand (R162). -/
def Form.m64 (kd : Kind) (o : M64) : Form :=
  ⟨⟨kd, o.d⟩, ⟨.pair, o.base⟩, .absent, .absent, .none, 0, false, .zero, 0, [0], .M⟩

/-- The form of an instruction whose every field must be zero. -/
def Form.bare (feat : Nat) (cls : PairClass) : Form :=
  ⟨.absent, .absent, .absent, .absent, .none, 0, false, .zero, 0, [feat], cls⟩

/-- The form of a row that is not an encoded instruction of the main set. -/
def Form.none : Form := ⟨.absent, .absent, .absent, .absent, .none, 0, false, .zero, 0, [], .C⟩

/-- A packed form also needs PK16 (R166, R323). -/
def Form.fmt (f : Form) (x : FFmt) : Form := if x = .f16x2 then { f with feats := f.feats ++ [10] } else f

/-- Further feature bits. -/
def Form.feat (f : Form) (l : List Nat) : Form := { f with feats := f.feats ++ l }

/-- Size in bytes of system register `n`, or none when R143, R309 and R382 assign no such number. -/
def sysSize (n : Nat) : Option Nat :=
  if n ∈ [0x000, 0x001, 0x002, 0x003, 0x004, 0x005, 0x006, 0x007, 0x008, 0x009, 0x00A,
          0x012, 0x013, 0x01C, 0x01D, 0x104, 0x105] then some 4
  else if n ∈ [0x010, 0x018, 0x01E, 0x020, 0x100, 0x102, 0x106, 0x108, 0x10A] then some 8
  else if 0x140 ≤ n ∧ n ≤ 0x153 then some 4
  else none

/-- System registers that SWRITE may write: FAIR, TPC and TSTATUS (R143, R382). -/
def sysWritable (n : Nat) : Bool := n = 0x01D || n = 0x100 || n = 0x104

/-- System registers of supervisor level: 0x100 to 0x13F (R143). -/
def sysSupervisor (n : Nat) : Bool := 0x100 ≤ n && n ≤ 0x13F

/-- Kind of the vector operand of SREAD and SWRITE (R182). -/
def sysKind (n : BitVec 9) : Kind := if sysSize n.toNat = some 8 then .pair else .v

/-- Kind of a CVT operand: a pair for S64 and N64 (R325). -/
def cvtKind (code : Nat) : Kind := if code = 0xD ∨ code = 0xE then .pair else .v

/-- Registers of a fragment of MXM.W's SHAPE (R332). -/
def shapeRegs (shape : Nat) : Nat := if shape = 1 then 8 else 4

/-- Registers that MXRD writes (R335). -/
def dfmtRegs (dfmt : Nat) : Nat := if dfmt = 0 then 16 else if dfmt ≤ 2 then 8 else 4

/-- Kind of the data operand of an access of size code `wid` (R162, R240). -/
def widKind (wid : BitVec 3) : Kind :=
  if wid.toNat ≤ 2 then .v else if wid.toNat = 3 then .pair else .quad

/-- Kind of the data operand of an atomic (R257), twice as many registers for CAS (R258). -/
def atomData (cas : Bool) (wid : BitVec 3) : Kind :=
  if cas then (if wid.toNat ≤ 2 then .pair else if wid.toNat = 3 then .quad else .frag 8)
  else widKind wid

/-- The form of every instruction of the main set, from R166 to R168 and the instruction entries. -/
def Instr.form : Instr → Form
  | .ret o => .s32 .zero .pair 0 .C o
  | .trap o => .s32 (.num 64 127) .zero 0 .C o
  | .bar o => .s32 .bar .zero 0 .C o
  | .barArv o => .s32 .bar .zero 0 .C o
  | .barWait o => .s32 .bar .zero 0 .C o
  | .drain o => .s32 .bar .zero 0 .C o
  | .waitw o => .s32 .v .zero 0 .C o
  | .twaitAny o => .s32 .zero .pair 0 .C o
  | .twaitAll o => .s32 .zero .pair 0 .C o
  | .tfind o => .s32 .v .pair 0 .C o
  | .waitb o => .s32 .v .pair 5 .C o
  | .pred o => .s32 .zero .k 0 .C o
  | .predNot o => .s32 .zero .k 0 .C o
  | .sread o => .s32 (sysKind o.a) .sysRead 0 .I o
  | .swrite o => .s32 .sysWrite (sysKind o.d) 0 .I o
  | .wget o => .s32 .v .w 0 .I o
  | .wset o => .s32 .w .v 0 .I o
  | .xset o => .s32 .x .v 0 .I o
  | .xget o => .s32 .v .x 0 .I o
  | .mov o => .s32 .v .v 0 .I o
  | .movB64 o => .s32 .pair .pair 0 .I o
  | .notV o => .s32 .v .v 0 .I o
  | .negS32 o => .s32 .v .v 0 .I o
  | .absS32 o => .s32 .v .v 0 .I o
  | .popc o => .s32 .v .v 0 .I o
  | .clz o => .s32 .v .v 0 .I o
  | .ctz o => .s32 .v .v 0 .I o
  | .brev o => .s32 .v .v 0 .I o
  | .enrol o => .s32 .k .zero 0 .C o
  | .join o => .s32 .k .zero 0 .C o
  | .leave o => .s32 .k .zero 0 .C o
  | .waitk o => .s32 .k .zero 0 .C o
  | .strike o => .s32 .k .zero 0 .C o
  | .kmov o => .s32 .k .k 0 .C o
  | .knot o => .s32 .k .k 0 .C o
  | .kand o => .s32 .k .k 0 .C o
  | .kor o => .s32 .k .k 0 .C o
  | .kxor o => .s32 .k .k 0 .C o
  | .kandn o => .s32 .k .k 0 .C o
  | .kact o => .s32 .k .zero 0 .C o
  | .kpop o => .s32 .v .k 0 .C o
  | .kget o => .s32 .v .k 0 .C o
  | .kset o => .s32 .k .v 0 .C o
  | .fabs f o => (Form.s32 .v .v 0 .F o).fmt f
  | .fneg f o => (Form.s32 .v .v 0 .F o).fmt f
  | .fclass f o => (Form.s32 .v .v 0 .F o).fmt f
  | .frcp f o => (Form.s32 .v .v 9 .F o).fmt f
  | .fsqrt f o => (Form.s32 .v .v 9 .F o).fmt f
  | .frsq f o => (Form.s32 .v .v 9 .F o).fmt f
  | .fexp2 f o => (Form.s32 .v .v 9 .F o).fmt f
  | .flog2 f o => (Form.s32 .v .v 9 .F o).fmt f
  | .fsin f o => (Form.s32 .v .v 9 .F o).fmt f
  | .fcos f o => (Form.s32 .v .v 9 .F o).fmt f
  | .ftanh f o => (Form.s32 .v .v 9 .F o).fmt f
  | .addS32 o => .l64 .v .v .v .zero .ind true .zero 0 .I o
  | .addN32 o => .l64 .v .v .v .zero .ind true .zero 0 .I o
  | .subS32 o => .l64 .v .v .v .zero .ind true .zero 0 .I o
  | .subN32 o => .l64 .v .v .v .zero .ind true .zero 0 .I o
  | .mul o => .l64 .v .v .v .zero .ind false .zero 0 .I o
  | .mulhiS32 o => .l64 .v .v .v .zero .ind false .zero 0 .I o
  | .mulhiN32 o => .l64 .v .v .v .zero .ind false .zero 0 .I o
  | .mad o => .l64 .v .v .v .v .ind false .zero 0 .I o
  | .divS32 o => .l64 .v .v .v .zero .ind false .zero 0 .I o
  | .divN32 o => .l64 .v .v .v .zero .ind false .zero 0 .I o
  | .remS32 o => .l64 .v .v .v .zero .ind false .zero 0 .I o
  | .remN32 o => .l64 .v .v .v .zero .ind false .zero 0 .I o
  | .minS32 o => .l64 .v .v .v .zero .ind false .zero 0 .I o
  | .minN32 o => .l64 .v .v .v .zero .ind false .zero 0 .I o
  | .maxS32 o => .l64 .v .v .v .zero .ind false .zero 0 .I o
  | .maxN32 o => .l64 .v .v .v .zero .ind false .zero 0 .I o
  | .andV o => .l64 .v .v .v .zero .ind false .zero 0 .I o
  | .orV o => .l64 .v .v .v .zero .ind false .zero 0 .I o
  | .xorV o => .l64 .v .v .v .zero .ind false .zero 0 .I o
  | .andn o => .l64 .v .v .v .zero .ind false .zero 0 .I o
  | .shl o => .l64 .v .v .v .zero .ind false .zero 0 .I o
  | .shr o => .l64 .v .v .v .zero .ind false .zero 0 .I o
  | .sar o => .l64 .v .v .v .zero .ind false .zero 0 .I o
  | .rot o => .l64 .v .v .v .zero .ind false .zero 0 .I o
  | .bfxS32 o => .l64 .v .v .v .zero .ind false .zero 0 .I o
  | .bfxN32 o => .l64 .v .v .v .zero .ind false .zero 0 .I o
  | .bfi o => .l64 .v .v .v .v .ind false .zero 0 .I o
  | .sel o => .l64 .v .v .v .k .ind false .zero 0 .I o
  | .cmpS32 o => .l64 .k .v .v (.num 0 5) .ind false .zero 0 .I o
  | .cmpN32 o => .l64 .k .v .v (.num 0 5) .ind false .zero 0 .I o
  | .cmpS64 o => .l64 .k .pair .pair (.num 0 5) .ind false .zero 0 .I o
  | .cmpN64 o => .l64 .k .pair .pair (.num 0 5) .ind false .zero 0 .I o
  | .addS64 o => .l64 .pair .pair .pair .zero .ind true .zero 0 .I o
  | .addN64 o => .l64 .pair .pair .pair .zero .ind true .zero 0 .I o
  | .subS64 o => .l64 .pair .pair .pair .zero .ind true .zero 0 .I o
  | .subN64 o => .l64 .pair .pair .pair .zero .ind true .zero 0 .I o
  | .mulB64 o => .l64 .pair .pair .pair .zero .ind false .zero 0 .I o
  | .adda o => .l64 .pair .pair .v .zero .ind false .zero 0 .I o
  | .shla o => .l64 .pair .pair .v (.num 0 7) .ind false .zero 0 .I o
  | .divS64 o => .l64 .pair .pair .pair .zero .ind false .zero 0 .I o
  | .divN64 o => .l64 .pair .pair .pair .zero .ind false .zero 0 .I o
  | .remS64 o => .l64 .pair .pair .pair .zero .ind false .zero 0 .I o
  | .remN64 o => .l64 .pair .pair .pair .zero .ind false .zero 0 .I o
  | .minS64 o => .l64 .pair .pair .pair .zero .ind false .zero 0 .I o
  | .minN64 o => .l64 .pair .pair .pair .zero .ind false .zero 0 .I o
  | .maxS64 o => .l64 .pair .pair .pair .zero .ind false .zero 0 .I o
  | .maxN64 o => .l64 .pair .pair .pair .zero .ind false .zero 0 .I o
  | .addS32X96 o => .l64 .v .v .zero .zero .indx true .zero 0 .I o.lo
  | .addN32X96 o => .l64 .v .v .zero .zero .indx true .zero 0 .I o.lo
  | .subS32X96 o => .l64 .v .v .zero .zero .indx true .zero 0 .I o.lo
  | .subN32X96 o => .l64 .v .v .zero .zero .indx true .zero 0 .I o.lo
  | .mulX96 o => .l64 .v .v .zero .zero .indx false .zero 0 .I o.lo
  | .mulhiS32X96 o => .l64 .v .v .zero .zero .indx false .zero 0 .I o.lo
  | .mulhiN32X96 o => .l64 .v .v .zero .zero .indx false .zero 0 .I o.lo
  | .madX96 o => .l64 .v .v .zero .v .indx false .zero 0 .I o.lo
  | .divS32X96 o => .l64 .v .v .zero .zero .indx false .zero 0 .I o.lo
  | .divN32X96 o => .l64 .v .v .zero .zero .indx false .zero 0 .I o.lo
  | .remS32X96 o => .l64 .v .v .zero .zero .indx false .zero 0 .I o.lo
  | .remN32X96 o => .l64 .v .v .zero .zero .indx false .zero 0 .I o.lo
  | .minS32X96 o => .l64 .v .v .zero .zero .indx false .zero 0 .I o.lo
  | .minN32X96 o => .l64 .v .v .zero .zero .indx false .zero 0 .I o.lo
  | .maxS32X96 o => .l64 .v .v .zero .zero .indx false .zero 0 .I o.lo
  | .maxN32X96 o => .l64 .v .v .zero .zero .indx false .zero 0 .I o.lo
  | .andX96 o => .l64 .v .v .zero .zero .indx false .zero 0 .I o.lo
  | .orX96 o => .l64 .v .v .zero .zero .indx false .zero 0 .I o.lo
  | .xorX96 o => .l64 .v .v .zero .zero .indx false .zero 0 .I o.lo
  | .andnX96 o => .l64 .v .v .zero .zero .indx false .zero 0 .I o.lo
  | .shlX96 o => .l64 .v .v .zero .zero .indx false .zero 0 .I o.lo
  | .shrX96 o => .l64 .v .v .zero .zero .indx false .zero 0 .I o.lo
  | .sarX96 o => .l64 .v .v .zero .zero .indx false .zero 0 .I o.lo
  | .rotX96 o => .l64 .v .v .zero .zero .indx false .zero 0 .I o.lo
  | .bfxS32X96 o => .l64 .v .v .zero .zero .indx false .zero 0 .I o.lo
  | .bfxN32X96 o => .l64 .v .v .zero .zero .indx false .zero 0 .I o.lo
  | .bfiX96 o => .l64 .v .v .zero .v .indx false .zero 0 .I o.lo
  | .selX96 o => .l64 .v .v .zero .k .indx false .zero 0 .I o.lo
  | .cmpS32X96 o => .l64 .k .v .zero (.num 0 5) .indx false .zero 0 .I o.lo
  | .cmpN32X96 o => .l64 .k .v .zero (.num 0 5) .indx false .zero 0 .I o.lo
  | .cmpS64X96 o => .l64 .k .pair .zero (.num 0 5) .indx false .zero 0 .I o.lo
  | .cmpN64X96 o => .l64 .k .pair .zero (.num 0 5) .indx false .zero 0 .I o.lo
  | .addS64X96 o => .l64 .pair .pair .zero .zero .indx true .zero 0 .I o.lo
  | .addN64X96 o => .l64 .pair .pair .zero .zero .indx true .zero 0 .I o.lo
  | .subS64X96 o => .l64 .pair .pair .zero .zero .indx true .zero 0 .I o.lo
  | .subN64X96 o => .l64 .pair .pair .zero .zero .indx true .zero 0 .I o.lo
  | .mulB64X96 o => .l64 .pair .pair .zero .zero .indx false .zero 0 .I o.lo
  | .addaX96 o => .l64 .pair .pair .zero .zero .indx false .zero 0 .I o.lo
  | .shlaX96 o => .l64 .pair .pair .zero (.num 0 7) .indx false .zero 0 .I o.lo
  | .divS64X96 o => .l64 .pair .pair .zero .zero .indx false .zero 0 .I o.lo
  | .divN64X96 o => .l64 .pair .pair .zero .zero .indx false .zero 0 .I o.lo
  | .remS64X96 o => .l64 .pair .pair .zero .zero .indx false .zero 0 .I o.lo
  | .remN64X96 o => .l64 .pair .pair .zero .zero .indx false .zero 0 .I o.lo
  | .minS64X96 o => .l64 .pair .pair .zero .zero .indx false .zero 0 .I o.lo
  | .minN64X96 o => .l64 .pair .pair .zero .zero .indx false .zero 0 .I o.lo
  | .maxS64X96 o => .l64 .pair .pair .zero .zero .indx false .zero 0 .I o.lo
  | .maxN64X96 o => .l64 .pair .pair .zero .zero .indx false .zero 0 .I o.lo
  | .addi o => .l64 .v .v .zero .zero .imm false .zero 0 .I o
  | .andi o => .l64 .v .v .zero .zero .imm false .zero 0 .I o
  | .ori o => .l64 .v .v .zero .zero .imm false .zero 0 .I o
  | .xori o => .l64 .v .v .zero .zero .imm false .zero 0 .I o
  | .shli o => .l64 .v .v .zero .zero .imm5 false .zero 0 .I o
  | .shri o => .l64 .v .v .zero .zero .imm5 false .zero 0 .I o
  | .sari o => .l64 .v .v .zero .zero .imm5 false .zero 0 .I o
  | .cmpiS32 o => .l64 .k .v .zero (.num 0 5) .imm false .zero 0 .I o
  | .addai o => .l64 .pair .pair .zero .zero .imm false .zero 0 .I o
  | .cmpiN32 o => .l64 .k .v .zero (.num 0 5) .imm false .zero 0 .I o
  | .movi o => .l64 .v .zero .zero .zero .imm false .zero 0 .I o
  | .lit o => .l64 .v .zero .zero .zero .zero false .zero 0 .I o.lo
  | .litB64 o => .l64 .pair .zero .zero .zero .zero false .zero 0 .I o.lo
  | .shflIdx o => .l64 .v .v .v (.num 0 7) .ind false .zero 0 .I o
  | .shflUp o => .l64 .v .v .v (.num 0 7) .ind false .zero 0 .I o
  | .shflDown o => .l64 .v .v .v (.num 0 7) .ind false .zero 0 .I o
  | .shflXor o => .l64 .v .v .v (.num 0 7) .ind false .zero 0 .I o
  | .bcast o => .l64 .v .v .v .zero .ind false .zero 0 .I o
  | .voteAny o => .l64 .v .v .zero .zero .ind false .zero 0 .I o
  | .voteAll o => .l64 .v .v .zero .zero .ind false .zero 0 .I o
  | .voteBal o => .l64 .k .v .zero .zero .ind false .zero 0 .I o
  | .matchLanes o => .l64 .v .v .zero .zero .ind false .zero 0 .I o
  | .redstep o => .l64 .v .v .zero .zero .step false .zero 0 .I o
  | .scanstep o => .l64 .v .v .zero .zero .step false .zero 0 .I o
  | .fadd f o => (Form.l64 .v .v .v .zero .ind true .round 0 .F o).fmt f
  | .fsub f o => (Form.l64 .v .v .v .zero .ind true .round 0 .F o).fmt f
  | .fmul f o => (Form.l64 .v .v .v .zero .ind true .round 0 .F o).fmt f
  | .ffma f o => (Form.l64 .v .v .v .v .ind true .round 0 .F o).fmt f
  | .fmin f o => (Form.l64 .v .v .v .zero .ind false .zero 0 .F o).fmt f
  | .fmax f o => (Form.l64 .v .v .v .zero .ind false .zero 0 .F o).fmt f
  | .fcmp f o => (Form.l64 .k .v .v (.num 0 7) .ind false .zero 0 .F o).fmt f
  | .faddX96 f o => (Form.l64 .v .v .zero .zero .indx true .round 0 .F o.lo).fmt f
  | .fsubX96 f o => (Form.l64 .v .v .zero .zero .indx true .round 0 .F o.lo).fmt f
  | .fmulX96 f o => (Form.l64 .v .v .zero .zero .indx true .round 0 .F o.lo).fmt f
  | .ffmaX96 f o => (Form.l64 .v .v .zero .v .indx true .round 0 .F o.lo).fmt f
  | .fminX96 f o => (Form.l64 .v .v .zero .zero .indx false .zero 0 .F o.lo).fmt f
  | .fmaxX96 f o => (Form.l64 .v .v .zero .zero .indx false .zero 0 .F o.lo).fmt f
  | .fcmpX96 f o => (Form.l64 .k .v .zero (.num 0 7) .indx false .zero 0 .F o.lo).fmt f
  | .cvt o => .l64 (cvtKind (immBits o.imm 7 4)) (cvtKind (immBits o.imm 3 0)) .zero (.num 0 511) .cvt false .round 0 .F o
  | .bra o => .l64 .zero .zero .zero .zero .br false .branch 0 .C o
  | .brnz o => .l64 .zero .v .zero .zero .br false .branch 0 .C o
  | .brz o => .l64 .zero .v .zero .zero .br false .branch 0 .C o
  | .brk o => .l64 .zero .k .zero .zero .br false .branch 0 .C o
  | .call o => .l64 .pair .zero .zero .zero .br false .branch 0 .C o
  | .braLong o => .l64 .zero .zero .zero .zero .zero false .branch 0 .C o.lo
  | .brnzLong o => .l64 .zero .v .zero .zero .zero false .branch 0 .C o.lo
  | .brzLong o => .l64 .zero .v .zero .zero .zero false .branch 0 .C o.lo
  | .brkLong o => .l64 .zero .k .zero .zero .zero false .branch 0 .C o.lo
  | .callLong o => .l64 .pair .zero .zero .zero .zero false .branch 0 .C o.lo
  | .jmp o => .l64 .zero .pair .zero .zero .br false .branch 0 .C o
  | .callr o => .l64 .pair .pair .zero .zero .br false .branch 0 .C o
  | .jtab o => .l64 .zero .v .pair .zero .br false .branch 0 .C o
  | .live o => .l64 .zero .zero .zero .zero .zero false .zero 0 .C o.lo
  | .phint o => .l64 (.num 0 511) (.num 0 511) (.num 0 511) (.num 0 511) .phint false .zero 0 .C o.lo
  | .waitc o => .l64 .zero .zero .zero .zero .zero false .zero 0 .C o.lo
  | .ld o => .m64 (widKind o.wid) o
  | .st o => .m64 (widKind o.wid) o
  | .tld o => .m64 (widKind o.wid) o
  | .watch o => .m64 (widKind o.wid) o
  | .atomAdd o => .m64 (atomData false o.wid) o
  | .atomFadd o => .m64 (atomData false o.wid) o
  | .atomMin o => .m64 (atomData false o.wid) o
  | .atomMax o => .m64 (atomData false o.wid) o
  | .atomAnd o => .m64 (atomData false o.wid) o
  | .atomOr o => .m64 (atomData false o.wid) o
  | .atomXor o => .m64 (atomData false o.wid) o
  | .atomXchg o => .m64 (atomData false o.wid) o
  | .atomCas o => .m64 (atomData true o.wid) o
  | .cpy o => .l64 .pair .pair .v .zero .tag false .zero 0 .M o
  | .cpy2d o => .l64 .pair .pair .v .v .tag false .zero 0 .M o.lo
  | .updAdd o => .l64 .zero .pair (if 3 ≤ immBits o.imm 2 0 then .pair else .v) .zero .upd false .zero 6 .M o
  | .updMin o => .l64 .zero .pair (if 3 ≤ immBits o.imm 2 0 then .pair else .v) .zero .upd false .zero 6 .M o
  | .updMax o => .l64 .zero .pair (if 3 ≤ immBits o.imm 2 0 then .pair else .v) .zero .upd false .zero 6 .M o
  | .updclr o => .l64 .zero .pair .zero .zero .zero false .zero 6 .M o
  | .zscan o => .l64 .v .quad .zero .zero .zero false .zero 12 .M o
  | .mxmF8 o => .l64 .acc (.frag 4) (.frag 4) .v .mxm false .zero 1 .X o
  | .mxmS2p8 o => .l64 .acc (.frag 8) (.frag 8) .v .mxm false .zero 2 .X o
  | .mxmH16 o => .l64 .acc (.frag 4) (.frag 4) .v .mxm false .zero 3 .X o
  | .mxmW o => .l64 .acc (.frag (shapeRegs (immBits o.imm 1 0))) .zero .v .mxw false .zero 4 .X o
  | .mxzero o => .l64 .acc .zero .zero .zero .zero false .zero 0 .X o
  | .mxrd o => .l64 (.frag (dfmtRegs (immBits o.imm 2 0))) .acc .zero .zero .mxr false .round 0 .X o
  | .mxst o => .l64 .acc .pair .v .zero .mxr false .round 0 .X o
  | .mxskip o => (Form.l64 .k .quad .v .quad .mxskip false .zero 11 .X o).feat (if immBits o.imm 11 11 = 1 then [12] else [])
  | .nmv o => .l64 .pair .pair .quad .pair .nmv false .round 5 .X o
  | .walkStart o => .l64 .zero .pair .quad (.frag 8) .wks false .zero 4 .X o
  | .walkQuery o => .l64 .v .zero .zero .zero .zero false .zero 4 .X o
  | .emit o => .l64 .zero .v .zero .zero .emitn false .zero 0 .C o
  | .emitReg o => .l64 .zero .v .v .zero .emitr false .zero 0 .C o
  | .emitSelf o => .l64 .zero .v .zero .zero .zero false .zero 0 .C o
  | .emitRemote o => .l64 .zero .v .v .zero .emitx false .zero 8 .C o
  | .nop => .bare 0 .C
  | .exit => .bare 0 .C
  | .tret => .bare 0 .C
  | .fenceAcq => .bare 0 .C
  | .fenceRel => .bare 0 .C
  | .fenceSc => .bare 0 .C
  | .fenceTbl => .bare 0 .C
  | .updflush => .bare 6 .C
  | .cancelRun => .bare 0 .C
  | .cancelPhase => .bare 0 .C
  | .cancelJob => .bare 0 .C
  | .walkStop => .bare 4 .X
  | .bootStageComplete _ => .none
  | .barrierArrival _ _ => .none
  | .homeAccess _ => .none
  | .acknowledgement _ => .none
  | .loadResult _ => .none
  | .pairAccept _ => .none
  | .scFloorReached _ => .none
  | .coldReset => .none
  | .warmReset => .none
  | .vfReset _ => .none
  | .thermalStep _ => .none
  | .thermalTrip _ => .none
  | .watchdogRestart => .none
  | .qcreate _ => .none
  | .qdestroy _ => .none
  | .policyload _ => .none
  | .fwstage => .none
  | .fwactivate _ => .none
  | .fwfuse => .none
  | .attest _ => .none
  | .tailWrite _ _ _ => .none
  | .doorbellBadWrite _ _ => .none
  | .queueReexamine _ => .none
  | .headMirrorWrite _ => .none
  | .slice _ => .none
  | .run _ => .none
  | .cancelPacketRun _ => .none
  | .cancelPacketPhase _ => .none
  | .cancelPacketJob _ => .none
  | .setctr _ => .none
  | .nopPacket _ => .none
  | .runAdmit _ => .none
  | .entryRecordAppend _ => .none
  | .partownWrite _ _ _ => .none
  | .quotaWrite _ _ _ => .none
  | .lofthbmWrite _ _ _ => .none
  | .ptrootWrite _ _ _ => .none
  | .invalidate _ _ => .none
  | .invalidationComplete => .none
  | .regionWrite _ _ _ _ => .none
  | .regionClearDone _ _ => .none
  | .preemptSaveFunction _ => .none
  | .preemptSaveJob _ _ => .none
  | .preemptResumeFunction _ => .none
  | .preemptResumeJob _ _ => .none
  | .cut _ => .none
  | .cutResume _ => .none
  | .readback => .none
  | .assistReply _ => .none
  | .assistTimeout _ => .none
  | .registerWrite _ _ _ _ _ => .none
  | .recordAppend _ => .none
  | .muster _ _ => .none
  | .musterTimeout _ _ => .none
  | .blockStart _ => .none
  | .stealable _ => .none
  | .steal _ _ => .none
  | .teamPark _ => .none
  | .teamResume _ => .none
  | .probeQuiet _ _ => .none
  | .blockRetire _ => .none
  | .trapEntry _ _ => .none
  | .logfullTimeout _ _ => .none
  | .lineFill _ _ _ => .none
  | .registerFill _ => .none
  | .fullSave _ => .none
  | .savedBlockResume _ _ => .none
  | .copyStart _ _ => .none
  | .copyComplete _ _ => .none
  | .waitwTimeout _ _ => .none
  | .zscanComplete _ => .none
  | .nmvComplete _ => .none
  | .mxstComplete _ => .none
  | .floorBroadcast => .none
  | .reserve _ => .none
  | .grant _ => .none
  | .refuse _ _ => .none
  | .hold _ => .none
  | .record _ => .none
  | .arrived _ _ => .none
  | .holdTimer => .none
  | .remoteTimeout _ => .none
  | .linkReset _ _ _ _ => .none
  | .uncorrectedEcc _ _ _ _ => .none
  | .yardMessageDropped _ => .none
  | .walkEnd => .none
  | .walkMovi _ => .none
  | .walkAdd _ => .none
  | .walkSub _ => .none
  | .walkAddi _ => .none
  | .walkMul _ => .none
  | .walkDivu _ => .none
  | .walkRemu _ => .none
  | .walkAnd _ => .none
  | .walkXor _ => .none
  | .walkShli _ => .none
  | .walkShri _ => .none
  | .walkHash _ => .none
  | .walkLdi _ => .none
  | .walkLoop _ => .none
  | .walkLidx _ => .none
  | .walkBrz _ => .none
  | .walkBrnz _ => .none
  | .walkRow _ => .none
  | .walkRowm _ => .none
  | .walkCset _ => .none
  | .walkCld _ => .none
  | .walkRowl _ => .none
  | .walkMsk _ => .none
  | .walkFlush => .none
  | .npbMovi _ => .none
  | .npbMovhi _ => .none
  | .npbMov _ => .none
  | .npbAdd _ => .none
  | .npbSub _ => .none
  | .npbAddi _ => .none
  | .npbAnd _ => .none
  | .npbOr _ => .none
  | .npbXor _ => .none
  | .npbShl _ => .none
  | .npbShr _ => .none
  | .npbMul _ => .none
  | .npbDivu _ => .none
  | .npbMinu _ => .none
  | .npbMaxu _ => .none
  | .npbSltu _ => .none
  | .npbLds _ => .none
  | .npbSts _ => .none
  | .npbLdv _ => .none
  | .npbBeq _ => .none
  | .npbBne _ => .none
  | .npbBltu _ => .none
  | .npbLoop _ => .none
  | .npbRet => .none

/-- The field values that a kind allows (R164). -/
def Opnd.ok (o : Opnd) : Bool :=
  let n := o.field.toNat
  match o.kind with
  | .zero => n = 0
  | .v => true
  | .pair => n % 2 = 0
  | .quad => n % 4 = 0
  | .frag m => n % m = 0
  | .x => n ≤ 3
  | .w => n ≤ 63
  | .k => n ≤ 11
  | .acc => n ≤ 3
  | .bar => n ≤ 15
  | .num lo hi => lo ≤ n && n ≤ hi
  | .sysRead => (sysSize n).isSome
  | .sysWrite => (sysSize n).isSome && sysWritable n

/-- Vector registers that an operand of this kind names. -/
def Kind.count : Kind → Nat
  | .v => 1 | .pair => 2 | .quad => 4 | .frag n => n | _ => 0

/-- The operand that IOP names (R160). -/
def Form.opnd (f : Form) (iop : Nat) : Opnd :=
  if iop = 0 then f.d else if iop = 1 then f.a else if iop = 2 then f.b else f.c

/-- Sub-fields of an IND descriptor (R160). -/
def indIE (imm : BitVec 14) : Bool := imm.getLsbD 13
/-- IOP of R160. -/
def indIOP (imm : BitVec 14) : Nat := immBits imm 12 11
/-- IX of R160. -/
def indIX (imm : BitVec 14) : Nat := immBits imm 10 9
/-- SAT of R160. -/
def indSAT (imm : BitVec 14) : Bool := imm.getLsbD 8
/-- IOFF of R160, signed. -/
def indIOFF (imm : BitVec 14) : Int := (imm.extractLsb' 0 8).toInt

/-- The rules of R160 on an IND descriptor: SAT only where the entry gives a .SAT form; with IE = 1 the named field is
zero and holds a vector register or pair; with IE = 0 the descriptor is zero but for SAT. -/
def Form.indOk (f : Form) : Bool :=
  (!indSAT f.imm || f.sat) &&
  (if indIE f.imm then
     let o := f.opnd (indIOP f.imm)
     (o.kind == .v || o.kind == .pair) && o.field == 0
   else immBits f.imm 12 9 == 0 && immBits f.imm 7 0 == 0)

/-- The rules on IMM14 by role (R159 and the SUB entries). -/
def Form.immOk (f : Form) : Bool :=
  let b := immBits f.imm
  match f.role with
  | .none => true
  | .zero => f.imm == 0
  | .ind => f.indOk
  | .indx => f.indOk && !(indIE f.imm && indIOP f.imm == 2)
  | .imm => true
  | .imm5 => b 13 5 == 0
  | .br => true
  | .step => b 13 7 == 0 && b 6 3 ≤ 7
  | .cvt => b 13 9 == 0 && b 7 4 ≠ 15 && b 3 0 ≠ 15
  | .mxm => b 13 1 == 0
  | .mxw => b 13 3 == 0 && b 1 0 ≠ 3
  | .mxr => b 2 0 ≤ 4
  | .mxskip => b 13 12 == 0
  | .nmv => b 13 6 == 0 && b 4 3 ≠ 3 && b 2 0 ≤ 4
  | .wks => b 13 3 == 0 && b 1 0 ≠ 3
  | .emitn => b 13 12 == 0
  | .emitr => b 13 13 == 1 && b 12 0 == 0
  | .emitx => b 13 4 == 0
  | .tag => b 7 0 == 0
  | .upd => b 13 3 == 0 && b 2 0 ≤ 4
  | .phint => b 13 1 == 0

/-- The rules that the fields of a form obey: kinds, IMM14 and HINT. -/
def Form.ok (f : Form) : Bool :=
  f.d.ok && f.a.ok && f.b.ok && f.c.ok && f.immOk && (f.hint != .zero || f.hintv == 0)

/-- WID, SX and ORD permitted to LD and TLD (R240). -/
def loadOk (ords : List Nat) (o : M64) : Bool :=
  o.wid.toNat ≤ 4 && (o.sx == 0 || o.wid.toNat ≤ 1) && ords.contains o.ord.toNat

/-- WID and ORD permitted to a form without sign extension (R240, R257, R273). -/
def plainOk (wids ords : List Nat) (o : M64) : Bool :=
  wids.contains o.wid.toNat && o.sx == 0 && ords.contains o.ord.toNat

/-- A walk-program instruction whose unused fields are zero, by the fields its form uses: D, A, B, C and the limits on
IMM14 (R350, R351). -/
def walkOk (d a b : Bool) (imm : BitVec 14 → Bool) (o : WalkOp) : Bool :=
  (d || o.d == 0) && (a || o.a == 0) && (b || o.b == 0) && imm o.imm

/-- IMM14 of a three-register walk form: C in bits 13:10, bits 9:0 zero (R350). -/
def walkC (imm : BitVec 14) : Bool := immBits imm 9 0 == 0

/-- A policy instruction whose unused fields are zero (R87). -/
def npbOk (d a b imm : Bool) (o : NpbOp) : Bool :=
  (d || o.d == 0) && (a || o.a == 0) && (b || o.b == 0) && (imm || o.imm == 0)

/-- COUNT of an NPB LOOP (R87). -/
def npbCount (imm : Word) : Nat := natBits imm.toNat 6 0
/-- LEN of an NPB LOOP (R87). -/
def npbLen (imm : Word) : Nat := natBits imm.toNat 24 16

/-- Well-formedness of an encoded instruction (rows 6 and 7 of R165; R351; check 2 of R88). (Log 36, DEDUCED.) -/
def Instr.wf : Instr → Bool
  | .ld o => (Instr.form (.ld o)).ok && loadOk [0, 1] o
  | .st o => (Instr.form (.st o)).ok && plainOk [0, 1, 2, 3, 4] [0, 2] o
  | .tld o => (Instr.form (.tld o)).ok && loadOk [0] o
  | .watch o => (Instr.form (.watch o)).ok && plainOk [2, 3] [0, 1] o
  | .atomAdd o => (Instr.form (.atomAdd o)).ok && plainOk [2, 3] [0, 1, 2, 3] o
  | .atomFadd o => (Instr.form (.atomFadd o)).ok && plainOk [2] [0, 1, 2, 3] o
  | .atomMin o => (Instr.form (.atomMin o)).ok && plainOk [2, 3] [0, 1, 2, 3] o
  | .atomMax o => (Instr.form (.atomMax o)).ok && plainOk [2, 3] [0, 1, 2, 3] o
  | .atomAnd o => (Instr.form (.atomAnd o)).ok && plainOk [2, 3] [0, 1, 2, 3] o
  | .atomOr o => (Instr.form (.atomOr o)).ok && plainOk [2, 3] [0, 1, 2, 3] o
  | .atomXor o => (Instr.form (.atomXor o)).ok && plainOk [2, 3] [0, 1, 2, 3] o
  | .atomXchg o => (Instr.form (.atomXchg o)).ok && plainOk [2, 3] [0, 1, 2, 3] o
  | .atomCas o => (Instr.form (.atomCas o)).ok && plainOk [2, 3, 4] [0, 1, 2, 3] o
  | .fcmp f o => f ≠ .f16x2 && (Instr.form (.fcmp f o)).ok
  | .fcmpX96 f o => f ≠ .f16x2 && (Instr.form (.fcmpX96 f o)).ok
  | .walkMovi o => walkOk true false false (fun _ => true) o
  | .walkAdd o => walkOk true true true (· == 0) o
  | .walkSub o => walkOk true true true (· == 0) o
  | .walkAddi o => walkOk true true false (fun _ => true) o
  | .walkMul o => walkOk true true true (· == 0) o
  | .walkDivu o => walkOk true true true (· == 0) o
  | .walkRemu o => walkOk true true true (· == 0) o
  | .walkAnd o => walkOk true true true (· == 0) o
  | .walkXor o => walkOk true true true (· == 0) o
  | .walkShli o => walkOk true true false (fun i => immBits i 13 6 == 0) o
  | .walkShri o => walkOk true true false (fun i => immBits i 13 6 == 0) o
  | .walkHash o => walkOk true true true (· == 0) o
  | .walkLdi o => walkOk true true false (fun _ => true) o
  | .walkLoop o => walkOk false true false (fun i => immBits i 13 10 == 0 && i != 0) o
  | .walkLidx o => walkOk true false false (fun i => immBits i 13 2 == 0) o
  | .walkBrz o => walkOk false true false (fun _ => true) o
  | .walkBrnz o => walkOk false true false (fun _ => true) o
  | .walkRow o => walkOk false true true (fun _ => true) o
  | .walkRowm o => walkOk false true true walkC o
  | .walkCset o => walkOk false true true (· == 0) o
  | .walkCld o => walkOk false true false (· == 0) o
  | .walkRowl o => walkOk false true true walkC o
  | .walkMsk o => walkOk true true true (· == 0) o
  | .npbMovi o => npbOk true false false true o
  | .npbMovhi o => npbOk true false false true o
  | .npbMov o => npbOk true true false false o
  | .npbAdd o => npbOk true true true false o
  | .npbSub o => npbOk true true true false o
  | .npbAddi o => npbOk true true false true o
  | .npbAnd o => npbOk true true true false o
  | .npbOr o => npbOk true true true false o
  | .npbXor o => npbOk true true true false o
  | .npbShl o => npbOk true true true false o
  | .npbShr o => npbOk true true true false o
  | .npbMul o => npbOk true true true false o
  | .npbDivu o => npbOk true true true false o
  | .npbMinu o => npbOk true true true false o
  | .npbMaxu o => npbOk true true true false o
  | .npbSltu o => npbOk true true true false o
  | .npbLds o => npbOk true true false true o
  | .npbSts o => npbOk false true true true o
  | .npbLdv o => npbOk true true false true o
  | .npbBeq o => npbOk false true true true o
  | .npbBne o => npbOk false true true true o
  | .npbBltu o => npbOk false true true true o
  | .npbLoop o => npbOk true false false true o && (o.imm &&& 0xFE00FF80) == 0
  | i => (Instr.form i).ok

end Sys2Proof
end

