-- ==== Sys2Proof/Machine/Operands.lean ====
section
/-! DEFINITION. Operands of the main instruction set: direct and indirect register numbers, literals, allotment checks
(02 R45; 05 R139, R140; 06 R160, R164; 07 R177). -/
namespace Sys2Proof.Machine

/-- A form whose IMM14 is an IND descriptor with IE = 1 (06 R160). -/
def formIndirect (f : Form) : Bool := (f.role == .ind || f.role == .indx) && indIE f.imm

/-- Register number of the operand in slot 0 D, 1 A, 2 B, 3 C for lane `L`: the field, or x(IX) + IOFF (05 R139). -/
def opIndex (t : Team) (L : Nat) (f : Form) (slot : Nat) : Int :=
  if formIndirect f && indIOP f.imm == slot then (t.xreg L (indIX f.imm)).toInt + indIOFF f.imm
  else ((f.opnd slot).field.toNat : Int)

/-- The same as a register number; an index below 0 does not pass the allotment check. -/
def opReg (t : Team) (L : Nat) (f : Form) (slot : Nat) : Nat := (opIndex t L f slot).toNat

/-- REGS of a node, in registers (02 R43). -/
def Node.regs (n : Node) : Nat := 16 * natBits n.shape.toNat 5 0
/-- MASKS. -/
def Node.masks (n : Node) : Nat := natBits n.shape.toNat 9 6
/-- BARS. -/
def Node.bars (n : Node) : Nat := natBits n.shape.toNat 14 10
/-- ACCS. -/
def Node.accs (n : Node) : Nat := natBits n.shape.toNat 17 15
/-- DEPTH. -/
def Node.depth (n : Node) : Nat := natBits n.shape.toNat 22 18
/-- VERSIONED. -/
def Node.versioned (n : Node) : Bool := n.shape.getLsbD 23
/-- DEPNODE. -/
def Node.depnode (n : Node) : Bool := n.shape.getLsbD 24
/-- RPB. -/
def Node.rpb (n : Node) : Nat := natBits n.block.toNat 9 0 + 1
/-- Record size in bytes. -/
def Node.rsize (n : Node) : Nat := 16 * (natBits n.block.toNat 13 10 + 1)
/-- TPRL. -/
def Node.tprl (n : Node) : Nat := natBits n.block.toNat 16 14
/-- RTYPE. -/
def Node.rtype (n : Node) : Nat := natBits n.block.toNat 24 17
/-- CAP. -/
def Node.cap (n : Node) : Nat := natBits n.stall.toNat 23 0
/-- MTO. -/
def Node.mto (n : Node) : Nat := natBits n.stall.toNat 31 24
/-- VBUDGET. -/
def Node.vbudget (n : Node) : Nat := natBits n.vers.toNat 12 0
/-- Threads of a full block (02 R44). -/
def Node.threads (n : Node) : Nat := if n.depnode then 2 ^ n.tprl else n.rpb * 2 ^ n.tprl

/-- Lowest of a list of indices. -/
def lowest (l : List Int) : Option Int :=
  l.foldl (fun m i => match m with | none => some i | some j => some (min i j)) none

/-- Vector-register indices that the operand in a slot names for lane `L`. -/
def opIndices (t : Team) (L : Nat) (f : Form) (slot : Nat) : List Int :=
  (List.range (f.opnd slot).kind.count).map fun (n : Nat) => opIndex t L f slot + (n : Int)

/-- The lowest vector register named beyond the allotment (02 R45). -/
def regBeyond (t : Team) (L : Nat) (f : Form) (regs : Nat) : Option Int :=
  lowest (((List.range 4).flatMap (opIndices t L f)).filter fun i => i < 0 || (regs : Int) ≤ i)

/-- The lowest number of a kind of operand beyond a bound. -/
def kindBeyond (f : Form) (kd : Kind) (bound : Nat) : Option Int :=
  lowest ((((List.range 4).filter fun s => (f.opnd s).kind == kd).map fun s => ((f.opnd s).field.toNat : Int)).filter
    fun i => (bound : Int) ≤ i)

/-- A pair named indirectly at an odd index (05 R140). -/
def oddPair (t : Team) (L : Nat) (f : Form) : Bool :=
  formIndirect f && (f.opnd (indIOP f.imm)).kind == .pair && opIndex t L f (indIOP f.imm) % 2 != 0

/-! ### Reading operands -/

/-- A 32-bit operand. -/
def rd32 (t : Team) (L : Nat) (f : Form) (slot : Nat) : Word := t.vreg L (opReg t L f slot)
/-- A 64-bit operand. -/
def rd64 (t : Team) (L : Nat) (f : Form) (slot : Nat) : Dbl := t.vpair L (opReg t L f slot)
/-- Write a 32-bit result, the register number taken from the team before the instruction. -/
def wr32 (old : Team) (L : Nat) (f : Form) (r : Word) (t : Team) : Team := t.setV L (opReg old L f 0) r
/-- Write a 64-bit result. -/
def wr64 (old : Team) (L : Nat) (f : Form) (r : Dbl) (t : Team) : Team := t.setVpair L (opReg old L f 0) r

/-- Operand B of a 32-bit operation: the register, or LIT32 of the X96 form (07 R177). -/
def opB32 (lit : Option Word) (t : Team) (L : Nat) (f : Form) : Word :=
  match lit with
  | some w => w
  | none => rd32 t L f 2
/-- Operand B of a 64-bit operation: LIT32 is sign-extended, or zero-extended for the .N64 forms (07 R177). -/
def opB64 (lit : Option Word) (unsigned : Bool) (t : Team) (L : Nat) (f : Form) : Dbl :=
  match lit with
  | some w => if unsigned then w.setWidth 64 else w.signExtend 64
  | none => rd64 t L f 2

/-- IMM14 sign-extended to 32 bits. -/
def immS32 (f : Form) : Word := f.imm.signExtend 32
/-- IMM14 sign-extended to 64 bits. -/
def immS64 (f : Form) : Dbl := f.imm.signExtend 64

end Sys2Proof.Machine
end

