-- ==== Sys2Proof/Machine/Ops.lean ====
section
/-! DEFINITION. The shared operations of the cores: access checks, range locks, stopping a block, taking a fault and
returning from one, releases of masks and barriers, and the frame in which every instruction executes (05, 06 R165, 08
R203 to R215, 16 R365 to R369, 17 R380 to R393). -/
namespace Sys2Proof.Machine

/-! ### Agents and access checks -/

/-- Thread index of lane `L` of a team (02 R44). -/
def Team.thread (t : Team) (L : Nat) : Nat := 64 * t.index + L

/-- Bytes from one thread's private memory to the next: PRIVB rounded up to 4 KiB (09 R224). -/
def Node.privStride (n : Node) : Nat := (n.privb + 4095) / 4096 * 4096

/-- The agent of a lane's access (09 R219 to R231). -/
def State.agentOf (s : State) (tn L : Nat) : Agent :=
  let t := s.team tn
  let k := s.block t.block
  let nd := s.nodeOf t.block
  { func := k.func, cluster := clusterOfCore t.core, core := some t.core, sup := (t.lane L).trap, vbase := k.vbase.toNat, vaultb := nd.vaultb,
    alias0 := k.abase.toNat + t.thread L * nd.privStride, privb := nd.privb, remoteOk := nd.featreq.getLsbD 8,
    who := { team := tn, lane := L, ins := s.fresh, know := (t.lane L).know }, asks := L }

/-- The greater of two bounds on each team's issue numbers. -/
def SMap.join (a b : SMap Nat) : SMap Nat := b.foldl (fun m e => if SMap.get m 0 e.1 < e.2 then SMap.set m 0 e.1 e.2 else m) a

/-- What operation `op` of an engine follows in a version: what the block's teams issued before it, on whose accesses it waits (10 R250;
11 R288, R289). -/
def State.followed (s : State) (b op : Nat) : SMap Nat :=
  if (s.nodeOf b).versioned then (s.block b).teams.foldl (fun m tn => SMap.set m 0 tn op) [] else []

/-- The agent of an operation that a lane issued earlier: its level, its number and what happens-before it. -/
def State.agentFor (s : State) (tn L : Nat) (sup : Bool) (op : Nat) (know : SMap Nat) : Agent :=
  { s.agentOf tn L with
    sup := sup, who := { team := tn, lane := L, ins := op, know := know.join (s.followed (s.team tn).block op) }, asks := 64 + op }

/-- The agent of an engine's operation: its lane at the level it had at issue. -/
def Engine.agent (e : Engine) (s : State) : Agent :=
  { s.agentFor e.team e.lane e.supervisor e.ins e.knows with rel := e.rel, carries := e.carries }

/-- The bytes by which an address is compared with range locks (10 R249): vault or not, and the first byte; a private
address by its alias. -/
def lockPlace (ag : Agent) (a : Nat) : Bool × Nat :=
  if windowOf a = 1 then (true, a % 2 ^ 32)
  else if windowOf a = 2 then (false, ag.alias0 + (a - 2 * 2 ^ 56))
  else (false, a)

/-- A block's write of `n` bytes at `a` into its function's arena range: what the range's bytes were last given there (09 R225).
(Log 67, DESIGN CHOICE.) -/
def State.noteArena (s : State) (ag : Agent) (a n v : Nat) : State :=
  let g := (lockPlace ag a).2
  let ar := (s.func ag.func).arena
  if windowOf a = 1 || g < ar.1 || ar.1 + ar.2 < g + n then s
  else { s with arenas := s.arenas.set [] ag.func (Memory.write (s.arenas.get [] ag.func) g n v) }

/-- Locked bytes that an access of `n` bytes from `p` touches: the first of them and the entry. -/
def lockHits (locks : List RangeLock) (func : Nat) (vault : Bool) (write : Bool) (p n : Nat) : List (Nat × RangeLock) :=
  (locks.filter fun l => l.func == func && l.vault == vault && (write || l.dst) &&
    overlaps l.first (l.last + 1 - l.first) p n).map fun l => (max l.first p, l)

/-- Row 5 of 09 R219. Where several entries hold the first locked byte, the one that TINFO names is a free value.
(Log 40, DESIGN CHOICE.) -/
def State.lockFault (s : State) (core : Nat) (ag : Agent) (kind : AccessKind) (a n : Nat) : Option FaultInfo :=
  let pl := lockPlace ag a
  let hits := lockHits (s.core core).locks ag.func pl.1 (kind == .write) pl.2 n
  match lowest (hits.map fun h => (h.1 : Int)) with
  | none => none
  | some lo =>
    let first := hits.filter fun h => (h.1 : Int) == lo
    let h := first.getD (Config.freePick s.stamp a % first.length) (0, ⟨0, 0, 0, false, 0, false, false, 0⟩)
    some { code := codeRangelock, addr := BitVec.ofNat 64 (a + (h.1 - pl.2)),
           info := BitVec.ofNat 32 (h.2.slot + if h.2.dst then 64 else 0) }

/-- UPDTORN: the address lies in a region that is TORN (10 R239, 17 R404). -/
def State.tornFault (s : State) (func a : Nat) : Option FaultInfo :=
  match (s.func func).regionOf a with
  | some (i, r) =>
    if windowOf a = 0 && r.rctl.getLsbD 62 then
      some { code := 0x12, addr := BitVec.ofNat 64 a, info := BitVec.ofNat 32 i }
    else none
  | none => none

/-- The target is a doorbell page of another function's queue, where a thread's access meets no check (03 R62). -/
def State.doorStrange (s : State) (func : Nat) (t : Target) : Bool :=
  match t with
  | .door o => !s.doorOwned func o
  | _ => false

/-- The checks of a thread's access up to UPDTORN (10 R239); to a doorbell page of another function's queue no fault is raised (03
R62). -/
def State.checkThread (s : State) (tn L : Nat) (kind : AccessKind) (a n align : Nat) : Except FaultInfo Target :=
  let ag := s.agentOf tn L
  match s.checkAccess ag kind a n align with
  | .error e => .error e
  | .ok t =>
    if s.doorStrange ag.func t then .ok t
    else match s.lockFault (s.team tn).core ag kind a n with
    | some e => .error e
    | none =>
      match s.tornFault ag.func a with
      | some e => .error e
      | none => .ok t

/-- An access that the aperture refuses (03 R62): PAGEPERM, cause APERTURE. -/
def State.apertureFault (s : State) (func a : Nat) (t : Target) : Option FaultInfo :=
  match t with
  | .door o => if s.doorOwned func o then some (.at codePageperm 0xE a) else none
  | _ => none

/-! ### Held writes of versions (11 R292, 17 R395) -/

/-- The byte that a version holds for physical address `p`. -/
def Block.heldByte (k : Block) (p : Nat) : Option Byte :=
  if k.heldZero.contains p then some 0
  else
    let b := Memory.byte k.held p
    if b = 0 then none else some b

/-- Hold a byte. -/
def Block.hold (k : Block) (p : Nat) (b : Byte) : Block :=
  if b = 0 then { k with held := Memory.setByte k.held p 0, heldZero := p :: k.heldZero.filter (· != p) }
  else { k with held := Memory.setByte k.held p b, heldZero := k.heldZero.filter (· != p) }

/-- Hold the low `n` bytes of `v` from `p`. -/
def Block.holdBytes (k : Block) (p n v : Nat) : Block :=
  match n with
  | 0 => k
  | m + 1 => (k.hold p (BitVec.ofNat 8 v)).holdBytes (p + 1) m (v / 256)

/-- A writer of a byte, with its first issue number. -/
def addWriter (w : Nat × Nat × Nat) (l : List (Nat × Nat × Nat)) : List (Nat × Nat × Nat) :=
  if l.any fun x => x.1 == w.1 && x.2.1 == w.2.1 then l else l ++ [w]

/-- Writers of held bytes: team, lane, issue number. -/
def Block.heldWriters (k : Block) (ws : List (Nat × Nat × Nat)) (p n : Nat) : Block :=
  { k with heldBy := (List.range n).foldl (fun m i =>
      SMap.set m [] (p + i) (ws.foldl (fun l w => addWriter w l) (SMap.get m [] (p + i)))) k.heldBy }

/-- Hold the low `n` bytes of `v` from `p`, written by `w`: team, lane, issue number. -/
def Block.holdFor (k : Block) (w : Nat × Nat × Nat) (p n v : Nat) : Block := (k.holdBytes p n v).heldWriters [w] p n

/-- The held write of a byte happens-before a read: the reading lane issued it earlier, or the read knows of it (11 R282, R292).
(Log 122, DEDUCED.) -/
def Reader.sees (r : Reader) (w : Nat × Nat × Nat) : Bool :=
  (w.1 == r.team && w.2.1 == r.lane && w.2.2 < r.ins) || decide (w.2.2 < r.know.get 0 w.1)

/-- The value `v` of `n` bytes from `p` as a read of the version sees it: the block's latest held write to a byte, if one
happens-before the read (11 R292). -/
def Block.overlay (k : Block) (r : Reader) (p n v : Nat) : Nat :=
  match n with
  | 0 => 0
  | m + 1 =>
    (match k.heldByte p with
     | some b => if (k.heldBy.get [] p).any r.sees then b.toNat else v % 256
     | none => v % 256) + 256 * k.overlay r (p + 1) m (v / 256)

/-- Lines that hold a held byte. -/
def Block.heldLines (k : Block) : List Nat :=
  ((k.held.map (·.1)) ++ k.heldZero).foldl (fun l p => if l.contains (p / 64) then l else l ++ [p / 64]) []

/-- Held state of a version in bytes (17 R396), with lines `extra` that are about to be held. -/
def Block.heldSize (k : Block) (rsize : Nat → Nat) (extra : List Nat) : Nat :=
  let lines := extra.foldl (fun l p => if l.contains p then l else l ++ [p]) k.heldLines
  64 * lines.length + 16 * k.heldPairs + (k.heldRecs.map fun r => rsize r.node + 16).sum

/-- Record size of a node of the block's run. -/
def State.rsizeOf (s : State) (b node : Nat) : Nat := ((s.run (s.block b).run).graph.nodes.getD node {}).rsize

/-! ### Acknowledgements and program order -/

/-- The access writes. -/
def Access.writes (a : Access) : Bool :=
  match a.kind with
  | .store => true
  | .atomic _ => true
  | _ => false

/-- The access is of the sort that waits for its team's earlier accesses (11 R280). -/
def Access.releases (a : Access) : Bool := a.writes && (a.ord == 2 || a.ord == 3)

/-- A TLD that the table cache serves (10 R255). -/
def Access.tabled (a : Access) : Bool :=
  a.kind == .tload && windowOf a.va.toNat == 0 && (match a.target with | .hbm _ => true | _ => false)

/-- A release still waits for the access: for a write until it is acknowledged (11 R280), for a read until it is performed, since it
may return no write that it happens-before (11 R283); a fill of the table cache is not ordered so (11 R290; 20 R428).
(Log 125, DEDUCED.) -/
def Access.pending (a : Access) : Bool := a.writes || (a.stage == .issued && !a.tabled)

/-- Numbers of the team's accesses and pairs that a release issued now waits for (11 R280). -/
def State.unacked (s : State) (tn : Nat) : List Nat :=
  ((s.accesses.filter fun a => a.team == tn && a.pending).map (·.id)) ++
  ((s.pairs.filter fun p => p.team == tn && !p.accepted).map (·.id))

/-- Every access and pair of a list has been acknowledged, or performed if it reads. -/
def State.acked (s : State) (ids : List Nat) : Bool :=
  ids.all fun i => !(s.accesses.any fun a => a.id == i && a.pending) && !(s.pairs.any fun p => p.id == i && !p.accepted)

/-- `n` bytes at one target and `k` at another share a byte. -/
def targetsMeet (t : Target) (n : Nat) (u : Target) (k : Nat) : Bool :=
  match t, u with
  | .hbm p, .hbm q => overlaps p n q k
  | .vault c o, .vault d q => c == d && overlaps o n q k
  | .host p, .host q => overlaps p n q k
  | .remote a p, .remote b q => a == b && overlaps p n q k
  | .door p, .door q => overlaps p n q k
  | _, _ => false

/-- The 4-byte words of `n` bytes at a target (00 R3). -/
def Target.words (t : Target) (n : Nat) : Target × Nat :=
  let size (p : Nat) : Nat := (p % 4 + n + 3) / 4 * 4
  match t with
  | .hbm p => (.hbm (p / 4 * 4), size p)
  | .vault c o => (.vault c (o / 4 * 4), size o)
  | .host p => (.host (p / 4 * 4), size p)
  | .remote a p => (.remote a (p / 4 * 4), size p)
  | .door o => (.door (o / 4 * 4), size o)

/-- They share a word: the unit of coherence (11 R279). -/
def wordsMeet (t : Target) (n : Nat) (u : Target) (k : Nat) : Bool :=
  targetsMeet (t.words n).1 (t.words n).2 (u.words k).1 (u.words k).2

/-- An earlier access `x` must be performed before `a`: the same lane's access to a common word (11 R279), the same lane's
acquire (11 R280), the same lane's earlier WATCH (10 R273; log 128, DEDUCED), a lower lane's store of the same instruction to a
common byte (10 R242), or a lower address of the same SC instruction (10 R257). -/
def Access.before (x a : Access) : Bool :=
  x.stage == .issued && x.team == a.team &&
  if x.ins = a.ins then
    x.id < a.id && x.kind == .store && targetsMeet x.target x.size a.target a.size ||
    a.ord == 3 && x.va.toNat < a.va.toNat
  else
    x.lane == a.lane && x.ins < a.ins &&
      (x.acquires || (x.kind == .watch && a.kind == .watch) || wordsMeet x.target x.size a.target a.size)

/-- The earlier pairs of the lane to the access's words have been accepted (11 R279, R291). -/
def State.pairsBefore (s : State) (a : Access) : Bool :=
  s.pairs.all fun p => p.accepted || p.team != a.team || p.lane != a.lane || a.id < p.id ||
    !wordsMeet (.hbm p.p) (regionBytes p.ty) a.target a.size

/-- Where the lane's last release before issue `ins` stands that is not performed yet; 0 for none. -/
def State.releaseOpen (s : State) (tn L ins : Nat) : Nat :=
  ((s.accesses.filter fun y => y.team == tn && y.lane == L && y.ins < ins && y.stage == .issued && y.releases).map (·.ins)).foldl
    max 0

/-- What its team issued before a release of the access's lane happens-before the access (11 R282): the writes, and the acquires, that
the access must not pass have been performed (R283). -/
def State.teamBefore (s : State) (a : Access) : Bool :=
  let n := s.releaseOpen a.team a.lane a.ins
  (s.accesses.all fun x => x.team != a.team || n ≤ x.ins || x.stage != .issued ||
    !(x.acquires || wordsMeet x.target x.size a.target a.size)) &&
  s.pairs.all fun p => p.accepted || p.team != a.team || n ≤ p.ins || !wordsMeet (.hbm p.p) (regionBytes p.ty) a.target a.size

/-- The line of a target keeps the pairs of a function that is cut. -/
def State.cutTarget (s : State) (t : Target) : Bool :=
  match t with
  | .hbm p => s.cutLine (p / 64)
  | _ => false

/-- A lane's acquire issued before operation `op` is not performed yet: nothing later of the lane is performed before its
discard (11 R280). -/
def State.acquireOpen (s : State) (tn L op : Nat) : Bool :=
  s.accesses.any fun x => x.team == tn && x.lane == L && x.ins < op && x.acquires && x.stage == .issued

/-- A plain read that a lane makes now may be performed: as a load issued now could be (11 R279, R280, R283, R286, R291). -/
def State.readReady (s : State) (tn L : Nat) (t : Target) (n : Nat) : Bool :=
  let tm := s.team tn
  let a : Access :=
    { id := s.fresh, ins := s.fresh, kind := .load, team := tn, block := tm.block, core := tm.core, lane := L,
      func := (s.block tm.block).func, va := 0, target := t, size := n, ord := 0, dest := 0, ndest := 0, sx := false,
      nol1 := false, data := 0, data2 := 0, ts := 0, floored := false, supervisor := false, stage := .issued }
  (s.accesses.all fun x => !x.before a) && s.pairsBefore a && s.teamBefore a && s.reachable t

/-! ### What happens-before what within a version (11 R281, R282, R292) -/

/-- What a release of team `tn` covers: every instruction that the team has issued, and what they know; in a block that is no
version nothing is kept. (Log 122, DEDUCED.) -/
def State.covers (s : State) (tn : Nat) : SMap Nat :=
  let t := s.team tn
  if (s.nodeOf t.block).versioned then
    SMap.set (laneList.foldl (fun m L => m.join (t.lane L).know) []) 0 tn s.fresh
  else []

/-- Lanes come to a release point: what their team has issued before it happens-before what they do next (11 R282). (Log 122,
DEDUCED.) -/
def State.releasePoint (s : State) (tn : Nat) (ls : List Nat) : State :=
  let t := s.team tn
  if ls = [] || !(s.nodeOf t.block).versioned then s
  else s.setTeam tn (t.mapLanes ls fun _ l => { l with know := l.know.join (s.covers tn) })

/-- Lanes arrive at a barrier or mask: what their arrival carries, a release point. -/
def State.gives (s : State) (tn : Nat) (ls : List Nat) : State :=
  let t := s.team tn
  if ls = [] || !(s.nodeOf t.block).versioned then s
  else
    let clock := s.covers tn
    s.setTeam tn (t.mapLanes ls fun _ l => { l with gave := clock, know := l.know.join clock })

/-- What an arrival that a lane waits with is a release over. -/
def Wait.after (w : Wait) : List Nat :=
  match w with
  | .join _ a => a
  | .waitk _ a => a
  | .arrive _ _ a => a
  | .drain _ a => a
  | _ => []

/-- A release that a lane waits for comes after the read of number `ins`: a fence, and an arrival, carries what that read has seen, and
what follows in the lane knows it. -/
def State.waitLearn (s : State) (tn ins : Nat) (clock : SMap Nat) (l : Lane) : Lane :=
  let mine (ids : List Nat) : Bool := s.accesses.any fun x => x.team == tn && x.ins == ins && ids.contains x.id
  let l := match l.hold with
    | .acks ids => if mine ids then { l with fenced := l.fenced.join clock, know := l.know.join clock } else l
    | .freed ids => if mine ids then { l with know := l.know.join clock } else l
    | _ => l
  match l.st with
  | .waiting w => if mine w.after then { l with gave := l.gave.join clock, know := l.know.join clock } else l
  | _ => l

/-- After which issue a lane knows what an acquire of lanes `ls`, of number `ins`, has seen: its own, or its first release in flight
since, which waits for the acquire (11 R280, R282). -/
def State.knowsFrom (s : State) (tn : Nat) (ls : List Nat) (ins L : Nat) : Option Nat :=
  if ls.contains L then some ins
  else ((s.accesses.filter fun y => y.team == tn && y.lane == L && ins < y.ins && y.stage == .issued && y.releases).map
    (·.ins)).foldl (fun best n => match best with
      | some b => some (min b n)
      | none => some n) none

/-- Lanes learn what an acquire has seen: they, those that have come to a release since it was issued, their accesses in flight after
that, and the team's releases after it, which carry it (11 R280, R282, R292). (Log 122, DEDUCED.) -/
def State.learn (s : State) (tn : Nat) (ls : List Nat) (ins : Nat) (clock : SMap Nat) : State :=
  if clock = [] then s
  else
    let u := s.setTeam tn ((s.team tn).mapLanes laneList fun L l =>
      s.waitLearn tn ins clock (if (s.knowsFrom tn ls ins L).isSome then { l with know := l.know.join clock } else l))
    { u with accesses := s.accesses.map fun (x : Access) =>
        let x := if x.team = tn && (s.knowsFrom tn ls ins x.lane).any (· < x.ins) then { x with knows := x.knows.join clock } else x
        if x.team = tn && ins < x.ins && x.kind != .load && 2 ≤ x.ord then { x with carries := x.carries.join clock } else x }

/-- Lanes learn what an acquire that they make now has seen: nothing of the team has been issued after it (11 R280, R292).
(Log 122, DEDUCED.) -/
def State.learnNow (s : State) (tn : Nat) (ls : List Nat) (clock : SMap Nat) : State :=
  if clock = [] then s else s.setTeam tn ((s.team tn).mapLanes ls fun _ l => { l with know := l.know.join clock })

/-- An acquire fence of lanes: what their plain reads have seen released happens-before what follows (11 R281). -/
def State.learnHeard (s : State) (tn : Nat) (ls : List Nat) : State :=
  ls.foldl (fun s L => s.learnNow tn [L] ((s.team tn).lane L).heard) s

/-- Words of an access of a version at its home, by number; vault words beyond those of HBM. -/
def versionWords (t : Target) (n : Nat) : List Nat :=
  match t with
  | .hbm p => wordsOf p n
  | .vault c o => (wordsOf o n).map fun w => vaultWord c (4 * w)
  | _ => []

/-- What the releases that a read of `n` bytes at a target returns carry. -/
def Block.carried (k : Block) (t : Target) (n : Nat) : SMap Nat :=
  if k.words = [] then [] else (versionWords t n).foldl (fun m w => m.join (k.words.get [] w)) []

/-- A write of a version's lane leaves on its words what it carries; an atomic continues the release sequences that it reads (11
R281). -/
def Block.carry (k : Block) (t : Target) (n : Nat) (atomic : Bool) (clock : SMap Nat) : Block :=
  if k.words = [] && clock = [] then k
  else
    { k with words := (versionWords t n).foldl (fun m w =>
        SMap.set m [] w (if atomic then (SMap.get m [] w).join clock else clock)) k.words }

/-! ### Identity of blocks (05 R143, 17 R394) -/

/-- NODEID of block `b`. -/
def State.nodeid (s : State) (b : Nat) : Word :=
  BitVec.ofNat 32 ((s.block b).node % 4096 + (s.block b).func % 256 * 2 ^ 16)
/-- JOBID. -/
def State.jobid (s : State) (b : Nat) : Word :=
  BitVec.ofNat 32 ((s.block b).job % 65536 + (s.run (s.block b).run).phase % 65536 * 65536)
/-- RUNID. -/
def State.runid (s : State) (b : Nat) : Word := BitVec.ofNat 32 ((s.run (s.block b).run).number % 2 ^ 24)

/-- RNM of a log entry (18 R413). -/
def State.rnm (s : State) (b : Nat) : Nat :=
  let k := s.block b
  (s.run k.run).number % 2 ^ 24 * 2 ^ 40 + k.node % 4096 * 2 ^ 28 + k.muster % 2 ^ 20

/-! ### Stopping a block (17 R389 to R392) -/

/-- What a stop report says (17 R392). -/
structure StopInfo where
  reason : Nat
  code : Nat := 0
  subcode : Nat := 0
  cause : Nat := 0
  tpc : Dbl := 0
  hpc : Dbl := 0
  taddr : Dbl := 0
  tinfo : Word := 0
  core : Nat := 0x3FF
  team : Nat := 0
  lane : Nat := 0x7F
  deriving DecidableEq, Repr

/-- The 64 bytes of stop report `n` (17 R392), as a number. -/
def State.stopImage (s : State) (b n : Nat) (i : StopInfo) : Nat :=
  (i.reason % 256 + i.code % 256 * 2 ^ 8 + i.subcode % 256 * 2 ^ 16 + i.cause % 16 * 2 ^ 24) +
  (s.nodeid b).toNat * 2 ^ 32 + (s.jobid b).toNat * 2 ^ 64 + (s.runid b).toNat * 2 ^ 96 +
  (s.block b).taskid.toNat * 2 ^ 128 + i.tpc.toNat * 2 ^ 192 + i.hpc.toNat * 2 ^ 256 + i.taddr.toNat * 2 ^ 320 +
  i.tinfo.toNat * 2 ^ 384 + (i.core % 1024 * 2 ^ 16 + i.team % 16 * 2 ^ 8 + i.lane % 128) * 2 ^ 416 +
  n % 2 ^ 32 * 2 ^ 448

/-- The Yard writes the stop report, counts the stop and writes the black-box event (17 R391, R392). -/
def State.stopReport (s : State) (b : Nat) (i : StopInfo) : State :=
  let k := s.block b
  let f := s.func k.func
  let n := f.stopcnt.toNat
  let img := s.stopImage b n i
  let base := natBits f.stopbase.toNat 55 12 * 4096
  let log2n := min (natBits f.stopbase.toNat 3 0) 12
  let s := s.setFunc k.func { f with stopcnt := f.stopcnt + 1 }
  let s :=
    if base = 0 then s
    else match s.devWrite k.func (base + 64 * (n % 2 ^ log2n)) 64 img with
      | none => s
      | some s => if f.stopctl.getLsbD 8 then s.raiseAfter k.func (natBits f.stopctl.toNat 7 0) else s
  s.bbEvent (dieOfCluster k.cluster) 0x01 (img % 2 ^ 384)

/-- Remove the range-lock entries of an engine operation (10 R249). -/
def State.unlock (s : State) (core op : Nat) : State :=
  let c := s.core core
  s.setCore core { c with locks := c.locks.filter fun l => l.op != op }

/-- The walk of a team ends: staged items are discarded and the context is freed (15 R347, R359). -/
def State.dropWalk (s : State) (tn : Nat) : State :=
  let n := (s.team tn).core
  let c := s.core n
  if c.walker.owner = tn + 1 then
    let s := s.unlock n c.walker.lockOp
    s.setCore n { s.core n with walker := {} }
  else s

/-- Copies of a block abort (10 R275). -/
def Core.abortCopies (c : Core) (b : Nat) : Core :=
  { c with copies := c.copies.map fun p => if p.2.block = b then (p.1, { p.2 with aborted := true }) else p }

/-- A version's held state is dropped (17 R397); the return of its records follows at retirement. -/
def State.discardHeld (s : State) (b : Nat) : State :=
  let k := s.block b
  let s := { s with pairs := s.pairs.filter fun p => !(p.block == b && p.held) }
  s.setBlock b { k with held := [], heldZero := [], heldBy := [], heldRecs := [], heldPairs := 0 }

/-- A crossing of number `x`, one more than 128 · NODE + CTR, is latched in EVTSTAT (12 R312). -/
def State.latchCrossing (s : State) (f x : Nat) : State :=
  { s with crossings := s.crossings.set 0 (2 * f) x }.setFunc f
    { s.func f with evtstat := BitVec.ofNat 32 (2 ^ 31 + (x - 1) % 128 * 2 ^ 24 + (x - 1) / 128) }

/-- The latched crossing raises vector VEC. -/
def State.raiseCrossing (s : State) (f : Nat) : State := s.raise f (natBits (s.func f).evtctl.toNat 31 24)

/-- An addition that takes a word from below THRESH to it or above latches the crossing and raises the vector, unless an earlier
one is latched; of those of one cycle the lowest NODE and then the lowest CTR (12 R312). -/
def State.eventCrossing (s : State) (f node i old new : Nat) : State :=
  let v := s.func f
  let th := natBits v.evtctl.toNat 23 0
  let x := 128 * node + i + 1
  let now := s.crossings.get 0 (2 * f)
  let kept := s.crossings.get 0 (2 * f + 1)
  if th = 0 || !(old < th && th ≤ new) then s
  else if !v.evtstat.getLsbD 31 then (s.latchCrossing f x).raiseCrossing f
  else if now != 0 then (if x < now then s.latchCrossing f x else s)
  else { s with crossings := s.crossings.set 0 (2 * f + 1) (if kept = 0 then x else min kept x) }

/-- A write of 1 to PEND clears it, but in the cycle of a new crossing that one is latched and raises VEC (12 R313). -/
def State.clearCrossing (s : State) (f : Nat) : State :=
  let kept := s.crossings.get 0 (2 * f + 1)
  if s.crossings.get 0 (2 * f) != 0 then s
  else if kept != 0 then (s.latchCrossing f kept).raiseCrossing f
  else s.setFunc f { s.func f with evtstat := (s.func f).evtstat &&& 0x7FFFFFFF }

/-- The Yard adds one block counter into its word of the node event table; an addition that cannot translate, or whose
word does not stand in HBM, is dropped (12 R311). -/
def State.addEvent (s : State) (f node i n : Nat) : State :=
  let base := natBits (s.func f).evtbase.toNat 55 12 * 4096
  let a := base + 128 * node + 4 * i
  match s.devByte f .write a with
  | .ok (.hbm p) =>
    let s := s.reach (.hbm p)
    let old := s.hbmRead p 4
    let new := min (old + n) 0xFFFFFFFF
    (s.poke 0 0 false (.hbm p) 4 new).eventCrossing f node i old new
  | _ => s

/-- Lines of the node event table to which a block's counters go (12 R311). -/
def State.eventLines (s : State) (b : Nat) : List Nat :=
  let k := s.block b
  let base := natBits (s.func k.func).evtbase.toNat 55 12 * 4096
  if base = 0 then []
  else (k.events.filterMap fun e => match s.devByte k.func .write (base + 128 * k.node + 4 * e.1) with
    | .ok (.hbm p) => some (p / 64)
    | _ => none).eraseDups

/-- The lines of the node event table can be reached for a block's counters (18 R415). -/
def State.eventRoom (s : State) (b : Nat) : Bool :=
  let ls := s.eventLines b
  (ls.all fun l => !s.cutLine l) && s.logsFit (s.batchDies ls)

/-- The event counters of a block that retires or is stopped are added into its node's entry, and are spent (12 R311). -/
def State.addEvents (s : State) (b : Nat) : State :=
  let k := s.block b
  let s := if (s.func k.func).evtbase = 0 then s
    else k.events.foldl (fun s e => s.addEvent k.func k.node e.1 e.2) s
  s.setBlock b { s.block b with events := [] }

/-- An engine operation's number is that of an MXST in flight. -/
def State.isMxst (s : State) (i : Nat) : Bool := s.engines.any fun e => e.id == i && e.kind == .mxst

/-- Operations of a stopped block that have not been performed: loads and records not yet sent are dropped, and each write
is performed or dropped, which is a free value (11 R294); an MXST in flight completes (14 R336). (Log 69, DESIGN CHOICE.) -/
def State.dropPending (s : State) (b : Nat) : State :=
  let dropped (i : Nat) : Bool := Config.freePick s.stamp i % 2 == 1
  { s with
    emissions := s.emissions.filter fun e => !(e.block == b && !e.listed && !e.sent)
    accesses := s.accesses.filter fun a => !(a.block == b && (match a.kind with
      | .store => a.stage == .issued && dropped a.id && !s.isMxst a.ins
      | .atomic _ => a.stage == .issued && dropped a.id
      | _ => true))
    pairs := s.pairs.filter fun p => !(p.block == b && !p.accepted && dropped p.id) }

/-- Every team of a block stops: lanes become EXITED, walks stop, copies and ZSCANs abort (17 R391 steps 1 to 3). -/
def State.haltBlock (s : State) (b reason : Nat) : State :=
  let ts := (s.block b).teams
  let s := ts.foldl (fun s tn => (s.dropWalk tn).setTeam tn { (s.team tn).exitAll with parked := false, saved := false }) s
  let n := (s.block b).core
  let s := s.setCore n ((s.core n).abortCopies b)
  let s := { s with
    engines := (s.engines.filter fun (e : Engine) =>
        !(e.block == b && (match e.kind with | .fenceSc _ => true | _ => false))).map
      fun (e : Engine) => if e.block = b then { e with aborted := true } else e
    pendingTraps := s.pendingTraps.filter fun p => !ts.contains p.1
    answers := s.answers.filter fun w => !ts.contains w.who.team }
  let s := (s.dropPending b).discardHeld b
  let s := if s.eventRoom b then s.addEvents b else s
  let s := s.setRun (s.block b).run { s.run (s.block b).run with stopped := true }
  s.setBlock b { s.block b with place := .retired, stop := reason, preempt := false, savedVault := [], bars := [] }

/-- Stop a block (17 R391). A block that has already stopped stays as it is. -/
def State.stopBlock (s : State) (b : Nat) (i : StopInfo) : State :=
  if (s.block b).place == .retired then s
  else (s.stopReport b i).haltBlock b i.reason

/-! ### Synchronous plain reads (08 R206, 17 R384) -/

/-- What a plain read of a version has seen released is kept for its lane's next acquire fence (11 R281, R292). (Log 122, DEDUCED.) -/
def State.heard (s : State) (tn L : Nat) (t : Target) (n : Nat) : State :=
  let clock := (s.block (s.team tn).block).carried t n
  if clock = [] then s else s.setTeam tn ((s.team tn).mapLanes [L] fun _ l => { l with heard := l.heard.join clock })

/-- A plain read of `n` bytes by a lane, completed at once: from the core's L1 or at the home, where both could serve it a
free choice; a region line is read at its home (10 R265), and a version sees its own held bytes. -/
def State.readNow (s : State) (tn L : Nat) (t : Target) (n : Nat) : State × Nat :=
  let core := (s.team tn).core
  let k := s.block (s.team tn).block
  let r := (s.agentOf tn L).who
  match t with
  | .hbm p =>
    let l1 := if Config.freePick s.stamp p % 2 = 0 && !s.regionLine (p / 64) then s.l1Read core p n else none
    match l1 with
    | some v => (s.heard tn L t n, k.overlay r p n v)
    | none =>
      let s := ((s.callHome core t).reach t).dropSector core (p / 32)
      (s.heard tn L t n, k.overlay r p n (s.peek t n))
  | _ =>
    let s := s.callHome core t
    (s.heard tn L t n, s.peek t n)

/-! ### Faults (17 R380 to R393) -/

/-- A double fault stops the block (17 R381, R392): the inner fault and its PC, and the lane's outer trap. -/
def State.doubleFault (s : State) (tn L : Nat) (sub cause : Nat) (hpc tpc taddr : Dbl) (tinfo : Word) : State :=
  let t := s.team tn
  s.stopBlock t.block { reason := 2, code := 0x16, subcode := sub, cause := cause, tpc := tpc, hpc := hpc, taddr := taddr,
                        tinfo := tinfo, core := t.core, team := t.index, lane := L }

/-- Post a referral (18 R421, R434): its entry and continuations go into the assist ring when there is room. -/
def State.refer (s : State) (mode die func : Nat) (a0 a1 : Dbl) (cont : List (BitVec 256)) (obj obj2 : Nat) : State :=
  { s with nextReferral := s.nextReferral + 1,
           referrals := s.referrals ++ [{ rseq := s.nextReferral, mode := mode, die := die, func := func, arg0 := a0,
                                          arg1 := a1, cont := cont, posted := false, obj := obj, obj2 := obj2 }] }

/-- Entries of the assist ring, and those not yet taken (18 R421). -/
def State.assistRing (s : State) : Nat × Nat :=
  (128 * natBits s.pf.asctl.toNat 19 0, s.pf.ashead.toNat - s.pf.astail.toNat)

/-- Write 32 bytes of entry `n` of the assist ring to host memory. -/
def State.assistEntry (s : State) (n v : Nat) : State :=
  let base := natBits s.pf.asbase.toNat 51 12 * 4096
  { s with host := Memory.write s.host (base + 32 * (n % s.assistRing.1)) 32 v }

/-- Write a request's continuation entries. -/
def State.assistCont (s : State) (n : Nat) (cs : List (BitVec 256)) : State :=
  match cs with
  | [] => s
  | c :: r => (s.assistEntry n c.toNat).assistCont (n + 1) r

/-- Post referral `r` if the ring has room (18 R421, R434). -/
def State.postReferral (s : State) (r : Referral) : State :=
  let (size, used) := s.assistRing
  let k := 1 + r.cont.length
  if r.posted || size < used + k then s
  else
    let n := s.pf.ashead.toNat
    let kind := r.mode + r.die * 16 + r.cont.length * 256 + r.func * 65536
    let s := s.assistEntry n (r.rseq + kind * 2 ^ 64 + r.arg0.toNat * 2 ^ 128 + r.arg1.toNat * 2 ^ 192)
    let s := s.assistCont (n + 1) r.cont
    let s := { s with
      pf := { s.pf with ashead := s.pf.ashead + BitVec.ofNat 64 k }
      referrals := s.referrals.map fun (x : Referral) => if x.rseq = r.rseq then { x with posted := true } else x }
    s.raise 0 (natBits s.pf.asctl.toNat 31 24)

/-- Post the waiting referrals in order, while the ring has room. -/
def State.postAll (s : State) (rs : List Referral) : State :=
  match rs with
  | [] => s
  | r :: rest =>
    let s' := s.postReferral r
    if (s'.referrals.find? fun x => x.rseq == r.rseq).all (·.posted) then s'.postAll rest else s'

/-- Post whatever waits. -/
def State.postWaiting (s : State) : State := s.postAll (s.referrals.filter fun r => !r.posted)

/-- Entries of a die's miss table (09 R236). -/
def missTable : Nat := 4096

/-- Refer a page walk to the PF (09 R237): one walk serves every access of the die that waits for the page, and a full miss table
makes the access wait (R236). (Log 43, DEDUCED.) -/
def State.referWalk (s : State) (ag : Agent) (e : FaultInfo) : State :=
  let page : Dbl := BitVec.ofNat 64 (natBits e.addr.toNat 55 12 * 4096)
  let die := dieOfCluster ag.cluster
  let same (r : Referral) : Bool := r.mode == 2 && r.die == die && r.func == ag.func && r.arg0 == page
  let w := s.waiter ag
  let joins (r : Referral) : Referral := if same r && !r.who.contains w then { r with who := r.who ++ [w] } else r
  if s.referrals.any same then { s with referrals := s.referrals.map joins }
  else if missTable ≤ (s.referrals.filter fun r => r.mode == 2 && r.die == die).length then s
  else
    let s := (s.refer 2 die ag.func page (e.info.setWidth 64) [] ag.cluster page.toNat)
    { s with referrals := s.referrals.map joins }.postWaiting

/-- An access that waits: its page walk is referred, if that is what it waits for. (Log 43, DEDUCED.) -/
def State.waitFor (s : State) (ag : Agent) (e : FaultInfo) : State := if e.cause = 0xB then s.referWalk ag e else s

/-- Accesses of lanes of a team that wait (09 R237). -/
def State.waitAll (s : State) (tn : Nat) (fs : List (Nat × FaultInfo)) : State :=
  (fs.filter fun x => x.2.code == 0).foldl (fun s x => s.waitFor (s.agentOf tn x.1) x.2) s

/-- The failed answers of referred walks for those of a team that asked are used up by the access that they fail: a fault is never
cached (09 R236, R237). (Log 43, DEDUCED.) -/
def State.dropAnswers (s : State) (tn : Nat) (asked : List Nat) : State :=
  { s with answers := s.answers.filter fun w => !(w.who.team == tn && asked.contains w.who.asks) }

/-- A failed answer whose lane no longer stands where it waited is for no access any more (09 R236). -/
def State.pruneAnswers (s : State) : State :=
  { s with answers := s.answers.filter fun w => 64 ≤ w.who.asks || ((s.team w.who.team).lane w.who.asks).pc == w.who.pc }

/-- Bytes 0 to 15 and 16 to 31 of the continuation entry of an AEMU referral (18 R434): operand or comparison value, and
the new value of CAS. -/
def aemuOperand (t : Team) (L d op wid : Nat) : BitVec 256 :=
  let n := if wid = 2 then 1 else if wid = 3 then 2 else 4
  let a := t.vregs L d n
  let b := if op = 0x20C then t.vregs L (d + n) n else 0
  BitVec.ofNat 256 (a + b * 2 ^ 128)

/-- A team's lanes may issue: it is resident, and its block runs (05 R127). -/
def State.teamRuns (s : State) (tn : Nat) : Bool :=
  let t := s.team tn
  t.resident && !t.parked && !t.saved && (s.block t.block).place == .running

/-- The default handlers of a team's lanes go on: they are pre-empted, parked and saved with their team, and a cut freezes them (17 R388,
R400, R402, R406). -/
def State.handlersRun (s : State) (tn : Nat) : Bool := s.teamRuns tn && !(s.func (s.block (s.team tn).block).func).cut

/-- The default handler for a code (17 R390), once the lane is in trap mode. -/
def State.defaultHandler (s : State) (tn L : Nat) (e : FaultInfo) : State :=
  let t := s.team tn
  let k := s.block t.block
  let wait (w : Wait) : State := s.setTeam tn (t.setLane L { t.lane L with st := .waiting w }).refresh
  let stop := s.stopBlock t.block { reason := 1, code := e.code, subcode := e.subcode, cause := e.cause,
                                    tpc := (t.lane L).tpc, taddr := e.addr, tinfo := e.info, core := t.core,
                                    team := t.index, lane := L }
  if e.code = 0x14 then wait (.logRoom e.info.toNat e.reg)
  else if e.code = 0x11 then
    if (s.func k.func).lockTab = 0 then stop
    else wait (.emulate e.reg e.ins (if (s.yard (dieOfCore t.core)).mode.getLsbD 3 then .ask else .lock))
  else stop

/-- What a faulting lane saves (17 R384): TPC, TNEXT, TADDR, TINFO and TSTATUS; it is in trap mode then, with its predicate 1.
`pc` and `next` are TPC and TNEXT (R385). -/
def State.saveTrap (s : State) (tn L : Nat) (e : FaultInfo) (pc next : Dbl) : State :=
  let t := s.team tn
  s.setTeam tn (t.setLane L { t.lane L with
    tpc := pc, tnext := next, taddr := e.addr, tinfo := e.info,
    tstatus := BitVec.ofNat 32 (e.cause % 16 * 2 ^ 16 + e.subcode % 256 * 2 ^ 8 + e.code % 256),
    trap := true, pend := true, st := .ready })

/-- A lane that has saved its trap state goes to its handler (17 R384). A trap-table read that faults and a table entry that breaks
R383 are double faults. Where the walk for the trap table is referred (09 R237), or the plain read of the table waits for an
earlier access of the lane (11 R279), the lane stands as `back` and the fault stays pending. -/
def State.enterTrap (s : State) (tn L : Nat) (e : FaultInfo) (pc : Dbl) (back : Lane) : State :=
  let s0 := { s.setTeam tn ((s.team tn).setLane L back) with pendingTraps := s.pendingTraps ++ [(tn, L, e)] }
  let tab := (s.nodeOf (s.team tn).block).traptab.toNat
  if tab = 0 then s.defaultHandler tn L e
  else
    let at' := tab + 8 * e.code
    match s.checkThread tn L .read at' 8 8 with
    | .error r =>
      if r.code = 0 then s0.waitFor (s.agentOf tn L) r
      else s.doubleFault tn L e.code (if r.code = codePagenp || r.code = codePageperm then r.cause else 0) 0 pc
        (BitVec.ofNat 64 at') e.info
    | .ok tg =>
      if !s.readReady tn L tg 8 then s0
      else
        let (s, h) := s.readNow tn L tg 8
        if h = 0 then s.defaultHandler tn L e
        else if 2 ^ 56 ≤ h || h % 4 ≠ 0 then
          s.doubleFault tn L e.code 0 0 pc (BitVec.ofNat 64 at') e.info
        else
          let t := s.team tn
          s.setTeam tn (t.setLane L { t.lane L with pc := BitVec.ofNat 64 h, arrival := .transfer pc }).refresh

/-- A lane takes a fault (17 R384); a fault in trap mode is a double fault. -/
def State.takeFault (s : State) (tn L : Nat) (e : FaultInfo) (pc next : Dbl) : State :=
  let l := (s.team tn).lane L
  if l.isExited then s
  else if l.trap then s.doubleFault tn L e.code e.cause pc l.tpc l.taddr l.tinfo
  else (s.saveTrap tn L e pc next).enterTrap tn L e pc { l with st := .ready, tnext := next }

/-- Lanes that fault in one cycle, each with its fault, TPC and TNEXT: each saves its trap state, and then they act in ascending
lane order (17 R384); one that stops the block ends the others, which are EXITED with what they saved (R391). -/
def State.takeAll (s : State) (tn : Nat) (fs : List (Nat × FaultInfo × Dbl × Dbl)) : State :=
  let old := s.team tn
  let saved := (fs.filter fun x => !(old.lane x.1).isExited && !(old.lane x.1).trap).foldl
    (fun s x => s.saveTrap tn x.1 x.2.1 x.2.2.1 x.2.2.2) s
  fs.foldl (fun s x =>
    let l := old.lane x.1
    if ((s.team tn).lane x.1).isExited then s
    else if l.trap then s.doubleFault tn x.1 x.2.1.code x.2.1.cause x.2.2.1 l.tpc l.taddr l.tinfo
    else s.enterTrap tn x.1 x.2.1 x.2.2.1 { l with st := .ready, tnext := x.2.2.2 }) saved

/-- Lanes of one instruction take their faults. -/
def State.takeFaults (s : State) (tn : Nat) (fs : List (Nat × FaultInfo)) (pc next : Dbl) : State :=
  s.takeAll tn (fs.map fun x => (x.1, x.2, pc, next))

/-- A lane returns from its handler (17 R387): trap mode ends and the PC is TPC; the target mark is not checked. -/
def Lane.tret (l : Lane) : Lane := { l with trap := false, pc := l.tpc, pend := true, arrival := .newLine }

/-! ### Masks (08 R211 to R214) -/

/-- Lanes that a release check of mask `n` releases (08 R213). -/
def Team.maskFrees (t : Team) (n : Nat) : List Nat :=
  let at' := t.atMask n
  if laneList.all fun L => !t.kbit n L || at'.contains L then at' else at'.filter fun L => !t.kbit n L

/-- What the arrivals of lanes at a mask still wait for (11 R280). -/
def State.arrivalsDue (s : State) (t : Team) (ls : List Nat) : List Nat :=
  ((ls.flatMap fun L => match (t.lane L).st with
    | .waiting w => w.after
    | _ => []).filter fun i => !s.acked [i]).eraseDups

/-- Release lanes at a mask: a JOIN waiter's bit is cleared (08 R213). -/
def Team.freeMask (t : Team) (n : Nat) (ls : List Nat) : Team :=
  (ls.foldl (fun t L =>
    let l := t.lane L
    let t := if l.waitsAt (fun w => match w with | .join _ _ => true | _ => false) then t.setKbit n L false else t
    t.setLane L (l.release 1)) t).refresh

/-- Lanes that a release check frees stay where they are, READY, until the arrivals that it frees have been acknowledged (11 R280). -/
def Team.holdFreed (t : Team) (ls ids : List Nat) : Team :=
  if ids = [] then t else t.mapLanes ls fun _ l => { l with hold := .freed ids }

/-- The release check of mask `n` (08 R213). The release is an acquire (11 R280), and in deterministic mode it is logged, for which the
entry was kept (18 R414, R415). (Log 141, DEDUCED.) -/
def State.checkMask (s : State) (tn n : Nat) : State :=
  let t := s.team tn
  let free := t.maskFrees n
  let det := s.det t.block
  if free = [] || (det && s.logFree (dieOfCore t.core) .order = 0) then s
  else
    let clock := free.foldl (fun m L => SMap.join m (t.lane L).gave) ([] : SMap Nat)
    let s := ((s.setTeam tn ((t.freeMask n free).holdFreed free (s.arrivalsDue t free))).acquire t.core).learnNow tn free clock
    if det then s.orderLog t.block t.core 0x13 (s.coreClock t.core) (s.block t.block).taskid.toNat (n + 16) else s

/-- The wait of lanes that a mask has freed is over: they may go on, which is the acquire of their release (11 R280). -/
def State.endFreed (s : State) (tn : Nat) : State :=
  let t := s.team tn
  match laneList.filter fun L => match (t.lane L).hold with | .freed ids => s.acked ids | _ => false with
  | [] => s
  | ls => (s.setTeam tn (t.mapLanes ls fun _ l => { l with hold := .none })).acquire t.core

/-- Every team's. -/
def State.endAllFreed (s : State) : State := s.teams.foldl (fun s t => s.endFreed t.1) s

/-- Release checks of several masks. -/
def State.checkMasks (s : State) (tn : Nat) (ns : List Nat) : State := ns.foldl (fun s n => s.checkMask tn n) s

/-- Every lane of the team that is not EXITED waits at a JOIN or WAITK, and no release check would release one (08 R214). -/
def Team.maskDead (t : Team) : Bool :=
  t.live != [] &&
  (t.live.all fun L => (t.lane L).waitsAt fun w => match w with | .join _ _ => true | .waitk _ _ => true | _ => false) &&
  (List.range 12).all fun n => t.maskFrees n == []

/-! ### Barriers (16 R365 to R369) -/

/-- Bit of a thread in an arrival set. -/
def Barrier.arrived (b : Barrier) (th : Nat) : Bool := b.arr.getLsbD th

/-- The barrier release check would complete the phase of barrier `b` (16 R367). -/
def State.barComplete (s : State) (b bar : Nat) : Bool :=
  let k := s.block b
  (k.bar bar).arr != 0 &&
  k.teams.all fun tn => (s.team tn).live.all fun L => (k.bar bar).arrived ((s.team tn).thread L)

/-- Lanes of a team that wait for the phase of a barrier. -/
def Team.atBar (t : Team) (bar : Nat) : List Nat :=
  laneList.filter fun L => (t.lane L).waitsAt fun w =>
    match w with | .phase b => b == bar | .barWait b => b == bar | _ => false

/-- A team's waiters of a completed phase are released, and its INSNS becomes 0 (16 R367, 05 R128). -/
def Team.freeBar (t : Team) (bar : Nat) : Team :=
  let ls := t.atBar bar
  if ls = [] then t else { (t.mapLanes ls fun _ l => l.release 1).refresh with insns := 0 }

/-- The barrier release check (16 R367). Departure is an acquire (11 R280); in deterministic mode the release is logged. -/
def State.checkBar (s : State) (b bar : Nat) : State :=
  let k := s.block b
  if !s.barComplete b bar || (s.det b && s.logFree (dieOfCore k.core) .order = 0) then s
  else
    let x := k.bar bar
    let s := s.setBlock b (k.setBar bar { arr := 0, ph := x.ph + 1, last := x.clock })
    let s := k.teams.foldl (fun s tn =>
      (s.setTeam tn ((s.team tn).freeBar bar)).learnNow tn ((s.team tn).atBar bar) x.clock) s
    let s := s.acquire k.core
    if s.det b then s.orderLog b k.core 0x13 (s.coreClock k.core) k.taskid.toNat (bar + (x.ph + 1).toNat * 65536) else s

/-- Release checks of every barrier of a block. -/
def State.checkBars (s : State) (b : Nat) : State := (List.range 16).foldl (fun s bar => s.checkBar b bar) s

/-- The lane waits at BAR, BAR.WAIT, JOIN, WAITK or a DRAIN past its condition, with no recorded arrival due (16 R369); a wait at
BAR.ARV is none of these. -/
def Block.laneStuck (k : Block) (t : Team) (L : Nat) : Bool :=
  (t.lane L).waitsAt fun w => match w with
    | .join _ _ => true
    | .waitk _ _ => true
    | .phase _ => true
    | .barWait _ => true
    | .arrive kind b _ => kind != .arv && (k.bar b).arrived (t.thread L)
    | _ => false

/-- A block is in wait deadlock (16 R369). -/
def State.waitDead (s : State) (b : Nat) : Bool :=
  let k := s.block b
  let ts := k.teams.map s.team
  (ts.any fun t => t.live != []) && (ts.all fun t => !t.parked) &&
  (ts.all fun t => t.live.all (k.laneStuck t)) &&
  ((List.range 16).all fun bar => !s.barComplete b bar) &&
  ts.all fun t => (List.range 12).all fun n => t.maskFrees n == []

/-- Mask deadlock and wait deadlock stop the block (08 R214, 16 R369). -/
def State.checkDead (s : State) (tn : Nat) : State :=
  let t := s.team tn
  let k := s.block t.block
  if k.place == .running && t.maskDead then
    s.stopBlock t.block { reason := 3, core := k.core, team := t.index }
  else if k.place == .running && s.waitDead t.block then
    s.stopBlock t.block { reason := 4, core := k.core }
  else s

/-- All release checks of a team's masks and its block's barriers, at an event other than an instruction's own. -/
def State.recheck (s : State) (tn : Nat) : State :=
  (((s.checkMasks tn (List.range 12)).checkBars (s.team tn).block)).checkDead tn

/-! ### The frame of an instruction (06 R165; 07 R176; 08 R202, R203) -/

/-- What a meaning sees: the issue, the team, its block and node as before the instruction, and the lanes in Active that
passed rows 1 to 10 of R165. -/
structure Ctx where
  iss : Issue
  team : Team
  block : Block
  node : Node
  form : Form
  act : List Nat

/-- What a meaning answers. -/
structure Effect where
  /-- The state with the effect on registers, memory and engines. -/
  st : State
  /-- Lanes that fault at row 11. -/
  faults : List (Nat × FaultInfo) := []
  /-- Lanes that transfer, with their targets. -/
  jumps : List (Nat × Dbl) := []
  /-- Lanes that return from a handler. -/
  rets : List Nat := []
  /-- Lanes that enter WAITING. -/
  waits : List (Nat × Wait) := []
  /-- Lanes that end. -/
  exits : List Nat := []
  /-- Lanes whose pending predicate becomes 0. -/
  off : List Nat := []
  /-- Divergence order (08 R210). -/
  order : List Dbl := []
  /-- What keeps the path from issuing. -/
  hold : Hold := .none
  /-- Masks whose release checks run. -/
  masks : List Nat := []
  /-- Lanes changed state: deadlock is examined. -/
  check : Bool := false
  /-- Barriers' release checks run. -/
  bars : Bool := false
  /-- The path cannot issue (05 R127): nothing of the instruction happens. -/
  stall : Bool := false

/-- The lowest feature bit that an instruction needs and FEATREQ lacks (06 R165 row 8). -/
def featMissing (f : Form) (featreq : Dbl) : Option Int :=
  lowest ((f.feats.filter fun b => !featreq.getLsbD b).map fun (b : Nat) => (b : Int))

/-- System register that SREAD or SWRITE names, when it is of supervisor level (05 R144). -/
def privNumber (f : Form) : Option Nat :=
  if f.a.kind = .sysRead && sysSupervisor f.a.field.toNat then some f.a.field.toNat
  else if f.d.kind = .sysWrite && sysSupervisor f.d.field.toNat then some f.d.field.toNat
  else none

/-- The lowest index of the first kind of operand that over-reaches its allotment, with its fault code (02 R45). -/
def allotFault (t : Team) (L : Nat) (f : Form) (nd : Node) : Option FaultInfo :=
  let mk (c : Nat) (i : Int) : FaultInfo := { code := c, info := BitVec.ofInt 32 i }
  match regBeyond t L f nd.regs with
  | some i => some (mk codeRegbound i)
  | none =>
    match kindBeyond f .acc nd.accs with
    | some i => some (mk codeRegbound i)
    | none =>
      match kindBeyond f .k nd.masks with
      | some i => some (mk codeBarbound i)
      | none =>
        match kindBeyond f .bar nd.bars with
        | some i => some (mk codeBarbound i)
        | none => none

/-- Rows 6 to 10 of 06 R165 for an Active lane, and the ALIGN fault of an odd indirect pair (05 R140), whose TADDR the
manual does not state. (Log 39, DEDUCED; log 41, DESIGN CHOICE.) -/
def rowFault (s : State) (t : Team) (nd : Node) (wf : Bool) (f : Form) (word : Word) (L : Nat) : Option FaultInfo :=
  if !wf then some { code := codeIllegal, info := word }
  else
    match featMissing f nd.featreq with
    | some i => some { code := codeFeature, info := BitVec.ofInt 32 i }
    | none =>
      match (if (t.lane L).trap then none else privNumber f) with
      | some n => some { code := 0x17, info := BitVec.ofNat 32 n }
      | none =>
        match allotFault t L f nd with
        | some e => some e
        | none =>
          if oddPair t L f then some { code := codeAlign, addr := Config.freeDbl s.stamp L } else none

/-- A lane of the issue group after the instruction, unless it faults: its predicate is 1 again (08 R203), and it waits,
ends, returns, transfers, or goes to the next PC. -/
def Lane.after (l : Lane) (pc next : Dbl) (e : Effect) (L : Nat) : Lane :=
  let l := { l with pend := !e.off.contains L }
  if e.exits.contains L then { l with st := .exited, watch := .none, trap := false }
  else if e.rets.contains L then l.tret
  else match e.waits.lookup L with
    | some w => { l with st := .waiting w }
    | none =>
      match e.jumps.lookup L with
      | some d => { l with pc := d, arrival := .transfer pc, hold := e.hold }
      | none => { l.flow next with hold := e.hold }

/-- Insert a lane's fault in ascending lane order. -/
def insertFault (x : Nat × FaultInfo) (l : List (Nat × FaultInfo)) : List (Nat × FaultInfo) :=
  match l with
  | [] => [x]
  | y :: r => if x.1 < y.1 then x :: y :: r else y :: insertFault x r

/-- Complete an issue: lanes move, the issue is counted, faults are taken, release checks run. An instruction that cannot
issue, or that waits for a page walk, changes nothing else than that there is no issue any more. -/
def State.finish (s0 : State) (iss : Issue) (rows : List (Nat × FaultInfo)) (e : Effect) : State :=
  let faults := (rows ++ e.faults).foldl (fun l x => insertFault x l) []
  match faults.find? fun x => x.2.code == 0 with
  | some _ => { s0.waitAll iss.team faults with cur := none }
  | none =>
    if e.stall then { s0 with cur := none }
    else
      let next := nextPc iss.pc iss.len
      let t := e.st.team iss.team
      let t := t.mapLanes (laneList.filter iss.group.contains) fun L l =>
        if (faults.lookup L).isSome then { l with pend := true } else l.after iss.pc next e L
      let there (p : Dbl) : Bool := iss.group.any fun L => (t.lane L).isReady && (t.lane L).pc == p
      let t := t.countIssue.split iss.pc ((if e.order = [] then [next] else e.order).filter there)
      let s := e.st.setTeam iss.team t
      let s := if faults == [] then s else s.dropAnswers iss.team (faults.map (·.1))
      let s := s.takeFaults iss.team faults iss.pc next
      let s := s.checkMasks iss.team e.masks
      let s := if e.bars then s.checkBars t.block else s
      if e.check then s.checkDead iss.team else s

/-- Execute an instruction for an issue group (06 R165; 07 R176): the lanes whose predicate is 1 and that pass rows 6 to 10
are handed to the meaning. -/
def State.issueInstr (s : State) (iss : Issue) (i : Instr) (body : Ctx → Effect) : State :=
  let t := s.team iss.team
  let nd := s.nodeOf t.block
  let f := i.form
  let cand := laneList.filter fun L => iss.group.contains L && (t.lane L).pend
  let wf := i.wf
  let rows := cand.filterMap fun L => (rowFault s t nd wf f iss.word L).map fun e => (L, e)
  let act := cand.filter fun L => (rows.lookup L).isNone
  s.finish iss rows (body { iss := iss, team := t, block := s.block t.block, node := nd, form := f, act := act })

/-- Run an instruction of the main set for the current issue. -/
def runInstr (i : Instr) (s : State) (body : Ctx → Effect) : Host.Outcome State Fault Refusal :=
  match s.cur with
  | none => .fault .noIssuer
  | some iss => .next (s.issueInstr iss i body)

/-- The common form of a register instruction (07 R176): for each Active lane, `f` gives the team after the lane's writes,
from the team before the instruction and the team so far. -/
def laneInstr (i : Instr) (s : State) (f : Ctx → Nat → Team → Team) : Host.Outcome State Fault Refusal :=
  runInstr i s fun c => { st := s.setTeam c.iss.team (c.act.foldl (fun t L => f c L t) c.team) }

/-- An instruction that acts once for its team does nothing when no lane is Active. -/
def teamEffect (s : State) (c : Ctx) (f : Nat → Effect) : Effect :=
  match c.act with
  | [] => { st := s }
  | L :: _ => f L

/-- Faults for every Active lane. -/
def faultAll (s : State) (c : Ctx) (e : FaultInfo) : Effect := { st := s, faults := c.act.map fun L => (L, e) }

/-- An event of a thread that needs `n` log entries (18 R415): LOGFULL, or at supervisor level a wait (code 0).
(Log 22, DEDUCED.) -/
def State.logNeed (s : State) (tn L : Nat) (die : Nat) (k : LogKind) (n : Nat) : Option FaultInfo :=
  let t := s.team tn
  if !s.det t.block then none
  else if (t.lane L).trap then
    (if n ≤ s.roomLeft die k then none else some { code := 0 })
  else if s.logRoom die k n then none
  else some { code := 0x14, reg := die, info := match k with | .yard => 0 | .order => 1 }

/-- The lanes of an instruction that find a memory-order log without room for all its entries (18 R415): LOGFULL, or a wait at supervisor
level. `ls` holds for each lane the dies of its own entries, and the target that it reaches: an apply of its line has a BATCH. -/
def State.logFaults (s : State) (c : Ctx) (ls : List (Nat × List Nat × Target)) : List (Nat × FaultInfo) :=
  if !s.det c.team.block then []
  else
    let line (t : Target) : List Nat := match t with | .hbm p => [p / 64] | _ => []
    let need := ls.flatMap (·.2.1) ++ s.batchDies (ls.flatMap fun x => line x.2.2).eraseDups
    ls.filterMap fun x =>
      (((x.2.1 ++ s.batchDies (line x.2.2)).filterMap fun d =>
        s.logNeed c.iss.team x.1 d .order (need.filter (· == d)).length).head?).map fun e => (x.1, e)

end Sys2Proof.Machine
end

