-- ==== Sys2Proof/Machine/Graph.lean ====
section
/-! DEFINITION. Graph objects: reading, validation and the copy in Yard SRAM (02 R39 to R50, R53; 05 R131). -/
namespace Sys2Proof.Machine

/-- Graph statuses (02 R42). -/
def gTrans := 1
/-- GMAGIC. -/
def gMagic := 2
/-- GSIZE. -/
def gSize := 3
/-- GTYPE. -/
def gType := 4
/-- GNODE. -/
def gNode := 5
/-- GSUCC. -/
def gSucc := 6
/-- GFEAT. -/
def gFeat := 7
/-- GQUOTA. -/
def gQuota := 8

/-- Every page of `n` bytes from `a` passes the checks of a device access (09 R432); a page that maps the doorbell aperture counts
as one that cannot be accessed. (Log 127, DESIGN CHOICE.) -/
def State.devPagesOk (s : State) (f : Nat) (kind : AccessKind) (a n : Nat) : Bool :=
  n == 0 || (List.range ((a + n - 1) / 4096 + 1 - a / 4096)).all fun i =>
    match s.devByte f kind (max a ((a / 4096 + i) * 4096)) with
    | .ok (.door _) => false
    | .ok _ => true
    | .error _ => false

/-- A field of the object at `base`. -/
def State.graphField (s : State) (f base off n : Nat) : Nat := (s.devRead f (base + off) n).getD 0

/-- A node header and its successor list, as copied (02 R43, R50). (Log 56, DEDUCED.) -/
def State.graphNode (s : State) (f base off : Nat) : Node :=
  let w (o n : Nat) := s.graphField f base (off + o) n
  let cnt := natBits (w 0x34 4) 11 0
  let succoff := w 0x30 4
  { code := BitVec.ofNat 64 (w 0 8), traptab := BitVec.ofNat 64 (w 8 8), featreq := BitVec.ofNat 64 (w 0x10 8),
    vaultb := w 0x18 4, privb := w 0x1C 4, shape := BitVec.ofNat 32 (w 0x20 4), block := BitVec.ofNat 32 (w 0x24 4),
    stall := BitVec.ofNat 32 (w 0x28 4), vers := BitVec.ofNat 32 (w 0x2C 4),
    succs := (List.range cnt).map fun i => BitVec.ofNat 32 (s.graphField f base (succoff + 4 * i) 4) }

/-- The header rules of 02 R42: counts, offsets and parts within OBJSIZE. -/
def State.graphSizes (s : State) (f base : Nat) : Bool :=
  let w (o : Nat) := s.graphField f base o 4
  let nodes := natBits (w 8) 12 0
  let types := natBits (w 0xC) 8 0
  let size := w 0x18
  1 ≤ nodes && nodes ≤ 4096 && 1 ≤ types && types ≤ 256 && w 0x10 % 64 == 0 && w 0x14 % 8 == 0 && size % 64 == 0 &&
  64 ≤ size && size ≤ 0x1000000 && w 0x10 + 64 * nodes ≤ size && w 0x14 + 8 * types ≤ size &&
  (List.range nodes).all fun i =>
    let b := w 0x10 + 64 * i
    let cnt := natBits (w (b + 0x34)) 11 0
    cnt == 0 || w (b + 0x30) + 4 * cnt ≤ size

/-- A record type entry keeps 02 R48. -/
def typeOk (e : Nat) : Bool :=
  natBits e 63 24 == 0 && natBits e 7 4 == 0 && natBits e 23 8 / 2 ^ (e % 16 + 1) == 0

/-- A record node's type index and record size agree with the type table (02 R43). -/
def Node.typeMatch (n : Node) (types : List Dbl) : Bool :=
  n.depnode || match types[n.rtype]? with
    | some t => natBits t.toNat 3 0 == natBits n.block.toNat 13 10
    | none => false

/-- The limits of a node header (02 R43, R44, R47; 04 R109; 05 R131), beyond its reserved words. -/
def Node.limitsOk (n : Node) : Bool :=
  n.code.toNat < 2 ^ 56 && n.code.toNat % 4 == 0 && n.traptab.toNat % 64 == 0 && n.traptab.toNat < 2 ^ 56 &&
  natBits n.featreq.toNat 63 13 == 0 && n.vaultb % 256 == 0 && n.vaultb ≤ 0x200000 && n.privb % 16 == 0 &&
  n.privb ≤ 0x10000000 && natBits n.shape.toNat 31 25 == 0 && n.accs ≤ 4 && n.bars ≤ 16 && n.masks ≤ 12 &&
  16 ≤ n.regs && n.regs ≤ 512 && natBits n.block.toNat 31 25 == 0 && n.tprl ≤ 6 && n.threads ≤ 1024 &&
  (n.depnode || (n.rpb ≤ n.cap && n.rsize / 4 + 2 ≤ n.regs)) &&
  natBits n.vers.toNat 31 13 == 0 &&
  (if n.versioned then 1 ≤ n.vbudget && n.vbudget ≤ 4096 && n.featreq.getLsbD 7 else n.vbudget == 0) &&
  (n.threads + 63) / 64 * n.accs ≤ 8

/-- Reserved bits of the graph header, of the node headers' words and their offsets' alignment (02 R40, R42, R43).
(Log 56, DEDUCED.) -/
def State.graphReserved (s : State) (f base nodes : Nat) : Bool :=
  let w (o : Nat) := s.graphField f base o 4
  natBits (w 4) 31 16 == 0 && natBits (w 8) 31 13 == 0 && natBits (w 0xC) 31 9 == 0 &&
  ((List.range 9).all fun i => w (0x1C + 4 * i) == 0) &&
  (List.range nodes).all fun i =>
    let b := w 0x10 + 64 * i
    natBits (w (b + 0x34)) 31 12 == 0 && w (b + 0x38) == 0 && w (b + 0x3C) == 0 &&
    (natBits (w (b + 0x34)) 11 0 == 0 || w (b + 0x30) % 4 == 0)

/-- A successor entry's target node. -/
def succNode (e : Word) : Nat := natBits e.toNat 11 0
/-- REMOTE of a successor entry. -/
def succRemote (e : Word) : Bool := e.getLsbD 31
/-- DEPEDGE of a successor entry. -/
def succDep (e : Word) : Bool := e.getLsbD 30

/-- One successor entry keeps 02 R50. -/
def succOk (nodes : List Node) (e : Word) : Bool :=
  natBits e.toNat 29 22 == 0 && !(succRemote e && succDep e) && (succRemote e || natBits e.toNat 21 12 == 0) &&
  (succRemote e || match nodes[succNode e]? with
    | some n => n.depnode == succDep e
    | none => false)

/-- No entry twice in a list. -/
def noRepeats (l : List Word) : Bool :=
  match l with
  | [] => true
  | e :: r => !r.contains e && noRepeats r

/-- Targets of a node's dependency edges. -/
def Node.depTargets (n : Node) : List Nat := (n.succs.filter fun e => succDep e && !succRemote e).map succNode
/-- Targets of a node's local record edges. -/
def Node.recTargets (n : Node) : List Nat := (n.succs.filter fun e => !succDep e && !succRemote e).map succNode

/-- Remove, `k` times, the nodes that no remaining node's dependency edge targets. -/
def depPeel (nodes : List Node) (alive : List Nat) (k : Nat) : List Nat :=
  match k with
  | 0 => alive
  | j + 1 =>
    depPeel nodes (alive.filter fun i => alive.any fun a => (nodes.getD a {}).depTargets.contains i) j

/-- Validate the graph object at `base` on behalf of function `f`, and copy it (02 R41, R42): the copy, or the lowest
nonzero status. (Log 56, DEDUCED.) -/
def State.validateGraph (s : State) (f base : Nat) : Except Nat Graph :=
  let w (o n : Nat) := s.graphField f base o n
  if base % 64 ≠ 0 || 2 ^ 56 < base + 64 || !s.devPagesOk f .read base 64 then .error gTrans
  else
    let ext := max 64 (min (w 0x18 4) 0x1000000)
    if 2 ^ 56 < base + ext || !s.devPagesOk f .read base ext then .error gTrans
    else if w 0 4 ≠ 0x3152475A || natBits (w 4 4) 15 0 ≠ 1 then .error gMagic
    else if !s.graphSizes f base then .error gSize
    else
      let count := natBits (w 8 4) 12 0
      let types := (List.range (natBits (w 0xC 4) 8 0)).map fun i => BitVec.ofNat 64 (w (w 0x14 4 + 8 * i) 8)
      let nodes := (List.range count).map fun i => s.graphNode f base (w 0x10 4 + 64 * i)
      if !(types.all fun t => typeOk t.toNat) || !(nodes.all fun n => n.typeMatch types) then .error gType
      else if !(nodes.all Node.limitsOk) || !s.graphReserved f base count then .error gNode
      else if !(nodes.all fun n => noRepeats n.succs && n.succs.all (succOk nodes)) ||
              depPeel nodes (List.range count) count != [] then .error gSucc
      else if nodes.any fun n => n.featreq.toNat % 2 ^ 13 &&& 0x1FFF != n.featreq.toNat % 2 ^ 13 then .error gFeat
      else .ok { nodes := nodes, types := types }

/-! ### Cycle groups (04 R108) -/

/-- Nodes reached from a list by one record edge: those of successor lists, and EMIT.SELF's where DEPTH is 1 or more. -/
def Graph.recStep (g : Graph) (i : Nat) : List Nat :=
  let n := g.nodes.getD i {}
  n.recTargets ++ if 1 ≤ n.depth && !n.depnode then [i] else []

/-- Add to a list the nodes that `k` rounds of record edges reach. -/
def Graph.grow (g : Graph) (l : List Nat) (k : Nat) : List Nat :=
  match k with
  | 0 => l
  | j + 1 => g.grow (l.foldl (fun acc i => (g.recStep i).foldl (fun acc t => if acc.contains t then acc else acc ++ [t]) acc) l) j

/-- Nodes that a chain of one or more record edges reaches from node `i`. -/
def Graph.reaches (g : Graph) (i : Nat) : List Nat := g.grow ((g.recStep i).eraseDups) g.nodes.length

/-- The cycle group of node `i`. -/
def Graph.cycleGroup (g : Graph) (i : Nat) : List Nat := (g.reaches i).filter fun m => (g.reaches m).contains i

end Sys2Proof.Machine
end

