-- ==== Sys2Proof/Decode.lean ====
section
/-! DEFINITION. Decoding and encoding of the three instruction sets of the ZX4 (R149, R157 to R168, R86, R350).

`decodeSlots` reads an instruction of the main set from the slot it starts in and the two that follow; an unassigned
opcode or a field outside what the entry allows decodes to nothing, which execution faults ILLEGAL (rows 6 and 7 of
R165). `decodeWalk` reads a walk instruction and `decodeNpb` a policy instruction. `encode` is written from the same
tables of the spec. -/
namespace Sys2Proof

/-- Code of a floating-point format in MOD and in OP10 (R166, R167). -/
def FFmt.code : FFmt → Nat
  | .f32 => 0 | .f16 => 1 | .bf16 => 2 | .f16x2 => 3

/-- The encoding of an instruction: its format, its opcode (and MOD), its fields. -/
inductive Enc where
  | s32 (op8 mod : Nat) (o : S32)
  | l64 (op10 : Nat) (o : L64)
  | m64 (op10 : Nat) (o : M64)
  | x96 (op10 : Nat) (o : X96)
  | walk (op : Nat) (o : WalkOp)
  | npb (op : Nat) (o : NpbOp)
  /-- The row has no encoding. -/
  | none
  deriving DecidableEq, Repr

/-- A table entry whose instruction carries the fields. -/
def all {α : Type} (f : α → Instr) (o : α) : Option Instr := some (f o)

/-- A table entry of an instruction whose every field must be zero. -/
def bare {α : Type} [DecidableEq α] (z : α) (i : Instr) (o : α) : Option Instr := if o = z then some i else none

/-- Format and opcode of every row (R166 to R168, R351, R87). -/
def Instr.enc : Instr → Enc
  | .ret o => .s32 0x02 0 o
  | .trap o => .s32 0x04 0 o
  | .bar o => .s32 0x05 0 o
  | .barArv o => .s32 0x05 1 o
  | .barWait o => .s32 0x05 2 o
  | .drain o => .s32 0x06 0 o
  | .waitw o => .s32 0x08 0 o
  | .twaitAny o => .s32 0x0A 0 o
  | .twaitAll o => .s32 0x0B 0 o
  | .tfind o => .s32 0x0C 0 o
  | .waitb o => .s32 0x0D 0 o
  | .pred o => .s32 0x0F 0 o
  | .predNot o => .s32 0x0F 1 o
  | .sread o => .s32 0x10 0 o
  | .swrite o => .s32 0x11 0 o
  | .wget o => .s32 0x12 0 o
  | .wset o => .s32 0x13 0 o
  | .xset o => .s32 0x14 0 o
  | .xget o => .s32 0x15 0 o
  | .mov o => .s32 0x16 0 o
  | .movB64 o => .s32 0x17 0 o
  | .notV o => .s32 0x18 0 o
  | .negS32 o => .s32 0x19 0 o
  | .absS32 o => .s32 0x1A 0 o
  | .popc o => .s32 0x1B 0 o
  | .clz o => .s32 0x1C 0 o
  | .ctz o => .s32 0x1D 0 o
  | .brev o => .s32 0x1E 0 o
  | .enrol o => .s32 0x20 0 o
  | .join o => .s32 0x21 0 o
  | .leave o => .s32 0x22 0 o
  | .waitk o => .s32 0x23 0 o
  | .strike o => .s32 0x24 0 o
  | .kmov o => .s32 0x25 0 o
  | .knot o => .s32 0x26 0 o
  | .kand o => .s32 0x27 0 o
  | .kor o => .s32 0x28 0 o
  | .kxor o => .s32 0x29 0 o
  | .kandn o => .s32 0x2A 0 o
  | .kact o => .s32 0x2B 0 o
  | .kpop o => .s32 0x2C 0 o
  | .kget o => .s32 0x2D 0 o
  | .kset o => .s32 0x2E 0 o
  | .fabs f o => .s32 0x40 f.code o
  | .fneg f o => .s32 0x41 f.code o
  | .fclass f o => .s32 0x42 f.code o
  | .frcp f o => .s32 0x43 f.code o
  | .fsqrt f o => .s32 0x44 f.code o
  | .frsq f o => .s32 0x45 f.code o
  | .fexp2 f o => .s32 0x46 f.code o
  | .flog2 f o => .s32 0x47 f.code o
  | .fsin f o => .s32 0x48 f.code o
  | .fcos f o => .s32 0x49 f.code o
  | .ftanh f o => .s32 0x4A f.code o
  | .addS32 o => .l64 0x10 o
  | .addN32 o => .l64 0x11 o
  | .subS32 o => .l64 0x12 o
  | .subN32 o => .l64 0x13 o
  | .mul o => .l64 0x14 o
  | .mulhiS32 o => .l64 0x15 o
  | .mulhiN32 o => .l64 0x16 o
  | .mad o => .l64 0x17 o
  | .divS32 o => .l64 0x18 o
  | .divN32 o => .l64 0x19 o
  | .remS32 o => .l64 0x1A o
  | .remN32 o => .l64 0x1B o
  | .minS32 o => .l64 0x1C o
  | .minN32 o => .l64 0x1D o
  | .maxS32 o => .l64 0x1E o
  | .maxN32 o => .l64 0x1F o
  | .andV o => .l64 0x20 o
  | .orV o => .l64 0x21 o
  | .xorV o => .l64 0x22 o
  | .andn o => .l64 0x23 o
  | .shl o => .l64 0x24 o
  | .shr o => .l64 0x25 o
  | .sar o => .l64 0x26 o
  | .rot o => .l64 0x27 o
  | .bfxS32 o => .l64 0x28 o
  | .bfxN32 o => .l64 0x29 o
  | .bfi o => .l64 0x2A o
  | .sel o => .l64 0x2B o
  | .cmpS32 o => .l64 0x2C o
  | .cmpN32 o => .l64 0x2D o
  | .cmpS64 o => .l64 0x2E o
  | .cmpN64 o => .l64 0x2F o
  | .addS64 o => .l64 0x30 o
  | .addN64 o => .l64 0x31 o
  | .subS64 o => .l64 0x32 o
  | .subN64 o => .l64 0x33 o
  | .mulB64 o => .l64 0x34 o
  | .adda o => .l64 0x35 o
  | .shla o => .l64 0x36 o
  | .divS64 o => .l64 0x38 o
  | .divN64 o => .l64 0x39 o
  | .remS64 o => .l64 0x3A o
  | .remN64 o => .l64 0x3B o
  | .minS64 o => .l64 0x3C o
  | .minN64 o => .l64 0x3D o
  | .maxS64 o => .l64 0x3E o
  | .maxN64 o => .l64 0x3F o
  | .addS32X96 o => .x96 0x10 o
  | .addN32X96 o => .x96 0x11 o
  | .subS32X96 o => .x96 0x12 o
  | .subN32X96 o => .x96 0x13 o
  | .mulX96 o => .x96 0x14 o
  | .mulhiS32X96 o => .x96 0x15 o
  | .mulhiN32X96 o => .x96 0x16 o
  | .madX96 o => .x96 0x17 o
  | .divS32X96 o => .x96 0x18 o
  | .divN32X96 o => .x96 0x19 o
  | .remS32X96 o => .x96 0x1A o
  | .remN32X96 o => .x96 0x1B o
  | .minS32X96 o => .x96 0x1C o
  | .minN32X96 o => .x96 0x1D o
  | .maxS32X96 o => .x96 0x1E o
  | .maxN32X96 o => .x96 0x1F o
  | .andX96 o => .x96 0x20 o
  | .orX96 o => .x96 0x21 o
  | .xorX96 o => .x96 0x22 o
  | .andnX96 o => .x96 0x23 o
  | .shlX96 o => .x96 0x24 o
  | .shrX96 o => .x96 0x25 o
  | .sarX96 o => .x96 0x26 o
  | .rotX96 o => .x96 0x27 o
  | .bfxS32X96 o => .x96 0x28 o
  | .bfxN32X96 o => .x96 0x29 o
  | .bfiX96 o => .x96 0x2A o
  | .selX96 o => .x96 0x2B o
  | .cmpS32X96 o => .x96 0x2C o
  | .cmpN32X96 o => .x96 0x2D o
  | .cmpS64X96 o => .x96 0x2E o
  | .cmpN64X96 o => .x96 0x2F o
  | .addS64X96 o => .x96 0x30 o
  | .addN64X96 o => .x96 0x31 o
  | .subS64X96 o => .x96 0x32 o
  | .subN64X96 o => .x96 0x33 o
  | .mulB64X96 o => .x96 0x34 o
  | .addaX96 o => .x96 0x35 o
  | .shlaX96 o => .x96 0x36 o
  | .divS64X96 o => .x96 0x38 o
  | .divN64X96 o => .x96 0x39 o
  | .remS64X96 o => .x96 0x3A o
  | .remN64X96 o => .x96 0x3B o
  | .minS64X96 o => .x96 0x3C o
  | .minN64X96 o => .x96 0x3D o
  | .maxS64X96 o => .x96 0x3E o
  | .maxN64X96 o => .x96 0x3F o
  | .addi o => .l64 0x40 o
  | .andi o => .l64 0x41 o
  | .ori o => .l64 0x42 o
  | .xori o => .l64 0x43 o
  | .shli o => .l64 0x44 o
  | .shri o => .l64 0x45 o
  | .sari o => .l64 0x46 o
  | .cmpiS32 o => .l64 0x47 o
  | .addai o => .l64 0x48 o
  | .cmpiN32 o => .l64 0x49 o
  | .movi o => .l64 0x4A o
  | .lit o => .x96 0x1E0 o
  | .litB64 o => .x96 0x1E1 o
  | .shflIdx o => .l64 0x50 o
  | .shflUp o => .l64 0x51 o
  | .shflDown o => .l64 0x52 o
  | .shflXor o => .l64 0x53 o
  | .bcast o => .l64 0x54 o
  | .voteAny o => .l64 0x55 o
  | .voteAll o => .l64 0x56 o
  | .voteBal o => .l64 0x57 o
  | .matchLanes o => .l64 0x58 o
  | .redstep o => .l64 0x59 o
  | .scanstep o => .l64 0x5A o
  | .fadd f o => .l64 (0x80 + f.code) o
  | .fsub f o => .l64 (0x84 + f.code) o
  | .fmul f o => .l64 (0x88 + f.code) o
  | .ffma f o => .l64 (0x8C + f.code) o
  | .fmin f o => .l64 (0x90 + f.code) o
  | .fmax f o => .l64 (0x94 + f.code) o
  | .fcmp f o => .l64 (0x98 + f.code) o
  | .faddX96 f o => .x96 (0x80 + f.code) o
  | .fsubX96 f o => .x96 (0x84 + f.code) o
  | .fmulX96 f o => .x96 (0x88 + f.code) o
  | .ffmaX96 f o => .x96 (0x8C + f.code) o
  | .fminX96 f o => .x96 (0x90 + f.code) o
  | .fmaxX96 f o => .x96 (0x94 + f.code) o
  | .fcmpX96 f o => .x96 (0x98 + f.code) o
  | .cvt o => .l64 0xA0 o
  | .bra o => .l64 0xC0 o
  | .brnz o => .l64 0xC1 o
  | .brz o => .l64 0xC2 o
  | .brk o => .l64 0xC3 o
  | .call o => .l64 0xC4 o
  | .braLong o => .x96 0xC0 o
  | .brnzLong o => .x96 0xC1 o
  | .brzLong o => .x96 0xC2 o
  | .brkLong o => .x96 0xC3 o
  | .callLong o => .x96 0xC4 o
  | .jmp o => .l64 0xC5 o
  | .callr o => .l64 0xC6 o
  | .jtab o => .l64 0xC7 o
  | .live o => .x96 0x1F0 o
  | .phint o => .x96 0x1F1 o
  | .waitc o => .x96 0x1F2 o
  | .ld o => .m64 0x200 o
  | .st o => .m64 0x201 o
  | .tld o => .m64 0x202 o
  | .watch o => .m64 0x203 o
  | .atomAdd o => .m64 0x204 o
  | .atomFadd o => .m64 0x205 o
  | .atomMin o => .m64 0x206 o
  | .atomMax o => .m64 0x207 o
  | .atomAnd o => .m64 0x208 o
  | .atomOr o => .m64 0x209 o
  | .atomXor o => .m64 0x20A o
  | .atomXchg o => .m64 0x20B o
  | .atomCas o => .m64 0x20C o
  | .cpy o => .l64 0x210 o
  | .cpy2d o => .x96 0x210 o
  | .updAdd o => .l64 0x211 o
  | .updMin o => .l64 0x212 o
  | .updMax o => .l64 0x213 o
  | .updclr o => .l64 0x214 o
  | .zscan o => .l64 0x215 o
  | .mxmF8 o => .l64 0x100 o
  | .mxmS2p8 o => .l64 0x101 o
  | .mxmH16 o => .l64 0x102 o
  | .mxmW o => .l64 0x103 o
  | .mxzero o => .l64 0x104 o
  | .mxrd o => .l64 0x105 o
  | .mxst o => .l64 0x106 o
  | .mxskip o => .l64 0x107 o
  | .nmv o => .l64 0x108 o
  | .walkStart o => .l64 0x110 o
  | .walkQuery o => .l64 0x111 o
  | .emit o => .l64 0x120 o
  | .emitReg o => .l64 0x120 o
  | .emitSelf o => .l64 0x121 o
  | .emitRemote o => .l64 0x122 o
  | .bootStageComplete _ => .none
  | .barrierArrival _ _ => .none
  | .homeAccess _ => .none
  | .acknowledgement _ => .none
  | .loadResult _ => .none
  | .pairAccept _ => .none
  | .scFloorReached _ => .none
  | .nop => .s32 0x00 0 ⟨0, 0⟩
  | .exit => .s32 0x01 0 ⟨0, 0⟩
  | .tret => .s32 0x03 0 ⟨0, 0⟩
  | .fenceAcq => .s32 0x07 1 ⟨0, 0⟩
  | .fenceRel => .s32 0x07 2 ⟨0, 0⟩
  | .fenceSc => .s32 0x07 3 ⟨0, 0⟩
  | .fenceTbl => .s32 0x07 4 ⟨0, 0⟩
  | .updflush => .s32 0x09 0 ⟨0, 0⟩
  | .cancelRun => .s32 0x0E 0 ⟨0, 0⟩
  | .cancelPhase => .s32 0x0E 1 ⟨0, 0⟩
  | .cancelJob => .s32 0x0E 2 ⟨0, 0⟩
  | .walkStop => .l64 0x112 ⟨0, 0, 0, 0, 0, 0⟩
  | .coldReset => .none
  | .warmReset => .none
  | .vfReset _ => .none
  | .thermalStep _ => .none
  | .thermalTrip _ => .none
  | .watchdogRestart => .none
  | .qcreate _ => .none
  | .qdestroy _ => .none
  | .policyload _ => .none
  | .fwstage => .none
  | .fwactivate _ => .none
  | .fwfuse => .none
  | .attest _ => .none
  | .tailWrite _ _ _ => .none
  | .doorbellBadWrite _ _ => .none
  | .queueReexamine _ => .none
  | .headMirrorWrite _ => .none
  | .slice _ => .none
  | .run _ => .none
  | .cancelPacketRun _ => .none
  | .cancelPacketPhase _ => .none
  | .cancelPacketJob _ => .none
  | .setctr _ => .none
  | .nopPacket _ => .none
  | .runAdmit _ => .none
  | .entryRecordAppend _ => .none
  | .partownWrite _ _ _ => .none
  | .quotaWrite _ _ _ => .none
  | .lofthbmWrite _ _ _ => .none
  | .ptrootWrite _ _ _ => .none
  | .invalidate _ _ => .none
  | .invalidationComplete => .none
  | .regionWrite _ _ _ _ => .none
  | .regionClearDone _ _ => .none
  | .preemptSaveFunction _ => .none
  | .preemptSaveJob _ _ => .none
  | .preemptResumeFunction _ => .none
  | .preemptResumeJob _ _ => .none
  | .cut _ => .none
  | .cutResume _ => .none
  | .readback => .none
  | .assistReply _ => .none
  | .assistTimeout _ => .none
  | .registerWrite _ _ _ _ _ => .none
  | .recordAppend _ => .none
  | .muster _ _ => .none
  | .musterTimeout _ _ => .none
  | .blockStart _ => .none
  | .stealable _ => .none
  | .steal _ _ => .none
  | .teamPark _ => .none
  | .teamResume _ => .none
  | .probeQuiet _ _ => .none
  | .blockRetire _ => .none
  | .trapEntry _ _ => .none
  | .logfullTimeout _ _ => .none
  | .lineFill _ _ _ => .none
  | .registerFill _ => .none
  | .fullSave _ => .none
  | .savedBlockResume _ _ => .none
  | .copyStart _ _ => .none
  | .copyComplete _ _ => .none
  | .waitwTimeout _ _ => .none
  | .zscanComplete _ => .none
  | .nmvComplete _ => .none
  | .mxstComplete _ => .none
  | .floorBroadcast => .none
  | .reserve _ => .none
  | .grant _ => .none
  | .refuse _ _ => .none
  | .hold _ => .none
  | .record _ => .none
  | .arrived _ _ => .none
  | .holdTimer => .none
  | .remoteTimeout _ => .none
  | .linkReset _ _ _ _ => .none
  | .uncorrectedEcc _ _ _ _ => .none
  | .yardMessageDropped _ => .none
  | .walkEnd => .walk 0x00 ⟨0, 0, 0, 0⟩
  | .walkMovi o => .walk 0x01 o
  | .walkAdd o => .walk 0x02 o
  | .walkSub o => .walk 0x03 o
  | .walkAddi o => .walk 0x04 o
  | .walkMul o => .walk 0x05 o
  | .walkDivu o => .walk 0x06 o
  | .walkRemu o => .walk 0x07 o
  | .walkAnd o => .walk 0x08 o
  | .walkXor o => .walk 0x09 o
  | .walkShli o => .walk 0x0A o
  | .walkShri o => .walk 0x0B o
  | .walkHash o => .walk 0x0C o
  | .walkLdi o => .walk 0x0D o
  | .walkLoop o => .walk 0x0E o
  | .walkLidx o => .walk 0x0F o
  | .walkBrz o => .walk 0x10 o
  | .walkBrnz o => .walk 0x11 o
  | .walkRow o => .walk 0x12 o
  | .walkRowm o => .walk 0x13 o
  | .walkCset o => .walk 0x14 o
  | .walkCld o => .walk 0x15 o
  | .walkRowl o => .walk 0x16 o
  | .walkMsk o => .walk 0x17 o
  | .walkFlush => .walk 0x18 ⟨0, 0, 0, 0⟩
  | .npbMovi o => .npb 0x01 o
  | .npbMovhi o => .npb 0x02 o
  | .npbMov o => .npb 0x03 o
  | .npbAdd o => .npb 0x04 o
  | .npbSub o => .npb 0x05 o
  | .npbAddi o => .npb 0x06 o
  | .npbAnd o => .npb 0x07 o
  | .npbOr o => .npb 0x08 o
  | .npbXor o => .npb 0x09 o
  | .npbShl o => .npb 0x0A o
  | .npbShr o => .npb 0x0B o
  | .npbMul o => .npb 0x0C o
  | .npbDivu o => .npb 0x0D o
  | .npbMinu o => .npb 0x0E o
  | .npbMaxu o => .npb 0x0F o
  | .npbSltu o => .npb 0x10 o
  | .npbLds o => .npb 0x11 o
  | .npbSts o => .npb 0x12 o
  | .npbLdv o => .npb 0x13 o
  | .npbBeq o => .npb 0x14 o
  | .npbBne o => .npb 0x15 o
  | .npbBltu o => .npb 0x16 o
  | .npbLoop o => .npb 0x17 o
  | .npbRet => .npb 0x18 ⟨0, 0, 0, 0⟩

/-- S32 opcodes: OP8 · 16 + MOD (R166). Part 1. -/
def s32Table0 : List (Nat × (S32 → Option Instr)) :=
  [(0x00, bare ⟨0, 0⟩ .nop),
   (0x10, bare ⟨0, 0⟩ .exit),
   (0x20, all .ret),
   (0x30, bare ⟨0, 0⟩ .tret),
   (0x40, all .trap),
   (0x50, all .bar),
   (0x51, all .barArv),
   (0x52, all .barWait),
   (0x60, all .drain),
   (0x71, bare ⟨0, 0⟩ .fenceAcq),
   (0x72, bare ⟨0, 0⟩ .fenceRel),
   (0x73, bare ⟨0, 0⟩ .fenceSc),
   (0x74, bare ⟨0, 0⟩ .fenceTbl),
   (0x80, all .waitw),
   (0x90, bare ⟨0, 0⟩ .updflush),
   (0xA0, all .twaitAny),
   (0xB0, all .twaitAll),
   (0xC0, all .tfind),
   (0xD0, all .waitb),
   (0xE0, bare ⟨0, 0⟩ .cancelRun),
   (0xE1, bare ⟨0, 0⟩ .cancelPhase),
   (0xE2, bare ⟨0, 0⟩ .cancelJob),
   (0xF0, all .pred),
   (0xF1, all .predNot)]

/-- S32 opcodes: OP8 · 16 + MOD (R166). Part 2. -/
def s32Table1 : List (Nat × (S32 → Option Instr)) :=
  [(0x100, all .sread),
   (0x110, all .swrite),
   (0x120, all .wget),
   (0x130, all .wset),
   (0x140, all .xset),
   (0x150, all .xget),
   (0x160, all .mov),
   (0x170, all .movB64),
   (0x180, all .notV),
   (0x190, all .negS32),
   (0x1A0, all .absS32),
   (0x1B0, all .popc),
   (0x1C0, all .clz),
   (0x1D0, all .ctz),
   (0x1E0, all .brev),
   (0x200, all .enrol),
   (0x210, all .join),
   (0x220, all .leave),
   (0x230, all .waitk),
   (0x240, all .strike),
   (0x250, all .kmov),
   (0x260, all .knot),
   (0x270, all .kand),
   (0x280, all .kor)]

/-- S32 opcodes: OP8 · 16 + MOD (R166). Part 3. -/
def s32Table2 : List (Nat × (S32 → Option Instr)) :=
  [(0x290, all .kxor),
   (0x2A0, all .kandn),
   (0x2B0, all .kact),
   (0x2C0, all .kpop),
   (0x2D0, all .kget),
   (0x2E0, all .kset),
   (0x400, all (.fabs .f32)),
   (0x401, all (.fabs .f16)),
   (0x402, all (.fabs .bf16)),
   (0x403, all (.fabs .f16x2)),
   (0x410, all (.fneg .f32)),
   (0x411, all (.fneg .f16)),
   (0x412, all (.fneg .bf16)),
   (0x413, all (.fneg .f16x2)),
   (0x420, all (.fclass .f32)),
   (0x421, all (.fclass .f16)),
   (0x422, all (.fclass .bf16)),
   (0x423, all (.fclass .f16x2)),
   (0x430, all (.frcp .f32)),
   (0x431, all (.frcp .f16)),
   (0x432, all (.frcp .bf16)),
   (0x433, all (.frcp .f16x2)),
   (0x440, all (.fsqrt .f32)),
   (0x441, all (.fsqrt .f16))]

/-- S32 opcodes: OP8 · 16 + MOD (R166). Part 4. -/
def s32Table3 : List (Nat × (S32 → Option Instr)) :=
  [(0x442, all (.fsqrt .bf16)),
   (0x443, all (.fsqrt .f16x2)),
   (0x450, all (.frsq .f32)),
   (0x451, all (.frsq .f16)),
   (0x452, all (.frsq .bf16)),
   (0x453, all (.frsq .f16x2)),
   (0x460, all (.fexp2 .f32)),
   (0x461, all (.fexp2 .f16)),
   (0x462, all (.fexp2 .bf16)),
   (0x463, all (.fexp2 .f16x2)),
   (0x470, all (.flog2 .f32)),
   (0x471, all (.flog2 .f16)),
   (0x472, all (.flog2 .bf16)),
   (0x473, all (.flog2 .f16x2)),
   (0x480, all (.fsin .f32)),
   (0x481, all (.fsin .f16)),
   (0x482, all (.fsin .bf16)),
   (0x483, all (.fsin .f16x2)),
   (0x490, all (.fcos .f32)),
   (0x491, all (.fcos .f16)),
   (0x492, all (.fcos .bf16)),
   (0x493, all (.fcos .f16x2)),
   (0x4A0, all (.ftanh .f32)),
   (0x4A1, all (.ftanh .f16))]

/-- S32 opcodes: OP8 · 16 + MOD (R166). Part 5. -/
def s32Table4 : List (Nat × (S32 → Option Instr)) :=
  [(0x4A2, all (.ftanh .bf16)),
   (0x4A3, all (.ftanh .f16x2))]

/-- S32 opcodes: OP8 · 16 + MOD (R166). -/
def s32Table : List (Nat × (S32 → Option Instr)) := s32Table0 ++ s32Table1 ++ s32Table2 ++ s32Table3 ++ s32Table4

/-- L64 opcodes (R167). Part 1. -/
def l64Table0 : List (Nat × (L64 → Option Instr)) :=
  [(0x10, all .addS32),
   (0x11, all .addN32),
   (0x12, all .subS32),
   (0x13, all .subN32),
   (0x14, all .mul),
   (0x15, all .mulhiS32),
   (0x16, all .mulhiN32),
   (0x17, all .mad),
   (0x18, all .divS32),
   (0x19, all .divN32),
   (0x1A, all .remS32),
   (0x1B, all .remN32),
   (0x1C, all .minS32),
   (0x1D, all .minN32),
   (0x1E, all .maxS32),
   (0x1F, all .maxN32),
   (0x20, all .andV),
   (0x21, all .orV),
   (0x22, all .xorV),
   (0x23, all .andn),
   (0x24, all .shl),
   (0x25, all .shr),
   (0x26, all .sar),
   (0x27, all .rot)]

/-- L64 opcodes (R167). Part 2. -/
def l64Table1 : List (Nat × (L64 → Option Instr)) :=
  [(0x28, all .bfxS32),
   (0x29, all .bfxN32),
   (0x2A, all .bfi),
   (0x2B, all .sel),
   (0x2C, all .cmpS32),
   (0x2D, all .cmpN32),
   (0x2E, all .cmpS64),
   (0x2F, all .cmpN64),
   (0x30, all .addS64),
   (0x31, all .addN64),
   (0x32, all .subS64),
   (0x33, all .subN64),
   (0x34, all .mulB64),
   (0x35, all .adda),
   (0x36, all .shla),
   (0x38, all .divS64),
   (0x39, all .divN64),
   (0x3A, all .remS64),
   (0x3B, all .remN64),
   (0x3C, all .minS64),
   (0x3D, all .minN64),
   (0x3E, all .maxS64),
   (0x3F, all .maxN64),
   (0x40, all .addi)]

/-- L64 opcodes (R167). Part 3. -/
def l64Table2 : List (Nat × (L64 → Option Instr)) :=
  [(0x41, all .andi),
   (0x42, all .ori),
   (0x43, all .xori),
   (0x44, all .shli),
   (0x45, all .shri),
   (0x46, all .sari),
   (0x47, all .cmpiS32),
   (0x48, all .addai),
   (0x49, all .cmpiN32),
   (0x4A, all .movi),
   (0x50, all .shflIdx),
   (0x51, all .shflUp),
   (0x52, all .shflDown),
   (0x53, all .shflXor),
   (0x54, all .bcast),
   (0x55, all .voteAny),
   (0x56, all .voteAll),
   (0x57, all .voteBal),
   (0x58, all .matchLanes),
   (0x59, all .redstep),
   (0x5A, all .scanstep),
   (0x80, all (.fadd .f32)),
   (0x81, all (.fadd .f16)),
   (0x82, all (.fadd .bf16))]

/-- L64 opcodes (R167). Part 4. -/
def l64Table3 : List (Nat × (L64 → Option Instr)) :=
  [(0x83, all (.fadd .f16x2)),
   (0x84, all (.fsub .f32)),
   (0x85, all (.fsub .f16)),
   (0x86, all (.fsub .bf16)),
   (0x87, all (.fsub .f16x2)),
   (0x88, all (.fmul .f32)),
   (0x89, all (.fmul .f16)),
   (0x8A, all (.fmul .bf16)),
   (0x8B, all (.fmul .f16x2)),
   (0x8C, all (.ffma .f32)),
   (0x8D, all (.ffma .f16)),
   (0x8E, all (.ffma .bf16)),
   (0x8F, all (.ffma .f16x2)),
   (0x90, all (.fmin .f32)),
   (0x91, all (.fmin .f16)),
   (0x92, all (.fmin .bf16)),
   (0x93, all (.fmin .f16x2)),
   (0x94, all (.fmax .f32)),
   (0x95, all (.fmax .f16)),
   (0x96, all (.fmax .bf16)),
   (0x97, all (.fmax .f16x2)),
   (0x98, all (.fcmp .f32)),
   (0x99, all (.fcmp .f16)),
   (0x9A, all (.fcmp .bf16))]

/-- L64 opcodes (R167). Part 5. -/
def l64Table4 : List (Nat × (L64 → Option Instr)) :=
  [(0xA0, all .cvt),
   (0xC0, all .bra),
   (0xC1, all .brnz),
   (0xC2, all .brz),
   (0xC3, all .brk),
   (0xC4, all .call),
   (0xC5, all .jmp),
   (0xC6, all .callr),
   (0xC7, all .jtab),
   (0x100, all .mxmF8),
   (0x101, all .mxmS2p8),
   (0x102, all .mxmH16),
   (0x103, all .mxmW),
   (0x104, all .mxzero),
   (0x105, all .mxrd),
   (0x106, all .mxst),
   (0x107, all .mxskip),
   (0x108, all .nmv),
   (0x110, all .walkStart),
   (0x111, all .walkQuery),
   (0x112, bare ⟨0, 0, 0, 0, 0, 0⟩ .walkStop),
   (0x120, fun o => some (if o.imm.getLsbD 13 then .emitReg o else .emit o)),
   (0x121, all .emitSelf),
   (0x122, all .emitRemote)]

/-- L64 opcodes (R167). Part 6. -/
def l64Table5 : List (Nat × (L64 → Option Instr)) :=
  [(0x210, all .cpy),
   (0x211, all .updAdd),
   (0x212, all .updMin),
   (0x213, all .updMax),
   (0x214, all .updclr),
   (0x215, all .zscan)]

/-- L64 opcodes (R167). -/
def l64Table : List (Nat × (L64 → Option Instr)) := l64Table0 ++ l64Table1 ++ l64Table2 ++ l64Table3 ++ l64Table4 ++ l64Table5

/-- M64 opcodes (R167). -/
def m64Table : List (Nat × (M64 → Option Instr)) :=
  [(0x200, all .ld),
   (0x201, all .st),
   (0x202, all .tld),
   (0x203, all .watch),
   (0x204, all .atomAdd),
   (0x205, all .atomFadd),
   (0x206, all .atomMin),
   (0x207, all .atomMax),
   (0x208, all .atomAnd),
   (0x209, all .atomOr),
   (0x20A, all .atomXor),
   (0x20B, all .atomXchg),
   (0x20C, all .atomCas)]

/-- X96 opcodes (R168). Part 1. -/
def x96Table0 : List (Nat × (X96 → Option Instr)) :=
  [(0x10, all .addS32X96),
   (0x11, all .addN32X96),
   (0x12, all .subS32X96),
   (0x13, all .subN32X96),
   (0x14, all .mulX96),
   (0x15, all .mulhiS32X96),
   (0x16, all .mulhiN32X96),
   (0x17, all .madX96),
   (0x18, all .divS32X96),
   (0x19, all .divN32X96),
   (0x1A, all .remS32X96),
   (0x1B, all .remN32X96),
   (0x1C, all .minS32X96),
   (0x1D, all .minN32X96),
   (0x1E, all .maxS32X96),
   (0x1F, all .maxN32X96),
   (0x20, all .andX96),
   (0x21, all .orX96),
   (0x22, all .xorX96),
   (0x23, all .andnX96),
   (0x24, all .shlX96),
   (0x25, all .shrX96),
   (0x26, all .sarX96),
   (0x27, all .rotX96)]

/-- X96 opcodes (R168). Part 2. -/
def x96Table1 : List (Nat × (X96 → Option Instr)) :=
  [(0x28, all .bfxS32X96),
   (0x29, all .bfxN32X96),
   (0x2A, all .bfiX96),
   (0x2B, all .selX96),
   (0x2C, all .cmpS32X96),
   (0x2D, all .cmpN32X96),
   (0x2E, all .cmpS64X96),
   (0x2F, all .cmpN64X96),
   (0x30, all .addS64X96),
   (0x31, all .addN64X96),
   (0x32, all .subS64X96),
   (0x33, all .subN64X96),
   (0x34, all .mulB64X96),
   (0x35, all .addaX96),
   (0x36, all .shlaX96),
   (0x38, all .divS64X96),
   (0x39, all .divN64X96),
   (0x3A, all .remS64X96),
   (0x3B, all .remN64X96),
   (0x3C, all .minS64X96),
   (0x3D, all .minN64X96),
   (0x3E, all .maxS64X96),
   (0x3F, all .maxN64X96),
   (0x80, all (.faddX96 .f32))]

/-- X96 opcodes (R168). Part 3. -/
def x96Table2 : List (Nat × (X96 → Option Instr)) :=
  [(0x81, all (.faddX96 .f16)),
   (0x82, all (.faddX96 .bf16)),
   (0x83, all (.faddX96 .f16x2)),
   (0x84, all (.fsubX96 .f32)),
   (0x85, all (.fsubX96 .f16)),
   (0x86, all (.fsubX96 .bf16)),
   (0x87, all (.fsubX96 .f16x2)),
   (0x88, all (.fmulX96 .f32)),
   (0x89, all (.fmulX96 .f16)),
   (0x8A, all (.fmulX96 .bf16)),
   (0x8B, all (.fmulX96 .f16x2)),
   (0x8C, all (.ffmaX96 .f32)),
   (0x8D, all (.ffmaX96 .f16)),
   (0x8E, all (.ffmaX96 .bf16)),
   (0x8F, all (.ffmaX96 .f16x2)),
   (0x90, all (.fminX96 .f32)),
   (0x91, all (.fminX96 .f16)),
   (0x92, all (.fminX96 .bf16)),
   (0x93, all (.fminX96 .f16x2)),
   (0x94, all (.fmaxX96 .f32)),
   (0x95, all (.fmaxX96 .f16)),
   (0x96, all (.fmaxX96 .bf16)),
   (0x97, all (.fmaxX96 .f16x2)),
   (0x98, all (.fcmpX96 .f32))]

/-- X96 opcodes (R168). Part 4. -/
def x96Table3 : List (Nat × (X96 → Option Instr)) :=
  [(0x99, all (.fcmpX96 .f16)),
   (0x9A, all (.fcmpX96 .bf16)),
   (0xC0, all .braLong),
   (0xC1, all .brnzLong),
   (0xC2, all .brzLong),
   (0xC3, all .brkLong),
   (0xC4, all .callLong),
   (0x1E0, all .lit),
   (0x1E1, all .litB64),
   (0x1F0, all .live),
   (0x1F1, all .phint),
   (0x1F2, all .waitc),
   (0x210, all .cpy2d)]

/-- X96 opcodes (R168). -/
def x96Table : List (Nat × (X96 → Option Instr)) := x96Table0 ++ x96Table1 ++ x96Table2 ++ x96Table3

/-- Walk opcodes (R351). Part 1. -/
noncomputable def walkTable0 : List (Nat × (WalkOp → Option Instr)) :=
  [(0x00, bare ⟨0, 0, 0, 0⟩ .walkEnd),
   (0x01, all .walkMovi),
   (0x02, all .walkAdd),
   (0x03, all .walkSub),
   (0x04, all .walkAddi),
   (0x05, all .walkMul),
   (0x06, all .walkDivu),
   (0x07, all .walkRemu),
   (0x08, all .walkAnd),
   (0x09, all .walkXor),
   (0x0A, all .walkShli),
   (0x0B, all .walkShri),
   (0x0C, all .walkHash),
   (0x0D, all .walkLdi),
   (0x0E, all .walkLoop),
   (0x0F, all .walkLidx),
   (0x10, all .walkBrz),
   (0x11, all .walkBrnz),
   (0x12, all .walkRow),
   (0x13, all .walkRowm),
   (0x14, all .walkCset),
   (0x15, all .walkCld),
   (0x16, all .walkRowl),
   (0x17, all .walkMsk)]

/-- Walk opcodes (R351). Part 2. -/
noncomputable def walkTable1 : List (Nat × (WalkOp → Option Instr)) :=
  [(0x18, bare ⟨0, 0, 0, 0⟩ .walkFlush)]

/-- Walk opcodes (R351). -/
noncomputable def walkTable : List (Nat × (WalkOp → Option Instr)) := walkTable0 ++ walkTable1

/-- Policy opcodes (R87). -/
noncomputable def npbTable : List (Nat × (NpbOp → Option Instr)) :=
  [(0x01, all .npbMovi),
   (0x02, all .npbMovhi),
   (0x03, all .npbMov),
   (0x04, all .npbAdd),
   (0x05, all .npbSub),
   (0x06, all .npbAddi),
   (0x07, all .npbAnd),
   (0x08, all .npbOr),
   (0x09, all .npbXor),
   (0x0A, all .npbShl),
   (0x0B, all .npbShr),
   (0x0C, all .npbMul),
   (0x0D, all .npbDivu),
   (0x0E, all .npbMinu),
   (0x0F, all .npbMaxu),
   (0x10, all .npbSltu),
   (0x11, all .npbLds),
   (0x12, all .npbSts),
   (0x13, all .npbLdv),
   (0x14, all .npbBeq),
   (0x15, all .npbBne),
   (0x16, all .npbBltu),
   (0x17, all .npbLoop),
   (0x18, bare ⟨0, 0, 0, 0⟩ .npbRet)]

/-- An instruction whose fields are as its entry allows. -/
def keepWf (i : Option Instr) : Option Instr := i.filter Instr.wf

/-- Fields of an S32 word (R157). -/
def S32.ofWord (w : Word) : S32 := ⟨w.extractLsb' 10 9, w.extractLsb' 19 9⟩

/-- Fields of the 64 bits of an L64 instruction (R158). -/
def L64.ofBits (w : Dbl) : L64 :=
  ⟨w.extractLsb' 12 9, w.extractLsb' 21 9, w.extractLsb' 30 9, w.extractLsb' 39 9, w.extractLsb' 48 2,
   w.extractLsb' 50 14⟩

/-- Fields of the 64 bits of an M64 instruction (R162). -/
def M64.ofBits (w : Dbl) : M64 :=
  ⟨w.extractLsb' 12 9, w.extractLsb' 21 9, w.extractLsb' 30 24, w.extractLsb' 54 3, w.extractLsb' 57 2,
   w.extractLsb' 59 2, w.extractLsb' 61 1⟩

/-- Fields of a walk word (R350). -/
def WalkOp.ofWord (w : Word) : WalkOp :=
  ⟨w.extractLsb' 22 4, w.extractLsb' 18 4, w.extractLsb' 14 4, w.extractLsb' 0 14⟩

/-- Fields of a policy instruction (R86). -/
def NpbOp.ofBits (w : Dbl) : NpbOp :=
  ⟨w.extractLsb' 52 4, w.extractLsb' 48 4, w.extractLsb' 44 4, w.extractLsb' 0 32⟩

/-- The instruction in a one-slot word (R166). -/
def decodeS32 (w : Word) : Option Instr :=
  match s32Table.lookup ((w.extractLsb' 2 8).toNat * 16 + (w.extractLsb' 28 4).toNat) with
  | some f => keepWf (f (S32.ofWord w))
  | none => none

/-- The instruction in two slots: L64, or M64 by its opcode, with bits 63:62 zero (R162, R167). -/
def decodeL64 (w : Dbl) : Option Instr :=
  match l64Table.lookup (w.extractLsb' 2 10).toNat with
  | some f => keepWf (f (L64.ofBits w))
  | none =>
    match m64Table.lookup (w.extractLsb' 2 10).toNat with
    | some f => if w.extractLsb' 62 2 = 0 then keepWf (f (M64.ofBits w)) else none
    | none => none

/-- The instruction in three slots (R168). -/
def decodeX96 (w : BitVec 96) : Option Instr :=
  match x96Table.lookup (w.extractLsb' 2 10).toNat with
  | some f => keepWf (f ⟨L64.ofBits (w.extractLsb' 0 64), w.extractLsb' 64 32⟩)
  | none => none

/-- Length in slots by LEN (R149); none for 0b11. -/
def slotLen (w : Word) : Option Nat :=
  if w.extractLsb' 0 2 = 0 then some 1
  else if w.extractLsb' 0 2 = 1 then some 2
  else if w.extractLsb' 0 2 = 2 then some 3
  else none

/-- The instruction that starts in slot value `w0`, with the two slots that follow it. -/
def decodeSlots (w0 w1 w2 : Word) : Option Instr :=
  match slotLen w0 with
  | some 1 => decodeS32 w0
  | some 2 => decodeL64 (w1 ++ w0)
  | some 3 => decodeX96 (w2 ++ (w1 ++ w0 : Dbl))
  | _ => none

/-- A walk instruction (R350, R351). -/
noncomputable def decodeWalk (w : Word) : Option Instr :=
  match walkTable.lookup (w.extractLsb' 26 6).toNat with
  | some f => keepWf (f (WalkOp.ofWord w))
  | none => none

/-- A policy instruction, with bits 43:32 zero (R86, R87). -/
noncomputable def decodeNpb (w : Dbl) : Option Instr :=
  match npbTable.lookup (w.extractLsb' 56 8).toNat with
  | some f => if w.extractLsb' 32 12 = 0 then keepWf (f (NpbOp.ofBits w)) else none
  | none => none

/-- The word of an S32 instruction (R157). -/
def S32.word (o : S32) (op8 mod : Nat) : Word :=
  BitVec.ofNat 4 mod ++ o.a ++ o.d ++ BitVec.ofNat 8 op8 ++ (0 : BitVec 2)

/-- The 64 bits of an L64 instruction, with the given LEN (R158). -/
def L64.bits (o : L64) (op10 : Nat) (len : BitVec 2) : Dbl :=
  o.imm ++ o.hint ++ o.c ++ o.b ++ o.a ++ o.d ++ BitVec.ofNat 10 op10 ++ len

/-- The 64 bits of an M64 instruction (R162). -/
def M64.bits (o : M64) (op10 : Nat) : Dbl :=
  (0 : BitVec 2) ++ o.sx ++ o.ord ++ o.cache ++ o.wid ++ o.off ++ o.base ++ o.d ++ BitVec.ofNat 10 op10 ++ (1 : BitVec 2)

/-- The 96 bits of an X96 instruction (R163). -/
def X96.bits (o : X96) (op10 : Nat) : BitVec 96 := o.lit ++ o.lo.bits op10 2

/-- The word of a walk instruction (R350). -/
def WalkOp.word (o : WalkOp) (op : Nat) : Word := BitVec.ofNat 6 op ++ o.d ++ o.a ++ o.b ++ o.imm

/-- The 64 bits of a policy instruction (R86). -/
def NpbOp.bits (o : NpbOp) (op : Nat) : Dbl :=
  BitVec.ofNat 8 op ++ o.d ++ o.a ++ o.b ++ (0 : BitVec 12) ++ o.imm

/-- The slots of an encoding, lowest address first. -/
def Enc.slots : Enc → List Word
  | .s32 op mod o => [o.word op mod]
  | .l64 op o => [(o.bits op 1).extractLsb' 0 32, (o.bits op 1).extractLsb' 32 32]
  | .m64 op o => [(o.bits op).extractLsb' 0 32, (o.bits op).extractLsb' 32 32]
  | .x96 op o => [(o.bits op).extractLsb' 0 32, (o.bits op).extractLsb' 32 32, (o.bits op).extractLsb' 64 32]
  | .walk op o => [o.word op]
  | .npb op o => [(o.bits op).extractLsb' 0 32, (o.bits op).extractLsb' 32 32]
  | .none => []

/-- The words of an instruction, lowest address first; a row without an encoding has none. -/
def encode (i : Instr) : List Word := i.enc.slots

/-- Which of the instruction sets a word list is read as. -/
inductive InstrSet where
  | main | walk | npb
  deriving DecidableEq, Repr

/-- The instruction set of a row. -/
def Enc.set : Enc → InstrSet
  | .walk _ _ => .walk
  | .npb _ _ => .npb
  | _ => .main

/-- Decode the words of one instruction of the given set. -/
noncomputable def decodeWords (set : InstrSet) (ws : List Word) : Option Instr :=
  match set, ws with
  | .main, [w0] => decodeSlots w0 0 0
  | .main, [w0, w1] => decodeSlots w0 w1 0
  | .main, [w0, w1, w2] => decodeSlots w0 w1 w2
  | .walk, [w] => decodeWalk w
  | .npb, [w0, w1] => decodeNpb (w1 ++ w0)
  | _, _ => none

/-- Words from bytes, least significant byte first (R4); a rest of fewer than four bytes is padded with zeros. -/
def wordsOfBytes : List Byte → List Word
  | b0 :: b1 :: b2 :: b3 :: r => (b3 ++ b2 ++ b1 ++ b0) :: wordsOfBytes r
  | [] => []
  | [b0] => [(0 : BitVec 24) ++ b0]
  | [b0, b1] => [(0 : BitVec 16) ++ (b1 ++ b0 : Half)]
  | [b0, b1, b2] => [(0 : BitVec 8) ++ (b2 ++ b1 ++ b0 : BitVec 24)]

/-- Bytes of words, least significant byte first (R4). -/
def bytesOfWords (ws : List Word) : List Byte :=
  ws.flatMap fun w => [w.extractLsb' 0 8, w.extractLsb' 8 8, w.extractLsb' 16 8, w.extractLsb' 24 8]

/-- The instruction of the main set at the head of a byte list, with the bytes after it. Total: nothing where the bytes
run out or name no instruction. -/
def decodeBytes (bs : List Byte) : Option (Instr × List Byte) :=
  match wordsOfBytes bs with
  | [] => none
  | w0 :: ws =>
    match slotLen w0 with
    | none => none
    | some n =>
      if bs.length < 4 * n then none else
      match decodeSlots w0 (ws.getD 0 0) (ws.getD 1 0) with
      | some i => some (i, bs.drop (4 * n))
      | none => none

/-- The instruction that this decoder reads from an opcode-table row's bits, numbered as the table numbers them: the
main set first; a one-word row that is no instruction of the main set is read as a walk instruction, a two-word row as
a policy instruction (log 6: the all-zero word is NOP and also END, and NOP is taken). -/
noncomputable def decodeTableWord (nbits w : Nat) : Option Instr :=
  let w0 := BitVec.ofNat 32 w
  let w1 := BitVec.ofNat 32 (w / 2 ^ 32)
  let w2 := BitVec.ofNat 32 (w / 2 ^ 64)
  match decodeSlots w0 w1 w2 with
  | some i => some i
  | none => if nbits ≤ 32 then decodeWalk w0 else decodeNpb (w1 ++ w0)

/-- The starts at or after slot `s` (R149). -/
def startsFrom (fuel s : Nat) (slots : List Word) : List Nat :=
  match fuel with
  | 0 => []
  | n + 1 =>
    if 14 < s then [] else
      s :: startsFrom n (s + ((slotLen (slots.getD s 0)).getD 1)) slots

/-- The instruction starts of a line, from slot 0 (R149). -/
def lineStarts (slots : List Word) : List Nat := startsFrom 15 0 slots

/-- What stands at slot `s` of a line: an instruction with its length, or nothing (rows 5 to 7 of R165). -/
def decodeAt (slots : List Word) (s : Nat) : Option (Instr × Nat) :=
  if s ∈ lineStarts slots then
    match slotLen (slots.getD s 0) with
    | some n =>
      if 15 < s + n then none else
      match decodeSlots (slots.getD s 0) (slots.getD (s + 1) 0) (slots.getD (s + 2) 0) with
      | some i => some (i, n)
      | none => none
    | none => none
  else none

end Sys2Proof
end

