-- ==== Sys2Proof/Machine/Npb.lean ====
section
/-! DEFINITION. Nolle policy bytecode: its instructions, the check of an image at POLICYLOAD, and policy events (03 R86 to
R90). -/
namespace Sys2Proof.Machine

/-- q_i of a policy event (03 R86). -/
def PolicyRun.reg (p : PolicyRun) (i : BitVec 4) : Dbl := p.q.get 0 i.toNat

/-- Write q_i. -/
def PolicyRun.setReg (p : PolicyRun) (i : BitVec 4) (v : Dbl) : PolicyRun := { p with q := p.q.set 0 i.toNat v }

/-- Go to instruction `pc`; at the end of a running body the next pass begins, its register incremented, or the loop ends
(03 R87). -/
def PolicyRun.goto (p : PolicyRun) (pc : Nat) : PolicyRun :=
  match p.loop with
  | some (r, count, pass, first, last) =>
    if pc = last + 1 then
      if pass + 1 < count then
        { p.setReg (BitVec.ofNat 4 r) (p.reg (BitVec.ofNat 4 r) + 1) with pc := first, loop := some (r, count, pass + 1, first, last) }
      else { p with pc := pc, loop := none }
    else { p with pc := pc }
  | none => { p with pc := pc }

/-- The instruction after this one. -/
def PolicyRun.advance (p : PolicyRun) : PolicyRun := p.goto (p.pc + 1)

/-- A policy fault ends the event (03 R90): the sixteenth unloads the policy and sets MBEVT.POLICYOFF. -/
def State.policyFault (s : State) (p : PolicyRun) : State :=
  let f := s.func p.func
  let n := f.policyFaults + 1
  let f := { f with policyFaults := n }
  let f := if n < 16 then f else { f with policy := none, policyMem := [], policyFaults := 0, override := 0, mbEvt := f.mbEvt ||| 1 }
  { s.setFunc p.func f with policy := some { p with ended := true, faulted := true } }

/-- Run one instruction of the current policy event; an event that has ended stays as it is. -/
def npbInstr (s : State) (f : PolicyRun → State) : Host.Outcome State Fault Refusal :=
  match s.policy with
  | none => .fault .noIssuer
  | some p => .next (if p.ended then s else f p)

/-- An instruction that writes q_d from q_a, q_b and the immediate, and goes on. -/
def npbAlu (o : NpbOp) (s : State) (f : Dbl → Dbl → Dbl) : Host.Outcome State Fault Refusal :=
  npbInstr s fun p => { s with policy := some (p.setReg o.d (f (p.reg o.a) (p.reg o.b))).advance }

/-- sext(IMM) (03 R87). -/
def NpbOp.sext (o : NpbOp) : Dbl := o.imm.signExtend 64

/-- MOVI (03 R87). -/
def execNpbMovi (o : NpbOp) (s : State) : Host.Outcome State Fault Refusal := npbAlu o s fun _ _ => NpbOp.sext o
/-- MOVHI: the low word of q_d is unchanged (03 R87). -/
def execNpbMovhi (o : NpbOp) (s : State) : Host.Outcome State Fault Refusal :=
  npbInstr s fun p => { s with policy := some (p.setReg o.d (o.imm ++ (p.reg o.d).extractLsb' 0 32)).advance }
/-- MOV (03 R87). -/
def execNpbMov (o : NpbOp) (s : State) : Host.Outcome State Fault Refusal := npbAlu o s fun a _ => a
/-- ADD (03 R87). -/
def execNpbAdd (o : NpbOp) (s : State) : Host.Outcome State Fault Refusal := npbAlu o s fun a b => a + b
/-- SUB (03 R87). -/
def execNpbSub (o : NpbOp) (s : State) : Host.Outcome State Fault Refusal := npbAlu o s fun a b => a - b
/-- ADDI (03 R87). -/
def execNpbAddi (o : NpbOp) (s : State) : Host.Outcome State Fault Refusal := npbAlu o s fun a _ => a + NpbOp.sext o
/-- AND (03 R87). -/
def execNpbAnd (o : NpbOp) (s : State) : Host.Outcome State Fault Refusal := npbAlu o s fun a b => a &&& b
/-- OR (03 R87). -/
def execNpbOr (o : NpbOp) (s : State) : Host.Outcome State Fault Refusal := npbAlu o s fun a b => a ||| b
/-- XOR (03 R87). -/
def execNpbXor (o : NpbOp) (s : State) : Host.Outcome State Fault Refusal := npbAlu o s fun a b => a ^^^ b
/-- SHL by q_b[5:0] (03 R87). -/
def execNpbShl (o : NpbOp) (s : State) : Host.Outcome State Fault Refusal := npbAlu o s fun a b => a <<< (b.toNat % 64)
/-- SHR by q_b[5:0] (03 R87). -/
def execNpbShr (o : NpbOp) (s : State) : Host.Outcome State Fault Refusal := npbAlu o s fun a b => a >>> (b.toNat % 64)
/-- MUL (03 R87). -/
def execNpbMul (o : NpbOp) (s : State) : Host.Outcome State Fault Refusal := npbAlu o s fun a b => a * b
/-- DIVU: all ones when the divisor is zero (03 R87). -/
def execNpbDivu (o : NpbOp) (s : State) : Host.Outcome State Fault Refusal :=
  npbAlu o s fun a b => if b = 0 then 0xFFFFFFFFFFFFFFFF else a / b
/-- MINU (03 R87). -/
def execNpbMinu (o : NpbOp) (s : State) : Host.Outcome State Fault Refusal :=
  npbAlu o s fun a b => if a.toNat < b.toNat then a else b
/-- MAXU (03 R87). -/
def execNpbMaxu (o : NpbOp) (s : State) : Host.Outcome State Fault Refusal :=
  npbAlu o s fun a b => if a.toNat < b.toNat then b else a
/-- SLTU (03 R87). -/
def execNpbSltu (o : NpbOp) (s : State) : Host.Outcome State Fault Refusal :=
  npbAlu o s fun a b => if a.toNat < b.toNat then 1 else 0

/-- The index of LDS, STS and LDV: q_a + sext(IMM), unsigned (03 R87). -/
def NpbOp.index (o : NpbOp) (p : PolicyRun) : Nat := (p.reg o.a + NpbOp.sext o).toNat

/-- LDS: a read of the state area, out of range a policy fault (03 R87). -/
def execNpbLds (o : NpbOp) (s : State) : Host.Outcome State Fault Refusal :=
  npbInstr s fun p =>
    let i := NpbOp.index o p
    if 512 ≤ i then s.policyFault p
    else { s with policy := some (p.setReg o.d ((s.func p.func).policyMem.get 0 i)).advance }
/-- STS: a write of the state area, out of range a policy fault (03 R87). -/
def execNpbSts (o : NpbOp) (s : State) : Host.Outcome State Fault Refusal :=
  npbInstr s fun p =>
    let i := NpbOp.index o p
    if 512 ≤ i then s.policyFault p
    else
      let f := s.func p.func
      { s.setFunc p.func { f with policyMem := f.policyMem.set 0 i (p.reg o.b) } with policy := some p.advance }
/-- LDV: a read of the event view, out of range a policy fault (03 R87). -/
def execNpbLdv (o : NpbOp) (s : State) : Host.Outcome State Fault Refusal :=
  npbInstr s fun p =>
    let i := NpbOp.index o p
    if p.view.length ≤ i then s.policyFault p
    else { s with policy := some (p.setReg o.d (p.view.getD i 0)).advance }

/-- A branch, forward by k = IMM unsigned where the condition holds (03 R87). -/
def npbBranch (o : NpbOp) (s : State) (c : Dbl → Dbl → Bool) : Host.Outcome State Fault Refusal :=
  npbInstr s fun p =>
    { s with policy := some (if c (p.reg o.a) (p.reg o.b) then p.goto (p.pc + o.imm.toNat) else p.advance) }
/-- BEQ (03 R87). -/
def execNpbBeq (o : NpbOp) (s : State) : Host.Outcome State Fault Refusal := npbBranch o s fun a b => a == b
/-- BNE (03 R87). -/
def execNpbBne (o : NpbOp) (s : State) : Host.Outcome State Fault Refusal := npbBranch o s fun a b => a != b
/-- BLTU (03 R87). -/
def execNpbBltu (o : NpbOp) (s : State) : Host.Outcome State Fault Refusal := npbBranch o s fun a b => a.toNat < b.toNat

/-- LOOP: the LEN instructions that follow run COUNT times, q_d counting the passes from 0 (03 R87). -/
def execNpbLoop (o : NpbOp) (s : State) : Host.Outcome State Fault Refusal :=
  npbInstr s fun p =>
    { s with policy := some { p.setReg o.d 0 with
        pc := p.pc + 1, loop := some (o.d.toNat, npbCount o.imm, 0, p.pc + 1, p.pc + npbLen o.imm) } }

/-- RET ends the event; q_0 holds the result (03 R87). -/
def execNpbRet (s : State) : Host.Outcome State Fault Refusal :=
  npbInstr s fun p => { s with policy := some { p with ended := true } }

/-! ### The image check (03 R88) -/

/-- The policy instructions by OP: the fields that must be zero, and the meaning (03 R87). -/
def npbMeanings : List (Nat × (NpbOp → Bool) × (NpbOp → State → Host.Outcome State Fault Refusal)) :=
  [(0x01, npbOk true false false true, execNpbMovi),
   (0x02, npbOk true false false true, execNpbMovhi),
   (0x03, npbOk true true false false, execNpbMov),
   (0x04, npbOk true true true false, execNpbAdd),
   (0x05, npbOk true true true false, execNpbSub),
   (0x06, npbOk true true false true, execNpbAddi),
   (0x07, npbOk true true true false, execNpbAnd),
   (0x08, npbOk true true true false, execNpbOr),
   (0x09, npbOk true true true false, execNpbXor),
   (0x0A, npbOk true true true false, execNpbShl),
   (0x0B, npbOk true true true false, execNpbShr),
   (0x0C, npbOk true true true false, execNpbMul),
   (0x0D, npbOk true true true false, execNpbDivu),
   (0x0E, npbOk true true true false, execNpbMinu),
   (0x0F, npbOk true true true false, execNpbMaxu),
   (0x10, npbOk true true true false, execNpbSltu),
   (0x11, npbOk true true false true, execNpbLds),
   (0x12, npbOk false true true true, execNpbSts),
   (0x13, npbOk true true false true, execNpbLdv),
   (0x14, npbOk false true true true, execNpbBeq),
   (0x15, npbOk false true true true, execNpbBne),
   (0x16, npbOk false true true true, execNpbBltu),
   (0x17, fun o => npbOk true false false true o && (o.imm &&& 0xFE00FF80) == 0, execNpbLoop),
   (0x18, npbOk false false false false, fun _ => execNpbRet)]

/-- OP of a policy instruction. -/
def npbOpcode (w : Dbl) : Nat := natBits w.toNat 63 56

/-- Check 2: OP assigned, reserved bits and unused fields zero. -/
def npbFormed (w : Dbl) : Bool :=
  natBits w.toNat 43 32 == 0 &&
  match npbMeanings.lookup (npbOpcode w) with
  | some (ok, _) => ok (NpbOp.ofBits w)
  | none => false

/-- A branch. -/
def npbIsBranch (w : Dbl) : Bool := 0x14 ≤ npbOpcode w && npbOpcode w ≤ 0x16

/-- Check 3 at instruction `i` of a program of `n`. -/
def npbTargetOk (n i : Nat) (w : Dbl) : Bool :=
  !npbIsBranch w || (natBits w.toNat 31 0 != 0 && i + natBits w.toNat 31 0 < n)

/-- The bodies of the loops that stand outside bodies: first and last instruction. -/
def npbBodies (prog : List Dbl) (i until' : Nat) : List (Nat × Nat) :=
  match prog with
  | [] => []
  | w :: r =>
    if npbOpcode w = 0x17 && until' ≤ i then
      (i + 1, i + npbLen (w.extractLsb' 0 32)) :: npbBodies r (i + 1) (i + 1 + npbLen (w.extractLsb' 0 32))
    else npbBodies r (i + 1) until'

/-- The body that holds an instruction. -/
def npbBodyOf (bodies : List (Nat × Nat)) (i : Nat) : Option (Nat × Nat) := bodies.find? fun b => b.1 ≤ i && i ≤ b.2

/-- Check 4 at instruction `i`. A LEN of 0 names no body and fails it too. -/
def npbNestOk (bodies : List (Nat × Nat)) (n i : Nat) (w : Dbl) : Bool :=
  let imm := w.extractLsb' 0 32
  if npbOpcode w = 0x17 then
    (npbBodyOf bodies i).isNone && 1 ≤ npbCount imm && npbCount imm ≤ 64 && 1 ≤ npbLen imm && i + npbLen imm < n
  else if npbIsBranch w then
    match npbBodyOf bodies i with
    | none => (npbBodyOf bodies (i + imm.toNat)).isNone
    | some b => i + imm.toNat ≤ b.2 + 1
  else true

/-- The static step bound of check 5. -/
def npbBound (bodies : List (Nat × Nat)) (prog : List Dbl) (i : Nat) : Nat :=
  match prog with
  | [] => 0
  | w :: r =>
    let imm := w.extractLsb' 0 32
    (if (npbBodyOf bodies i).isSome then 0
     else if npbOpcode w = 0x17 then 1 + npbCount imm * npbLen imm else 1) + npbBound bodies r (i + 1)

/-- The first instruction that fails a check. -/
def npbFirst (ok : Nat → Dbl → Bool) (prog : List Dbl) (i : Nat) : Option Nat :=
  match prog with
  | [] => none
  | w :: r => if ok i w then npbFirst ok r (i + 1) else some i

/-- The first failed check from 2 to 6 of an image, and the failing instruction where there is one (03 R88).
(Log 52, DESIGN CHOICE.) -/
def npbCheck (prog : List Dbl) : Option (Nat × Option Nat) :=
  let n := prog.length
  let bodies := npbBodies prog 0 0
  match npbFirst (fun _ w => npbFormed w) prog 0 with
  | some i => some (2, some i)
  | none =>
    match npbFirst (npbTargetOk n) prog 0 with
    | some i => some (3, some i)
    | none =>
      match npbFirst (npbNestOk bodies n) prog 0 with
      | some i => some (4, some i)
      | none =>
        if 4096 < npbBound bodies prog 0 then some (5, none)
        else if (prog.getLast?.map npbOpcode) = some 0x18 then none
        else some (6, some (n - 1))

/-! ### Policy events (03 R89, R90) -/

/-- Run one instruction of the current event. -/
def State.policyStep (s : State) : Host.Outcome State Fault Refusal :=
  match s.policy with
  | none => .next s
  | some p =>
    match p.prog[p.pc]? with
    | none => .next s
    | some w =>
      match npbMeanings.lookup (npbOpcode w) with
      | some (_, f) => f (NpbOp.ofBits w) s
      | none => .next s

/-- Run the current event for at most `n` instructions. -/
def State.policyRun (s : State) (n : Nat) : State :=
  match n with
  | 0 => s
  | k + 1 =>
    match s.policy with
    | none => s
    | some p =>
      if p.ended then s
      else match s.policyStep with
        | .next s' => s'.policyRun k
        | _ => s

/-- Microseconds since stage 0x05: 1,200 core cycles each (01 R21). (Log 51, DEDUCED.) -/
def State.micros (s : State) : Nat := s.cycle.toNat / 1200

/-- The PMP entries of a plug-in of function `f` (03 R82). -/
def plugInPmp (f : Nat) : List PmpEntry :=
  [{ region := .interpreter, r := false, w := false, x := true }, { region := .bytecode f, r := true, w := false, x := false },
   { region := .stateArea f, r := true, w := true, x := false }, { region := .view f, r := true, w := false, x := false }]

/-- The core that interprets the events of a function: one of 1 to 7. (Log 103, DESIGN CHOICE.) -/
def plugInCore (stamp f : Nat) : Nat := 1 + Config.freePick stamp f % 7

/-- Core `n` of the Nolle complex runs a plug-in in U mode under its four grants, or the scheduler again (03 R81, R82). -/
def State.setPlugIn (s : State) (n : Nat) (f : Option Nat) : State :=
  let c : NolleCore := match f with
    | some f => { mode := .user, up := true, pmp := plugInPmp f }
    | none => { mode := .scheduler, up := true, pmp := [] }
  { s with dev := { s.dev with nolle := s.dev.nolle.set {} n c } }

/-- Raise an event for a function, with the view from V[3] on, and run it to its end (03 R88: at most 4,096 steps). The
answer is q0, or none for the default result. (Log 12, DEDUCED; log 103, DESIGN CHOICE.) -/
def State.policyEvent (s : State) (f code : Nat) (rest : List Dbl) : State × Option Dbl :=
  match (if s.dev.schedulerUp then (s.func f).policy else none) with
  | none => (s, none)
  | some prog =>
    let view := BitVec.ofNat 64 code :: BitVec.ofNat 64 s.micros :: BitVec.ofNat 64 rest.length :: rest
    let q : SMap Dbl := SMap.set (SMap.set [] 0 0 (BitVec.ofNat 64 code)) 0 1 (BitVec.ofNat 64 view.length)
    let s := { s.policyRun 4096 with policy := some { func := f, prog := prog, view := view, q := q } }
    let n := plugInCore s.stamp f
    let s := ((s.setPlugIn n (some f)).policyRun 4096).setPlugIn n none
    match s.policy with
    | some p => (s, if p.faulted || !p.ended then none else some (p.reg 0))
    | none => (s, none)

/-- SLICE (03 R89): every 100 µs the policy's result overrides the function's weight for the next slice; 0, a policy
fault or no policy keeps WEIGHT. -/
def execSlice (f : Nat) (s : State) : Host.Outcome State Fault Refusal :=
  let v := s.func f
  let n := (s.runs.filter fun r => r.2.func == f && r.2.stage == .admitted).length
  let (s, r) := s.policyEvent f 3 [BitVec.ofNat 64 n, BitVec.ofNat 64 v.useStall, BitVec.ofNat 64 v.takes]
  let w := match r with
    | some d => natBits d.toNat 7 0
    | none => 0
  .next (if !s.dev.schedulerUp then s else s.setFunc f { s.func f with override := w, takes := 0 })

end Sys2Proof.Machine
end

