-- ==== Sys2Proof/Machine/Queue.lean ====
section
/-! DEFINITION. Hardware work queues: doorbells, examination, head mirrors, control blocks and completion records (03 R60 to
R68, R73, R76, R80, R85, R91 to R93). -/
namespace Sys2Proof.Machine

/-- Queue j of function `f` (03 R60). -/
def State.queueNo (s : State) (f j : Nat) : Nat := natBits (s.func f).qbase.toNat 14 0 + j

/-- QCOUNT (03 R77). -/
def Func.queues (f : Func) : Nat := natBits f.qcount.toNat 15 0

/-- Index of queue `q` within its owner. -/
def State.queueIndex (s : State) (q : Nat) : Nat := q - natBits (s.func (s.queue q).owner).qbase.toNat 14 0

/-- SIZE of a ring (03 R60). -/
def Queue.size (x : Queue) : Nat := 2 ^ x.log2

/-- Address of the entry with a sequence number (03 R60). -/
def Queue.slot (x : Queue) (seq : Nat) : Nat := x.ringbase.toNat + 64 * (seq % x.size)

/-- QSTAT (03 R61). -/
def Queue.qstat (x : Queue) : Nat :=
  let b (v : Bool) (i : Nat) : Nat := if v then 2 ^ i else 0
  if !x.created then 0
  else b x.err 7 + b x.overrun 6 + b x.reject 5 + b x.baddb 4 + b x.stale 3 + b x.waitvalid 2 + b x.blocked 1 +
    b (!x.err) 0

/-- Created queues of a function, with their numbers. -/
def State.queuesOf (s : State) (f : Nat) : List Nat :=
  (s.queues.filter fun q => q.2.created && q.2.owner == f).map (·.1)

/-! ### Control blocks (03 R91, R92) -/

/-- One bit of CRC-32C, reflected. -/
def crcBit (c : Nat) : Nat := if c % 2 = 1 then Nat.xor (c / 2) 0x82F63B78 else c / 2

/-- One byte of CRC-32C. (Log 54, PRESUMED.) -/
def crcByte (c b : Nat) : Nat := crcBit (crcBit (crcBit (crcBit (crcBit (crcBit (crcBit (crcBit (Nat.xor c b))))))))

/-- CRC-32C of the low `n` bytes of a number, before the final inversion. -/
def crcLoop (c v n : Nat) : Nat :=
  match n with
  | 0 => c
  | k + 1 => crcLoop (crcByte c (v % 256)) (v / 256) k

/-- CRC-32C of `n` bytes. (Log 54, PRESUMED.) -/
def crc32c (v n : Nat) : Nat := Nat.xor (crcLoop 0xFFFFFFFF v n) 0xFFFFFFFF

/-- Bytes 0x00 to 0x37 of a copy, as a number. -/
def QCopy.image (c : QCopy) : Nat :=
  c.ringbase.toNat + c.headmir.toNat * 2 ^ 64 + c.cfg.toNat * 2 ^ 128 + c.qstate.toNat * 2 ^ 160

/-- A copy is valid when its CHECK matches (03 R92). -/
def QCopy.valid (c : QCopy) : Bool := c.check.toNat == crc32c c.image 0x38

/-- Of two SEQ values, `a` is newer than `b` (03 R92). -/
def seqNewer (a b : Word) : Bool := 1 ≤ (a - b).toNat && (a - b).toNat < 2 ^ 31

/-- The scheduler updates a queue's control block with its configuration and state (03 R92): the invalid or older copy is
written, with the newer copy's SEQ + 1. (Log 54, PRESUMED; log 55, DEDUCED.) -/
def Queue.writeBlock (x : Queue) (state : Nat) : Queue :=
  let cfg := BitVec.ofNat 32 (x.owner * 2 ^ 16 + x.vector % 256 * 2 ^ 8 + x.log2 % 32)
  let intoA := !x.copyA.valid || (x.copyB.valid && seqNewer x.copyB.seq x.copyA.seq)
  let newer := if !x.copyA.valid then x.copyB.seq else if !x.copyB.valid then x.copyA.seq
    else if seqNewer x.copyA.seq x.copyB.seq then x.copyA.seq else x.copyB.seq
  let c : QCopy := { ringbase := x.ringbase, headmir := x.headmir, cfg := cfg, qstate := BitVec.ofNat 32 state,
                     seq := newer + 1, check := 0 }
  let c := { c with check := BitVec.ofNat 32 (crc32c c.image 0x38) }
  if intoA then { x with copyA := c } else { x with copyB := c }

/-- A queue after QDESTROY or a reset of its function: not created, its control block free (03 R68). -/
def Queue.freed (x : Queue) : Queue :=
  let y := x.writeBlock 0
  { owner := x.owner, vector := x.vector, copyA := y.copyA, copyB := y.copyB }

/-- A queue enters ERROR (03 R85): it is no longer taken, and its control block records state 2. -/
def State.queueError (s : State) (q : Nat) : State :=
  let x := s.queue q
  s.setQueue q (({ x with err := true, waitvalid := false, blocked := false, takeable := false } : Queue).writeBlock 2)

/-! ### Examination (03 R64, R65, R72, R80, R89) -/

/-- The entry of a queue with sequence `seq`, as memory holds it; none where it cannot be read (09 R432). -/
def State.ringEntry (s : State) (q seq : Nat) : Option (BitVec 512) :=
  let x := s.queue q
  if s.devPagesOk x.owner .read (x.slot seq) 64 then
    (s.devRead x.owner (x.slot seq) 64).map fun v => BitVec.ofNat 512 v
  else none

/-- VALID of an entry. -/
def entryValid (e : BitVec 512) : Bool := e.getLsbD 31

/-- Valid entries from HEAD on, at most `c`, up to TAIL or the first that is invalid or cannot be read (03 R80). -/
def State.readAhead (s : State) (q seq c : Nat) : List (Nat × BitVec 512) :=
  match c with
  | 0 => []
  | k + 1 =>
    if (s.queue q).tail ≤ seq then []
    else match s.ringEntry q seq with
      | some e => if entryValid e then (seq, e) :: s.readAhead q (seq + 1) k else []
      | none => []

/-- Entries held keep what was read first. -/
def mergeAhead (old new : List (Nat × BitVec 512)) : List (Nat × BitVec 512) :=
  new.map fun e => match old.find? fun o => o.1 == e.1 with
    | some o => o
    | none => e

/-- WAITCTR of an entry. -/
def entryWait (e : BitVec 512) : Nat := natBits e.toNat 111 96

/-- The entry at HEAD may be taken but for the scheduler's pick (03 R72). -/
def State.mayTake (s : State) (q : Nat) (e : BitVec 512) : Bool :=
  let x := s.queue q
  let f := s.func x.owner
  (!e.getLsbD 22 || x.taken.all (·.completed)) &&
  (entryWait e == 0xFFFF || natBits f.dctrs.toNat 12 0 ≤ entryWait e || f.ctr.get 0 (entryWait e) == 0)

/-- A queue's entry in a policy view (03 R89). -/
def State.viewEntry (s : State) (q : Nat) : Dbl :=
  let x := s.queue q
  BitVec.ofNat 64 (s.queueIndex q % 65536 + min x.ahead.length 0xFFFF * 2 ^ 16 +
    min ((s.cycle.toNat - x.readySince) / 1200) 0xFFFFFFFF * 2 ^ 32)

/-- ENQUEUE (03 R89): a queue has come to hold a takeable entry. -/
def State.enqueueEvent (s : State) (q : Nat) (e : BitVec 512) : State :=
  let job := natBits e.toNat 79 64
  let phase := natBits e.toNat 47 32
  (s.policyEvent (s.queue q).owner 2
    [s.viewEntry q, BitVec.ofNat 64 (job + phase * 2 ^ 16), e.extractLsb' 448 64]).1

/-- The command processor examines a queue (03 R65): its reads are acquires, and takes follow as steps of their own.
(Log 47, DEDUCED.) -/
def State.examine (s : State) (q : Nat) : State :=
  let x := s.queue q
  if !x.created || x.err then s
  else if x.tail ≤ x.head then
    s.setQueue q { x with waitvalid := false, blocked := false, takeable := false, unread := false, ahead := [] }
  else if !s.devRoom x.owner (x.slot x.head) 64 then s.setQueue q { x with unread := true, takeable := false }
  else
    let x := { x with unread := false }
    let s := (s.devReach x.owner (x.slot x.head) 64).setQueue q x
    match s.ringEntry q x.head with
    | none => s.queueError q
    | some e =>
      let ahead := mergeAhead x.ahead (s.readAhead q x.head 8)
      if !entryValid e then
        s.setQueue q { x with waitvalid := true, blocked := false, takeable := false, ahead := [] }
      else
        let can := s.mayTake q e
        let since := if can && !x.takeable then s.cycle.toNat else x.readySince
        let s := s.setQueue q { x with waitvalid := false, blocked := true, takeable := can, readySince := since,
                                       ahead := ahead }
        if can && !x.takeable then s.enqueueEvent q e else s

/-- Examine every queue of a function. -/
def State.examineAll (s : State) (f : Nat) : State := (s.queuesOf f).foldl State.examine s

/-- QUEUE_REEXAMINE (03 R65): a queue whose WAITVALID or BLOCKED is set is examined again, and one whose examination waits. -/
def execQueueReexamine (q : Nat) (s : State) : Host.Outcome State Fault Refusal :=
  let x := s.queue q
  .next (if x.created && (x.waitvalid || x.blocked || x.unread) then s.examine q else s)

/-! ### Doorbells (03 R61 to R63, R68) -/

/-- A write of V to TAIL (03 R63); a queue in ERROR ignores it (R68). -/
def State.writeTail (s : State) (q : Nat) (v : Dbl) : State :=
  let x := s.queue q
  if !x.created || x.err then s
  else
    let x := if v.toNat ≤ x.tail then { x with stale := true }
      else if x.size < v.toNat - x.head then { x with overrun := true }
      else { x with tail := v.toNat }
    (s.setQueue q x).examine q

/-- A W1C write of QSTAT (03 R61). -/
def State.writeQstat (s : State) (q v : Nat) : State :=
  let x := s.queue q
  s.setQueue q { x with overrun := x.overrun && !v.testBit 6, reject := x.reject && !v.testBit 5,
                        baddb := x.baddb && !v.testBit 4, stale := x.stale && !v.testBit 3 }

/-- A doorbell write that is ignored sets BADDB (03 R61). -/
def State.badDoorbell (s : State) (q : Nat) : State := s.setQueue q { s.queue q with baddb := true }

/-- `n` bytes of a doorbell page from offset `o` (03 R61). -/
def State.doorRead (s : State) (q o n : Nat) : Nat :=
  let x := s.queue q
  let page := x.tail % 2 ^ 64 + x.head % 2 ^ 64 * 2 ^ 64 + x.qstat * 2 ^ 128
  page / 2 ^ (8 * o) % 2 ^ (8 * n)

/-- A write of `n` bytes at offset `o` of a doorbell page (03 R61): ignored where the queue is not created. -/
def State.doorWrite (s : State) (q o n : Nat) (v : Nat) : State :=
  if !(s.queue q).created then s
  else if o = 0 && n = 8 then s.writeTail q (BitVec.ofNat 64 v)
  else if o = 0x10 && n = 4 then s.writeQstat q v
  else s.badDoorbell q

/-- The doorbell page of queue `j` of a function is live (03 R61); doorbell writes before stage 0x05 launch nothing (01
R31). -/
def State.doorLive (s : State) (f j : Nat) : Bool :=
  s.dev.stage == 5 && j < (s.func f).queues && (s.queue (s.queueNo f j)).created &&
  (s.queue (s.queueNo f j)).owner == f

/-- TAIL_WRITE (03 R63). (Log 47, DEDUCED.) -/
def execTailWrite (f j : Nat) (v : Dbl) (s : State) : Host.Outcome State Fault Refusal :=
  .next (if s.doorLive f j then s.writeTail (s.queueNo f j) v else s)

/-- DOORBELL_BAD_WRITE (03 R61). -/
def execDoorbellBadWrite (f j : Nat) (s : State) : Host.Outcome State Fault Refusal :=
  .next (if s.doorLive f j then s.badDoorbell (s.queueNo f j) else s)

/-- HEAD is written to the head mirror, where such a write is due, as a release; a write that fails is dropped (03 R66). -/
def State.mirrorHead (s : State) (q : Nat) : State :=
  let x := s.queue q
  if !x.created || !x.mirrorDue then s
  else
    let s := s.setQueue q { x with mirrorDue := false }
    if x.headmir = 0 then s else (s.devWrite x.owner x.headmir.toNat 8 x.head).getD s

/-- HEAD_MIRROR_WRITE (03 R66). -/
def execHeadMirrorWrite (q : Nat) (s : State) : Host.Outcome State Fault Refusal := .next (s.mirrorHead q)

/-! ### Completion of packets (03 R73, R76) -/

/-- The completion record of a packet (03 R76): written where CPL names a place that can be written, then the vector. -/
def State.completionRecord (s : State) (f : Nat) (p : Packet) (seq outcome gstatus vector : Nat) : State :=
  let v := p.usertag.toNat + (2 ^ 31 + outcome * 256 + gstatus) * 2 ^ 64 + seq % 2 ^ 32 * 2 ^ 96
  let ok := p.cpl.toNat % 16 = 0 && p.cpl.toNat < 2 ^ 56
  let s := if p.cpl = 0 || !ok then s else (s.devWrite f p.cpl.toNat 16 v).getD s
  if p.hdr.getLsbD 23 then s.raiseAfter f vector else s

/-- A RUN packet that completes otherwise than REJECTED decrements its counter, saturating at zero; a counter that reaches
zero has the function's queues examined (03 R73). -/
def State.decrementCounter (s : State) (f i : Nat) : State :=
  let v := s.func f
  let c := v.ctr.get 0 i
  if i = 0xFFFF || natBits v.dctrs.toNat 12 0 ≤ i || c = 0 then s
  else
    let s := s.setFunc f { v with ctr := v.ctr.set 0 i (c - 1) }
    if c = 1 then s.examineAll f else s

end Sys2Proof.Machine
end

