-- ==== Sys2Proof/Machine/Preempt.lean ====
section
/-! DEFINITION. Saving and resuming: PHINT saves, full saves, cuts, and the registers of a team that LIVE and a save zero
(05 R138; 15 R362; 17 R398 to R405). -/
namespace Sys2Proof.Machine

/-- Group `g` of a team is a zero group (05 R135). -/
def Team.zeroGroupAll (t : Team) (g : Nat) : Bool := laneList.all fun L => !t.nonzero.get false (32 * L + g)

/-- Register group `g` of these lanes becomes zero (05 R138). -/
def Team.zeroGroup (t : Team) (ls : List Nat) (g : Nat) : Team :=
  { t with v := t.v.filter fun p => !(ls.contains (p.1 / 512) && p.1 % 512 / 16 == g),
           nonzero := t.nonzero.filter fun p => !(ls.contains (p.1 / 32) && p.1 % 32 == g) }

/-- The groups below REGS whose bit of a mask is clear. -/
def clearGroups (regs : Nat) (mask : Word) : List Nat := (List.range (regs / 16)).filter fun g => !mask.getLsbD g

/-- An SC operation of the team has not taken step 4 (11 R285, R295). -/
def State.scPending (s : State) (tn : Nat) : Bool :=
  (s.engines.any fun e => e.team == tn && (match e.kind with | .fenceSc _ => true | _ => false)) ||
  (s.accesses.any fun a => a.team == tn && a.ord == 3)

/-- The waits of step 1 of 17 R400 are over. -/
def State.saveReady (s : State) (tn : Nat) : Bool :=
  let t := s.team tn
  t.ldc == 0 && t.tlc == 0 && !s.scPending tn

/-- Copies and engine operations of the block are over (10 R275); a save does not wait for NMVs (14 R345). -/
def State.blockQuiet (s : State) (b : Nat) : Bool :=
  !((s.core (s.block b).core).copies.any fun p => p.2.block == b) &&
  !(s.engines.any fun e => e.block == b && (match e.kind with | .nmv _ _ _ _ _ _ _ _ _ => false | _ => true))

/-- Vault bytes that the block's save keeps (17 R400): offsets from VBASE. -/
def Block.savesOffset (k : Block) (o : Nat) : Bool :=
  k.fullSave || k.vranges.any fun r => 4096 * r.1 ≤ o && o < 4096 * (r.1 + r.2)

/-- Place of a block's vault bytes in the vaults (05 R133). -/
def Block.vaultPlace (k : Block) : Nat := 2 ^ 23 * natBits k.vbase.toNat 31 24 + natBits k.vbase.toNat 23 0

/-- The vault byte at offset `o` of cluster `c` is one of the block's, as its vault base stands. -/
def State.ownsVault (s : State) (b c o : Nat) : Bool :=
  let p := (s.block b).vaultPlace
  decide (p ≤ 2 ^ 23 * c + o) && decide (2 ^ 23 * c + o < p + (s.nodeOf b).vaultb)

/-- The block holds its place on a core: it runs, or has stopped there and not yet retired. -/
def State.seated (s : State) (b : Nat) : Bool := (s.core (s.block b).core).blocks.contains b

/-- First fit of `n` bytes in a space of `limit` bytes, in units of `unit'`, around the ranges taken (05 R133, 09 R225). -/
def firstFit (taken : List (Nat × Nat)) (limit unit' n : Nat) : Option Nat :=
  let size := (n + unit' - 1) / unit' * unit'
  let ends := 0 :: taken.map fun r => (r.1 + r.2 + unit' - 1) / unit' * unit'
  let good := ends.filter fun o => o + size ≤ limit && taken.all fun r => !overlaps o size r.1 r.2
  (good.foldl (fun (best : Option Nat) o => match best with
    | some b => some (min b o)
    | none => some o) none)

/-- A place for `n` bytes beside the ranges taken: the first that fits. (Log 112, DESIGN CHOICE.) -/
def placeFor (taken : List (Nat × Nat)) (limit n : Nat) : Nat := (firstFit taken limit 4096 n).getD limit

/-- The vault bytes of the block, by offset, that its save keeps. -/
def State.vaultSave (s : State) (b : Nat) : List Host.Cell :=
  let k := s.block b
  let n := (s.nodeOf b).vaultb
  (s.vaults.filter fun c => k.vaultPlace ≤ c.1 && c.1 < k.vaultPlace + n && k.savesOffset (c.1 - k.vaultPlace)).map
    fun c => (c.1 - k.vaultPlace, c.2)

/-- A block leaves its core: the core's list of resident blocks, whose pointer keeps to its block (05 R127), and its cached
groups. -/
def State.leaveCore (s : State) (b : Nat) : State :=
  let k := s.block b
  let c := s.core k.core
  let before := ((c.blocks.take c.pointer).filter (· == b)).length
  let s := s.setCore k.core { c with
    blocks := c.blocks.filter (· != b), pointer := c.pointer - before,
    rcache := c.rcache.filter fun p => !k.teams.contains p.1, wbuf := c.wbuf.filter fun w => !k.teams.contains w.team }
  k.teams.foldl (fun s tn => s.setTeam tn { s.team tn with resident := false }) s

/-- A lane that is resumed is judged anew for the line that it resumes in (06 R152); one whose transfer has not been fetched keeps the
check of its target's mark (R151). (Log 136, DESIGN CHOICE.) -/
def Lane.resumes (l : Lane) : Lane :=
  { l with watch := .none, arrival := match l.arrival with
    | .inLine => .newLine
    | a => a }

/-- Watches of a team are lost, and a lane that waits on one reads status 2 (10 R274; log 128, DEDUCED); its lanes are judged anew
where they resume (06 R152). -/
def Team.loseWatches (t : Team) : Team :=
  let t := laneList.foldl (fun (t : Team) L =>
    match (t.lane L).st with
    | .waiting (.watch d) => ((t.setLane L ((t.lane L).release 1)).setV L d 2).refresh
    | _ => t) t
  { t with lanes := t.lanes.map fun (p : Nat × Lane) => (p.1, p.2.resumes) }

/-- A team is saved (17 R400): its watches are lost, its walk goes into the image, and groups outside `mask` are not kept.
(Log 90, DEDUCED.) -/
def State.saveTeam (s : State) (tn : Nat) (mask : Option Word) : State :=
  let t := s.team tn
  let c := s.core t.core
  let own := c.walker.owner == tn + 1
  let walk := if own then some c.walker else t.walk
  let s := if own then (s.unlock t.core c.walker.lockOp).setCore t.core { (s.unlock t.core c.walker.lockOp).core t.core with
    walker := {} } else s
  let gs := match mask with
    | some m => clearGroups ((s.nodeOf t.block).regs) m
    | none => []
  let t := (gs.foldl (fun (t : Team) g => t.zeroGroup laneList g) t).loseWatches
  s.setTeam tn { t with saved := true, resident := false, parking := false, stays := false, walk := walk }

/-- The register groups of a team that its save image holds: those that are not zero groups (17 R401). -/
def State.savedGroups (s : State) (tn : Nat) : List Nat :=
  (List.range ((s.nodeOf (s.team tn).block).regs / 16)).filter fun g => !(s.team tn).zeroGroupAll g

/-- The vault bytes of a save image, by offset and size: all of them, or the pages of the union of the ranges named, without bytes
at or beyond VAULTB (17 R399, R400). -/
def Block.imageRanges (k : Block) (vaultb : Nat) : List (Nat × Nat) :=
  if k.fullSave then [(0, vaultb)]
  else ((List.range ((vaultb + 4095) / 4096)).filter fun i => k.vranges.any fun r => r.1 ≤ i && i < r.1 + r.2).map
    fun i => (4096 * i, min 4096 (vaultb - 4096 * i))

/-- The teams of a block that its save image holds; a cut leaves parked teams in the park area (17 R400, R402). -/
def State.imageTeams (s : State) (b : Nat) : List Nat := (s.block b).teams.filter fun tn => (s.team tn).saved

/-- SIZE of a save image: its header and its parts in the order of 17 R401; barrier state, event counters and generator context
take what the Release Notes give. (Log 112, DESIGN CHOICE.) -/
def State.imageSize (s : State) (b : Nat) : Nat :=
  let k := s.block b
  let n := s.nodeOf b
  let ts := s.imageTeams b
  64 + ts.length * (4096 + 131072 * n.accs) + (ts.map fun tn => 4096 * (s.savedGroups tn).length).sum +
    Config.imageExtra ts.length + ((k.imageRanges n.vaultb).map (·.2)).sum

/-- Save images in a die's save area. -/
def State.imagesTaken (s : State) (d : Nat) : List (Nat × Nat) :=
  (s.blocks.filter fun b => b.2.place == .saved && dieOfCluster b.2.cluster == d).map fun b => (b.2.saveAt, s.imageSize b.1)

/-- A parked team moves from the park area into the save image, with its walk (17 R400). (Log 90, DEDUCED.) -/
def State.savePark (s : State) (tn : Nat) : State :=
  let s := s.saveTeam tn none
  s.setTeam tn { s.team tn with parked := false, overflowed := false }

/-- The walk of a parked team that stays in the park area leaves its core's context with it (15 R362; 17 R402). -/
def State.keepWalk (s : State) (tn : Nat) : State :=
  let n := (s.team tn).core
  let w := (s.core n).walker
  if w.owner = tn + 1 then
    let s := s.unlock n w.lockOp
    (s.setCore n { s.core n with walker := {} }).setTeam tn { s.team tn with walk := some w }
  else s

/-- When every team of a block is saved, parked or has ended, and nothing of it is in flight, the block is saved (17 R400).
At a cut parked teams stay in the park area (R402). -/
def State.blockSaved (s : State) (b : Nat) : State :=
  let k := s.block b
  let cut := (s.func k.func).cut
  if k.place == .running && k.preempt &&
     (k.teams.all fun tn => (s.team tn).saved || (s.team tn).parked || (s.team tn).live == []) &&
     (k.teams.any fun tn => (s.team tn).saved || (!cut && (s.team tn).parked)) && s.blockQuiet b then
    let v := s.vaultSave b
    let s := k.teams.foldl (fun s tn =>
      if !(s.team tn).parked then s else if cut then s.keepWalk tn else s.savePark tn) s
    let s := s.leaveCore b
    let at' := placeFor (s.imagesTaken (dieOfCluster k.cluster)) (2 ^ 32) (s.imageSize b)
    s.setBlock b { k with place := .saved, preempt := false, savedVault := v, saveLayout := s.dev.savelayout.toNat,
                          saveAt := at', saveBad := false }
  else s

/-- A PHINT saves its team (17 R399, R400): the ranges it names are kept. -/
def State.phintSave (s : State) (tn : Nat) (mask : Word) (ranges : List (Nat × Nat)) (all : Bool) : State :=
  let b := (s.team tn).block
  let s := s.saveTeam tn (some mask)
  let k := s.block b
  let vb := (s.nodeOf b).vaultb
  (s.setBlock b { k with vranges := k.vranges ++ (if all then [(0, (vb + 4095) / 4096)] else ranges) }).blockSaved b

/-- A full save of a team (17 R400). -/
def State.fullSaveTeam (s : State) (tn kind : Nat) : State :=
  let b := (s.team tn).block
  let s := s.saveTeam tn none
  let k := s.block b
  (s.setBlock b { k with fullSave := true, saveKind := max k.saveKind kind }).blockSaved b

/-- Every lane of the team that is not EXITED is in the group, and none is in trap mode (17 R400). -/
def Team.phintAble (t : Team) (group : List Nat) : Bool :=
  t.live.all fun L => group.contains L && !(t.lane L).trap

/-- PHINT (17 R399, R400): marks a cheap pre-emption point; where a request is pending and the conditions hold, the team is
saved after it, whole at a cut (R402, R406). -/
def execPhint (o : X96) (s : State) : Host.Outcome State Fault Refusal :=
  match s.cur with
  | none => .fault .noIssuer
  | some iss =>
    let t := s.team iss.team
    let active := iss.group.any fun L =>
      (t.lane L).pend && (rowFault s t (s.nodeOf t.block) (Instr.phint o).wf (Instr.phint o).form iss.word L).isNone
    let saves := (s.block t.block).preempt && t.phintAble iss.group && active
    if saves && !s.saveReady iss.team then .next { s with cur := none }
    else
      let s' := s.issueInstr iss (.phint o) fun _ => { st := s }
      let l := o.lo
      let ranges := [(l.d.toNat, l.a.toNat), (l.b.toNat, l.c.toNat)]
      .next (if !saves then s'
             else if (s.func (s.block t.block).func).cut then s'.fullSaveTeam iss.team 2
             else s'.phintSave iss.team o.lit ranges (l.imm.getLsbD 0))

/-- FULL_SAVE (17 R400, R402): once FORCETO has elapsed, or at a cut, a team of a block with a pending request is saved
whole at an instruction boundary; a trap entry that is due completes first (R406). Code 2 marks a cut. -/
def execFullSave (t : Nat) (s : State) : Host.Outcome State Fault Refusal :=
  let tm := s.team t
  let k := s.block tm.block
  if k.preempt && k.place == .running && tm.resident && !tm.saved && s.saveReady t && tm.filling == [] &&
     !(s.pendingTraps.any fun p => p.1 == t) then
    .next (s.fullSaveTeam t (if (s.func k.func).cut then 2 else 1))
  else .next s

end Sys2Proof.Machine
end

