-- ==== Sys2Proof/Machine/MemInstr.lean ====
section
/-! DEFINITION. Issuing loads, stores, table reads, watches and atomics, the wait counters and the fences (10 R239 to R260,
R273, R274; 11 R280, R285). -/
namespace Sys2Proof.Machine

/-! ### What an access needs -/

/-- Effective address of a lane's M64 access (10 R239). -/
def effAddr (t : Team) (L : Nat) (o : M64) : Nat :=
  (t.vpair L o.base.toNat + o.off.signExtend 64).toNat

/-- Size in bytes of an access (10 R240). -/
def memBytes (o : M64) : Nat := 2 ^ o.wid.toNat

/-- Registers of a value of `n` bytes. -/
def regCount (n : Nat) : Nat := (n + 3) / 4

/-- What an M64 instruction does. -/
inductive MemOp where
  | load | tload | watch | store | atomic (op : Nat)
  deriving DecidableEq, Repr

/-- The access kind of 09 R231. -/
def MemOp.kind : MemOp → AccessKind
  | .store => .write
  | .atomic _ => .write
  | _ => .read

/-- What the access does at its home. -/
def MemOp.acc : MemOp → AccKind
  | .load => .load
  | .tload => .tload
  | .watch => .watch
  | .store => .store
  | .atomic op => .atomic op

/-- Counted in LDC, or in STC (10 R245). -/
def MemOp.counts (m : MemOp) : Bool := m != .store

/-- An atomic is performed natively by its memory (10 R259). `op` is OP10 less 0x204: 0 ADD, 1 FADD, 2 MIN, 3 MAX, 4 AND,
5 OR, 6 XOR, 7 XCHG, 8 CAS. -/
def atomNative (t : Target) (op wid : Nat) : Bool :=
  match t with
  | .host _ => Config.hostAtomics && (op == 0 || op == 7 || op == 8)
  | .remote _ _ => !(op == 1 || (op == 8 && wid == 4))
  | _ => true

/-- An access to the aperture (03 R62): a queue of another function gives no fault; loads and stores of 4 or 8 bytes pass. -/
def State.doorFault (s : State) (func a n : Nat) (m : MemOp) (t : Target) : Option FaultInfo :=
  match t with
  | .door o =>
    if !s.doorOwned func o then none
    else match m with
      | .tload => some (.at codePageperm 0xE a)
      | .atomic _ => some (.at codePageperm 0xE a)
      | _ => if n = 4 || n = 8 then none else some (.at codeAlign 0 a)
  | _ => none

/-- Write kinds that a version may not make (17 R395): PAGEPERM, cause VERSION. -/
def State.versionFault (s : State) (nd : Node) (func a : Nat) (kind : AccessKind) (t : Target) : Option FaultInfo :=
  if nd.versioned && kind == .write then
    match t with
    | .host _ => some (.at codePageperm 0xD a)
    | .remote _ _ => some (.at codePageperm 0xD a)
    | .door o => if s.doorOwned func o then some (.at codePageperm 0xD a) else none
    | _ => none
  else none

/-- A write of this kind is held by a version (17 R395): global HBM, not private memory or a vault. -/
def heldTarget (nd : Node) (a : Nat) (t : Target) : Option Nat :=
  match t with
  | .hbm p => if nd.versioned && windowOf a = 0 then some p else none
  | _ => none

/-- Lines that the block's writes in flight will hold. -/
def State.pendingLines (s : State) (b : Nat) : List Nat :=
  s.accesses.filterMap fun x =>
    if x.block = b && (match x.kind with | .store => true | .atomic _ => true | _ => false) then
      heldTarget (s.nodeOf b) x.va.toNat x.target |>.map (· / 64)
    else none

/-- VERSOVF (17 R396): the held state with these further lines would exceed VBUDGET. -/
def State.versOver (s : State) (b : Nat) (extra : List Nat) : Bool :=
  (s.nodeOf b).vbudget * 4096 < (s.block b).heldSize (s.rsizeOf b) extra

/-- Held state in KiB, for TINFO of VERSOVF. -/
def State.heldKib (s : State) (b : Nat) : Word := BitVec.ofNat 32 ((s.block b).heldSize (s.rsizeOf b) [] / 1024)

/-- Checks of a lane's access but LOGFULL, ATOMEMU and VERSOVF (10 R239). -/
def State.checkMem (s : State) (c : Ctx) (L a n : Nat) (m : MemOp) : Except FaultInfo Target :=
  match s.checkAccess (s.agentOf c.iss.team L) m.kind a n n with
  | .error e => .error e
  | .ok t =>
    match s.doorFault c.block.func a n m t with
    | some e => .error e
    | none =>
      match s.versionFault c.node c.block.func a m.kind t with
      | some e => .error e
      | none =>
        match s.checkThread c.iss.team L m.kind a n n with
        | .error e => .error e
        | .ok _ => .ok t

/-- Dies in whose memory-order log a lane's access of `n` bytes needs entries of its own, one for each entry (18 R414, R415): an ATOM
group, one for each word that an acquire reads, the SC entry. `first` says that the lane is the lowest of its address group, `lead` that
it is the lowest of the instruction. (Log 140, DEDUCED.) -/
def State.logDies (s : State) (core : Nat) (t : Target) (n : Nat) (m : MemOp) (ord : Nat) (first lead : Bool) : List Nat :=
  let acq := if ord = 1 || ord = 3 then List.replicate (t.ownWords n).length (dieOfCore core) else []
  (match m with
   | .atomic _ => if first then (s.atomLog core t).1 :: acq else []
   | _ => acq) ++
  (if ord = 3 && lead then [dieOfCore core] else [])

/-- The lanes of a checked instruction with the dies whose logs they need, and their targets. -/
def State.laneLogs (s : State) (c : Ctx) (n : Nat) (m : MemOp) (ord : Nat) (ls : List (Nat × Nat × Target)) :
    List (Nat × List Nat × Target) :=
  ls.map fun x =>
    let first := !(ls.any fun y => y.1 < x.1 && y.2.1 == x.2.1 && windowOf x.2.1 != 2)
    let lead := (ls.head?.map (·.1)) == some x.1
    (x.1, s.logDies c.team.core x.2.2 n m ord first lead, x.2.2)

/-- ATOMEMU of a lane (10 R259; TINFO by 17 R393). -/
def atomEmu (m : MemOp) (o : M64) (ins a : Nat) (t : Target) : Option FaultInfo :=
  match m with
  | .atomic op =>
    if atomNative t op o.wid.toNat then none
    else some { code := 0x11, addr := BitVec.ofNat 64 a, reg := o.d.toNat, ins := ins,
                info := BitVec.ofNat 32 (0x204 + op + o.wid.toNat * 2 ^ 10 + o.ord.toNat * 2 ^ 13) }
  | _ => none

/-- Lanes of a version whose writes would exceed VBUDGET, in lane order (17 R396). -/
def State.overLanes (s : State) (b : Nat) (nd : Node) (ls : List (Nat × Nat × Target)) (lines : List Nat) : List Nat :=
  match ls with
  | [] => []
  | (L, a, t) :: r =>
    match heldTarget nd a t with
    | none => s.overLanes b nd r lines
    | some p =>
      if s.versOver b ((p / 64) :: lines) then L :: s.overLanes b nd r lines
      else s.overLanes b nd r ((p / 64) :: lines)

/-- The access of a lane that passed every check. Data of a store or atomic are read now (10 R243, R258). -/
def mkAccess (c : Ctx) (o : M64) (m : MemOp) (covers : SMap Nat) (ins id L a : Nat) (t : Target) : Access :=
  let n := memBytes o
  let k := regCount n
  let d := o.d.toNat
  let cas := m == .atomic 8
  { id := id, ins := ins, kind := m.acc, team := c.iss.team, block := c.team.block, core := c.team.core, lane := L,
    func := c.block.func, va := BitVec.ofNat 64 a, target := t, size := n, ord := o.ord.toNat, dest := d,
    ndest := if m == .store then 0 else k, sx := o.sx == 1, nol1 := o.cache == 3 || o.cache == 1,
    data := if m == .load || m == .tload || m == .watch then 0 else BitVec.ofNat 128 (c.team.vregs L d k % 2 ^ (8 * n)),
    data2 := if cas then BitVec.ofNat 128 (c.team.vregs L (d + k) k) else 0,
    ts := if m.kind == .write && o.ord.toNat ≠ 3 then (c.team.lane L).rel else 0, floored := false,
    supervisor := (c.team.lane L).trap, stage := .issued,
    knows := if m.kind == .write && 2 ≤ o.ord.toNat then (c.team.lane L).know.join covers else (c.team.lane L).know,
    carries := if m.kind != .write then [] else if 2 ≤ o.ord.toNat then covers else (c.team.lane L).fenced }

/-- A 16-byte access to host or remote memory is performed as two 8-byte halves (10 R242); an atomic is not divided. -/
def halves (m : MemOp) (t : Target) (x : Access) : Option (Access × Access) :=
  let split (u : Target) : Access × Access :=
    let k := if x.ndest = 0 then 0 else 2
    ({ x with size := 8, ndest := k, data := x.data &&& 0xFFFFFFFFFFFFFFFF },
     { x with id := x.id + 1, va := x.va + 8, target := u, size := 8, dest := x.dest + 2, ndest := k, data := x.data >>> 64 })
  match m, t with
  | .atomic _, _ => none
  | _, .host p => if x.size = 16 then some (split (.host (p + 8))) else none
  | _, .remote a p => if x.size = 16 then some (split (.remote a (p + 8))) else none
  | _, _ => none

/-- Number the accesses of an instruction from `id`. -/
def mkAccesses (c : Ctx) (o : M64) (m : MemOp) (covers : SMap Nat) (ins id : Nat) (ls : List (Nat × Nat × Target)) : List Access :=
  match ls with
  | [] => []
  | (L, a, t) :: r =>
    let x := mkAccess c o m covers ins id L a t
    match halves m t x with
    | some (lo, hi) => lo :: hi :: mkAccesses c o m covers ins (id + 2) r
    | none => x :: mkAccesses c o m covers ins (id + 1) r

/-- Timestamps of SC operations whose release part is over (11 R285 steps 2 and 3): of an instruction's SC atomics, or of a
FENCE.SC. The operation's log entry is written with it (18 R414). -/
def State.stampSc (s : State) (core b : Nat) (a lane : Nat) : State × Nat :=
  let ts := s.coreClock core + 1
  let s := s.setCore core { s.core core with lead := (s.core core).lead + 1 }
  (if s.det b then s.orderLog b core 0x10 ts a (core + lane * 2 ^ 10) else s, ts)

/-- SC atomics that can take their timestamp now: the instructions' first accesses. -/
def State.scAtoms (s : State) : List Access :=
  s.accesses.filter fun x => x.ord == 3 && x.ts == 0 &&
    (s.accesses.all fun y => !(y.team == x.team && y.ins < x.ins) || !y.pending) &&
    (s.pairs.all fun p => !(p.team == x.team && p.id < x.ins && !p.accepted)) &&
    !(s.accesses.any fun y => y.ins == x.ins && y.id < x.id)

/-- FENCE.SC operations that can take their timestamp: no earlier write of the team is unacknowledged. -/
def State.scFences (s : State) : List Engine :=
  s.engines.filter fun e => (match e.kind with | .fenceSc ts => ts == 0 | _ => false) &&
    (s.accesses.all fun y => !(y.team == e.team && y.ins < e.ins) || !y.pending) &&
    (s.pairs.all fun p => !(p.team == e.team && p.id < e.ins && !p.accepted))

/-- A log without a free entry delays the timestamp (18 R415). -/
def State.scLogOk (s : State) (b core : Nat) : Bool := !s.det b || 0 < s.logFree (dieOfCore core) .order

/-- Give timestamps to the SC operations that are due. -/
def State.stampAll (s : State) : State :=
  let s := s.scAtoms.foldl (fun s x =>
    if s.scLogOk x.block x.core then
      let (s, ts) := s.stampSc x.core x.block x.va.toNat x.lane
      { s with accesses := s.accesses.map fun (y : Access) => if y.ins = x.ins then { y with ts := ts } else y }
    else s) s
  s.scFences.foldl (fun s e =>
    if s.scLogOk e.block e.core then
      let (s, ts) := s.stampSc e.core e.block 0 e.lane
      { s with engines := s.engines.map fun (y : Engine) => if y.id = e.id then { y with kind := .fenceSc ts } else y }
    else s) s

/-- Outstanding memory requests of a core (01 R22). -/
def coreRequests : Nat := 16384

/-- The 32-byte sector of a target. -/
def Target.sector (t : Target) : Target :=
  match t with
  | .hbm p => .hbm (p / 32)
  | .vault c o => .vault c (o / 32)
  | .host p => .host (p / 32)
  | .remote a p => .remote a (p / 32)
  | .door o => .door (o / 32)

/-- The request that an access belongs to: one for each sector that the lanes of an instruction reach (10 R242). -/
def Access.request (a : Access) : Nat × Target := (a.ins, a.target.sector)

/-- The request of a pair on its way to its pen. -/
def Pair.request (p : Pair) : Nat × Target := (p.ins, Target.sector (.hbm p.p))

/-- Requests of a core in flight, each access and pair with its own. -/
def State.requests (s : State) (core : Nat) : List (Nat × Target) :=
  ((s.accesses.filter fun a => a.core == core).map Access.request) ++
  (s.pairs.filter fun p => p.core == core && !p.accepted).map Pair.request

/-- The core can take these requests more: accesses and pairs with the same one count once (01 R22; 10 R242).
(Log 142, DEDUCED.) -/
def State.requestRoom (s : State) (core : Nat) (rs : List (Nat × Target)) : Bool :=
  let all := s.requests core ++ rs
  decide (all.length ≤ coreRequests) || decide (all.eraseDups.length ≤ coreRequests)

/-- A TLD whose line the cluster's table cache lacks as it is issued: a fill of its own is in flight (10 R256; 20 R428).
(Log 143, DEDUCED.) -/
def State.tableMisses (s : State) (a : Access) : Bool :=
  a.tabled && match a.target with
    | .hbm p => !(s.tlines.any fun l => l.cluster == clusterOfCore a.core && l.line == p / 64)
    | _ => false

/-- Issue an M64 instruction (10 R239 to R245): each lane is checked alone, and the lanes that pass have accesses in flight. A core
with no room for them delays the issue (01 R22). -/
def memInstr (i : Instr) (o : M64) (m : MemOp) (s : State) : Host.Outcome State Fault Refusal :=
  runInstr i s fun c =>
    let n := memBytes o
    let found := c.act.map fun L => (L, effAddr c.team L o, s.checkMem c L (effAddr c.team L o) n m)
    let f1 := found.filterMap fun x => match x.2.2 with | .error e => some (x.1, e) | .ok _ => none
    let ok1 := found.filterMap fun x => match x.2.2 with | .ok t => some (x.1, x.2.1, t) | .error _ => none
    let f2 := s.logFaults c (s.laneLogs c n m o.ord.toNat ok1)
    let ok2 := ok1.filter fun x => (f2.lookup x.1).isNone
    let full3 := if m.kind == .write then s.overLanes c.team.block c.node ok2 (s.pendingLines c.team.block) else []
    let f3 := full3.map fun L =>
      (L, ({ code := 0x13, addr := BitVec.ofNat 64 (effAddr c.team L o), info := s.heldKib c.team.block } : FaultInfo))
    let ok3 := ok2.filter fun x => !full3.contains x.1
    let f4 := ok3.filterMap fun x => (atomEmu m o s.stamp x.2.1 x.2.2).map fun e => (x.1, e)
    let ok4 := ok3.filter fun x => (f4.lookup x.1).isNone
    let full := if m.counts then c.team.ldc == 255 else c.team.stc == 255
    if ok4 == [] then { st := s, faults := f1 ++ f2 ++ f3 ++ f4 }
    else
      let accs := (mkAccesses c o m (s.covers c.iss.team) s.fresh (s.fresh + 1) ok4).map fun (a : Access) =>
        { a with missed := s.tableMisses a }
      if full || !s.requestRoom c.team.core (accs.map Access.request) then { st := s, stall := true } else
      let t := if m.counts then { c.team with ldc := c.team.ldc + 1 } else { c.team with stc := c.team.stc + 1 }
      let s := s.setTeam c.iss.team t
      let s := if m.kind == .write && 2 ≤ o.ord.toNat then s.releasePoint c.iss.team (ok4.map (·.1)) else s
      let s := { s with accesses := s.accesses ++ accs, fresh := s.fresh + 1 + accs.length }
      { st := s.stampAll, faults := f1 ++ f2 ++ f3 ++ f4 }

/-- LD (10 R243). -/
def execLd (o : M64) (s : State) : Host.Outcome State Fault Refusal := memInstr (.ld o) o .load s
/-- ST (10 R243). -/
def execSt (o : M64) (s : State) : Host.Outcome State Fault Refusal := memInstr (.st o) o .store s
/-- TLD (10 R255). -/
def execTld (o : M64) (s : State) : Host.Outcome State Fault Refusal := memInstr (.tld o) o .tload s
/-- WATCH (10 R273). -/
def execWatch (o : M64) (s : State) : Host.Outcome State Fault Refusal := memInstr (.watch o) o .watch s
/-- ATOM.ADD (10 R257). -/
def execAtomAdd (o : M64) (s : State) : Host.Outcome State Fault Refusal := memInstr (.atomAdd o) o (.atomic 0) s
/-- ATOM.FADD. -/
def execAtomFadd (o : M64) (s : State) : Host.Outcome State Fault Refusal := memInstr (.atomFadd o) o (.atomic 1) s
/-- ATOM.MIN. -/
def execAtomMin (o : M64) (s : State) : Host.Outcome State Fault Refusal := memInstr (.atomMin o) o (.atomic 2) s
/-- ATOM.MAX. -/
def execAtomMax (o : M64) (s : State) : Host.Outcome State Fault Refusal := memInstr (.atomMax o) o (.atomic 3) s
/-- ATOM.AND. -/
def execAtomAnd (o : M64) (s : State) : Host.Outcome State Fault Refusal := memInstr (.atomAnd o) o (.atomic 4) s
/-- ATOM.OR. -/
def execAtomOr (o : M64) (s : State) : Host.Outcome State Fault Refusal := memInstr (.atomOr o) o (.atomic 5) s
/-- ATOM.XOR. -/
def execAtomXor (o : M64) (s : State) : Host.Outcome State Fault Refusal := memInstr (.atomXor o) o (.atomic 6) s
/-- ATOM.XCHG. -/
def execAtomXchg (o : M64) (s : State) : Host.Outcome State Fault Refusal := memInstr (.atomXchg o) o (.atomic 7) s
/-- ATOM.CAS. -/
def execAtomCas (o : M64) (s : State) : Host.Outcome State Fault Refusal := memInstr (.atomCas o) o (.atomic 8) s

/-! ### Counters, WAITC and WAITW -/

/-- The four counters are at or below their limits (10 R246). -/
def Team.countersOk (t : Team) (ld st cp tl : Nat) : Bool := t.ldc ≤ ld && t.stc ≤ st && t.cpc ≤ cp && t.tlc ≤ tl

/-- Lanes waiting at WAITC whose condition holds become READY (10 R246). -/
def Team.wakeCounters (t : Team) : Team :=
  let ls := laneList.filter fun L => (t.lane L).waitsAt fun w =>
    match w with | .counters ld st cp tl => t.countersOk ld st cp tl | _ => false
  if ls = [] then t else (t.mapLanes ls fun _ l => l.release 3).refresh

/-- WAITC (10 R246). -/
def execWaitc (o : X96) (s : State) : Host.Outcome State Fault Refusal :=
  runInstr (.waitc o) s fun c =>
    let ld := natBits o.lit.toNat 7 0
    let st := natBits o.lit.toNat 15 8
    let cp := natBits o.lit.toNat 23 16
    let tl := natBits o.lit.toNat 31 24
    if c.team.countersOk ld st cp tl then { st := s }
    else { st := s, waits := c.act.map fun L => (L, .counters ld st cp tl), check := true }

/-- A WATCH of one of these lanes has not been performed yet. -/
def State.watchDue (s : State) (tn : Nat) (ls : List Nat) : Bool :=
  s.accesses.any fun a => a.team == tn && ls.contains a.lane && a.stage == .issued && a.kind == .watch

/-- WAITW (10 R274): it waits on the watch that the lane's WATCHes before it in program order leave. (Log 128, DEDUCED.) -/
def execWaitw (o : S32) (s : State) : Host.Outcome State Fault Refusal :=
  runInstr (.waitw o) s fun c =>
    if s.watchDue c.iss.team c.act then { st := s, stall := true }
    else
    let d := c.form.d.field.toNat
    let armed := c.act.filter fun L => match (c.team.lane L).watch with | .armed _ => true | _ => false
    let now := c.act.filter fun L => !armed.contains L
    let t := now.foldl (fun t L =>
      (t.setLane L { t.lane L with watch := .none }).setV L d (if (c.team.lane L).watch == .triggered then 0 else 2)) c.team
    { st := s.setTeam c.iss.team t, waits := armed.map fun L => (L, .watch d) }

/-- WAITW_TIMEOUT (10 R274): a lane's watch has not triggered for 65,536 cycles. -/
def execWaitwTimeout (t lane : Nat) (s : State) : Host.Outcome State Fault Refusal :=
  let tm := s.team t
  match (tm.lane lane).st with
  | .waiting (.watch d) =>
    .next (s.setTeam t ((tm.setLane lane { (tm.lane lane).release 1 with watch := .none }).setV lane d 1).refresh)
  | _ => .next s

/-! ### Fences (10 R247) -/

/-- Earlier reads of the issuing lanes are not performed yet: an acquire follows them (11 R281). -/
def State.readsDue (s : State) (tn : Nat) (ls : List Nat) : Bool :=
  s.accesses.any fun a => a.team == tn && ls.contains a.lane && a.stage == .issued && a.kind != .store

/-- FENCE.ACQ (10 R247). (Log 38, DEDUCED.) -/
def execFenceAcq (s : State) : Host.Outcome State Fault Refusal :=
  runInstr .fenceAcq s fun c => teamEffect s c fun _ =>
    if s.readsDue c.iss.team c.act then { st := s, stall := true }
    else { st := (s.acquire c.team.core).learnHeard c.iss.team c.act }

/-- FENCE.REL (10 R247): the path cannot issue until the team's earlier writes are acknowledged. (Log 38, DEDUCED.) -/
def execFenceRel (s : State) : Host.Outcome State Fault Refusal :=
  runInstr .fenceRel s fun c => teamEffect s c fun _ =>
    let ids := s.unacked c.iss.team
    let clock := s.coreClock c.team.core
    let covers := s.covers c.iss.team
    let s := s.setTeam c.iss.team (c.team.mapLanes c.act fun _ l =>
      { l with rel := clock, fenced := covers, know := l.know.join covers })
    { st := s, hold := if ids = [] then .none else .acks ids }

/-- FENCE.SC (10 R247, 11 R285): in deterministic mode its log entry needs room. (Log 38, DEDUCED.) -/
def execFenceSc (s : State) : Host.Outcome State Fault Refusal :=
  runInstr .fenceSc s fun c => teamEffect s c fun m =>
    let faults := c.act.filterMap fun L =>
      (s.logNeed c.iss.team L (dieOfCore c.team.core) .order 1).map fun e => (L, e)
    if faults != [] then { st := s, faults := faults }
    else if s.readsDue c.iss.team c.act then { st := s, stall := true }
    else
      let e : Engine := { id := s.fresh, ins := s.fresh, kind := .fenceSc 0, team := c.iss.team, block := c.team.block,
                          core := c.team.core, func := c.block.func, lane := m, lanes := c.act, supervisor := false,
                          aborted := false }
      { st := ({ s with engines := s.engines ++ [e], fresh := s.fresh + 1 }).stampAll, hold := .sc e.id }

/-- Earlier writes of the issuing lanes are not performed yet: a table line must not be filled before them, after the fence (11 R290). -/
def State.writesDue (s : State) (tn : Nat) (ls : List Nat) : Bool :=
  (s.accesses.any fun a => a.team == tn && ls.contains a.lane && a.stage == .issued && a.kind == .store) ||
  s.pairs.any fun p => p.team == tn && ls.contains p.lane && !p.accepted

/-- FENCE.TBL: an acquire, then invalidation of the cluster's table cache (10 R247, R256). (Log 38, DEDUCED.) -/
def execFenceTbl (s : State) : Host.Outcome State Fault Refusal :=
  runInstr .fenceTbl s fun c => teamEffect s c fun _ =>
    if s.readsDue c.iss.team c.act || s.writesDue c.iss.team c.act then { st := s, stall := true }
    else
      let cl := clusterOfCore c.team.core
      let s := (s.acquire c.team.core).learnHeard c.iss.team c.act
      { st := { s with tlines := s.tlines.filter fun l => l.cluster != cl } }

end Sys2Proof.Machine
end

