-- ==== Sys2Proof/Machine/Tile.lean ====
section
/-! DEFINITION. Tile handles, element addresses, engine accesses and zero flags (02 R54 to R56; 10 R249, R269 to R272). -/
namespace Sys2Proof.Machine

/-- The fields of a tile handle (02 R54). -/
def Handle.parse (v : Nat) : Handle :=
  { base := BitVec.ofNat 64 (natBits v 56 0), fmt := natBits v 60 57, rows := natBits v 77 64 + 1,
    cols := natBits v 91 78 + 1, stride := natBits v 107 92,
    scale := ((BitVec.ofNat 8 (natBits v 115 108)).toInt), zfi := natBits v 127 116, bits := BitVec.ofNat 128 v }

/-- Element size in bits of an FMT code (02 R55). -/
def fmtBits (f : Nat) : Nat :=
  if f = 0 || f = 10 || f = 11 then 32 else if f = 1 || f = 2 || f = 9 then 16 else if f = 6 then 4 else 8

/-- Byte address of element (i, j) (02 R54). -/
def Handle.addr (h : Handle) (i j : Nat) : Nat := h.base.toNat + i * 16 * h.stride + j * fmtBits h.fmt / 8

/-- Address of the last byte of the tile. -/
def Handle.lastByte (h : Handle) : Nat := h.base.toNat + (h.rows - 1) * 16 * h.stride + (h.cols * fmtBits h.fmt + 7) / 8 - 1

/-- The checks of 02 R56, before any element is read. -/
def Handle.fault (h : Handle) (word : Word) : Option FaultInfo :=
  if natBits h.bits.toNat 63 61 != 0 || 12 ≤ h.fmt then some { code := codeIllegal, info := word }
  else if h.base.toNat % 16 != 0 || (1 < h.rows && 16 * h.stride < (h.cols * fmtBits h.fmt + 7) / 8) then
    some (.at codeAlign 0 h.base.toNat)
  else if windowOf h.lastByte != windowOf h.base.toNat then some (.at codeStraddle 0 h.base.toNat)
  else none

/-- An engine's access of `n` bytes in one page for an agent (09 R222, R224; 03 R62). Code 0 says that it waits: for a
referred walk, for room in the memory-order log (18 R415), or for the pairs of a function that is cut (17 R402). -/
def State.engineAccess (s : State) (ag : Agent) (kind : AccessKind) (a n : Nat) : Except FaultInfo Target :=
  if windowOf a = 3 then .error (.at codeNowin 0 a)
  else match s.resolve ag kind a n with
    | .error e => .error e
    | .ok t =>
      match s.apertureFault ag.func a t with
      | some e => .error e
      | none =>
        if s.reachable t then .ok t else .error { code := 0 }

/-- Read for a block's engine: pending pairs of the line are applied, and a version sees its own held bytes. -/
def State.engineRead (s : State) (b : Nat) (ag : Agent) (a n : Nat) : Except FaultInfo (State × Nat) :=
  match s.engineAccess ag .read a n with
  | .error e => .error e
  | .ok t =>
    let s := (s.callHome (s.team ag.who.team).core t).reach t
    match t with
    | .hbm p => .ok (s, (s.block b).overlay ag.who p n (s.peek t n))
    | _ => .ok (s, s.peek t n)

/-- Write for a block's engine at a resolved target: held by a version where it writes global HBM (17 R395), else performed
and registered under the core, with its lane's last release (11 R281). -/
def State.engineWrite (s : State) (b : Nat) (core : Nat) (ag : Agent) (a : Nat) (t : Target) (n v : Nat) : State :=
  let s :=
    if (match t with | .hbm _ => (s.nodeOf b).versioned && windowOf a == 0 | _ => false) then
      match t with
      | .hbm p => s.setBlock b ((s.block b).holdFor (ag.who.team, ag.who.lane, ag.who.ins) p n v)
      | _ => s
    else ((((s.callHome core t).reach t).noteArena ag a n v).poke (core + 1) ag.rel false t n v)
  s.setBlock b ((s.block b).carry t n false ag.carries)

/-- The encoding of element (i, j): a byte or more, or half a byte of S1P4. -/
def State.readElem (s : State) (b : Nat) (ag : Agent) (h : Handle) (i j : Nat) : Except FaultInfo (State × Nat) :=
  let n := (fmtBits h.fmt + 7) / 8
  match s.engineRead b ag (h.addr i j) n with
  | .error e => .error e
  | .ok (s, v) => .ok (s, if h.fmt = 6 then (if j % 2 = 0 then v % 16 else v / 16 % 16) else v)

/-- An element encodes zero (10 R270). -/
def elemZero (fmt v : Nat) : Bool :=
  if fmt ≤ 4 then v % 2 ^ (fmtBits fmt - 1) == 0
  else if fmt = 5 then natBits v 6 4 == 7 && natBits v 2 0 == 7
  else if fmt = 6 then natBits v 2 0 == 7
  else v == 0

/-! ### Tile blocks and zero flags -/

/-- Tile blocks per row of blocks. -/
def Handle.blockCols (h : Handle) : Nat := (h.cols + 31) / 32
/-- NB: flags that a record holds (10 R270). -/
def Handle.blocks (h : Handle) : Nat := min ((h.rows + 31) / 32 * h.blockCols) 2048

/-- Elements of tile block `b`. -/
def Handle.blockElems (h : Handle) (b : Nat) : List (Nat × Nat) :=
  let r0 := b / h.blockCols * 32
  let c0 := b % h.blockCols * 32
  (List.range (min 32 (h.rows - r0))).flatMap fun i => (List.range (min 32 (h.cols - c0))).map fun j => (r0 + i, c0 + j)

/-- Granules of the element bytes of a tile block; none where a byte does not translate to HBM. -/
def State.blockGranules (s : State) (ag : Agent) (h : Handle) (b : Nat) : Option (List Nat) :=
  (h.blockElems b).foldl (fun acc e =>
    match acc with
    | none => none
    | some l =>
      match s.engineAccess ag .read (h.addr e.1 e.2) 1 with
      | .ok (.hbm p) => some (if l.contains (p / 65536) then l else l ++ [p / 65536])
      | _ => none) (some [])

/-- GENSUM of a list of granules (10 R270). -/
def State.gensum (s : State) (gs : List Nat) : Nat := (gs.map fun g => s.gens.get 0 g).sum % 2 ^ 31

/-- Some granule is saturated. -/
def State.saturated (s : State) (gs : List Nat) : Bool := gs.any fun g => s.gens.get 0 g == 0xFFFFFFFF

/-- Address of zero-flag record `i` of a function (10 R270). -/
def Func.zflagAddr (f : Func) (i : Nat) : Nat := natBits f.zfbase.toNat 55 14 * 16384 + 0x4000 * i

/-- A field of a zero-flag record, where it can be read. -/
def State.zflagField (s : State) (b : Nat) (ag : Agent) (a n : Nat) : Option Nat :=
  match s.engineRead b ag a n with
  | .ok (_, v) => some v
  | .error _ => none

/-- A consumer trusts the flag of block `blk` of a handle: the block is zero (10 R272). -/
def State.trusted (s : State) (b : Nat) (ag : Agent) (h : Handle) (blk : Nat) : Bool :=
  let a := (s.func ag.func).zflagAddr h.zfi
  h.zfi != 0 && windowOf a == 0 &&
  (match s.zflagField b ag a 16, s.zflagField b ag (a + 16) 4, s.zflagField b ag (a + 20) 4,
         s.zflagField b ag (a + 0x40 + 4 * blk) 4, s.blockGranules ag h blk with
   | some hb, some st, some nb, some fl, some gs =>
     st % 2 == 1 && hb == h.bits.toNat && decide (blk < nb) && decide (2 ^ 31 ≤ fl) && fl % 2 ^ 31 == s.gensum gs &&
     !s.saturated gs
   | _, _, _, _, _ => false)

/-! ### Range-lock entries of engine operations -/

/-- Free entry numbers of a core's range-lock table (10 R249). -/
def Core.freeSlots (c : Core) : List Nat := (List.range 64).filter fun i => !(c.locks.any fun l => l.slot == i)

/-- Register a range of an engine operation; which free entry it takes the manual does not state.
(Log 40, DESIGN CHOICE.) -/
def State.lockRange (s : State) (core : Nat) (ag : Agent) (op first last : Nat) (dst : Bool) : State :=
  let c := s.core core
  let free := c.freeSlots
  let slot := free.getD (Config.freePick s.stamp first % free.length) 0
  let pl := lockPlace ag first
  s.setCore core { c with locks := c.locks ++
    [{ slot := slot, first := pl.2, last := pl.2 + (last - first), dst := dst, func := ag.func, vault := pl.1,
       priv := windowOf first == 2, op := op }] }

/-- `n` bytes at address `a` of a lane overlap an entry of operation `op` (10 R249). -/
def State.lockMeets (s : State) (core op func tn L a n : Nat) : Bool :=
  let pl := lockPlace (s.agentOf tn L) a
  (s.core core).locks.any fun l =>
    l.op == op && l.func == func && l.vault == pl.1 && overlaps l.first (l.last + 1 - l.first) pl.2 n

/-- Accesses issued earlier on the core that overlap an entry of operation `op` have been performed, and pairs accepted (10
R250, R276). -/
def State.lockClear (s : State) (core op : Nat) : Bool :=
  (s.accesses.all fun x => !(x.core == core && x.id < op && x.stage == .issued) ||
    !s.lockMeets core op x.func x.team x.lane x.va.toNat x.size) &&
  s.pairs.all fun p => !(p.core == core && p.id < op && !p.accepted) ||
    !s.lockMeets core op p.func p.team p.lane p.va.toNat (regionBytes p.ty)

end Sys2Proof.Machine
end

