-- ==== Sys2Proof/Machine/Copy.lean ====
section
/-! DEFINITION. Copies and their tags (10 R250 to R254; 11 R288). -/
namespace Sys2Proof.Machine

/-- TAG of a CPY or CPY2D (10 R251). -/
def copyTag (imm : BitVec 14) : Nat := immBits imm 13 8

/-- A fault of a tag's error (10 R253, R254; 17 R393). -/
def TagError.fault (e : TagError) : FaultInfo :=
  { code := e.code, cause := e.cause, addr := e.addr, info := BitVec.ofNat 32 e.tag }

/-- Clear the error of a tag. -/
def Core.clearErr (c : Core) (tag : Nat) : Core := { c with tagErrs := c.tagErrs.filter fun e => e.tag != tag }

/-- Rows 1 and 2 of 09 R219 and the vault rules on the first and last byte of a range (10 R251); TADDR is the lowest byte of the
range that fails (17 R393). -/
def State.copyRange (s : State) (ag : Agent) (first last : Nat) : Option FaultInfo :=
  if windowOf first = 3 then some (.at codeNowin 0 first)
  else if windowOf last ≠ windowOf first then some (.at codeStraddle 0 first)
  else if windowOf first = 1 then
    if s.vaultBad ag first || s.vaultBad ag last then
      some (.at codeVaultbound 0 ((firstBad (s.vaultBad ag) first (last + 1 - first)).getD last))
    else none
  else none

/-- First and last byte of a side of a copy: the bounding range of its rows (10 R252). -/
def boundRange (a rows rowBytes : Nat) (stride : Int) : Int × Int :=
  let far : Int := (a : Int) + ((rows : Int) - 1) * stride
  (min (a : Int) far, max (a : Int) far + (rowBytes : Int) - 1)

/-- Issue a copy (10 R251, R252). Where both ranges fail their checks, which fault is raised the manual does not state; nor what a range
that begins below address 0 raises. (Log 76, DESIGN CHOICE; log 152, DESIGN CHOICE.) -/
def copyInstr (i : Instr) (s : State) (shape : Ctx → Nat → Nat × Nat × Int × Int) : Host.Outcome State Fault Refusal :=
  runInstr i s fun c => teamEffect s c fun m =>
    let core := s.core c.team.core
    let tag := copyTag c.form.imm
    if !core.tags.getLsbD tag || core.freeSlots.length < 2 then { st := s, stall := true }
    else match core.tagErrs.find? fun e => e.tag == tag with
    | some e => faultAll (s.setCore c.team.core (core.clearErr tag)) c e.fault
    | none =>
      let dst := (rd64 c.team m c.form 0).toNat
      let src := (rd64 c.team m c.form 1).toNat
      let (rows, rb, ds, ss) := shape c m
      if rows * rb = 0 then { st := s.setCore c.team.core { core with tags := setBit core.tags tag true } }
      else
        let ag := s.agentOf c.iss.team m
        let dr := boundRange dst rows rb ds
        let sr := boundRange src rows rb ss
        let bad (r : Int × Int) (a : Nat) : Option FaultInfo :=
          if r.1 < 0 then some (.at codeStraddle 0 a) else s.copyRange ag r.1.toNat r.2.toNat
        let fd := bad dr dst
        let fs := bad sr src
        match (if Config.freePick s.stamp 0 % 2 = 0 then fd.or fs else fs.or fd) with
        | some e => faultAll s c e
        | none =>
          if c.team.cpc = 255 then { st := s, stall := true }
          else
            let op := s.fresh
            let s := { s with fresh := op + 1 }
            let s := s.lockRange c.team.core ag op sr.1.toNat sr.2.toNat false
            let s := s.lockRange c.team.core ag op dr.1.toNat dr.2.toNat true
            let core := s.core c.team.core
            let cp : Copy := { op := op, func := c.block.func, team := c.iss.team, block := c.team.block, lane := m,
                               supervisor := (c.team.lane m).trap, dst := BitVec.ofNat 64 dst, src := BitVec.ofNat 64 src,
                               rows := rows, rowBytes := rb, dstStride := ds, srcStride := ss,
                               knows := (c.team.lane m).know, rel := (c.team.lane m).rel, carries := (c.team.lane m).fenced }
            let s := s.setCore c.team.core
              { core with tags := setBit core.tags tag false, copies := core.copies.set {} tag cp }
            { st := s.setTeam c.iss.team { c.team with cpc := c.team.cpc + 1 } }

/-- CPY (10 R251). -/
def execCpy (o : L64) (s : State) : Host.Outcome State Fault Refusal :=
  copyInstr (.cpy o) s fun c m => (1, natBits (rd32 c.team m c.form 2).toNat 23 0, 0, 0)

/-- CPY2D (10 R252). -/
def execCpy2d (o : X96) (s : State) : Host.Outcome State Fault Refusal :=
  copyInstr (.cpy2d o) s fun c m =>
    let b := (rd32 c.team m c.form 2).toNat
    (natBits b 31 20 + 1, natBits b 19 0, (rd32 c.team m c.form 3).toInt, o.lit.toInt)

/-! ### The transfer -/

/-- Bytes of a copy. -/
def Copy.total (c : Copy) : Nat := c.rows * c.rowBytes

/-- Source and destination addresses of offset `i`, row by row. -/
def Copy.place (c : Copy) (i : Nat) : Nat × Nat :=
  let r : Int := (i / c.rowBytes : Nat)
  let b : Int := (i % c.rowBytes : Nat)
  (((c.src.toNat : Int) + r * c.srcStride + b).toNat % 2 ^ 64, ((c.dst.toNat : Int) + r * c.dstStride + b).toNat % 2 ^ 64)

/-- The copy's agent: its elected lane at the level it had at issue. -/
def State.copyAgent (s : State) (c : Copy) : Agent :=
  { s.agentFor c.team c.lane c.supervisor c.op c.knows with rel := c.rel, carries := c.carries }

/-- As whom a copy on a tag of a core writes the bytes that a version holds: its writes happen-before what follows an observation
of the tag alone (11 R288). (Log 122, DEDUCED.) -/
def tagWriter (core tag : Nat) : Nat := 2 ^ 32 + 64 * core + tag

/-- Write kinds that a version may not make, at a copy's destination (17 R395). -/
def State.copyDst (s : State) (c : Copy) (ag : Agent) (a : Nat) : Except FaultInfo Target :=
  match s.engineAccess ag .write a 1 with
  | .error e => .error e
  | .ok t =>
    match s.versionFault (s.nodeOf c.block) c.func a .write t with
    | some e => .error e
    | none => .ok t

/-- The source bytes of `n` offsets from `i`, up to the first that faults, and that fault; code 0 waits. -/
def State.copySource (s : State) (c : Copy) (ag : Agent) (i n : Nat) : State × List Byte × Option FaultInfo :=
  match n with
  | 0 => (s, [], none)
  | k + 1 =>
    match s.engineRead c.block ag (c.place i).1 1 with
    | .error e => (s, [], some e)
    | .ok (s, v) =>
      let (s, r, e) := s.copySource c ag (i + 1) k
      (s, BitVec.ofNat 8 v :: r, e)

/-- COPY_START (10 R250, R251): the transfer begins once the overlapping accesses issued before it, and its lane's earlier
acquires, are performed. Where source and destination overlap, every source byte is read before any destination byte is
written. -/
def execCopyStart (core tag : Nat) (s : State) : Host.Outcome State Fault Refusal :=
  let c := (s.core core).copies.get {} tag
  if c.total = 0 || c.started || !s.lockClear core c.op || s.acquireOpen c.team c.lane c.op then .next s
  else
    let ag := s.copyAgent c
    let dr := boundRange c.dst.toNat c.rows c.rowBytes c.dstStride
    let sr := boundRange c.src.toNat c.rows c.rowBytes c.srcStride
    let pd := lockPlace ag dr.1.toNat
    let ps := lockPlace ag sr.1.toNat
    let lap := pd.1 == ps.1 && overlaps pd.2 (dr.2 + 1 - dr.1).toNat ps.2 (sr.2 + 1 - sr.1).toNat
    let r := if lap then s.copySource c ag 0 c.total else (s, [], none)
    match r.2.2.filter fun e => e.code == 0 with
    | some e => .next (s.waitFor ag e)
    | none =>
      let k := r.1.core core
      let c := { c with started := true, overlap := lap, buffer := r.2.1, bufferEnd := r.2.2 }
      .next (r.1.setCore core { k with copies := k.copies.set {} tag c })

/-- A destination line of a version that would exceed VBUDGET (17 R396). -/
def State.copyOver (s : State) (c : Copy) (a : Nat) (t : Target) : Bool :=
  match heldTarget (s.nodeOf c.block) a t with
  | some p => s.versOver c.block ((p / 64) :: s.pendingLines c.block)
  | none => false

/-- Copy one byte: the copy with its progress, and the state. -/
def State.copyByte (s : State) (core tag : Nat) (c : Copy) : State × Copy :=
  let ag := s.copyAgent c
  let (sa, da) := c.place c.done
  let src : Except FaultInfo (State × Nat) :=
    if c.overlap then
      match c.buffer[c.done]?, c.bufferEnd with
      | some b, _ => .ok (s, b.toNat)
      | none, some e => .error e
      | none, none => s.engineRead c.block ag sa 1
    else s.engineRead c.block ag sa 1
  match src with
  | .error e => if e.code = 0 then (s.waitFor ag e, c) else (s.dropAnswers ag.who.team [ag.asks], { c with failed := some e })
  | .ok (s, v) =>
    match s.copyDst c ag da with
    | .error e => if e.code = 0 then (s.waitFor ag e, c) else (s.dropAnswers ag.who.team [ag.asks], { c with failed := some e })
    | .ok t =>
      if s.copyOver c da t then
        (s, { c with failed := some { code := 0x13, addr := BitVec.ofNat 64 da, info := s.heldKib c.block } })
      else
        let ag := { ag with who := { ag.who with team := tagWriter core tag } }
        (s.engineWrite c.block core ag da t 1 v, { c with done := c.done + 1 })

/-- Copy up to `n` bytes. -/
def State.copyBytes (s : State) (core tag : Nat) (c : Copy) (n : Nat) : State × Copy :=
  match n with
  | 0 => (s, c)
  | k + 1 =>
    if c.total ≤ c.done || c.failed.isSome || (c.aborted && c.done % 4096 == 0) then (s, c)
    else
      let (s, c) := s.copyByte core tag c
      s.copyBytes core tag c k

/-- A turn of the copy engine: it moves up to `n` bytes (10 R251, 11 R288). -/
def State.copyMove (s : State) (core tag n : Nat) : State :=
  let c := (s.core core).copies.get {} tag
  if !c.started then s
  else
    let (s, c) := s.copyBytes core tag c n
    let k := s.core core
    s.setCore core { k with copies := k.copies.set {} tag c }

/-! ### Waiting on tags -/

/-- The condition of a TWAIT (10 R254). -/
def tagsOk (tags : Dbl) (all : Bool) (m : Dbl) : Bool := if all then tags &&& m == m else m == 0 || tags &&& m != 0

/-- The lowest tag set in both masks; 64 if none. -/
def lowestTag (m : Dbl) : Nat := ((List.range 64).find? fun i => m.getLsbD i).getD 64

/-- The error that a lane with mask `m` reports: that of the lowest tag set in M and in TAGS (10 R254). -/
def Core.tagError (c : Core) (m : Dbl) : Option TagError :=
  let t := lowestTag (c.tags &&& m)
  c.tagErrs.find? fun e => e.tag == t

/-- A lane observes the tags of a mask that are set: their copies happen-before what it does next (11 R281, R288). -/
def State.observe (s : State) (tn : Nat) (ls : List Nat) (m : Nat → Dbl) : State :=
  let n := (s.team tn).core
  if !(s.nodeOf (s.team tn).block).versioned then s
  else ls.foldl (fun s L =>
    let tags := (List.range 64).filter fun i => (s.core n).tags.getLsbD i && (m L).getLsbD i
    s.learnNow tn [L] (tags.map fun i => (tagWriter n i, s.fresh))) s

/-- Clear the errors that lanes reported. -/
def Core.clearErrs (c : Core) (es : List TagError) : Core := es.foldl (fun c e => c.clearErr e.tag) c

/-- Release the lanes of a team whose TWAIT condition holds; lanes whose tag holds an error fault with it. The errors
reported are cleared by the caller. -/
def State.wakeTags (s : State) (tn : Nat) : State × List TagError :=
  let t := s.team tn
  let core := s.core t.core
  let due := laneList.filterMap fun L => match (t.lane L).st with
    | .waiting (.tags all m) => if tagsOk core.tags all m then some (L, core.tagError m) else none
    | _ => none
  if due = [] then (s, [])
  else
    let ok := (due.filter fun x => x.2.isNone).map (·.1)
    let mask (L : Nat) : Dbl := match (t.lane L).st with
      | .waiting (.tags _ m) => m
      | _ => 0
    let s := (s.setTeam tn (t.mapLanes ok fun _ l => l.release 1).refresh).observe tn ok mask
    let bad := due.filterMap fun x => x.2.map fun e => (x.1, e)
    let at' (L : Nat) : Dbl := (t.lane L).pc
    (s.takeAll tn (bad.map fun x => (x.1, x.2.fault, at' x.1, nextPc (at' x.1) 1)), bad.map (·.2))

/-- Release checks on every team of a core after TAGS changed. -/
def State.wakeCore (s : State) (core : Nat) : State :=
  let tns := (s.teams.filter fun p => p.2.core == core && p.2.resident).map (·.1)
  let (s, es) := tns.foldl (fun (acc : State × List TagError) tn =>
    let (s, es) := acc.1.wakeTags tn
    (s, es ++ acc.2)) (s, [])
  if es = [] then s else s.setCore core ((s.core core).clearErrs es)

/-- COPY_COMPLETE (10 R253): entries are removed, the tag is set, CPC falls, and a fault leaves an unreported error. -/
def execCopyComplete (core tag : Nat) (s : State) : Host.Outcome State Fault Refusal :=
  let k := s.core core
  let c := k.copies.get {} tag
  if !(c.total != 0 && ((c.started && (c.done == c.total || c.failed.isSome)) || (c.aborted && c.done % 4096 == 0))) then
    .next s
  else
    let err := if c.aborted then [] else match c.failed with
      | some e => [{ tag := tag, code := e.code, cause := e.cause, addr := e.addr : TagError }]
      | none => []
    let s := s.unlock core c.op
    let k := s.core core
    let s := s.setCore core { k with
      tags := setBit k.tags tag true, copies := k.copies.erase tag, tagErrs := k.tagErrs ++ err }
    let t := s.team c.team
    let s := s.setTeam c.team { t with cpc := t.cpc - 1 }.wakeCounters
    .next ((s.wakeCore core).blockSaved c.block)

/-- TWAIT.ANY and TWAIT.ALL (10 R254). -/
def twait (i : Instr) (all : Bool) (s : State) : Host.Outcome State Fault Refusal :=
  runInstr i s fun c =>
    let core := s.core c.team.core
    let m (L : Nat) : Dbl := rd64 c.team L c.form 1
    let now := c.act.filter fun L => tagsOk core.tags all (m L)
    let errs := now.filterMap fun L => (core.tagError (m L)).map fun e => (L, e)
    { st := (s.setCore c.team.core (core.clearErrs (errs.map (·.2)))).observe c.iss.team now m
      faults := errs.map fun x => (x.1, x.2.fault)
      waits := (c.act.filter fun L => !now.contains L).map fun L => (L, .tags all (m L)) }

/-- TWAIT.ANY. -/
def execTwaitAny (o : S32) (s : State) : Host.Outcome State Fault Refusal := twait (.twaitAny o) false s
/-- TWAIT.ALL. -/
def execTwaitAll (o : S32) (s : State) : Host.Outcome State Fault Refusal := twait (.twaitAll o) true s

/-- TFIND (10 R254). -/
def execTfind (o : S32) (s : State) : Host.Outcome State Fault Refusal :=
  runInstr (.tfind o) s fun c =>
    let core := s.core c.team.core
    let m (L : Nat) : Dbl := rd64 c.team L c.form 1
    let errs := c.act.filterMap fun L => (core.tagError (m L)).map fun e => (L, e)
    let ok := c.act.filter fun L => (errs.lookup L).isNone
    let t := ok.foldl (fun t L => wr32 c.team L c.form (BitVec.ofNat 32 (lowestTag (core.tags &&& m L))) t) c.team
    { st := ((s.setCore c.team.core (core.clearErrs (errs.map (·.2)))).setTeam c.iss.team t).observe c.iss.team ok m
      faults := errs.map fun x => (x.1, x.2.fault) }

end Sys2Proof.Machine
end

