-- ==== Sys2Proof/Machine/Int.lean ====
section
/-! DEFINITION. Integer, move, address and literal instructions (07 R176 to R194). -/
namespace Sys2Proof.Machine

/-! ### The operations -/

/-- A value read as signed or unsigned. -/
def asInt {w : Nat} (signed : Bool) (a : BitVec w) : Int := if signed then a.toInt else (a.toNat : Int)

/-- Clamp to a type's range (07 R184). -/
def clampInt (w : Nat) (signed : Bool) (s : Int) : Int :=
  if signed then max (-(2 ^ (w - 1) : Nat)) (min s ((2 ^ (w - 1) : Nat) - 1))
  else max 0 (min s ((2 ^ w : Nat) - 1))

/-- ADD and SUB (07 R184): exact, clamped under SAT, narrowed. -/
def addSub {w : Nat} (sub signed sat : Bool) (a b : BitVec w) : BitVec w :=
  let x := asInt signed a
  let y := asInt signed b
  let s := if sub then x - y else x + y
  BitVec.ofInt w (if sat then clampInt w signed s else s)

/-- MULHI (07 R185). -/
def mulHi (signed : Bool) (a b : Word) : Word := BitVec.ofInt 32 ((asInt signed a * asInt signed b) / 2 ^ 32)

/-- DIV and REM (07 R186): truncation toward zero; every divisor gives a result. -/
def divRem {w : Nat} (rem signed : Bool) (a b : BitVec w) : BitVec w :=
  let x := asInt signed a
  let y := asInt signed b
  let q : Int :=
    if y = 0 then (2 ^ w : Nat) - 1
    else if signed && x == -((2 ^ (w - 1) : Nat) : Int) && y == -1 then -((2 ^ (w - 1) : Nat) : Int)
    else x.tdiv y
  let m : Int :=
    if y = 0 then x
    else if signed && x == -((2 ^ (w - 1) : Nat) : Int) && y == -1 then 0
    else x - q * y
  BitVec.ofInt w (if rem then m else q)

/-- MIN and MAX (07 R187). -/
def minMax {w : Nat} (wantMax signed : Bool) (a b : BitVec w) : BitVec w :=
  if decide (asInt signed a < asInt signed b) == wantMax then b else a

/-- SHL (07 R188). -/
def shl32 (a b : Word) : Word := if 32 ≤ b.toNat then 0 else a <<< b.toNat
/-- SHR. -/
def shr32 (a b : Word) : Word := if 32 ≤ b.toNat then 0 else a >>> b.toNat
/-- SAR. -/
def sar32 (a b : Word) : Word := a.sshiftRight (min b.toNat 31)
/-- ROT: a left rotation. -/
def rot32 (a b : Word) : Word := a.rotateLeft (b.toNat % 32)

/-- Mask of a field of BFX and BFI (07 R189): position and length from operand B; none where they give no field. -/
def fieldOf (b : Word) : Option (Nat × Nat) :=
  let pos := natBits b.toNat 7 0
  let len := natBits b.toNat 15 8
  if len = 0 || 32 ≤ pos then none else some (pos, min len (32 - pos))

/-- BFX (07 R189). -/
def bfx (signed : Bool) (a b : Word) : Word :=
  match fieldOf b with
  | none => 0
  | some (pos, len) =>
    let v := a.toNat / 2 ^ pos % 2 ^ len
    if signed && v / 2 ^ (len - 1) % 2 == 1 then BitVec.ofInt 32 ((v : Int) - (2 ^ len : Nat)) else BitVec.ofNat 32 v

/-- BFI (07 R189): the low bits of `c` into the field of `a`. -/
def bfi (a b c : Word) : Word :=
  match fieldOf b with
  | none => a
  | some (pos, len) =>
    let mask : Word := BitVec.ofNat 32 ((2 ^ len - 1) * 2 ^ pos)
    (a &&& ~~~mask) ||| ((c <<< pos) &&& mask)

/-- Set bits of a word. -/
def popCount {w : Nat} (a : BitVec w) : Nat := ((List.range w).filter fun i => a.getLsbD i).length
/-- Leading zeros of a word (07 R194). -/
def clz32 (a : Word) : Nat := if a = 0 then 32 else 31 - Nat.log2 a.toNat
/-- Trailing zeros of a word. -/
def ctz32 (a : Word) : Nat := ((List.range 32).find? fun i => a.getLsbD i).getD 32

/-- Comparison of two values under condition `c` (07 R190). -/
def compare {w : Nat} (signed : Bool) (c : Nat) (a b : BitVec w) : Bool :=
  cond c (a == b) (decide (asInt signed a < asInt signed b))

/-! ### The shapes -/

/-- A 32-bit operation of two operands. -/
def alu32 (i : Instr) (lit : Option Word) (f : Form → Word → Word → Word) (s : State) :
    Host.Outcome State Fault Refusal :=
  laneInstr i s fun c L t =>
    wr32 c.team L c.form (f c.form (rd32 c.team L c.form 1) (opB32 lit c.team L c.form)) t

/-- A 32-bit operation of three operands. -/
def alu32c (i : Instr) (lit : Option Word) (f : Word → Word → Word → Word) (s : State) :
    Host.Outcome State Fault Refusal :=
  laneInstr i s fun c L t =>
    wr32 c.team L c.form (f (rd32 c.team L c.form 1) (opB32 lit c.team L c.form) (rd32 c.team L c.form 3)) t

/-- A 64-bit operation of two operands; `uns` says how LIT32 is widened. -/
def alu64 (i : Instr) (lit : Option Word) (uns : Bool) (f : Form → Dbl → Dbl → Dbl) (s : State) :
    Host.Outcome State Fault Refusal :=
  laneInstr i s fun c L t =>
    wr64 c.team L c.form (f c.form (rd64 c.team L c.form 1) (opB64 lit uns c.team L c.form)) t

/-- A comparison that writes bit L of a mask (07 R190); the mask's release check runs (08 R213). -/
def cmpInstr (i : Instr) (s : State) (f : Ctx → Nat → Bool) : Host.Outcome State Fault Refusal :=
  runInstr i s fun c =>
    let d := c.form.d.field.toNat
    { st := s.setTeam c.iss.team (c.act.foldl (fun t L => t.setKbit d L (f c L)) c.team), masks := [d] }

/-- CMP at 32 bits. -/
def cmp32 (i : Instr) (lit : Option Word) (signed : Bool) (s : State) : Host.Outcome State Fault Refusal :=
  cmpInstr i s fun c L =>
    compare signed c.form.c.field.toNat (rd32 c.team L c.form 1) (opB32 lit c.team L c.form)

/-- CMP at 64 bits. -/
def cmp64 (i : Instr) (lit : Option Word) (signed : Bool) (s : State) : Host.Outcome State Fault Refusal :=
  cmpInstr i s fun c L =>
    compare signed c.form.c.field.toNat (rd64 c.team L c.form 1) (opB64 lit (!signed) c.team L c.form)

/-- SEL (07 R191). -/
def selInstr (i : Instr) (lit : Option Word) (s : State) : Host.Outcome State Fault Refusal :=
  laneInstr i s fun c L t =>
    let k := c.form.c.field.toNat
    wr32 c.team L c.form (if c.team.kbit k L then rd32 c.team L c.form 1 else opB32 lit c.team L c.form) t

/-- ADDA: a 64-bit base plus a sign-extended word (07 R192). -/
def addaInstr (i : Instr) (lit : Option Word) (s : State) : Host.Outcome State Fault Refusal :=
  laneInstr i s fun c L t =>
    wr64 c.team L c.form (rd64 c.team L c.form 1 + (opB32 lit c.team L c.form).signExtend 64) t

/-- SHLA: a 64-bit base plus a zero-extended word shifted left (07 R192). -/
def shlaInstr (i : Instr) (lit : Option Word) (s : State) : Host.Outcome State Fault Refusal :=
  laneInstr i s fun c L t =>
    wr64 c.team L c.form
      (rd64 c.team L c.form 1 + ((opB32 lit c.team L c.form).setWidth 64 <<< c.form.c.field.toNat)) t

/-- An operation of operand A and IMM14 (07 R193). -/
def immInstr (i : Instr) (f : Form → Word → Word) (s : State) : Host.Outcome State Fault Refusal :=
  laneInstr i s fun c L t => wr32 c.team L c.form (f c.form (rd32 c.team L c.form 1)) t

/-- A unary operation (07 R194). -/
def unary (i : Instr) (f : Word → Word) (s : State) : Host.Outcome State Fault Refusal :=
  laneInstr i s fun c L t => wr32 c.team L c.form (f (rd32 c.team L c.form 1)) t


/-! ### Two- and three-operand operations (07 R183 to R192) -/

/-- ADD.S32 (07 R184). -/
def execAddS32 (o : L64) (s : State) : Host.Outcome State Fault Refusal := alu32 (.addS32 o) none (fun f a b => addSub false true (indSAT f.imm) a b) s
/-- ADD.S32 (07 R184), with LIT32 as operand B. -/
def execAddS32X96 (o : X96) (s : State) : Host.Outcome State Fault Refusal := alu32 (.addS32X96 o) (some o.lit) (fun f a b => addSub false true (indSAT f.imm) a b) s
/-- SUB.S32 (07 R184). -/
def execSubS32 (o : L64) (s : State) : Host.Outcome State Fault Refusal := alu32 (.subS32 o) none (fun f a b => addSub true true (indSAT f.imm) a b) s
/-- SUB.S32 (07 R184), with LIT32 as operand B. -/
def execSubS32X96 (o : X96) (s : State) : Host.Outcome State Fault Refusal := alu32 (.subS32X96 o) (some o.lit) (fun f a b => addSub true true (indSAT f.imm) a b) s
/-- DIV.S32 (07 R186). -/
def execDivS32 (o : L64) (s : State) : Host.Outcome State Fault Refusal := alu32 (.divS32 o) none (fun _ a b => divRem false true a b) s
/-- DIV.S32 (07 R186), with LIT32 as operand B. -/
def execDivS32X96 (o : X96) (s : State) : Host.Outcome State Fault Refusal := alu32 (.divS32X96 o) (some o.lit) (fun _ a b => divRem false true a b) s
/-- REM.S32 (07 R186). -/
def execRemS32 (o : L64) (s : State) : Host.Outcome State Fault Refusal := alu32 (.remS32 o) none (fun _ a b => divRem true true a b) s
/-- REM.S32 (07 R186), with LIT32 as operand B. -/
def execRemS32X96 (o : X96) (s : State) : Host.Outcome State Fault Refusal := alu32 (.remS32X96 o) (some o.lit) (fun _ a b => divRem true true a b) s
/-- MIN.S32 (07 R187). -/
def execMinS32 (o : L64) (s : State) : Host.Outcome State Fault Refusal := alu32 (.minS32 o) none (fun _ a b => minMax false true a b) s
/-- MIN.S32 (07 R187), with LIT32 as operand B. -/
def execMinS32X96 (o : X96) (s : State) : Host.Outcome State Fault Refusal := alu32 (.minS32X96 o) (some o.lit) (fun _ a b => minMax false true a b) s
/-- MAX.S32 (07 R187). -/
def execMaxS32 (o : L64) (s : State) : Host.Outcome State Fault Refusal := alu32 (.maxS32 o) none (fun _ a b => minMax true true a b) s
/-- MAX.S32 (07 R187), with LIT32 as operand B. -/
def execMaxS32X96 (o : X96) (s : State) : Host.Outcome State Fault Refusal := alu32 (.maxS32X96 o) (some o.lit) (fun _ a b => minMax true true a b) s
/-- CMP.S32 (07 R190). -/
def execCmpS32 (o : L64) (s : State) : Host.Outcome State Fault Refusal := cmp32 (.cmpS32 o) none true s
/-- CMP.S32 (07 R190), with LIT32 as operand B. -/
def execCmpS32X96 (o : X96) (s : State) : Host.Outcome State Fault Refusal := cmp32 (.cmpS32X96 o) (some o.lit) true s
/-- ADD.N32 (07 R184). -/
def execAddN32 (o : L64) (s : State) : Host.Outcome State Fault Refusal := alu32 (.addN32 o) none (fun f a b => addSub false false (indSAT f.imm) a b) s
/-- ADD.N32 (07 R184), with LIT32 as operand B. -/
def execAddN32X96 (o : X96) (s : State) : Host.Outcome State Fault Refusal := alu32 (.addN32X96 o) (some o.lit) (fun f a b => addSub false false (indSAT f.imm) a b) s
/-- SUB.N32 (07 R184). -/
def execSubN32 (o : L64) (s : State) : Host.Outcome State Fault Refusal := alu32 (.subN32 o) none (fun f a b => addSub true false (indSAT f.imm) a b) s
/-- SUB.N32 (07 R184), with LIT32 as operand B. -/
def execSubN32X96 (o : X96) (s : State) : Host.Outcome State Fault Refusal := alu32 (.subN32X96 o) (some o.lit) (fun f a b => addSub true false (indSAT f.imm) a b) s
/-- DIV.N32 (07 R186). -/
def execDivN32 (o : L64) (s : State) : Host.Outcome State Fault Refusal := alu32 (.divN32 o) none (fun _ a b => divRem false false a b) s
/-- DIV.N32 (07 R186), with LIT32 as operand B. -/
def execDivN32X96 (o : X96) (s : State) : Host.Outcome State Fault Refusal := alu32 (.divN32X96 o) (some o.lit) (fun _ a b => divRem false false a b) s
/-- REM.N32 (07 R186). -/
def execRemN32 (o : L64) (s : State) : Host.Outcome State Fault Refusal := alu32 (.remN32 o) none (fun _ a b => divRem true false a b) s
/-- REM.N32 (07 R186), with LIT32 as operand B. -/
def execRemN32X96 (o : X96) (s : State) : Host.Outcome State Fault Refusal := alu32 (.remN32X96 o) (some o.lit) (fun _ a b => divRem true false a b) s
/-- MIN.N32 (07 R187). -/
def execMinN32 (o : L64) (s : State) : Host.Outcome State Fault Refusal := alu32 (.minN32 o) none (fun _ a b => minMax false false a b) s
/-- MIN.N32 (07 R187), with LIT32 as operand B. -/
def execMinN32X96 (o : X96) (s : State) : Host.Outcome State Fault Refusal := alu32 (.minN32X96 o) (some o.lit) (fun _ a b => minMax false false a b) s
/-- MAX.N32 (07 R187). -/
def execMaxN32 (o : L64) (s : State) : Host.Outcome State Fault Refusal := alu32 (.maxN32 o) none (fun _ a b => minMax true false a b) s
/-- MAX.N32 (07 R187), with LIT32 as operand B. -/
def execMaxN32X96 (o : X96) (s : State) : Host.Outcome State Fault Refusal := alu32 (.maxN32X96 o) (some o.lit) (fun _ a b => minMax true false a b) s
/-- CMP.N32 (07 R190). -/
def execCmpN32 (o : L64) (s : State) : Host.Outcome State Fault Refusal := cmp32 (.cmpN32 o) none false s
/-- CMP.N32 (07 R190), with LIT32 as operand B. -/
def execCmpN32X96 (o : X96) (s : State) : Host.Outcome State Fault Refusal := cmp32 (.cmpN32X96 o) (some o.lit) false s
/-- ADD.S64 (07 R184). -/
def execAddS64 (o : L64) (s : State) : Host.Outcome State Fault Refusal := alu64 (.addS64 o) none false (fun f a b => addSub false true (indSAT f.imm) a b) s
/-- ADD.S64 (07 R184), with LIT32 as operand B. -/
def execAddS64X96 (o : X96) (s : State) : Host.Outcome State Fault Refusal := alu64 (.addS64X96 o) (some o.lit) false (fun f a b => addSub false true (indSAT f.imm) a b) s
/-- SUB.S64 (07 R184). -/
def execSubS64 (o : L64) (s : State) : Host.Outcome State Fault Refusal := alu64 (.subS64 o) none false (fun f a b => addSub true true (indSAT f.imm) a b) s
/-- SUB.S64 (07 R184), with LIT32 as operand B. -/
def execSubS64X96 (o : X96) (s : State) : Host.Outcome State Fault Refusal := alu64 (.subS64X96 o) (some o.lit) false (fun f a b => addSub true true (indSAT f.imm) a b) s
/-- DIV.S64 (07 R186). -/
def execDivS64 (o : L64) (s : State) : Host.Outcome State Fault Refusal := alu64 (.divS64 o) none false (fun _ a b => divRem false true a b) s
/-- DIV.S64 (07 R186), with LIT32 as operand B. -/
def execDivS64X96 (o : X96) (s : State) : Host.Outcome State Fault Refusal := alu64 (.divS64X96 o) (some o.lit) false (fun _ a b => divRem false true a b) s
/-- REM.S64 (07 R186). -/
def execRemS64 (o : L64) (s : State) : Host.Outcome State Fault Refusal := alu64 (.remS64 o) none false (fun _ a b => divRem true true a b) s
/-- REM.S64 (07 R186), with LIT32 as operand B. -/
def execRemS64X96 (o : X96) (s : State) : Host.Outcome State Fault Refusal := alu64 (.remS64X96 o) (some o.lit) false (fun _ a b => divRem true true a b) s
/-- MIN.S64 (07 R187). -/
def execMinS64 (o : L64) (s : State) : Host.Outcome State Fault Refusal := alu64 (.minS64 o) none false (fun _ a b => minMax false true a b) s
/-- MIN.S64 (07 R187), with LIT32 as operand B. -/
def execMinS64X96 (o : X96) (s : State) : Host.Outcome State Fault Refusal := alu64 (.minS64X96 o) (some o.lit) false (fun _ a b => minMax false true a b) s
/-- MAX.S64 (07 R187). -/
def execMaxS64 (o : L64) (s : State) : Host.Outcome State Fault Refusal := alu64 (.maxS64 o) none false (fun _ a b => minMax true true a b) s
/-- MAX.S64 (07 R187), with LIT32 as operand B. -/
def execMaxS64X96 (o : X96) (s : State) : Host.Outcome State Fault Refusal := alu64 (.maxS64X96 o) (some o.lit) false (fun _ a b => minMax true true a b) s
/-- CMP.S64 (07 R190). -/
def execCmpS64 (o : L64) (s : State) : Host.Outcome State Fault Refusal := cmp64 (.cmpS64 o) none true s
/-- CMP.S64 (07 R190), with LIT32 as operand B. -/
def execCmpS64X96 (o : X96) (s : State) : Host.Outcome State Fault Refusal := cmp64 (.cmpS64X96 o) (some o.lit) true s
/-- ADD.N64 (07 R184). -/
def execAddN64 (o : L64) (s : State) : Host.Outcome State Fault Refusal := alu64 (.addN64 o) none true (fun f a b => addSub false false (indSAT f.imm) a b) s
/-- ADD.N64 (07 R184), with LIT32 as operand B. -/
def execAddN64X96 (o : X96) (s : State) : Host.Outcome State Fault Refusal := alu64 (.addN64X96 o) (some o.lit) true (fun f a b => addSub false false (indSAT f.imm) a b) s
/-- SUB.N64 (07 R184). -/
def execSubN64 (o : L64) (s : State) : Host.Outcome State Fault Refusal := alu64 (.subN64 o) none true (fun f a b => addSub true false (indSAT f.imm) a b) s
/-- SUB.N64 (07 R184), with LIT32 as operand B. -/
def execSubN64X96 (o : X96) (s : State) : Host.Outcome State Fault Refusal := alu64 (.subN64X96 o) (some o.lit) true (fun f a b => addSub true false (indSAT f.imm) a b) s
/-- DIV.N64 (07 R186). -/
def execDivN64 (o : L64) (s : State) : Host.Outcome State Fault Refusal := alu64 (.divN64 o) none true (fun _ a b => divRem false false a b) s
/-- DIV.N64 (07 R186), with LIT32 as operand B. -/
def execDivN64X96 (o : X96) (s : State) : Host.Outcome State Fault Refusal := alu64 (.divN64X96 o) (some o.lit) true (fun _ a b => divRem false false a b) s
/-- REM.N64 (07 R186). -/
def execRemN64 (o : L64) (s : State) : Host.Outcome State Fault Refusal := alu64 (.remN64 o) none true (fun _ a b => divRem true false a b) s
/-- REM.N64 (07 R186), with LIT32 as operand B. -/
def execRemN64X96 (o : X96) (s : State) : Host.Outcome State Fault Refusal := alu64 (.remN64X96 o) (some o.lit) true (fun _ a b => divRem true false a b) s
/-- MIN.N64 (07 R187). -/
def execMinN64 (o : L64) (s : State) : Host.Outcome State Fault Refusal := alu64 (.minN64 o) none true (fun _ a b => minMax false false a b) s
/-- MIN.N64 (07 R187), with LIT32 as operand B. -/
def execMinN64X96 (o : X96) (s : State) : Host.Outcome State Fault Refusal := alu64 (.minN64X96 o) (some o.lit) true (fun _ a b => minMax false false a b) s
/-- MAX.N64 (07 R187). -/
def execMaxN64 (o : L64) (s : State) : Host.Outcome State Fault Refusal := alu64 (.maxN64 o) none true (fun _ a b => minMax true false a b) s
/-- MAX.N64 (07 R187), with LIT32 as operand B. -/
def execMaxN64X96 (o : X96) (s : State) : Host.Outcome State Fault Refusal := alu64 (.maxN64X96 o) (some o.lit) true (fun _ a b => minMax true false a b) s
/-- CMP.N64 (07 R190). -/
def execCmpN64 (o : L64) (s : State) : Host.Outcome State Fault Refusal := cmp64 (.cmpN64 o) none false s
/-- CMP.N64 (07 R190), with LIT32 as operand B. -/
def execCmpN64X96 (o : X96) (s : State) : Host.Outcome State Fault Refusal := cmp64 (.cmpN64X96 o) (some o.lit) false s
/-- MUL (07 R185). -/
def execMul (o : L64) (s : State) : Host.Outcome State Fault Refusal := alu32 (.mul o) none (fun _ a b => a * b) s
/-- MUL (07 R185), with LIT32 as operand B. -/
def execMulX96 (o : X96) (s : State) : Host.Outcome State Fault Refusal := alu32 (.mulX96 o) (some o.lit) (fun _ a b => a * b) s
/-- MULHI.S32 (07 R185). -/
def execMulhiS32 (o : L64) (s : State) : Host.Outcome State Fault Refusal := alu32 (.mulhiS32 o) none (fun _ a b => mulHi true a b) s
/-- MULHI.S32 (07 R185), with LIT32 as operand B. -/
def execMulhiS32X96 (o : X96) (s : State) : Host.Outcome State Fault Refusal := alu32 (.mulhiS32X96 o) (some o.lit) (fun _ a b => mulHi true a b) s
/-- MULHI.N32 (07 R185). -/
def execMulhiN32 (o : L64) (s : State) : Host.Outcome State Fault Refusal := alu32 (.mulhiN32 o) none (fun _ a b => mulHi false a b) s
/-- MULHI.N32 (07 R185), with LIT32 as operand B. -/
def execMulhiN32X96 (o : X96) (s : State) : Host.Outcome State Fault Refusal := alu32 (.mulhiN32X96 o) (some o.lit) (fun _ a b => mulHi false a b) s
/-- MAD (07 R185). -/
def execMad (o : L64) (s : State) : Host.Outcome State Fault Refusal := alu32c (.mad o) none (fun a b c => a * b + c) s
/-- MAD (07 R185), with LIT32 as operand B. -/
def execMadX96 (o : X96) (s : State) : Host.Outcome State Fault Refusal := alu32c (.madX96 o) (some o.lit) (fun a b c => a * b + c) s
/-- MUL.B64 (07 R185). -/
def execMulB64 (o : L64) (s : State) : Host.Outcome State Fault Refusal := alu64 (.mulB64 o) none false (fun _ a b => a * b) s
/-- MUL.B64 (07 R185), with LIT32 as operand B. -/
def execMulB64X96 (o : X96) (s : State) : Host.Outcome State Fault Refusal := alu64 (.mulB64X96 o) (some o.lit) false (fun _ a b => a * b) s
/-- AND (07 R187). -/
def execAndV (o : L64) (s : State) : Host.Outcome State Fault Refusal := alu32 (.andV o) none (fun _ a b => a &&& b) s
/-- AND, with LIT32 as operand B (07 R187). -/
def execAndX96 (o : X96) (s : State) : Host.Outcome State Fault Refusal := alu32 (.andX96 o) (some o.lit) (fun _ a b => a &&& b) s
/-- OR (07 R187). -/
def execOrV (o : L64) (s : State) : Host.Outcome State Fault Refusal := alu32 (.orV o) none (fun _ a b => a ||| b) s
/-- OR, with LIT32 as operand B (07 R187). -/
def execOrX96 (o : X96) (s : State) : Host.Outcome State Fault Refusal := alu32 (.orX96 o) (some o.lit) (fun _ a b => a ||| b) s
/-- XOR (07 R187). -/
def execXorV (o : L64) (s : State) : Host.Outcome State Fault Refusal := alu32 (.xorV o) none (fun _ a b => a ^^^ b) s
/-- XOR, with LIT32 as operand B (07 R187). -/
def execXorX96 (o : X96) (s : State) : Host.Outcome State Fault Refusal := alu32 (.xorX96 o) (some o.lit) (fun _ a b => a ^^^ b) s
/-- ANDN (07 R187). -/
def execAndn (o : L64) (s : State) : Host.Outcome State Fault Refusal := alu32 (.andn o) none (fun _ a b => a &&& ~~~b) s
/-- ANDN (07 R187), with LIT32 as operand B. -/
def execAndnX96 (o : X96) (s : State) : Host.Outcome State Fault Refusal := alu32 (.andnX96 o) (some o.lit) (fun _ a b => a &&& ~~~b) s
/-- SHL (07 R188). -/
def execShl (o : L64) (s : State) : Host.Outcome State Fault Refusal := alu32 (.shl o) none (fun _ a b => shl32 a b) s
/-- SHL (07 R188), with LIT32 as operand B. -/
def execShlX96 (o : X96) (s : State) : Host.Outcome State Fault Refusal := alu32 (.shlX96 o) (some o.lit) (fun _ a b => shl32 a b) s
/-- SHR (07 R188). -/
def execShr (o : L64) (s : State) : Host.Outcome State Fault Refusal := alu32 (.shr o) none (fun _ a b => shr32 a b) s
/-- SHR (07 R188), with LIT32 as operand B. -/
def execShrX96 (o : X96) (s : State) : Host.Outcome State Fault Refusal := alu32 (.shrX96 o) (some o.lit) (fun _ a b => shr32 a b) s
/-- SAR (07 R188). -/
def execSar (o : L64) (s : State) : Host.Outcome State Fault Refusal := alu32 (.sar o) none (fun _ a b => sar32 a b) s
/-- SAR (07 R188), with LIT32 as operand B. -/
def execSarX96 (o : X96) (s : State) : Host.Outcome State Fault Refusal := alu32 (.sarX96 o) (some o.lit) (fun _ a b => sar32 a b) s
/-- ROT (07 R188). -/
def execRot (o : L64) (s : State) : Host.Outcome State Fault Refusal := alu32 (.rot o) none (fun _ a b => rot32 a b) s
/-- ROT (07 R188), with LIT32 as operand B. -/
def execRotX96 (o : X96) (s : State) : Host.Outcome State Fault Refusal := alu32 (.rotX96 o) (some o.lit) (fun _ a b => rot32 a b) s
/-- BFX.S32 (07 R189). -/
def execBfxS32 (o : L64) (s : State) : Host.Outcome State Fault Refusal := alu32 (.bfxS32 o) none (fun _ a b => bfx true a b) s
/-- BFX.S32 (07 R189), with LIT32 as operand B. -/
def execBfxS32X96 (o : X96) (s : State) : Host.Outcome State Fault Refusal := alu32 (.bfxS32X96 o) (some o.lit) (fun _ a b => bfx true a b) s
/-- BFX.N32 (07 R189). -/
def execBfxN32 (o : L64) (s : State) : Host.Outcome State Fault Refusal := alu32 (.bfxN32 o) none (fun _ a b => bfx false a b) s
/-- BFX.N32 (07 R189), with LIT32 as operand B. -/
def execBfxN32X96 (o : X96) (s : State) : Host.Outcome State Fault Refusal := alu32 (.bfxN32X96 o) (some o.lit) (fun _ a b => bfx false a b) s
/-- BFI (07 R189). -/
def execBfi (o : L64) (s : State) : Host.Outcome State Fault Refusal := alu32c (.bfi o) none bfi s
/-- BFI (07 R189), with LIT32 as operand B. -/
def execBfiX96 (o : X96) (s : State) : Host.Outcome State Fault Refusal := alu32c (.bfiX96 o) (some o.lit) bfi s
/-- SEL (07 R191). -/
def execSel (o : L64) (s : State) : Host.Outcome State Fault Refusal := selInstr (.sel o) none s
/-- SEL (07 R191), with LIT32 as operand B. -/
def execSelX96 (o : X96) (s : State) : Host.Outcome State Fault Refusal := selInstr (.selX96 o) (some o.lit) s
/-- ADDA (07 R192). -/
def execAdda (o : L64) (s : State) : Host.Outcome State Fault Refusal := addaInstr (.adda o) none s
/-- ADDA (07 R192), with LIT32 as operand B. -/
def execAddaX96 (o : X96) (s : State) : Host.Outcome State Fault Refusal := addaInstr (.addaX96 o) (some o.lit) s
/-- SHLA (07 R192). -/
def execShla (o : L64) (s : State) : Host.Outcome State Fault Refusal := shlaInstr (.shla o) none s
/-- SHLA (07 R192), with LIT32 as operand B. -/
def execShlaX96 (o : X96) (s : State) : Host.Outcome State Fault Refusal := shlaInstr (.shlaX96 o) (some o.lit) s

/-! ### Immediate forms (07 R193) -/

/-- ADDI (07 R193). -/
def execAddi (o : L64) (s : State) : Host.Outcome State Fault Refusal := immInstr (.addi o) (fun f a => a + immS32 f) s
/-- ANDI (07 R193). -/
def execAndi (o : L64) (s : State) : Host.Outcome State Fault Refusal := immInstr (.andi o) (fun f a => a &&& immS32 f) s
/-- ORI (07 R193). -/
def execOri (o : L64) (s : State) : Host.Outcome State Fault Refusal := immInstr (.ori o) (fun f a => a ||| immS32 f) s
/-- XORI (07 R193). -/
def execXori (o : L64) (s : State) : Host.Outcome State Fault Refusal := immInstr (.xori o) (fun f a => a ^^^ immS32 f) s
/-- SHLI (07 R193). -/
def execShli (o : L64) (s : State) : Host.Outcome State Fault Refusal := immInstr (.shli o) (fun f a => shl32 a (f.imm.setWidth 32)) s
/-- SHRI (07 R193). -/
def execShri (o : L64) (s : State) : Host.Outcome State Fault Refusal := immInstr (.shri o) (fun f a => shr32 a (f.imm.setWidth 32)) s
/-- SARI (07 R193). -/
def execSari (o : L64) (s : State) : Host.Outcome State Fault Refusal := immInstr (.sari o) (fun f a => sar32 a (f.imm.setWidth 32)) s
/-- CMPI.S32 (07 R193). -/
def execCmpiS32 (o : L64) (s : State) : Host.Outcome State Fault Refusal := cmpInstr (.cmpiS32 o) s fun c L =>
  compare true c.form.c.field.toNat (rd32 c.team L c.form 1) (immS32 c.form)
/-- CMPI.N32 (07 R193). -/
def execCmpiN32 (o : L64) (s : State) : Host.Outcome State Fault Refusal := cmpInstr (.cmpiN32 o) s fun c L =>
  compare false c.form.c.field.toNat (rd32 c.team L c.form 1) (c.form.imm.setWidth 32)
/-- ADDAI (07 R192). -/
def execAddai (o : L64) (s : State) : Host.Outcome State Fault Refusal := laneInstr (.addai o) s fun c L t =>
  wr64 c.team L c.form (rd64 c.team L c.form 1 + immS64 c.form) t
/-- MOVI (07 R180). -/
def execMovi (o : L64) (s : State) : Host.Outcome State Fault Refusal := laneInstr (.movi o) s fun c L t => wr32 c.team L c.form (immS32 c.form) t
/-- LIT (07 R180). -/
def execLit (o : X96) (s : State) : Host.Outcome State Fault Refusal := laneInstr (.lit o) s fun c L t => wr32 c.team L c.form o.lit t
/-- LIT.B64 (07 R180). -/
def execLitB64 (o : X96) (s : State) : Host.Outcome State Fault Refusal := laneInstr (.litB64 o) s fun c L t => wr64 c.team L c.form (o.lit.signExtend 64) t

/-! ### Moves and unary forms (07 R179, R194) -/

/-- XSET (07 R179). -/
def execXset (o : S32) (s : State) : Host.Outcome State Fault Refusal := laneInstr (.xset o) s fun c L t =>
  t.setX L c.form.d.field.toNat (rd32 c.team L c.form 1)
/-- XGET (07 R179). -/
def execXget (o : S32) (s : State) : Host.Outcome State Fault Refusal := laneInstr (.xget o) s fun c L t =>
  wr32 c.team L c.form (c.team.xreg L c.form.a.field.toNat) t
/-- MOV (07 R179). -/
def execMov (o : S32) (s : State) : Host.Outcome State Fault Refusal := unary (.mov o) (fun a => a) s
/-- MOV.B64 (07 R179). -/
def execMovB64 (o : S32) (s : State) : Host.Outcome State Fault Refusal := laneInstr (.movB64 o) s fun c L t => wr64 c.team L c.form (rd64 c.team L c.form 1) t
/-- NOT (07 R194). -/
def execNotV (o : S32) (s : State) : Host.Outcome State Fault Refusal := unary (.notV o) (fun a => ~~~a) s
/-- NEG.S32 (07 R194). -/
def execNegS32 (o : S32) (s : State) : Host.Outcome State Fault Refusal := unary (.negS32 o) (fun a => -a) s
/-- ABS.S32 (07 R194). -/
def execAbsS32 (o : S32) (s : State) : Host.Outcome State Fault Refusal := unary (.absS32 o) (fun a => if a.msb then -a else a) s
/-- POPC (07 R194). -/
def execPopc (o : S32) (s : State) : Host.Outcome State Fault Refusal := unary (.popc o) (fun a => BitVec.ofNat 32 (popCount a)) s
/-- CLZ (07 R194). -/
def execClz (o : S32) (s : State) : Host.Outcome State Fault Refusal := unary (.clz o) (fun a => BitVec.ofNat 32 (clz32 a)) s
/-- CTZ (07 R194). -/
def execCtz (o : S32) (s : State) : Host.Outcome State Fault Refusal := unary (.ctz o) (fun a => BitVec.ofNat 32 (ctz32 a)) s
/-- BREV (07 R194). -/
def execBrev (o : S32) (s : State) : Host.Outcome State Fault Refusal := unary (.brev o) (fun a => a.reverse) s

/-! ### Team registers (07 R181) -/

/-- WGET (07 R181). -/
def execWget (o : S32) (s : State) : Host.Outcome State Fault Refusal := laneInstr (.wget o) s fun c L t =>
  wr32 c.team L c.form (c.team.wreg c.form.a.field.toNat) t
/-- WSET: the value of the lowest Active lane (07 R181). -/
def execWset (o : S32) (s : State) : Host.Outcome State Fault Refusal := runInstr (.wset o) s fun c => teamEffect s c fun m =>
  { st := s.setTeam c.iss.team (c.team.setW c.form.d.field.toNat (rd32 c.team m c.form 1)) }

end Sys2Proof.Machine
end

