-- ==== Sys2Proof/Machine/Float.lean ====
section
/-! DEFINITION. The scalar floating-point instructions and CVT (13 R314 to R322, R325, R326; events 12 R308, R309). -/
namespace Sys2Proof.Machine

/-- Format index of R308 of an instruction's elements. -/
def ffmtIndex (f : FFmt) : Nat :=
  match f with
  | .f32 => 0
  | .f16 => 1
  | .bf16 => 2
  | .f16x2 => 1

/-- Number of elements (13 R314). -/
def ffmtElems (f : FFmt) : Nat := if f = .f16x2 then 2 else 1

/-- Element `h` of an operand, on its low bits (12 R296). -/
def ffmtPart (f : FFmt) (h : Nat) (w : Word) : Nat := w.toNat / 2 ^ (16 * h) % 2 ^ (floatFmt (ffmtIndex f)).width

/-- Index of an event in the block's counters (12 R309). -/
def eventIndex (fmt : Nat) (e : Option Nat) : List Nat :=
  match e with
  | some k => [4 * fmt + k]
  | none => []

/-- An element's result and its event. -/
abbrev ElemResult := Nat × Option Nat

/-- Compute each element and join the results: the register's bits, and the events (13 R314). -/
def ffmtMap (f : FFmt) (g : Nat → ElemResult) : Word × List Nat :=
  let rs := (List.range (ffmtElems f)).map fun h => (h, g h)
  (BitVec.ofNat 32 ((rs.map fun x => x.2.1 * 2 ^ (16 * x.1)).sum),
   rs.flatMap fun x => eventIndex (ffmtIndex f) x.2.2)

/-- An instruction that writes a 32-bit result and counts events for each Active lane. -/
def floatInstr (i : Instr) (s : State) (g : Ctx → Nat → Word × List Nat) : Host.Outcome State Fault Refusal :=
  runInstr i s fun c =>
    let rs := c.act.map fun L => (L, g c L)
    let t := rs.foldl (fun t x => wr32 c.team x.1 c.form x.2.1 t) c.team
    { st := (s.setTeam c.iss.team t).countEvents c.team.block (rs.flatMap fun x => x.2.2) }

/-- FADD, FSUB, FMUL and FFMA of exact values (13 R317, R318). -/
def arithExact (op : Nat) (mode : Mode) (a b c : Num) : Num :=
  if op = 0 then a.add b mode
  else if op = 1 then a.add b.neg mode
  else if op = 2 then a.mul b
  else
    let p := a.mul b
    match p, c with
    | .fin n 0 _, .fin n' 0 _ => .fin (if n = n' then n else mode == .RD) 0 0
    | _, _ => p.add c mode

/-- One element of an arithmetic form: rounded once, with its event (13 R317; 12 R308). -/
def arithElem (op F : Nat) (mode : Mode) (sat : Bool) (a b c : Nat) : ElemResult :=
  let fm := floatFmt F
  let va := fm.value a
  let vb := fm.value b
  let vc := if op = 3 then fm.value c else .fin false 0 0
  let x := arithExact op mode va vb vc
  let r := roundTo x fm mode sat
  (r.bits, resultEvent x r (va.isNan || vb.isNan || vc.isNan) (va.isInf || vb.isInf || vc.isInf))

/-- FADD, FSUB, FMUL, FFMA (13 R316). -/
def arithInstr (i : Instr) (op : Nat) (f : FFmt) (lit : Option Word) (s : State) : Host.Outcome State Fault Refusal :=
  floatInstr i s fun c L =>
    let a := rd32 c.team L c.form 1
    let b := opB32 lit c.team L c.form
    let x := rd32 c.team L c.form 3
    ffmtMap f fun h => arithElem op (ffmtIndex f) (.ofHint c.form.hintv) (indSAT c.form.imm) (ffmtPart f h a)
      (ffmtPart f h b) (ffmtPart f h x)

/-- FMIN and FMAX (13 R319). -/
def minMaxInstr (i : Instr) (wantMax : Bool) (f : FFmt) (lit : Option Word) (s : State) :
    Host.Outcome State Fault Refusal :=
  floatInstr i s fun c L =>
    let a := rd32 c.team L c.form 1
    let b := opB32 lit c.team L c.form
    ffmtMap f fun h => (floatMinMax (floatFmt (ffmtIndex f)) wantMax (ffmtPart f h a) (ffmtPart f h b), none)

/-- The condition of FCMP (13 R320). -/
def fcond (cc : Nat) (a b : Num) : Bool :=
  let nan := a.isNan || b.isNan
  if cc = 6 then nan
  else if cc = 7 then !nan
  else if nan then cc == 1
  else cond cc (a.eqv b) (a.lt b)

/-- FCMP (13 R320). -/
def fcmpInstr (i : Instr) (f : FFmt) (lit : Option Word) (s : State) : Host.Outcome State Fault Refusal :=
  cmpInstr i s fun c L =>
    let fm := floatFmt (ffmtIndex f)
    fcond c.form.c.field.toNat (fm.value (ffmtPart f 0 (rd32 c.team L c.form 1)))
      (fm.value (ffmtPart f 0 (opB32 lit c.team L c.form)))

/-- FADD. -/
def execFadd (f : FFmt) (o : L64) (s : State) : Host.Outcome State Fault Refusal := arithInstr (.fadd f o) 0 f none s
/-- FSUB. -/
def execFsub (f : FFmt) (o : L64) (s : State) : Host.Outcome State Fault Refusal := arithInstr (.fsub f o) 1 f none s
/-- FMUL. -/
def execFmul (f : FFmt) (o : L64) (s : State) : Host.Outcome State Fault Refusal := arithInstr (.fmul f o) 2 f none s
/-- FFMA. -/
def execFfma (f : FFmt) (o : L64) (s : State) : Host.Outcome State Fault Refusal := arithInstr (.ffma f o) 3 f none s
/-- FMIN. -/
def execFmin (f : FFmt) (o : L64) (s : State) : Host.Outcome State Fault Refusal := minMaxInstr (.fmin f o) false f none s
/-- FMAX. -/
def execFmax (f : FFmt) (o : L64) (s : State) : Host.Outcome State Fault Refusal := minMaxInstr (.fmax f o) true f none s
/-- FCMP. -/
def execFcmp (f : FFmt) (o : L64) (s : State) : Host.Outcome State Fault Refusal := fcmpInstr (.fcmp f o) f none s
/-- FADD with a literal (13 R315). -/
def execFaddX96 (f : FFmt) (o : X96) (s : State) : Host.Outcome State Fault Refusal :=
  arithInstr (.faddX96 f o) 0 f (some o.lit) s
/-- FSUB with a literal. -/
def execFsubX96 (f : FFmt) (o : X96) (s : State) : Host.Outcome State Fault Refusal :=
  arithInstr (.fsubX96 f o) 1 f (some o.lit) s
/-- FMUL with a literal. -/
def execFmulX96 (f : FFmt) (o : X96) (s : State) : Host.Outcome State Fault Refusal :=
  arithInstr (.fmulX96 f o) 2 f (some o.lit) s
/-- FFMA with a literal. -/
def execFfmaX96 (f : FFmt) (o : X96) (s : State) : Host.Outcome State Fault Refusal :=
  arithInstr (.ffmaX96 f o) 3 f (some o.lit) s
/-- FMIN with a literal. -/
def execFminX96 (f : FFmt) (o : X96) (s : State) : Host.Outcome State Fault Refusal :=
  minMaxInstr (.fminX96 f o) false f (some o.lit) s
/-- FMAX with a literal. -/
def execFmaxX96 (f : FFmt) (o : X96) (s : State) : Host.Outcome State Fault Refusal :=
  minMaxInstr (.fmaxX96 f o) true f (some o.lit) s
/-- FCMP with a literal. -/
def execFcmpX96 (f : FFmt) (o : X96) (s : State) : Host.Outcome State Fault Refusal :=
  fcmpInstr (.fcmpX96 f o) f (some o.lit) s

/-! ### Sign and class -/

/-- Elementwise bit operation of an S32 form, with no event (13 R321). -/
def signInstr (i : Instr) (f : FFmt) (g : FloatFmt → Nat → Nat) (s : State) : Host.Outcome State Fault Refusal :=
  floatInstr i s fun c L =>
    ffmtMap f fun h => (g (floatFmt (ffmtIndex f)) (ffmtPart f h (rd32 c.team L c.form 1)), none)

/-- The class mask of an encoding (13 R322). -/
def classMask (fm : FloatFmt) (w : Nat) : Nat :=
  let neg := w / 2 ^ (fm.p + fm.e) % 2 == 1
  match fm.value w with
  | .nan => 2 ^ 8
  | .inf n => if n then 2 ^ 0 else 2 ^ 7
  | .fin _ m _ =>
    if m = 0 then (if neg then 2 ^ 3 else 2 ^ 4)
    else if w / 2 ^ fm.p % 2 ^ fm.e = 0 then (if neg then 2 ^ 2 else 2 ^ 5)
    else if neg then 2 ^ 1 else 2 ^ 6

/-- FABS (13 R321). -/
def execFabs (f : FFmt) (o : S32) (s : State) : Host.Outcome State Fault Refusal :=
  signInstr (.fabs f o) f (fun fm w => w % 2 ^ (fm.p + fm.e)) s
/-- FNEG (13 R321). -/
def execFneg (f : FFmt) (o : S32) (s : State) : Host.Outcome State Fault Refusal :=
  signInstr (.fneg f o) f (fun fm w => Nat.xor w (2 ^ (fm.p + fm.e))) s
/-- FCLASS (13 R322). -/
def execFclass (f : FFmt) (o : S32) (s : State) : Host.Outcome State Fault Refusal :=
  signInstr (.fclass f o) f classMask s

/-! ### Conversion (13 R325, R326) -/

/-- Signedness and width of an integer format code, 0x7 to 0xE. -/
def intFormat (code : Nat) : Bool × Nat :=
  if code = 7 then (true, 8) else if code = 8 then (false, 8) else if code = 9 then (true, 16)
  else if code = 10 then (true, 32) else if code = 11 then (false, 16) else if code = 12 then (false, 32)
  else if code = 13 then (true, 64) else (false, 64)

/-- Smallest and largest value of an integer format. -/
def intRange (signed : Bool) (w : Nat) : Int × Int :=
  if signed then (-(2 ^ (w - 1) : Nat), (2 ^ (w - 1) : Nat) - 1) else (0, (2 ^ w : Nat) - 1)

/-- The value of a source in format `code` (12 R297 to R300). -/
def cvtSource (code : Nat) (v : Dbl) : Num :=
  if code ≤ 4 then (floatFmt code).value (v.toNat % 2 ^ (floatFmt code).width)
  else if code = 5 then .ofInt (s2p8Units (v.toNat % 256)) (-6)
  else if code = 6 then .ofInt (s1p4Units (v.toNat % 16)) (-6)
  else
    let (signed, w) := intFormat code
    let x := BitVec.ofNat w v.toNat
    .ofInt (if signed then x.toInt else (x.toNat : Int)) 0

/-- Event of a conversion to an integer or weight format: NaN or a clamp, under a floating source's format. -/
def clampEvent (sfmt : Nat) (u : Num) (clamped : Bool) : List Nat :=
  if 4 < sfmt then [] else if u.isNan then [4 * sfmt] else if clamped then [4 * sfmt + 2] else []

/-- One lane's conversion: the result and its events (13 R326). An infinite operand counts no event in a floating result
(12 R308). (Log 31, DEDUCED.) -/
def convert (dfmt sfmt : Nat) (scl : Int) (mode : Mode) (sat : Bool) (v : Dbl) : Dbl × List Nat :=
  let u := cvtSource sfmt v
  if dfmt = 5 || dfmt = 6 then
    let r := roundWeight (dfmt == 5) u scl mode
    (BitVec.ofNat 64 r.1, clampEvent sfmt u r.2)
  else
    let x := u.scale scl
    if dfmt ≤ 4 then
      let r := roundTo x (floatFmt dfmt) mode sat
      (BitVec.ofNat 64 r.bits, eventIndex dfmt (resultEvent x r u.isNan u.isInf))
    else
      let (signed, w) := intFormat dfmt
      let rg := intRange signed w
      let r := roundInt x mode rg.1 rg.2
      (BitVec.ofInt 64 r.1, clampEvent sfmt u r.2)

/-- CVT (13 R325, R326). -/
def execCvt (o : L64) (s : State) : Host.Outcome State Fault Refusal :=
  runInstr (.cvt o) s fun c =>
    let dfmt := immBits c.form.imm 7 4
    let sfmt := immBits c.form.imm 3 0
    let scl := c.form.c.field.toInt
    let src (L : Nat) : Dbl :=
      if cvtKind sfmt == .pair then rd64 c.team L c.form 1 else (rd32 c.team L c.form 1).setWidth 64
    let rs := c.act.map fun L =>
      (L, convert dfmt sfmt scl (.ofHint c.form.hintv) (c.form.imm.getLsbD 8) (src L))
    let t := rs.foldl (fun t x =>
      if cvtKind dfmt == .pair then wr64 c.team x.1 c.form x.2.1 t
      else wr32 c.team x.1 c.form (x.2.1.setWidth 32) t) c.team
    { st := (s.setTeam c.iss.team t).countEvents c.team.block (rs.flatMap fun x => x.2.2) }

end Sys2Proof.Machine
end

