-- ==== Sys2Proof/Machine/Update.lean ====
section
/-! DEFINITION. Update regions: UPD, the pens' acceptance and applies, UPDFLUSH and UPDCLR (10 R261 to R268; 11 R291). -/
namespace Sys2Proof.Machine

/-- What follows when a write or pair of a team is acknowledged, or a counter of it falls: WAITC lanes wake, SC operations
take timestamps, and arrivals that waited are looked at again (10 R246; 11 R280, R285). -/
def State.afterAck (s : State) (tn : Nat) : State :=
  ((s.setTeam tn (s.team tn).wakeCounters).stampAll).recheck tn

/-- TYPE and OP of a region entry (10 R261). -/
def Region.ty (r : Region) : Nat := natBits r.rctl.toNat 37 35
/-- OP of a region entry. -/
def Region.op (r : Region) : Nat := natBits r.rctl.toNat 34 32

/-- Rows 1 to 3 of 09 R219 alone. -/
def frontChecks (a n align : Nat) : Option FaultInfo :=
  if windowOf a = 3 then some (.at codeNowin 0 a)
  else if 2 ^ 64 ≤ a + n - 1 || windowOf (a + n - 1) ≠ windowOf a then some (.at codeStraddle 0 a)
  else if a % align ≠ 0 then some (.at codeAlign 0 a)
  else none

/-- Steps 1 to 4 of 10 R262 for one lane: the region's number and entry, and the key's target. `want` is TYPE and OP; none
omits their test (R268), and there a version faults (17 R395). A key in another function's doorbell page is a `door` (03 R62).
(Log 39, DEDUCED.) -/
def State.updCheck (s : State) (c : Ctx) (L a n align : Nat) (want : Option (Nat × Nat)) :
    Except FaultInfo (Nat × Region × Target) :=
  let bad : FaultInfo := .at codePageperm 0xC a
  match s.strangeDoor { s.agentOf c.iss.team L with remoteOk := true } .write a with
  | .error e => .error e
  | .ok (some t) => .ok (0, {}, t)
  | .ok none =>
  match frontChecks a n align with
  | some e => .error e
  | none =>
    match (if windowOf a = 0 then (s.func c.block.func).regionOf a else none) with
    | none => .error bad
    | some (i, r) =>
      if (match want with | some w => w != (r.ty, r.op) | none => false) then .error bad
      else
        let ag := s.agentOf c.iss.team L
        match s.resolve { ag with remoteOk := true } .write a n with
        | .error e => .error e
        | .ok t =>
          if (match t with | .host _ => true | .remote _ _ => true | _ => false) then .error bad
          else match s.apertureFault c.block.func a t with
            | some e => .error e
            | none =>
              if want.isNone && c.node.versioned then .error (.at codePageperm 0xD a)
              else match s.lockFault c.team.core ag .write a n with
                | some e => .error e
                | none => .ok (i, r, t)

/-- Steps 5 and 6 of 10 R262. -/
def State.updTorn (s : State) (c : Ctx) (L a : Nat) (f : Nat × Region × Target) : Option FaultInfo :=
  if f.2.1.rctl.getLsbD 62 then some { code := 0x12, addr := BitVec.ofNat 64 a, info := BitVec.ofNat 32 f.1 }
  else match f.2.2 with
    | .hbm p => if f.2.1.ty = 2 then s.logNeed c.iss.team L (s.homeOf p).1 .order 1 else none
    | _ => none

/-- Lanes with their keys, numbered from pair `id` and sequence `q`; step 7 of 10 R262 drops the lanes of a version beyond
VBUDGET. -/
def State.updPairs (s : State) (c : Ctx) (ty op ins : Nat) (ls : List (Nat × Nat × Nat)) (id q held : Nat) :
    List Pair × List (Nat × FaultInfo) :=
  match ls with
  | [] => ([], [])
  | (L, i, p) :: r =>
    let full := c.node.versioned &&
      decide (c.node.vbudget * 4096 <
        c.block.heldSize (s.rsizeOf c.team.block) (s.pendingLines c.team.block) + 16 * (held + 1))
    if full then
      let (ps, fs) := s.updPairs c ty op ins r id q held
      (ps, (L, { code := 0x13, addr := rd64 c.team L c.form 1, info := s.heldKib c.team.block }) :: fs)
    else
      let (ps, fs) := s.updPairs c ty op ins r (id + 1) (q + 1) (held + 1)
      let v : Dbl := if 3 ≤ ty then rd64 c.team L c.form 2 else (rd32 c.team L c.form 2).setWidth 64
      ({ id := id, ins := ins, team := c.iss.team, block := c.team.block, core := c.team.core, lane := L, q := q,
         func := c.block.func, region := i, p := p, va := rd64 c.team L c.form 1, value := v, ty := ty, op := op, accepted := false,
         held := c.node.versioned, job := c.block.job, det := s.det c.team.block } :: ps, fs)

/-- UPD.ADD, UPD.MIN, UPD.MAX (10 R262): `op` is the region's OP. -/
def updInstr (i : Instr) (op : Nat) (s : State) : Host.Outcome State Fault Refusal :=
  runInstr i s fun c =>
    let ty := immBits c.form.imm 2 0
    let n := regionBytes ty
    let addr (L : Nat) : Nat := (rd64 c.team L c.form 1).toNat
    let found := c.act.map fun L => (L, match s.updCheck c L (addr L) n n (some (ty, op)) with
      | .error e => Except.error e
      | .ok f => match s.updTorn c L (addr L) f with
        | some e => .error e
        | none => .ok f)
    let bad := found.filterMap fun x => match x.2 with | .error e => some (x.1, e) | .ok _ => none
    let keys := found.filterMap fun x => match x.2 with | .ok (i, _, .hbm p) => some (x.1, i, p) | _ => none
    let core := s.core c.team.core
    let (ps, full) := s.updPairs c ty op s.fresh keys (s.fresh + 1) core.q 0
    if ps == [] then { st := s, faults := bad ++ full }
    else if c.team.stc = 255 || !s.requestRoom c.team.core (ps.map Pair.request) then { st := s, stall := true }
    else
      let s := { s with pairs := s.pairs ++ ps, fresh := s.fresh + 1 + ps.length }
      let s := s.setCore c.team.core { core with q := core.q + ps.length }
      let s := if c.node.versioned then s.setBlock c.team.block { c.block with heldPairs := c.block.heldPairs + ps.length }
        else s
      { st := s.setTeam c.iss.team { c.team with stc := c.team.stc + 1 }, faults := bad ++ full }

/-- UPD.ADD (10 R262). -/
def execUpdAdd (o : L64) (s : State) : Host.Outcome State Fault Refusal := updInstr (.updAdd o) 0 s
/-- UPD.MIN. -/
def execUpdMin (o : L64) (s : State) : Host.Outcome State Fault Refusal := updInstr (.updMin o) 1 s
/-- UPD.MAX. -/
def execUpdMax (o : L64) (s : State) : Host.Outcome State Fault Refusal := updInstr (.updMax o) 2 s

/-! ### The pens -/

/-- A pen may accept a pair: pairs of one core reach it in the order of q (11 R291), and earlier accesses to the key, and earlier
acquires, of the lane and of what its releases in flight cover have been performed (11 R279, R280, R282). (Log 71, DEDUCED.) -/
def State.pairReady (s : State) (p : Pair) : Bool :=
  !p.accepted &&
  (s.pairs.all fun y => y.accepted || y.core != p.core || p.q ≤ y.q || s.penOf y.p != s.penOf p.p) &&
  (s.accesses.all fun x => !(x.team == p.team && x.stage == .issued &&
      (x.lane == p.lane && x.id < p.id || x.ins < s.releaseOpen p.team p.lane p.ins)) ||
    (!x.acquires && !wordsMeet x.target x.size (.hbm p.p) (regionBytes p.ty)))

/-- PAIR_ACCEPT (10 R264): acceptance is the pair's acknowledgement; STC falls with the last pair of its instruction.
(Log 71, DEDUCED.) -/
def execPairAccept (p : Nat) (s : State) : Host.Outcome State Fault Refusal :=
  match s.pairs.find? fun y => y.id == p with
  | none => .next s
  | some y =>
    if !s.pairReady y then .next s
    else
      let s := { s with pairs := s.pairs.map fun (x : Pair) => if x.id = p then { x with accepted := true } else x }
      let pen := penUnit (s.penOf y.p)
      let s := (s.tellUnit y.core pen).tellCore pen y.core
      if s.pairs.any fun x => x.ins == y.ins && !x.accepted then .next s
      else
        let t := s.team y.team
        .next ((s.setTeam y.team { t with stc := t.stc - 1 }).afterAck y.team)

/-- The apply of a line that a pen makes on its own account (10 R264): in deterministic mode it waits for room. -/
def State.penApply (s : State) (line : Nat) : State :=
  if s.logsFit (s.batchDies [line]) then s.applyLine line else s

/-- Lines of a pen's bins that hold committed pairs. -/
def State.penLines (s : State) (pen : Nat) : List Nat :=
  (s.pairs.filter fun q => q.accepted && !q.held && s.penOf q.p == pen).foldl
    (fun l q => if l.contains (q.p / 64) then l else l ++ [q.p / 64]) []

/-- The line of a pen's fullest bin; which of several is a free value. -/
def State.fullestLine (s : State) (pen : Nat) : Option Nat :=
  let ls := s.penLines pen
  let most := (ls.map fun l => (s.batch l).length).foldl max 0
  let top := ls.filter fun l => (s.batch l).length == most
  top[Config.freePick s.stamp pen % top.length]?

/-- The pen applies its fullest bin's line at once (18 R420). -/
def State.penEmpties (s : State) (pen : Nat) : State :=
  match s.fullestLine pen with
  | some line => s.penApply line
  | none => s

/-- A pen finds its spill area full: it applies its fullest bin's line, or refers the request, of which one is outstanding for each pen
(18 R420, R421, R434). (Log 71, DEDUCED.) -/
def State.penFull (s : State) (pen : Nat) : State :=
  match s.pairs.find? fun q => q.accepted && s.penOf q.p == pen with
  | none => s
  | some q =>
    if !(s.yard (pen / 8)).mode.getLsbD 4 then s.penEmpties pen
    else if s.referrals.any fun r => r.mode == 4 && r.obj == pen then s
    else (s.refer 4 (pen / 8) q.func (BitVec.ofNat 64 pen) 0 [] pen 0).postWaiting

/-- UPDFLUSH (10 R267). -/
def execUpdflush (s : State) : Host.Outcome State Fault Refusal :=
  runInstr .updflush s fun c => teamEffect s c fun m =>
    if c.team.stc = 255 then { st := s, stall := true }
    else
      let e : Engine := { id := s.fresh, ins := s.fresh, kind := .updflush s.fresh, team := c.iss.team,
                          block := c.team.block, core := c.team.core, func := c.block.func, lane := m, lanes := c.act,
                          supervisor := false, aborted := false }
      { st := ({ s with engines := s.engines ++ [e], fresh := s.fresh + 1 }).setTeam c.iss.team
          { c.team with stc := c.team.stc + 1 } }

/-- The pairs that an UPDFLUSH waits for have been applied. -/
def State.flushed (s : State) (e : Engine) : Bool :=
  match e.kind with
  | .updflush n => s.pairs.all fun p => !(p.team == e.team && !p.held && p.id < n)
  | _ => false

/-- UPDFLUSHes whose pairs have been applied complete (10 R267). -/
def State.flushDone (s : State) : State :=
  (s.engines.filter s.flushed).foldl (fun s e =>
    let t := s.team e.team
    ({ s with engines := s.engines.filter fun x => x.id != e.id }.setTeam e.team { t with stc := t.stc - 1 }).afterAck
      e.team) s

/-- UPDCLR (10 R268): every pending pair of the region is discarded, committed or held, and TORN is cleared. It is over at
once, so that its count in STC is not seen. -/
def execUpdclr (o : L64) (s : State) : Host.Outcome State Fault Refusal :=
  runInstr (.updclr o) s fun c => teamEffect s c fun m =>
    let a := (rd64 c.team m c.form 1).toNat
    match s.updCheck c m a 1 1 none with
    | .error e => faultAll s c e
    | .ok (_, _, .door _) => { st := s }
    | .ok (i, r, _) =>
      if c.team.stc = 255 then { st := s, stall := true }
      else
        let f := s.func c.block.func
        let f := { f with regions := f.regions.set {} i { r with rctl := r.rctl &&& ~~~((1 : Dbl) <<< 62) } }
        { st := ({ s with pairs := s.pairs.filter fun p =>
                    !(p.accepted && p.func == c.block.func && p.region == i) }).setFunc c.block.func f }

end Sys2Proof.Machine
end

