-- ==== Sys2Proof/Machine/Zscan.lean ====
section
/-! DEFINITION. Zero scans (10 R270 to R272). -/
namespace Sys2Proof.Machine

/-- Size in bytes of a zero-flag record of a handle (10 R270). -/
def Handle.recordBytes (h : Handle) : Nat := 0x40 + 4 * h.blocks

/-- First bytes of the 4 KiB pages that the rows of a tile touch. -/
def Handle.pages (h : Handle) : List Nat :=
  (List.range h.rows).flatMap fun i =>
    let a := h.addr i 0
    let z := h.addr i (h.cols - 1)
    (List.range (z / 4096 + 1 - a / 4096)).map fun j => max a (4096 * (a / 4096 + j))

/-- A page of the tile is of MT 1 or 2, whoever may access it (10 R271); an entry that cannot be had is left to the scan. Code 0
says that the walk of a page is referred. -/
def State.tileOutside (s : State) (ag : Agent) (pages : List Nat) : Except FaultInfo Bool :=
  match pages with
  | [] => .ok false
  | a :: r =>
    let g := (lockPlace ag a).2
    if windowOf a = 1 || (windowOf a = 2 && ag.privb ≤ a - 2 * 2 ^ 56) then s.tileOutside ag r
    else match s.leaf ag g with
      | .ok (e, _) => if natBits e 9 8 = 0 then s.tileOutside ag r else .ok true
      | .error (c, k) => if c = 0 then .error (transFault ag .read g a c k) else s.tileOutside ag r

/-- Start a team's tile operation: TLC rises by one (10 R245). -/
def State.startEngine (s : State) (c : Ctx) (kind : EngineKind) (op m : Nat) : State :=
  let e : Engine := { id := op, ins := op, kind := kind, team := c.iss.team, block := c.team.block, core := c.team.core,
                      func := c.block.func, lane := m, lanes := c.act, supervisor := (c.team.lane m).trap,
                      aborted := false, knows := (c.team.lane m).know, rel := (c.team.lane m).rel,
                      carries := (c.team.lane m).fenced }
  { s with engines := s.engines ++ [e] }.setTeam c.iss.team { c.team with tlc := c.team.tlc + 1 }

/-- ZSCAN (10 R271): the handle is checked, the ranges are locked, and the scan is left to the engine. -/
def execZscan (o : L64) (s : State) : Host.Outcome State Fault Refusal :=
  runInstr (.zscan o) s fun c => teamEffect s c fun m =>
    let h := Handle.parse (c.team.vregs m (opReg c.team m c.form 1) 4)
    match h.fault c.iss.word with
    | some e => faultAll s c e
    | none =>
      let ag := s.agentOf c.iss.team m
      let d := c.form.d.field.toNat
      let core := s.core c.team.core
      if c.team.tlc = 255 then { st := s, stall := true }
      else match (if h.zfi = 0 || windowOf h.base.toNat = 1 then .ok true else s.tileOutside ag h.pages) with
      | .error e => faultAll s c e
      | .ok true => { st := { s with fresh := s.fresh + 1 }.startEngine c (.zscan h d (some 0x100)) s.fresh m }
      | .ok false =>
        let r := (s.func c.block.func).zflagAddr h.zfi
        match frontChecks r h.recordBytes 1 with
        | some e => faultAll s c e
        | none =>
          if core.freeSlots.length < 2 then { st := s, stall := true }
          else
            let op := s.fresh
            let s := { s with fresh := op + 1 }
            let s := s.lockRange c.team.core ag op h.base.toNat h.lastByte false
            let s := s.lockRange c.team.core ag op r (r + h.recordBytes - 1) true
            { st := s.startEngine c (.zscan h d none) op m }

/-- Write `n` bytes of a record for an engine; a version's held state may not exceed VBUDGET (17 R396). -/
def State.recordWrite (s : State) (e : Engine) (ag : Agent) (a n v : Nat) : Except FaultInfo State :=
  match s.engineAccess ag .write a n with
  | .error x => .error x
  | .ok t =>
    match s.versionFault (s.nodeOf e.block) e.func a .write t with
    | some x => .error x
    | none =>
      match heldTarget (s.nodeOf e.block) a t with
      | some p => if s.versOver e.block ((p / 64) :: s.pendingLines e.block) then .error { code := 0x13 }
                  else .ok (s.engineWrite e.block e.core ag a t n v)
      | none => .ok (s.engineWrite e.block e.core ag a t n v)

/-- Write fields of a record in order, up to the first that faults. -/
def State.recordWrites (s : State) (e : Engine) (ag : Agent) (ws : List (Nat × Nat × Nat)) : State × Option FaultInfo :=
  match ws with
  | [] => (s, none)
  | (a, n, v) :: r =>
    match s.recordWrite e ag a n v with
    | .error x => (s, some x)
    | .ok s => s.recordWrites e ag r

/-- Every element of a list encodes zero. -/
def State.allZero (s : State) (b : Nat) (ag : Agent) (h : Handle) (es : List (Nat × Nat)) :
    Except FaultInfo (State × Bool) :=
  match es with
  | [] => .ok (s, true)
  | (i, j) :: r =>
    match s.readElem b ag h i j with
    | .error e => .error e
    | .ok (s, v) =>
      match s.allZero b ag h r with
      | .error e => .error e
      | .ok (s, z) => .ok (s, z && elemZero h.fmt v)

/-- Scan blocks from number `blk`, `n` of them, up to a fault (10 R271). -/
def State.scanBlocks (s : State) (e : Engine) (ag : Agent) (h : Handle) (zr blk n : Nat) : State × Option FaultInfo :=
  match n with
  | 0 => (s, none)
  | k + 1 =>
    let gs := (s.blockGranules ag h blk).getD []
    match s.allZero e.block ag h (h.blockElems blk) with
    | .error x => (s, some x)
    | .ok (s', z) =>
      let flag := if z && s.gensum gs == s'.gensum gs && !s'.saturated gs then 2 ^ 31 else 0
      match s'.recordWrite e ag (zr + 0x40 + 4 * blk) 4 (flag + s'.gensum gs) with
      | .error x => (s', some x)
      | .ok s => s.scanBlocks e ag h zr (blk + 1) k

/-- The scan of a record at `zr` once ZSTATE is 0 (10 R271): the flags, then HANDLE, NBLK and ZSTATE 1. A fault stops it and leaves
what it has written. -/
def State.scanRecord (s : State) (e : Engine) (ag : Agent) (h : Handle) (zr : Nat) : State × Option FaultInfo :=
  match s.scanBlocks e ag h zr 0 h.blocks with
  | (s, some x) => (s, some x)
  | (s, none) => s.recordWrites e ag [(zr, 16, h.bits.toNat), (zr + 0x14, 4, h.blocks), (zr + 0x10, 4, 1)]

/-- An engine operation of a team leaves: its range locks go and TLC falls (10 R245, R249). -/
def State.endEngine (s : State) (e : Engine) : State :=
  let s := { s with engines := s.engines.filter fun x => x.id != e.id }.unlock e.core e.id
  let t := s.team e.team
  s.setTeam e.team { t with tlc := t.tlc - 1 }

/-- A ZSCAN ends: its status is delivered to its lanes (10 R271). -/
def State.zscanEnd (s : State) (e : Engine) (ag : Agent) (d status : Nat) : State :=
  let s := s.endEngine e
  let t := e.lanes.foldl (fun t L => t.setV L d (BitVec.ofNat 32 status)) (s.team e.team)
  ((s.setTeam e.team t.wakeCounters).dropAnswers ag.who.team [ag.asks]).blockSaved e.block

/-- ZSCAN_COMPLETE (10 R271, R275): the engine first writes ZSTATE 0 and is then in progress; the next time the scan is made and its
status delivered. An aborted scan leaves ZSTATE 0. (Log 12, DEDUCED.) -/
def execZscanComplete (id : Nat) (s : State) : Host.Outcome State Fault Refusal :=
  match s.engines.find? fun e => e.id == id with
  | none => .next s
  | some e =>
    match e.kind with
    | .zscan h d early =>
      let ag := e.agent s
      let zr := (s.func e.func).zflagAddr h.zfi
      if e.aborted then
        let s' := if early.isSome then s else (s.recordWrites e ag [(zr + 0x10, 4, 0)]).1
        .next ((s'.endEngine e).blockSaved e.block)
      else if early.isSome then .next (s.zscanEnd e ag d 0x100)
      else if !s.lockClear e.core e.id || s.acquireOpen e.team e.lane e.ins then .next s
      else
        match (if e.begun then s.scanRecord e ag h zr else s.recordWrites e ag [(zr + 0x10, 4, 0)]) with
        | (s', some x) => .next (if x.code = 0 then s.waitFor ag x else s'.zscanEnd e ag d x.code)
        | (s', none) =>
          if e.begun then .next (s'.zscanEnd e ag d 0)
          else
            let begin (y : Engine) : Engine := if y.id = id then { y with begun := true } else y
            .next { s' with engines := s'.engines.map begin }
    | _ => .next s

end Sys2Proof.Machine
end

