-- ==== Sys2Proof/Machine/Matrix.lean ====
section
/-! DEFINITION. The matrix engine and the troughs (12 R305 to R307; 14 R329 to R343). -/
namespace Sys2Proof.Machine

/-! ### The wide accumulator -/

/-- Add a product to an accumulator element (12 R306); the mark is an event index. -/
def accumulate (e : AccElem) (a b : Num) (sc : Int) : AccElem × Option Nat :=
  match a.mul b with
  | .nan => if e.tag = 3 then (e, none) else ({ e with tag := 3 }, some 0)
  | .inf n =>
    if e.tag = 3 then (e, none)
    else if e.tag = (if n then 1 else 2) then ({ e with tag := 3 }, some 0)
    else ({ e with tag := if n then 2 else 1 }, none)
  | .fin n m x =>
    if e.tag ≠ 0 then (e, none)
    else
      let z : Int := if n then -(m : Int) else m
      let x := x + sc + 272
      let q := if 0 ≤ x then z * 2 ^ x.toNat else z / 2 ^ (-x).toNat
      let lost := x < 0 && z % 2 ^ (-x).toNat != 0
      let s := e.val + q
      if s < -(2 ^ 639) || 2 ^ 639 - 1 < s then ({ e with tag := if 0 < s then 1 else 2 }, some 2)
      else ({ e with val := s }, if lost then some 3 else none)

/-- Add a list of products in order; the marks of the element. -/
def accumulateAll (e : AccElem) (sc : Int) (ps : List (Num × Num)) : AccElem × List Nat :=
  match ps with
  | [] => (e, [])
  | (a, b) :: r =>
    let (e, m) := accumulate e a b sc
    let (e, ms) := accumulateAll e sc r
    (e, m.toList ++ ms)

/-- The one event of an element: the first of NaN, overflow and underflow that it marked (12 R306). -/
def firstMark (ms : List Nat) : Option Nat := [0, 2, 3].find? ms.contains

/-- The value of an element times 2^scl (12 R305, R307). -/
def AccElem.value (e : AccElem) (scl : Int) : Num :=
  if e.tag = 0 then .ofInt e.val (scl - 272) else if e.tag = 1 then .inf false else if e.tag = 2 then .inf true else .nan

/-- The final rounding of an element with its event (12 R307, R308). -/
def AccElem.deliver (e : AccElem) (scl : Int) (dfmt : Nat) (mode : Mode) (sat : Bool) : ElemResult :=
  let x := e.value scl
  let r := roundTo x (floatFmt dfmt) mode sat
  (r.bits, resultEvent x r x.isNan x.isInf)

/-- Clear a slot (14 R334). -/
def Team.clearAcc (t : Team) (slot : Nat) : Team := { t with acc := t.acc.filter fun p => p.1 / 1024 != slot }

/-! ### MXM (14 R329 to R333) -/

/-- K of a SHAPE: 0 F8, 1 S2P8, 2 H16. -/
def shapeK (shape : Nat) : Nat := if shape = 0 then 32 else if shape = 1 then 64 else 16

/-- The combination of AFMT and BFMT is permitted for a SHAPE (14 R331). -/
def fmtsOk (shape af bf : Nat) : Bool :=
  if shape = 0 then (af == 3 || af == 4) && (bf == 3 || bf == 4)
  else if shape = 1 then (af == 5 || af == 6) && (bf == 3 || bf == 4)
  else (af == 1 || af == 2) && (bf == 1 || bf == 2)

/-- The checks of the format word (14 R331). -/
def fmtFault (c : Ctx) (m shape : Nat) : Option FaultInfo :=
  let w (L : Nat) : Word := rd32 c.team L c.form 3
  let f := w m
  if c.act.any fun L => w L != f then some { code := 0x0E, info := f }
  else if natBits f.toNat 31 16 != 0 || !fmtsOk shape (natBits f.toNat 3 0) (natBits f.toNat 7 4) then
    some { code := codeIllegal, info := c.iss.word }
  else none

/-- Element `k` of row or column `i` of a fragment at register `a` (14 R332): zero from lanes outside Active. -/
def fragElem (c : Ctx) (a shape fmt i k : Nat) : Num :=
  let half := shapeK shape / 2
  let L := i + 32 * (k / half)
  let bits := fmtBits fmt
  let kk := k % half
  if c.act.contains L then
    cvtSource fmt (BitVec.ofNat 64 ((c.team.vreg L (a + kk * bits / 32)).toNat / 2 ^ (kk * bits % 32)))
  else .fin false 0 0

/-- Format whose counters take the marks of a product (12 R306). -/
def markFmt (af bf : Nat) : Nat := if af ≤ 4 then af else bf

/-- Accumulate a product into a slot (14 R333): `b` gives element B(k, n). -/
def State.product (s : State) (c : Ctx) (shape : Nat) (z : Bool) (f : Nat) (b : Nat → Nat → Num) : State :=
  let slot := c.form.d.field.toNat
  let a0 := opReg c.team 0 c.form 1
  let af := natBits f 3 0
  let sc := (BitVec.ofNat 8 (natBits f 15 8)).toInt
  let t0 := if z then c.team.clearAcc slot else c.team
  let ks := List.range (shapeK shape)
  let r := (List.range 1024).foldl (fun (acc : Team × List Nat) e =>
    let i := e / 32
    let n := e % 32
    let (x, ms) := accumulateAll (acc.1.elem slot i n) sc (ks.map fun k => (fragElem c a0 shape af i k, b k n))
    (acc.1.setElem slot i n x, acc.2 ++ eventIndex (markFmt af (natBits f 7 4)) (firstMark ms))) (t0, [])
  (s.setTeam c.iss.team r.1).countEvents c.team.block r.2

/-- MXM.F8, MXM.S2P8, MXM.H16 (14 R333). -/
def mxmInstr (i : Instr) (shape : Nat) (s : State) : Host.Outcome State Fault Refusal :=
  runInstr i s fun c => teamEffect s c fun m =>
    match fmtFault c m shape with
    | some e => faultAll s c e
    | none =>
      let f := (rd32 c.team m c.form 3).toNat
      let b0 := opReg c.team m c.form 2
      { st := s.product c shape (c.form.imm.getLsbD 0) f fun k n => fragElem c b0 shape (natBits f 7 4) n k }

/-- MXM.F8. -/
def execMxmF8 (o : L64) (s : State) : Host.Outcome State Fault Refusal := mxmInstr (.mxmF8 o) 0 s
/-- MXM.S2P8. -/
def execMxmS2p8 (o : L64) (s : State) : Host.Outcome State Fault Refusal := mxmInstr (.mxmS2p8 o) 1 s
/-- MXM.H16. -/
def execMxmH16 (o : L64) (s : State) : Host.Outcome State Fault Refusal := mxmInstr (.mxmH16 o) 2 s

/-! ### MXZERO, MXRD, MXST (14 R334, R335) -/

/-- MXZERO (14 R334). -/
def execMxzero (o : L64) (s : State) : Host.Outcome State Fault Refusal :=
  runInstr (.mxzero o) s fun c => teamEffect s c fun _ =>
    { st := s.setTeam c.iss.team (c.team.clearAcc c.form.d.field.toNat) }

/-- SCL of MXRD and MXST. -/
def mxScl (imm : BitVec 14) : Int := (imm.extractLsb' 5 9).toInt

/-- Element (i, n) as MXRD and MXST deliver it. -/
def mxElem (c : Ctx) (slot i n : Nat) : ElemResult :=
  (c.team.elem slot i n).deliver (mxScl c.form.imm) (immBits c.form.imm 2 0) (.ofHint c.form.hintv) (c.form.imm.getLsbD 3)

/-- The registers of a lane's row under MXRD: sixteen columns from 16h, packed from the low bits (14 R335). -/
def mxRow (c : Ctx) (slot L : Nat) : List ElemResult :=
  (List.range 16).map fun j => mxElem c slot (L % 32) (16 * (L / 32) + j)

/-- A list of encodings of `w` bits each as one number. -/
def packElems (w : Nat) (es : List ElemResult) : Nat :=
  match es with
  | [] => 0
  | e :: r => e.1 + 2 ^ w * packElems w r

/-- MXRD (14 R335). -/
def execMxrd (o : L64) (s : State) : Host.Outcome State Fault Refusal :=
  runInstr (.mxrd o) s fun c => teamEffect s c fun m =>
    let slot := c.form.a.field.toNat
    let dfmt := immBits c.form.imm 2 0
    let w := (floatFmt dfmt).width
    let d := opReg c.team m c.form 0
    let rows := c.act.map fun L => (L, mxRow c slot L)
    let t := rows.foldl (fun t x => t.setVs x.1 d (w / 2) (packElems w x.2)) c.team
    let t := if c.form.imm.getLsbD 4 then t.clearAcc slot else t
    { st := (s.setTeam c.iss.team t).countEvents c.team.block
        (rows.flatMap fun x => x.2.flatMap fun e => eventIndex dfmt e.2) }

/-- Address of element `e` (row-major) of MXST. -/
def mxstAddr (base : Nat) (stride : Int) (size e : Nat) : Nat :=
  (((base : Int) + (e / 32 : Nat) * stride + (e % 32 * size : Nat)) % 2 ^ 64).toNat

/-- Every element of MXST lies in doorbell pages of other functions' queues, where no alignment faults (03 R62). -/
def State.mxstStrange (s : State) (ag : Agent) (base : Nat) (stride : Int) (size : Nat) : Bool :=
  (List.range 1024).all fun e => match s.strangeDoor ag .write (mxstAddr base stride size e) with
    | .ok (some _) => true
    | _ => false

/-- The checks of MXST on elements from `e`, `n` of them: the first failing byte in row-major order decides. The targets
and the lines that a version will hold. (Log 32, DEDUCED.) -/
def State.mxstCheck (s : State) (c : Ctx) (ag : Agent) (base : Nat) (stride : Int) (size e n : Nat) :
    Except FaultInfo (List (Nat × Target)) :=
  match n with
  | 0 => .ok []
  | k + 1 =>
    let a := mxstAddr base stride size e
    match s.engineAccess ag .write a size with
    | .error x => .error x
    | .ok t =>
      match s.versionFault c.node c.block.func a .write t with
      | some x => .error x
      | none =>
        match s.mxstCheck c ag base stride size (e + 1) k with
        | .error x => .error x
        | .ok r => .ok ((a, t) :: r)

/-- The stores of MXST: accesses of lane `m` numbered from `id`, each with the event of its element (14 R335). -/
def mxstStores (c : Ctx) (m ins id size dfmt slot e : Nat) (ts : List (Nat × Target)) : List Access :=
  match ts with
  | [] => []
  | (a, t) :: r =>
    { id := id, ins := ins, kind := .store, team := c.iss.team, block := c.team.block, core := c.team.core, lane := m,
      func := c.block.func, va := BitVec.ofNat 64 a, target := t, size := size, ord := 0, dest := 0, ndest := 0, sx := false,
      nol1 := true, data := BitVec.ofNat 128 (mxElem c slot (e / 32) (e % 32)).1, data2 := 0, ts := (c.team.lane m).rel,
      floored := false, carries := (c.team.lane m).fenced,
      supervisor := (c.team.lane m).trap, stage := .issued, knows := (c.team.lane m).know,
      events := eventIndex dfmt (mxElem c slot (e / 32) (e % 32)).2 : Access } ::
      mxstStores c m ins (id + 1) size dfmt slot (e + 1) r

/-- MXST (14 R335): its alignment is decided before the other rows of 09 R219. (Log 32, DEDUCED; log 153, DESIGN CHOICE.) -/
def execMxst (o : L64) (s : State) : Host.Outcome State Fault Refusal :=
  runInstr (.mxst o) s fun c => teamEffect s c fun m =>
    let slot := c.form.d.field.toNat
    let dfmt := immBits c.form.imm 2 0
    let size := (floatFmt dfmt).width / 8
    let base := (rd64 c.team m c.form 1).toNat
    let stride := (rd32 c.team m c.form 2).toInt
    let ag := s.agentOf c.iss.team m
    if (base % size ≠ 0 || stride % (size : Int) ≠ 0) && !s.mxstStrange ag base stride size then
      faultAll s c (.at codeAlign 0 base)
    else match s.mxstCheck c ag base stride size 0 1024 with
    | .error e => faultAll s c e
    | .ok ts =>
      let lines := ts.filterMap fun x => (heldTarget c.node x.1 x.2).map (· / 64)
      if lines != [] && s.versOver c.team.block (lines ++ s.pendingLines c.team.block) then
        faultAll s c { code := 0x13, addr := BitVec.ofNat 64 base, info := s.heldKib c.team.block }
      else
      let op := s.fresh
      let accs := mxstStores c m op (op + 1) size dfmt slot 0 ts
      if c.team.tlc = 255 || (s.core c.team.core).freeSlots == [] || !s.requestRoom c.team.core (accs.map Access.request) then
        { st := s, stall := true }
      else
        let as := ts.map (·.1)
        let lo := as.foldl min base
        let hi := as.foldl max base
        let s := { s with fresh := op + 1 + accs.length, accesses := s.accesses ++ accs }
        let s := (s.lockRange c.team.core ag op lo (hi + size - 1) true).startEngine c .mxst op m
        let t := s.team c.iss.team
        { st := s.setTeam c.iss.team (if c.form.imm.getLsbD 4 then t.clearAcc slot else t) }

/-- MXST_COMPLETE (14 R335): every word is acknowledged; the entry is removed and TLC falls. -/
def execMxstComplete (id : Nat) (s : State) : Host.Outcome State Fault Refusal :=
  match s.engines.find? fun e => e.id == id with
  | none => .next s
  | some e =>
    if e.kind != .mxst || s.accesses.any fun a => a.ins == id then .next s
    else
      let s := s.endEngine e
      .next ((s.setTeam e.team (s.team e.team).wakeCounters).blockSaved e.block)

/-! ### MXSKIP (14 R338) -/

/-- MXSKIP's decision for one lane: the block is needed. -/
def skipNeeded (qn m g kn : Nat) : Bool :=
  let v (w : Nat) : Num := fmtF32.value w
  let bound := roundTo ((v (qn % 2 ^ 31)).mul (v (kn % 2 ^ 31))) fmtF32 .RU false
  let thr := roundTo ((v m).add (v g).neg .RD) fmtF32 .RD false
  let b := v bound.bits
  let t := v thr.bits
  b.isNan || t.isNan || !(b.lt t)

/-- MXSKIP (14 R338): it is over at its issue, so that its count in TLC is not seen. -/
def execMxskip (o : L64) (s : State) : Host.Outcome State Fault Refusal :=
  runInstr (.mxskip o) s fun c => teamEffect s c fun m =>
    let h := Handle.parse (c.team.vregs m (opReg c.team m c.form 3) 4)
    match h.fault c.iss.word with
    | some e => faultAll s c e
    | none =>
      if c.team.tlc = 255 then { st := s, stall := true }
      else
        let d := c.form.d.field.toNat
        let flag := c.form.imm.getLsbD 11 && s.trusted c.team.block (s.agentOf c.iss.team m) h (immBits c.form.imm 10 0)
        let a := opReg c.team m c.form 1
        let need (L : Nat) : Bool :=
          skipNeeded (c.team.vreg L a).toNat (c.team.vreg L (a + 1)).toNat (c.team.vreg L (a + 2)).toNat
            (if flag then 0 else (rd32 c.team L c.form 2).toNat)
        { st := s.setTeam c.iss.team (c.act.foldl (fun t L => t.setKbit d L (need L)) c.team), masks := [d] }

/-! ### The troughs (14 R339 to R343) -/

/-- A field of the barrier object at a vault place. -/
def State.bfield (s : State) (c o off : Nat) : Nat := s.peek (.vault c (o + off)) 4
/-- Write a field of the barrier object. -/
def State.setBfield (s : State) (who c o off v : Nat) : State := s.poke who 0 false (.vault c (o + off)) 4 v

/-- The checks of a barrier address for NMV (14 R340): whatever keeps it from the vault window is VAULTBOUND. -/
def State.nmvBarrier (s : State) (ag : Agent) (a : Nat) : Except FaultInfo (Nat × Nat) :=
  if a % 16 ≠ 0 then .error (.at codeAlign 0 a)
  else if windowOf a ≠ 1 || windowOf (a + 15) ≠ 1 then .error (.at codeVaultbound 0 a)
  else match firstBad (s.vaultBad ag) a 16 with
    | some b => .error (.at codeVaultbound 0 b)
    | none => .ok (natBits a 31 24, natBits a 23 0)

/-- The issue update of the barrier (14 R341). -/
def State.nmvIssue (s : State) (core c o : Nat) : State :=
  let p := s.bfield c o 0
  let s := if p = 0 then
      ((s.setBfield (core + 1) c o 4 (s.bfield c o 4 % 2 ^ 31)).setBfield (core + 1) c o 8 0).setBfield (core + 1) c o 12 0
    else s
  s.setBfield (core + 1) c o 0 (p + 1)

/-- Where it stands among the marks of a cycle that a WAITB has passed the barrier object at a vault place. -/
def barrierMark (c o : Nat) : Nat := 2 ^ 32 + 2 ^ 23 * c + o

/-- NMV (14 R339, R340): the update of its issue comes before a WAITB of the same cycle, so that after one it waits for the next (R345). -/
def execNmv (o : L64) (s : State) : Host.Outcome State Fault Refusal :=
  runInstr (.nmv o) s fun c => teamEffect s c fun m =>
    let n := c.team.core
    let ag := s.agentOf c.iss.team m
    if (s.core n).freeSlots.length < 3 then { st := s, stall := true }
    else match s.nmvBarrier ag (rd64 c.team m c.form 3).toNat with
    | .error e => faultAll s c e
    | .ok (bc, bo) =>
      if s.marks.get 0 (barrierMark bc bo) != 0 then { st := s, stall := true } else
      let h := Handle.parse (c.team.vregs m (opReg c.team m c.form 2) 4)
      let y := rd64 c.team m c.form 0
      let x := rd64 c.team m c.form 1
      let yf := immBits c.form.imm 4 3
      let xf := immBits c.form.imm 2 0
      let op := s.fresh
      let s := { s with fresh := op + 1 }
      let s := s.lockRange n ag op x.toNat (x.toNat + h.cols * ((floatFmt xf).width / 8) - 1) false
      let s := s.lockRange n ag op h.base.toNat h.lastByte false
      let s := s.lockRange n ag op y.toNat (y.toNat + h.rows * ((floatFmt yf).width / 8) - 1) true
      let s := s.nmvIssue n bc bo
      let e : Engine := { id := op, ins := op, kind := .nmv y x h bc bo yf xf c.form.hintv.toNat (c.form.imm.getLsbD 5),
                          team := c.iss.team, block := c.team.block, core := n, func := c.block.func, lane := m,
                          lanes := c.act, supervisor := (c.team.lane m).trap, aborted := false,
                          knows := (c.team.lane m).know, rel := (c.team.lane m).rel, carries := (c.team.lane m).fenced }
      { st := { s with engines := s.engines ++ [e] } }

/-- An error of an NMV (14 R341): CODE, CAUSE, NCAUSE, OPND and ERRPOS; code 0 waits. (Log 33, DEDUCED.) -/
structure NmvError where
  code : Nat
  cause : Nat := 0
  ncause : Nat := 0
  opnd : Nat
  pos : Nat := 0
  /-- The failed access, for the referral of a walk. -/
  src : FaultInfo := { code := 0 }
  deriving DecidableEq, Repr

/-- ERRW of an error. -/
def NmvError.word (e : NmvError) : Nat := e.code + e.cause * 2 ^ 8 + e.ncause * 2 ^ 12 + e.opnd * 2 ^ 16

/-- Read `n` bytes byte by byte for an NMV, from memory that may hold x: not private, MT 1 or MT 2. -/
def State.nmvBytes (s : State) (e : Engine) (ag : Agent) (opnd a n : Nat) : Except NmvError (State × Nat) :=
  match n with
  | 0 => .ok (s, 0)
  | k + 1 =>
    if windowOf a = 2 then .error { code := 0x1B, ncause := 3, opnd := opnd }
    else match s.engineAccess ag .read a 1 with
    | .error x => .error { code := x.code, cause := x.cause, opnd := opnd, src := x }
    | .ok t =>
      match t with
      | .host _ => .error { code := 0x1B, ncause := 3, opnd := opnd }
      | .remote _ _ => .error { code := 0x1B, ncause := 3, opnd := opnd }
      | _ =>
        let s := (s.callHome e.core t).reach t
        match s.nmvBytes e ag opnd (a + 1) k with
        | .error x => .error x
        | .ok (s', v) => .ok (s', s.peek t 1 + 256 * v)

/-- Rows 1 and 2 of 09 R219 on `n` bytes of x or y. -/
def nmvRange (opnd pos a n : Nat) : Option NmvError :=
  (frontChecks a n 1).map fun x => { code := x.code, opnd := opnd, pos := pos }

/-- Read the elements of x. -/
def State.nmvVector (s : State) (e : Engine) (ag : Agent) (xf size a n : Nat) : Except NmvError (State × List Num) :=
  match n with
  | 0 => .ok (s, [])
  | k + 1 =>
    match s.nmvBytes e ag 1 a size with
    | .error x => .error x
    | .ok (s, v) =>
      match s.nmvVector e ag xf size (a + size) k with
      | .error x => .error x
      | .ok (s, r) => .ok (s, (floatFmt xf).value v :: r)

/-- Read row `i` of M from column `j`, `n` of them. -/
def State.nmvRow (s : State) (e : Engine) (ag : Agent) (h : Handle) (i j n : Nat) : Except NmvError (State × List Num) :=
  match n with
  | 0 => .ok (s, [])
  | k + 1 =>
    match s.readElem e.block ag h i j with
    | .error x => .error { code := x.code, cause := x.cause, opnd := 0, pos := i, src := x }
    | .ok (s, v) =>
      match s.nmvRow e ag h i (j + 1) k with
      | .error x => .error x
      | .ok (s, r) => .ok (s, cvtSource h.fmt (BitVec.ofNat 64 v) :: r)

/-- The targets of the bytes of y(i); an error of OPND y. (Log 33, DEDUCED.) -/
def State.nmvTargets (s : State) (ag : Agent) (i a n : Nat) : Except NmvError (List (Nat × Target)) :=
  match n with
  | 0 => .ok []
  | k + 1 =>
    if windowOf a = 2 then .error { code := 0x1B, ncause := 3, opnd := 2, pos := i }
    else match s.engineAccess ag .write a 1 with
    | .error x => .error { code := x.code, cause := x.cause, opnd := 2, pos := i, src := x }
    | .ok t =>
      match t with
      | .host _ => .error { code := 0x1B, ncause := 3, opnd := 2, pos := i }
      | .remote _ _ => .error { code := 0x1B, ncause := 3, opnd := 2, pos := i }
      | _ =>
        match s.nmvTargets ag i (a + 1) k with
        | .error x => .error x
        | .ok r => .ok ((a, t) :: r)

/-- One element of y with its event (14 R339): NaN operands and infinite operands count none (12 R308). -/
def nmvElem (ms xs : List Num) (sc : Int) (yf : Nat) (mode : Mode) (sat : Bool) : ElemResult :=
  let (e, marks) := accumulateAll {} sc (ms.zip xs)
  let r := e.deliver 0 yf mode sat
  let nan := (ms ++ xs).any (·.isNan)
  (r.1, match (if nan then none else firstMark (marks ++ r.2.toList)) with | some k => some k | none => none)

/-- Rows of M from `i`, `n` of them (14 R342 step 5): the state with what was written, the events, and the error.
(Log 33, DEDUCED.) -/
def State.nmvRows (s : State) (e : Engine) (ag : Agent) (h : Handle) (y : Nat) (xs : List Num) (yf : Nat) (mode : Mode)
    (sat : Bool) (i n : Nat) : State × List Nat × Option NmvError :=
  match n with
  | 0 => (s, [], none)
  | k + 1 =>
    match s.nmvRow e ag h i 0 h.cols with
    | .error x => (s, [], some x)
    | .ok (s, ms) =>
      let size := (floatFmt yf).width / 8
      match (match nmvRange 2 i (y + i * size) size with
        | some x => Except.error x
        | none => s.nmvTargets ag i (y + i * size) size) with
      | .error x => (s, [], some x)
      | .ok ts =>
        let r := nmvElem ms xs h.scale yf mode sat
        let s := (ts.zip (List.range size)).foldl (fun s p =>
          s.engineWrite e.block e.core ag p.1.1 p.1.2 1 (r.1 / 256 ^ p.2 % 256)) s
        let (s, evs, err) := s.nmvRows e ag h y xs yf mode sat (i + 1) k
        (s, eventIndex yf r.2 ++ evs, err)

/-- Every byte of M that translates lies in one stack (09 R235; 14 R342 step 3). -/
def State.oneStack (s : State) (ag : Agent) (h : Handle) : Bool :=
  let homes := h.pages.filterMap fun a => match s.engineAccess ag .read a 1 with
    | .ok (.hbm p) => some (s.stackOf p).1
    | _ => none
  homes.all fun x => some x == homes.head?

/-- Steps 1 to 3 of 14 R342. (Log 33, DEDUCED.) -/
def State.nmvFront (s : State) (e : Engine) (ag : Agent) (h : Handle) : Option NmvError :=
  if (s.nodeOf e.block).versioned then some { code := 0x1B, ncause := 4, opnd := 3 }
  else match (if 12 ≤ h.fmt then none else h.fault 0) with
    | some x => some { code := x.code, opnd := 0 }
    | none =>
      if natBits h.bits.toNat 63 61 != 0 || 12 ≤ h.fmt then some { code := codeIllegal, opnd := 0 }
      else match (if windowOf h.base.toNat ≠ 0 then .ok true else s.tileOutside ag h.pages) with
      | .error x => some { code := 0, opnd := 0, src := x }
      | .ok true => some { code := 0x1B, ncause := 3, opnd := 0 }
      | .ok false =>
      if !(3 ≤ h.fmt && h.fmt ≤ 6) then some { code := 0x1B, ncause := 2, opnd := 0 }
      else if !s.oneStack ag h then some { code := 0x1B, ncause := 1, opnd := 0 }
      else none

/-- The barrier of an NMV stands in bytes of its block, which has been saved and has left its core (14 R345). -/
def State.barrierSaved (s : State) (b c o : Nat) : Bool := !s.seated b && s.ownsVault b c o

/-- A field of the barrier object of an NMV of block `b`: in the block's save image while it is saved, else in the vault.
(Log 126, DESIGN CHOICE.) -/
def State.nmvField (s : State) (b c o off : Nat) : Nat :=
  let k := s.block b
  if s.barrierSaved b c o then Memory.read k.savedVault (2 ^ 23 * c + o - k.vaultPlace + off) 4 else s.bfield c o off

/-- Write such a field: bytes that the image does not keep stay lost. -/
def State.setNmvField (s : State) (who b c o off v : Nat) : State :=
  let k := s.block b
  if s.barrierSaved b c o then
    let i := 2 ^ 23 * c + o - k.vaultPlace + off
    if k.place == .saved && k.savesOffset i then s.setBlock b { k with savedVault := Memory.write k.savedVault i 4 v } else s
  else s.setBfield who c o off v

/-- Waiters of a trough barrier whose PEND is 0 continue or fault NMVFAULT (14 R343). -/
def State.wakeTroughs (s : State) (tn : Nat) : State :=
  let r := laneList.foldl (fun (acc : State × List (Nat × FaultInfo × Dbl × Dbl)) L =>
    let s := acc.1
    let t := s.team tn
    let l := t.lane L
    match l.st with
    | .waiting (.trough d c o) =>
      if s.bfield c o 0 ≠ 0 then acc
      else
        let s := s.acquire t.core
        let p := s.bfield c o 4
        if 2 ^ 31 ≤ p then
          let e : FaultInfo :=
            { code := 0x1B, addr := BitVec.ofNat 64 (s.bfield c o 12), info := BitVec.ofNat 32 (s.bfield c o 8) }
          (s, acc.2 ++ [(L, e, l.pc, nextPc l.pc 1)])
        else
          let t := s.team tn
          (s.setTeam tn ((t.setLane L (l.release 1)).setV L d (BitVec.ofNat 32 p)).refresh, acc.2)
    | _ => acc) (s, [])
  r.1.takeAll tn r.2

/-- The completion update of the barrier (14 R341), then the waiters: teams that are not resident look when they resume. -/
def State.nmvFinish (s : State) (e : Engine) (c o : Nat) (err : Option NmvError) : State :=
  let who := e.core + 1
  let b := e.block
  let s := match err with
    | some x =>
      if s.nmvField b c o 8 % 256 = 0 then (s.setNmvField who b c o 8 x.word).setNmvField who b c o 12 x.pos else s
    | none => s
  let p := s.nmvField b c o 0 - 1
  let s := s.setNmvField who b c o 0 p
  let s := if p = 0 then
      s.setNmvField who b c o 4
        ((s.nmvField b c o 4 % 2 ^ 31 + 1) % 2 ^ 31 + if s.nmvField b c o 8 % 256 = 0 then 0 else 2 ^ 31)
    else s
  let s := { s with engines := s.engines.filter fun x => x.id != e.id }.unlock e.core e.id
  ((s.teams.filter fun t => t.2.resident).map (·.1)).foldl (fun s tn => s.wakeTroughs tn) s

/-- x and y of an NMV whose block has left its core stand in the block's vault bytes: a saved block's NMV waits, and that of a block
stopped meanwhile finds no bytes there. (Log 126, DESIGN CHOICE.) -/
def State.nmvAway (s : State) (e : Engine) (x y : Dbl) : Option NmvError :=
  let away (a : Dbl) : Bool := windowOf a.toNat == 1 && s.ownsVault e.block (natBits a.toNat 31 24) (natBits a.toNat 23 0)
  if s.seated e.block then none
  else if away x || away y then
    some (if (s.block e.block).place == .saved then { code := 0, opnd := 0 }
          else { code := codeVaultbound, opnd := if away x then 1 else 2 })
  else none

/-- What moves with a block's vault bytes when it resumes elsewhere: a place in them, given by their old place and size and by the
new place. -/
def movePlace (old size new c o : Nat) : Nat × Nat :=
  let p := 2 ^ 23 * c + o
  if old ≤ p && p < old + size then ((new + (p - old)) / 2 ^ 23, (new + (p - old)) % 2 ^ 23) else (c, o)

/-- A vault address of a block that resumes elsewhere. -/
def moveAddr (old size new : Nat) (a : Dbl) : Dbl :=
  if windowOf a.toNat = 1 then
    let q := movePlace old size new (natBits a.toNat 31 24) (natBits a.toNat 23 0)
    BitVec.ofNat 64 (2 ^ 56 + 2 ^ 24 * q.1 + q.2)
  else a

/-- An NMV's operands and barrier, and a waiter of a barrier, move with the vault bytes of a block that resumes (14 R345).
(Log 126, DESIGN CHOICE.) -/
def Engine.moved (e : Engine) (old size new : Nat) : Engine :=
  match e.kind with
  | .nmv y x h bc bo yf xf mode sat =>
    let q := movePlace old size new bc bo
    { e with kind := .nmv (moveAddr old size new y) (moveAddr old size new x) h q.1 q.2 yf xf mode sat }
  | _ => e

/-- A lane that waits at a trough barrier. -/
def Lane.moved (l : Lane) (old size new : Nat) : Lane :=
  match l.st with
  | .waiting (.trough d c o) =>
    let q := movePlace old size new c o
    { l with st := .waiting (.trough d q.1 q.2) }
  | _ => l

/-- NMV_COMPLETE (14 R341, R342). (Log 12, DEDUCED.) -/
def execNmvComplete (id : Nat) (s : State) : Host.Outcome State Fault Refusal :=
  match s.engines.find? fun e => e.id == id with
  | none => .next s
  | some e =>
    match e.kind with
    | .nmv y x h bc bo yf xf mode sat =>
      if !s.lockClear e.core e.id || s.acquireOpen e.team e.lane e.ins then .next s
      else
        let ag := e.agent s
        let size := (floatFmt xf).width / 8
        match ((s.nmvAway e x y).or (s.nmvFront e ag h)).or (nmvRange 1 0 x.toNat (h.cols * size)) with
        | some er => .next (if er.code = 0 then s.waitFor ag er.src else s.nmvFinish e bc bo (some er))
        | none =>
          match s.nmvVector e ag xf size x.toNat h.cols with
          | .error er =>
            if er.code = 0 then .next (s.waitFor ag er.src)
            else .next ((s.nmvFinish e bc bo (some er)).dropAnswers ag.who.team [ag.asks])
          | .ok (s1, xs) =>
            let (s2, evs, err) := s1.nmvRows e ag h y.toNat xs yf (.ofHint (BitVec.ofNat 2 mode)) sat 0 h.rows
            match err with
            | some er =>
              if er.code = 0 then .next (s.waitFor ag er.src)
              else .next (((s2.countEvents e.block evs).nmvFinish e bc bo (some er)).dropAnswers ag.who.team [ag.asks])
            | none => .next ((s2.countEvents e.block evs).nmvFinish e bc bo none)
    | _ => .next s

/-- WAITB (14 R343). -/
def execWaitb (o : S32) (s : State) : Host.Outcome State Fault Refusal :=
  runInstr (.waitb o) s fun c =>
    let found := c.act.map fun L =>
      let a := (rd64 c.team L c.form 1).toNat
      (L, match frontChecks a 16 16 with
        | some e => Except.error e
        | none =>
          if windowOf a ≠ 1 then .error (.at codeVaultbound 0 a)
          else match s.checkThread c.iss.team L .read a 16 16 with
            | .error e => .error e
            | .ok _ => .ok (natBits a 31 24, natBits a 23 0))
    let bad := found.filterMap fun x => match x.2 with | .error e => some (x.1, e) | .ok _ => none
    let ok := found.filterMap fun x => match x.2 with | .ok p => some (x.1, p) | .error _ => none
    let d := c.form.d.field.toNat
    let wait := ok.filter fun x => s.bfield x.2.1 x.2.2 0 != 0
    let now := ok.filter fun x => s.bfield x.2.1 x.2.2 0 == 0
    let err := now.filterMap fun x =>
      if 2 ^ 31 ≤ s.bfield x.2.1 x.2.2 4 then
        some (x.1, ({ code := 0x1B, addr := BitVec.ofNat 64 (s.bfield x.2.1 x.2.2 12),
                      info := BitVec.ofNat 32 (s.bfield x.2.1 x.2.2 8) } : FaultInfo))
      else none
    let done := now.filter fun x => s.bfield x.2.1 x.2.2 4 < 2 ^ 31
    let t := done.foldl (fun t x => t.setV x.1 d (BitVec.ofNat 32 (s.bfield x.2.1 x.2.2 4))) c.team
    let s' := s.setTeam c.iss.team t
    let passed : State := { s' with marks := now.foldl (fun m x => SMap.set m 0 (barrierMark x.2.1 x.2.2) 1) s'.marks }
    { st := if now.isEmpty then s' else passed.acquire c.team.core, faults := bad ++ err,
      waits := wait.map fun x => (x.1, .trough d x.2.1 x.2.2) }

end Sys2Proof.Machine
end

