-- ==== Sys2Proof/Machine/Yard.lean ====
section
/-! DEFINITION. Stalls: storage, appends, waiting lists, mustering and the closing of inputs (04 R97 to R111, R113, R119 to
R122; 19 R424). -/
namespace Sys2Proof.Machine

/-! ### Order within a cycle -/

/-- Where something stands among what happens in one cycle at one resource: the resource, its place, and whether nothing else may
share the place. (Log 113, DEDUCED.) -/
structure CyclePlace where
  res : Nat
  place : Nat
  alone : Bool := false
  deriving DecidableEq, Repr

/-- Something has been taken in the cycle that this place comes before. -/
def State.late (s : State) (p : CyclePlace) : Bool :=
  let m := s.marks.get 0 p.res
  p.place + 1 < m || (p.alone && p.place + 1 == m)

/-- What takes these places in the cycle. -/
def State.markPlaces (s : State) (ps : List CyclePlace) : State :=
  { s with marks := ps.foldl (fun m p => SMap.set m 0 p.res (p.place + 1)) s.marks }

/-- Die of the home Yard of a node (04 R97). -/
def Run.homeDie (x : Run) (node : Nat) : Nat := x.dies.getD (node % x.dies.length) 0

/-- Node `node` of run `r`. -/
def State.nodeAt (s : State) (r node : Nat) : Node := (s.run r).graph.nodes.getD node {}

/-- Entries, with the spaces that granted remote records will take (04 R104, R117). -/
def Stall.count (x : Stall) : Nat := x.entries.length + x.granted

/-- Blocks of a node that have not retired (02 R53). -/
def State.nodeBlocks (s : State) (r node : Nat) : List Nat :=
  (s.blocks.filter fun b => b.2.run == r && b.2.node == node).map (·.1)

/-- Stall states (04 R104). -/
inductive StallState where
  | idle | gathering | ready | full | draining | dry | complete
  deriving DecidableEq, Repr

/-- The state of a stall (04 R104). -/
def State.stallState (s : State) (r node : Nat) : StallState :=
  let x := s.stall r node
  let n := s.nodeAt r node
  if (s.run r).complete.contains node then .complete
  else if n.cap ≤ x.count then .full
  else if x.closed then
    if 0 < x.count then .draining else if s.nodeBlocks r node = [] then .complete else .dry
  else if x.count = 0 then .idle
  else if x.count < n.rpb then .gathering
  else .ready

/-! ### Segments (04 R100 to R102; 19 R424) -/

/-- Entries of a segment. -/
def segSize (rsize : Nat) : Nat := 4096 / (rsize + 16)

/-- One entry more at the tail. -/
def segPush (l : List (Nat × Nat × Nat)) (per : Nat) : List (Nat × Nat × Nat) :=
  match l with
  | [] => [(0, 1, per - 1)]
  | [(t, n, room)] => if 0 < room then [(t, n + 1, room - 1)] else [(t, n, room), (0, 1, per - 1)]
  | x :: y :: r => x :: segPush (y :: r) per

/-- `k` entries leave at the head. -/
def segPop (l : List (Nat × Nat × Nat)) (k : Nat) : List (Nat × Nat × Nat) :=
  match l with
  | [] => []
  | (t, n, room) :: r => if k < n then (t, n - k, room) :: r else segPop r (k - n)

/-- `k` entries return at the head, in new segments; `c` bounds their number. -/
def segReturn (l : List (Nat × Nat × Nat)) (per k c : Nat) : List (Nat × Nat × Nat) :=
  match c with
  | 0 => l
  | c' + 1 => if k = 0 then l else (0, min per k, 0) :: segReturn l per (k - min per k) c'

/-- Segments of tier `t` in a chain. -/
def Stall.tier (x : Stall) (t : Nat) : Nat := (x.segs.filter fun e => e.1 == t).length

/-- Run and node of a stall's key. -/
def keyRun (k : Nat) : Nat := k / 4096
/-- Node of a stall's key. -/
def keyNode (k : Nat) : Nat := k % 4096

/-- The stalls whose home Yard is die `d`'s, with their keys. -/
def State.stallsOf (s : State) (d : Nat) : List (Nat × Stall) :=
  s.stalls.filter fun e => (s.run (keyRun e.1)).homeDie (keyNode e.1) == d

/-- Segments of tier `t` on a die. (Log 60, DEDUCED.) -/
def State.tierUse (s : State) (d t : Nat) : Nat := ((s.stallsOf d).map fun e => e.2.tier t).sum

/-- Place of the newest segment in stall SRAM that is neither head nor tail. -/
def Stall.middle (x : Stall) : Option Nat :=
  ((List.range x.segs.length).filter fun i =>
    1 ≤ i && i + 1 < x.segs.length && (x.segs.getD i (0, 0, 0)).1 == 0).getLast?

/-- Move a segment to a tier. -/
def Stall.moveSeg (x : Stall) (i t : Nat) : Stall :=
  { x with segs := x.segs.set i (t, (x.segs.getD i (0, 0, 0)).2) }

/-- Of two stalls, the one from which the Yard spills: more SRAM segments, then the lower run number, then the lower node
(04 R102). -/
def State.spillFirst (s : State) (a b : Nat × Stall) : Nat × Stall :=
  let na := a.2.tier 0
  let nb := b.2.tier 0
  let ra := (s.run (keyRun a.1)).number
  let rb := (s.run (keyRun b.1)).number
  if nb < na then a else if na < nb then b else if ra < rb then a else if rb < ra then b
  else if keyNode a.1 ≤ keyNode b.1 then a else b

/-- LOFTL2 in MiB: a value above 64 acts as 64 (04 R103). -/
def Yard.loftL2 (y : Yard) : Nat := min 64 (natBits y.loftl2.toNat 6 0)

/-- Spill segments until stall SRAM use is at or below 24 MiB, at most `c` (04 R102). -/
def State.spillLoop (s : State) (d c : Nat) : State :=
  match c with
  | 0 => s
  | c' + 1 =>
    if s.tierUse d 0 ≤ 6144 then s
    else match (s.stallsOf d).filter fun e => e.2.middle.isSome with
      | [] => s
      | e :: r =>
        let e := r.foldl s.spillFirst e
        let t := if s.tierUse d 1 < 256 * (s.yard d).loftL2 then 1 else 2
        ({ s with stalls := s.stalls.set {} e.1 (e.2.moveSeg (e.2.middle.getD 0) t) }).spillLoop d c'

/-- Stall SRAM use above 28 MiB makes the Yard spill (04 R102). -/
def State.spill (s : State) (d : Nat) : State := if 7168 < s.tierUse d 0 then s.spillLoop d 8192 else s

/-- Segments of the stall SRAM of a die: 32 MiB (04 R100). -/
def sramSegments : Nat := 8192

/-- An entry appended now needs a new segment. -/
def Stall.needsSeg (x : Stall) : Bool := ((x.segs.getLast?.map fun e => e.2.2).getD 0) == 0

/-- Stall SRAM holds, or has a free segment for, an entry that comes to a stall (04 R102). -/
def State.segRoom (s : State) (r node : Nat) : Bool :=
  !(s.stall r node).needsSeg || decide (s.tierUse ((s.run r).homeDie node) 0 < sramSegments)

/-- The head segment stands in stall SRAM (04 R100); the next is fetched where the head is less than half full and `room`
says that a segment is free (04 R102). -/
def Stall.fetchSeg (x : Stall) (per : Nat) (room : Bool) : Stall :=
  match x.segs with
  | (_, n, free) :: (t', n', free') :: r =>
    { x with segs := (0, n, free) :: (if room && decide (2 * n < per) then 0 else t', n', free') :: r }
  | [(_, n, free)] => { x with segs := [(0, n, free)] }
  | [] => x

/-- Bring the head of a stall to stall SRAM, and its next segment where it is due (04 R100, R102). -/
def State.fetchHead (s : State) (r node : Nat) : State :=
  let d := (s.run r).homeDie node
  let per := segSize (s.nodeAt r node).rsize
  (s.setStall r node ((s.stall r node).fetchSeg per (decide (s.tierUse d 0 < sramSegments)))).spill d

/-- The next segment of a stall is in tier `t` of the loft and is due: the head is less than half full (04 R102). -/
def State.segDue (s : State) (t : Nat) (e : Nat × Stall) : Bool :=
  match e.2.segs with
  | (_, n, _) :: (t', _, _) :: _ => t' == t && decide (2 * n < segSize (s.nodeAt (keyRun e.1) (keyNode e.1)).rsize)
  | _ => false

/-- The segments that are due are fetched, those of the L2 loft before those of the HBM loft (04 R102). -/
def State.fetchDue (s : State) : State :=
  [1, 2].foldl (fun s t => (s.stalls.filter (s.segDue t)).foldl (fun s e => s.fetchHead (keyRun e.1) (keyNode e.1)) s) s

/-- The muster timeout of a node as MTO and DEFMTO give it now, in units of 256 cycles; 0 for none (04 R107). -/
def State.timerLimit (s : State) (r node : Nat) : Nat :=
  let n := s.nodeAt r node
  if n.mto != 0 then n.mto else natBits (s.yard ((s.run r).homeDie node)).cfg.toNat 23 16

/-- Replace a stall: its muster timer starts when the count rises from 0, with the limit in force then (04 R103, R107). -/
def State.putStall (s : State) (r node : Nat) (x : Stall) : State :=
  let old := s.stall r node
  s.setStall r node (if old.count = 0 && x.count != 0 then { x with expired := false, timer := s.timerLimit r node } else x)

/-! ### Yard decision log (18 R412, R413) -/

/-- A run belongs to a job in deterministic mode, and its decision of `n` entries cannot be logged now at die `d` (04
R120, 18 R415). (Log 22, DEDUCED.) -/
def State.logHolds (s : State) (r d n : Nat) : Bool := (s.run r).det && !s.logRoom d .yard n

/-- Write a Yard decision of run `r` at die `d`. -/
def State.yardLog (s : State) (r d kind a b : Nat) : State :=
  let x := s.run r
  if x.det then s.writeLog d .yard kind x.func x.job (yardUnit d) (s.unitClock (yardUnit d)) a b else s

/-! ### Appends and waiting lists (04 R98, R99, R113) -/

/-- Append an entry to a stall: its append index, its segment, the log entry; a probe in flight ends (04 R119), and the
muster timer starts when the count rises from 0 (R107). -/
def State.appendEntry (s : State) (r node : Nat) (hdr : Dbl) (words : List Word) (who : Nat) : State :=
  let x := s.stall r node
  let n := s.nodeAt r node
  let d := (s.run r).homeDie node
  let s := s.yardLog r d 0x01 ((s.run r).number % 2 ^ 24 * 2 ^ 40 + node * 2 ^ 28 + x.appends % 2 ^ 28)
    (who + hdr.toNat / 2 ^ 32)
  let x := { x with
    entries := x.entries ++ [{ hdr := hdr, words := words, index := x.appends }], appends := x.appends + 1, probe := false,
    asked := 0, segs := segPush x.segs (segSize n.rsize) }
  (s.putStall r node x).spill d

/-- Field of B of an APPEND entry that names the emitter: core and team, or 0x3FF (18 R413). -/
def appendWho (core team : Nat) : Nat := core * 2 ^ 54 + team * 2 ^ 50

/-- The record of an emission is accepted: its lane leaves the EMIT (16 R374). -/
def State.acceptEmission (s : State) (e : Emission) : State :=
  let t := s.team e.team
  let l := t.lane e.lane
  let s := { s with emissions := s.emissions.filter fun x => x.id != e.id }
  if l.st == .waiting .emit then s.setTeam e.team (t.setLane e.lane (l.release 2)).refresh else s

/-- A record is acknowledged: EMC falls (16 R370). -/
def State.ackEmission (s : State) (tn n : Nat) : State :=
  let t := s.team tn
  if s.teams.any fun p => p.1 == tn then s.setTeam tn { t with emc := t.emc - n } else s

/-- Ports that are up and reach an accelerator (01 R28, 04 R118). (Log 104, DESIGN CHOICE.) -/
def State.portsTo (s : State) (a : Nat) : List Nat :=
  (List.range 16).filter fun p => s.ports.get 0 p != 0 && Config.reaches p a

/-- The port of a reservation's messages: the one its first message took, else a hash over the ports that reach the target
(04 R118). (Log 104, DESIGN CHOICE.) -/
def State.portFor (s : State) (a token : Nat) : Option Nat :=
  let ps := s.portsTo a
  match s.sent.find? fun m => m.accel == a && m.token == token && m.port.isSome with
  | some m => m.port
  | none => ps[Config.portHash a token % ps.length]?

/-- Send a Yard message to accelerator `a` (04 R118). (Log 28, DESIGN CHOICE.) -/
def State.send (s : State) (mtype a token : Nat) (body : List Word) : State :=
  { s with sent := { mtype := mtype, src := Config.accel.toNat, accel := a, token := token, body := body,
                     port := s.portFor a token } :: s.sent }

/-- A remote reservation is granted: the spaces of all its records count as occupied (04 R117). (Log 59, DEDUCED.) -/
def State.grantReserve (s : State) (r node src token : Nat) : State :=
  match s.remoteIn.find? fun m => m.srcAccel == src && m.token == token with
  | none => s
  | some m =>
    let s := { s with remoteIn := s.remoteIn.map fun (x : RemoteIn) =>
      if x.srcAccel = src && x.token = token then { x with granted := x.count } else x }
    let x := s.stall r node
    (s.putStall r node { x with granted := x.granted + m.count }).send 0x02 src token []

/-- Serve the waiting list while the count is below CAP (04 R113); `c` bounds the entries served. An append waits for the log
and for a segment of stall SRAM. -/
def State.serveLoop (s : State) (r node c : Nat) : State :=
  match c with
  | 0 => s
  | c' + 1 =>
    let x := s.stall r node
    let d := (s.run r).homeDie node
    if (s.nodeAt r node).cap ≤ x.count || (s.func (s.run r).func).cut then s
    else match x.waiting with
      | [] => s
      | w :: rest =>
        match w with
        | .emission id =>
          if s.logHolds r d 1 || !s.segRoom r node then s
          else
            let s := s.setStall r node { x with waiting := rest }
            match s.emissions.find? fun e => e.id == id with
            | none => s.serveLoop r node c'
            | some e =>
              let who := appendWho e.core (s.team e.team).index
              ((s.appendEntry r node e.entry.hdr e.entry.words who).acceptEmission e).serveLoop r node c'
        | .remote src token =>
          ((s.setStall r node { x with waiting := rest }).grantReserve r node src token).serveLoop r node c'

/-- Serve the waiting list of a stall. (Log 57, DEDUCED; log 59, DEDUCED.) -/
def State.serveWaiting (s : State) (r node : Nat) : State := s.serveLoop r node (s.stall r node).waiting.length

/-- Records addressed to a run are discarded: it is cancelled, complete, or its node is (02 R58, R59); or its entry read failed,
so that no further work is launched (03 R76). (Log 59, DEDUCED; log 106, DEDUCED.) -/
def State.discards (s : State) (r node : Nat) : Bool :=
  let x := s.run r
  x.cancelled || x.entryFailed || x.stage != .admitted || x.complete.contains node

/-- Emission `e` may reach its Yard: its release wait is over, the team's earlier records for that Yard have arrived, and
no other issue's records are arriving at the stall (04 R99, 16 R373). (Log 58, DEDUCED.) -/
def State.emissionReady (s : State) (e : Emission) : Bool :=
  let d := (s.run e.run).homeDie e.node
  let x := s.stall e.run e.node
  !e.listed && e.sent && (x.group == 0 || x.group == e.ins + 1) &&
  !(s.emissions.any fun o => !o.listed && o.team == e.team && (s.run o.run).homeDie o.node == d && o.id < e.id)

/-- The issue whose records are still to arrive at a stall after `e`'s. (Log 58, DEDUCED.) -/
def State.groupAfter (s : State) (e : Emission) : Nat :=
  if s.emissions.any fun o => !o.listed && o.ins == e.ins && o.run == e.run && o.node == e.node && o.id != e.id then
    e.ins + 1 else 0

/-- A listed record of an issue whose first records have reached the stall stands with them: ahead of what has been listed since
(16 R373). -/
def listAfter (mine : Waiting → Bool) (l : List Waiting) (w : Waiting) : List Waiting :=
  let n := (l.reverse.dropWhile fun x => !mine x).length
  l.take n ++ w :: l.drop n

/-- Emissions whose release wait is over are sent, and counted in EMC (16 R370, R373). -/
def State.sendEmissions (s : State) : State :=
  (s.emissions.filter fun e => !e.sent && s.acked e.after).foldl (fun s e =>
    let t := s.team e.team
    { s with emissions := s.emissions.map fun (o : Emission) => if o.id = e.id then { o with sent := true } else o }.setTeam
      e.team { t with emc := t.emc + 1 }) s

/-- RECORD_APPEND (04 R99, R113; 16 R370, R374): an emitted record reaches its home Yard; it is appended, or listed where
the stall is FULL, its list is not empty or the function is cut, or discarded where the run takes no more records. -/
def execRecordAppend (em : Nat) (s : State) : Host.Outcome State Fault Refusal :=
  match s.emissions.find? fun e => e.id == em with
  | none => .next s
  | some e =>
    let x := s.stall e.run e.node
    let d := (s.run e.run).homeDie e.node
    let told : State := (s.tellUnit e.core (yardUnit d)).tellCore (yardUnit d) e.core
    if !s.emissionReady e then .next s
    else if s.discards e.run e.node then .next ((told.ackEmission e.team 1).acceptEmission e)
    else
      let g := s.groupAfter e
      if (s.nodeAt e.run e.node).cap ≤ x.count || x.waiting != [] || (s.func (s.run e.run).func).cut then
        let ours (w : Waiting) : Bool := match w with
          | .emission id => s.emissions.any fun o => o.id == id && o.ins == e.ins
          | .remote _ _ => false
        let l := if x.group = 0 then x.waiting ++ [.emission em] else listAfter ours x.waiting (.emission em)
        let s := told.setStall e.run e.node { x with waiting := l, group := g }
        .next ({ s with emissions := s.emissions.map fun (o : Emission) =>
          if o.id = em then { o with listed := true } else o }.ackEmission e.team 1)
      else if s.logHolds e.run d 1 || !s.segRoom e.run e.node then .next s
      else
        let s := told.setStall e.run e.node { x with group := g }
        let who := appendWho e.core (s.team e.team).index
        let s := (s.appendEntry e.run e.node e.entry.hdr e.entry.words who).acceptEmission e
        .next (s.ackEmission e.team 1)

/-! ### Closing of inputs (04 R108, R119) -/

/-- Conditions 1 to 5 of 04 R108 for a node. -/
def State.inputConds (s : State) (r node : Nat) : Bool :=
  let x := s.run r
  let group := x.graph.cycleGroup node
  let full := group.filter fun m => (s.stall r m).count != 0
  (node != natBits x.packet.enode.toNat 11 0 || natBits x.packet.ecount.toNat 23 0 ≤ x.appended) &&
  ((List.range x.graph.nodes.length).all fun m =>
    !(x.graph.nodes.getD m {}).recTargets.contains node || group.contains m || x.complete.contains m) &&
  (group.all fun m => s.nodeBlocks r m == []) &&
  (if 1 < full.length then full.all fun m => node ≤ m && full.contains node
   else full.all fun m => m == node) &&
  !((s.func x.func).gates.any fun g => g.2.getLsbD 63 && natBits g.2.toNat 15 0 == x.job)

/-- Record nodes of a run. -/
def Run.recordNodes (x : Run) : List Nat :=
  (List.range x.graph.nodes.length).filter fun i => !(x.graph.nodes.getD i {}).depnode

/-- Probes in flight of the Yard of die `d`: at most four (04 R119). -/
def State.probesOf (s : State) (d : Nat) : Nat := ((s.stallsOf d).filter fun e => e.2.probe).length

/-- A node whose conditions hold starts its probe; with QUIET referred, the tag is posted to the PF (04 R119, R121). Where four
probes are in flight the attempt is dropped until the run's next trigger. (Log 107, DESIGN CHOICE.) -/
def State.startProbe (s : State) (r node : Nat) : State :=
  let x := s.run r
  let d := x.homeDie node
  let k := s.stall r node
  if k.closed || k.probe || 4 ≤ s.probesOf d || !s.inputConds r node then s
  else
    if (s.yard d).mode.getLsbD 6 then
      let s := s.setStall r node { k with probe := true, asked := s.nextReferral + 1 }
      (s.refer 6 d x.func (BitVec.ofNat 64 (x.number % 2 ^ 24 + node * 2 ^ 32)) 0 [] r node).postWaiting
    else s.setStall r node { k with probe := true, asked := 0 }

/-- The Yard evaluates the inputs of every node of a run (04 R108); at a cut it does not (17 R402). (Log 57, DEDUCED.) -/
def State.evalInputs (s : State) (r : Nat) : State :=
  if (s.run r).stage != .admitted || (s.run r).cancelled || (s.run r).entryFailed || (s.func (s.run r).func).cut then s
  else (s.run r).recordNodes.foldl (fun s node => s.startProbe r node) s

/-- A node of a cycle group starts a block: the results of the group's probes in flight are discarded (04 R122). -/
def State.dropProbes (s : State) (r node : Nat) : State :=
  (s.run r).recordNodes.foldl (fun s m =>
    if ((s.run r).graph.cycleGroup m).contains node && (s.stall r m).probe then
      s.setStall r m { s.stall r m with probe := false, asked := 0 } else s) s

/-- A record, message or reservation for the node is in transit (04 R119). -/
def State.inTransit (s : State) (r node : Nat) : Bool :=
  (s.emissions.any fun e => e.run == r && e.node == node && !e.listed) ||
  (s.remoteIn.any fun m => m.run == r && m.node == node && m.appended < m.count)

/-! ### Musters and placement (04 R106, R110, R111) -/

/-- Records that unretired blocks of a node hold. -/
def State.heldByBlocks (s : State) (r node : Nat) : Nat :=
  ((s.nodeBlocks r node).map fun b => (s.block b).records.length).sum

/-- Blocks of the node that are mustered and not yet started. -/
def State.unstarted (s : State) (r node : Nat) : Nat :=
  ((s.nodeBlocks r node).filter fun b => match (s.block b).place with
    | .referred => true
    | .bay _ => true
    | _ => false).length

/-- Entries that a muster would take from a stall now; none where no muster is taken (04 R106). -/
def State.musterSize (s : State) (r node : Nat) : Option Nat :=
  let x := s.stall r node
  let n := s.nodeAt r node
  let run := s.run r
  let d := run.homeDie node
  let k := x.entries.length
  let size := if n.rpb ≤ k then n.rpb else if x.closed || (x.expired && x.count < n.rpb) then k else 0
  if run.stage != .admitted || run.cancelled || run.entryFailed || (s.func run.func).cut || size = 0 ||
     natBits (s.yard d).cfg.toNat 27 24 ≤ s.unstarted r node ||
     (n.versioned && n.cap < s.heldByBlocks r node + size) then none
  else some size

/-- Row of the order of service in 04 R106; FULL with closed inputs behaves as DRAINING (R104). -/
def State.musterRow (s : State) (r node : Nat) : Nat :=
  match s.stallState r node with
  | .full => if (s.stall r node).closed then 4 else if (s.stall r node).waiting != [] then 1 else 2
  | .ready => 3
  | .draining => 4
  | _ => 5

/-- Of two eligible stalls, whether the first is served first (04 R106): by row, then eligible longest, then the lowest run
number, then the lowest node number. -/
def State.musterBefore (s : State) (a b : Nat) : Bool :=
  let x := s.stalls.get {} a
  let y := s.stalls.get {} b
  let ra := s.musterRow (keyRun a) (keyNode a)
  let rb := s.musterRow (keyRun b) (keyNode b)
  let na := (s.run (keyRun a)).number
  let nb := (s.run (keyRun b)).number
  if ra ≠ rb then ra < rb
  else if x.since ≠ y.since then x.since < y.since
  else if na ≠ nb then na < nb
  else keyNode a ≤ keyNode b

/-- Keep, for every stall, since which cycle a muster may take from it. -/
def State.markEligible (s : State) : State :=
  { s with stalls := s.stalls.map fun (e : Nat × Stall) =>
      match s.musterSize (keyRun e.1) (keyNode e.1) with
      | some _ => if e.2.since = 0 then (e.1, { e.2 with since := s.cycle.toNat + 1 }) else e
      | none => if e.2.since = 0 then e else (e.1, { e.2 with since := 0 }) }

/-- BASE of the tile handle that places a block: slot h of its first record, h the first set bit of HMASK (04 R111). -/
def State.placeHandle (s : State) (r node : Nat) (records : List Entry) : Option Nat :=
  let x := s.run r
  let n := s.nodeAt r node
  let hmask := natBits (x.graph.types.getD n.rtype 0).toNat 23 8
  match (if n.depnode then none else (List.range 16).find? fun i => hmask.testBit i), records with
  | some h, e :: _ => some ((e.words.getD (4 * h) 0).toNat + (e.words.getD (4 * h + 1) 0).toNat % 2 ^ 25 * 2 ^ 32)
  | _, _ => none

/-- The hash g of 04 R111. -/
def placeHash (b : Nat) : Nat := Nat.xor (natBits b 32 21) (Nat.xor (natBits b 44 33) (natBits b 56 45))

/-- The home cluster of 04 R111. -/
def State.homeCluster (s : State) (r : Nat) (musterNo : Nat) (handle : Option Nat) : Nat :=
  let cs := (s.run r).clusters
  match handle with
  | none => cs.getD (musterNo % cs.length) 0
  | some b =>
    if windowOf b = 1 && cs.contains (natBits b 31 24) then natBits b 31 24 else cs.getD (placeHash b % cs.length) 0

/-- The block goes to the bay of its home cluster (04 R111), stealable at once where AGE is 0 (R103); the placement is logged. -/
def State.placeBlock (s : State) (b cluster : Nat) (byPf : Bool) : State :=
  let k := s.block b
  let d := (s.run k.run).homeDie k.node
  let s := s.yardLog k.run d 0x03 (s.rnm b) (cluster % 256 + if byPf then 256 else 0)
  let (n, s) := s.take
  let old := natBits (s.yard (dieOfCluster cluster)).cfg.toNat 7 0 == 0
  s.setBlock b { s.block b with place := .bay old, cluster := cluster, arrived := n, stealAt := if old then n + 1 else 0 }

/-- A placement decision takes effect, or waits until it can be logged (04 R120). (Log 94, DEDUCED.) -/
def State.decidePlace (s : State) (b cluster : Nat) (byPf : Bool) : State :=
  let k := s.block b
  if s.logHolds k.run ((s.run k.run).homeDie k.node) 1 then
    s.setBlock b { k with placing := cluster + 1 + if byPf then 256 else 0 }
  else (s.setBlock b { k with placing := 0 }).placeBlock b cluster byPf

/-- Form a block of records and place it, or refer its placement to the PF (04 R106, R111, R121). Which g a referral
of a block without a handle names is a free value. (Log 108, DESIGN CHOICE.) -/
def State.formBlock (s : State) (r node musterNo : Nat) (records : List Entry) : State :=
  let x := s.run r
  let n := s.nodeAt r node
  let (b, s) := s.take
  let d := x.homeDie node
  let task := x.func * 2 ^ 56 + x.number % 2 ^ 24 * 2 ^ 32 + node * 2 ^ 20 + musterNo % 2 ^ 20
  let s := s.setBlock b { place := .referred, run := r, node := node, muster := musterNo, func := x.func, job := x.job,
                          records := records, dep := n.depnode, taskid := BitVec.ofNat 64 task }
  let s := if n.depnode then s else
    s.yardLog r d 0x02 (s.rnm b) (records.length * 2 ^ 28 + ((records.head?.map (·.index)).getD 0) % 2 ^ 28)
  let handle := s.placeHandle r node records
  if (s.yard d).mode.getLsbD 0 then
    let g := match handle with
      | some a => placeHash a
      | none => Config.freePick s.stamp b % 4096
    (s.refer 0 d x.func (BitVec.ofNat 64 (s.rnm b)) (BitVec.ofNat 64 g) [] b 0).postWaiting
  else s.decidePlace b (s.homeCluster r musterNo handle) false

/-- A muster may be taken from a stall now: its entries suffice, and it can be logged (04 R106, R120). -/
def State.mustersNow (s : State) (r node : Nat) : Bool :=
  (s.musterSize r node).isSome && !s.logHolds r ((s.run r).homeDie node) 1

/-- MUSTER (04 R106, R110): the eligible stall that its Yard serves first gives entries from its head to a new block; then
its waiting list is served (R113). -/
def execMuster (r node : Nat) (s : State) : Host.Outcome State Fault Refusal :=
  let d := (s.run r).homeDie node
  match s.musterSize r node with
  | none => .next s
  | some k =>
    let rivals := ((s.stallsOf d).map (·.1)).filter fun a => s.mustersNow (keyRun a) (keyNode a)
    if s.logHolds r d 1 || !(rivals.all fun a => s.musterBefore (stallKey r node) a) then .next s
    else
      let x := s.stall r node
      let y : Stall := { x with
        entries := x.entries.drop k, musters := x.musters + 1, expired := false, segs := segPop x.segs k }
      let y := { y with timer := if y.count = 0 then 0 else s.timerLimit r node }
      let s := (((s.setStall r node y).fetchHead r node).formBlock r node x.musters (x.entries.take k)).serveWaiting r node
      .next (if (s.stall r node).count = 0 then s.evalInputs r else s)

/-- MUSTER_TIMEOUT (04 R107): the timer of a stall in GATHERING expires, and a partial muster becomes due. A timer that MTO and
DEFMTO set to 0 when it started never expires (R103). -/
def execMusterTimeout (r node : Nat) (s : State) : Host.Outcome State Fault Refusal :=
  if s.stallState r node = .gathering && (s.stall r node).timer != 0 then
    .next (s.setStall r node { s.stall r node with expired := true })
  else .next s

end Sys2Proof.Machine
end

