-- ==== Sys2Proof/Machine/Start.lean ====
section
/-! DEFINITION. Starting blocks, stealing, parking and resuming (04 R109, R111, R112, R114, R115; 05 R124, R130 to R134; 09
R225; 17 R401). -/
namespace Sys2Proof.Machine

/-- Teams resident on core `n` (05 R130). -/
def State.residents (s : State) (n : Nat) : List Nat :=
  (s.teams.filter fun t => t.2.resident && t.2.core == n).map (·.1)

/-- Resident slot numbers that are free on a core. -/
def State.freeTeamSlots (s : State) (n : Nat) : List Nat :=
  (List.range 32).filter fun i => !(s.teams.any fun t => t.2.resident && t.2.core == n && t.2.slot == i)

/-- Accumulator slots in use on a core. -/
def State.accUse (s : State) (n : Nat) : Nat := ((s.residents n).map fun tn => (s.nodeOf (s.team tn).block).accs).sum

/-- A block has a resident team. -/
def State.hasResident (s : State) (b : Nat) : Bool := (s.block b).teams.any fun tn => (s.team tn).resident

/-- Barrier units in use on a core. -/
def State.barUse (s : State) (n : Nat) : Nat :=
  ((s.core n).blocks.map fun b => if s.hasResident b then (s.nodeOf b).bars else 0).sum

/-- Free slots of a core for `k` teams with `accs` slots each and `bars` barrier units (05 R130, R132). -/
def State.slotsFree (s : State) (n k accs bars : Nat) : Bool :=
  k ≤ (s.freeTeamSlots n).length && s.accUse n + k * accs ≤ 8 && s.barUse n + bars ≤ 64

/-- Size of a context (05 R134). -/
def Node.contextSize (n : Node) : Nat := 256 * n.regs

/-- Context space in use in a cluster's context region. -/
def State.contextUse (s : State) (c : Nat) : Nat :=
  (s.teams.map fun t => if clusterOfCore t.2.core = c && (t.2.resident || t.2.parked) && !t.2.overflowed then
    (s.nodeOf t.2.block).contextSize else 0).sum

/-- Use of a die's context overflow area (04 R115). -/
def State.overflowUse (s : State) (d : Nat) : Nat :=
  (s.teams.map fun t => if dieOfCore t.2.core = d && t.2.parked && t.2.overflowed then
    (s.nodeOf t.2.block).contextSize else 0).sum

/-- Use of a die's park area: a team record and the accumulator slots of each parked team (05 R134, 18 R435). Barrier state, whose size
and place the manual does not give, takes none of it. (Log 145, DESIGN CHOICE.) -/
def State.parkUse (s : State) (d : Nat) : Nat :=
  (s.teams.map fun t => if dieOfCore t.2.core = d && t.2.parked then
    4096 + 131072 * (s.nodeOf t.2.block).accs else 0).sum

/-- Contexts in a cluster's context region: team, offset and size (05 R134). -/
def State.contextTaken (s : State) (c : Nat) : List (Nat × Nat × Nat) :=
  (s.teams.filter fun t => clusterOfCore t.2.core == c && (t.2.resident || t.2.parked) && !t.2.overflowed).map
    fun t => (t.1, t.2.ctxAt, (s.nodeOf t.2.block).contextSize)

/-- Contexts in a die's overflow area. -/
def State.overflowTaken (s : State) (d : Nat) : List (Nat × Nat × Nat) :=
  (s.teams.filter fun t => dieOfCore t.2.core == d && t.2.parked && t.2.overflowed).map
    fun t => (t.1, t.2.ctxAt, (s.nodeOf t.2.block).contextSize)

/-- Teams in a die's park area: a record and accumulator slots each. -/
def State.parkTaken (s : State) (d : Nat) : List (Nat × Nat × Nat) :=
  (s.teams.filter fun t => dieOfCore t.2.core == d && t.2.parked).map
    fun t => (t.1, t.2.parkAt, 4096 + 131072 * (s.nodeOf t.2.block).accs)

/-- A place for `n` bytes in an area of `limit` bytes beside what its teams hold there: the first that fits; where the free bytes
lie scattered, what the teams hold is first laid one after another. (Log 112, DESIGN CHOICE.) -/
def State.placeIn (s : State) (taken : List (Nat × Nat × Nat)) (limit n : Nat) (put : Team → Nat → Team) : State × Nat :=
  match firstFit (taken.map (·.2)) limit 4096 n with
  | some o => (s, o)
  | none => taken.foldl (fun (x : State × Nat) t => (x.1.setTeam t.1 (put (x.1.team t.1) x.2), x.2 + t.2.2)) (s, 0)

/-- A place for a context in a cluster's context region (05 R134). -/
def State.placeContext (s : State) (c n : Nat) : State × Nat :=
  s.placeIn (s.contextTaken c) 0x400000 n fun t o => { t with ctxAt := o }

/-- The parked team of a cluster that parked first and whose context stands in the region. -/
def State.oldestParked (s : State) (c : Nat) : Option Nat :=
  (s.teams.filter fun t => clusterOfCore t.2.core == c && t.2.parked && !t.2.overflowed).foldl
    (fun best t => match best with
      | some b => if (s.team b).parkedAt ≤ t.2.parkedAt then some b else some t.1
      | none => some t.1) none

/-- Make room for `need` bytes in a cluster's context region, moving the oldest-parked contexts to the overflow area (04
R115); none where it cannot be made. -/
def State.contextRoom (s : State) (c need k : Nat) : Option State :=
  if s.contextUse c + need ≤ 0x400000 then some s
  else match k with
    | 0 => none
    | j + 1 =>
      match s.oldestParked c with
      | none => none
      | some tn =>
        let t := s.team tn
        if 2 ^ 31 < s.overflowUse (dieOfCluster c) + (s.nodeOf t.block).contextSize then none
        else
          let (s, at') := s.placeIn (s.overflowTaken (dieOfCluster c)) (2 ^ 31) (s.nodeOf t.block).contextSize
            fun t o => { t with ctxAt := o }
          (s.setTeam tn { t with overflowed := true, ctxAt := at' }).contextRoom c need j

/-- A block holds vault and arena space: from start to retirement, the arena also while it is saved. -/
def Block.holds (k : Block) (saved : Bool) : Bool :=
  match k.place with
  | .running => true
  | .retired => true
  | .saved => saved
  | _ => false

/-- Vault ranges taken in a cluster's block space (05 R133). -/
def State.vaultTaken (s : State) (c : Nat) : List (Nat × Nat) :=
  (s.blocks.filter fun b => b.2.holds false && b.2.vbase != 0 && natBits b.2.vbase.toNat 31 24 == c).map
    fun b => (natBits b.2.vbase.toNat 23 0, (s.nodeOf b.1).vaultb)

/-- Arena ranges taken in a function's range, by offset (09 R225). -/
def State.arenaTaken (s : State) (f : Nat) : List (Nat × Nat) :=
  (s.blocks.filter fun b => b.2.holds true && b.2.func == f && 0 < b.2.arena).map
    fun b => (b.2.abase.toNat - (s.func f).arena.1, b.2.arena)

/-- Vault offset for a block in its home cluster. -/
def State.vaultFit (s : State) (b : Nat) : Option Nat :=
  firstFit (s.vaultTaken (s.block b).cluster) 0x400000 256 (s.nodeOf b).vaultb

/-- Arena bytes of a block: n · P (09 R225). -/
def Node.arenaSize (n : Node) : Nat := n.threads * n.privStride

/-- Arena offset for a block in its function's range; a saved block keeps the one it has. -/
def State.arenaFit (s : State) (b : Nat) : Option Nat :=
  let k := s.block b
  let f := s.func k.func
  if k.place = .saved then some (k.abase.toNat - f.arena.1)
  else firstFit (s.arenaTaken k.func) f.arena.2 4096 (s.nodeOf b).arenaSize

/-- Teams of a block of a node (02 R44). -/
def Node.teamCount (n : Node) : Nat := (n.threads + 63) / 64

/-- Teams of a block that take a resident slot at its start or resumption. -/
def State.startTeams (s : State) (b : Nat) : Nat :=
  if (s.block b).place = .saved then ((s.block b).teams.filter fun tn => (s.team tn).saved).length
  else (s.nodeOf b).teamCount

/-- Core `n` meets the limits of 05 R130 for block `b`, and its vault bytes and arena can be allocated. -/
def State.fits (s : State) (n b : Nat) : Bool :=
  let nd := s.nodeOf b
  let k := s.startTeams b
  s.slotsFree n k nd.accs nd.bars && (s.vaultFit b).isSome && (s.arenaFit b).isSome &&
  (s.contextRoom (clusterOfCore n) (k * nd.contextSize) s.teams.length).isSome

/-- Starts of a block are held by a pre-emption of its function or job, or by a cut (17 R398, R402). -/
def State.startHeld (s : State) (b : Nat) : Bool :=
  let k := s.block b
  let f := s.func k.func
  f.held || f.cut || f.heldJobs.contains k.job

/-- A team on core `n` waits only for a resident slot: it is parked and its emissions are accepted (04 R114). -/
def State.resumable (s : State) (tn : Nat) : Bool :=
  let t := s.team tn
  t.parked && (s.block t.block).place == .running && !(laneList.any fun L => (t.lane L).waitsAt fun w => match w with
    | .emit => true
    | .remote _ => true
    | _ => false) && !(s.func (s.block t.block).func).cut

/-- The walker context, and the range-lock entry, that a team's saved walk needs are free on core `n` (15 R362). -/
def State.walkRoom (s : State) (tn n : Nat) : Bool :=
  match (s.team tn).walk with
  | none => true
  | some w => (s.core n).walker.owner == 0 && (!w.running || (s.core n).freeSlots != [])

/-- The walk that a team kept while it was saved, or parked at a cut, takes the context of its core again (15 R362); one that had ended
holds no lock. -/
def State.restoreWalk (s : State) (tn : Nat) : State :=
  let t := s.team tn
  match t.walk with
  | none => s
  | some w =>
    let op := s.fresh
    let ag := s.agentFor tn w.lane w.supervisor w.op w.knows
    let s := s.setTeam tn { t with walk := none }
    if w.running then
      let s := { s with fresh := op + 1 }.lockRange t.core ag op w.handle.base.toNat w.handle.lastByte false
      s.setCore t.core { s.core t.core with walker := { w with owner := tn + 1, lockOp := op } }
    else s.setCore t.core { s.core t.core with walker := { w with owner := tn + 1 } }

/-- A full resident slot is free for a parked team on its core, its block's barrier units included where it holds none (05
R132). -/
def State.resumeFits (s : State) (tn : Nat) : Bool :=
  let t := s.team tn
  let nd := s.nodeOf t.block
  s.slotsFree t.core 1 nd.accs (if s.hasResident t.block then 0 else nd.bars) && s.walkRoom tn t.core &&
  (!t.overflowed || (s.contextRoom (clusterOfCore t.core) nd.contextSize s.teams.length).isSome)

/-- A parked team takes a free slot of the core before any bay block (04 R114). -/
def State.resumesFirst (s : State) (n : Nat) : Bool :=
  s.teams.any fun t => t.2.core == n && s.resumable t.1 && s.resumeFits t.1

/-! ### The start of a block -/

/-- Registers of a started thread at launch (04 R109). -/
def Team.launchLane (t : Team) (L : Nat) (e : Entry) (n : Node) : Team :=
  let k := n.rsize / 4
  let t := t.setVs L 0 k (e.words.foldr (fun w acc => w.toNat + 2 ^ 32 * acc) 0)
  t.setVpair L k e.hdr

/-- Team `j` of a block at launch, with its slot and the place of its context (05 R124, R134); what its registers hold at launch stands
in its context, and the cache holds none of its groups yet. -/
def State.launchTeam (s : State) (b j slot ctx : Nat) : Team :=
  let k := s.block b
  let n := s.nodeOf b
  let started := if n.depnode then 2 ^ n.tprl else k.records.length * 2 ^ n.tprl
  let ls := laneList.filter fun L => 64 * j + L < started
  let t : Team := { block := b, index := j, core := k.core, resident := true, slot := slot, ctxAt := ctx }
  let t := t.mapLanes ls fun _ _ => { st := .ready, pc := n.code, arrival := .transfer 0 }
  let t := if n.depnode then t else ls.foldl (fun t L =>
    t.launchLane L (k.records.getD ((64 * j + L) / 2 ^ n.tprl) {}) n) t
  { t with vback := t.v }.refresh

/-- Create the teams of a block from index `j` on. (Log 40, DESIGN CHOICE.) -/
def State.launchTeams (s : State) (b j c : Nat) : State :=
  match c with
  | 0 => s
  | c' + 1 =>
    let (tn, s) := s.take
    let k := s.block b
    let free := s.freeTeamSlots k.core
    let slot := free.getD (Config.freePick s.stamp tn % free.length) 0
    let (s, ctx) := s.placeContext (clusterOfCore k.core) (s.nodeOf b).contextSize
    let s := (s.setBlock b { k with teams := k.teams ++ [tn] }).setTeam tn (s.launchTeam b j slot ctx)
    s.launchTeams b (j + 1) c'

/-- Zero the block's vault bytes (05 R133). -/
def State.clearVault (s : State) (place n : Nat) : State :=
  { s with vaults := s.vaults.filter fun c => !(place ≤ c.1 && c.1 < place + n) }

/-- Bytes of a memory from `k`, one page, become zero or, where the pick says so, what the page's arena addresses last held. -/
def settleBytes (stamp : Nat) (m hist : List Host.Cell) (k a : Nat) : List Host.Cell :=
  (hist.filter fun c => Config.freePick stamp c.1 % 2 == 1).foldl (fun m c => Memory.setByte m (k + (c.1 - a)) c.2)
    (m.filter fun c => !(k ≤ c.1 && c.1 < k + 4096))

/-- At start each byte of an arena page of block `b`, which starts at address `a`, holds zero or what a block of the function last
wrote to it: which is a free value (09 R225). No write is performed: generations and watches stay. A page whose translation is
not known yet is settled as soon as it is. (Log 67, DESIGN CHOICE.) -/
def State.settlePage (s : State) (b a : Nat) : State :=
  let k := s.block b
  let hist := (s.arenas.get [] k.func).filter fun c => a ≤ c.1 && c.1 < a + 4096
  let ag : Agent := { deviceAgent k.func with cluster := clusterOfCore k.core, core := some k.core }
  match s.translate ag .read false a with
  | .ok (.hbm p) =>
    { s with hbm := settleBytes s.stamp s.hbm hist (s.hkey p) a, l1 := s.l1.filter fun e => e.word / 1024 != p / 4096 }
  | .ok (.host p) => { s with host := settleBytes s.stamp s.host hist p a }
  | .ok (.remote d p) => { s with remote := settleBytes s.stamp s.remote hist (2 ^ 64 * d + p) a }
  | .error _ => { s with unsettled := (b, a) :: s.unsettled }
  | _ => s

/-- The pages of an arena at a block's start. -/
def State.settleArena (s : State) (b base n : Nat) : State :=
  (List.range (n / 4096)).foldl (fun s i => s.settlePage b (base + 4096 * i)) s

/-- Arena pages of blocks that are still there and whose translation was not known are looked at again. -/
def State.settlePages (s : State) : State :=
  (s.unsettled.filter fun u => s.blocks.any fun b => b.1 == u.1 && b.2.holds true).foldl (fun s u => s.settlePage u.1 u.2)
    { s with unsettled := [] }

/-- Block `b` takes its place on core `n`: vault base and arena. (Log 66, DESIGN CHOICE.) -/
def State.seatBlock (s : State) (b n : Nat) : State :=
  let k := s.block b
  let nd := s.nodeOf b
  let o := (s.vaultFit b).getD 0
  let ar := (s.arenaFit b).getD 0
  let fresh := k.place != .saved
  let s := (s.contextRoom (clusterOfCore n) (s.startTeams b * nd.contextSize) s.teams.length).getD s
  let vbase := if nd.vaultb = 0 then 0 else 2 ^ 56 + k.cluster * 2 ^ 24 + o
  let abase := if nd.arenaSize = 0 then Config.freeDbl s.stamp b else BitVec.ofNat 64 ((s.func k.func).arena.1 + ar)
  let s := s.setBlock b { k with place := .running, core := n, vbase := BitVec.ofNat 64 vbase,
                                 abase := if fresh then abase else k.abase,
                                 arena := if fresh then nd.arenaSize else k.arena }
  let s := s.clearVault (2 ^ 23 * k.cluster + o) nd.vaultb
  let s := if fresh then s.settleArena b abase.toNat nd.arenaSize else s
  let c := s.core n
  s.setCore n { c with blocks := c.blocks ++ [b] }

/-- Write a START entry (18 R413). (Log 61, DEDUCED.) -/
def State.logStart (s : State) (b n : Nat) (steal resume : Bool) : State :=
  let k := s.block b
  s.yardLog k.run (dieOfCluster k.cluster) 0x04 (s.rnm b)
    (n + (if steal then 2 ^ 10 else 0) + if resume then 2 ^ 11 else 0)

/-- Start a bay block on core `n` (04 R109, R111; 05 R124, R130). The launch is an acquire (11 R280), and its message raises
the core's clock (R285). -/
def State.startBlock (s : State) (b n : Nat) (steal : Bool) : State :=
  let nd := s.nodeOf b
  let s := ((s.logStart b n steal false).seatBlock b n).launchTeams b 0 nd.teamCount
  ((s.dropProbes (s.block b).run (s.block b).node).acquire n).tellCore (yardUnit (dieOfCluster (s.block b).cluster)) n

/-- A block may start now: it stands in a bay, nothing holds it, and its START entry can be logged. -/
def State.mayStart (s : State) (b : Nat) : Bool :=
  let k := s.block b
  (match k.place with
    | .bay _ => true
    | _ => false) && !s.startHeld b && !s.logHolds k.run (dieOfCluster k.cluster) 1

/-- The oldest bay block of a cluster for which core `n` meets the limits (04 R111). -/
def State.oldestBay (s : State) (n : Nat) : Option Nat :=
  (s.blocks.filter fun b => b.2.cluster == clusterOfCore n && s.mayStart b.1 && s.fits n b.1).foldl
    (fun best b => match best with
      | some x => if (s.block x).arrived ≤ b.2.arrived then some x else some b.1
      | none => some b.1) none

/-- Of the cores of a cluster that can start block `b`, the one with the fewest resident teams, then the lowest (04 R111). -/
def State.bestCore (s : State) (b : Nat) : Option Nat :=
  ((List.range 4).map (4 * (s.block b).cluster + ·)).foldl
    (fun best n =>
      if !s.fits n b || s.resumesFirst n then best
      else match best with
        | some x => if (s.residents x).length ≤ (s.residents n).length then some x else some n
        | none => some n) none

/-- A saved block of a cluster is ready to resume: it goes ahead of bay blocks (17 R401). -/
def State.savedReady (s : State) (b : Nat) : Bool :=
  let k := s.block b
  k.place == .saved && !s.startHeld b && !s.logHolds k.run (dieOfCluster k.cluster) 1

/-- A saved block of the core's cluster could resume on it now. -/
def State.savedFirst (s : State) (n : Nat) : Bool :=
  s.blocks.any fun b => b.2.cluster == clusterOfCore n && s.savedReady b.1 && s.fits n b.1

/-- BLOCK_START (04 R111): a core of the home cluster starts the oldest bay block for which it meets the limits, if it is
the core that takes it. Parked teams and saved blocks go first. -/
def execBlockStart (core : Nat) (s : State) : Host.Outcome State Fault Refusal :=
  match s.oldestBay core with
  | none => .next s
  | some b =>
    if s.resumesFirst core || s.savedFirst core || s.bestCore b != some core then .next s
    else .next (s.startBlock b core false)

/-! ### Stealing (04 R112) -/

/-- STEALABLE (04 R112; 17 R401): a block has stood in its bay, or saved, for the ageing interval. -/
def execStealable (b : Nat) (s : State) : Host.Outcome State Fault Refusal :=
  let k := s.block b
  match k.place with
  | .bay false =>
    let (n, s) := s.take
    .next (s.setBlock b { k with place := .bay true, stealAt := n + 1 })
  | .saved =>
    if k.stealAt ≠ 0 then .next s
    else
      let (n, s) := s.take
      .next (s.setBlock b { k with stealAt := n + 1 })
  | _ => .next s

/-- The stealable queue of a die, in order, as core `n` may draw from it: blocks of functions that own its partition. -/
def State.stealQueue (s : State) (n : Nat) : List Nat :=
  (s.blocks.filter fun b => b.2.place == .bay true && dieOfCluster b.2.cluster == dieOfCore n &&
    s.ownsCluster b.2.func (clusterOfCore n) && s.mayStart b.1).foldl
    (fun l b => (l.filter fun x => (s.block x).stealAt < b.2.stealAt) ++ b.1 ::
      l.filter fun x => b.2.stealAt ≤ (s.block x).stealAt) []

/-- A core is idle: it has no resident team (04 R112). -/
def State.coreIdle (s : State) (n : Nat) : Bool := s.residents n == []

/-- Requests of one merge, in ascending core number, receive consecutive blocks. A request that receives none retries; a home-cluster
core that would start a block takes it first, and the requester whose block it was receives none. `given` are blocks of earlier
requesters. -/
def State.stealLoop (s : State) (d : Nat) (cores given : List Nat) : State :=
  match cores with
  | [] => s
  | n :: r =>
    if dieOfCore n ≠ d || !s.coreIdle n || s.resumesFirst n || s.savedFirst n then s.stealLoop d r given
    else match (s.stealQueue n).find? fun b => !given.contains b && s.fits n b with
      | none => s.stealLoop d r given
      | some b =>
        let claimed := (s.bestCore b).any fun h => s.oldestBay h == some b
        (if claimed then s else s.startBlock b n true).stealLoop d r (b :: given)

/-- Insert a core number in ascending order, once. -/
def insertCore (x : Nat) (l : List Nat) : List Nat :=
  match l with
  | [] => [x]
  | y :: r => if x < y then x :: y :: r else if x = y then y :: r else y :: insertCore x r

/-- STEAL (04 R112): the requests of up to 16 idle cores are merged into one. (Log 68, DEDUCED.) -/
def execSteal (die : Nat) (cores : List Nat) (s : State) : Host.Outcome State Fault Refusal :=
  .next (s.stealLoop die ((cores.foldl (fun l n => insertCore n l) []).take 16) [])

/-! ### Parking (04 R114, R115; 05 R132, R134) -/

/-- A lane of the team waits at an emission that back-pressure holds, or for the reply to a reservation. -/
def State.emitWaits (s : State) (tn : Nat) : Bool :=
  let t := s.team tn
  (s.emissions.any fun e => e.team == tn && e.listed) ||
  laneList.any fun L => (t.lane L).waitsAt fun w => match w with
    | .remote _ => true
    | _ => false

/-- The park area and the overflow area of the die can take a team (04 R115, 05 R134). -/
def State.parkRoom (s : State) (tn : Nat) : Bool :=
  let t := s.team tn
  let nd := s.nodeOf t.block
  let d := dieOfCore t.core
  s.parkUse d + 4096 + 131072 * nd.accs ≤ 2 ^ 32 && s.overflowUse d + nd.contextSize ≤ 2 ^ 31

/-- A team that holds its place again looks at its masks and barriers, at the tags of its core and at the troughs (08 R215; 10 R275;
14 R345; 16 R367). -/
def State.reenter (s : State) (tn : Nat) : State :=
  ((s.recheck tn).wakeCore (s.team tn).core).wakeTroughs tn

/-- What a team that is to park waits for is over: LDC and TLC are zero, its copies are complete and its SC operations and fills
are over (05 R146; 10 R245, R275; 11 R295). -/
def State.parkReady (s : State) (t : Nat) : Bool :=
  let tm := s.team t
  s.saveReady t && tm.cpc == 0 && tm.filling == []

/-- A team parks (04 R114; 05 R132, R134): its registers are written back to its context, its record and accumulator slots to the
park area, and its slot and cached groups are free. -/
def State.parkNow (s : State) (t : Nat) : State :=
  let tm := s.team t
  let (n, s) := s.take
  let c := s.core tm.core
  let s := s.setCore tm.core { c with
    rcache := c.rcache.filter fun p => p.1 != t, wbuf := c.wbuf.filter fun w => w.team != t }
  let (s, at') := s.placeIn (s.parkTaken (dieOfCore tm.core)) (2 ^ 32) (4096 + 131072 * (s.nodeOf tm.block).accs)
    fun t o => { t with parkAt := o }
  let tm := tm.loseWatches
  s.setTeam t { tm with resident := false, parked := true, parking := false, parkedAt := n, parkAt := at', vback := tm.v }

/-- A team whose park deadline has come parks once it may; where the areas cannot take it, it keeps its slot until its emissions
have been accepted (04 R114, R115; 05 R134). -/
def State.parkTeam (s : State) (t : Nat) : State :=
  let tm := s.team t
  if !s.parkRoom t then s.setTeam t { tm with parking := false, stays := true }
  else if s.parkReady t then s.parkNow t
  else s.setTeam t { tm with parking := true }

/-- TEAM_PARK (04 R114): a team whose emission has waited for the back-pressure interval gives up its slot, at once or, as one that
is parking (05 R137), as soon as it may. -/
def execTeamPark (t : Nat) (s : State) : Host.Outcome State Fault Refusal :=
  .next (if (s.team t).resident && s.emitWaits t && !(s.team t).stays then s.parkTeam t else s)

/-- Teams that are parking park once they may; one whose emissions have been accepted meanwhile does not park, and its next wait
counts anew (04 R114, R115). -/
def State.parkWaiting (s : State) : State :=
  (s.teams.filter fun t => t.2.parking || t.2.stays).foldl (fun s t =>
    if !s.emitWaits t.1 || !(s.team t.1).resident then s.setTeam t.1 { s.team t.1 with parking := false, stays := false }
    else if t.2.parking then s.parkTeam t.1 else s) s

/-- TEAM_RESUME (04 R114; 05 R132; 08 R215; 16 R367): the oldest-parked team of its core whose emissions are accepted takes
a free slot; its context comes back, and release checks run for every mask and barrier. -/
def execTeamResume (t : Nat) (s : State) : Host.Outcome State Fault Refusal :=
  let tm := s.team t
  let older := s.teams.any fun o => o.2.core == tm.core && o.2.parkedAt < tm.parkedAt && s.resumable o.1
  if s.resumable t && s.resumeFits t && !older then
    let nd := s.nodeOf tm.block
    let c := clusterOfCore tm.core
    let s := if tm.overflowed then (s.contextRoom c nd.contextSize s.teams.length).getD s else s
    let (s, at') := if tm.overflowed then s.placeContext c nd.contextSize else (s, tm.ctxAt)
    let free := s.freeTeamSlots tm.core
    let slot := free.getD (Config.freePick s.stamp t % free.length) 0
    .next ((s.setTeam t { s.team t with parked := false, overflowed := false, resident := true, slot := slot,
                                             ctxAt := at' }).restoreWalk t |>.reenter t)
  else .next s

/-! ### Saved blocks (17 R401, R405) -/

/-- Cores on which a saved block may resume: of its home cluster, or, once it is stealable, an idle core of its die in a
partition of its function. (Log 68, DEDUCED.) -/
def State.resumeCore (s : State) (b n : Nat) : Bool :=
  let k := s.block b
  if clusterOfCore n = k.cluster then s.bestCore b == some n
  else k.stealAt != 0 && dieOfCore n == dieOfCluster k.cluster && s.coreIdle n && !s.resumesFirst n &&
       s.ownsCluster k.func (clusterOfCore n) && s.fits n b

/-- A team of a resumed block that is parked belongs to its new core; its context, where it stood in another cluster's vault, goes to
the die's overflow area (04 R115; 17 R402). (Log 112, DESIGN CHOICE.) -/
def State.moveParked (s : State) (tn n : Nat) : State :=
  let t := s.team tn
  if t.parked && !t.overflowed && clusterOfCore n != clusterOfCore t.core then
    let (s, at') := s.placeIn (s.overflowTaken (dieOfCore n)) (2 ^ 31) (s.nodeOf t.block).contextSize
      fun t o => { t with ctxAt := o }
    s.setTeam tn { t with core := n, overflowed := true, ctxAt := at' }
  else s.setTeam tn { t with core := n }

/-- Restore a saved team on its new core, with its generator context; a team whose walk finds no room there stays saved (15 R362).
(Log 40, DESIGN CHOICE.) -/
def State.restoreTeam (s : State) (tn n : Nat) : State :=
  let t := s.team tn
  if !t.saved then s.moveParked tn n
  else if !s.walkRoom tn n then s.setTeam tn { t with core := n }
  else
    let free := s.freeTeamSlots n
    let slot := free.getD (Config.freePick s.stamp tn % free.length) 0
    let (s, at') := s.placeContext (clusterOfCore n) (s.nodeOf t.block).contextSize
    let t := t.loseWatches
    (s.setTeam tn { t with core := n, resident := true, saved := false, slot := slot, ctxAt := at', vback := t.v }).restoreWalk tn

/-- A team of a block that has resumed without it, for want of a walker context, starts once the context, a slot and context space
are free (15 R362). -/
def State.resumeWalk (s : State) (tn : Nat) : State :=
  let t := s.team tn
  let k := s.block t.block
  let nd := s.nodeOf t.block
  if t.saved && k.place == .running && !k.preempt && !(s.func k.func).cut && s.walkRoom tn t.core &&
     s.slotsFree t.core 1 nd.accs (if s.hasResident t.block then 0 else nd.bars) then
    match s.contextRoom (clusterOfCore t.core) nd.contextSize s.teams.length with
    | some s => (s.restoreTeam tn t.core).reenter tn
    | none => s
  else s

/-- Every such team. -/
def State.resumeWalks (s : State) : State :=
  ((s.teams.filter fun t => t.2.saved && t.2.walk.isSome).map (·.1)).foldl (fun s tn => s.resumeWalk tn) s

/-- SAVED_BLOCK_RESUME (17 R401): a saved block is checked, restored and continues, ahead of bay blocks. An image that fails
its check or its conversion stops the block with reason SAVEBAD; every core of the part covers every FEATREQ that passes
validation, so that FEATMISS does not arise. (Log 68, DEDUCED.) -/
def execSavedBlockResume (b core : Nat) (s : State) : Host.Outcome State Fault Refusal :=
  let k := s.block b
  let nd := s.nodeOf b
  if !s.savedReady b then .next s
  else if nd.featreq &&& 0x1FFF ≠ nd.featreq then .next (s.stopBlock b { reason := 8 })
  else if k.saveBad || (k.saveLayout ≠ s.dev.savelayout.toNat && !Config.saveConverts k.saveLayout) then
    .next (s.stopBlock b { reason := 7 })
  else if !s.resumeCore b core then .next s
  else
    let s := (s.logStart b core (clusterOfCore core != k.cluster) true).seatBlock b core
    let p := (s.block b).vaultPlace
    let s := { s with
      vaults := k.savedVault.foldl (fun m (c : Host.Cell) => Memory.setByte m (p + c.1) c.2) s.vaults
      engines := s.engines.map fun (e : Engine) => if e.block = b then e.moved k.vaultPlace nd.vaultb p else e }
    let s := s.setBlock b { s.block b with savedVault := [], fullSave := false, vranges := [], saveKind := 0, stealAt := 0 }
    let s := k.teams.foldl (fun s tn =>
      let t := s.team tn
      let move (p' : Nat × Lane) : Nat × Lane := (p'.1, p'.2.moved k.vaultPlace nd.vaultb p)
      (s.setTeam tn { t with lanes := t.lanes.map move }).restoreTeam tn core) s
    let s := (s.acquire core).tellCore (yardUnit (dieOfCluster k.cluster)) core
    .next (k.teams.foldl (fun s tn => if (s.team tn).resident then s.reenter tn else s) s)

end Sys2Proof.Machine
end

