-- ==== Sys2Proof/Machine/Retire.lean ====
section
/-! DEFINITION. Retirement, commit and discard of versions, completion of nodes, runs and jobs, and CANCEL (02 R53, R57 to
R59; 03 R76, R78; 17 R391, R397; 18 R407 to R409). -/
namespace Sys2Proof.Machine

/-! ### Completion of runs (02 R57; 03 R73, R76, R78; 18 R409) -/

/-- A Yard's black-box event for a run: function, job, RUNID, outcome (18 R417), as four words.
(Log 63, DESIGN CHOICE.) -/
def State.runEvent (s : State) (r outcome : Nat) : State :=
  let x := s.run r
  s.bbEvent (x.homeDie 0) 0x07 (x.func + x.job * 2 ^ 32 + x.number % 2 ^ 24 * 2 ^ 64 + outcome * 2 ^ 96)

/-- A run's charges and its loft reservations are returned (03 R78; 04 R101). -/
def State.returnCharge (s : State) (r : Nat) : State :=
  let x := s.run r
  let f := s.func x.func
  let s := s.setFunc x.func { f with
    useRun := f.useRun - x.charge.1, useStall := f.useStall - x.charge.2.1, usePred := f.usePred - x.charge.2.2 }
  let s := x.loft.foldl (fun s e => s.setYard e.1 { s.yard e.1 with reserved := (s.yard e.1).reserved - e.2 }) s
  s.setRun r { s.run r with charge := (0, 0, 0), loft := [] }

/-- A run has completed. -/
def Run.isDone (x : Run) : Bool :=
  match x.stage with
  | .done _ => true
  | _ => false

/-- A run has completed and its completion record has been written (18 R409). -/
def Run.isOver (x : Run) : Bool := x.isDone && !x.ending

/-- A phase whose runs are all complete completes, and with its last phase a job, whose graph copies go; each holds its status
from then on (02 R41, R57; 03 R74; 18 R409). (Log 105, DESIGN CHOICE.) -/
def State.closeUnits (s : State) (unit : Nat) : State :=
  match s.phases.find? fun p => p.id == unit with
  | none => s
  | some p =>
    if s.runs.any fun r => r.2.unit == unit && !r.2.isOver then s
    else match s.jobs.find? fun j => j.id == p.jobId with
      | none => { s with phases := s.phases.filter fun x => x.id != unit }
      | some j =>
        let phaseEnd : Ended := { func := j.func, job := j.job, phase := some p.phase, cancelled := p.cancelled }
        let jobEnd : Ended := { func := j.func, job := j.job, phase := none, cancelled := j.cancelled }
        let s := { s with phases := s.phases.filter (fun x => x.id != unit), ended := s.ended ++ [phaseEnd] }
        if s.phases.any fun x => x.jobId == j.id then s
        else { s with jobs := s.jobs.filter (fun x => x.id != j.id), ended := s.ended ++ [jobEnd] }

/-- The completion counter of a run (02 R57): its records in stalls, in flight, reserved or still to be appended as entry records, its
blocks, its dependency nodes not yet launched, and its record nodes whose inputs are open, to which records may still come, so that
it reaches zero only when every node is complete; 0 once it is cancelled (R58). (Log 105, DESIGN CHOICE.) -/
def State.runCount (s : State) (r : Nat) : Nat :=
  let x := s.run r
  let entries := if x.entryFailed then 0 else natBits x.packet.ecount.toNat 23 0 - x.appended
  if x.cancelled || x.isDone then 0
  else
    (((s.stalls.filter fun e => keyRun e.1 == r).map fun e => e.2.count).sum) + entries +
    (s.emissions.filter fun e => e.run == r).length + (s.blocks.filter fun b => b.2.run == r).length +
    ((List.range x.graph.nodes.length).filter fun i =>
      if (s.nodeAt r i).depnode then !x.launched.contains i else !(s.stall r i).closed).length

/-- The completion counter of a phase in flight: its runs not yet complete; a packet is validated in the step that accepts it
(02 R57). -/
def State.phaseCount (s : State) (p : Phase) : Nat :=
  if p.cancelled then 0 else (s.runs.filter fun r => r.2.unit == p.id && !r.2.isOver).length

/-- The completion counter of a job in flight: its phases not yet complete (02 R57). -/
def State.jobCount (s : State) (j : Job) : Nat :=
  if j.cancelled then 0 else (s.phases.filter fun p => p.jobId == j.id).length

/-- The packet of a run completes: its queue no longer waits for it (03 R72). -/
def State.packetDone (s : State) (q r : Nat) : State :=
  let x := s.queue q
  s.setQueue q { x with taken := x.taken.map fun (t : Taken) => if t.run = r + 1 then { t with completed := true } else t }

/-- Once the completion record of a run has been written, its packet has completed, the counters above it fall, its dependence counter
falls, and its queue is examined (03 R73; 18 R409). -/
def State.finishRun (s : State) (r : Nat) : State :=
  let x := s.run r
  let s := ((s.setRun r { x with ending := false }).packetDone x.queue r).closeUnits x.unit
  (s.decrementCounter x.func (natBits x.packet.ctrs.toNat 31 16)).examine x.queue

/-- A run ends with an outcome: its stalls go, the completion record is written and the vector raised, and only then do the counters
above it fall (03 R76; 18 R409). The vector is the one that the queue has at the completion, though it may have been
destroyed and created again since the take. (Log 130, DESIGN CHOICE.) -/
def State.endRun (s : State) (r outcome gstatus : Nat) : State :=
  let x := s.run r
  let s := (s.runEvent r outcome).returnCharge r
  let s := { s with stalls := s.stalls.filter fun e => keyRun e.1 != r }
  let s := s.setRun r { s.run r with stage := .done outcome, graph := {}, ending := true }
  let s := s.completionRecord x.func x.packet x.seq outcome gstatus (s.queue x.queue).vector
  s.afterPosted x.func .run r fun s => s.finishRun r

/-- Do what the device writes that wait hold up, each function's in order, as far as it can be done (18 R409, R415). -/
def State.postedOut (s : State) (ws : List Posted) : State :=
  match ws with
  | [] => s
  | w :: r =>
    let s := match w.kind with
      | .write => (s.devWrite w.func w.addr w.size w.val).getD s
      | .vector => s.raiseAfter w.func w.addr
      | .counter => s.afterPosted w.func .counter w.addr fun s => s.decrementCounter w.func w.addr
      | .run => s.afterPosted w.func .run w.addr fun s => s.finishRun w.addr
    s.postedOut r

/-- Device writes that wait look again. -/
def State.flushPosted (s : State) : State := if s.posted = [] then s else { s with posted := [] }.postedOut s.posted

/-- The outcome and graph status with which an admitted run completes (03 R74, R76). Where the entry read failed and a block
was stopped, which outcome is reported the manual does not say. (Log 64, DESIGN CHOICE.) -/
def State.runOutcome (s : State) (r : Nat) : Nat × Nat :=
  let x := s.run r
  if x.cancelled then (1, 0)
  else if x.entryFailed && !(x.stopped && Config.freePick s.stamp r % 2 == 1) then (2, gTrans)
  else if x.stopped then (4, 0)
  else (0, 0)

/-! ### Completion of nodes (02 R53) -/

/-- A node is complete: its inputs are closed, its stall is empty, and its blocks have retired; a dependency node, when its
block has. -/
def State.nodeDone (s : State) (r node : Nat) : Bool :=
  let x := s.run r
  let k := s.stall r node
  !x.complete.contains node && s.nodeBlocks r node == [] &&
  (if (s.nodeAt r node).depnode then x.launched.contains node else k.closed && k.count == 0 && k.waiting == [])

/-- Launch a dependency node whose predecessor counter is zero, once, as one block (02 R53); its placement waits for the
decision log. -/
def State.launchDep (s : State) (r node : Nat) : State :=
  let x := s.run r
  if x.cancelled || x.entryFailed || x.launched.contains node || x.pred.get 0 node != 0 || s.logHolds r (x.homeDie node) 1 then s
  else (s.setRun r { x with launched := x.launched ++ [node] }).formBlock r node 0 []

/-- Launch every dependency node of a run that is due. -/
def State.launchDeps (s : State) (r : Nat) : State :=
  (List.range (s.run r).graph.nodes.length).foldl (fun s i =>
    if (s.nodeAt r i).depnode then s.launchDep r i else s) s

/-- A node completes: the predecessor counters of its dependency-edge targets fall (02 R53). -/
def State.completeNode (s : State) (r node : Nat) : State :=
  let x := s.run r
  let pred := (s.nodeAt r node).depTargets.foldl (fun p t => SMap.set p 0 t (SMap.get p 0 t - 1)) x.pred
  s.setRun r { x with complete := x.complete ++ [node], pred := pred }

/-- Complete the nodes of a run that are done, launch what is due, evaluate the inputs (04 R108), and end the run once every
node is complete, or once it is cancelled, or its entry read has failed, and its last block has retired (02 R57, R58; 03 R74,
R76; 11 R294). At a cut nothing of this happens (17 R402). (Log 70, DEDUCED; log 106, DEDUCED.) -/
def State.checkRun (s : State) (r : Nat) : State :=
  let x := s.run r
  if x.stage != .admitted || (s.func x.func).cut then s
  else if x.cancelled || x.entryFailed then
    if s.blocks.any fun b => b.2.run == r then s
    else
      let o := s.runOutcome r
      s.endRun r o.1 o.2
  else
    let s := (List.range x.graph.nodes.length).foldl (fun s i => if s.nodeDone r i then s.completeNode r i else s) s
    if (s.run r).complete.length = x.graph.nodes.length then
      let o := s.runOutcome r
      s.endRun r o.1 o.2
    else (s.launchDeps r).evalInputs r

/-- PROBE_QUIET (04 R108, R119): nothing addressed to the node is in transit; its inputs close if conditions 1 to 5 still
hold, else the result is discarded. With QUIET referred the PF's answer stands in place of the tree. -/
def State.probeResult (s : State) (r node : Nat) : State :=
  let k := s.stall r node
  if !k.probe then s
  else
    let s' := s.setStall r node { k with probe := false, asked := 0 }
    if s.inputConds r node then (s'.setStall r node { k with probe := false, asked := 0, closed := true }).checkRun r
    else s'.evalInputs r

/-- PROBE_QUIET: a probe that was handed to the PF when it started waits for the PF (18 R422). -/
def execProbeQuiet (r node : Nat) (s : State) : Host.Outcome State Fault Refusal :=
  if (s.stall r node).probe && (s.stall r node).asked == 0 && !s.inTransit r node && !(s.func (s.run r).func).cut then
    .next (s.probeResult r node)
  else .next s

/-! ### Versions (17 R397; 11 R292) -/

/-- Accesses that a commit performs for word `w` of held bytes: one for each byte or word that it moves (11 R276), which of the two for
a whole word is a free value. (Log 65, DESIGN CHOICE.) -/
def commitAccesses (stamp : Nat) (ps : List Nat) (w : Nat) : Nat :=
  let n := (ps.filter fun p => p / 4 == w).length
  if n = 4 && Config.freePick stamp w % 2 = 0 then 1 else n

/-- Commit the held bytes of one line: the writes, their generations, ownership under the block's core, and watches.
(Log 65, DESIGN CHOICE.) -/
def State.commitLine (s : State) (b line : Nat) : State :=
  let k := s.block b
  let s := (s.callHome k.core (.hbm (64 * line))).applyLine line
  let bytes := (List.range 64).filterMap fun i => (k.heldByte (64 * line + i)).map fun v => (64 * line + i, v)
  match bytes with
  | [] => s
  | (p, _) :: _ =>
    let s := bytes.foldl (fun s e => s.setHbmByte e.1 e.2) s
    let g := p / 65536
    let words := bytes.foldl (fun l e => if l.contains (e.1 / 4) then l else l ++ [e.1 / 4]) ([] : List Nat)
    let n := (words.map (commitAccesses s.stamp (bytes.map (·.1)))).sum
    let s := { s with gens := s.gens.set 0 g (min (s.gens.get 0 g + n) 0xFFFFFFFF) }
    (words.foldl (fun s w => s.own (k.core + 1) (s.coreClock k.core) false w) s).trigger line

/-- A stopped version returns its records to the head of their stall (04 R110). -/
def State.returns (s : State) (b : Nat) : Bool :=
  let k := s.block b
  k.place == .retired && (s.nodeOf b).versioned && !(k.dep || k.records = [] || s.discards k.run k.node)

/-- Dies of the decisions that the retirement of a block logs, one for each entry: RETIRE, a RETURN, and the held records that a commit
appends (18 R413). -/
def State.retireDies (s : State) (b : Nat) : List Nat :=
  let k := s.block b
  let home (node : Nat) : Nat := (s.run k.run).homeDie node
  dieOfCluster k.cluster :: (if s.returns b then [home k.node] else []) ++ k.heldRecs.map fun h => home h.node

/-- Every log entry of a retirement has room (18 R415): those of its decisions in the Yard logs, and in the memory-order logs those of the
applies that the commit and the node event table trigger. -/
def State.retireLogs (s : State) (b : Nat) : Bool :=
  let ds := s.retireDies b
  (!s.det b || ds.all fun d => s.logRoom d .yard (ds.filter (· == d)).length) &&
  s.logsFit (s.batchDies ((s.block b).heldLines ++ s.eventLines b).eraseDups)

/-- New segments that `n` entries at the end of a stall need. -/
def State.newSegs (s : State) (r node n : Nat) : Nat :=
  let per := segSize (s.nodeAt r node).rsize
  (n - (((s.stall r node).segs.getLast?.map fun e => e.2.2).getD 0) + per - 1) / per

/-- Stall SRAM has segments for the held records that a commit appends and for the records that a discard returns (04 R102):
else the allocation waits. The records of another issue that are arriving at a stall come first (16 R373). -/
def State.retireRoom (s : State) (b : Nat) : Bool :=
  let k := s.block b
  let nodes := k.heldRecs.foldl (fun l h => if l.contains h.node then l else l ++ [h.node]) ([] : List Nat)
  (k.heldRecs.all fun h => (s.stall k.run h.node).group == 0) && (List.range 4).all fun d =>
    let here := nodes.filter fun n => (s.run k.run).homeDie n == d
    let held := (here.map fun n => s.newSegs k.run n (k.heldRecs.filter fun h => h.node == n).length).sum
    let per := segSize (s.nodeAt k.run k.node).rsize
    let back := if s.returns b && (s.run k.run).homeDie k.node == d then
      (k.records.length + per - 1) / per else 0
    held + back = 0 || decide (s.tierUse d 0 + held + back ≤ sramSegments)

/-- A version commits at one instant: held writes are performed, held pairs are committed, held records are appended in
emission order whatever CAP is (16 R375). -/
def State.commit (s : State) (b : Nat) : State :=
  let k := s.block b
  let s := k.heldLines.foldl (fun s l => s.commitLine b l) s
  let s := { s with pairs := s.pairs.map fun (p : Pair) =>
    if p.block = b && p.held then { p with held := false, accepted := true } else p }
  let s := k.heldRecs.foldl (fun s h =>
    if s.discards k.run h.node then s else s.appendEntry k.run h.node h.entry.hdr h.entry.words (appendWho 0x3FF 0)) s
  s.setBlock b { s.block b with held := [], heldZero := [], heldBy := [], words := [], heldRecs := [], heldPairs := 0 }

/-- The records of a discarded version return to the head of the stall, in their order, whatever CAP is (04 R110). -/
def State.returnRecords (s : State) (b : Nat) : State :=
  let k := s.block b
  let d := (s.run k.run).homeDie k.node
  if !s.returns b then s
  else
    let x := s.stall k.run k.node
    let per := segSize (s.nodeAt k.run k.node).rsize
    let s := s.yardLog k.run d 0x07 (s.rnm b) k.records.length
    (s.putStall k.run k.node { x with
      entries := k.records ++ x.entries,
      segs := segReturn x.segs per k.records.length k.records.length }).fetchHead k.run k.node

/-! ### Retirement (18 R407, R408) -/

/-- Nothing of the block is in flight: accesses, pairs not yet accepted, copies and engine operations. -/
def State.nothingInFlight (s : State) (b : Nat) : Bool :=
  !(s.accesses.any fun a => a.block == b) && !(s.pairs.any fun p => p.block == b && !p.accepted) &&
  !((s.core (s.block b).core).copies.any fun p => p.2.block == b) && !(s.engines.any fun e => e.block == b)

/-- The Yard acts for the block's function: at a cut it appends nothing and retires none of its blocks (17 R402). -/
def State.yardActs (s : State) (b : Nat) : Bool := !(s.func (s.block b).func).cut

/-- The conditions of 18 R407, or for a block that was stopped those of 17 R391 step 4. -/
def State.mayRetire (s : State) (b : Nat) : Bool :=
  let k := s.block b
  match k.place with
  | .running =>
    k.teams.all fun tn =>
      let t := s.team tn
      t.live == [] && !t.parked && t.ldc == 0 && t.stc == 0 && t.cpc == 0 && t.tlc == 0 && t.emc == 0 &&
      (s.core t.core).walker.owner != tn + 1
  | .retired => true
  | _ => false

/-- Retire a block, in the order of 18 R408. (Log 61, DEDUCED.) -/
def State.retireBlock (s : State) (b : Nat) : State :=
  let k := s.block b
  let stopped := k.place == .retired
  let s := if !stopped && (s.nodeOf b).versioned then s.commit b else s
  let s := s.returnRecords b
  let s := (s.tellUnit k.core (yardUnit (dieOfCluster k.cluster))).leaveCore b
  let s := s.addEvents b
  let s := s.yardLog k.run (dieOfCluster k.cluster) 0x05 (s.rnm b) k.stop
  let s := { s with
    answers := s.answers.filter fun w => (s.team w.who.team).block != b
    teams := s.teams.filter fun t => t.2.block != b, blocks := s.blocks.erase b }
  s.checkRun k.run

/-- BLOCK_RETIRE (18 R407, R408). -/
def execBlockRetire (b : Nat) (s : State) : Host.Outcome State Fault Refusal :=
  .next (if s.mayRetire b && s.nothingInFlight b && s.retireLogs b && s.retireRoom b && s.yardActs b then s.retireBlock b else s)

/-! ### CANCEL (02 R58, R59; 03 R75; 16 R377) -/

/-- Emissions to a cancelled run that wait at its stalls complete for their emitters, and its waiting reservations are
granted, so that their records are discarded on arrival (02 R59; 16 R374). (Log 70, DEDUCED.) -/
def State.releaseEmitters (s : State) (r : Nat) : State :=
  let s := (s.emissions.filter fun e => e.run == r && e.listed).foldl (fun s e => s.acceptEmission e) s
  let waits := s.remoteIn.filter fun m => m.run == r && m.granted < m.count
  let s := { s with remoteIn := s.remoteIn.map fun (m : RemoteIn) => if m.run = r then { m with granted := m.count } else m }
  waits.foldl (fun s m => s.send 0x02 m.srcAccel m.token []) s

/-- A block has met the retirement condition of 18 R407, or, stopped, has nothing left to wait for. -/
def State.retirable (s : State) (b : Nat) : Bool := s.mayRetire b && s.nothingInFlight b

/-- Insert a block among others by its core's number. -/
def State.insertByCore (s : State) (b : Nat) (l : List Nat) : List Nat :=
  match l with
  | [] => [b]
  | y :: r => if (s.block b).core < (s.block y).core then b :: y :: r else y :: s.insertByCore b r

/-- The blocks of a run by their cores' numbers: the order in which the decrements of one cycle are applied (18 R409). -/
def State.blocksByCore (s : State) (r : Nat) : List Nat :=
  ((s.blocks.filter fun b => b.2.run == r).map (·.1)).foldl (fun l b => s.insertByCore b l) []

/-- The block retires at once, where its log entries and its records have room. -/
def State.retireNow (s : State) (b : Nat) : State :=
  if s.retirable b && s.retireLogs b && s.retireRoom b && s.yardActs b then s.retireBlock b else s

/-- CANCEL of one run: a run that waits for admission ends at once; of an admitted run, blocks that have met the retirement
condition retire, as soon as their log entries have room (02 R59), the others are stopped without a report, its records are
discarded, and it completes CANCELLED once its last write is acknowledged. (Log 70, DEDUCED.) -/
def State.cancelRun (s : State) (r : Nat) : State :=
  let x := s.run r
  match x.stage with
  | .waiting => s.endRun r 1 0
  | .done _ => s
  | .admitted =>
    if x.cancelled then s
    else
      let s := s.setRun r { x with cancelled := true }
      let bs := s.blocksByCore r
      let s := bs.foldl (fun s b =>
        if s.retirable b then s.retireNow b
        else if (s.block b).place == .retired then s else s.haltBlock b 0) s
      let s := s.releaseEmitters r
      let s := { s with stalls := s.stalls.filter fun e => keyRun e.1 != r }
      let s := bs.foldl (fun s b => if s.blocks.any fun x => x.1 == b then s.retireNow b else s) s
      s.checkRun r

/-- Runs of a job, and of one of its phases, that are not complete. -/
def State.runsOf (s : State) (f job : Nat) (phase : Option Nat) : List Nat :=
  (s.runs.filter fun r => r.2.func == f && r.2.job == job && (phase.all fun p => r.2.phase == p) &&
    (match r.2.stage with | .done _ => false | _ => true)).map (·.1)

/-- Cancel several runs. -/
def State.cancelRuns (s : State) (rs : List Nat) : State := rs.foldl State.cancelRun s

/-- A CANCEL of a phase, or of a job, is accepted: the unit and the units below it complete CANCELLED once their runs have (02
R58, R59). One that has completed is not in flight, and nothing changes. -/
def State.cancelUnits (s : State) (f job : Nat) (phase : Option Nat) : State :=
  match s.jobs.find? fun j => j.func == f && j.job == job && !j.cancelled with
  | none => s
  | some j =>
    { s with
      phases := s.phases.map fun (p : Phase) =>
        if p.jobId = j.id && phase.all (· == p.phase) then { p with cancelled := true } else p
      jobs := s.jobs.map fun (k : Job) => if k.id = j.id && phase.isNone then { k with cancelled := true } else k }

/-- CANCEL of a phase or of a job (02 R58): the unit is marked, then its runs are cancelled. -/
def State.cancelPhaseOrJob (s : State) (f job : Nat) (phase : Option Nat) (rs : List Nat) : State :=
  (s.cancelUnits f job phase).cancelRuns rs

/-- The CANCEL entry of the decision log (18 R413): level, target and issuing core or 0x3FF. The target's number at the run
level is RUNID, at the phase level JOBID and at the job level the job. (Log 75, DEDUCED.) -/
def State.cancelLog (s : State) (rs : List Nat) (level target core : Nat) : State :=
  match rs.find? fun r => (s.run r).det with
  | some r => s.yardLog r ((s.run r).homeDie 0) 0x06 (level + target % 2 ^ 32 * 2 ^ 16) core
  | none => s

/-- A CANCEL that must be logged has to wait for room (18 R415). -/
def State.cancelHolds (s : State) (rs : List Nat) : Bool := rs.any fun r => s.logHolds r ((s.run r).homeDie 0) 1

end Sys2Proof.Machine
end

