-- ==== Sys2Proof/Machine/Launch.lean ====
section
/-! DEFINITION. Takes of launch packets, admission, entry records, and the mailbox commands on queues and policies (03 R69 to
R79, R83 to R85, R88). -/
namespace Sys2Proof.Machine

/-! ### Arbitration (03 R83, R89) -/

/-- Takes of a function in a round: WEIGHT as the round takes it, or its override when lower (03 R79, R83). An override stays in
force while the scheduler is down, though no SLICE event can renew it then (R93). (Log 129, DESIGN CHOICE.) -/
def Func.limit (f : Func) : Nat :=
  let w := f.share
  if f.override != 0 && f.override < w then f.override else w

/-- A function has a takeable head and a share; a cut function's queues give none (17 R402). -/
def State.hasTake (s : State) (f : Nat) : Bool :=
  !(s.func f).cut && (s.func f).limit != 0 && (s.queuesOf f).any fun q => (s.queue q).takeable && !(s.queue q).err

/-- The function that wins the next take, the one that the round visits, and the takes it then has left (03 R83).
(Log 50, DEDUCED.) -/
def State.winner (s : State) : Option (Nat × Nat) :=
  match s.arbiter.rest with
  | f :: _ => if s.arbiter.left ≠ 0 && s.hasTake f then some (f, s.arbiter.left - 1) else none
  | [] => none

/-- The round visits the first of a list of functions that has a takeable head (03 R83). -/
def State.visitFirst (s : State) (l : List Nat) : State :=
  let rest := l.dropWhile fun f => !s.hasTake f
  let left := match rest with
    | f :: _ => (s.func f).limit
    | [] => 0
  { s with arbiter := { s.arbiter with rest := rest, left := left } }

/-- A round begins: every function's WEIGHT of now is its share, and the visits begin after the function served last (03 R79,
R83). -/
def State.newRound (s : State) : State :=
  let fs := s.funcs.map (·.1)
  let s := fs.foldl (fun s f => s.setFunc f { s.func f with share := natBits (s.func f).weight.toNat 7 0 }) s
  s.visitFirst ((fs.filter fun f => s.arbiter.next ≤ f) ++ fs.filter fun f => f < s.arbiter.next)

/-- The round moves on when the visited function has used its takes or has no takeable head left; after the last function the
next round begins (03 R83). -/
def State.moveRound (s : State) : State :=
  match s.arbiter.rest with
  | [] => s.newRound
  | f :: r =>
    if s.arbiter.left ≠ 0 && s.hasTake f then s
    else
      let t := s.visitFirst r
      if t.arbiter.rest = [] then t.newRound else t

/-- Queue `a` waits longer than queue `b` (03 R89). -/
def State.waitsLonger (s : State) (a b : Nat) : Bool :=
  let x := s.queue a
  let y := s.queue b
  x.readySince < y.readySince || (x.readySince == y.readySince && a ≤ b)

/-- Insert a queue into the list of ready queues. -/
def State.insertReady (s : State) (q : Nat) (l : List Nat) : List Nat :=
  match l with
  | [] => [q]
  | y :: r => if s.waitsLonger q y then q :: y :: r else y :: s.insertReady q r

/-- Up to 64 ready queues of a function, longest waiting first (03 R89). -/
def State.readyQueues (s : State) (f : Nat) : List Nat :=
  ((((s.queuesOf f).filter fun q => (s.queue q).takeable && !(s.queue q).err)).foldl
    (fun l q => s.insertReady q l) []).take 64

/-- The continuation entries of a PICKS referral: four view entries each (18 R434). -/
def pickCont (l : List Dbl) (c : Nat) : List (BitVec 256) :=
  match c with
  | 0 => []
  | k + 1 =>
    match l with
    | [] => []
    | _ => BitVec.ofNat 256 (((l.take 4).foldr (fun d acc => d.toNat + 2 ^ 64 * acc) 0)) :: pickCont (l.drop 4) k

/-- PICK (03 R83, R89, R90): the policy's choice among the ready queues, entry 0 by default. A pick that was referred (18 R421) is
the PF's, whatever MODES says meanwhile (R420, R422), and its answer is awaited; the take belongs to no die, and MODES of die 0 decides.
While the scheduler is down the picks are the default ones (R93). (Log 50, DEDUCED.) -/
def State.pickQueue (s : State) (f : Nat) : State × Option Nat :=
  let l := s.readyQueues f
  let view := l.map s.viewEntry
  let v := s.func f
  if v.pick ≠ 0 then
    let s := s.setFunc f { v with pick := 0 }
    (s, if l.contains (v.pick - 1) then some (v.pick - 1) else none)
  else if s.referrals.any fun r => r.mode == 1 && r.func == f then (s, none)
  else if (s.yard 0).mode.getLsbD 1 && s.dev.schedulerUp then
    ((s.refer 1 0 f (BitVec.ofNat 64 l.length) 0 (pickCont view 16) f 0).postWaiting, none)
  else
    let (s, r) := s.policyEvent f 1 view
    let i := match r with
      | some d => if d.toNat < l.length then d.toNat else 0
      | none => 0
    (s, l[i]?)

/-! ### Packets (03 R69 to R71) -/

/-- The fields of a ring entry (03 R69). -/
def Packet.parse (e : BitVec 512) : Packet :=
  { hdr := e.extractLsb' 0 32, phase := e.extractLsb' 32 32, job := e.extractLsb' 64 32, ctrs := e.extractLsb' 96 32,
    graph := e.extractLsb' 128 64, entry := e.extractLsb' 192 64, ecount := e.extractLsb' 256 32,
    enode := e.extractLsb' 288 32, cpl := e.extractLsb' 320 64, arg := e.extractLsb' 384 32,
    rsvd := e.extractLsb' 416 32, usertag := e.extractLsb' 448 64 }

/-- KIND (03 R69). -/
def Packet.kind (p : Packet) : Nat := natBits p.hdr.toNat 27 24

/-- The level of a CANCEL. -/
def Packet.level (p : Packet) : Nat := natBits p.arg.toNat 1 0

/-- A field has no bit outside a mask. -/
def within (v mask : Nat) : Bool := v &&& mask == v

/-- Reserved and unused fields are zero (03 R69 to R71, R75): masks for PHASE, JOB, GRAPH, ENTRY, ECOUNT, ENODE and ARG.
(Log 49, DEDUCED.) -/
def Packet.fieldsOk (p : Packet) : Bool :=
  let m (ph jo gr en ec nd ar : Nat) : Bool :=
    within p.phase.toNat ph && within p.job.toNat jo && within p.graph.toNat gr && within p.entry.toNat en &&
    within p.ecount.toNat ec && within p.enode.toNat nd && within p.arg.toNat ar && p.rsvd == 0 &&
    within p.hdr.toNat 0x8FC0FFFF
  let all := 2 ^ 64 - 1
  match p.kind with
  | 0 => m 0xFFFF 0x1FFFF all all 0xFFFFFF 0xFFF 0
  | 1 =>
    match p.level with
    | 0 => m 0 0 all 0 0x7FFF 0 3
    | 1 => m 0xFFFF 0xFFFF 0 0 0 0 3
    | 2 => m 0 0xFFFF 0 0 0 0 3
    | _ => false
  | 2 => m 0 0 0 0 0 0 0xFFFFFFFF
  | 3 => m 0 0 0 0 0 0 0
  | _ => false

/-- The checks of 03 R71, in order; all of them pass. (Log 48, DESIGN CHOICE.) -/
def State.packetOk (s : State) (f : Nat) (p : Packet) : Bool :=
  let n := natBits (s.func f).dctrs.toNat 12 0
  let wait := natBits p.ctrs.toNat 15 0
  let sig := natBits p.ctrs.toNat 31 16
  natBits p.hdr.toNat 15 0 == f && p.fieldsOk && (wait == 0xFFFF || wait < n) && (sig == 0xFFFF || sig < n) &&
  (p.kind != 2 || sig != 0xFFFF) && (p.cpl.toNat % 16 == 0 && p.cpl.toNat < 2 ^ 56)

/-- A packet completes at its take with an outcome. -/
def State.packetEnds (s : State) (q seq : Nat) (p : Packet) (outcome gstatus : Nat) : State :=
  let x := s.queue q
  let s := s.completionRecord x.owner p seq outcome gstatus x.vector
  let x := s.queue q
  s.setQueue q { x with taken := x.taken.map fun (t : Taken) => if t.seq = seq then { t with completed := true } else t }

/-- A packet completes REJECTED: it sets QSTAT.REJECT and never decrements SIGCTR (03 R71). -/
def State.reject (s : State) (q seq : Nat) (p : Packet) : State :=
  (s.setQueue q { s.queue q with reject := true }).packetEnds q seq p 3 0

/-- The contents that the command processor takes at HEAD: what it read ahead or what memory holds now, where they differ a
free choice (03 R64). -/
def State.headEntry (s : State) (q : Nat) : Option (BitVec 512) :=
  let x := s.queue q
  match s.ringEntry q x.head with
  | none => none
  | some e =>
    match x.ahead.find? fun a => a.1 == x.head with
    | none => some e
    | some a => if a.2 = e then some e else some (if Config.freePick s.stamp q % 2 = 0 then e else a.2)

/-- One take (03 R65, R72, R83): function `f` wins the arbitration, its PICK selects a queue whose head is a packet of the kind
that the step names and that can be reached, VALID is cleared and HEAD advances, and the wait of the entry now at HEAD begins
(R89); then the packet is checked, and `body` acts on one that passes. A header that cannot be written puts the queue in ERROR
(09 R432). (Log 47, DEDUCED.) -/
def takeStep (f : Nat) (s : State) (kind : Packet → Bool) (body : State → Nat → Nat → Packet → State) :
    Host.Outcome State Fault Refusal :=
  match s.winner with
  | none => .next s
  | some (g, left) =>
    if g ≠ f then .next s
    else match s.pickQueue f with
    | (s1, none) => .next s1
    | (s1, some q) =>
      match s1.headEntry q with
      | none => .next (s1.queueError q)
      | some e =>
        let p := Packet.parse e
        let x := s1.queue q
        if !kind p || !s1.devRoom f (x.slot x.head) 64 then .next s
        else match s1.devWrite f (x.slot x.head) 4 (p.hdr &&& 0x7FFFFFFF).toNat with
        | none => .next (s1.queueError q)
        | some s2 =>
          let v := s2.func f
          let s3 := { s2.setFunc f { v with takes := v.takes + 1 } with
            arbiter := { s2.arbiter with left := left, next := f + 1 } }
          let s4 := s3.setQueue q { s3.queue q with
            head := x.head + 1, mirrorDue := true, readySince := s3.cycle.toNat, ahead := x.ahead.filter fun a => x.head < a.1,
            taken := x.taken ++ [{ seq := x.head, kind := p.kind, run := 0, completed := false }] }
          let s5 := if s4.packetOk f p then body s4 q x.head p else s4.reject q x.head p
          .next (s5.examine q)

/-! ### RUN (03 R74, R78; 04 R97, R101) -/

/-- Dies that hold a partition of the function, ascending (04 R97). -/
def State.diesOf (s : State) (f : Nat) : List Nat :=
  (List.range 4).filter fun d => (List.range 10).any fun i => ((s.pf.partown).get 0xFF (10 * d + i)).toNat == f && f != 0

/-- Clusters of the function's partitions, ascending (04 R111). -/
def State.clustersOf (s : State) (f : Nat) : List Nat := (List.range 160).filter fun c => s.ownsCluster f c

/-- The charge of a graph: RUNQ, STALLQ and PREDQ units (03 R78). -/
def Graph.charge (g : Graph) : Nat × Nat × Nat :=
  let caps := (g.nodes.map fun n => if n.depnode then 0 else n.cap).sum
  (1, (caps + 255) / 256, (g.nodes.filter Node.depnode).length)

/-- The function's whole quota. -/
def Func.quota (f : Func) : Nat × Nat × Nat := (natBits f.runq.toNat 11 0, f.stallq.toNat, natBits f.predq.toNat 15 0)

/-- Loft bytes that a graph reserves at die `d`, its homes being the dies of a list (04 R101). -/
def Graph.loftAt (g : Graph) (dies : List Nat) (d : Nat) : Nat :=
  ((List.range g.nodes.length).map fun i =>
    let n := g.nodes.getD i {}
    if n.depnode || dies.getD (i % dies.length) 0 ≠ d then 0 else 2 * n.cap * (n.rsize + 16)).sum

/-- LOFTHBM in bytes (04 R103). -/
def Yard.loftSize (y : Yard) : Nat := natBits y.lofthbm.toNat 16 0 * 2 ^ 20

/-- A graph's charge or reservation exceeds a whole quota or a whole loft, or the function holds no partition: GQUOTA. -/
def State.overQuota (s : State) (f : Nat) (g : Graph) : Bool :=
  let c := g.charge
  let q := (s.func f).quota
  let dies := s.diesOf f
  dies == [] || q.1 < c.1 || q.2.1 < c.2.1 || q.2.2 < c.2.2 ||
  dies.any fun d => (s.yard d).loftSize < g.loftAt dies d

/-- A run's whole charge and reservation are free now. A run whose reservation comes to exceed a loft that LOFTHBM has lowered
meanwhile waits on. (Log 109, DESIGN CHOICE.) -/
def State.chargeFree (s : State) (r : Nat) : Bool :=
  let x := s.run r
  let f := s.func x.func
  let c := x.graph.charge
  let q := f.quota
  let dies := s.diesOf x.func
  f.useRun + c.1 ≤ q.1 && f.useStall + c.2.1 ≤ q.2.1 && f.usePred + c.2.2 ≤ q.2.2 && dies != [] &&
  dies.all fun d => (s.yard d).reserved + x.graph.loftAt dies d ≤ (s.yard d).loftSize

/-- Predecessor counters at the start of a run (02 R52). -/
def Graph.preds (g : Graph) : SMap Nat :=
  g.nodes.foldl (fun m n => n.depTargets.foldl (fun m t => SMap.set m 0 t (SMap.get m 0 t + 1)) m) []

/-- Admit a run (03 R78; 04 R97, R101): its charges, its homes and its number; ready dependency nodes are launched.
(Log 61, DEDUCED; log 63, DESIGN CHOICE.) -/
def State.admitRun (s : State) (r : Nat) : State :=
  let x := s.run r
  let f := s.func x.func
  let c := x.graph.charge
  let dies := s.diesOf x.func
  let loft := dies.foldl (fun m d => SMap.set m 0 d (x.graph.loftAt dies d)) []
  let s := s.setFunc x.func { f with
    useRun := f.useRun + c.1, useStall := f.useStall + c.2.1, usePred := f.usePred + c.2.2 }
  let s := loft.foldl (fun s e => s.setYard e.1 { s.yard e.1 with reserved := (s.yard e.1).reserved + e.2 }) s
  let s := { s with nextRun := s.nextRun + 1 }.setRun r { x with
    stage := .admitted, number := s.nextRun, dies := dies, clusters := s.clustersOf x.func, pred := x.graph.preds,
    charge := c, loft := loft }
  (s.runEvent r (Config.freePick s.stamp r)).checkRun r

/-- The run of a function that waits for admission first, in take order (03 R78). -/
def State.firstWaiting (s : State) (f : Nat) : Option Nat :=
  ((s.runs.filter fun r => r.2.func == f && r.2.stage == .waiting).map (·.1)).head?

/-- RUN_ADMIT (03 R78): the first waiting run of a function is admitted once its whole charge is free; at a cut none is (17
R402). -/
def execRunAdmit (f : Nat) (s : State) : Host.Outcome State Fault Refusal :=
  match s.firstWaiting f with
  | some r => .next (if s.chargeFree r && !(s.func f).cut then s.admitRun r else s)
  | none => .next s

/-- The job in flight with a number (03 R74); one that a CANCEL has ended takes no more packets (02 R58). -/
def State.liveJob (s : State) (f job : Nat) : Option Job :=
  s.jobs.find? fun j => j.func == f && j.job == job && !j.cancelled

/-- The graph of a RUN packet: the job's copy of the address, or a fresh validation (02 R41). -/
def State.runGraph (s : State) (f : Nat) (p : Packet) : Except Nat Graph :=
  match (s.liveJob f (natBits p.job.toNat 15 0)).bind fun j => j.graphs.lookup p.graph.toNat with
  | some g => .ok g
  | none => s.validateGraph f p.graph.toNat

/-- At the take that begins a job the instruction caches and the table caches of the function's clusters are invalidated (06
R156, 10 R256). -/
def State.newJobCaches (s : State) (f : Nat) : State :=
  { s with ilines := s.ilines.filter fun l => !s.ownsCluster f (clusterOfCore l.core)
           tlines := s.tlines.filter fun l => !s.ownsCluster f l.cluster }

/-- A job begins, or keeps its mode, and holds the copy of the graph (02 R41; 03 R74). -/
def State.joinJob (s : State) (f job : Nat) (det : Bool) (a : Nat) (g : Graph) : State :=
  match s.liveJob f job with
  | some j =>
    { s with jobs := s.jobs.map fun (k : Job) =>
        if k.id = j.id then { k with graphs := (k.graphs.filter fun x => x.1 != a) ++ [(a, g)] } else k }
  | none =>
    let (n, s) := s.take
    { s with jobs := s.jobs ++ [{ id := n, func := f, job := job, det := det, graphs := [(a, g)] }] }

/-- The phase in flight of a job that a packet names, made where there is none (02 R57): its id. -/
def State.joinPhase (s : State) (f job phase : Nat) : Nat × State :=
  let jid := ((s.liveJob f job).map (·.id)).getD 0
  match s.phases.find? fun p => p.jobId == jid && p.phase == phase && !p.cancelled with
  | some p => (p.id, s)
  | none =>
    let (n, s) := s.take
    (n, { s with phases := s.phases ++ [{ id := n, jobId := jid, phase := phase, cancelled := false }] })

/-- A RUN packet completes INVALID at its take (02 R42; 03 R74); its counter falls after its completion record (18 R409). -/
def State.runInvalid (s : State) (q seq : Nat) (p : Packet) (status : Nat) : State :=
  let i := natBits p.ctrs.toNat 31 16
  let f := (s.queue q).owner
  (s.packetEnds q seq p 2 status).afterPosted f .counter i fun s => s.decrementCounter f i

/-- Pending pairs of the lines of a graph object are applied before it is read (10 R265). -/
def State.graphReach (s : State) (f a : Nat) : State :=
  let s := s.devReach f a 64
  let n := s.graphField f a 0x18 4
  if n ≤ 0x1000000 then s.devReach f a n else s

/-- The take of a RUN packet can read its ring entry and the graph object at `a` in one go (18 R415). -/
def State.graphRoom (s : State) (f a : Nat) : Bool :=
  let n := s.graphField f a 0x18 4
  let entry := (s.pickQueue f).2.map fun q => ((s.queue q).slot (s.queue q).head, 64)
  s.readsFit f (entry.toList ++ (a, 64) :: if 0x1000000 < n then [] else [(a, n)])

/-- Acceptance of a RUN packet that passes 03 R71. The copy of a graph that passes its checks, that of the quotas among them, is the
job's, though the packet may name no entry node of it (02 R41, R42). A DET that differs is rejected before the graph is looked at, and of
a graph beyond the quota in a packet that names no entry node the status is GNODE. (Log 110, DESIGN CHOICE.) -/
def State.takeRun (s : State) (q seq : Nat) (p : Packet) : State :=
  let f := (s.queue q).owner
  let job := natBits p.job.toNat 15 0
  let det := p.job.getLsbD 16
  let enode := natBits p.enode.toNat 11 0
  if (s.liveJob f job).any fun j => j.det != det then s.reject q seq p
  else
    let s := if (s.liveJob f job).isNone then s.newJobCaches f else s
    let s := s.graphReach f p.graph.toNat
    match s.runGraph f p with
    | .error e => s.runInvalid q seq p e
    | .ok g =>
      let noEntry := (g.nodes[enode]?).all Node.depnode
      if s.overQuota f g then s.runInvalid q seq p (if noEntry then gNode else gQuota)
      else
      let (unit, s) := (s.joinJob f job det p.graph.toNat g).joinPhase f job (natBits p.phase.toNat 15 0)
      if noEntry then (s.runInvalid q seq p gNode).closeUnits unit
      else
        let first := (s.firstWaiting f).isNone
        let (r, s) := s.take
        let s := s.setRun r { stage := .waiting, func := f, job := job, phase := natBits p.phase.toNat 15 0, unit := unit,
                              det := det, queue := q, seq := seq, packet := p, graph := g }
        let x := s.queue q
        let s := s.setQueue q { x with
          taken := x.taken.map fun (t : Taken) => if t.seq = seq then { t with run := r + 1 } else t }
        if first && s.chargeFree r then s.admitRun r else s

/-- RUN (03 R74): the take waits while the graph cannot be read (18 R415). A packet of an unassigned kind is taken as NOP's step
takes it. (Log 12, DEDUCED; log 47, DEDUCED.) -/
def execRun (f : Nat) (s : State) : Host.Outcome State Fault Refusal :=
  takeStep f s (fun p => p.kind == 0 && s.graphRoom f p.graph.toNat) State.takeRun

/-- The read of an entry record fails (03 R74, R76): no further work of the run is launched; the records appended stay.
(Log 106, DEDUCED.) -/
def State.failEntries (s : State) (run : Nat) : State :=
  let s := (s.setRun run { s.run run with entryFailed := true }).releaseEmitters run
  let quiet (e : Nat × Stall) : Nat × Stall := if keyRun e.1 = run then (e.1, { e.2 with waiting := [] }) else e
  ({ s with stalls := s.stalls.map quiet }).checkRun run

/-- ENTRY_RECORD_APPEND (03 R74; 04 R99): the next entry record of a run is read and appended to ENODE's stall; the append
waits while the stall is at capacity, while other records are arriving together, for the log and for a segment. After a read
that fails nothing more is launched, and emissions that wait complete for their emitters. (Log 57, DEDUCED; log 106,
DEDUCED.) -/
def execEntryRecordAppend (run : Nat) (s : State) : Host.Outcome State Fault Refusal :=
  let x := s.run run
  let node := natBits x.packet.enode.toNat 11 0
  let n := s.nodeAt run node
  let k := s.stall run node
  let count := natBits x.packet.ecount.toNat 23 0
  let d := x.homeDie node
  if x.stage != .admitted || x.cancelled || x.entryFailed || count ≤ x.appended || n.cap ≤ k.count || k.waiting != [] ||
     k.group != 0 || (s.func x.func).cut || s.logHolds run d 1 || !s.segRoom run node ||
     !s.devRoom x.func (x.packet.entry.toNat + x.appended * n.rsize) n.rsize then .next s
  else
    let a := x.packet.entry.toNat + x.appended * n.rsize
    let s := s.devReach x.func a n.rsize
    match (if s.devPagesOk x.func .read a n.rsize then s.devRead x.func a n.rsize else none) with
    | none => .next (s.failEntries run)
    | some v =>
      let words := (List.range (n.rsize / 4)).map fun i => BitVec.ofNat 32 (v / 2 ^ (32 * i))
      let hdr := BitVec.ofNat 64 (x.appended * 2 ^ 32 + 0xFFF * 2 ^ 16)
      let s := s.appendEntry run node hdr words (appendWho 0x3FF 0)
      let s := s.setRun run { s.run run with appended := x.appended + 1 }
      .next (if x.appended + 1 = count then s.evalInputs run else s)

/-! ### The other packets (03 R70, R73, R75) -/

/-- The run that a CANCEL packet names at the run level: the one that the RUN packet GRAPH of queue ECOUNT started (03 R75). -/
def State.cancelTarget (s : State) (f : Nat) (p : Packet) : Option Nat :=
  let t := s.queue (s.queueNo f (natBits p.ecount.toNat 14 0))
  if t.head ≤ p.graph.toNat then none
  else (t.taken.find? fun e => e.seq == p.graph.toNat && e.run != 0).map fun e => e.run - 1

/-- The runs in progress that a CANCEL packet cancels (03 R75). -/
def State.packetRuns (s : State) (f : Nat) (p : Packet) : List Nat :=
  let job := natBits p.job.toNat 15 0
  match p.level with
  | 0 => (s.cancelTarget f p).toList.filter fun r => !(s.run r).isDone
  | 1 => s.runsOf f job (some (natBits p.phase.toNat 15 0))
  | _ => s.runsOf f job none

/-- A CANCEL packet of a level whose entry the decision log can take: the entry is written before the cancel takes effect, and where
the log lacks room the packet is not taken yet (18 R413, R415). (Log 75, DEDUCED.) -/
def State.cancelTaken (s : State) (f level : Nat) (p : Packet) : Bool :=
  p.kind == 1 && p.level == level && !(s.packetOk f p && s.cancelHolds (s.packetRuns f p))

/-- CANCEL_PACKET_RUN (03 R75): the run that the RUN packet GRAPH of queue ECOUNT started.
(Log 48, DESIGN CHOICE; log 75, DEDUCED.) -/
def execCancelPacketRun (f : Nat) (s : State) : Host.Outcome State Fault Refusal :=
  takeStep f s (fun p => s.cancelTaken f 0 p || s.cancelTaken f 3 p) fun s q seq p =>
    let j := natBits p.ecount.toNat 14 0
    let t := s.queue (s.queueNo f j)
    if (s.func f).queues ≤ j || !t.created || t.owner ≠ f then s.reject q seq p
    else
      match s.cancelTarget f p with
      | none => s.packetEnds q seq p 0 0
      | some r =>
        let rs := s.packetRuns f p
        ((s.cancelLog rs 0 (s.run r).number 0x3FF).cancelRuns rs).packetEnds q seq p 0 0

/-- CANCEL_PACKET_PHASE (03 R75). (Log 75, DEDUCED.) -/
def execCancelPacketPhase (f : Nat) (s : State) : Host.Outcome State Fault Refusal :=
  takeStep f s (s.cancelTaken f 1) fun s q seq p =>
    let job := natBits p.job.toNat 15 0
    let phase := natBits p.phase.toNat 15 0
    let rs := s.packetRuns f p
    ((s.cancelLog rs 1 (job + phase * 2 ^ 16) 0x3FF).cancelPhaseOrJob f job (some phase) rs).packetEnds q seq p 0 0

/-- CANCEL_PACKET_JOB (03 R75). (Log 75, DEDUCED.) -/
def execCancelPacketJob (f : Nat) (s : State) : Host.Outcome State Fault Refusal :=
  takeStep f s (s.cancelTaken f 2) fun s q seq p =>
    let job := natBits p.job.toNat 15 0
    let rs := s.packetRuns f p
    ((s.cancelLog rs 2 job 0x3FF).cancelPhaseOrJob f job none rs).packetEnds q seq p 0 0

/-- SETCTR (03 R73): ARG is written into counter SIGCTR at take. -/
def execSetctr (f : Nat) (s : State) : Host.Outcome State Fault Refusal :=
  takeStep f s (fun p => p.kind == 2) fun s q seq p =>
    let v := s.func f
    let s := s.setFunc f { v with ctr := v.ctr.set 0 (natBits p.ctrs.toNat 31 16) p.arg }
    (s.packetEnds q seq p 0 0).examineAll f

/-- NOP_PACKET (03 R70): completes at take. Packets of an unassigned kind are taken here, and rejected (R71).
(Log 48, DESIGN CHOICE.) -/
def execNopPacket (f : Nat) (s : State) : Host.Outcome State Fault Refusal :=
  takeStep f s (fun p => 3 ≤ p.kind) fun s q seq p => s.packetEnds q seq p 0 0

/-! ### Mailbox commands on queues and policies (03 R84, R85, R88) -/

/-- A mailbox command returns (03 R84); MBRES is written where the command names a detail. (Log 53, DEDUCED.) -/
def State.mbDone (s : State) (f : Nat) (result : Nat) (detail : Option Nat) : State :=
  let v := s.func f
  s.setFunc f { v with mbBusy := false, mbCmd := 0, mbResult := BitVec.ofNat 16 result,
                       mbRes := match detail with | some d => BitVec.ofNat 64 d | none => v.mbRes }

/-- Function `f` has command `c` in progress, and the scheduler runs (03 R93). -/
def State.mbHas (s : State) (f c : Nat) : Bool := (s.func f).mbBusy && (s.func f).mbCmd == c && s.dev.schedulerUp

/-- Vectors of a function's MSI-X table (01 R26). -/
def vectorCount (f : Nat) : Nat := if f = 0 then 256 else 32

/-- The first check of 03 R85 that a QCREATE fails. -/
def State.qcreateFails (s : State) (f : Nat) : Option Nat :=
  let v := s.func f
  let j := v.mbArg0.toNat
  let a2 := v.mbArg2.toNat
  let log2 := natBits a2 4 0
  let vec := natBits a2 15 8
  let x := s.queue (s.queueNo f j)
  if v.queues ≤ j then some 1
  else if log2 < 4 || 20 < log2 || !within a2 0xFF1F then some 2
  else if v.mbArg1.toNat % 4096 ≠ 0 || 2 ^ 56 < v.mbArg1.toNat + 64 * 2 ^ log2 then some 3
  else if v.mbArg3 ≠ 0 && (v.mbArg3.toNat % 8 ≠ 0 || 2 ^ 56 ≤ v.mbArg3.toNat) then some 4
  else if vectorCount f ≤ vec then some 5
  else if x.created && !x.err &&
          (x.ringbase ≠ v.mbArg1 || x.log2 ≠ log2 || x.vector ≠ vec || x.headmir ≠ v.mbArg3) then some 6
  else if x.created && x.err then some 7
  else none

/-- QCREATE (03 R85, R92): checks its arguments, then creates and enables the queue; a repetition on an enabled queue
changes nothing. -/
def execQcreate (f : Nat) (s : State) : Host.Outcome State Fault Refusal :=
  if !s.mbHas f 0x01 then .next s
  else match s.qcreateFails f with
  | some c => .next (s.mbDone f 0x0002 (some c))
  | none =>
    let v := s.func f
    let q := s.queueNo f v.mbArg0.toNat
    let x := s.queue q
    let new : Queue := { created := true, owner := f, ringbase := v.mbArg1, headmir := v.mbArg3,
                         log2 := natBits v.mbArg2.toNat 4 0, vector := natBits v.mbArg2.toNat 15 8,
                         copyA := x.copyA, copyB := x.copyB }
    .next ((if x.created then s else s.setQueue q (new.writeBlock 1)).mbDone f 0 none)

/-- QDESTROY (03 R68, R85): frees the queue; entries not taken are never taken, runs already taken continue, and a head-mirror write
that is due follows the last take first (R66). -/
def execQdestroy (f : Nat) (s : State) : Host.Outcome State Fault Refusal :=
  if !s.mbHas f 0x02 then .next s
  else
    let v := s.func f
    let j := v.mbArg0.toNat
    if v.queues ≤ j then .next (s.mbDone f 0x0002 (some 1))
    else
      let q := s.queueNo f j
      let x := s.queue q
      let s := if x.created then s.mirrorHead q else s
      .next ((if x.created then s.setQueue q (s.queue q).freed else s).mbDone f 0 none)

/-- The doubles of an image (03 R88). -/
def State.readDoubles (s : State) (f a n : Nat) : List Dbl :=
  (List.range n).map fun i => BitVec.ofNat 64 ((s.devRead f (a + 8 * i) 8).getD 0)

/-- POLICYLOAD (03 R88): checks an image and installs it, its state area zeroed and its count of
faults at 0. The index of a failure that no instruction carries is not stated. (Log 52, DESIGN CHOICE; log 111, DESIGN
CHOICE.) -/
def execPolicyload (f : Nat) (s : State) : Host.Outcome State Fault Refusal :=
  if !s.mbHas f 0x03 then .next s
  else
    let v := s.func f
    let a := v.mbArg0.toNat
    let n := v.mbArg1.toNat
    if n ≤ 4096 && !s.devRoom f a n then .next s else
    let idx (o : Option Nat) : Nat := match o with
      | some i => i
      | none => Config.freePick s.stamp f % 2 ^ 16
    if n = 0 || 4096 < n || n % 8 ≠ 0 || !s.devPagesOk f .read a n then
      .next (s.mbDone f 0x0007 (some (1 + idx none * 2 ^ 16)))
    else
      let s := s.devReach f a n
      let prog := s.readDoubles f a (n / 8)
      match npbCheck prog with
      | some (c, i) => .next (s.mbDone f 0x0007 (some (c + idx i * 2 ^ 16)))
      | none =>
        let v := s.func f
        .next ((s.setFunc f { v with policy := some prog, policyMem := [], policyFaults := 0 }).mbDone f 0 none)

end Sys2Proof.Machine
end

