-- ==== Sys2Proof/Machine/Emit.lean ====
section
/-! DEFINITION. Emission and CANCEL from a block (02 R49 to R51; 16 R370, R372 to R377; 04 R117, R118). -/
namespace Sys2Proof.Machine

/-- The lanes of an issue group in which an instruction is Active: predicate 1, and past rows 1 to 10 of 06 R165. -/
def State.activeOf (s : State) (iss : Issue) (i : Instr) : List Nat :=
  let t := s.team iss.team
  laneList.filter fun L => iss.group.contains L && (t.lane L).pend &&
    (rowFault s t (s.nodeOf t.block) i.wf i.form iss.word L).isNone

/-- Depth of a thread's record; 0 in a dependency node (02 R51). -/
def State.threadDepth (s : State) (tn L : Nat) : Nat :=
  let t := s.team tn
  let k := s.block t.block
  if k.dep then 0
  else natBits (k.records.getD (t.thread L / 2 ^ (s.nodeOf t.block).tprl) {}).hdr.toNat 4 0

/-- Depth that a record to node `n` receives (02 R51). -/
def State.newDepth (s : State) (tn L n : Nat) : Nat :=
  s.threadDepth tn L + if n ≤ (s.block (s.team tn).block).node then 1 else 0

/-- A local target is permitted (16 R372): a record node to which the emitter has a record edge, or its own node by
EMIT.SELF. -/
def State.permits (s : State) (b n : Nat) (self : Bool) : Bool :=
  let nodes := (s.run (s.block b).run).graph.nodes
  n < nodes.length && !(nodes.getD n {}).depnode && (self || (s.nodeOf b).recTargets.contains n)

/-- The record header of an emission (02 R49). -/
def emitHeader (seq : Word) (src depth : Nat) : Dbl := seq ++ BitVec.ofNat 32 (src % 4096 * 2 ^ 16 + depth % 32)

/-- The `n` record words of a lane from register `a`. -/
def recordWords (t : Team) (L a n : Nat) : List Word := (List.range n).map fun i => t.vreg L (a + i)

/-- REGBOUND of a record that passes the allotment: its lowest index beyond. -/
def recordBeyond (a n regs : Nat) : Option FaultInfo :=
  if regs < a + n then some { code := codeRegbound, info := BitVec.ofNat 32 (max a regs) } else none

/-- The checks of a lane up to RECDEPTH (16 R373). -/
def State.emitCheck (s : State) (c : Ctx) (a n L : Nat) (self : Bool) : Option FaultInfo :=
  let target := (s.run c.block.run).graph.nodes.getD n {}
  let nd := s.newDepth c.iss.team L n
  if !s.permits c.team.block n self then some { code := 0x1A, info := BitVec.ofNat 32 (n % 4096) }
  else match recordBeyond a (target.rsize / 4) c.node.regs with
    | some e => some e
    | none =>
      if target.depth < nd then some { code := 0x0D, info := BitVec.ofNat 32 (n % 4096 + nd % 32 * 2 ^ 16) }
      else none

/-- LOGFULL of the lanes whose appends at their home dies cannot all be logged (18 R415). -/
def State.emitLogs (s : State) (c : Ctx) (ls : List (Nat × Nat)) : List (Nat × FaultInfo) :=
  ls.filterMap fun x =>
    (s.logNeed c.iss.team x.1 x.2 .yard (ls.filter fun y => y.2 == x.2).length).map fun e => (x.1, e)

/-- Lanes of a version whose records would take the held state above VBUDGET, in lane order (17 R396). -/
def State.emitOver (s : State) (b : Nat) (ls : List (Nat × Nat)) (held : Nat) : List Nat :=
  match ls with
  | [] => []
  | (L, n) :: r =>
    let more := held + s.rsizeOf b n + 16
    if (s.nodeOf b).vbudget * 4096 < more then L :: s.emitOver b r held else s.emitOver b r more

/-- Number the emissions of an instruction: identifiers from `id`, sequence numbers from ESEQ. -/
def State.mkEmissions (s : State) (c : Ctx) (a ins id : Nat) (seq : Word) (ls : List (Nat × Nat)) : List Emission :=
  match ls with
  | [] => []
  | (L, n) :: r =>
    let target := (s.run c.block.run).graph.nodes.getD n {}
    { id := id, ins := ins, team := c.iss.team, block := c.team.block, core := c.team.core, lane := L, run := c.block.run,
      node := n,
      entry := { hdr := emitHeader seq c.block.node (s.newDepth c.iss.team L n),
                 words := recordWords c.team L a (target.rsize / 4), index := 0 },
      after := s.unacked c.iss.team, listed := false,
      sent := s.unacked c.iss.team == [] } :: s.mkEmissions c a ins (id + 1) (seq + 1) r

/-- Records of a team that have been emitted or reserved and are not sent yet: they count in EMC once they are (16 R370). (Log 86,
DEDUCED.) -/
def State.unsent (s : State) (tn : Nat) : Nat :=
  ((s.remoteOut.filter fun m => m.team == tn).map fun m => m.records.length).sum +
    (s.emissions.filter fun e => e.team == tn && !e.sent).length

/-- EMIT and EMIT.SELF (16 R373, R375): `target` names a lane's node. A record is sent, and EMC counts it, once its release wait is
over; in a version, where it is held, the instruction itself waits so. -/
def emitInstr (i : Instr) (s : State) (self : Bool) (target : Ctx → Nat → Nat) : Host.Outcome State Fault Refusal :=
  runInstr i s fun c =>
    let a := c.form.a.field.toNat
    let found := c.act.map fun L => (L, target c L, s.emitCheck c a (target c L) L self)
    let f1 := found.filterMap fun x => x.2.2.map fun e => (x.1, e)
    let ok1 := (found.filter fun x => x.2.2.isNone).map fun x => (x.1, x.2.1)
    let f2 := s.emitLogs c (ok1.map fun x => (x.1, (s.run c.block.run).homeDie x.2))
    let ok2 := ok1.filter fun x => (f2.lookup x.1).isNone
    let b := c.team.block
    let lines := s.pendingLines b
    let over' := if c.node.versioned then s.emitOver b ok2 ((s.block b).heldSize (s.rsizeOf b) lines) else []
    let f3 := over'.map fun L =>
      (L, ({ code := 0x13, info := BitVec.ofNat 32 ((s.block b).heldSize (s.rsizeOf b) [] / 1024) } : FaultInfo))
    let ok := ok2.filter fun x => !over'.contains x.1
    let faults := f1 ++ f2 ++ f3
    let es := s.mkEmissions c a s.fresh (s.fresh + 1) c.team.eseq ok
    let t := { c.team with eseq := c.team.eseq + BitVec.ofNat 32 es.length }
    if ok = [] then { st := s, faults := faults }
    else if c.node.versioned then
      if s.unacked c.iss.team != [] then { st := s, stall := true } else
      let held := es.map fun (e : Emission) => ({ node := e.node, team := e.team, entry := e.entry } : HeldRec)
      let k := s.block b
      { st := ((s.setBlock b { k with heldRecs := k.heldRecs ++ held }).setTeam c.iss.team t).releasePoint c.iss.team (ok.map (·.1))
        faults := faults }
    else if 65535 < c.team.emc + s.unsent c.iss.team + es.length then { st := s, stall := true }
    else
      { st := { s with emissions := s.emissions ++ es, fresh := s.fresh + 1 + es.length }.setTeam c.iss.team
          { t with emc := t.emc + (es.filter fun (e : Emission) => e.sent).length }
        faults := faults, waits := ok.map fun x => (x.1, .emit), check := true }

/-- EMIT with a literal node (16 R373). -/
def execEmit (o : L64) (s : State) : Host.Outcome State Fault Refusal :=
  emitInstr (.emit o) s false fun c _ => natBits c.form.imm.toNat 11 0

/-- EMIT with the node in a register. -/
def execEmitReg (o : L64) (s : State) : Host.Outcome State Fault Refusal :=
  emitInstr (.emitReg o) s false fun c L => natBits (c.team.vreg L c.form.b.field.toNat).toNat 11 0

/-- EMIT.SELF. -/
def execEmitSelf (o : L64) (s : State) : Host.Outcome State Fault Refusal :=
  emitInstr (.emitSelf o) s true fun c _ => c.block.node

/-! ### EMIT.REMOTE (16 R376; 04 R117, R118) -/

/-- Node and accelerator of a lane's remote target. -/
def remoteTarget (c : Ctx) (L : Nat) : Nat × Nat :=
  let w := (c.team.vreg L c.form.b.field.toNat).toNat
  (natBits w 21 12, natBits w 11 0)

/-- The emitter's list holds a remote entry for the target (16 R372). -/
def Node.permitsRemote (n : Node) (g : Nat × Nat) : Bool :=
  n.succs.any fun w => w.getLsbD 31 && natBits w.toNat 21 12 == g.1 && natBits w.toNat 11 0 == g.2

/-- The checks of a lane; a depth that no node allows faults RECDEPTH at once. (Log 86, DEDUCED.) -/
def State.remoteCheck (s : State) (c : Ctx) (a words L : Nat) : Option FaultInfo :=
  let g := remoteTarget c L
  let d := s.threadDepth c.iss.team L + 1
  if c.node.versioned || !c.node.permitsRemote g then
    some { code := 0x1A, info := BitVec.ofNat 32 (g.2 + g.1 * 2 ^ 12) }
  else match recordBeyond a words c.node.regs with
    | some e => some e
    | none => if 31 < d then some { code := 0x0D, info := BitVec.ofNat 32 (g.2 + d % 32 * 2 ^ 16) } else none

/-- Targets of the lanes, in ascending order of their lowest lanes. -/
def remoteGroups (c : Ctx) (ls : List Nat) : List (Nat × Nat) :=
  ls.foldl (fun gs L => if gs.contains (remoteTarget c L) then gs else gs ++ [remoteTarget c L]) []

/-- The low 64 bits of the body of a RESERVE (04 R118). -/
def RemoteOut.body (m : RemoteOut) : Nat :=
  m.job % 65536 + m.node % 4096 * 2 ^ 16 + m.lanes.length % 128 * 2 ^ 28 + m.sizem1 % 16 * 2 ^ 35 + m.depth % 32 * 2 ^ 39

/-- Words of a 16-byte message body from its low 64 bits. -/
def bodyWords (v : Nat) : List Word := [BitVec.ofNat 32 v, BitVec.ofNat 32 (v / 2 ^ 32), 0, 0]

/-- The reservation of a group. Where the lanes' depths differ, which of them it carries is not stated.
(Log 86, DEDUCED.) -/
def State.mkReserve (s : State) (c : Ctx) (a sizem1 : Nat) (all : List Nat) (g : Nat × Nat) : RemoteOut :=
  let ls := all.filter fun L => remoteTarget c L == g
  let first := ls.headD 0
  let seq := c.team.eseq.toNat + (all.takeWhile fun L => L != first).length
  let pick := ls.getD (Config.freePick s.stamp first % ls.length) 0
  { token := c.team.core % 1024 + c.team.index % 16 * 2 ^ 10 + seq % 2 ^ 32 * 2 ^ 14, team := c.iss.team,
    block := c.team.block, accel := g.1, node := g.2, job := c.block.job, sizem1 := sizem1,
    depth := s.threadDepth c.iss.team pick + 1, lanes := ls,
    records := ls.map fun L => recordWords c.team L a (4 * (sizem1 + 1)), after := s.unacked c.iss.team, granted := false,
    arrived := 0 }

/-- Send a reservation, or hand it to the PF where ROUTE is referred (18 R420, R434). -/
def State.sendReserve (s : State) (func : Nat) (m : RemoteOut) : State :=
  let die := dieOfCore (s.team m.team).core
  let s := { s with remoteOut := s.remoteOut ++ [m] }
  if (s.yard die).mode.getLsbD 5 then
    (s.refer 5 die func (BitVec.ofNat 64 m.body) (BitVec.ofNat 64 (m.accel % 1024 + m.token % 2 ^ 46 * 2 ^ 10)) [] m.token
      m.accel).postWaiting
  else s.send 0x01 m.accel m.token (bodyWords m.body)

/-- EMIT.REMOTE (16 R376). In deterministic mode the Yard decision log of the emitting die must have room.
(Log 86, DEDUCED.) -/
def execEmitRemote (o : L64) (s : State) : Host.Outcome State Fault Refusal :=
  runInstr (.emitRemote o) s fun c =>
    let a := c.form.a.field.toNat
    let sizem1 := natBits c.form.imm.toNat 3 0
    let found := c.act.map fun L => (L, s.remoteCheck c a (4 * (sizem1 + 1)) L)
    let f1 := found.filterMap fun x => x.2.map fun e => (x.1, e)
    let ok1 := (found.filter fun x => x.2.isNone).map (·.1)
    let f2 := s.emitLogs c (ok1.map fun L => (L, dieOfCore c.team.core))
    let ok := ok1.filter fun L => (f2.lookup L).isNone
    if ok = [] then { st := s, faults := f1 ++ f2 }
    else if 65535 < c.team.emc + s.unsent c.iss.team + ok.length then { st := s, stall := true }
    else
      let ms := (remoteGroups c ok).map fun g => s.mkReserve c a sizem1 ok g
      let t := { c.team with eseq := c.team.eseq + BitVec.ofNat 32 ok.length }
      { st := ms.foldl (fun s m => s.sendReserve c.block.func m) (s.setTeam c.iss.team t)
        faults := f1 ++ f2
        waits := ok.filterMap fun L => (ms.find? fun m => m.lanes.contains L).map fun m => (L, .remote m.token)
        check := true }

/-- Send the records of a granted reservation whose release wait is over (16 R376): the lanes become READY and EMC rises. -/
def State.sendGranted (s : State) (m : RemoteOut) : State :=
  if !m.granted || m.records = [] || !s.acked m.after then s
  else
    let s := (List.range m.records.length).foldl (fun s i =>
      s.send 0x05 m.accel m.token (bodyWords i ++ m.records.getD i [])) s
    let t := s.team m.team
    let t := (t.mapLanes (m.lanes.filter fun L => (t.lane L).st == .waiting (.remote m.token)) fun _ l =>
      l.release 2).refresh
    let s := s.setTeam m.team { t with emc := t.emc + m.records.length }
    { s with remoteOut := s.remoteOut.map fun (x : RemoteOut) => if x.token = m.token then { x with records := [] } else x }

/-! ### CANCEL (16 R377) -/

/-- CANCEL of the runs `rs`, of a phase or job where `act` says so: the team waits as a release does; in deterministic mode the
request needs room in the decision log; then the lanes advance and the unit is cancelled. -/
def cancelInstr (i : Instr) (s : State) (level : Nat) (target : Nat → Nat) (rs : Nat → List Nat)
    (act : State → Nat → List Nat → State) : Host.Outcome State Fault Refusal :=
  match s.cur with
  | none => .fault .noIssuer
  | some iss =>
    let t := s.team iss.team
    let r := (s.block t.block).run
    let lanes := s.activeOf iss i
    let die := (s.run ((rs t.block).headD r)).homeDie 0
    let full := lanes.filterMap fun L => (s.logNeed iss.team L die .yard 1).map fun e => (L, e)
    if lanes = [] then .next (s.issueInstr iss i fun _ => { st := s })
    else if s.unacked iss.team ≠ [] then .next { s with cur := none }
    else if full ≠ [] then .next (s.issueInstr iss i fun _ => { st := s, faults := full })
    else
      let s' := s.issueInstr iss i fun _ => { st := s }
      .next (act (s'.cancelLog (rs t.block) level (target t.block) t.core) t.block (rs t.block))

/-- CANCEL.RUN (16 R377). -/
def execCancelRun (s : State) : Host.Outcome State Fault Refusal :=
  cancelInstr .cancelRun s 0 (fun b => (s.runid b).toNat) (fun b => [(s.block b).run]) fun s _ rs => s.cancelRuns rs

/-- CANCEL.PHASE. -/
def execCancelPhase (s : State) : Host.Outcome State Fault Refusal :=
  cancelInstr .cancelPhase s 1 (fun b => (s.jobid b).toNat)
    (fun b => s.runsOf (s.block b).func (s.block b).job (some (s.run (s.block b).run).phase))
    fun t b rs => t.cancelPhaseOrJob (s.block b).func (s.block b).job (some (s.run (s.block b).run).phase) rs

/-- CANCEL.JOB. -/
def execCancelJob (s : State) : Host.Outcome State Fault Refusal :=
  cancelInstr .cancelJob s 2 (fun b => (s.block b).job) (fun b => s.runsOf (s.block b).func (s.block b).job none)
    fun t b rs => t.cancelPhaseOrJob (s.block b).func (s.block b).job none rs

end Sys2Proof.Machine
end

