-- ==== Sys2Proof/Machine/Remote.lean ====
section
/-! DEFINITION. Remote records: reservations and their replies, records, limits (04 R116 to R118; 16 R376; 17 R403). -/
namespace Sys2Proof.Machine

/-! ### At the target -/

/-- Valid gates that match a reservation, with their functions (04 R116). -/
def State.gatesFor (s : State) (src job : Nat) : List (Nat × Nat) :=
  (s.funcs.map fun (f : Nat × Func) =>
    (f.2.gates.filter fun g => g.2.getLsbD 63 && natBits g.2.toNat 57 48 == src && natBits g.2.toNat 47 32 == job).map
      fun g => (f.1, natBits g.2.toNat 15 0)).flatten

/-- The earliest-admitted run of a job, not complete, with a record node `node` (04 R117). -/
def State.remoteRun (s : State) (f job node : Nat) : Option Nat :=
  (s.runs.filter fun (r : Nat × Run) => r.2.func == f && r.2.job == job && r.2.stage == .admitted &&
    (match r.2.graph.nodes[node]? with
      | some n => !n.depnode
      | none => false)).foldl
    (fun best r => match best with
      | some x => if (s.run x).number ≤ r.2.number then some x else some r.1
      | none => some r.1) none

/-- Refuse a reservation with a reason (04 R118). -/
def State.refuse (s : State) (m : ReserveMsg) (reason : Nat) : State := s.send 0x03 m.srcAccel m.token (bodyWords reason)

/-- A reservation that passes its checks: where the stall is below CAP and its waiting list empty it is granted at once, however
many records it holds; else it waits as one entry of the list (04 R113, R117). (Log 59, DEDUCED.) -/
def State.reserveAt (s : State) (m : ReserveMsg) (r : Nat) : State :=
  let entry : RemoteIn := { srcAccel := m.srcAccel, token := m.token, run := r, node := m.node, count := m.count,
                            depth := m.depth, granted := 0, records := [], appended := 0 }
  if s.discards r m.node then
    { s with remoteIn := s.remoteIn ++ [{ entry with granted := m.count }] }.send 0x02 m.srcAccel m.token []
  else
    let x := s.stall r m.node
    let s := { s with remoteIn := s.remoteIn ++ [entry] }
    let s := s.setStall r m.node { x with waiting := x.waiting ++ [.remote m.srcAccel m.token] }
    s.serveWaiting r m.node

/-- The gate that a reservation comes in by; which of several that match the manual does not say (04 R116). -/
def State.gateOf (s : State) (m : ReserveMsg) : Option (Nat × Nat) :=
  let gs := s.gatesFor m.srcAccel m.job
  gs[Config.freePick s.stamp m.token % gs.length]?

/-- A reservation is resolved by gate, run, node, record size, depth and stall (04 R117; 16 R376). -/
def State.takeReserve (s : State) (m : ReserveMsg) (gate : Option (Nat × Nat)) : State :=
  match gate with
  | none => s.refuse m 0
  | some (f, job) =>
    match s.remoteRun f job m.node with
    | none => s.refuse m 1
    | some r =>
      let n := s.nodeAt r m.node
      if n.rsize ≠ 16 * (m.sizem1 + 1) then s.refuse m 2
      else if n.depth < m.depth then s.refuse m 3
      else s.reserveAt m r

/-- Header of a remote record: SEQ counts from the group's, in index order; the emitting node is not carried by any message
(02 R49; 04 R118). (Log 87, DESIGN CHOICE.) -/
def State.remoteHeader (s : State) (m : RemoteIn) (i : Nat) : Dbl :=
  BitVec.ofNat 64 ((m.token / 2 ^ 14 + i) % 2 ^ 32 * 2 ^ 32 + Config.freePick s.stamp m.token % 4096 * 2 ^ 16 + m.depth % 32)

/-- A remote record is an emitted one: among those of a cycle it goes by the core that emitted it (04 R99). (Log 113, DEDUCED.) -/
def State.remotePlace (s : State) (m : RemoteIn) : CyclePlace :=
  { res := 1000 + (s.run m.run).homeDie m.node, place := 3 + m.token % 1024 }

/-- Append the records of a group that have arrived, in index order, at most `c` of them; an append waits for the decision
log, for the records of an issue that are arriving at the stall (16 R373), for the next cycle where the Yard has appended what comes
after it (R99), and for the end of a cut (17 R402). Records to a run that takes none are discarded (02 R59). (Log 59, DEDUCED.) -/
def State.appendRemote (s : State) (src token c : Nat) : State :=
  match c with
  | 0 => s
  | c' + 1 =>
    match s.remoteIn.find? fun m => m.srcAccel == src && m.token == token with
    | none => s
    | some m =>
      match m.records.lookup m.appended with
      | none => s
      | some w =>
        let gone := s.discards m.run m.node
        if !gone && (s.logHolds m.run ((s.run m.run).homeDie m.node) 1 || !s.segRoom m.run m.node ||
            (s.stall m.run m.node).group != 0 || (s.func (s.run m.run).func).cut || s.late (s.remotePlace m)) then s
        else
          let s := { s with remoteIn := s.remoteIn.map fun (x : RemoteIn) =>
            if x.srcAccel = src && x.token = token then { x with appended := x.appended + 1 } else x }
          let s := if gone then s else
            let s := (s.markPlaces [s.remotePlace m]).appendEntry m.run m.node (s.remoteHeader m m.appended) w
              (appendWho (token % 1024) (token / 1024 % 16))
            let k := s.stall m.run m.node
            s.setStall m.run m.node { k with granted := k.granted - 1 }
          s.appendRemote src token c'

/-- The whole group of a reservation has been appended: ARRIVED is sent (04 R118). (Log 88, DEDUCED.) -/
def State.arrivedAll (s : State) (src token : Nat) : State :=
  match s.remoteIn.find? fun m => m.srcAccel == src && m.token == token with
  | some m =>
    if m.appended < m.count then s
    else { s with remoteIn := s.remoteIn.filter fun (x : RemoteIn) => !(x.srcAccel == src && x.token == token) }.send 0x06
      src token (bodyWords m.count)
  | none => s

/-- Records that have waited are appended once they may be. -/
def State.drainRemote (s : State) : State :=
  s.remoteIn.foldl (fun s m => (s.appendRemote m.srcAccel m.token m.count).arrivedAll m.srcAccel m.token) s

/-- A record of a granted reservation arrives (04 R118). -/
def State.takeRecord (s : State) (m : RecordMsg) : State :=
  match s.remoteIn.find? fun x => x.srcAccel == m.srcAccel && x.token == m.token with
  | none => s
  | some x =>
    if x.granted < x.count || x.count ≤ m.index || (x.records.lookup m.index).isSome then s
    else
      let s := { s with remoteIn := s.remoteIn.map fun (y : RemoteIn) =>
        if y.srcAccel = m.srcAccel && y.token = m.token then { y with records := y.records ++ [(m.index, m.words)] } else y }
      (s.appendRemote m.srcAccel m.token x.count).arrivedAll m.srcAccel m.token

/-- HOLD_TIMER (04 R118; 17 R403): HOLD for every reservation that waits, or whose function is cut. -/
def execHoldTimer (s : State) : Host.Outcome State Fault Refusal :=
  let s' := (s.remoteIn.filter fun m => m.granted < m.count || (s.func (s.run m.run).func).cut).foldl
    (fun s m => s.send 0x04 m.srcAccel m.token []) s
  .next (s.cutFlits.foldl (fun s e => match e.flit with
    | .reserve m => s.send 0x04 m.srcAccel m.token []
    | _ => s) s')

/-- YARD_MESSAGE_DROPPED (04 R118): a malformed message is dropped and counted. -/
def execYardMessageDropped (port : Nat) (s : State) : Host.Outcome State Fault Refusal :=
  .next (if port < 16 then { s with dropped := s.dropped.set 0 port (s.dropped.get 0 port + 1) } else s)

/-! ### At the emitter -/

/-- An outstanding reservation. -/
def State.outgoing (s : State) (token : Nat) : Option RemoteOut := s.remoteOut.find? fun m => m.token == token

/-- A reservation is over. -/
def State.dropOutgoing (s : State) (token : Nat) : State :=
  { s with remoteOut := s.remoteOut.filter fun m => m.token != token }

/-- A GRANT is received for an outstanding reservation. -/
def State.granted (s : State) (token : Nat) : State :=
  match s.outgoing token with
  | none => s
  | some m =>
    if m.granted then s
    else
      let s := { s with remoteOut := s.remoteOut.map fun (x : RemoteOut) =>
        if x.token = token then { x with granted := true } else x }
      s.sendGranted { m with granted := true }

/-- The lanes of a refused group fault at their EMIT.REMOTE (04 R117; 16 R376): RECDEPTH for reason 3, else EMITNODE. -/
def State.refused (s : State) (token reason : Nat) : State :=
  match s.outgoing token with
  | none => s
  | some m =>
    if m.granted then s
    else
      let e : FaultInfo :=
        if reason = 3 then { code := 0x0D, info := BitVec.ofNat 32 (m.node + m.depth % 32 * 2 ^ 16) }
        else { code := 0x1A, info := BitVec.ofNat 32 (m.node + m.accel * 2 ^ 12) }
      let t := s.team m.team
      let ls := m.lanes.filter fun L => (t.lane L).st == .waiting (.remote token)
      let t := (t.mapLanes ls fun _ l => { l with st := .ready, tnext := nextPc l.pc 2 }).refresh
      let s := s.setTeam m.team t
      { s with pendingTraps := s.pendingTraps ++ ls.map fun L => (m.team, L, e) }.dropOutgoing token

/-- ARRIVED is received (04 R118; 16 R370): EMC falls. -/
def State.arrived (s : State) (token count : Nat) : State :=
  match s.outgoing token with
  | none => s
  | some m =>
    let s := s.ackEmission m.team count
    if m.lanes.length ≤ m.arrived + count then s.dropOutgoing token
    else { s with remoteOut := s.remoteOut.map fun (x : RemoteOut) =>
      if x.token = token then { x with arrived := x.arrived + count } else x }

/-! ### Receiving (17 R403) -/

/-- The function that a received message is for: the gate's, the run's, or the emitting block's. -/
def State.flitFunc (s : State) (x : Flit) : Option Nat :=
  let out (token : Nat) : Option Nat := (s.outgoing token).map fun m => (s.block m.block).func
  match x with
  | .reserve m => (s.gateOf m).map (·.1)
  | .record m => (s.remoteIn.find? fun y => y.srcAccel == m.srcAccel && y.token == m.token).map fun y => (s.run y.run).func
  | .grant t => out t
  | .refuse t _ => out t
  | .hold t => out t
  | .arrived t _ => out t

/-- A message is delivered; a reservation to the function that its port has found. HOLD restarts the emitter's limit, which is time
alone. -/
def State.deliver (s : State) (f : Option Nat) (x : Flit) : State :=
  match x with
  | .reserve m => s.takeReserve m (f.bind fun f => (s.gatesFor m.srcAccel m.job).find? fun g => g.1 == f)
  | .record m => s.takeRecord m
  | .grant t => s.granted t
  | .refuse t r => s.refused t r
  | .hold _ => s
  | .arrived t n => s.arrived t n

/-- A port receives a message, with the next link sequence number: it is delivered, or saved while its function is cut (17 R403).
(Log 92, DEDUCED.) -/
def State.receive (s : State) (x : Flit) : State :=
  let n := s.flits + 1
  let s := { s with flits := n }
  match s.flitFunc x with
  | none => s.deliver none x
  | some f =>
    if (s.func f).cut then { s with cutFlits := s.cutFlits ++ [{ func := f, seq := n, flit := x }] }
    else (s.setFunc f { s.func f with lastFlit := n }).deliver (some f) x

/-- RESERVE (04 R117, R118). -/
def execReserve (m : ReserveMsg) (s : State) : Host.Outcome State Fault Refusal := .next (s.receive (.reserve m))

/-- RECORD (04 R118). -/
def execRecord (m : RecordMsg) (s : State) : Host.Outcome State Fault Refusal := .next (s.receive (.record m))

/-- GRANT (04 R117; 16 R376). -/
def execGrant (token : Nat) (s : State) : Host.Outcome State Fault Refusal := .next (s.receive (.grant token))

/-- REFUSE (04 R117, R118). -/
def execRefuse (token reason : Nat) (s : State) : Host.Outcome State Fault Refusal := .next (s.receive (.refuse token reason))

/-- HOLD (04 R118): restarts the emitter's limit, which is time alone. -/
def execHold (token : Nat) (s : State) : Host.Outcome State Fault Refusal := .next (s.receive (.hold token))

/-- ARRIVED (04 R118; 16 R370). -/
def execArrived (token count : Nat) (s : State) : Host.Outcome State Fault Refusal := .next (s.receive (.arrived token count))

/-- REMOTE_TIMEOUT (04 R117; 17 R389, R392): without a reply for 10 ms the emitting block is stopped and reported. Each reply starts the
limit anew (04 R118): after GRANT it runs for the records that have been sent and are not reported ARRIVED (16 R379). At a cut
it does not run (17 R402). -/
def execRemoteTimeout (token : Nat) (s : State) : Host.Outcome State Fault Refusal :=
  match s.outgoing token with
  | none => .next s
  | some m =>
    let t := s.team m.team
    let core := (s.block m.block).core
    let s' := s.bbEvent (dieOfCore core) 0x08 (m.accel + m.node * 2 ^ 32 + m.job * 2 ^ 64)
    if (m.granted && m.records != []) || (s.func (s.block m.block).func).cut then .next s
    else .next ((s'.dropOutgoing token).stopBlock m.block
      { reason := 6, core := core, team := t.index, lane := m.lanes.headD 0 })

/-- Reservations of blocks that have stopped are dropped, and granted records whose release wait is over are sent. -/
def State.serveOutgoing (s : State) : State :=
  let live (m : RemoteOut) : Bool := (s.blocks.any fun b => b.1 == m.block) && (s.block m.block).place != .retired
  let s := { s with remoteOut := s.remoteOut.filter live }
  s.remoteOut.foldl (fun s m => s.sendGranted m) s

end Sys2Proof.Machine
end

