-- ==== Sys2Proof/Machine/Assist.lean ====
section
/-! DEFINITION. Replies to referrals, and what becomes of a referral that is not answered (18 R421). -/
namespace Sys2Proof.Machine

/-! ### Placement (04 R121) -/

/-- Placements that waited for the decision log. (Log 94, DEDUCED.) -/
def State.placeWaiting (s : State) : State :=
  (s.blocks.filter fun b => b.2.placing != 0 && b.2.place == .referred).foldl (fun s b =>
    s.decidePlace b.1 (b.2.placing % 256 - 1) (decide (256 ≤ b.2.placing))) s

/-- A referred block is placed where the PF says, if that cluster is in C, else by 04 R111. -/
def State.placeAnswer (s : State) (b : Nat) (answer : Option Nat) : State :=
  let k := s.block b
  if k.place != .referred then s
  else
    let own := s.homeCluster k.run k.muster (s.placeHandle k.run k.node k.records)
    match answer with
    | some c => if (s.run k.run).clusters.contains c then s.decidePlace b c true else s.decidePlace b own false
    | none => s.decidePlace b own false

/-! ### Atomics (10 R260) -/

/-- The lane's default ATOMEMU handler is at work on the lanes of instruction `ins`, and stands where `p` says. -/
def Lane.emulates (l : Lane) (ins : Nat) (p : EmuStep → Bool) : Bool :=
  l.waitsAt fun w => match w with | .emulate _ i e => i == ins && p e | _ => false

/-- Lanes of a team that trapped at instruction `ins` and have no old value yet, in lane order; the trap entry of some may still be
due (17 R384). -/
def State.emuLanes (s : State) (tn ins : Nat) : List Nat :=
  laneList.filter fun L => ((s.team tn).lane L).emulates ins (· != .done) ||
    s.pendingTraps.any fun p => p.1 == tn && p.2.1 == L && p.2.2.code == 0x11 && p.2.2.ins == ins

/-- Once every lane that trapped at the instruction has its old value, all of them go on past the ATOM (10 R260, R275). -/
def State.emuReturn (s : State) (tn ins : Nat) : State :=
  if s.emuLanes tn ins != [] then s
  else
    let t := s.team tn
    s.setTeam tn (t.mapLanes (laneList.filter fun L => (t.lane L).emulates ins (· == .done)) fun _ l =>
      { l.tret with st := .ready, pc := l.tnext }).refresh

/-- The emulated atomic of a lane is over: D holds the old value, and the handler goes to the next lane. -/
def State.atomDone (s : State) (tn L old : Nat) : State :=
  let t := s.team tn
  let l := t.lane L
  match l.st with
  | .waiting (.emulate d ins _) =>
    let n := regCount (2 ^ natBits l.tinfo.toNat 12 10)
    (s.setTeam tn ((t.setLane L { l with st := .waiting (.emulate d ins .done) }).setVs L d n old)).emuReturn tn ins
  | _ => s

/-- The default handler gives up: the block is stopped with reason DEFAULT (17 R390). -/
def State.defaultStop (s : State) (tn L : Nat) : State :=
  let t := s.team tn
  let l := t.lane L
  s.stopBlock t.block
    { reason := 1, code := natBits l.tstatus.toNat 7 0, subcode := natBits l.tstatus.toNat 15 8,
      cause := natBits l.tstatus.toNat 19 16, tpc := l.tpc, taddr := l.taddr, tinfo := l.tinfo, core := t.core,
      team := t.index, lane := L }

/-- A lane's handler stands at another step of its emulation. -/
def State.emuAt (s : State) (tn L : Nat) (e : EmuStep) : State :=
  let t := s.team tn
  match (t.lane L).st with
  | .waiting (.emulate d ins _) => s.setTeam tn (t.setLane L { t.lane L with st := .waiting (.emulate d ins e) })
  | _ => s

/-- The entry of an ATOM that the PF has performed for a lane of a job in deterministic mode (18 R410, R414): the core writes it.
(Log 21, DEDUCED.) -/
def State.emuLog (s : State) (tn L : Nat) : State :=
  let t := s.team tn
  if s.det t.block then
    s.orderLog t.block t.core 0x11 (s.unitClock (portUnit (dieOfCore t.core))) (t.lane L).taddr.toNat
      (t.core + L * 2 ^ 10 + 2 ^ 16)
  else s

/-- The PF has performed the atomic of a lane; of a team that does not run the handler goes on where the team does (17 R388). -/
def State.atomAnswer (s : State) (tn L old : Nat) : State :=
  let s := s.emuLog tn L
  if s.handlersRun tn then s.atomDone tn L old else s.emuAt tn L (.told old)

/-- The PF has not answered (18 R421). -/
def State.atomTimeout (s : State) (tn L : Nat) : State :=
  if s.handlersRun tn then s.defaultStop tn L else s.emuAt tn L .failed

/-! ### Replies (18 R421) -/

/-- Entry `i` of the view of a PICKS referral. -/
def Referral.viewEntry (r : Referral) (i : Nat) : Nat := natBits (r.cont.getD (i / 4) 0).toNat (64 * (i % 4) + 63) (64 * (i % 4))

/-- The queue that a PICKS answer selects: an index beyond the list selects entry 0 (03 R89). -/
def State.pickAnswer (s : State) (r : Referral) (i : Nat) : State :=
  let i := if i < r.arg0.toNat then i else 0
  s.setFunc r.func { s.func r.func with pick := s.queueNo r.func (r.viewEntry i % 65536) + 1 }

/-- A translation takes its place in a cluster's L2 TLB, of 2,048 entries: a full one loses an entry, whichever (09 R236). -/
def State.l2Fill (s : State) (e : TlbEntry) : State :=
  let here (x : TlbEntry) : Bool := x.cluster == e.cluster && x.core == none
  let full := (s.tlb.filter here).length
  let out := if full < 2048 then none else (s.tlb.filter here)[Config.freePick s.stamp e.page % full]?
  { s with tlb := e :: s.tlb.filter fun x => !(some x == out) && !(here x && x.func == e.func && x.page == e.page) }

/-- The answer of a page walk (09 R236, R237): a leaf with V = 1 stands in the L2 TLB of every cluster that waits for it; one that
fails, or level 0, which says that none came, is for the accesses that wait alone. The result of a walk that was in flight at an
invalidation of its page is discarded. (Log 43, DEDUCED.) -/
def State.walkAnswer (s : State) (r : Referral) (pte : Dbl) (level : Nat) : State :=
  let page := r.arg0.toNat / 4096
  match answerLeaf pte.toNat level (4096 * page) with
  | .ok _ =>
    if r.stale then s
    else (r.who.map (·.cluster)).eraseDups.foldl (fun s c => s.l2Fill { cluster := c, func := r.func, page := page, pte := pte, level := level }) s
  | .error _ =>
    if r.stale && level != 0 then s
    else
      let answer (w : Waiter) : WalkAnswer := { who := w, func := r.func, page := page, pte := pte, level := level }
      { s with answers := r.who.map answer ++ s.answers }

/-- QUIET (04 R121): quiet closes the inputs if the conditions hold; not quiet starts the question anew, as a low reading of
the tree restarts its count. The answer to a probe that has ended acts on nothing; what it says during a cut is asked again after it
(17 R402). (Log 88, DEDUCED.) -/
def State.quietAnswer (s : State) (r : Referral) (quiet : Bool) : State :=
  let k := s.stall r.obj r.obj2
  if !k.probe || k.asked != r.rseq + 1 then s
  else if quiet && !(s.func (s.run r.obj).func).cut then s.probeResult r.obj r.obj2
  else (s.setStall r.obj r.obj2 { k with probe := false, asked := 0 }).evalInputs r.obj

/-- Deliver the PF's reply `v` to a referral; the 2 MiB that a PENOVF reply names change timing only (10 R264). (Log 71, DEDUCED; log 88,
DEDUCED.) -/
def State.answer (s : State) (r : Referral) (v : Dbl) : State :=
  match r.mode with
  | 0 => s.placeAnswer r.obj (some v.toNat)
  | 1 => s.pickAnswer r v.toNat
  | 2 => s.walkAnswer r v 1
  | 3 => s.atomAnswer r.obj r.obj2 (v.toNat + s.pf.asrvalhi.toNat * 2 ^ 64)
  | 5 => if v = 0 then s.granted r.obj else s.refused r.obj 0
  | 6 => s.quietAnswer r (v != 0)
  | _ => s

/-- ASSIST_REPLY (18 R421): a write of ASRVAL delivers the reply to the referral that ASRSEQ names; one that is not
outstanding ignores it. -/
def execAssistReply (v : Dbl) (s : State) : Host.Outcome State Fault Refusal :=
  let s := { s with pf := { s.pf with asrval := v } }
  match s.referrals.find? fun r => r.posted && r.rseq == s.pf.asrseq.toNat with
  | none => .next s
  | some r =>
    let s := { s with referrals := s.referrals.filter fun x => x.rseq != r.rseq }
    .next (s.answer r v)

/-- ASSIST_TIMEOUT (18 R421): a referral takes its hardware fate; a quiescence referral has none. -/
def execAssistTimeout (rseq : Nat) (s : State) : Host.Outcome State Fault Refusal :=
  match s.referrals.find? fun r => r.rseq == rseq with
  | none => .next s
  | some r =>
    if r.mode = 6 then .next s
    else
      let s := { s with referrals := s.referrals.filter fun x => x.rseq != r.rseq }
      match r.mode with
      | 0 => .next (s.placeAnswer r.obj none)
      | 1 => .next (s.pickAnswer r 0)
      | 2 => .next (s.walkAnswer r 0 0)
      | 3 => .next (s.atomTimeout r.obj r.obj2)
      | 4 => .next (s.penEmpties r.obj)
      | 5 => execRemoteTimeout r.obj s
      | _ => .next s

end Sys2Proof.Machine
end

