-- ==== Sys2Proof/Machine/Control.lean ====
section
/-! DEFINITION. Branches, calls, jumps, the jump table and EXIT (08 R204 to R210). -/
namespace Sys2Proof.Machine

/-- Lanes of each target, in the order of their lowest lanes. -/
def byTarget (js : List (Nat × Dbl)) : List (Dbl × Nat) :=
  js.foldl (fun acc j =>
    match acc.find? fun a => a.1 == j.2 with
    | some _ => acc.map fun a => if a.1 == j.2 then (a.1, a.2 + 1) else a
    | none => acc ++ [(j.2, 1)]) []

/-- Insert a target by more lanes first, then lower PC (08 R210). -/
def insertTarget (x : Dbl × Nat) (l : List (Dbl × Nat)) : List (Dbl × Nat) :=
  match l with
  | [] => [x]
  | y :: r =>
    if y.2 < x.2 || (y.2 = x.2 && x.1.toNat < y.1.toNat) then x :: y :: r else y :: insertTarget x r

/-- Divergence order of JMP, CALLR, JTAB and RET: the group with more lanes, lower target PC on a tie (08 R210). Lanes that
do not transfer, `rest` of them, go to `next`. -/
def jumpOrder (js : List (Nat × Dbl)) (next : Dbl) (rest : Nat) : List Dbl :=
  let groups := byTarget js
  let groups := if rest = 0 then groups
    else match groups.find? fun a => a.1 == next with
      | some _ => groups.map fun a => if a.1 == next then (a.1, a.2 + rest) else a
      | none => groups ++ [(next, rest)]
  (groups.foldl (fun l x => insertTarget x l) []).map (·.1)

/-- Divergence order of a conditional branch (08 R210): by its hint, or the side with more lanes, fall-through on a tie. -/
def branchOrder (hint : BitVec 2) (taken fall : Nat) (target next : Dbl) : List Dbl :=
  if hint = 1 then [target, next]
  else if hint = 2 then [next, target]
  else if fall < taken then [target, next] else [next, target]

/-- Displacement of a branch: IMM14, or LIT32 of the long form (08 R205). -/
def branchTarget (c : Ctx) (lit : Option Word) : Dbl :=
  let disp : Dbl := match lit with
    | some w => w.signExtend 64
    | none => immS64 c.form
  c.iss.pc + disp * 4

/-- BRA, BRNZ, BRZ and BRK (08 R205): the lanes for which `take` holds transfer. -/
def branch (i : Instr) (lit : Option Word) (s : State) (take : Ctx → Nat → Bool) : Host.Outcome State Fault Refusal :=
  runInstr i s fun c =>
    let target := branchTarget c lit
    let next := nextPc c.iss.pc c.iss.len
    let on := c.act.filter (take c)
    { st := s
      jumps := on.map fun L => (L, target)
      order := branchOrder c.form.hintv on.length (c.iss.group.length - on.length) target next }

/-- Operand A of a lane is not zero. -/
def condNz (c : Ctx) (L : Nat) : Bool := rd32 c.team L c.form 1 != 0
/-- Bit of mask A for a lane. -/
def condK (c : Ctx) (L : Nat) : Bool := c.team.kbit c.form.a.field.toNat L

/-- BRA. -/
def execBra (o : L64) (s : State) : Host.Outcome State Fault Refusal := branch (.bra o) none s fun _ _ => true
/-- BRA, long form. -/
def execBraLong (o : X96) (s : State) : Host.Outcome State Fault Refusal :=
  branch (.braLong o) (some o.lit) s fun _ _ => true
/-- BRNZ. -/
def execBrnz (o : L64) (s : State) : Host.Outcome State Fault Refusal := branch (.brnz o) none s condNz
/-- BRNZ, long form. -/
def execBrnzLong (o : X96) (s : State) : Host.Outcome State Fault Refusal := branch (.brnzLong o) (some o.lit) s condNz
/-- BRZ. -/
def execBrz (o : L64) (s : State) : Host.Outcome State Fault Refusal :=
  branch (.brz o) none s fun c L => !condNz c L
/-- BRZ, long form. -/
def execBrzLong (o : X96) (s : State) : Host.Outcome State Fault Refusal :=
  branch (.brzLong o) (some o.lit) s fun c L => !condNz c L
/-- BRK. -/
def execBrk (o : L64) (s : State) : Host.Outcome State Fault Refusal := branch (.brk o) none s condK
/-- BRK, long form. -/
def execBrkLong (o : X96) (s : State) : Host.Outcome State Fault Refusal := branch (.brkLong o) (some o.lit) s condK

/-- Write the link pair of lanes (08 R205). -/
def writeLinks (c : Ctx) (ls : List Nat) : Team :=
  let next := nextPc c.iss.pc c.iss.len
  ls.foldl (fun t L => wr64 c.team L c.form next t) c.team

/-- CALL (08 R205): the link is written, and every Active lane transfers. Lanes whose predicate is 0 go on: the two paths stand in
the order of an unhinted branch, as after a predicated BRA. (Log 119, DESIGN CHOICE.) -/
def callInstr (i : Instr) (lit : Option Word) (s : State) : Host.Outcome State Fault Refusal :=
  runInstr i s fun c =>
    let target := branchTarget c lit
    let next := nextPc c.iss.pc c.iss.len
    { st := s.setTeam c.iss.team (writeLinks c c.act)
      jumps := c.act.map fun L => (L, target)
      order := branchOrder 0 c.act.length (c.iss.group.length - c.act.length) target next }

/-- CALL. -/
def execCall (o : L64) (s : State) : Host.Outcome State Fault Refusal := callInstr (.call o) none s
/-- CALL, long form. -/
def execCallLong (o : X96) (s : State) : Host.Outcome State Fault Refusal := callInstr (.callLong o) (some o.lit) s

/-- JMP, CALLR and RET (08 R205): a target that is not a multiple of 4 faults ALIGN; the target is read before the link is
written. -/
def indirectJump (i : Instr) (link : Bool) (s : State) (target : Ctx → Nat → Dbl) : Host.Outcome State Fault Refusal :=
  runInstr i s fun c =>
    let next := nextPc c.iss.pc c.iss.len
    let bad := c.act.filter fun L => (target c L).toNat % 4 != 0
    let good := c.act.filter fun L => (target c L).toNat % 4 == 0
    let js := good.map fun L => (L, target c L)
    { st := if link then s.setTeam c.iss.team (writeLinks c good) else s
      faults := bad.map fun L => (L, { code := codeAlign, addr := target c L })
      jumps := js
      order := jumpOrder js next (c.iss.group.length - c.act.length) }

/-- Base pair plus the slot offset. -/
def slotTarget (c : Ctx) (L : Nat) : Dbl := rd64 c.team L c.form 1 + immS64 c.form * 4

/-- JMP. -/
def execJmp (o : L64) (s : State) : Host.Outcome State Fault Refusal := indirectJump (.jmp o) false s slotTarget
/-- CALLR. -/
def execCallr (o : L64) (s : State) : Host.Outcome State Fault Refusal := indirectJump (.callr o) true s slotTarget
/-- RET. -/
def execRet (o : S32) (s : State) : Host.Outcome State Fault Refusal :=
  indirectJump (.ret o) false s fun c L => rd64 c.team L c.form 1

/-- What JTAB finds for one lane (08 R206): a fault (code 0: wait), or the entry and where it stands. TADDR of ALIGN is the base.
(Log 120, DESIGN CHOICE.) -/
def jtabLane (s : State) (c : Ctx) (L : Nat) : Except FaultInfo (Nat × Target) :=
  let i := (rd32 c.team L c.form 1).toNat
  let base := (rd64 c.team L c.form 2).toNat
  let a := (base + 8 * i) % 2 ^ 64
  if c.form.imm.toNat + 1 ≤ i then .error { code := 0x0C, info := BitVec.ofNat 32 i }
  else if base % 8 ≠ 0 then
    match s.strangeDoor (s.agentOf c.iss.team L) .read a with
    | .error e => .error e
    | .ok none => .error (.at codeAlign 0 base)
    | .ok (some t) => .ok (a, t)
  else
    match s.checkThread c.iss.team L .read a 8 8 with
    | .error e => .error e
    | .ok t =>
      match s.apertureFault c.block.func a t with
      | some e => .error e
      | none => .ok (a, t)

/-- The lanes read their entries in lane order. -/
def jtabReads (s : State) (c : Ctx) (ls : List (Nat × Nat × Target)) : State × List (Nat × Nat × Nat) :=
  match ls with
  | [] => (s, [])
  | (L, a, t) :: r =>
    let (s, e) := s.readNow c.iss.team L t 8
    let (s, es) := jtabReads s c r
    (s, (L, a, e) :: es)

/-- JTAB (08 R206): the table read is a plain load, completed before the transfer; it waits for what such a load waits for (11
R279, R280), and needs room in the log as it does (18 R415). -/
def execJtab (o : L64) (s : State) : Host.Outcome State Fault Refusal :=
  runInstr (.jtab o) s fun c =>
    let found := c.act.map fun L => (L, jtabLane s c L)
    let faults := found.filterMap fun x => match x.2 with | .error e => some (x.1, e) | .ok _ => none
    let reads := found.filterMap fun x => match x.2 with | .ok (a, t) => some (x.1, a, t) | .error _ => none
    let full := s.logFaults c (reads.map fun x => (x.1, [], x.2.2))
    let reads := reads.filter fun x => (full.lookup x.1).isNone
    if reads.any fun x => !s.readReady c.iss.team x.1 x.2.2 8 then { st := s, stall := true }
    else
      let (s', es) := jtabReads s c reads
      let bad (e : Nat) : Bool := e % 4 != 0 || 2 ^ 56 ≤ e
      let js := (es.filter fun x => !bad x.2.2).map fun x => (x.1, BitVec.ofNat 64 x.2.2)
      { st := s'
        faults := faults ++ full ++ (es.filter fun x => bad x.2.2).map fun x =>
          (x.1, { code := 0x0C, addr := BitVec.ofNat 64 x.2.1, info := rd32 c.team x.1 c.form 1 })
        jumps := js
        order := jumpOrder js (nextPc c.iss.pc c.iss.len) (c.iss.group.length - c.act.length) }

/-- Clear the lanes in every mask (08 R207). -/
def Team.strikeAll (t : Team) (ls : List Nat) : Team :=
  (List.range 12).foldl (fun t n => t.setK n (t.kreg n &&& ~~~(maskOf ls))) t

/-- EXIT (08 R207): the lanes end and leave every mask; masks and barriers are checked, and a walk whose team has no lane
left ends (15 R347). -/
def execExit (s : State) : Host.Outcome State Fault Refusal :=
  runInstr .exit s fun c =>
    let t := c.team.strikeAll c.act
    let changed := (List.range 12).filter fun n => t.kreg n != c.team.kreg n
    let s := s.setTeam c.iss.team t
    let last := c.team.live.all c.act.contains
    { st := if last then s.dropWalk c.iss.team else s
      exits := c.act
      masks := changed
      bars := c.act != []
      check := true }

/-- NOP (06 R169). -/
def execNop (s : State) : Host.Outcome State Fault Refusal := runInstr .nop s fun _ => { st := s }

end Sys2Proof.Machine
end

