-- ==== Sys2Proof/Machine/CrossLane.lean ====
section
/-! DEFINITION. Cross-lane instructions (07 R195 to R200). -/
namespace Sys2Proof.Machine

/-- Segment size of a SHFL (07 R196). -/
def shflSeg (c : Nat) : Nat := if c = 0 then 64 else min (2 ^ c) 64

/-- The four SHFL forms (07 R196). -/
inductive Shfl where
  | idx | up | down | xor
  deriving DecidableEq, Repr

/-- The lane from which lane `L` takes its value, before the test that it is Active (07 R196). -/
def shflSource (k : Shfl) (seg L n : Nat) : Nat :=
  let base := L - L % seg
  let i := L % seg
  match k with
  | .idx => base + n % seg
  | .up => if n ≤ i then L - n else L
  | .down => if i + n < seg then L + n else L
  | .xor => base + Nat.xor i (n % seg)

/-- SHFL (07 R196). -/
def shfl (i : Instr) (k : Shfl) (s : State) : Host.Outcome State Fault Refusal :=
  laneInstr i s fun c L t =>
    let j := shflSource k (shflSeg c.form.c.field.toNat) L (rd32 c.team L c.form 2).toNat
    let j := if c.act.contains j then j else L
    wr32 c.team L c.form (rd32 c.team j c.form 1) t

/-- SHFL.IDX. -/
def execShflIdx (o : L64) (s : State) : Host.Outcome State Fault Refusal := shfl (.shflIdx o) .idx s
/-- SHFL.UP. -/
def execShflUp (o : L64) (s : State) : Host.Outcome State Fault Refusal := shfl (.shflUp o) .up s
/-- SHFL.DOWN. -/
def execShflDown (o : L64) (s : State) : Host.Outcome State Fault Refusal := shfl (.shflDown o) .down s
/-- SHFL.XOR. -/
def execShflXor (o : L64) (s : State) : Host.Outcome State Fault Refusal := shfl (.shflXor o) .xor s

/-- BCAST (07 R197). -/
def execBcast (o : L64) (s : State) : Host.Outcome State Fault Refusal :=
  runInstr (.bcast o) s fun c => teamEffect s c fun m =>
    let j := (rd32 c.team m c.form 2).toNat % 64
    let j := if c.act.contains j then j else m
    let v := rd32 c.team j c.form 1
    { st := s.setTeam c.iss.team (c.act.foldl (fun t L => wr32 c.team L c.form v t) c.team) }

/-- The value of operand A of a lane is not zero. -/
def voteBit (c : Ctx) (L : Nat) : Bool := rd32 c.team L c.form 1 != 0

/-- VOTE.ANY (07 R198). -/
def execVoteAny (o : L64) (s : State) : Host.Outcome State Fault Refusal :=
  laneInstr (.voteAny o) s fun c L t => wr32 c.team L c.form (if c.act.any (voteBit c) then 1 else 0) t

/-- VOTE.ALL (07 R198). -/
def execVoteAll (o : L64) (s : State) : Host.Outcome State Fault Refusal :=
  laneInstr (.voteAll o) s fun c L t => wr32 c.team L c.form (if c.act.all (voteBit c) then 1 else 0) t

/-- VOTE.BAL writes the whole mask (07 R198). -/
def execVoteBal (o : L64) (s : State) : Host.Outcome State Fault Refusal :=
  runInstr (.voteBal o) s fun c => teamEffect s c fun _ =>
    let d := c.form.d.field.toNat
    { st := s.setTeam c.iss.team (c.team.setK d (maskOf (c.act.filter (voteBit c)))), masks := [d] }

/-- MATCH (07 R199). -/
def execMatchLanes (o : L64) (s : State) : Host.Outcome State Fault Refusal :=
  laneInstr (.matchLanes o) s fun c L t =>
    let e := c.act.filter fun j => rd32 c.team j c.form 1 == rd32 c.team L c.form 1
    wr32 c.team L c.form (BitVec.ofNat 32 (e.length * 65536 + e.headD 0)) t

/-- The operators of REDSTEP and SCANSTEP (07 R200). -/
def stepOp (opc : Nat) (x y : Word) : Word :=
  if opc = 0 then x + y
  else if opc = 1 then minMax false true x y
  else if opc = 2 then minMax false false x y
  else if opc = 3 then minMax true true x y
  else if opc = 4 then minMax true false x y
  else if opc = 5 then x &&& y
  else if opc = 6 then x ||| y
  else x ^^^ y

/-- Lanes of the partner half of lane `L`, for halves of `d` lanes (07 R200). -/
def partnerHalf (act : List Nat) (d L : Nat) : List Nat :=
  act.filter fun j => j / (2 * d) == L / (2 * d) && j / d != L / d

/-- Lane `L` lies in the upper half of its run. -/
def upperHalf (d L : Nat) : Bool := L / d % 2 == 1

/-- REDSTEP (07 R200): the lowest Active lane of the partner half. -/
def execRedstep (o : L64) (s : State) : Host.Outcome State Fault Refusal :=
  laneInstr (.redstep o) s fun c L t =>
    let d := 2 ^ immBits c.form.imm 2 0
    let op := stepOp (immBits c.form.imm 6 3)
    let a := rd32 c.team L c.form 1
    wr32 c.team L c.form
      (match partnerHalf c.act d L with
       | [] => a
       | p :: _ => if upperHalf d L then op (rd32 c.team p c.form 1) a else op a (rd32 c.team p c.form 1)) t

/-- SCANSTEP (07 R200): the highest Active lane of the lower half. -/
def execScanstep (o : L64) (s : State) : Host.Outcome State Fault Refusal :=
  laneInstr (.scanstep o) s fun c L t =>
    let d := 2 ^ immBits c.form.imm 2 0
    let op := stepOp (immBits c.form.imm 6 3)
    let a := rd32 c.team L c.form 1
    wr32 c.team L c.form
      (match (if upperHalf d L then (partnerHalf c.act d L).getLast? else none) with
       | none => a
       | some p => op (rd32 c.team p c.form 1) a) t

end Sys2Proof.Machine
end

