-- ==== Sys2Proof/Machine/SysReg.lean ====
section
/-! DEFINITION. System registers: SREAD and SWRITE (05 R143 to R145; 07 R182; 12 R309; 17 R382). -/
namespace Sys2Proof.Machine

/-- FEATURES of the identity block (02 R47). -/
def featuresReg : Nat := 0x1FFF

/-- The value of system register `n` as seen by lane `L` of team `tn` (05 R143). -/
def State.sysRead (s : State) (tn L n : Nat) : Nat :=
  let t := s.team tn
  let l := t.lane L
  let k := s.block t.block
  let nd := s.nodeOf t.block
  let th := t.thread L
  if n = 0x000 then 64
  else if n = 0x001 then L
  else if n = 0x002 then (k.teams.length - 1) % 16 * 65536 + t.index % 16
  else if n = 0x003 then th % 1024
  else if n = 0x004 then nd.tprl * 2 ^ 24 + th % 2 ^ nd.tprl * 2 ^ 16 + th / 2 ^ nd.tprl % 1024
  else if n = 0x005 then if nd.depnode then 0 else k.records.length
  else if n = 0x006 then nd.shape.toNat
  else if n = 0x007 then dieOfCore t.core * 2 ^ 24 + clusterOfCore t.core * 2 ^ 16 + t.core
  else if n = 0x008 then (s.nodeid t.block).toNat
  else if n = 0x009 then (s.jobid t.block).toNat
  else if n = 0x00A then (s.runid t.block).toNat
  else if n = 0x010 then k.vbase.toNat
  else if n = 0x012 then nd.vaultb
  else if n = 0x013 then nd.privb
  else if n = 0x018 then (s.core t.core).tags.toNat
  else if n = 0x01C then t.insns.toNat
  else if n = 0x01D then t.fair.toNat
  else if n = 0x01E then s.cycle.toNat
  else if n = 0x020 then featuresReg
  else if n = 0x100 then l.tpc.toNat
  else if n = 0x102 then l.tnext.toNat
  else if n = 0x104 then l.tstatus.toNat
  else if n = 0x105 then l.tinfo.toNat
  else if n = 0x106 then l.taddr.toNat
  else if n = 0x108 then k.taskid.toNat
  else if n = 0x10A then k.abase.toNat
  else if 0x140 ≤ n ∧ n ≤ 0x153 then k.events.get 0 (n - 0x140)
  else 0

/-- SREAD (07 R182): every register is read at the start of the issue cycle. -/
def execSread (o : S32) (s : State) : Host.Outcome State Fault Refusal :=
  laneInstr (.sread o) s fun c L t =>
    let n := c.form.a.field.toNat
    let v := s.sysRead c.iss.team L n
    if sysSize n = some 8 then wr64 c.team L c.form (BitVec.ofNat 64 v) t
    else wr32 c.team L c.form (BitVec.ofNat 32 v) t

/-- SWRITE (07 R182): FAIR is per team, from the lowest Active lane; TPC and TSTATUS are per lane. Reserved bits of the
value are ignored (05 R144). -/
def execSwrite (o : S32) (s : State) : Host.Outcome State Fault Refusal :=
  runInstr (.swrite o) s fun c => teamEffect s c fun m =>
    let n := c.form.d.field.toNat
    let t :=
      if n = 0x01D then { c.team with fair := (rd32 c.team m c.form 1).setWidth 16 }
      else if n = 0x100 then
        c.team.mapLanes c.act fun L l => { l with tpc := rd64 c.team L c.form 1 &&& ~~~(3 : Dbl) }
      else c.team.mapLanes c.act fun L l => { l with tstatus := rd32 c.team L c.form 1 }
    { st := s.setTeam c.iss.team t }

end Sys2Proof.Machine
end

