-- ==== Sys2Proof/Machine/Device.lean ====
section
/-! DEFINITION. The device as a whole: bring-up and resets, clocks, firmware, attestation, the watchdog, ECC and link events
(01 R24, R30 to R37; 03 R93 to R96; 18 R417). -/
namespace Sys2Proof.Machine

/-- The functions: the PF and 192 VFs (01 R26). -/
def allFunctions : List Nat := List.range 193

/-- Set bits of MBEVT in every function (03 R93, R95). -/
def State.eventAll (s : State) (bits : Word) : State :=
  allFunctions.foldl (fun s f => s.setFunc f { s.func f with mbEvt := (s.func f).mbEvt ||| bits }) s

/-- Black-box data of 32-bit fields, in order. (Log 62, DEDUCED.) -/
def bbFields (l : List Nat) : Nat := l.foldr (fun x acc => x % 2 ^ 32 + 2 ^ 32 * acc) 0

/-! ### Bring-up and resets (01 R31 to R33) -/

/-- Extend a measurement register with a stage image (01 R36): M becomes SHA-384(M ‖ SHA-384(image)).
(Log 7, DESIGN CHOICE.) -/
def State.measure (s : State) (i : Nat) (image : List Byte) : State :=
  let bytes (v : BitVec 384) : List Byte := (List.range 48).map fun k => v.extractLsb' (8 * k) 8
  let m := s.dev.meas.get 0 i
  { s with dev := { s.dev with meas := s.dev.meas.set 0 i (Config.sha384 (bytes m ++ bytes (Config.sha384 image))) } }

/-- The device halts with a code (01 R32). -/
def State.haltDevice (s : State) (code : Nat) : State :=
  { s with dev := { s.dev with stage := 0xFF, haltcode := BitVec.ofNat 8 code } }.bbEvent 0 0x0A code

/-- A firmware image passes the checks of 01 R35 but the rollback check. -/
def fwGenuine (img : List Byte) : Bool := Config.fwSigned img && Config.fwDigest img

/-- HALTCODE of a failure that an agent meets in a stage: a training or test failure where the stage trains or tests, an
identity key that cannot be read at any (01 R30, R32). -/
def haltFits (stage code : Nat) : Bool := (code == 3 && stage == 2) || (code == 4 && 2 ≤ stage) || code == 5

/-- Why bring-up halts at the end of a stage, 0 for no reason: stages 0x00 and 0x01 load images, which 01 R35 may refuse; else
what the stage met. HALTCODE of a signature refused at stage 0x01 is not stated. (Log 78, DEDUCED; log 114, DESIGN CHOICE.) -/
def State.stageFails (s : State) (code : Nat) : Nat :=
  let img (i : Nat) := Config.bootImage i
  let old (i : Nat) : Bool := (Config.fwFields (img i)).2.2 < s.dev.fuse
  if s.dev.stage = 0 && !fwGenuine (img 1) then 1
  else if s.dev.stage = 0 && old 1 then 2
  else if s.dev.stage = 1 && !fwGenuine (img 5) then 1 + Config.freePick s.stamp 0 % 255
  else if s.dev.stage = 1 && old 5 then 2
  else if haltFits s.dev.stage.toNat code then code
  else 0

/-- The scheduler's cores, 1 to 7, run in S mode, or stand reset; core 0 is the monitor's (03 R81, R93). -/
def State.setScheduler (s : State) (up : Bool) : State :=
  let c : NolleCore := { mode := .scheduler, up := up }
  { s with dev := { s.dev with
    schedulerUp := up
    nolle := (List.range 7).foldl (fun m i => SMap.set m {} (i + 1) c)
      (s.dev.nolle.set {} 0 { mode := .monitor, up := true }) } }

/-- The work of a stage is done (01 R32). The register of a firmware stage is that of the STAGE its agent brings up: the
monitor 1, the scheduler 5. (Log 45, DESIGN CHOICE; log 78, DEDUCED.) -/
def State.stageWork (s : State) : State :=
  match s.dev.stage.toNat with
  | 0 => s.measure 1 (Config.bootImage 1)
  | 1 => s.measure 5 (Config.bootImage 5)
  | 2 => { s with hbm := [], gens := [] }
  | 3 => { s with vaults := [] }
  | _ =>
    let f := Config.fwFields (Config.bootImage 5)
    { s with
      cycle := 0, reserved := Config.bootReserved
      dev := { s.dev with fwver := f.1, savelayout := f.2.1, secver := f.2.2 } }.setScheduler true

/-- BOOT_STAGE_COMPLETE (01 R32): the agent of the stage ends its work, successfully unless the stage fails, and STAGE advances; a
failure halts the device. (Log 78, DEDUCED.) -/
def execBootStageComplete (haltcode : Nat) (s : State) : Host.Outcome State Fault Refusal :=
  if 5 ≤ s.dev.stage.toNat || s.dev.railsOff then .next s
  else
    let c := s.stageFails haltcode
    if c ≠ 0 then .next (s.haltDevice c)
    else
      let s' := s.stageWork
      .next { s' with dev := { s'.dev with stage := s.dev.stage + 1 } }

/-- All device state returns to its value at reset; the fuses, the other agents' memory and the model's own order of turns
stay. (Log 79, DEDUCED.) -/
def State.restart (s : State) : State :=
  { State.reset with
    agenda := s.agenda, stamp := s.stamp, host := s.host, remote := s.remote, raised := s.raised, sent := s.sent
    dev := { State.reset.dev with fuse := s.dev.fuse } }

/-- COLD_RESET (01 R32): bring-up starts at stage 0x00 with all device state cleared. (Log 79, DEDUCED.) -/
def execColdReset (s : State) : Host.Outcome State Fault Refusal := .next s.restart

/-- WARM_RESET (01 R33, R433): as bring-up, but the black boxes keep their contents, of which one entry may be cut
off; HBM and vaults are written zero in their
stages. (Log 79, DEDUCED.) -/
def execWarmReset (s : State) : Host.Outcome State Fault Refusal :=
  let t := s.restart
  let t := { t with hbm := s.hbm, vaults := s.vaults, dev := { t.dev with boots := s.dev.boots + 1 } }
  .next ((List.range 4).foldl (fun t d =>
    t.setYard d { t.yard d with bbox := s.cutEntry d, bbhead := (s.yard d).bbhead }) t)

/-! ### Clocks (01 R24) -/

/-- Set the core and fabric clocks. -/
def State.setClocks (s : State) (core fabric : Nat) : State :=
  let s := { s with dev := { s.dev with fabricMHz := fabric } }
  (List.range 4).foldl (fun s d => s.setYard d { s.yard d with coreMHz := core }) s

/-- A thermal event in the black box: die temperatures, new core clock. (Log 77, DESIGN CHOICE.) -/
def State.thermalEvent (s : State) (temps : List Nat) (clock : Nat) : State :=
  s.bbEvent 0 0x04 (bbFields ((List.range 4).map (temps.getD · 0) ++ [clock]))

/-- THERMAL_STEP (01 R24): above 100 °C the clocks fall by 100 MHz steps until every die is at or below 95 °C, then they
are restored step by step. Steps below 100 MHz leave a clock at 0. (Log 115, DESIGN CHOICE.) -/
def execThermalStep (temps : List Nat) (s : State) : Host.Outcome State Fault Refusal :=
  let core := (s.yard 0).coreMHz
  let fabric := s.dev.fabricMHz
  let lower := (temps.any fun t => 100 < t) || (s.dev.throttling && temps.any fun t => 95 < t)
  let s1 := { s with dev := { s.dev with throttling := lower } }
  if s.dev.railsOff then .next s
  else if lower then .next ((s1.setClocks (core - 100) (fabric - 100)).thermalEvent temps (core - 100))
  else if core < 1200 || fabric < 2400 then
    .next ((s1.setClocks (min 1200 (core + 100)) (min 2400 (fabric + 100))).thermalEvent temps (min 1200 (core + 100)))
  else .next s1

/-- THERMAL_TRIP (01 R24): a die at 115 °C makes hardware remove the core rails; the new clock of its event is not stated.
(Log 77, DESIGN CHOICE.) -/
def execThermalTrip (temps : List Nat) (s : State) : Host.Outcome State Fault Refusal :=
  if temps.any fun t => 115 ≤ t then
    .next ({ s with dev := { s.dev with railsOff := true } }.thermalEvent temps (Config.freePick s.stamp 0))
  else .next s

/-! ### The watchdog (03 R93) -/

/-- Steps 1 and 2 of 03 R93: the scheduler is down. DATA counts the queues whose control block is lost.
(Log 80, DEDUCED.) -/
def State.schedulerDown (s : State) : State :=
  let lost := s.queues.filter fun q => q.2.created && !q.2.copyA.valid && !q.2.copyB.valid
  (s.setScheduler false).bbEvent 0 0x05 lost.length

/-- The copy of a control block that a restart uses (03 R93). (Log 55, DEDUCED.) -/
def Queue.useCopy (x : Queue) : Option QCopy :=
  if x.copyA.valid then
    if x.copyB.valid && seqNewer x.copyB.seq x.copyA.seq then some x.copyB else some x.copyA
  else if x.copyB.valid then some x.copyB
  else none

/-- A queue rebuilt from its control block (03 R93). (Log 55, DEDUCED.) -/
def Queue.rebuild (x : Queue) : Queue :=
  match x.useCopy with
  | none => if x.created then { x with err := true, waitvalid := false, blocked := false, takeable := false } else x
  | some c =>
    { x with
      created := c.qstate != 0, err := c.qstate == 2, ringbase := c.ringbase, headmir := c.headmir,
      owner := natBits c.cfg.toNat 31 16, vector := natBits c.cfg.toNat 15 8, log2 := natBits c.cfg.toNat 4 0 }

/-- The effect of a QCREATE or QDESTROY that the reset cut off is wholly present or wholly absent (03 R93): the queue of the command
as the command leaves it, if it is present. Of any other command it is absent. (Log 80, DEDUCED; log 135, DESIGN CHOICE.) -/
def State.cutCommand (s : State) (f : Nat) : State :=
  let done (o : Host.Outcome State Fault Refusal) : State :=
    match o with
    | .next t => { s with queues := t.queues }
    | _ => s
  if !(s.func f).mbBusy || Config.freePick s.stamp f % 2 = 0 then s
  else match (s.func f).mbCmd with
    | 1 => done (execQcreate f s)
    | 2 => done (execQdestroy f s)
    | _ => s

/-- The scheduler restarts: queues are rebuilt, commands in progress return RESTART, MBEVT.RESTART is set everywhere.
(Log 80, DEDUCED.) -/
def State.schedulerRestart (s : State) : State :=
  let s := allFunctions.foldl State.cutCommand (s.setScheduler true)
  let s := { s with queues := s.queues.map fun (q : Nat × Queue) => (q.1, q.2.rebuild) }
  let s := allFunctions.foldl (fun s f => if (s.func f).mbBusy then s.mbDone f 0x0008 none else s) s
  s.eventAll 2

/-- WATCHDOG_RESTART (03 R93): the monitor resets the scheduler's cores; while the scheduler is down, the next such step
restarts it. (Log 80, DEDUCED.) -/
def execWatchdogRestart (s : State) : Host.Outcome State Fault Refusal :=
  if s.dev.stage ≠ 5 then .next s
  else if s.dev.schedulerUp then .next s.schedulerDown
  else .next s.schedulerRestart

/-! ### Firmware (03 R94 to R96) -/

/-- The bytes of a device access of the PF. (Log 72, DEDUCED.) -/
def State.devBytes (s : State) (f a n : Nat) : Option (List Byte) :=
  if s.devPagesOk f .read a n then
    (s.devRead f a n).map fun v => (List.range n).map fun i => BitVec.ofNat 8 (v / 2 ^ (8 * i))
  else none

/-- Write bytes on a function's behalf, line by line. -/
def State.devWriteBytes (s : State) (f a : Nat) (bs : List Byte) (c : Nat) : State :=
  match c with
  | 0 => s
  | c' + 1 =>
    match bs with
    | [] => s
    | _ =>
      let n := min bs.length (64 - a % 64)
      let v := (bs.take n).foldr (fun b acc => b.toNat + 256 * acc) 0
      ((s.devWrite f a n v).getD s).devWriteBytes f (a + n) (bs.drop n) c'

/-- The black-box event of an activation or refusal: running version, image version, result. (Log 81, DEDUCED.) -/
def State.fwEvent (s : State) (ver : Word) (result : Nat) : State :=
  s.bbEvent 0 0x06 (bbFields [s.dev.fwver.toNat, ver.toNat, result])

/-- FWSTAGE (03 R94): an image that passes 01 R35 becomes the staged image.
(Log 7, DESIGN CHOICE; log 72, DEDUCED; log 81, DEDUCED.) -/
def execFwstage (s : State) : Host.Outcome State Fault Refusal :=
  if !s.mbHas 0 0x10 then .next s
  else
    let v := s.func 0
    let a := v.mbArg0.toNat
    let n := v.mbArg1.toNat
    if !s.devRoom 0 a n then .next s else
    let s1 := s.devReach 0 a n
    match s1.devBytes 0 a n with
    | none => .next (s.mbDone 0 0x0002 none)
    | some img =>
      let f := Config.fwFields img
      if !(Config.fwSigned img && Config.fwDigest img) then .next ((s1.fwEvent f.1 4).mbDone 0 0x0004 none)
      else if f.2.2 < s.dev.fuse then .next ((s1.fwEvent f.1 5).mbDone 0 0x0005 none)
      else
        let im : FwImage := { ver := f.1, layout := f.2.1, sec := f.2.2, image := img }
        .next ({ s1 with dev := { s1.dev with staged := some im } }.mbDone 0 0 none)

/-- FWFUSE (03 R94): the fuses rise to the running firmware's security version. -/
def execFwfuse (s : State) : Host.Outcome State Fault Refusal :=
  if !s.mbHas 0 0x12 then .next s
  else .next ({ s with dev := { s.dev with fuse := max s.dev.fuse s.dev.secver } }.mbDone 0 0 none)

/-- Layouts from which firmware of layout `n` converts (03 R95). -/
def layoutOk (n old : Nat) : Bool := old == n || old + 1 == n || old + 2 == n

/-- A save is in progress: a running block has a saved team (03 R95). (Log 74, DEDUCED.) -/
def State.saveInProgress (s : State) : Bool :=
  s.blocks.any fun b => b.2.place == .running && b.2.teams.any fun tn => (s.team tn).saved

/-- Some save image has a layout that the staged firmware does not convert (03 R95). (Log 74, DEDUCED.) -/
def State.saveBlocks (s : State) (layout : Nat) : Bool :=
  s.blocks.any fun b => b.2.place == .saved && !layoutOk layout b.2.saveLayout

/-- Steps 3 to 5 of 03 R95. (Log 74, DEDUCED.) -/
def State.switchFirmware (s : State) (im : FwImage) : State :=
  { s with dev := { s.dev with savelayout := im.layout, fwver := im.ver, secver := im.sec, staged := none } }

/-- FWACTIVATE (03 R95, R96); a refusal is written to the black box too (18 R417). (Log 74, DEDUCED; log 81, DEDUCED.) -/
def execFwactivate (w : WatchdogMeet) (s : State) : Host.Outcome State Fault Refusal :=
  if !s.mbHas 0 0x11 then .next s
  else match s.dev.staged with
  | none => .next ((s.fwEvent 0 2).mbDone 0 0x0002 none)
  | some im =>
    if s.saveInProgress then .next s
    else if s.saveBlocks im.layout.toNat then .next ((s.fwEvent im.ver 3).mbDone 0 0x0003 none)
    else match w with
    | .none =>
      let s1 := ((s.measure 5 im.image).switchFirmware im).eventAll 4
      .next ((s1.fwEvent im.ver 0).mbDone 0 0 none)
    | .beforeSwitch =>
      let s1 := if Config.freePick s.stamp 0 % 2 = 0 then s else s.measure 5 im.image
      .next s1.schedulerDown.schedulerRestart
    | .afterSwitch =>
      let s1 := ((s.measure 5 im.image).switchFirmware im).fwEvent im.ver 8
      .next s1.schedulerDown.schedulerRestart

/-! ### Identity and attestation (01 R30, R37) -/

/-- The lowest partition of a function, 0xFF for none (01 R30, R433). -/
def State.lowestPartition (s : State) (f : Nat) : Nat :=
  if f = 0 then 0xFF
  else ((List.range 40).find? fun p => (s.pf.partown.get 0xFF p).toNat == f).getD 0xFF

/-- The 64 bytes of the identity block as function `f` reads it, as a number (01 R30). (Log 73, DEDUCED.) -/
def State.identity (s : State) (f : Nat) : Nat :=
  0x3830412D34585A4F + 0x4230 * 2 ^ 64 + 0x04284840 * 2 ^ 96 + featuresReg * 2 ^ 128 + Config.serial.toNat * 2 ^ 192 +
  s.dev.fwver.toNat * 2 ^ 256 + s.dev.savelayout.toNat * 2 ^ 288 + 512 * 2 ^ 320 +
  (s.lowestPartition f * 2 ^ 16 + f) * 2 ^ 352 + (s.dev.haltcode.toNat * 2 ^ 8 + s.dev.stage.toNat) * 2 ^ 384

/-- The low `n` bytes of a number. -/
def bytesOf (v n : Nat) : List Byte := (List.range n).map fun i => BitVec.ofNat 8 (v / 2 ^ (8 * i))

/-- The attestation report for a nonce (01 R37), captured at one instant: each signature covers all that stands before it. (Log
7, DESIGN CHOICE; log 73, DEDUCED.) -/
def State.report (s : State) (nonce : List Byte) : List Byte :=
  let body := nonce ++ bytesOf (s.identity 0) 64 ++
    ((List.range 8).map fun i => bytesOf (s.dev.meas.get 0 i).toNat 48).flatten ++ bytesOf s.dev.fuse 8 ++ Config.certificate
  let signed := body ++ Config.signEd25519 body
  signed ++ Config.signMlDsa signed

/-- ATTEST (01 R37): by the management sideband with its nonce, or by the PF's mailbox.
(Log 72, DEDUCED; log 73, DEDUCED.) -/
def execAttest (nonce : Option (List Byte)) (s : State) : Host.Outcome State Fault Refusal :=
  match nonce with
  | some b =>
    if b.length = 32 then .next { s with dev := { s.dev with sideband := s.report b } } else .next s
  | none =>
    if !s.mbHas 0 0x13 then .next s
    else
      let a := (s.func 0).mbArg0.toNat
      let d := (s.func 0).mbArg1.toNat
      if !s.devRoom 0 a 32 then .next s else
      let s1 := s.devReach 0 a 32
      match s1.devBytes 0 a 32 with
      | none => .next (s.mbDone 0 0x0002 none)
      | some b =>
        let r := s1.report b
        if s1.devPagesOk 0 .write d r.length then .next ((s1.devWriteBytes 0 d r r.length).mbDone 0 0 none)
        else .next (s1.mbDone 0 0x0002 none)

/-! ### ECC and links (18 R417) -/

/-- UNCORRECTED_ECC (01 R20; 18 R417): a corrected error is counted, an uncorrected one is written to the black box. -/
def execUncorrectedEcc (die struc : Nat) (addr : Dbl) (corrected : Bool) (s : State) : Host.Outcome State Fault Refusal :=
  if corrected then .next (s.setYard die { s.yard die with corrected := (s.yard die).corrected + 1 })
  else .next (s.bbEvent die 0x09 (struc % 2 ^ 32 + addr.toNat * 2 ^ 32))

/-- The PF enables or disables a port, and UALinkSec on it (01 R28, R32): from stage 0x05 on; a port that is disabled is down.
(Log 116, DESIGN CHOICE.) -/
def State.portEnable (s : State) (port : Nat) (on sec : Bool) : State :=
  if s.dev.stage ≠ 5 || 16 ≤ port then s
  else
    let put (m : BitVec 16) (b : Bool) : BitVec 16 := if b then m ||| (1 <<< port) else m &&& ~~~((1 : BitVec 16) <<< port)
    { s with
      dev := { s.dev with portOn := put s.dev.portOn on, portSec := put s.dev.portSec sec }
      ports := if on then s.ports else s.ports.set 0 port 0 }

/-- LINK_RESET (01 R28, R32; 18 R417): a port goes down, or comes up if the PF has enabled it at stage 0x05, and the black box
holds port, cause and last sequence numbers. -/
def execLinkReset (port : Nat) (up : Bool) (cause seqs : Nat) (s : State) : Host.Outcome State Fault Refusal :=
  if 16 ≤ port || (up && (s.dev.stage != 5 || !s.dev.portOn.getLsbD port)) then .next s
  else .next ({ s with ports := s.ports.set 0 port (if up then 1 else 0) }.bbEvent 0 0x03
    (port + cause % 2 ^ 32 * 2 ^ 32 + seqs % 2 ^ 64 * 2 ^ 64))

end Sys2Proof.Machine
end

