-- ==== Sys2Proof/Machine/PreemptEvents.lean ====
section
/-! DEFINITION. Requests of pre-emption and of the cut, and the reset of a function (17 R398, R402 to R404). -/
namespace Sys2Proof.Machine

/-- Running blocks of a function, or of one of its jobs. -/
def State.runningOf (s : State) (f : Nat) (job : Option Nat) : List Nat :=
  (s.blocks.filter fun b => b.2.func == f && b.2.place == .running && job.all fun j => b.2.job == j).map (·.1)

/-- Running blocks receive a pre-emption request; one whose teams are all parked is saved at once (17 R398, R400). -/
def State.requestSave (s : State) (f : Nat) (job : Option Nat) : State :=
  (s.runningOf f job).foldl (fun s b => (s.setBlock b { s.block b with preempt := true }).blockSaved b) s

/-- PREEMPT_SAVE_FUNCTION (17 R398): no block of the function starts, and its running blocks are to be saved. -/
def execPreemptSaveFunction (f : Nat) (s : State) : Host.Outcome State Fault Refusal :=
  .next ((s.setFunc f { s.func f with held := true }).requestSave f none)

/-- PREEMPT_SAVE_JOB (17 R398). -/
def execPreemptSaveJob (f job : Nat) (s : State) : Host.Outcome State Fault Refusal :=
  let v := s.func f
  .next ((s.setFunc f { v with heldJobs := job :: v.heldJobs.filter (· != job) }).requestSave f (some job))

/-- PREEMPT_RESUME_FUNCTION (17 R398): the hold ends, and saved blocks may start again. (Log 91, DEDUCED.) -/
def execPreemptResumeFunction (f : Nat) (s : State) : Host.Outcome State Fault Refusal :=
  .next (s.setFunc f { s.func f with held := false })

/-- PREEMPT_RESUME_JOB (17 R398). (Log 91, DEDUCED.) -/
def execPreemptResumeJob (f job : Nat) (s : State) : Host.Outcome State Fault Refusal :=
  let v := s.func f
  .next (s.setFunc f { v with heldJobs := v.heldJobs.filter (· != job) })

/-- CUT (17 R402): every unit stops for the function, and its resident blocks are to be saved whole. A save in progress completes as a
full save, and its image is marked KIND 2 (R406). (Log 90, DEDUCED.) -/
def execCut (f : Nat) (s : State) : Host.Outcome State Fault Refusal :=
  let s := s.setFunc f { s.func f with cut := true }
  .next ((s.runningOf f none).foldl (fun s b =>
    let k := s.block b
    s.setBlock b (if k.preempt then { k with fullSave := true, saveKind := 2 } else { k with preempt := true })) s)

/-- Saved flits are delivered in the order of their sequence numbers; one at or below the last delivered is discarded (17 R403). -/
def State.deliverSaved (s : State) (f : Nat) (l : List CutFlit) : State :=
  l.foldl (fun s e =>
    if e.seq ≤ (s.func f).lastFlit then s
    else (s.setFunc f { s.func f with lastFlit := e.seq }).deliver (some f) e.flit) s

/-- After a cut a block goes on without a save, but one that has teams saved, or whose save is still asked for, is saved first. -/
def State.staysPreempted (s : State) (b : Nat) : Bool :=
  let k := s.block b
  let f := s.func k.func
  k.preempt && ((k.teams.any fun tn => (s.team tn).saved) || f.held || f.heldJobs.contains k.job)

/-- CUT_RESUME (17 R402, R403): the units of the function go on; saved flits are delivered ahead of anything new, and
waiting lists are served. (Log 92, DEDUCED.) -/
def execCutResume (f : Nat) (s : State) : Host.Outcome State Fault Refusal :=
  if !(s.func f).cut then .next s
  else
    let s1 : State := s.setFunc f { s.func f with cut := false }
    let s2 : State := { s1 with
      cutFlits := s1.cutFlits.filter fun e => e.func != f
      blocks := s1.blocks.map fun (b : Nat × Block) =>
        if b.2.func = f && b.2.place == Place.running then (b.1, { b.2 with preempt := s1.staysPreempted b.1 }) else b }
    let keys := (s2.stalls.filter fun (e : Nat × Stall) => (s2.run (keyRun e.1)).func == f).map fun (e : Nat × Stall) => e.1
    let s3 := s2.deliverSaved f (s1.cutFlits.filter fun e => e.func == f)
    let s4 := keys.foldl (fun s k => s.serveWaiting (keyRun k) (keyNode k)) s3
    let s5 := (s4.runs.filter fun r => r.2.func == f).foldl (fun s r => s.checkRun r.1) s4
    .next (s5.examineAll f)

/-- Copies or engine operations that a function's threads have issued are not over (17 R402). -/
def State.worksFor (s : State) (f : Nat) : Bool :=
  (s.cores.any fun c => c.2.copies.any fun k => (s.block k.2.block).func == f) || s.engines.any fun e => e.func == f

/-- A request of PREEMPT is complete (17 R398, R402): a cut's once every unit has stopped, where issued copies and engine operations
complete. -/
def State.preemptOver (s : State) : Bool :=
  let p := s.pf.preempt.toNat
  let f := natBits p 23 16
  match natBits p 30 28 with
  | 0 => s.runningOf f none == []
  | 1 => s.runningOf f (some (natBits p 15 0)) == []
  | 4 => ((s.runningOf f none).all fun b => (s.block b).teams.all fun tn => !(s.team tn).resident) && !s.worksFor f
  | _ => true

/-- GO of PREEMPT clears once its request is complete. -/
def State.preemptDone (s : State) : State :=
  if s.pf.preempt.getLsbD 31 && s.preemptOver then
    { s with pf := { s.pf with preempt := s.pf.preempt &&& 0x7FFFFFFF } }
  else s

/-! ### Reset of a virtual function (17 R404) -/

/-- A run of a function under reset writes no record, raises nothing and decrements nothing when it ends.
(Log 89, DEDUCED.) -/
def Packet.mute (p : Packet) : Packet :=
  { p with cpl := 0, hdr := p.hdr &&& 0xFF7FFFFF, ctrs := p.ctrs ||| 0xFFFF0000 }

/-- Discard every pair of the function; a region that loses a committed pair is TORN (17 R404 step 3). -/
def State.tearRegions (s : State) (f : Nat) : State :=
  let lost := s.pairs.filter fun p => p.func == f && !p.held
  let v := s.func f
  let regions := v.regions.map fun (r : Nat × Region) =>
    if lost.any fun p => p.region == r.1 then (r.1, { r.2 with rctl := r.2.rctl ||| (1 <<< 62) }) else r
  { s.setFunc f { v with regions := regions } with pairs := s.pairs.filter fun p => p.func != f }

/-- Step 4 of 17 R404: the function's own registers return to their reset values; TORN regions, the PF's registers, the
charges of runs still ending, holds and the policy stay. (Log 89, DEDUCED.) -/
def Func.reset (v : Func) : Func :=
  { qbase := v.qbase, qcount := v.qcount, dctrs := v.dctrs, stallq := v.stallq, predq := v.predq, runq := v.runq,
    weight := v.weight, share := v.share, newRoot := v.newRoot, useRun := v.useRun, useStall := v.useStall, usePred := v.usePred, policy := v.policy,
    policyMem := v.policyMem, lastFlit := v.lastFlit, policyFaults := v.policyFaults, override := v.override,
    takes := v.takes, ptroot := v.ptroot,
    privarena := v.privarena, privarsz := v.privarsz, waymask := v.waymask, held := v.held, heldJobs := v.heldJobs,
    regions := v.regions.filter fun r => r.2.rctl.getLsbD 62 }

/-- VF_RESET (17 R404, R406); a cut in force is abandoned, and no vector is raised, the event counters' neither.
(Log 89, DEDUCED.) -/
def execVfReset (f : Nat) (s : State) : Host.Outcome State Fault Refusal :=
  if f = 0 || 193 ≤ f then .next s
  else
    let s := s.setFunc f { s.func f with cut := false, evtctl := 0 }
    let s := { s with
      queues := s.queues.map fun (q : Nat × Queue) =>
        if q.2.owner = f && q.2.created then (q.1, q.2.freed) else q
      cutFlits := s.cutFlits.filter fun e => e.func != f
      posted := s.posted.filter fun (w : Posted) => w.func != f || w.kind == PostedKind.run
      runs := s.runs.map fun (r : Nat × Run) =>
        if r.2.func = f then (r.1, { r.2 with packet := r.2.packet.mute }) else r }
    let rs := (s.runs.filter fun r => r.2.func == f).map (·.1)
    let s := (s.jobs.filter fun j => j.func == f).foldl (fun s j => s.cancelUnits f j.job none) s
    let s := (s.cancelRuns rs).tearRegions f
    .next (s.setFunc f (s.func f).reset)

end Sys2Proof.Machine
end

