-- ==== Sys2Proof/Machine/Sync.lean ====
section
/-! DEFINITION. Barriers, DRAIN and BARRIER_ARRIVAL (16 R365 to R371). -/
namespace Sys2Proof.Machine

/-- Every Active lane begins an arrival: in deterministic mode its release's entry must have room (16 R365; 18 R415), one for all the
arrivals of a phase. -/
def arriveInstr (i : Instr) (s : State) (w : List Nat → Nat → Wait) : Host.Outcome State Fault Refusal :=
  runInstr i s fun c =>
    let b := c.form.d.field.toNat
    let faults := c.act.filterMap fun L =>
      (s.logNeed c.iss.team L (dieOfCore c.team.core) .order (if s.barOwes c.team.block b then 0 else 1)).map fun e => (L, e)
    let after := s.unacked c.iss.team
    let at' := c.act.filter fun L => (faults.lookup L).isNone
    { st := s.gives c.iss.team at', faults := faults, waits := at'.map fun L => (L, w after b), check := true }

/-- BAR (16 R366). -/
def execBar (o : S32) (s : State) : Host.Outcome State Fault Refusal := arriveInstr (.bar o) s fun a b => .arrive .bar b a
/-- BAR.ARV (16 R366): the lane goes on once its arrival is recorded. (Log 37, DEDUCED.) -/
def execBarArv (o : S32) (s : State) : Host.Outcome State Fault Refusal :=
  arriveInstr (.barArv o) s fun a b => .arrive .arv b a
/-- DRAIN (16 R371). -/
def execDrain (o : S32) (s : State) : Host.Outcome State Fault Refusal := arriveInstr (.drain o) s fun a b => .drain b a

/-- BAR.WAIT (16 R366): a lane that has arrived in this phase waits; any other continues, which is an acquire (11 R280). -/
def execBarWait (o : S32) (s : State) : Host.Outcome State Fault Refusal :=
  runInstr (.barWait o) s fun c =>
    let b := c.form.d.field.toNat
    let wait := c.act.filter fun L => (c.block.bar b).arrived (c.team.thread L)
    let go := c.act.filter fun L => !wait.contains L
    let s := if go = [] then s else (s.acquire c.team.core).learnNow c.iss.team go (c.block.bar b).last
    { st := s, waits := wait.map fun L => (L, .barWait b), check := true }

/-- The drain condition (16 R371). -/
def Team.drained (t : Team) : Bool := t.stc == 0 && t.cpc == 0 && t.emc == 0

/-- Record the arrival of a lane at a barrier: a BAR.ARV lane goes on, which is an acquire, another waits for the phase (16 R366).
(Log 37, DEDUCED.) -/
def State.recordArrival (s : State) (tn L : Nat) (kind : BarKind) (b : Nat) : State :=
  let t := s.team tn
  let k := s.block t.block
  let bar := k.bar b
  let l := t.lane L
  let s := s.setBlock t.block (k.setBar b { bar with
    arr := bar.arr ||| (1 <<< t.thread L), clock := bar.clock.join l.gave })
  let s := if kind = .arv then s.acquire t.core else s
  let s := s.setTeam tn (t.setLane L (match kind with
    | .arv => l.release 1
    | _ => { l with st := .waiting (.phase b) })).refresh
  (s.checkBar t.block b).checkDead tn

/-- BARRIER_ARRIVAL (16 R365, R371): the arrival is recorded once the team's earlier writes are acknowledged, the lane's
bit of an earlier phase is clear, and, for a DRAIN, the team's counters are zero. (Log 37, DEDUCED.) -/
def execBarrierArrival (tn L : Nat) (s : State) : Host.Outcome State Fault Refusal :=
  let t := s.team tn
  let k := s.block t.block
  match (t.lane L).st with
  | .waiting (.arrive kind b after) =>
    if s.acked after && !(k.bar b).arrived (t.thread L) && k.place == .running then .next (s.recordArrival tn L kind b)
    else .next s
  | .waiting (.drain b after) =>
    if !t.drained then .next s
    else if s.acked after && !(k.bar b).arrived (t.thread L) && k.place == .running then
      .next (s.recordArrival tn L .drain b)
    else .next ((s.setTeam tn (t.setLane L { t.lane L with st := .waiting (.arrive .drain b after) })).checkDead tn)
  | _ => .next s

/-- Lanes that wait for the drain condition pass it at the moment at which it holds (16 R371). -/
def State.drainPass (s : State) (tn : Nat) : State :=
  let t := s.team tn
  let ls := laneList.filter fun L => (t.lane L).waitsAt fun w => match w with | .drain _ _ => true | _ => false
  if ls = [] || !t.drained || (s.func (s.block t.block).func).cut then s
  else
    (s.setTeam tn (t.mapLanes ls fun _ l =>
      match l.st with
      | .waiting (.drain b after) => { l with st := .waiting (.arrive .drain b after) }
      | _ => l)).checkDead tn

/-- The drain condition is evaluated for every team. -/
def State.drainAllTeams (s : State) : State := s.teams.foldl (fun s t => s.drainPass t.1) s

end Sys2Proof.Machine
end

