-- ==== Sys2Proof/Machine/Readback.lean ====
section
/-! DEFINITION. The read-back window (18 R418, R419, R435). -/
namespace Sys2Proof.Config
open Sys2Proof.Machine

/-- A generator context and its staged items, as the Nolle Firmware Release Notes of a SAVELAYOUT lay them out: by layout, and the
offset (18 R435; log 93, DESIGN CHOICE). -/
opaque generatorImage : Nat → Walker → Nat → BitVec 512
/-- The state of a Yard as those notes lay it out: its layout; its stalls with their waiting lists; the blocks in its bays; the runs
that it is a home of, with their graph copies and counters; the offset. -/
opaque yardImage : Nat → List (Nat × Stall) → List (Nat × Block) → List (Nat × Run) → Nat → BitVec 512
/-- A pen's bins, and the held pairs of its lines: by layout, pairs and offset. -/
opaque penImage : Nat → List Pair → Nat → BitVec 512
/-- The corrected-error counts of a die: by layout, the count and offset. -/
opaque correctedImage : Nat → Nat → Nat → BitVec 512
/-- Barrier state, event counters and generator contexts in a save image: by layout, the barriers, the counters, the contexts and
the offset (17 R401). -/
opaque blockImage : Nat → List (Nat × Barrier) → List (Nat × Nat) → List (Option Walker) → Nat → BitVec 512

end Sys2Proof.Config

namespace Sys2Proof.Machine

/-- Sixteen 32-bit words, the first lowest. -/
def words16 (f : Nat → Nat) : BitVec 512 :=
  BitVec.ofNat 512 ((List.range 16).foldr (fun i acc => f i % 2 ^ 32 + 2 ^ 32 * acc) 0)

/-- Word `i` of a number. -/
def wordAt (v i : Nat) : Nat := v / 2 ^ (32 * i) % 2 ^ 32

/-- The lane byte of a team image (18 R435). -/
def Lane.byte (l : Lane) : Nat :=
  (match l.st with
    | .ready => 0
    | .waiting _ => 1
    | .exited => 2) + (if l.pend then 4 else 0) + if l.trap then 8 else 0

/-- The trap state of a lane, 32 bytes (18 R435). -/
def Lane.trapImage (l : Lane) : Nat :=
  l.tpc.toNat + l.tnext.toNat * 2 ^ 64 + l.taddr.toNat * 2 ^ 128 + l.tstatus.toNat * 2 ^ 192 + l.tinfo.toNat * 2 ^ 224

/-- The counters of a team record from 0x7A0 (18 R435). -/
def Team.counters (t : Team) : Nat :=
  t.insns.toNat + t.fcnt % 2 ^ 16 * 2 ^ 16 + t.fair.toNat * 2 ^ 32 + t.ldc % 256 * 2 ^ 48 + t.stc % 256 * 2 ^ 56 +
  t.cpc % 256 * 2 ^ 64 + t.tlc % 256 * 2 ^ 72 + t.emc % 2 ^ 16 * 2 ^ 80 + t.eseq.toNat * 2 ^ 96

/-- An accumulator element, 128 bytes: VAL in bytes 0 to 79, TAG in byte 80 (18 R435). -/
def AccElem.image (e : AccElem) : Nat := (e.val % 2 ^ 640).toNat + e.tag % 4 * 2 ^ 640

/-- The word of a team image at byte offset `o` (18 R435). -/
def Team.imageWord (t : Team) (o : Nat) : Nat :=
  let w := o / 4
  if o < 0x200 then wordAt (t.lane (w / 2)).pc.toNat (w % 2)
  else if o < 0x240 then ((List.range 4).map fun i => (t.lane (o - 0x200 + i)).byte * 256 ^ i).sum
  else if o < 0x640 then (t.xreg ((o - 0x240) % 256 / 4) ((o - 0x240) / 256)).toNat
  else if o < 0x740 then (t.wreg ((o - 0x640) / 4)).toNat
  else if o < 0x7A0 then wordAt (t.kreg ((o - 0x740) / 8)).toNat (w % 2)
  else if o < 0x7B0 then wordAt t.counters ((o - 0x7A0) / 4)
  else if o < 0x800 then 0
  else if o < 0x1000 then wordAt (t.lane ((o - 0x800) / 32)).trapImage ((o - 0x800) % 32 / 4)
  else if o < 0x21000 then
    let p := o - 0x1000
    (t.vreg (p % 256 / 4) (16 * (p / 0x1000) + p % 0x1000 / 256)).toNat
  else
    let p := o - 0x21000
    let e := p % 0x20000 / 128
    wordAt (t.elem (p / 0x20000) (e / 32) (e % 32)).image (p % 128 / 4)

/-- The team in a resident slot. -/
def State.teamIn (s : State) (core slot : Nat) : Option Nat :=
  (s.teams.find? fun t => t.2.resident && t.2.core == core && t.2.slot == slot).map (·.1)

/-- A range-lock entry, 32 bytes (18 R435). -/
def RangeLock.image (l : RangeLock) : Nat :=
  let win := if l.vault then 1 else if l.priv then 2 else 0
  l.first + l.last * 2 ^ 64 + (1 + (if l.dst then 2 else 0) + win * 4 + l.func % 256 * 2 ^ 16) * 2 ^ 128

/-- Bytes `o` to `o` + 63 of a core's tables (18 R435). -/
def Core.tableImage (c : Core) (o : Nat) : BitVec 512 :=
  words16 fun i =>
    let p := o + 4 * i
    if p < 0x800 then
      match c.locks.find? fun l => l.slot == p / 32 with
      | some l => wordAt l.image (p % 32 / 4)
      | none => 0
    else if p < 0x808 then wordAt c.tags.toNat ((p - 0x800) / 4)
    else if p < 0x840 then 0
    else
      match c.tagErrs.find? fun e => e.tag == (p - 0x840) / 16 with
      | some e => wordAt (e.code % 256 + e.addr.toNat * 2 ^ 64) ((p - 0x840) % 16 / 4)
      | none => 0

/-- A control-block copy, 64 bytes (03 R91). -/
def QCopy.full (c : QCopy) : Nat := c.image % 2 ^ 448 + c.seq.toNat * 2 ^ 448 + c.check.toNat * 2 ^ 480

/-- A queue's read-back bytes (18 R435). -/
def Queue.readImage (x : Queue) (o : Nat) : BitVec 512 :=
  if o = 0 then BitVec.ofNat 512 x.copyA.full
  else if o = 0x40 then BitVec.ofNat 512 x.copyB.full
  else BitVec.ofNat 512 (x.head % 2 ^ 64 + x.tail % 2 ^ 64 * 2 ^ 64 + x.qstat % 2 ^ 32 * 2 ^ 128)

/-- The entry at a place of a black box; zero where none was written (18 R417). -/
def Yard.bbAt (y : Yard) (p : Nat) : BitVec 512 :=
  let back := (y.bbhead.toNat + 1024 - 1 - p) % 1024
  if y.bbhead.toNat ≤ back then 0 else y.bbox.getD (y.bbox.length - 1 - back) 0

/-- The ranges of the read-back list: it ends at the first entry whose SIZE is 0, and a range resized to 0 is no range
(18 R435). -/
def State.reservedList (s : State) : List (Nat × Nat × Nat × Nat) := s.reserved.filter fun r => r.2.1 != 0

/-- The list of reserved ranges, as 32-byte entries (18 R435). -/
def State.reservedImage (s : State) (o : Nat) : BitVec 512 :=
  let entry (i : Nat) : Nat := match s.reservedList[i]? with
    | some (b, n, k, d) => b + n * 2 ^ 64 + k % 2 ^ 32 * 2 ^ 128 + d % 2 ^ 32 * 2 ^ 160
    | none => 0
  BitVec.ofNat 512 (entry (o / 32) + entry (o / 32 + 1) * 2 ^ 256)

/-- The size of the save area of a die (18 R435). -/
def State.saveArea (s : State) (d : Nat) : Nat :=
  ((s.reserved.filter fun r => r.2.2.1 == 8 && r.2.2.2 == d).map fun r => r.2.1).sum

/-! ### The park, overflow and save areas (05 R134; 17 R401; 18 R435) -/

/-- The word at offset `p` of a context: register group g at 0x1000 · g, as written back (05 R134, R136). -/
def Team.contextWord (t : Team) (p : Nat) : Nat :=
  (t.vback.get 0 (512 * (p % 256 / 4) + 16 * (p / 0x1000) + p % 0x1000 / 256)).toNat

/-- Bytes of a team in a park area: its record and its accumulator slots. -/
def Node.parkSize (n : Node) : Nat := 4096 + 131072 * n.accs

/-- The word at offset `p` of a parked team's record and accumulator slots. -/
def Team.parkWord (t : Team) (p : Nat) : Nat := if p < 4096 then t.imageWord p else t.imageWord (0x21000 + (p - 4096))

/-- The parts of a save image after its header, in the order of 17 R401, each with its size and its word at an offset: team
records, accumulators, register groups, what the Release Notes lay out, the vault ranges. (Log 112, DESIGN CHOICE.) -/
def State.imageParts (s : State) (b : Nat) : List (Nat × (Nat → Nat)) :=
  let k := s.block b
  let n := s.nodeOf b
  let word (tn base p : Nat) : Nat := (s.team tn).imageWord (base + p)
  let ts := s.imageTeams b
  let extra (p : Nat) : BitVec 512 :=
    Config.blockImage k.saveLayout k.bars k.events (ts.map fun tn => (s.team tn).walk) (p / 64 * 64)
  (ts.map fun tn => (4096, word tn 0)) ++
  (ts.map fun tn => (131072 * n.accs, word tn 0x21000)) ++
  (ts.flatMap fun tn => (s.savedGroups tn).map fun g => (4096, word tn (0x1000 + 0x1000 * g))) ++
  [(Config.imageExtra ts.length, fun p => wordAt (extra p).toNat (p % 64 / 4))] ++
  ((k.imageRanges n.vaultb).map fun r => (r.2, fun p => Memory.read k.savedVault (r.1 + p) 4))

/-- The word at offset `p` of consecutive parts. -/
def partWord (l : List (Nat × (Nat → Nat))) (p : Nat) : Nat :=
  match l with
  | [] => 0
  | (n, w) :: r => if p < n then w p else partWord r (p - n)

/-- The word at offset `p` of a save image but its CHECK (17 R401). -/
def State.imageBody (s : State) (b p : Nat) : Nat :=
  let k := s.block b
  if p < 64 then
    match p / 4 with
    | 0 => k.saveLayout % 2 ^ 32
    | 1 => s.imageSize b % 2 ^ 32
    | 2 => wordAt k.taskid.toNat 0
    | 3 => wordAt k.taskid.toNat 1
    | 4 => wordAt (s.nodeOf b).featreq.toNat 0
    | 5 => wordAt (s.nodeOf b).featreq.toNat 1
    | 6 => k.saveKind % 2 ^ 32
    | _ => 0
  else partWord (s.imageParts b) (p - 64)

/-- CHECK of a save image: CRC-32C of its every byte but CHECK (17 R401). -/
def State.imageCheck (s : State) (b : Nat) : Nat :=
  Nat.xor ((List.range (s.imageSize b / 4)).foldl (fun c i => if i = 15 then c else crcLoop c (s.imageBody b (4 * i)) 4)
    0xFFFFFFFF) 0xFFFFFFFF

/-- The word at offset `p` of a save image (17 R401). -/
def State.saveWord (s : State) (b p : Nat) : Nat := if p / 4 = 15 then s.imageCheck b else s.imageBody b p

/-- The word at offset `o` of the park, overflow and save areas of die `d` as class 0x04 numbers them; where nothing is kept, a
free value (18 R435). (Log 112, DESIGN CHOICE.) -/
def State.areaWord (s : State) (d o : Nat) : Nat :=
  let free : Nat := wordAt (Config.areaRest s.stamp d (o / 64)).toNat (o % 64 / 4)
  let here (t : Team) : Bool := dieOfCore t.core == d && t.parked
  if o < 0x100000000 then
    match s.teams.find? fun t => here t.2 && t.2.parkAt ≤ o && o < t.2.parkAt + (s.nodeOf t.2.block).parkSize with
    | some t => t.2.parkWord (o - t.2.parkAt)
    | none => free
  else if o < 0x180000000 then
    let p := o - 0x100000000
    match s.teams.find? fun t => here t.2 && t.2.overflowed && t.2.ctxAt ≤ p &&
        p < t.2.ctxAt + (s.nodeOf t.2.block).contextSize with
    | some t => t.2.contextWord (p - t.2.ctxAt)
    | none => free
  else
    let p := o - 0x180000000
    match s.blocks.find? fun b => b.2.place == .saved && dieOfCluster b.2.cluster == d && b.2.saveAt ≤ p &&
        p < b.2.saveAt + s.imageSize b.1 with
    | some b => s.saveWord b.1 (p - b.2.saveAt)
    | none => free

/-- A vault word: a context in the context region (05 R134), else the vault's bytes. -/
def State.vaultImage (s : State) (c o : Nat) : Nat :=
  match s.teams.find? fun t => clusterOfCore t.2.core == c && (t.2.resident || t.2.parked) && !t.2.overflowed &&
      0x400000 + t.2.ctxAt ≤ o && o < 0x400000 + t.2.ctxAt + (s.nodeOf t.2.block).contextSize with
  | some t => t.2.contextWord (o - 0x400000 - t.2.ctxAt)
  | none => Memory.read s.vaults (2 ^ 23 * c + o) 4

/-- Where the areas of class 0x04 begin, by kind of reserved range. -/
def areaOffset (kind : Nat) : Option Nat :=
  match kind with
  | 2 => some 0
  | 3 => some 0x100000000
  | 8 => some 0x180000000
  | _ => none

/-- The die and the place, as class 0x04 numbers the areas, of HBM byte `p`, where an area stands there: the ranges of one kind and
die follow one another in the area (18 R435). -/
def State.areaPlace (s : State) (p : Nat) : Option (Nat × Nat) :=
  (s.reserved.find? fun r => r.1 ≤ p && p < r.1 + r.2.1 && (areaOffset r.2.2.1).isSome).map fun r =>
    let before := ((s.reserved.takeWhile fun x => x != r).filter fun x => x.2.2 == r.2.2).map fun x => x.2.1
    (r.2.2.2, (areaOffset r.2.2.1).getD 0 + before.sum + (p - r.1))

/-- An HBM word: of an area where one stands there, else of memory, with update pairs not applied (18 R435). -/
def State.hbmWord (s : State) (p : Nat) : Nat :=
  match s.areaPlace p with
  | some a => s.areaWord a.1 a.2
  | none => s.hbmRead p 4

/-- Bytes of a save area are altered: an image that stands there no longer matches its CHECK (17 R401). -/
def State.spoilImages (s : State) (p n : Nat) : State :=
  match s.areaPlace p with
  | none => s
  | some a =>
    let hit (b : Nat × Block) : Bool := b.2.place == .saved && dieOfCluster b.2.cluster == a.1 &&
      overlaps (0x180000000 + b.2.saveAt) (s.imageSize b.1) a.2 n
    { s with blocks := s.blocks.map fun b => if hit b then (b.1, { b.2 with saveBad := true }) else b }

/-- Bytes of a log ring (18 R435). -/
def State.ringImage (s : State) (d : Nat) (k : LogKind) (o : Nat) : Option (BitVec 512) :=
  let r := (s.yard d).ring k
  if o < 32 * r.2.1 then some (BitVec.ofNat 512 (s.hbmRead (r.1 + o) 64)) else none

/-- The runs that have a home stall at a Yard (04 R97, 18 R419). -/
def State.homeRuns (s : State) (d : Nat) : List (Nat × Run) :=
  s.runs.filter fun r => (List.range r.2.graph.nodes.length).any fun n => r.2.homeDie n == d

/-- The pairs that pen `u` holds: those of its die and slice group (10 R264). -/
def State.penPairs (s : State) (u : Nat) : List Pair := s.pairs.filter fun p => p.accepted && s.penOf p.p == u

/-- The 64 bytes that a read-back address names; none where it names no state (18 R419, R435).
(Log 93, DESIGN CHOICE.) -/
def State.readUnit (s : State) (cls u o : Nat) : Option (BitVec 512) :=
  let layout := s.dev.savelayout.toNat
  match cls with
  | 0x01 => if u = 0 && o < hbmEnd then some (words16 fun i => s.hbmWord (o + 4 * i)) else none
  | 0x02 => if u < 160 && o < 2 ^ 23 then some (words16 fun i => s.vaultImage u (o + 4 * i)) else none
  | 0x03 =>
    if o < 0xA1000 && u < 20480 then
      (s.teamIn (u / 32) (u % 32)).map fun tn => words16 fun i => (s.team tn).imageWord (o + 4 * i)
    else none
  | 0x04 =>
    if u < 4 && o < 0x180000000 + s.saveArea u then some (words16 fun i => s.areaWord u (o + 4 * i)) else none
  | 0x05 => if u < 640 && o < 0x40000 then some (Config.generatorImage layout (s.core u).walker o) else none
  | 0x06 =>
    let bay (b : Nat × Block) : Bool := dieOfCluster b.2.cluster == u && (match b.2.place with
      | .bay _ => true
      | _ => false)
    if u < 4 then some (Config.yardImage layout (s.stallsOf u) (s.blocks.filter bay) (s.homeRuns u) o) else none
  | 0x07 =>
    if u < 32 then some (Config.penImage layout (s.penPairs u) o)
    else if 0x100 ≤ u && u < 0x100 + 193 && o < 0x1000 then
      some (words16 fun i =>
        let r := (s.func (u - 0x100)).regions.get {} ((o + 4 * i) / 16)
        wordAt (r.rbase.toNat + r.rctl.toNat * 2 ^ 64) ((o + 4 * i) % 16 / 4))
    else none
  | 0x08 => if u < 640 && o < 0xC40 then some ((s.core u).tableImage o) else none
  | 0x09 =>
    if u < 0x8000 then (if o < 0xC0 then some ((s.queue u).readImage o) else none)
    else if u < 0x8000 + 193 then
      let f := s.func (u - 0x8000)
      if o < 4 * natBits f.dctrs.toNat 12 0 then some (words16 fun i => (f.ctr.get 0 ((o + 4 * i) / 4)).toNat) else none
    else none
  | 0x0A =>
    if u < 4 then (if o < 0x10000 then some ((s.yard u).bbAt (o / 64)) else none)
    else if u = 4 then
      (if o < 384 then some (words16 fun i =>
        wordAt (s.dev.meas.get 0 ((o + 4 * i) / 48)).toNat ((o + 4 * i) % 48 / 4)) else none)
    else if u < 9 then some (Config.correctedImage layout (s.yard (u - 5)).corrected o)
    else none
  | 0x0B =>
    if u = 0 then (if o < 32 * (s.reservedList.length + 1) then some (s.reservedImage o) else none)
    else if u < 5 then s.ringImage (u - 1) .yard o
    else if u < 9 then s.ringImage (u - 5) .order o
    else none
  | _ => none

/-- READBACK (18 R418): while GO is set, the 64 bytes that RBADDR names are read into RBDATA, or ERR is set and RBDATA is
zero; GO clears. No other state changes. -/
def execReadback (s : State) : Host.Outcome State Fault Refusal :=
  if !s.pf.rbctl.getLsbD 31 then .next s
  else
    let a := s.pf.rbaddr.toNat
    match s.readUnit (natBits a 63 56) (natBits a 55 40) (natBits a 39 6 * 64) with
    | some v => .next { s with pf := { s.pf with rbctl := 0, rbdata := v } }
    | none => .next { s with pf := { s.pf with rbctl := 1, rbdata := 0 } }

end Sys2Proof.Machine
end

