-- ==== Sys2Proof/Machine/MemEvents.lean ====
section
/-! DEFINITION. Accesses performed at their homes, acknowledgements, load results, the SC order, and the caches' own turns
(09 R233, R236; 10 R242, R243, R256, R258, R265, R273; 11 R276 to R287, R290). -/
namespace Sys2Proof.Machine

/-! ### When an access may be performed -/

/-- The team's writes and pairs issued before the access have been acknowledged, and its reads performed (11 R280, R283). -/
def State.releaseReady (s : State) (a : Access) : Bool :=
  (s.accesses.all fun x => x.team != a.team || a.ins ≤ x.ins || !x.pending) &&
  s.pairs.all fun p => p.accepted || p.team != a.team || a.id < p.id

/-- An access may be performed; one to another accelerator whatever the links' state. The stores of an MXST, an engine operation, follow
the core's earlier accesses to their range (10 R250; 14 R335). (Log 133, DESIGN CHOICE.) -/
def State.accessReady (s : State) (a : Access) : Bool :=
  a.stage == .issued && (s.accesses.all fun x => !x.before a) && s.pairsBefore a && s.teamBefore a &&
  (!a.releases || s.releaseReady a) && (!(a.writes && a.ord == 3) || a.floored) && !s.cutTarget a.target &&
  (!s.isMxst a.ins || s.lockClear a.core a.ins)

/-! ### Reads -/

/-- Who reads, for a version's held writes. -/
def Access.reader (a : Access) : Reader := { team := a.team, lane := a.lane, ins := a.ins, know := a.knows }

/-- The value of an access as the home and its version give it (11 R283, R292). -/
def State.homeValue (s : State) (a : Access) : Nat :=
  let v := s.peek a.target a.size
  match a.target with
  | .hbm p => (s.block a.block).overlay a.reader p a.size v
  | .door o => if s.doorOwned a.func o then s.doorRead (o / 4096) (o % 4096) a.size else 0
  | _ => v

/-- Lines of a table cache (10 R256). -/
def tableLines : Nat := 1024

/-- Put line `line` into a cluster's table cache: a full cache evicts one line, whichever (10 R256). -/
def State.tableFill (s : State) (cluster line : Nat) : State :=
  let mine := s.tlines.filter fun l => l.cluster == cluster
  let out := if mine.length < tableLines then none else mine[Config.freePick s.stamp line % mine.length]?
  let bytes := (List.range 64).map fun i => s.hbmByte (64 * line + i)
  { s with tlines := { cluster := cluster, line := line, bytes := bytes } ::
      s.tlines.filter fun l => !(some l == out) && !(l.cluster == cluster && l.line == line) }

/-- The value of the low bytes of a list, least significant first. -/
def bytesValue (bs : List Byte) : Nat := bs.foldr (fun b acc => b.toNat + 256 * acc) 0

/-- A TLD of HBM is served by the table cache (10 R256, 11 R290); a version sees its own held bytes (11 R292). One that missed as it was
issued has a fill of its own in flight, which may come after the fill of another (20 R428). (Log 143, DEDUCED.) -/
def State.tableRead (s : State) (a : Access) (p : Nat) : State × Nat :=
  let cl := clusterOfCore a.core
  let there := (s.tlines.any fun l => l.cluster == cl && l.line == p / 64) && !(a.missed && Config.freePick s.stamp a.id % 2 == 1)
  let s := if there then s else ((s.callHome a.core (.hbm p)).reach (.hbm p)).tableFill cl (p / 64)
  match s.tlines.find? fun l => l.cluster == cl && l.line == p / 64 with
  | none => (s, 0)
  | some l => (s, (s.block a.block).overlay a.reader p a.size (bytesValue ((l.bytes.drop (p % 64)).take a.size)))

/-- The releases of the words that an acquire read of `n` bytes reads, each once, for its log entries (18 R414). (Log 15, DEDUCED.) -/
def State.releasesOf (s : State) (t : Target) (n : Nat) : List Owner :=
  ((t.ownWords n).map fun w => s.owners.get {} w).foldl (fun l o =>
    if o.core = 0 || o.ts = 0 || l.contains o then l else l ++ [o]) []

/-- Log an acquire read's pairs (18 R414). (Log 16, DEDUCED.) -/
def State.logAcquire (s : State) (a : Access) (os : List Owner) : State :=
  if a.acquires && s.det a.block then
    os.foldl (fun s o =>
      s.orderLog a.block a.core 0x12 (s.coreClock a.core) a.va.toNat (o.core - 1 + o.ts % 2 ^ 54 * 2 ^ 10)) s
  else s

/-- A request reaches its home: clocks are exchanged (11 R285) and the line's pairs are applied (10 R265). -/
def State.arriveAt (s : State) (a : Access) : State := (s.callHome a.core a.target).reach a.target

/-- Set an access's value. -/
def State.performed (s : State) (id v : Nat) : State :=
  { s with accesses := s.accesses.map fun (x : Access) =>
      if x.id = id then { x with stage := .performed (BitVec.ofNat 128 v) } else x }

/-- Set an access's value and the events that its result counts once it is written (12 R309). -/
def State.performedWith (s : State) (id v : Nat) (es : List Nat) : State :=
  { s with accesses := s.accesses.map fun (x : Access) =>
      if x.id = id then { x with stage := .performed (BitVec.ofNat 128 v), events := es } else x }

/-- WATCH arms the lane's watch on an HBM or vault line (10 R273). -/
def State.armWatch (s : State) (a : Access) : State :=
  let t := s.team a.team
  s.setTeam a.team (t.setLane a.lane { t.lane a.lane with
    watch := match a.target.watchLine with | some l => .armed l | none => .none })

/-- What a read of a version has seen released: an acquire learns it, a plain read keeps it for its lane's next fence (11 R281,
R292). (Log 122, DEDUCED.) -/
def State.hears (s : State) (a : Access) : State :=
  if a.acquires then s.learn a.team [a.lane] a.ins ((s.block a.block).carried a.target a.size)
  else s.heard a.team a.lane a.target a.size

/-- A load, table read or watch is performed at its home; an acquire discards afterwards (11 R280). A TLD leaves no copy in the L1
older than what it may have returned (11 R279). (Log 17, DEDUCED.) -/
def State.performRead (s : State) (a : Access) : State :=
  match a.kind, a.target, decide (windowOf a.va.toNat = 0) with
  | .tload, .hbm p, true =>
    let (s, v) := (s.dropSector a.core (p / 32)).tableRead a p
    (s.performed a.id v).hears a
  | _, _, _ =>
    let s := s.arriveAt a
    let s := match a.target with | .hbm p => s.dropSector a.core (p / 32) | _ => s
    let o := s.releasesOf a.target a.size
    let v := s.homeValue a
    let s := (s.performed a.id v).hears a
    let s := if a.kind = .watch then s.armWatch a else s
    if a.acquires then (s.logAcquire a o).acquire a.core else s

/-! ### Writes -/

/-- The home's clock with which a write registers: the clock of a release, or of the lane's last fence (18 R414); an atomic that
is no release continues the release that its word holds (11 R281). (Log 15, DEDUCED.) -/
def State.writeTs (s : State) (a : Access) : Nat :=
  if a.ord = 3 then a.ts
  else if a.ord = 2 then s.coreClock a.core
  else if a.ts = 0 && a.kind != .store then ((s.releasesOf a.target a.size).map (·.ts)).foldl max 0
  else a.ts

/-- Write `v` at the access's home, or hold it for the version (11 R278, R292). -/
def State.homeWrite (s : State) (a : Access) (keep : Bool) (v : Nat) : State :=
  let carry (s : State) : State :=
    s.setBlock a.block ((s.block a.block).carry a.target a.size (a.kind != .store) a.carries)
  match heldTarget (s.nodeOf a.block) a.va.toNat a.target with
  | some p => carry (s.setBlock a.block ((s.block a.block).holdFor (a.team, a.lane, a.ins) p a.size v))
  | none =>
    match a.target with
    | .door o => if s.doorOwned a.func o then s.doorWrite (o / 4096) (o % 4096) a.size v else s
    | t =>
      let s := s.noteArena (s.agentOf a.team a.lane) a.va.toNat a.size v
      carry (s.poke (a.core + 1) (s.writeTs a) keep t a.size v)

/-- Every lane of an atomic's group has written the word that a version holds (10 R258, 11 R292). -/
def State.coWrite (s : State) (a : Access) (g : List Access) : State :=
  match heldTarget (s.nodeOf a.block) a.va.toNat a.target with
  | some p => s.setBlock a.block ((s.block a.block).heldWriters (g.map fun x => (x.team, x.lane, x.ins)) p a.size)
  | none => s

/-- The access is to a line of a valid region, which no L1 holds (10 R265). (Log 30, DEDUCED.) -/
def State.inRegion (s : State) (a : Access) : Bool :=
  match a.target with
  | .hbm p => s.regionLine (p / 64)
  | _ => false

/-- A store is performed (11 R278); an element of MXST raises its event (12 R309, 14 R335). -/
def State.performStore (s : State) (a : Access) : State :=
  let s := s.arriveAt a
  ((s.homeWrite a (!a.nol1 && !s.inRegion a) a.data.toNat).performedWith a.id 0 []).countEvents a.block a.events

/-! ### Atomics (10 R257, R258) -/

/-- op(m, v) of an atomic of `w` bits: `op` is OP10 less 0x204; FADD is `atomFadd`, CAS its own case. -/
def atomOp (op w m v : Nat) : Nat :=
  let less : Bool := decide ((BitVec.ofNat w m).toInt < (BitVec.ofNat w v).toInt)
  match op with
  | 0 => (m + v) % 2 ^ w
  | 2 => if less then m else v
  | 3 => if less then v else m
  | 4 => Nat.land m v
  | 5 => Nat.lor m v
  | 6 => Nat.xor m v
  | _ => v

/-- Integer operators and CAS over a group, in lane order: old values, and the value left. -/
def atomFold (op w m : Nat) (g : List Access) : List (Nat × Nat) × Nat :=
  match g with
  | [] => ([], m)
  | a :: r =>
    let m' := if op = 8 then (if m = a.data.toNat then a.data2.toNat else m) else atomOp op w m a.data.toNat
    let (os, last) := atomFold op w m' r
    ((a.id, m) :: os, last)

/-- One FADD.F32 with its event. -/
def faddStep (m v : Nat) : Nat × Option Nat := arithElem 0 0 .RN false m v 0

/-- FADD in lane order, where an operand is NaN or infinite: old values with their events, and the value left with its. -/
def faddFold (m : Nat) (e : Option Nat) (g : List Access) : List (Nat × Nat × Option Nat) × Nat × Option Nat :=
  match g with
  | [] => ([], m, e)
  | a :: r =>
    let (m', e') := faddStep m a.data.toNat
    let (os, last) := faddFold m' e' r
    ((a.id, m, e) :: os, last)

/-- Round an exact sum to F32, with its event (10 R258). -/
def faddRound (x : Num) : Nat × Option Nat :=
  let r := roundTo x fmtF32 .RN false
  (r.bits, resultEvent x r false false)

/-- FADD of finite operands: each old value is the rounded exact sum of the lanes before. -/
def faddExact (x : Num) (g : List Access) : List (Nat × Nat × Option Nat) × Nat × Option Nat :=
  match g with
  | [] => ([], faddRound x)
  | a :: r =>
    let o := faddRound x
    let (os, last) := faddExact (x.add (fmtF32.value a.data.toNat) .RN) r
    ((a.id, o) :: os, last)

/-- FADD of a group on memory value `m` (10 R258): the first old value is memory itself. -/
def atomFadd (m : Nat) (g : List Access) : List (Nat × Nat × Option Nat) × Nat × Option Nat :=
  let odd (v : Nat) : Bool := (fmtF32.value v).isNan || (fmtF32.value v).isInf
  if odd m || g.any fun a => odd a.data.toNat then faddFold m none g
  else faddExact (fmtF32.value m) g

/-- Result of a group: old values with their events, the value left, and its events (10 R258; 12 R308). (Log 16, DEDUCED.) -/
def atomGroup (op w m : Nat) (g : List Access) : List (Nat × Nat × List Nat) × Nat × List Nat :=
  if op = 1 then
    let (os, last, e) := atomFadd m g
    (os.map fun x => (x.1, x.2.1, eventIndex 0 x.2.2), last, eventIndex 0 e)
  else
    let (os, last) := atomFold op w m g
    (os.map fun x => (x.1, x.2, []), last, [])

/-- Members of an access's address group, in lane order (10 R258): a private address is each lane's own memory (09 R224).
(Log 16, DEDUCED.) -/
def State.groupOf (s : State) (a : Access) : List Access :=
  s.accesses.filter fun x => x.ins == a.ins && x.kind == a.kind && x.va == a.va && x.stage == .issued &&
    (windowOf a.va.toNat != 2 || x.lane == a.lane)

/-- Result of an access's group at the home: where the lanes of a version see different held writes, each lane's read is its own
and carries the lower lanes' operations (10 R258, 11 R292). In another function's doorbell page every old value is 0 (03 R62).
(Log 16, DEDUCED; log 122, DEDUCED.) -/
def State.groupResult (s : State) (a : Access) (op : Nat) (g : List Access) : List (Nat × Nat × List Nat) × Nat × List Nat :=
  let all (x : Access) := atomGroup op (8 * a.size) (s.homeValue x) g
  if (match a.target with | .door _ => true | _ => false) then (g.map fun x => (x.id, 0, []), 0, [])
  else if g.all fun x => s.homeValue x == s.homeValue a then all a
  else
    let last := all (g.getLast?.getD a)
    (g.filterMap fun x => (all x).1.find? fun r => r.1 == x.id, last.2)

/-- Perform the address group of an atomic as one read-modify-write (10 R258, 11 R284), with its log entries (18 R414).
(Log 16, DEDUCED; log 17, DEDUCED.) -/
def State.performAtomic (s : State) (a : Access) (op : Nat) : State :=
  let g := s.groupOf a
  let s := s.arriveAt a
  let s := match a.target with | .hbm p => s.dropSector a.core (p / 32) | _ => s
  let o := s.releasesOf a.target a.size
  let (os, last, es) := s.groupResult a op g
  let s := g.foldl (fun (s : State) x => s.hears x) s
  let s := (s.homeWrite a false last).coWrite a g
  let s := os.foldl (fun (s : State) x => s.performedWith x.1 x.2.1 x.2.2) s
  let s := s.countEvents a.block es
  let (die, unit') := s.atomLog a.core a.target
  let ts := s.unitClock (s.homeUnit a.core a.target)
  let lead := (g.head?.map fun (x : Access) => x.lane).getD a.lane
  let s := if s.det a.block then
      s.writeLog die .order 0x11 a.func (s.block a.block).job unit' ts a.va.toNat
        (a.core + lead * 2 ^ 10 + g.length * 2 ^ 16)
    else s
  if a.acquires then (s.logAcquire a o).acquire a.core else s

/-- Dies whose memory-order logs take an entry when the access is performed (18 R414). -/
def State.homeLogs (s : State) (a : Access) : List Nat :=
  (match a.target with
   | .hbm p => s.batchDies [p / 64]
   | _ => []) ++
  if s.det a.block then
    (match a.kind with | .atomic _ => [(s.atomLog a.core a.target).1] | _ => []) ++
    (if a.acquires then (s.releasesOf a.target a.size).map fun _ => dieOfCore a.core else [])
  else []

/-- Every log that the access writes has room (18 R415): what a job in deterministic mode needs was kept for it. -/
def State.homeLogOk (s : State) (a : Access) : Bool :=
  if s.det a.block then s.logsKept (s.homeLogs a) else s.logsFit (s.homeLogs a)

/-- HOME_ACCESS (11 R277): an access is performed at its home; an atomic with its whole address group. -/
def execHomeAccess (id : Nat) (s : State) : Host.Outcome State Fault Refusal :=
  match s.accesses.find? fun x => x.id == id with
  | none => .next s
  | some a =>
    match a.kind with
    | .atomic op =>
      .next (if ((s.groupOf a).all s.accessReady) && a.stage == .issued && s.homeLogOk a then s.performAtomic a op else s)
    | .store => .next (if s.accessReady a && s.homeLogOk a then s.performStore a else s)
    | _ => .next (if s.accessReady a && s.homeLogOk a then s.performRead a else s)

/-! ### Acknowledgements and results -/

/-- Remove an access; whether it was the last of its instruction. -/
def State.dropAccess (s : State) (a : Access) : State × Bool :=
  let rest := s.accesses.filter fun x => x.id != a.id
  ({ s with accesses := rest }, !(rest.any fun x => x.ins == a.ins))

/-- ACKNOWLEDGEMENT (11 R278, 10 R245): a store's registration is acknowledged; STC falls with the last of its instruction.
The stores of an MXST count under their operation (14 R335). -/
def execAcknowledgement (id : Nat) (s : State) : Host.Outcome State Fault Refusal :=
  match s.accesses.find? fun x => x.id == id with
  | none => .next s
  | some a =>
    if a.kind != .store || a.stage == .issued then .next s
    else
      let (s, last) := s.dropAccess a
      let engine := s.engines.any fun e => e.id == a.ins && e.kind == .mxst
      let t := s.team a.team
      let s := if last && !engine then s.setTeam a.team { t with stc := t.stc - 1 } else s
      .next (s.afterAck a.team)

/-- The value that a load or atomic writes: one or two bytes are extended to 32 bits (10 R243). -/
def Access.result (a : Access) (v : Nat) : Nat :=
  if a.size ≤ 2 && a.sx then (BitVec.ofInt 32 (BitVec.ofNat (8 * a.size) v).toInt).toNat else v % 2 ^ (8 * a.size)

/-- LOAD_RESULT (10 R243, R245; 12 R309): the destination is written and its events are counted; LDC falls with the last of the
instruction. -/
def execLoadResult (id : Nat) (s : State) : Host.Outcome State Fault Refusal :=
  match s.accesses.find? fun x => x.id == id with
  | none => .next s
  | some a =>
    match a.kind, a.stage with
    | .store, _ => .next s
    | _, .issued => .next s
    | _, .performed v =>
      let (s, last) := s.dropAccess a
      let t := s.team a.team
      let t := t.setVs a.lane a.dest a.ndest (a.result v.toNat)
      let t := if last then { t with ldc := t.ldc - 1 } else t
      .next (((s.setTeam a.team t).countEvents a.block a.events).afterAck a.team)

/-! ### The SC order (11 R285 to R287) -/

/-- SC operations that have a timestamp and have not finished step 4: timestamp, core, number. -/
def State.scOpen (s : State) : List (Nat × Nat × Nat) :=
  (s.accesses.filterMap fun (a : Access) =>
    match a.kind, a.stage with
    | .atomic _, .issued => if a.ord = 3 && a.ts != 0 then some (a.ts, a.core, a.ins) else none
    | _, _ => none) ++
  s.engines.filterMap fun (e : Engine) =>
    match e.kind with
    | .fenceSc ts => if ts = 0 then none else some (ts, e.core, e.id)
    | _ => none

/-- An SC operation may take step 4: the floor has reached its timestamp, and no other operation stands before it in
(ts, core) order (log 9, DEDUCED). -/
def State.scDue (s : State) (x : Nat × Nat × Nat) : Bool :=
  x.1 ≤ s.floor && s.scOpen.all fun y => y.2.2 == x.2.2 || x.1 < y.1 || (x.1 == y.1 && x.2.1 < y.2.1)

/-- SC_FLOOR_REACHED (11 R285 step 4): the acquire part; an atomic's accesses may then be performed, and a fence is over.
(Log 9, DEDUCED; log 17, DEDUCED.) -/
def execScFloorReached (e : Nat) (s : State) : Host.Outcome State Fault Refusal :=
  match s.scOpen.find? fun y => y.2.2 == e with
  | none => .next s
  | some x =>
    if !s.scDue x then .next s
    else
      let s := s.acquire x.2.1
      match s.engines.find? fun y => y.id == e with
      | none =>
        .next { s with accesses := s.accesses.map fun (a : Access) => if a.ins = e then { a with floored := true } else a }
      | some f =>
        let clock := s.covers f.team
        let t := (s.team f.team).mapLanes f.lanes fun _ l => { l with rel := x.1, fenced := clock, know := l.know.join clock }
        .next ({ (s.setTeam f.team t).learnHeard f.team f.lanes with engines := s.engines.filter fun y => y.id != e }.afterAck f.team)

/-- The floor (11 R285): the least clock of a core or fabric unit, and the least timestamp of an open SC operation.
(Log 9, DEDUCED.) -/
def State.floorNow (s : State) : Nat :=
  let cores := (List.range 640).map s.coreClock
  let units := fabricUnits.map s.unitClock
  (cores ++ units ++ s.scOpen.map (·.1)).foldl min (s.cycle.toNat + 2 ^ 64)

/-- FLOOR_BROADCAST (11 R287). (Log 9, DEDUCED.) -/
def execFloorBroadcast (s : State) : Host.Outcome State Fault Refusal :=
  .next { s with floor := max s.floor s.floorNow }

/-! ### The caches' own turns -/

/-- A plain load is served by a copy in its core's L1 (11 R278). Accesses to region lines bypass L1 (10 R265).
(Log 13, DESIGN CHOICE; log 30, DEDUCED.) -/
def State.l1Hit (s : State) (id : Nat) : State :=
  match s.accesses.find? fun x => x.id == id with
  | none => s
  | some a =>
    match a.kind, a.target with
    | .load, .hbm p =>
      if a.ord ≠ 0 || s.inRegion a || !s.accessReady a then s
      else match s.l1Read a.core p a.size with
        | some v => (s.performed a.id ((s.block a.block).overlay a.reader p a.size v)).hears a
        | none => s
    | _, _ => s

/-- A core's L1 fills the sector of a word of HBM (09 R233): the copies are the home's values now, owned where the core is the
owner; core and home exchange clocks (11 R285); a full L1 loses a line. (Log 13, DESIGN CHOICE; log 30, DEDUCED.) -/
def State.l1Fill (s : State) (core word : Nat) : State :=
  if core < 640 && 4 * word + 3 < hbmEnd && !s.regionLine (word / 16) then
    let s := (s.callHome core (.hbm (4 * word))).l1Room core (word / 16)
    let copies : List L1Word := (List.range 8).map fun i =>
      let w := word / 8 * 8 + i
      { core := core, word := w, val := BitVec.ofNat 32 (s.hbmRead (4 * w) 4),
        owned := (s.owners.get {} w).core == core + 1 }
    { s with l1 := copies ++ s.l1.filter fun x => !(x.core == core && x.word / 8 == word / 8) }
  else s

/-- The line of a word leaves a core's L1. (Log 13, DESIGN CHOICE.) -/
def State.l1Evict (s : State) (core word : Nat) : State :=
  { s with l1 := s.l1.filter fun x => !(x.core == core && x.word / 16 == word / 16) }

/-- Entries of a TLB: 64 in a core's L1 TLB, 2,048 in a cluster's L2 TLB (09 R236). -/
def tlbSize (core : Option Nat) : Nat := if core.isSome then 64 else 2048

/-- A TLB holds a page's translation (09 R236): that of the cluster's L2 TLB, or a walk that succeeds now.
(Log 13, DESIGN CHOICE; log 18, DEDUCED.) -/
def State.tlbFill (s : State) (cluster : Nat) (core : Option Nat) (func page : Nat) : State :=
  let ag : Agent := { deviceAgent func with cluster := cluster }
  let here (e : TlbEntry) : Bool := e.cluster == cluster && e.core == core
  if cluster < 160 && (core.all fun n => clusterOfCore n == cluster) && (s.tlb.filter here).length < tlbSize core &&
     !(s.tlb.any fun e => here e && e.func == func && e.page == page) then
    match s.leaf ag (4096 * page) with
    | .ok (e, level) =>
      { s with tlb := { cluster := cluster, core := core, func := func, page := page, pte := BitVec.ofNat 64 e,
                        level := level } :: s.tlb }
    | .error _ => s
  else s

/-- A translation leaves a TLB. -/
def State.tlbEvict (s : State) (cluster : Nat) (core : Option Nat) (func page : Nat) : State :=
  { s with tlb := s.tlb.filter fun e => !(e.cluster == cluster && e.core == core && e.func == func && e.page == page) }

/-- Entries of a die's walk cache (09 R236). -/
def walkCache : Nat := 256

/-- A die's walk cache holds the non-leaf entry of `level`, 2 to 4, for an address: one with V = 1, as do those above it (09
R236). (Log 13, DESIGN CHOICE.) -/
def State.walkFill (s : State) (die func level va : Nat) : State :=
  let part := tablePart level va
  let p := if level = 4 then (if rootOutside (s.func func).ptroot.toNat va then none else
      some (pteFrame (s.func func).ptroot.toNat))
    else match s.walkTo die func va level with
      | .ok p => some p
      | .error _ => none
  match p with
  | none => s
  | some p =>
    let e := s.hbmRead (p + 8 * (if level = 4 then part else part % 512)) 8
    if die < 4 && 2 ≤ level && level ≤ 4 && e % 2 = 1 && natBits e 5 5 = 0 && dirOk e &&
       (s.walks.filter fun w => w.die == die).length < walkCache &&
       !(s.walks.any fun w => w.die == die && w.func == func && w.level == level && w.part == part) then
      { s with walks := { die := die, func := func, level := level, part := part, entry := e } :: s.walks }
    else s

/-- A non-leaf entry leaves a die's walk cache. -/
def State.walkEvict (s : State) (die func level va : Nat) : State :=
  { s with walks := s.walks.filter fun w =>
      !(w.die == die && w.func == func && w.level == level && w.part == tablePart level va) }

/-- A line leaves a core's instruction cache (06 R153). -/
def State.lineEvict (s : State) (core func va : Nat) : State :=
  { s with ilines := s.ilines.filter fun l => !(l.core == core && l.func == func && l.va == va) }

/-- A write by an agent outside the device, within one 64-byte line: to HBM that firmware does not reserve, once the
device is at stage 0x05 (01 R31, R32), to host memory, or to a peer's memory (10 R265, R269). (Log 29, DEDUCED.) -/
def State.outsideWrite (s : State) (t : Target) (n v : Nat) : State :=
  match t with
  | .hbm p =>
    if s.dev.stage ≠ 5 then s
    else if s.reservedAt p n then s.spoilImages p n
    else if p % 64 + n ≤ 64 && p + n ≤ hbmEnd && s.reachable t then
      (s.reach t).poke 0 0 false t n v
    else s
  | .host p => if p % 64 + n ≤ 64 then s.poke 0 0 false t n v else s
  | .remote _ p => if p % 64 + n ≤ 64 then s.poke 0 0 false t n v else s
  | _ => s

end Sys2Proof.Machine
end

