-- ==== Sys2Proof/Machine/TrapEntry.lean ====
section
/-! DEFINITION. TRAP_ENTRY of asynchronous faults and of the default handlers ATOMEMU and LOGFULL (10 R260; 17 R384, R390). -/
namespace Sys2Proof.Machine

/-! ### The default LOGFULL handler (17 R390) -/

/-- A lane whose default LOGFULL handler finds room in the log returns to TPC. -/
def State.logReturn (s : State) (tn L : Nat) : State :=
  let t := s.team tn
  let l := t.lane L
  match l.st with
  | .waiting (.logRoom k die) =>
    if s.logRoom die (if k = 0 then .yard else .order) 1 then s.setTeam tn (t.setLane L { l.tret with st := .ready }).refresh
    else s
  | _ => s

/-- Every lane that waits for room in a log looks again. (Log 22, DEDUCED.) -/
def State.logReturns (s : State) : State :=
  (s.teams.filter fun t => s.handlersRun t.1).foldl (fun s t =>
    (laneList.filter fun L => (t.2.lane L).waitsAt fun w => match w with | .logRoom _ _ => true | _ => false).foldl
      (fun s L => s.logReturn t.1 L) s) s

/-- LOGFULL_TIMEOUT (17 R390): 100 ms without room stop the block with reason DEFAULT. -/
def execLogfullTimeout (tn L : Nat) (s : State) : Host.Outcome State Fault Refusal :=
  match ((s.team tn).lane L).st with
  | .waiting (.logRoom _ _) => .next (if s.handlersRun tn then s.defaultStop tn L else s)
  | _ => .next s

/-! ### The default ATOMEMU handler (10 R260) -/

/-- The word of the lock table for address `a`. -/
def lockWord (a : Nat) : Nat := Nat.xor (natBits a 17 6) (Nat.xor (natBits a 29 18) (natBits a 41 30))

/-- The lock word's target for a lane, checked as the handler's access: at supervisor level, against range locks and TORN regions too
(17 R388). -/
def State.lockTarget (s : State) (tn L : Nat) : Except FaultInfo Target :=
  let f := s.func (s.block (s.team tn).block).func
  let base := natBits f.lockTab.toNat 55 15 * 2 ^ 15
  s.checkThread tn L .write (base + 8 * lockWord ((s.team tn).lane L).taddr.toNat) 8 8

/-- A fault inside the default handler is a fault in trap mode: a double fault (17 R381). Code 0 waits for a page walk. -/
def State.handlerFault (s : State) (tn L : Nat) (e : FaultInfo) : State :=
  if e.code = 0 then s.waitFor (s.agentOf tn L) e else s.takeFault tn L e ((s.team tn).lane L).pc ((s.team tn).lane L).tnext

/-- The handler's ATOM.CAS.B64.ACQ on the lock word, as an access of its lane (10 R260). -/
def State.emuCas (s : State) (tn L : Nat) (t : Target) : Access :=
  let tm := s.team tn
  let f := (s.block tm.block).func
  let base := natBits (s.func f).lockTab.toNat 55 15 * 2 ^ 15
  { id := s.fresh, ins := s.fresh, kind := .atomic 8, team := tn, block := tm.block, core := tm.core, lane := L, func := f,
    va := BitVec.ofNat 64 (base + 8 * lockWord (tm.lane L).taddr.toNat), target := t, size := 8, ord := 1, dest := 0,
    ndest := 0, sx := false, nol1 := true, data := 0, data2 := BitVec.ofNat 128 (f * 2 ^ 32 + tm.core * 2 ^ 8 + L),
    ts := (tm.lane L).rel, floored := false, supervisor := true, stage := .issued, knows := (tm.lane L).know,
    carries := (tm.lane L).fenced }

/-- The handler makes its CAS, with the log entries of an ATOM and of an acquire (18 R414), for which it waits; one that reads 0
takes the lock, and a .SC form then executes FENCE.SC. (Log 21, DEDUCED.) -/
def State.emuLock (s : State) (tn L : Nat) : State :=
  match s.lockTarget tn L with
  | .error e => s.handlerFault tn L e
  | .ok t =>
    let a := s.emuCas tn L t
    let s1 : State := { s with accesses := s.accesses ++ [a], fresh := s.fresh + 1 }
    if !s1.accessReady a || !s.logsFit (s1.homeLogs a) then s
    else
      let s2 := s1.performAtomic a 8
      let old := s2.accesses.any fun x => x.id == a.id && x.stage == .performed 0
      let s := { s2 with accesses := s2.accesses.filter fun x => x.id != a.id }
      let tm := s.team tn
      if !old then s
      else
        let s := s.emuAt tn L .held
        if natBits (tm.lane L).tinfo.toNat 14 13 = 3 then
          let e : Engine := { id := s.fresh, ins := s.fresh, kind := .fenceSc 0, team := tn, block := tm.block,
                              core := tm.core, func := a.func, lane := L, lanes := [L], supervisor := true,
                              aborted := false }
          { s with engines := s.engines ++ [e], fresh := s.fresh + 1 }.stampAll
        else s

/-- The handler's FENCE.SC is over, or the form has none. -/
def State.emuFenced (s : State) (tn L : Nat) : Bool :=
  !(s.engines.any fun e => e.team == tn && e.lanes == [L] && (match e.kind with | .fenceSc _ => true | _ => false))

/-- With MODES.AEMU the handler posts the operation to the PF in place of the loop (10 R260; 18 R421). In deterministic mode it waits
first for room for the entry of the ATOM (18 R415). (Log 21, DEDUCED.) -/
def State.emuRefer (s : State) (tn L d : Nat) : State :=
  let t := s.team tn
  let l := t.lane L
  let die := dieOfCore t.core
  if s.det t.block && !s.logsFit [die] then s
  else
    (s.refer 3 die (s.block t.block).func l.taddr
      (BitVec.ofNat 64 (l.tinfo.toNat % 2 ^ 15 + t.core * 2 ^ 16 + L * 2 ^ 26))
      [aemuOperand t L d (natBits l.tinfo.toNat 9 0) (natBits l.tinfo.toNat 12 10)] tn L).postWaiting

/-- The handler performs the operation for its lane alone, with the log entry of an ATOM (18 R414), writes D and releases the lock
(10 R260): its release waits for the team's earlier writes. (Log 21, DEDUCED.) -/
def State.emuPerform (s : State) (tn L d : Nat) : State :=
  let tm := s.team tn
  let l := tm.lane L
  let op := natBits l.tinfo.toNat 9 0 - 0x204
  let n := 2 ^ natBits l.tinfo.toNat 12 10
  let k := regCount n
  if !s.emuFenced tn L || s.unacked tn != [] then s
  else
    match s.checkThread tn L .write l.taddr.toNat n n, s.lockTarget tn L with
    | .error e, _ => s.handlerFault tn L e
    | _, .error e => s.handlerFault tn L e
    | .ok t, .ok lock =>
      let a : Access := { id := s.fresh, ins := s.fresh, kind := .atomic op, team := tn, block := tm.block, core := tm.core, lane := L,
                          func := (s.block tm.block).func, va := l.taddr, target := t, size := n, ord := 0, dest := d,
                          ndest := k, sx := false, nol1 := true,
                          data := BitVec.ofNat 128 (tm.vregs L d k % 2 ^ (8 * n)),
                          data2 := BitVec.ofNat 128 (tm.vregs L (d + k) k), ts := l.rel, floored := false, supervisor := true,
                          stage := .issued, knows := l.know, carries := l.fenced }
      let s1 : State := { s with accesses := s.accesses ++ [a], fresh := s.fresh + 1 }
      let lockLine : List Nat := match lock, t with
        | .hbm p, .hbm q => if p / 64 = q / 64 then [] else [p / 64]
        | .hbm p, _ => [p / 64]
        | _, _ => []
      if !s1.accessReady a || !s1.reachable lock || !s.logsFit (s1.homeLogs a ++ s1.batchDies lockLine) then s
      else
        let s2 := s1.performAtomic a op
        let done := s2.accesses.find? fun x => x.id == a.id
        let old := match done.map (·.stage) with | some (.performed v) => v.toNat | _ => 0
        let s := { s2 with accesses := s2.accesses.filter fun x => x.id != a.id }.countEvents tm.block
          ((done.map fun (x : Access) => x.events).getD [])
        let s := ((s.callHome tm.core lock).reach lock).poke (tm.core + 1) (s.coreClock tm.core) false lock 8 0
        s.atomDone tn L old

/-- One step of a lane's default ATOMEMU handler: once the native lanes are performed, the lanes that trapped at an instruction are
emulated in lane order (10 R260, R275). (Log 21, DEDUCED.) -/
def State.emuStep (s : State) (tn L d ins : Nat) (e : EmuStep) : State :=
  let native := s.accesses.any fun a => a.team == tn && a.stage == .issued && (match a.kind with | .atomic _ => true | _ => false)
  let asked := s.referrals.any fun r => r.mode == 3 && r.obj == tn && r.obj2 == L
  if (s.emuLanes tn ins).head? != some L then s
  else match e with
    | .lock => if native then s else s.emuLock tn L
    | .held => s.emuPerform tn L d
    | .ask => if native || asked then s else s.emuRefer tn L d
    | .told old => s.atomDone tn L old
    | .failed => s.defaultStop tn L
    | .done => s

/-! ### TRAP_ENTRY -/

/-- TRAP_ENTRY (17 R384): a lane enters the trap of an asynchronous fault; or its default handler goes on, while its team runs. -/
def execTrapEntry (tn L : Nat) (s : State) : Host.Outcome State Fault Refusal :=
  let l := (s.team tn).lane L
  match s.pendingTraps.find? fun p => p.1 == tn && p.2.1 == L with
  | some p =>
    if (s.team tn).resident && (s.block (s.team tn).block).place == .running then
      let s := { s with pendingTraps := s.pendingTraps.filter fun q => !(q.1 == tn && q.2.1 == L) }
      .next (s.takeFault tn L p.2.2 l.pc l.tnext)
    else .next s
  | none =>
    if !s.handlersRun tn then .next s
    else match l.st with
      | .waiting (.emulate d ins e) => .next (s.emuStep tn L d ins e)
      | .waiting (.logRoom _ _) => .next (s.logReturn tn L)
      | _ => .next s

end Sys2Proof.Machine
end

