-- ==== Sys2Proof/Machine/Fetch.lean ====
section
/-! DEFINITION. Fetching a line, rows 1 to 5 of 06 R165, the scoreboard and the register cache, and the order in which the
paths of a core are served (05 R126 to R129, R135 to R137; 06 R147 to R156; 08 R209). -/
namespace Sys2Proof.Machine

/-! ### Lines -/

/-- XOR of the bytes of some words. -/
def xorWords (ws : List Word) : Nat := ws.foldl (fun x w => Nat.xor x (xorBytes w.toNat 4)) 0

/-- The line word (06 R148). -/
def lineWord (ws : List Word) : Word := ws.getD 15 0

/-- PARITY agrees with the slots (06 R153). -/
def parityOk (ws : List Word) : Bool := xorWords (ws.take 15) == natBits (lineWord ws).toNat 31 24

/-- Row 3 of 06 R165: a reserved bit, or a TARGET bit of a continuation slot (06 R152). -/
def lineBad (ws : List Word) : Bool :=
  (lineWord ws).getLsbD 15 || (lineWord ws).getLsbD 23 ||
  (List.range 15).any fun i => (lineWord ws).getLsbD i && !(lineStarts ws).contains i

/-- The sixteen words of the line at physical address `p`. -/
def State.lineAt (s : State) (p : Nat) : List Word :=
  (List.range 16).map fun i => BitVec.ofNat 32 (s.hbmRead (p + 4 * i) 4)

/-- A fetch machine check (06 R153): the block is stopped and reported under the lowest lane of the path that fetched (17 R392),
the black box takes the line address and both parity values, and the PF's error vector is raised. (Log 20, DEDUCED.) -/
def State.machineCheck (s : State) (tn lane va stored computed : Nat) : State :=
  let t := s.team tn
  let s := s.stopBlock t.block { reason := 5, core := t.core, team := t.index, lane := lane }
  let s := s.bbEvent (dieOfCore t.core) 0x02 (va + stored * 2 ^ 64 + computed * 2 ^ 96)
  s.raise 0 (natBits s.pf.errvec.toNat 7 0)

/-- A core's instruction cache takes a line (06 R153). -/
def State.cacheLine (s : State) (core func va : Nat) (ws : List Word) : State :=
  { s with ilines := { core := core, func := func, va := va, words := ws } ::
      s.ilines.filter fun l => !(l.core == core && l.func == func && l.va == va) }

/-- The line at `va`, physical `p`, that the path of lane `lane` fetches arrives with what transit did to it (06 R153).
(Log 19, DESIGN CHOICE; log 20, DEDUCED.) -/
def State.lineArrives (s : State) (tn lane va p : Nat) (damage : LineDamage) : State × Option (List Word) :=
  let t := s.team tn
  let s := (s.callHome t.core (.hbm p)).penApply (p / 64)
  let ws := s.lineAt p
  let stored := natBits (lineWord ws).toNat 31 24
  let keep (s : State) : State := s.cacheLine t.core (s.block t.block).func va ws
  match damage with
  | .none => if parityOk ws then (keep s, some ws) else (s.machineCheck tn lane va stored (xorWords (ws.take 15)), none)
  | .firstCopy =>
    if parityOk ws then
      let d := dieOfCore t.core
      (keep (s.setYard d { s.yard d with corrected := (s.yard d).corrected + 1 }), some ws)
    else (s.machineCheck tn lane va stored (xorWords (ws.take 15)), none)
  | .bothCopies => (s.machineCheck tn lane va stored (Nat.xor stored (1 + Config.freePick s.stamp va % 255)), none)

/-- Fetch translation of a PC for a lane (06 R155). -/
def State.fetchTarget (s : State) (tn L : Nat) (pc : Nat) : Except FaultInfo Target := s.resolve (s.agentOf tn L) .fetch pc 1

/-- The words of the line at a lane's PC: the core's copy, or the line as it arrives undamaged.
(Log 19, DESIGN CHOICE.) -/
def State.fetchWords (s : State) (tn : Nat) (pc : Dbl) (p : Nat) : State × Option (List Word) :=
  let t := s.team tn
  let va := (lineOf pc).toNat
  match s.ilines.find? fun l => l.core == t.core && l.func == (s.block t.block).func && l.va == va with
  | some l => (s, some l.words)
  | none => s.lineArrives tn ((t.path pc).headD 0) va (p - pc.toNat % 64) .none

/-- Rows 3 and 4 of 06 R165 for a lane at `pc` (06 R151, R152; saved state by 17 R393). -/
def entryFault (l : Lane) (pc : Dbl) (ws : List Word) : Option FaultInfo :=
  if l.arrival != .inLine && lineBad ws then some { code := 0x19, addr := lineOf pc, info := lineWord ws }
  else match l.arrival with
    | .transfer src =>
      if slotOf pc = 15 || !(lineWord ws).getLsbD (slotOf pc) then some { code := 0x18, addr := src } else none
    | _ => none

/-- What a fetch gives. -/
inductive Fetched where
  /-- Nothing issues: a walk is awaited, every lane faulted, or the block was stopped; `moved` says that something happened. -/
  | none (s : State) (moved : Bool)
  /-- Row 5, or rows 6 and 7 for words that are no instruction: ILLEGAL for the lanes in Active. -/
  | illegal (s : State) (iss : Issue)
  | run (s : State) (iss : Issue) (i : Instr)

/-- Length in slots of what stands at a slot, for the PC after it (06 R149, R150): a continuation slot, slot 15 and
LEN 0b11 count one. (Log 23, DEDUCED.) -/
def slotLength (ws : List Word) (slot : Nat) : Nat :=
  if (lineStarts ws).contains slot then (slotLen (ws.getD slot 0)).getD 1 else 1

/-- Fetch for the path of a team at `pc` (06 R165 rows 1 to 7). -/
def State.fetchPath (s : State) (tn : Nat) (pc : Dbl) : Fetched :=
  let t := s.team tn
  let group := t.path pc
  let found := group.map fun L => (L, s.fetchTarget tn L pc.toNat)
  let f1 := found.filterMap fun x => match x.2 with | .error e => some (x.1, e) | .ok _ => none
  let ok := found.filterMap fun x => match x.2 with | .ok (.hbm p) => some (x.1, p) | _ => none
  match f1.find? fun x => x.2.code == 0 with
  | some _ => .none (s.waitAll tn f1) false
  | none =>
    match ok with
    | [] => .none ((s.dropAnswers tn (f1.map (·.1))).takeFaults tn f1 pc pc) true
    | (_, p) :: _ =>
      match s.fetchWords tn pc p with
      | (s, none) => .none s true
      | (s, some ws) =>
        let bad := (ok.filterMap fun x => (entryFault (t.lane x.1) pc ws).map fun e => (x.1, e))
        let stay := (ok.map (·.1)).filter fun L => (bad.lookup L).isNone
        let s := s.setTeam tn (t.mapLanes stay fun _ l => { l with arrival := .inLine })
        let s := if f1 == [] then s else s.dropAnswers tn (f1.map (·.1))
        let s := s.takeFaults tn ((f1 ++ bad).foldl (fun l x => insertFault x l) []) pc pc
        if stay == [] || !s.teamRuns tn then .none s true
        else
          let slot := slotOf pc
          let iss : Issue := { team := tn, pc := pc, group := stay, len := slotLength ws slot, word := ws.getD slot 0 }
          match decodeAt ws slot with
          | some (i, _) => .run s iss i
          | none => .illegal s iss

/-- ILLEGAL for the lanes in Active at words that are no instruction (06 R165 rows 5 to 7). (Log 23, DEDUCED.) -/
def State.issueIllegal (s : State) (iss : Issue) : State :=
  let t := s.team iss.team
  let act := laneList.filter fun L => iss.group.contains L && (t.lane L).pend
  s.finish iss (act.map fun L => (L, ({ code := codeIllegal, info := iss.word } : FaultInfo))) { st := s }

/-! ### The scoreboard (05 R127; 10 R243) -/

/-- Vector registers that an instruction names for a lane (06 R154). -/
def instrRegs (t : Team) (L : Nat) (i : Instr) : List Nat :=
  let f := i.form
  let named := ((List.range 4).flatMap (opIndices t L f)).map Int.toNat
  let record (o : L64) (n : Nat) : List Nat := (List.range n).map (o.a.toNat + ·)
  match i with
  | .emit o => named ++ record o 64
  | .emitReg o => named ++ record o 64
  | .emitSelf o => named ++ record o 64
  | .emitRemote o => named ++ record o (4 * (immBits o.imm 3 0 + 1))
  | _ => named

/-- The instruction only reads what its D operand names: data to store, a destination address, an accumulator. -/
def readsD (i : Instr) : Bool :=
  match i with
  | .st _ => true
  | .swrite _ => true
  | .cpy _ => true
  | .cpy2d _ => true
  | .nmv _ => true
  | .mxst _ => true
  | _ => false

/-- Vector registers that an instruction writes for a lane. -/
def writtenRegs (t : Team) (L : Nat) (i : Instr) : List Nat :=
  if readsD i then [] else (opIndices t L i.form 0).map Int.toNat

/-- Registers of a lane whose results are outstanding. -/
def State.busyRegs (s : State) (tn L : Nat) : List Nat :=
  (s.accesses.flatMap fun a =>
    if a.team == tn && a.lane == L then (List.range a.ndest).map (a.dest + ·) else []) ++
  s.engines.flatMap fun e =>
    match e.kind with
    | .zscan _ d _ => if e.team == tn && e.lanes.contains L then [d] else []
    | _ => []

/-- The scoreboard holds no operand of the instruction. -/
def State.scoreClear (s : State) (tn : Nat) (ls : List Nat) (i : Instr) : Bool :=
  let t := s.team tn
  ls.all fun L => (instrRegs t L i).all fun r => !(s.busyRegs tn L).contains r

/-- A lane's path may go on: its release is over and no trap entry is due (10 R247; 11 R285; 17 R384). -/
def State.laneFree (s : State) (tn L : Nat) : Bool :=
  (match ((s.team tn).lane L).hold with
   | .none => true
   | .acks ids => s.acked ids
   | .freed _ => false
   | .sc e => !(s.engines.any fun x => x.id == e)) &&
  !(s.pendingTraps.any fun p => p.1 == tn && p.2.1 == L)

/-! ### The register cache (05 R135 to R137) -/

/-- Groups of a core's register cache. (Log 25, DEDUCED.) -/
def cacheGroups : Nat := 128

/-- Registers of group `g` in a map keyed as `Team.v`. -/
def groupVals (m : SMap Word) (g : Nat) : SMap Word := m.filter fun e => e.1 % 512 / 16 == g

/-- The dirty bit of a cached group (05 R135): its registers differ from what its context in the vault holds. -/
def Team.groupDirty (t : Team) (g : Nat) : Bool := groupVals t.v g != groupVals t.vback g

/-- A written-back group reaches the context in the vault (05 R136). -/
def Team.writeBack (t : Team) (w : WriteBack) : Team :=
  let rest := t.vback.filter fun e => e.1 % 512 / 16 != w.group
  { t with vback := w.vals.foldl (fun m e => SMap.set m 0 e.1 e.2) rest }

/-- The oldest entry of a core's write-back buffer drains to the vault (05 R136). -/
def State.drainGroup (s : State) (core : Nat) : State :=
  let c := s.core core
  match c.wbuf with
  | [] => s
  | w :: r => (s.setCore core { c with wbuf := r }).setTeam w.team ((s.team w.team).writeBack w)

/-- Drain at most `n` entries of a core's write-back buffer. -/
def State.drainAll (s : State) (core n : Nat) : State :=
  match n with
  | 0 => s
  | k + 1 => (s.drainGroup core).drainAll core k

/-- Victim class of a cached group (05 R137), 1 to 4; 0 for a group that the instruction names. -/
def State.victimClass (s : State) (named : List (Nat × Nat)) (p : Nat × Nat) : Nat :=
  let t := s.team p.1
  if named.contains p then 0
  else if t.parking then 1
  else if laneList.all fun L => !(t.lane L).isReady then 2
  else if t.lastIssue + 256 < s.cycle.toNat then 3
  else 4

/-- The group that leaves a full register cache: the least recently used of the first class that holds one.
(Log 25, DEDUCED.) -/
def State.victim (s : State) (cache named : List (Nat × Nat)) : Option (Nat × Nat) :=
  let of (c : Nat) : Option (Nat × Nat) := (cache.filter fun p => s.victimClass named p == c).getLast?
  (of 1).or ((of 2).or ((of 3).or (of 4)))

/-- Put a group first in a core's register cache; a full cache loses a victim, and a dirty victim goes to the write-back buffer (05
R136). -/
def State.cacheGroup (s : State) (core : Nat) (named : List (Nat × Nat)) (p : Nat × Nat) : State :=
  let c := s.core core
  let rest := c.rcache.filter (· != p)
  if rest.length < cacheGroups then s.setCore core { c with rcache := p :: rest }
  else match s.victim rest named with
    | some v =>
      let t := s.team v.1
      let out : List WriteBack := if t.groupDirty v.2 && !t.zeroGroupAll v.2 then
        [{ team := v.1, group := v.2, vals := groupVals t.v v.2 }] else []
      s.setCore core { c with rcache := p :: rest.filter (· != v), wbuf := c.wbuf ++ out }
    | none => s.setCore core { c with rcache := p :: rest }

/-- Groups that an instruction names for the lanes of a path, within the allotment, ascending. -/
def State.namedGroups (s : State) (tn : Nat) (ls : List Nat) (i : Instr) : List Nat :=
  let t := s.team tn
  let regs := (s.nodeOf t.block).regs
  let gs := ls.flatMap fun L => ((instrRegs t L i).filter (· < regs)).map (· / 16)
  (List.range 32).filter gs.contains

/-- Named groups that are not cached and must be filled, a zero group with zeros (05 R136). (Log 25, DEDUCED.) -/
def State.missing (s : State) (tn : Nat) (gs : List Nat) : List Nat :=
  gs.filter fun g => !((s.core (s.team tn).core).rcache.contains (tn, g))

/-- The groups of a list take their place in the cache, where `named` are those that the instruction names: they are the most
recent. (Log 25, DEDUCED.) -/
def State.useGroups (s : State) (tn : Nat) (gs named : List Nat) : State :=
  let core := (s.team tn).core
  gs.foldl (fun s g => s.cacheGroup core (named.map fun g => (tn, g)) (tn, g)) s

/-- REGISTER_FILL (05 R136): the team's outstanding fills complete, in ascending order; a group of the team that still stands in
the write-back buffer reaches the vault first. -/
def execRegisterFill (tn : Nat) (s : State) : Host.Outcome State Fault Refusal :=
  let t := s.team tn
  if t.filling = [] || !t.resident then .next s
  else
    let w := (s.core t.core).wbuf
    let s := if w.any fun e => e.team == tn && t.filling.contains e.group then s.drainAll t.core w.length else s
    let s := s.useGroups tn t.filling t.fillFor
    .next (s.setTeam tn { s.team tn with filling := [], fillFor := [] })

/-! ### Which path issues (05 R127, R129; 08 R209) -/

/-- The instruction at which a path stands, as the next fetch would find it. -/
def State.nextInstr (s : State) (tn : Nat) (pc : Dbl) : Option Instr :=
  match s.fetchPath tn pc with
  | .run _ _ i => some i
  | _ => none

/-- A path can issue, as far as the scoreboard, its fills and its holds say. -/
def State.pathFree (s : State) (tn : Nat) (pc : Dbl) : Bool :=
  let ls := (s.team tn).path pc
  ls != [] && (s.team tn).filling == [] && ls.all (s.laneFree tn) &&
  match s.nextInstr tn pc with
  | some i => s.scoreClear tn ls i
  | none => true

/-- FAIR as it acts: a value below 64 acts as 64 (05 R129). -/
def Team.fairness (t : Team) : Nat := max 64 t.fair.toNat

/-- The PC at which the path last served stands, while it can be followed: none while its lane waits or has exited. -/
def Team.lastPc (t : Team) : Option Dbl :=
  match t.lastLane with
  | some L => if (t.lane L).isReady then some (t.lane L).pc else none
  | none => none

/-! ### Lines fetched ahead (08 R210) -/

/-- The line that a transfer has fetched ahead: of its target or the next, as its kind and hint say (08 R210). JTAB's target is
known only when it transfers. (Log 121, DEDUCED.) -/
def aheadLine (c : Ctx) (i : Instr) : Option Dbl :=
  let next := lineOf c.iss.pc + 64
  let direct (lit : Option Word) : Option Dbl := some (lineOf (branchTarget c lit))
  let cond (lit : Option Word) : Option Dbl :=
    if c.form.hintv = 1 || c.form.hintv = 3 then direct lit else if c.form.hintv = 2 then some next else none
  let indirect (target : Nat → Dbl) : Option Dbl :=
    if c.form.hintv = 1 || c.form.hintv = 3 then c.act.head?.map fun L => lineOf (target L) else none
  match i with
  | .bra _ => direct none
  | .braLong o => direct (some o.lit)
  | .call _ => direct none
  | .callLong o => direct (some o.lit)
  | .brnz _ => cond none
  | .brz _ => cond none
  | .brk _ => cond none
  | .brnzLong o => cond (some o.lit)
  | .brzLong o => cond (some o.lit)
  | .brkLong o => cond (some o.lit)
  | .jmp _ => indirect (slotTarget c)
  | .callr _ => indirect (slotTarget c)
  | .ret _ => indirect fun L => rd64 c.team L c.form 1
  | _ => none

/-- The line that the path at `pc` fetches ahead. -/
def State.fetchAhead (s : State) (tn : Nat) (pc : Dbl) : Option Dbl :=
  match s.fetchPath tn pc with
  | .run s' iss i =>
    let t := s'.team tn
    aheadLine { iss := iss, team := t, block := s'.block t.block, node := s'.nodeOf t.block, form := i.form,
                act := iss.group.filter fun L => (t.lane L).pend } i
  | _ => none

/-- LINE_FILL (06 R153; 08 R210): a line at which a READY lane of the team stands, or that its path fetches ahead, arrives at the
core's instruction cache.
(Log 19, DESIGN CHOICE.) -/
def execLineFill (tn : Nat) (va : Dbl) (damage : LineDamage) (s : State) : Host.Outcome State Fault Refusal :=
  let t := s.team tn
  match (if s.teamRuns tn then laneList.filter fun L => (t.lane L).isReady &&
      (lineOf (t.lane L).pc == va || s.fetchAhead tn (t.lane L).pc == some va) else []) with
  | [] => .next s
  | L :: _ =>
    match s.fetchTarget tn L va.toNat with
    | .ok (.hbm p) => .next (s.lineArrives tn L va.toNat p damage).1
    | _ => .next s

/-- Insert a team by INSNS, ties by index (05 R127). (Log 27, DEDUCED.) -/
def insertTeam (x : Nat × Nat × Nat) (l : List (Nat × Nat × Nat)) : List (Nat × Nat × Nat) :=
  match l with
  | [] => [x]
  | y :: r => if x.1 < y.1 || (x.1 == y.1 && x.2.1 < y.2.1) then x :: y :: r else y :: insertTeam x r

/-- The teams of a block that may issue, in the order in which they are tried. -/
def State.teamOrder (s : State) (b : Nat) : List Nat :=
  let ts := ((s.block b).teams.filter s.teamRuns).map fun tn => ((s.team tn).insns.toNat, (s.team tn).index, tn)
  (ts.foldl (fun l x => insertTeam x l) []).map (·.2.2)

/-- The blocks of a core from its pointer on (05 R127). (Log 27, DEDUCED.) -/
def Core.rotation (c : Core) : List Nat :=
  let n := c.pointer % (max c.blocks.length 1)
  c.blocks.drop n ++ c.blocks.take n

/-- Teams of a core in the order in which they are tried. (Log 27, DEDUCED.) -/
def State.issueOrder (s : State) (n : Nat) : List Nat := (s.core n).rotation.flatMap s.teamOrder

/-! ### Pairs (05 R126; 06 R154) -/

/-- Operand D names a register file other than the vector registers, which the instruction writes: file and number. -/
def writtenOther (i : Instr) : List (Kind × Nat) :=
  if readsD i then []
  else [Kind.x, Kind.w, Kind.k, Kind.acc].filterMap fun f => if i.form.d.kind == f then some (f, i.form.d.field.toNat) else none

/-- Registers of the other files that an instruction names: the index register of an indirect operand among them (05 R140), and the
masks that STRIKE clears (08 R211). EXIT names none. (Log 150, DEDUCED.) -/
def namedOther (i : Instr) : List (Kind × Nat) :=
  let f := i.form
  let ops := [f.d, f.a, f.b, f.c]
  ([Kind.x, Kind.w, Kind.k, Kind.acc].flatMap fun g => (ops.filter fun o => o.kind == g).map fun o => (g, o.field.toNat)) ++
  (match i with
   | .strike o => ((List.range 12).filter fun n => o.d.toNat ≤ n).map fun n => (Kind.k, n)
   | _ => []) ++
  if formIndirect f then [(Kind.x, indIX f.imm)] else []

/-- LIVE names the registers of the groups that it zeroes (05 R138). -/
def liveNames (i : Instr) (r : Nat) : Bool :=
  match i with
  | .live o => !o.lit.getLsbD (r / 16)
  | _ => false

/-- The second instruction names no register that the first writes, in any of the lanes (06 R154). -/
def pairApart (t : Team) (ls : List Nat) (i j : Instr) : Bool :=
  (ls.all fun L => (writtenRegs t L i).all fun r => !(instrRegs t L j).contains r && !liveNames j r) &&
  (writtenOther i).all fun r => !(namedOther j).contains r

/-- The second half of a pair that may issue with the instruction at `iss` (06 R154): its issue and itself. A lane in which the first
faulted does not execute it, and where such a lane's handler stands at the second, the path issues singly. `t` is the team before
the first, `s` the state after it. -/
def State.pairNext (s : State) (t : Team) (iss : Issue) (i : Instr) : Option (Issue × Instr) :=
  let va := (lineOf iss.pc).toNat
  let f := (s.block t.block).func
  match s.ilines.find? fun l => l.core == t.core && l.func == f && l.va == va with
  | none => none
  | some l =>
    let starts := lineStarts l.words
    match starts.idxOf? (slotOf iss.pc) with
    | none => none
    | some j =>
      let pc := nextPc iss.pc iss.len
      let u := s.team iss.team
      let ls := iss.group.filter fun L => (u.lane L).isReady && (u.lane L).pc == pc
      let faulted (L : Nat) : Bool := (u.lane L).trap && !(t.lane L).trap
      if 7 ≤ j || ls.any faulted || !(lineWord l.words).getLsbD (16 + j) || starts[j + 1]? != some (slotOf pc) || lineOf pc != lineOf iss.pc ||
         ls == [] || u.path pc != ls then none
      else match decodeAt l.words (slotOf pc) with
        | none => none
        | some (k, n) =>
          if i.form.cls == .C || i.form.cls == k.form.cls || !pairApart t ls i k || !s.teamRuns iss.team ||
             !(ls.all (s.laneFree iss.team)) || !s.scoreClear iss.team ls k ||
             s.missing iss.team (s.namedGroups iss.team ls k) != [] then none
          else some ({ team := iss.team, pc := pc, group := ls, len := n, word := l.words.getD (slotOf pc) 0 }, k)

/-! ### What follows every turn -/

/-- Conditions that hold at once after any turn: completions, waits and messages that nothing keeps.
(Log 22, DEDUCED.) -/
def State.settle (s : State) : State :=
  let s := s.pruneAnswers.flushDone.stampAll.endAllFreed
  let s := s.flushPosted.drainAllTeams.logReturns.placeWaiting.sendEmissions
  let s := s.serveOutgoing.drainRemote.postWaiting
  let s := s.parkWaiting.resumeWalks.settlePages.fetchDue
  s.markEligible.moveRound.preemptDone

/-- One core cycle passes: CYCLE counts from stage 0x05 (05 R143). -/
def State.tick (s : State) : State :=
  let s := { s with marks := [], crossings := [] }
  if s.dev.stage = 5 then { s with cycle := s.cycle + 1 } else s

end Sys2Proof.Machine
end

