-- ==== Sys2Proof/Machine/Mask.lean ====
section
/-! DEFINITION. Masks, rejoins and mask arithmetic (08 R203, R211 to R216). -/
namespace Sys2Proof.Machine

/-- Write one bit of a mask for every Active lane; its release check runs. -/
def laneMask (i : Instr) (s : State) (f : Ctx → Nat → Bool) : Host.Outcome State Fault Refusal :=
  cmpInstr i s f

/-- Write the whole of mask D; its release check runs (08 R216). Nothing happens when no lane is Active.
(Log 137, DESIGN CHOICE.) -/
def wholeMask (i : Instr) (s : State) (f : Ctx → Dbl) : Host.Outcome State Fault Refusal :=
  runInstr i s fun c => teamEffect s c fun _ =>
    let d := c.form.d.field.toNat
    { st := s.setTeam c.iss.team (c.team.setK d (f c)), masks := [d] }

/-- Mask D of the team. -/
def maskD (c : Ctx) : Dbl := c.team.kreg c.form.d.field.toNat
/-- Mask A of the team. -/
def maskA (c : Ctx) : Dbl := c.team.kreg c.form.a.field.toNat

/-- PRED and PRED.NOT (08 R203): lanes not in Active keep a predicate of 0. -/
def predInstr (i : Instr) (inv : Bool) (s : State) : Host.Outcome State Fault Refusal :=
  runInstr i s fun c =>
    { st := s
      off := c.iss.group.filter fun L =>
        !(c.act.contains L && (c.team.kbit c.form.a.field.toNat L != inv)) }

/-- PRED. -/
def execPred (o : S32) (s : State) : Host.Outcome State Fault Refusal := predInstr (.pred o) false s
/-- PRED.NOT. -/
def execPredNot (o : S32) (s : State) : Host.Outcome State Fault Refusal := predInstr (.predNot o) true s

/-- ENROL (08 R211). -/
def execEnrol (o : S32) (s : State) : Host.Outcome State Fault Refusal := laneMask (.enrol o) s fun _ _ => true
/-- LEAVE (08 R211). -/
def execLeave (o : S32) (s : State) : Host.Outcome State Fault Refusal := laneMask (.leave o) s fun _ _ => false

/-- STRIKE clears the lanes in every mask from D to k11 (08 R211). -/
def execStrike (o : S32) (s : State) : Host.Outcome State Fault Refusal :=
  runInstr (.strike o) s fun c =>
    let ns := (List.range 12).filter fun n => c.form.d.field.toNat ≤ n
    { st := s.setTeam c.iss.team (ns.foldl (fun t n => c.act.foldl (fun t L => t.setKbit n L false) t) c.team)
      masks := ns }

/-- JOIN and WAITK (08 R212): enrolled lanes wait; the arrival is a release (11 R280). In deterministic mode the entry of the mask's
release must have room, one for all its waiters (18 R415). (Log 141, DEDUCED.) -/
def waitMask (i : Instr) (w : List Nat → Wait) (s : State) : Host.Outcome State Fault Refusal :=
  runInstr i s fun c =>
    let d := c.form.d.field.toNat
    let enrolled := c.act.filter fun L => c.team.kbit d L
    let faults := enrolled.filterMap fun L =>
      (s.logNeed c.iss.team L (dieOfCore c.team.core) .order (if c.team.atMask d = [] then 1 else 0)).map fun e => (L, e)
    let at' := enrolled.filter fun L => (faults.lookup L).isNone
    { st := s.gives c.iss.team at'
      faults := faults
      waits := at'.map fun L => (L, w (s.unacked c.iss.team))
      masks := [d]
      check := true }

/-- JOIN. -/
def execJoin (o : S32) (s : State) : Host.Outcome State Fault Refusal := waitMask (.join o) (.join o.d.toNat) s
/-- WAITK. -/
def execWaitk (o : S32) (s : State) : Host.Outcome State Fault Refusal := waitMask (.waitk o) (.waitk o.d.toNat) s

/-- KMOV (08 R216). -/
def execKmov (o : S32) (s : State) : Host.Outcome State Fault Refusal := wholeMask (.kmov o) s maskA
/-- KNOT. -/
def execKnot (o : S32) (s : State) : Host.Outcome State Fault Refusal := wholeMask (.knot o) s fun c => ~~~(maskA c)
/-- KAND. -/
def execKand (o : S32) (s : State) : Host.Outcome State Fault Refusal :=
  wholeMask (.kand o) s fun c => maskD c &&& maskA c
/-- KOR. -/
def execKor (o : S32) (s : State) : Host.Outcome State Fault Refusal := wholeMask (.kor o) s fun c => maskD c ||| maskA c
/-- KXOR. -/
def execKxor (o : S32) (s : State) : Host.Outcome State Fault Refusal :=
  wholeMask (.kxor o) s fun c => maskD c ^^^ maskA c
/-- KANDN. -/
def execKandn (o : S32) (s : State) : Host.Outcome State Fault Refusal :=
  wholeMask (.kandn o) s fun c => maskD c &&& ~~~(maskA c)
/-- KACT (08 R216). -/
def execKact (o : S32) (s : State) : Host.Outcome State Fault Refusal := wholeMask (.kact o) s fun c => maskOf c.act

/-- KPOP (08 R216). -/
def execKpop (o : S32) (s : State) : Host.Outcome State Fault Refusal :=
  laneInstr (.kpop o) s fun c L t => wr32 c.team L c.form (BitVec.ofNat 32 (popCount (maskA c))) t
/-- KGET (08 R216). -/
def execKget (o : S32) (s : State) : Host.Outcome State Fault Refusal :=
  laneInstr (.kget o) s fun c L t =>
    wr32 c.team L c.form (if c.team.kbit c.form.a.field.toNat L then 1 else 0) t
/-- KSET (08 R216). -/
def execKset (o : S32) (s : State) : Host.Outcome State Fault Refusal :=
  laneMask (.kset o) s fun c L => rd32 c.team L c.form 1 != 0

end Sys2Proof.Machine
end

