-- ==== Sys2Proof/Machine/Registers.lean ====
section
/-! DEFINITION. Registers of the functions' BARs: what a write does, by the access codes of 00 R7, and what a read returns
(01 R30, R433; 03 R61, R77, R79, R84; 04 R103, R116; 09 R232, R235, R236; 10 R260, R261, R270; 12 R310; 17 R392, R398;
18 R411, R418, R420, R421). -/
namespace Sys2Proof.Machine

/-- The bits of a written value that a field keeps; the others are reserved and read zero. -/
def keep (v mask : Dbl) : Dbl := v &&& mask

/-- The registers answer host accesses (01 R31): stage 0x05 with the rails on. (Log 82, PRESUMED.) -/
def State.barsLive (s : State) : Bool := s.dev.stage == 5 && !s.dev.railsOff

/-! ### Partition table and quotas (01 R433; 03 R79) -/

/-- A function has a run admitted or waiting, a block resident, parked or saved, or a cut in force (01 R433). -/
def State.busyOwner (s : State) (f : Nat) : Bool :=
  (s.runs.any fun r => r.2.func == f && (match r.2.stage with | .done _ => false | _ => true)) ||
  (s.blocks.any fun b => b.2.func == f) || (s.func f).cut

/-- A write of OWNER of partition `p` (01 R433). -/
def State.writePartown (s : State) (p : Nat) (v : Word) : State :=
  let o := natBits v.toNat 7 0
  let cur := (s.pf.partown.get 0xFF p).toNat
  if 40 ≤ p || o = 0 || (193 ≤ o && o ≤ 254) || o = cur || s.busyOwner cur || s.busyOwner o then s
  else { s with pf := { s.pf with partown := s.pf.partown.set 0xFF p (BitVec.ofNat 8 o) } }

/-- PARTOWN_WRITE (01 R433); RWH. -/
def execPartownWrite (who p : Nat) (v : Word) (s : State) : Host.Outcome State Fault Refusal :=
  .next (if who = 0 && s.barsLive then s.writePartown p v else s)

/-- A queue range is allowed for function `f` (03 R79). -/
def State.rangeOk (s : State) (f base count : Nat) : Bool :=
  base + count ≤ 32768 && !(s.queues.any fun q => q.2.created && q.2.owner == f) &&
  s.funcs.all fun g => g.1 == f || !overlaps base count (natBits g.2.qbase.toNat 14 0) g.2.queues

/-- A write to DCTRS (03 R77, R79): counters at or above a lowered count are discarded. -/
def Func.setDctrs (x : Func) (n : Nat) : Func :=
  { x with dctrs := BitVec.ofNat 32 n, ctr := x.ctr.filter fun e => e.1 < n }

/-- A write to a register of function `f`'s quota block (03 R77, R79). A write of DCTRS changes a condition of 03 R72, and so the
function's queues are examined (R65). -/
def State.writeQuota (s : State) (f o : Nat) (v : Word) : State :=
  let x := s.func f
  let qb := natBits v.toNat 14 0
  let qc := natBits v.toNat 15 0
  match o with
  | 0x00 => if s.rangeOk f qb x.queues then s.setFunc f { x with qbase := v &&& 0x7FFF } else s
  | 0x04 => if s.rangeOk f (natBits x.qbase.toNat 14 0) qc then s.setFunc f { x with qcount := v &&& 0xFFFF } else s
  | 0x08 => if 4096 < natBits v.toNat 12 0 then s else (s.setFunc f (x.setDctrs (natBits v.toNat 12 0))).examineAll f
  | 0x0C => s.setFunc f { x with stallq := v }
  | 0x10 => s.setFunc f { x with predq := v &&& 0xFFFF }
  | 0x14 => s.setFunc f { x with runq := v &&& 0xFFF }
  | 0x18 => s.setFunc f { x with weight := v &&& 0xFF }
  | _ => s

/-- QUOTA_WRITE (03 R79); RWH. `off` is the register's offset in PF BAR0. -/
def execQuotaWrite (who off : Nat) (v : Word) (s : State) : Host.Outcome State Fault Refusal :=
  .next (if who = 0 && s.barsLive && 0x4000 ≤ off && off < 0x4000 + 0x20 * 193 then
    s.writeQuota ((off - 0x4000) / 0x20) (off % 0x20) v else s)

/-! ### Yard blocks (04 R103) -/

/-- Translations that map a page of reserved HBM, and table entries that lead into it, leave every TLB and walk cache: so it is done
before a new range takes effect (09 R230). -/
def State.dropReserved (s : State) : State :=
  { s with
    tlb := s.tlb.filter fun e => !(natBits e.pte.toNat 9 8 == 0 && s.reservedAt (pteFrame e.pte.toNat) (leafSize e.level))
    walks := s.walks.filter fun w => !s.reservedAt (pteFrame w.entry) 4096 }

/-- A write to LOFTHBM of die `d` (04 R103): ignored while a run holds a loft reservation there; else the die's reserved
range is resized. What a value above 65,536 does is not stated: it takes effect or is ignored.
(Log 83, DESIGN CHOICE.) -/
def State.writeLofthbm (s : State) (d : Nat) (v : Word) : State :=
  let y := s.yard d
  let n := natBits v.toNat 16 0
  if y.reserved ≠ 0 || (65536 < n && Config.freePick s.stamp d % 2 = 0) then s
  else { s.setYard d { y with lofthbm := BitVec.ofNat 32 n } with
    reserved := s.reserved.map fun (r : Nat × Nat × Nat × Nat) =>
      if r.2.2.1 = 1 && r.2.2.2 == d then (r.1, n * 2 ^ 20, 1, d) else r }.dropReserved

/-- LOFTHBM_WRITE (04 R103); RWH. -/
def execLofthbmWrite (who d : Nat) (v : Word) (s : State) : Host.Outcome State Fault Refusal :=
  .next (if who = 0 && s.barsLive && d < 4 then s.writeLofthbm d v else s)

/-- YARDCFG after a write (04 R103): BAYLIM and BPI keep their values where 0 is written. -/
def yardCfg (old v : Word) : Word :=
  let f (hi lo : Nat) (zero : Bool) : Nat :=
    let n := natBits v.toNat hi lo
    (if n = 0 && zero then natBits old.toNat hi lo else n) * 2 ^ lo
  BitVec.ofNat 32 (f 27 24 true + f 23 16 false + f 15 8 true + f 7 0 false)

/-- Bytes of the copies of mustered records that a Yard holds in the loft until their blocks retire (04 R110). -/
def State.heldCopies (s : State) (d : Nat) : Nat :=
  ((s.blocks.filter fun b => (s.run b.2.run).homeDie b.2.node == d).map fun b =>
    b.2.records.length * ((s.nodeAt b.2.run b.2.node).rsize + 16)).sum

/-- YSTAT: entries in stall SRAM, and loft in use in KiB, saturating (04 R103). (Log 60, DEDUCED.) -/
def State.ystat (s : State) (d : Nat) : Nat :=
  let inSram := ((s.stallsOf d).map fun e => ((e.2.segs.filter fun g => g.1 == 0).map fun g => g.2.1).sum).sum
  inSram % 2 ^ 32 + min (4 * (s.tierUse d 1 + s.tierUse d 2) + (s.heldCopies d + 1023) / 1024) 0xFFFFFFFF * 2 ^ 32

/-- A write to a register of a Yard block. -/
def State.writeYard (s : State) (d o : Nat) (v : Word) : State :=
  match o with
  | 0x00 => s.setYard d { s.yard d with cfg := yardCfg (s.yard d).cfg v }
  | 0x04 => s.setYard d { s.yard d with loftl2 := v &&& 0x7F }
  | 0x08 => s.writeLofthbm d v
  | _ => s

/-! ### Memory blocks and translation (09 R232, R235, R236) -/

/-- Page `n` of 4 KiB in the range of an invalidation (09 R236). -/
def inRange (all : Bool) (first count page : Nat) : Bool := all || (first ≤ page && page < first + count)

/-- Remove the translations of a function in a range from every TLB, and what leads to them from every walk cache. An entry is for one
page of 4 KiB, also of a larger leaf. (Log 84, DEDUCED; log 147, DESIGN CHOICE.) -/
def State.dropTlb (s : State) (f : Nat) (all : Bool) (first count : Nat) : State :=
  { s with
    tlb := s.tlb.filter fun e => !(e.func == f && inRange all first count e.page)
    walks := s.walks.filter fun w =>
      !(w.func == f && (all || overlaps (w.part * 512 ^ (w.level - 1)) (512 ^ (w.level - 1)) first count)) }

/-- Referred walks of a function in flight for pages of a range: what they bring is discarded (09 R236). -/
def State.staleWalks (s : State) (f : Nat) (hit : Nat → Bool) : State :=
  { s with referrals := s.referrals.map fun (r : Referral) =>
      if r.mode = 2 && r.func == f && hit (r.arg0.toNat / 4096) then { r with stale := true } else r }

/-- Accesses of a function that may still use a translation of the pages of a range: not yet performed, or pairs not yet accepted.
A private access uses the page of its global alias (09 R224, R236). -/
def State.usesPages (s : State) (f : Nat) (hit : Nat → Bool) : Bool :=
  (s.accesses.any fun a => a.func == f && a.stage == .issued && hit ((lockPlace (s.agentOf a.team a.lane) a.va.toNat).2 / 4096)) ||
  (s.pairs.any fun p => p.func == f && !p.accepted)

/-- The new root of a function takes effect: no translation under the old one is left. -/
def State.installRoot (s : State) (f : Nat) : State :=
  match (s.func f).newRoot with
  | none => s
  | some v => (s.dropTlb f true 0 0).setFunc f { s.func f with ptroot := v, newRoot := none }

/-- A write to PTROOT (09 R232): ignored whole where TOPBITS is out of range; else an invalidation of the function's address
space, which completes once no access uses the old root (R238), and then the new root. (Log 84, DEDUCED.) -/
def State.writePtroot (s : State) (f : Nat) (v : Dbl) : State :=
  let top := natBits v.toNat 4 0
  if top < 9 || 17 < top then s
  else
    let s := ((s.staleWalks f fun _ => true).dropTlb f true 0 0).setFunc f
      { s.func f with newRoot := some (keep v 0x000FFFFFFFFFF11F) }
    if s.usesPages f fun _ => true then s else s.installRoot f

/-- Every invalidation that a PTROOT write implies and that is now over completes. -/
def State.installRoots (s : State) : State :=
  s.funcs.foldl (fun s f => if f.2.newRoot.isNone || s.usesPages f.1 fun _ => true then s else s.installRoot f.1) s

/-- PTROOT_WRITE (09 R232); RWH. -/
def execPtrootWrite (who f : Nat) (v : Dbl) (s : State) : Host.Outcome State Fault Refusal :=
  .next (if who = 0 && s.barsLive && f < 193 then s.writePtroot f v else s)

/-- A block of the function holds an arena (09 R232). -/
def State.holdsArena (s : State) (f : Nat) : Bool := s.blocks.any fun b => b.2.func == f && b.2.arena != 0

/-- A write to a register of function `f`'s memory block. -/
def State.writeMemory (s : State) (f o : Nat) (v : Dbl) : State :=
  match o with
  | 0x00 => s.writePtroot f v
  | 0x08 => if s.holdsArena f then s else s.setFunc f { s.func f with privarena := keep v 0x00FFFFFFFFFFF000 }
  | 0x10 => if s.holdsArena f then s else s.setFunc f { s.func f with privarsz := keep v 0x0000FFFFFFFFF000 }
  | 0x18 => if natBits v.toNat 15 0 = 0 then s
            else s.setFunc f { s.func f with waymask := BitVec.ofNat 32 (natBits v.toNat 15 0) }
  | _ => s

/-- A page is in the range that INVCTL and INVVA name (09 R236). -/
def PfRegs.invHit (p : PfRegs) (page : Nat) : Bool :=
  inRange (p.invctl.getLsbD 30) (natBits p.invva.toNat 55 12) (natBits p.invctl.toNat 29 16 + 1) page

/-- A write to INVCTL (09 R236): ignored while GO reads 1; a write of GO reaches the walks in flight. -/
def State.writeInvctl (s : State) (v : Word) : State :=
  if s.pf.invctl.getLsbD 31 then s
  else
    let s := { s with pf := { s.pf with invctl := v &&& 0xFFFF00FF } }
    if v.getLsbD 31 then s.staleWalks (natBits v.toNat 7 0) s.pf.invHit else s

/-- INVALIDATE (09 R236); RWH. -/
def execInvalidate (who : Nat) (v : Word) (s : State) : Host.Outcome State Fault Refusal :=
  .next (if who = 0 && s.barsLive then s.writeInvctl v else s)

/-- INVALIDATION_COMPLETE (09 R236): translations of the range leave the TLBs, and GO clears once the accesses of the
function in the range have been performed at their homes. Invalidations that PTROOT writes imply complete likewise (R232).
(Log 84, DEDUCED.) -/
def execInvalidationComplete (s : State) : Host.Outcome State Fault Refusal :=
  let s := s.installRoots
  let c := s.pf.invctl.toNat
  let f := natBits c 7 0
  let first := natBits s.pf.invva.toNat 55 12
  let count := natBits c 29 16 + 1
  let hit := inRange (c.testBit 30) first count
  if !c.testBit 31 then .next s
  else if s.usesPages f hit then .next (s.dropTlb f (c.testBit 30) first count)
  else
    let s := s.dropTlb f (c.testBit 30) first count
    .next { s with pf := { s.pf with invctl := s.pf.invctl &&& 0x7FFFFFFF } }

/-! ### Region table (10 R261) -/

/-- A region as a range: base and bytes. -/
def Region.range (r : Region) : Nat × Nat := (natBits r.rbase.toNat 55 6 * 64, 64 * natBits r.rctl.toNat 31 0)

/-- The entry would be a valid region that keeps the tests of 10 R261. -/
def Func.regionFits (x : Func) (i : Nat) (r : Region) : Bool :=
  natBits r.rctl.toNat 37 35 ≤ 4 && natBits r.rctl.toNat 34 32 ≤ 2 && natBits r.rctl.toNat 31 0 != 0 &&
  x.regions.all fun e => e.1 == i || !e.2.rctl.getLsbD 63 || !overlaps r.range.1 r.range.2 e.2.range.1 e.2.range.2

/-- A write at offset `o` of the region table (10 R261). Clearing VALID sets PENDING, and the entry stays in force until the
region's pairs are applied. The lines of a region that becomes valid leave the L1s (R265). (Log 85, DEDUCED.) -/
def State.writeRegion (s : State) (f o : Nat) (v : Dbl) : State :=
  let x := s.func f
  let i := o / 16
  let r := x.regions.get {} i
  let put (r : Region) : State := s.setFunc f { x with regions := x.regions.set {} i r }
  let valid := r.rctl.getLsbD 63
  let w : Dbl := keep v 0x8000003FFFFFFFFF ||| (r.rctl &&& 0x4000000000000000)
  if o % 16 = 0 then
    if valid then s else put { r with rbase := keep v 0x00FFFFFFFFFFFFC0 }
  else if o % 16 ≠ 8 then s
  else if valid then
    if v.getLsbD 63 then s else put { r with rctl := r.rctl ||| (1 <<< 61), next := w }
  else if v.getLsbD 63 && !x.regionFits i { r with rctl := w } then s
  else (put { r with rctl := w }).dropRegions

/-- REGION_WRITE (10 R261): by the owning function or the PF. -/
def execRegionWrite (who f off : Nat) (v : Dbl) (s : State) : Host.Outcome State Fault Refusal :=
  .next (if (who = 0 || who = f) && s.barsLive && f < 193 && 0x1000 ≤ off && off < 0x2000 then
    s.writeRegion f (off - 0x1000) v else s)

/-- Lines with committed pairs of a region. -/
def State.regionLines (s : State) (f i : Nat) : List Nat :=
  (s.pairs.filter fun p => p.func == f && p.region == i && p.accepted && !p.held).foldl
    (fun l p => if l.contains (p.p / 64) then l else l ++ [p.p / 64]) []

/-- Apply a line if its log entries have room; only an apply without room for all of them waits (18 R415). -/
def State.applyIfRoom (s : State) (line : Nat) : State :=
  if s.logsFit (s.batchDies [line]) then s.applyLine line else s

/-- REGION_CLEAR_DONE (10 R261): the committed pairs of the region are applied; then PENDING clears and VALID is 0.
(Log 85, DEDUCED.) -/
def execRegionClearDone (f i : Nat) (s : State) : Host.Outcome State Fault Refusal :=
  let r := (s.func f).regions.get {} i
  if !r.rctl.getLsbD 61 then .next s
  else
    let s := (s.regionLines f i).foldl State.applyIfRoom s
    if s.regionLines f i ≠ [] then .next s
    else
      let x := s.func f
      let torn := r.rctl &&& 0x4000000000000000
      let new : Region := { rbase := r.rbase, rctl := keep r.next 0x3FFFFFFFFF ||| torn }
      .next (s.setFunc f { x with regions := x.regions.set {} i new })

/-! ### Logs (18 R411) -/

/-- A job in deterministic mode is in flight. -/
def State.detInFlight (s : State) : Bool := s.jobs.any (·.det)

/-- What waited for room in a log goes on: release checks, arrivals, lists, retirements' effects, held placements. -/
def State.logMoved (s : State) : State :=
  let s := s.teams.foldl (fun s t => if s.det t.2.block then s.recheck t.1 else s) s
  let s := s.stalls.foldl (fun s k => s.serveWaiting (keyRun k.1) (keyNode k.1)) s
  s.runs.foldl (fun s r => if r.2.det then s.checkRun r.1 else s) s.placeWaiting.drainRemote

/-- A tail after a write: only forward, and not beyond the head (18 R411). -/
def tailTo (tail head v : Dbl) : Dbl := if tail < v && v ≤ head then v else tail

/-- Firmware reserves the ring of a log where BASE and SIZE now put it (09 R230, 18 R411). -/
def State.reserveRing (s : State) (d kind : Nat) (base : Dbl) (size : Word) : State :=
  let others := s.reserved.filter fun r => r.2.2 != (kind, d)
  { s with reserved := if size = 0 then others else others ++ [(base.toNat, 4096 * size.toNat, kind, d)] }.dropReserved

/-- A write to a register of a die's log block (18 R411). -/
def State.writeLogReg (s : State) (d o : Nat) (v : Dbl) : State :=
  let y := s.yard d
  let base := keep v 0x000FFFFFFFFFF000
  let size := BitVec.ofNat 32 (natBits v.toNat 19 0)
  match o with
  | 0x00 => if s.detInFlight then s else (s.reserveRing d 6 base y.ylsize).setYard d { y with ylbase := base }
  | 0x08 => if s.detInFlight then s else (s.reserveRing d 6 y.ylbase size).setYard d { y with ylsize := size }
  | 0x18 => (s.setYard d { y with yltail := tailTo y.yltail y.ylhead v }).logMoved
  | 0x20 => if s.detInFlight then s else (s.reserveRing d 7 base y.mlsize).setYard d { y with mlbase := base }
  | 0x28 => if s.detInFlight then s else (s.reserveRing d 7 y.mlbase size).setYard d { y with mlsize := size }
  | 0x38 => (s.setYard d { y with mltail := tailTo y.mltail y.mlhead v }).logMoved
  | _ => s

/-! ### Pre-emption (17 R398) -/

/-- The state of an outcome, where it is a next state. -/
def orKeep (s : State) (o : Host.Outcome State Fault Refusal) : State :=
  match o with
  | .next t => t
  | _ => s

/-- A write to PREEMPT (17 R398): ignored while GO reads 1 and for OP 6 and 7; GO starts the request.
(Log 91, DEDUCED.) -/
def State.writePreempt (s : State) (v : Word) : State :=
  let f := natBits v.toNat 23 16
  let job := natBits v.toNat 15 0
  let op := natBits v.toNat 30 28
  if s.pf.preempt.getLsbD 31 || 6 ≤ op then s
  else
    let s := { s with pf := { s.pf with preempt := v &&& 0xF0FFFFFF } }
    if !v.getLsbD 31 || f = 0 || 193 ≤ f then s.preemptDone
    else
      let o := match op with
        | 0 => execPreemptSaveFunction f s
        | 1 => execPreemptSaveJob f job s
        | 2 => execPreemptResumeFunction f s
        | 3 => execPreemptResumeJob f job s
        | 4 => execCut f s
        | _ => execCutResume f s
      (orKeep s o).preemptDone

/-! ### Each function's own registers -/

/-- A write to MBCMD (03 R84): ignored while BUSY; commands that the function may not run, or that are unassigned, return at
once. -/
def State.writeMbcmd (s : State) (f : Nat) (v : Dbl) : State :=
  let x := s.func f
  let c := natBits v.toNat 7 0
  if x.mbBusy || !s.dev.schedulerUp then s
  else if c = 1 || c = 2 || c = 3 || (0x10 ≤ c && c ≤ 0x13 && f = 0) then
    s.setFunc f { x with mbBusy := true, mbCmd := c }
  else s.setFunc f { x with mbResult := if 0x10 ≤ c && c ≤ 0x13 then 0x0006 else 0x0001 }

/-- Quiescence is evaluated for every run of a function: a gate was written (04 R108, R116). -/
def State.gateChanged (s : State) (f : Nat) : State :=
  (s.runs.filter fun r => r.2.func == f).foldl (fun s r => s.evalInputs r.1) s

/-- A write of 8 bytes to a register of function `f`'s own BAR0; the arguments of a mailbox command are read when it executes (03 R84).
(Log 134, DESIGN CHOICE.) -/
def State.writeOwn8 (s : State) (f o : Nat) (v : Dbl) : State :=
  let x := s.func f
  if o = 0x108 then s.setFunc f { x with mbArg0 := v }
  else if o = 0x110 then s.setFunc f { x with mbArg1 := v }
  else if o = 0x118 then s.setFunc f { x with mbArg2 := v }
  else if o = 0x120 then s.setFunc f { x with mbArg3 := v }
  else if 0x200 ≤ o && o < 0x240 && o % 8 = 0 then
    (s.setFunc f { x with gates := x.gates.set 0 ((o - 0x200) / 8) (keep v 0x83FFFFFF0000FFFF) }).gateChanged f
  else if o = 0x300 then s.setFunc f { x with zfbase := keep v 0x00FFFFFFFFFFC000 }
  else if o = 0x308 then s.setFunc f { x with lockTab := keep v 0x00FFFFFFFFFF8000 }
  else if o = 0x310 then
    if s.runs.any fun r => r.2.func == f && r.2.stage == .admitted then s
    else s.setFunc f { x with evtbase := keep v 0x00FFFFFFFFFFF000 }
  else if o = 0x320 then s.setFunc f { x with stopbase := keep v 0x00FFFFFFFFFFF00F }
  else if 0x1000 ≤ o && o < 0x2000 then s.writeRegion f (o - 0x1000) v
  else s

/-- A write of 4 bytes to a register of function `f`'s own BAR0. -/
def State.writeOwn4 (s : State) (f o : Nat) (v : Dbl) : State :=
  let x := s.func f
  let w : Word := v.setWidth 32
  if o = 0x100 then s.writeMbcmd f v
  else if o = 0x130 then s.setFunc f { x with mbEvt := x.mbEvt &&& ~~~(w &&& 7) }
  else if o = 0x318 then s.setFunc f { x with evtctl := w }
  else if o = 0x31C then
    if w.getLsbD 31 then s.clearCrossing f else s
  else if o = 0x328 then s.setFunc f { x with stopctl := w &&& 0x1FF }
  else s

/-! ### The PF's registers -/

/-- A write of 8 bytes to a register that only PF BAR0 holds. -/
def State.writePf8 (s : State) (o : Nat) (v : Dbl) : State :=
  let p := s.pf
  if 0x8000 ≤ o && o < 0x8000 + 0x40 * 193 then s.writeMemory ((o - 0x8000) / 0x40) (o % 0x40) v
  else if 0xC500 ≤ o && o < 0xC600 then s.writeLogReg ((o - 0xC500) / 0x40) (o % 0x40) v
  else match o with
    | 0xC000 => if p.invctl.getLsbD 31 then s else { s with pf := { p with invva := keep v 0x00FFFFFFFFFFF000 } }
    | 0xC100 => { s with pf := { p with hbmil := v }, l1 := [] }
    | 0xC480 => { s with pf := { p with asbase := keep v 0x000FFFFFFFFFF000 } }
    | 0xC498 => { s with pf := { p with astail := tailTo p.astail p.ashead v } }.postWaiting
    | 0xC4A0 => { s with pf := { p with asrseq := v } }
    | 0xC4A8 => orKeep s (execAssistReply v s)
    | 0xC4B0 => { s with pf := { p with asrvalhi := v } }
    | 0xD000 => { s with pf := { p with rbaddr := keep v 0xFFFFFFFFFFFFFFC0 } }
    | _ => s

/-- A write of 4 bytes to a register that only PF BAR0 holds. Of RBCTL a write sets GO alone (18 R418). (Log 132, DESIGN CHOICE.) -/
def State.writePf4 (s : State) (o : Nat) (v : Dbl) : State :=
  let p := s.pf
  let w : Word := v.setWidth 32
  if 0x4000 ≤ o && o < 0x4000 + 0x20 * 193 then s.writeQuota ((o - 0x4000) / 0x20) (o % 0x20) w
  else if 0x6000 ≤ o && o < 0x6100 then s.writeYard ((o - 0x6000) / 0x40) (o % 0x40) w
  else if 0x8000 ≤ o && o < 0x8000 + 0x40 * 193 then
    if o % 0x40 = 0x18 then s.writeMemory ((o - 0x8000) / 0x40) 0x18 v else s
  else if 0xC400 ≤ o && o < 0xC410 && o % 4 = 0 then
    s.setYard ((o - 0xC400) / 4) { s.yard ((o - 0xC400) / 4) with mode := w &&& 0x7F }
  else if 0xC500 ≤ o && o < 0xC600 then
    if o % 0x20 = 0x08 then s.writeLogReg ((o - 0xC500) / 0x40) (o % 0x40) v else s
  else if 0xC800 ≤ o && o < 0xC8A0 && o % 4 = 0 then s.writePartown ((o - 0xC800) / 4) w
  else match o with
    | 0xC008 => s.writeInvctl w
    | 0xC200 => s.writePreempt w
    | 0xC204 => { s with pf := { p with forceto := w &&& 0xFFFF } }
    | 0xC488 => { s with pf := { p with asctl := w &&& 0xFF0FFFFF } }.postWaiting
    | 0xC700 => { s with pf := { p with errvec := w &&& 0xFF } }
    | 0xD008 => if w.getLsbD 31 then { s with pf := { p with rbctl := p.rbctl ||| 0x80000000 } } else s
    | _ => s

/-- A write of `size` bytes at offset `o` of BAR0: it acts on a register of that size at that offset, and on nothing else.
(Log 82, PRESUMED.) -/
def State.writeBar0 (s : State) (who o size : Nat) (v : Dbl) : State :=
  if size = 8 then
    if o < 0x4000 then s.writeOwn8 who o v
    else if who ≠ 0 || (0x8000 ≤ o && o < 0x8000 + 0x40 * 193 && o % 0x40 = 0x18) ||
            (0xC500 ≤ o && o < 0xC600 && o % 0x20 = 0x08) then s
    else s.writePf8 o v
  else if size = 4 then
    if o < 0x4000 then s.writeOwn4 who o v else if who ≠ 0 then s else s.writePf4 o v
  else s

/-- REGISTER_WRITE (00 R7): a host write of `size` bytes at an offset of a BAR of function `who`. In BAR2 it is a write to a
doorbell page (03 R61). (Log 82, PRESUMED.) -/
def execRegisterWrite (who bar off size : Nat) (v : Dbl) (s : State) : Host.Outcome State Fault Refusal :=
  if !s.barsLive || 193 ≤ who then .next s
  else if bar = 0 then .next (s.writeBar0 who off size v)
  else if bar = 2 && s.doorLive who (off / 4096) then
    .next (s.doorWrite (s.queueNo who (off / 4096)) (off % 4096) size v.toNat)
  else .next s

/-! ### Reads (00 R7; 01 R30, R31) -/

/-- The 8-byte word at an 8-aligned offset of a function's own BAR0. -/
def State.ownReg (s : State) (f o : Nat) : Nat :=
  let x := s.func f
  if o < 0x40 then s.identity f / 2 ^ (8 * o) % 2 ^ 64
  else if 0x200 ≤ o && o < 0x240 then (x.gates.get 0 ((o - 0x200) / 8)).toNat
  else if 0x1000 ≤ o && o < 0x2000 then
    let r := x.regions.get {} ((o - 0x1000) / 16)
    if o % 16 = 0 then r.rbase.toNat else r.rctl.toNat
  else match o with
    | 0x100 => ((if x.mbBusy || !s.dev.schedulerUp then 2 ^ 31 else 0) + x.mbResult.toNat) * 2 ^ 32
    | 0x108 => x.mbArg0.toNat
    | 0x110 => x.mbArg1.toNat
    | 0x118 => x.mbArg2.toNat
    | 0x120 => x.mbArg3.toNat
    | 0x128 => x.mbRes.toNat
    | 0x130 => x.mbEvt.toNat
    | 0x300 => x.zfbase.toNat
    | 0x308 => x.lockTab.toNat
    | 0x310 => x.evtbase.toNat
    | 0x318 => x.evtctl.toNat + x.evtstat.toNat * 2 ^ 32
    | 0x320 => x.stopbase.toNat
    | 0x328 => x.stopctl.toNat + x.stopcnt.toNat * 2 ^ 32
    | _ => 0

/-- The 8-byte word at an 8-aligned offset of a register block of PF BAR0. -/
def State.pfBlockReg (s : State) (o : Nat) : Nat :=
  if 0x4000 ≤ o && o < 0x4000 + 0x20 * 193 then
    let x := s.func ((o - 0x4000) / 0x20)
    match o % 0x20 with
    | 0x00 => x.qbase.toNat + x.qcount.toNat * 2 ^ 32
    | 0x08 => x.dctrs.toNat + x.stallq.toNat * 2 ^ 32
    | 0x10 => x.predq.toNat + x.runq.toNat * 2 ^ 32
    | _ => x.weight.toNat
  else if 0x6000 ≤ o && o < 0x6100 then
    let d := (o - 0x6000) / 0x40
    match o % 0x40 with
    | 0x00 => (s.yard d).cfg.toNat + (s.yard d).loftl2.toNat * 2 ^ 32
    | 0x08 => (s.yard d).lofthbm.toNat
    | 0x10 => s.ystat d
    | _ => 0
  else if 0x8000 ≤ o && o < 0x8000 + 0x40 * 193 then
    let x := s.func ((o - 0x8000) / 0x40)
    match o % 0x40 with
    | 0x00 => x.ptroot.toNat
    | 0x08 => x.privarena.toNat
    | 0x10 => x.privarsz.toNat
    | 0x18 => x.waymask.toNat
    | _ => 0
  else if 0xC500 ≤ o && o < 0xC600 then
    let y := s.yard ((o - 0xC500) / 0x40)
    match o % 0x40 with
    | 0x00 => y.ylbase.toNat
    | 0x08 => y.ylsize.toNat
    | 0x10 => y.ylhead.toNat
    | 0x18 => y.yltail.toNat
    | 0x20 => y.mlbase.toNat
    | 0x28 => y.mlsize.toNat
    | 0x30 => y.mlhead.toNat
    | _ => y.mltail.toNat
  else 0

/-- The 8-byte word at an 8-aligned offset of PF BAR0 above 0x4000. -/
def State.pfReg (s : State) (o : Nat) : Nat :=
  let p := s.pf
  if 0xC400 ≤ o && o < 0xC410 then
    (s.yard ((o - 0xC400) / 4)).mode.toNat + (s.yard ((o - 0xC400) / 4 + 1)).mode.toNat * 2 ^ 32
  else if 0xC600 ≤ o && o < 0xC620 then (s.yard ((o - 0xC600) / 8)).bbhead.toNat
  else if 0xC800 ≤ o && o < 0xC8A0 then
    (p.partown.get 0xFF ((o - 0xC800) / 4)).toNat + (p.partown.get 0xFF ((o - 0xC800) / 4 + 1)).toNat * 2 ^ 32
  else if 0xD040 ≤ o && o < 0xD080 then p.rbdata.toNat / 2 ^ (8 * (o - 0xD040)) % 2 ^ 64
  else match o with
    | 0xC000 => p.invva.toNat
    | 0xC008 => p.invctl.toNat
    | 0xC100 => p.hbmil.toNat
    | 0xC200 => p.preempt.toNat + p.forceto.toNat * 2 ^ 32
    | 0xC480 => p.asbase.toNat
    | 0xC488 => p.asctl.toNat
    | 0xC490 => p.ashead.toNat
    | 0xC498 => p.astail.toNat
    | 0xC4A0 => p.asrseq.toNat
    | 0xC4A8 => p.asrval.toNat
    | 0xC4B0 => p.asrvalhi.toNat
    | 0xC700 => p.errvec.toNat
    | 0xD000 => p.rbaddr.toNat
    | 0xD008 => p.rbctl.toNat
    | _ => s.pfBlockReg o

/-- A host read of `n` bytes, in one 8-byte word, at an offset of a BAR of function `who`. Before stage 0x05 every read but
the identity block's returns zero (01 R31). Reads of the identity block are answered while the rails are off, too. Of a longer read the
bytes beyond the word are zero. (Log 82, PRESUMED; log 117, DESIGN CHOICE; log 144, DESIGN CHOICE.) -/
def State.barRead (s : State) (who bar off n : Nat) : Nat :=
  let word := off / 8 * 8
  let cut (v : Nat) : Nat := v / 2 ^ (8 * (off % 8)) % 2 ^ (8 * n)
  if bar = 0 && off < 0x40 then cut (s.ownReg who word)
  else if !s.barsLive then 0
  else if bar = 0 then
    if off < 0x4000 then cut (s.ownReg who word) else if who = 0 then cut (s.pfReg word) else 0
  else if bar = 2 && s.doorLive who (off / 4096) then s.doorRead (s.queueNo who (off / 4096)) (off % 4096) n
  else 0

/-! ### Reads from outside, and their answers (01 R26, R29, R31; 04 R118) -/

/-- The answer given last. -/
def State.setReply (s : State) (r : Reply) : State := { s with dev := { s.dev with reply := r } }

/-- A host read of a BAR. -/
def State.hostRead (s : State) (who bar off n : Nat) : State :=
  if 193 ≤ who then s else s.setReply (.data (bytesOf (s.barRead who bar off n) n))

/-- The value of a configuration item of a function, as a number of two bytes (01 R26). (Log 102, DESIGN CHOICE.) -/
def configValue (who : Nat) (item : ConfigItem) : Nat :=
  match item with
  | .msixTableSize => vectorCount who - 1
  | .aer => 1
  | .acs => 1
  | .ats => 0
  | .pri => 0
  | .totalVfs => if who = 0 then 192 else 0

/-- A configuration read (01 R31): Request Retry Status until stage 0x02; a halted device serves none (R32). -/
def State.configRead (s : State) (who : Nat) (item : ConfigItem) : State :=
  if 193 ≤ who || s.dev.stage = 0xFF then s
  else if s.dev.stage.toNat < 2 then s.setReply .retry
  else s.setReply (.data (bytesOf (configValue who item) 2))

/-- A read over the management sideband, at every stage and with the rails off (01 R29); what names no state gives nothing.
(Log 101, DESIGN CHOICE.) -/
def State.sidebandRead (s : State) (item : SidebandItem) : State :=
  match item with
  | .identity => s.setReply (.data (bytesOf (s.identity 0) 64))
  | .blackBox d n => if d < 4 then s.setReply (.data (bytesOf ((s.yard d).bbAt (n % 1024)).toNat 64)) else s
  | .readback addr =>
    let a := addr.toNat
    match s.readUnit (natBits a 63 56) (natBits a 55 40) (natBits a 39 6 * 64) with
    | some v => s.setReply (.data (bytesOf v.toNat 64))
    | none => s.setReply .none

/-- A peer's read of the Yard message window returns zero (04 R118); before stage 0x05 and while halted nothing answers it (01 R31,
R32). -/
def State.windowRead (s : State) (off n : Nat) : State :=
  if s.dev.stage = 5 && off + n ≤ 0x100000 then s.setReply (.data (List.replicate n 0)) else s

end Sys2Proof.Machine
end

