-- ==== Sys2Proof/Machine/Sfn.lean ====
section
/-! DEFINITION. The special functions (13 R323, R324), computed in integers scaled by powers of two.

The function value is approximated far closer than any rounding boundary of a format lies to it, so that the one rounding
is correct; the F32 forms whose entry gives a bound return any value within it (log 8). -/
namespace Sys2Proof.Machine

/-- Fraction bits of the approximations. -/
def sfnBits : Nat := 400
/-- Further fraction bits of π, for an exact argument reduction. -/
def piBits : Nat := 600

/-- `n` terms of the series of atan(1/k) (sign −) or atanh(1/k) (sign +) from term `i`, with `p` = 2^S / k^(2i+1). -/
def atanSeries (alt : Bool) (k p i n : Nat) : Int :=
  match n with
  | 0 => 0
  | m + 1 => (if alt && i % 2 == 1 then -((p / (2 * i + 1) : Nat) : Int) else ((p / (2 * i + 1) : Nat) : Int)) +
    atanSeries alt k (p / (k * k)) (i + 1) m

/-- π · 2^piBits by Machin's formula. -/
def piFix : Int := 16 * atanSeries true 5 (2 ^ piBits / 5) 0 140 - 4 * atanSeries true 239 (2 ^ piBits / 239) 0 50

/-- ln 2 · 2^sfnBits: 2 · atanh(1/3). -/
def ln2Fix : Nat := (2 * atanSeries false 3 (2 ^ sfnBits / 3) 0 140).toNat

/-- `n` further terms of the exponential series: `t` is the current term and `i` its index. -/
def expSeries (y t i n : Nat) : Nat :=
  match n with
  | 0 => 0
  | m + 1 => t + expSeries y (t * y / 2 ^ sfnBits / (i + 1)) (i + 1) m

/-- 2^f for a fraction f of sfnBits bits. -/
def exp2Frac (f : Nat) : Nat := expSeries (f * ln2Fix / 2 ^ sfnBits) (2 ^ sfnBits) 0 120

/-- Terms of the series of sin (from r) or cos (from 1), alternating, with square `r2`. -/
def trigSeries (r2 t i n : Nat) (neg : Bool) : Int :=
  match n with
  | 0 => 0
  | m + 1 => (if neg then -(t : Int) else t) +
    trigSeries r2 (t * r2 / 2 ^ sfnBits / ((i + 1) * (i + 2))) (i + 2) m (!neg)

/-- An approximation v · 2^-sfnBits of a value that is not a number of so few bits: the last bit stands for the rest. -/
def sticky (v : Int) : Num :=
  .fin (decide (v < 0)) (2 * v.natAbs + 1) (-((sfnBits : Nat) : Int) - 1)

/-- A finite value as an integer number of units 2^-b, rounded down in magnitude. -/
def fixOf (mant : Nat) (exp : Int) (b : Nat) : Nat :=
  let e := exp + (b : Nat)
  if 0 ≤ e then mant * 2 ^ e.toNat else mant / 2 ^ (-e).toNat

/-- Integer square root by bits: the largest r below 2^n with r² ≤ v. -/
def sqrtBits (v r n : Nat) : Nat :=
  match n with
  | 0 => r
  | m + 1 =>
    let r' := r + 2 ^ m
    sqrtBits v (if r' * r' ≤ v then r' else r) m

/-- 1/a of a nonzero finite value. -/
def rcpReal (neg : Bool) (mant : Nat) (exp : Int) : Num :=
  let n := 2 ^ 128
  if n % mant = 0 then .fin neg (n / mant) (-exp - 128) else .fin neg (2 * (n / mant) + 1) (-exp - 129)

/-- √(mant · 2^exp), with 128 bits below the value's own. -/
def sqrtReal (mant : Nat) (exp : Int) : Num :=
  let (m, e) := if exp % 2 = 0 then (mant, exp) else (2 * mant, exp - 1)
  let v := m * 2 ^ 128
  let r := sqrtBits v 0 160
  if r * r = v then .fin false r (e / 2 - 64) else .fin false (2 * r + 1) (e / 2 - 65)

/-- 1/√(mant · 2^exp). -/
def rsqrtReal (mant : Nat) (exp : Int) : Num :=
  match sqrtReal (mant * 2 ^ 128) (exp - 128) with
  | .fin _ r e => rcpSquare mant exp r e
  | x => x
where
  /-- 2^256 / r at the exponent that makes it 1 / (r · 2^e); exact where the square root is. -/
  rcpSquare (mant : Nat) (exp : Int) (r : Nat) (e : Int) : Num :=
    let exact := Num.eqv (.fin false (r * r) (2 * e)) (.fin false mant exp)
    let q := 2 ^ 256 / r
    if exact && 2 ^ 256 % r == 0 then .fin false q (-e - 256) else .fin false (2 * q + 1) (-e - 257)

/-- 2^(± mant · 2^exp). -/
def exp2Real (neg : Bool) (mant : Nat) (exp : Int) : Num :=
  let big := decide ((1000 : Int) ≤ (fixOf mant exp 0 : Nat))
  if big then (if neg then .fin false (2 ^ 70 + 1) (-2000) else .fin false 1 2000)
  else
    let a := fixOf mant exp sfnBits
    if a % 2 ^ sfnBits = 0 && Num.eqv (.fin false mant exp) (.fin false (a / 2 ^ sfnBits) 0) then
      .fin false 1 (if neg then -((a / 2 ^ sfnBits : Nat) : Int) else (a / 2 ^ sfnBits : Nat))
    else
      let z : Int := if neg then -(a : Int) else a
      let n := z / (2 ^ sfnBits : Nat)
      let f := (z % (2 ^ sfnBits : Nat)).toNat
      (sticky (exp2Frac f)).scale n

/-- log2 of a positive value. -/
def log2Real (mant : Nat) (exp : Int) : Num :=
  let l := Nat.log2 mant
  let n : Int := exp + (l : Nat)
  if mant = 2 ^ l then .ofInt n 0
  else
    let den := mant + 2 ^ l
    let num := mant - 2 ^ l
    let z := num * 2 ^ sfnBits / den
    let ln := 2 * logSeries (z * z / 2 ^ sfnBits) z 0 140
    sticky (n * (2 ^ sfnBits : Nat) + ((ln * 2 ^ sfnBits / ln2Fix : Nat) : Int))
where
  /-- Terms of atanh z from the power `p` of z. -/
  logSeries (z2 p i n : Nat) : Nat :=
    match n with
    | 0 => 0
    | m + 1 => p / (2 * i + 1) + logSeries z2 (p * z2 / 2 ^ sfnBits) (i + 1) m

/-- The argument reduced modulo 2π, in units 2^-sfnBits. -/
def reduceAngle (mant : Nat) (exp : Int) : Nat :=
  let twoPi := 2 * piFix.toNat
  fixOf mant exp piBits % twoPi / 2 ^ (piBits - sfnBits)

/-- sin of a value. -/
def sinReal (neg : Bool) (mant : Nat) (exp : Int) : Num :=
  let r := reduceAngle mant exp
  let v := trigSeries (r * r / 2 ^ sfnBits) r 1 90 false
  sticky (if neg then -v else v)

/-- cos of a value. -/
def cosReal (mant : Nat) (exp : Int) : Num :=
  let r := reduceAngle mant exp
  sticky (trigSeries (r * r / 2 ^ sfnBits) (2 ^ sfnBits) 0 90 false)

/-- tanh of a value: 1 − 2 / (e^2x + 1). -/
def tanhReal (neg : Bool) (mant : Nat) (exp : Int) : Num :=
  let one : Nat := 2 ^ sfnBits
  let v : Nat :=
    if 200 ≤ fixOf mant exp 0 then one - 1
    else
      let y := 2 * fixOf mant exp sfnBits * one / ln2Fix
      let m := exp2Frac (y % one) * 2 ^ (y / one)
      min (one - 1) (one - 2 * one * one / (m + one))
  sticky (if neg then -(v : Int) else v)

/-- The function value of a nonzero finite operand (13 R323): FRCP 0, FSQRT 1, FRSQ 2, FEXP2 3, FLOG2 4, FSIN 5, FCOS 6,
FTANH 7. -/
def sfnReal (fn : Nat) (neg : Bool) (mant : Nat) (exp : Int) : Num :=
  if fn = 0 then rcpReal neg mant exp
  else if neg && (fn == 1 || fn == 2 || fn == 4) then .nan
  else if fn = 1 then sqrtReal mant exp
  else if fn = 2 then rsqrtReal mant exp
  else if fn = 3 then exp2Real neg mant exp
  else if fn = 4 then log2Real mant exp
  else if fn = 5 then sinReal neg mant exp
  else if fn = 6 then cosReal mant exp
  else tanhReal neg mant exp

/-- The exact function of any operand, with the sign of a zero or infinite result (13 R323). -/
def sfnExact (fn : Nat) (x : Num) : Num :=
  match x with
  | .nan => .nan
  | .inf n =>
    if fn = 0 then .fin n 0 0
    else if fn = 3 then (if n then .fin false 0 0 else .inf false)
    else if fn = 7 then .fin n 1 0
    else if fn = 5 || fn = 6 || n then .nan
    else if fn = 2 then .fin false 0 0
    else .inf false
  | .fin n 0 _ =>
    if fn = 0 || fn = 2 then .inf n
    else if fn = 3 || fn = 6 then .fin false 1 0
    else if fn = 4 then .inf true
    else .fin n 0 0
  | .fin n m e => sfnReal fn n m e

/-- The bound of 13 R324 holds for the F32 encoding `w` against the exact value: within 1 or 2 ulp, or 2^-24 for FSIN and
FCOS; a FTANH result has magnitude at most 1. (Log 8, DESIGN CHOICE.) -/
def sfnWithin (fn : Nat) (x : Num) (w : Nat) : Bool :=
  match x, fmtF32.value w with
  | .fin n m e, .fin n' m' e' =>
    let lg : Int := (Nat.log2 m : Int) + e
    let ulp : Int := max lg (-126) - 23
    let q := min (min e e') (min (ulp - 1) (-25))
    let d := (Num.units (.fin n m e) q - Num.units (.fin n' m' e') q).natAbs
    let u := (Num.units (.fin false (if fn = 2 then 1 else 2) ulp) q).natAbs
    let t := if fn = 5 || fn = 6 then (Num.units (.fin false 1 (-24)) q).natAbs else 0
    d ≤ max u t && (fn != 7 || w % 2 ^ 31 ≤ 0x3F800000)
  | _, _ => false

/-- Results that 13 R323 gives exactly: integer FEXP2 arguments and FLOG2 of powers of two give small dyadic values. -/
def sfnPinned (fn : Nat) (x : Num) : Bool :=
  match x with
  | .fin _ m _ => fn == 0 || fn == 1 || m == 0 || ((fn == 3 || fn == 4 || fn == 7 || fn == 6) && m < 2 ^ 64)
  | _ => true

/-- One element of a special function: result and event. (Log 8, DESIGN CHOICE.) -/
def sfnElem (fn F : Nat) (w : Nat) : ElemResult :=
  let fm := floatFmt F
  let v := fm.value w
  let x := sfnExact fn v
  let r := roundTo x fm .RN false
  let pick := Config.sfnPick fn (BitVec.ofNat 32 w) % 2 ^ 32
  let bits := if F = 0 && !sfnPinned fn x && sfnWithin fn x pick then pick else r.bits
  (bits, resultEvent x r v.isNan v.isInf)

/-- A special function (13 R323). -/
def sfnInstr (i : Instr) (fn : Nat) (f : FFmt) (s : State) : Host.Outcome State Fault Refusal :=
  floatInstr i s fun c L =>
    ffmtMap f fun h => sfnElem fn (ffmtIndex f) (ffmtPart f h (rd32 c.team L c.form 1))

/-- FRCP. -/
def execFrcp (f : FFmt) (o : S32) (s : State) : Host.Outcome State Fault Refusal := sfnInstr (.frcp f o) 0 f s
/-- FSQRT. -/
def execFsqrt (f : FFmt) (o : S32) (s : State) : Host.Outcome State Fault Refusal := sfnInstr (.fsqrt f o) 1 f s
/-- FRSQ. -/
def execFrsq (f : FFmt) (o : S32) (s : State) : Host.Outcome State Fault Refusal := sfnInstr (.frsq f o) 2 f s
/-- FEXP2. -/
def execFexp2 (f : FFmt) (o : S32) (s : State) : Host.Outcome State Fault Refusal := sfnInstr (.fexp2 f o) 3 f s
/-- FLOG2. -/
def execFlog2 (f : FFmt) (o : S32) (s : State) : Host.Outcome State Fault Refusal := sfnInstr (.flog2 f o) 4 f s
/-- FSIN. -/
def execFsin (f : FFmt) (o : S32) (s : State) : Host.Outcome State Fault Refusal := sfnInstr (.fsin f o) 5 f s
/-- FCOS. -/
def execFcos (f : FFmt) (o : S32) (s : State) : Host.Outcome State Fault Refusal := sfnInstr (.fcos f o) 6 f s
/-- FTANH. -/
def execFtanh (f : FFmt) (o : S32) (s : State) : Host.Outcome State Fault Refusal := sfnInstr (.ftanh f o) 7 f s

end Sys2Proof.Machine
end

