-- ==== Sys2Proof/Machine/Trap.lean ====
section
/-! DEFINITION. TRAP, TRET and LIVE (05 R138; 17 R386, R387). -/
namespace Sys2Proof.Machine

/-- TRAP: every Active lane faults with code D (17 R386). -/
def execTrap (o : S32) (s : State) : Host.Outcome State Fault Refusal :=
  runInstr (.trap o) s fun c => faultAll s c { code := c.form.d.field.toNat }

/-- The lowest Active lane in trap mode whose TSTATUS[31:20] is not zero (17 R387). -/
def tretBad (c : Ctx) : Option Nat :=
  c.act.find? fun L => (c.team.lane L).trap && natBits (c.team.lane L).tstatus.toNat 31 20 != 0

/-- TRET (17 R387): a lane in trap mode returns to TPC; a lane outside it faults TRETCTX; nonzero MBZ bits of TSTATUS are a
double fault. The paths that result take the place of the path, those at the lower lanes first. (Log 118, DESIGN CHOICE.) -/
def execTret (s : State) : Host.Outcome State Fault Refusal :=
  runInstr .tret s fun c =>
    let faults := (c.act.filter fun L => !(c.team.lane L).trap).map fun L => (L, ({ code := 0x15 } : FaultInfo))
    match tretBad c with
    | some L =>
      let l := c.team.lane L
      { st := s.doubleFault c.iss.team L (natBits l.tstatus.toNat 7 0) (natBits l.tstatus.toNat 19 16) c.iss.pc l.tpc
                l.taddr l.tinfo
        exits := c.iss.group }
    | none =>
      let rets := c.act.filter fun L => (c.team.lane L).trap
      { st := s, faults := faults, rets := rets
        order := dedupPcs (c.iss.group.map fun L =>
          if rets.contains L then (c.team.lane L).tpc else nextPc c.iss.pc c.iss.len) }

/-- A result of the lane is outstanding in a register of group `g` (05 R138). -/
def State.groupBusy (s : State) (tn L g : Nat) : Bool :=
  (s.accesses.any fun a => a.team == tn && a.lane == L && 0 < a.ndest && a.dest / 16 ≤ g && g ≤ (a.dest + a.ndest - 1) / 16) ||
  s.engines.any fun e => match e.kind with
    | .zscan _ d _ => e.team == tn && e.lanes.contains L && d / 16 == g
    | _ => false

/-- LIVE (05 R138): groups outside the mask become zero in the Active lanes. -/
def execLive (o : X96) (s : State) : Host.Outcome State Fault Refusal :=
  runInstr (.live o) s fun c =>
    let gs := clearGroups c.node.regs o.lit
    if c.act.any fun L => gs.any fun g => s.groupBusy c.iss.team L g then { st := s, stall := true }
    else
      let t := gs.foldl (fun t g => t.zeroGroup c.act g) c.team
      let zero (g : Nat) : Bool := laneList.all fun L => !t.nonzero.get false (32 * L + g)
      let core := s.core t.core
      let s := s.setCore t.core { core with
        rcache := core.rcache.filter fun p => !(p.1 == c.iss.team && gs.contains p.2 && zero p.2) }
      { st := s.setTeam c.iss.team t }

end Sys2Proof.Machine
end

