-- ==== Sys2Proof/Machine/Walker.lean ====
section
/-! DEFINITION. The layout walker: its context, the walk instructions, WALK.START, WALK.QUERY, WALK.STOP and MXM.W (14 R337;
15 R346 to R362). -/
namespace Sys2Proof.Machine

/-- What one walk instruction does. -/
inductive WalkOut where
  /-- Go on at WPC + 1. -/
  | ok (w : Walker)
  /-- Go on at an instruction index. -/
  | jump (w : Walker) (p : Nat)
  /-- The walk ends. -/
  | done (w : Walker)
  /-- An illegal walk instruction. -/
  | bad
  /-- A read failed, or waits (code 0). -/
  | failed (e : FaultInfo)
  deriving DecidableEq, Repr

/-- A walk instruction acts on the state, for a block, with its agent and context. -/
abbrev WalkFn := State → Nat → Agent → Walker → State × WalkOut

/-- y_n. -/
def Walker.reg (w : Walker) (n : BitVec 4) : Dbl := w.y.get 0 n.toNat
/-- Write y_n. -/
def Walker.setReg (w : Walker) (n : BitVec 4) (v : Dbl) : Walker := { w with y := w.y.set 0 n.toNat v }

/-- Ends of bodies (15 R352): at the end of a body WPC goes to its first instruction for the next pass, or past it. -/
def loopEnd (p : Nat) (ls : List WalkLoop) : Nat × List WalkLoop :=
  match ls with
  | [] => (p, [])
  | l :: r =>
    if p = l.last + 1 then
      if l.pass + 1 < l.count then (l.first, { l with pass := l.pass + 1 } :: r) else loopEnd p r
    else (p, l :: r)

/-- Go on at instruction `p`. -/
def Walker.goTo (w : Walker) (p : Nat) : Walker :=
  let q := loopEnd p w.loops
  { w with wpc := q.1, loops := q.2 }

/-- K of the walk's tiles (15 R346). (Log 97, DESIGN CHOICE.) -/
def Walker.rows (w : Walker) : Nat := shapeK w.shape

/-- Stage the current tile, its missing rows zero (15 R351 FLUSH, R353). -/
def Walker.stage (w : Walker) : Walker :=
  { w with staged := w.staged ++ [.tile w.handle.fmt (w.part ++ List.replicate (32 * (w.rows - w.k)) 0)],
           produced := min (w.produced + 1) 0xFFFFFF, t := w.t + 1, k := 0, part := [] }

/-- FLUSH (15 R351). -/
def Walker.flush (w : Walker) : Walker := if 0 < w.k then w.stage else w

/-- A walk that has ended without a fault and holds nothing is no longer owned (15 R347). -/
def Walker.settle (w : Walker) : Walker := if !w.running && !w.faulted && w.staged == [] then {} else w

/-- Store core `n`'s context, which may have ended. -/
def State.setWalker (s : State) (n : Nat) (w : Walker) : State := s.setCore n { s.core n with walker := w.settle }

/-- A fault marker takes the place of tile t and the walk ends (15 R355). -/
def Walker.mark (w : Walker) (code sub cause : Nat) (addr : Dbl) : Walker :=
  { w with running := false, faulted := true, part := [], k := 0, staged := w.staged ++ [.marker code sub cause addr w.t] }

/-- Address of the instruction at WPC. -/
def Walker.pc (w : Walker) : Dbl := w.section0 + BitVec.ofNat 64 (4 * w.wpc)

/-- The agent of the walk on core `n` (15 R355). -/
def State.walkAgent (s : State) (n : Nat) : Agent :=
  let w := (s.core n).walker
  s.agentFor (w.owner - 1) w.lane w.supervisor w.op w.knows

/-- The address that a failed read names: also where the fault itself names a feature bit (09 R226; 15 R355). -/
def FaultInfo.place (e : FaultInfo) : Dbl := if e.code = codeFeature then BitVec.ofNat 64 e.reg else e.addr

/-- Run one walk instruction for the context of core `n`. -/
def State.walkStep (s : State) (n : Nat) (f : WalkFn) : State :=
  let w := (s.core n).walker
  let tn := w.owner - 1
  let ag := s.walkAgent n
  let r := f s (s.team tn).block ag w
  match r.2 with
  | .ok w' => r.1.setWalker n (w'.goTo (w.wpc + 1))
  | .jump w' p => r.1.setWalker n (w'.goTo p)
  | .done w' => (r.1.unlock n w.lockOp).setWalker n { w' with running := false }
  | .bad => (r.1.unlock n w.lockOp).setWalker n (w.mark 0x1C 0 0 w.pc)
  | .failed e =>
    if e.code = 0 then s.waitFor ag e
    else ((s.unlock n w.lockOp).setWalker n (w.mark 0x10 e.code e.cause e.place)).dropAnswers ag.who.team [ag.asks]

/-- Run a walk instruction for the walker that the current issue names. -/
def walkInstr (s : State) (f : WalkFn) : Host.Outcome State Fault Refusal :=
  match s.cur with
  | none => .fault .noIssuer
  | some iss =>
    let n := (s.team iss.team).core
    let w := (s.core n).walker
    if w.owner = iss.team + 1 && w.running then .next (s.walkStep n f) else .next s

/-! ### The walk instructions (15 R351) -/

/-- A walk instruction that only writes a register. -/
def walkReg (d : BitVec 4) (f : Walker → Dbl) : WalkFn := fun s _ _ w => (s, .ok (w.setReg d (f w)))

/-- IMM14 sign-extended. -/
def walkSext (o : WalkOp) : Dbl := o.imm.signExtend 64
/-- C of a three-register form. -/
def walkRegC (o : WalkOp) : BitVec 4 := o.imm.extractLsb' 10 4

/-- HASH (15 R351). -/
def walkMix (a b : Dbl) : Dbl :=
  let h := (a ^^^ (a >>> 31)) * 0x9E6D52C3A1F70B4D + b
  h ^^^ (h >>> 29)

/-- MSK (15 R351). -/
def walkMask (a b : Dbl) : Dbl :=
  let lo := max a.toInt 0
  let hi := min b.toInt 31
  BitVec.ofNat 64 (((List.range 32).map fun (j : Nat) => if lo ≤ (j : Int) && (j : Int) ≤ hi then (2 : Nat) ^ j else 0).sum)

/-- A 4-aligned 32-bit read of the walk (15 R355); one of another function's doorbell page reads zero (03 R62). -/
def State.walkWord (s : State) (b : Nat) (ag : Agent) (a : Dbl) : Except FaultInfo (State × Nat) :=
  match frontChecks a.toNat 4 4 with
  | none => s.engineRead b ag a.toNat 4
  | some e =>
    match s.strangeDoor ag .read a.toNat with
    | .error w => .error w
    | .ok (some _) => .ok (s, 0)
    | .ok none => .error e

/-- END (15 R354). -/
def walkFnEnd : WalkFn := fun s _ _ w => (s, .done w.flush)
/-- LDI. -/
def walkFnLdi (o : WalkOp) : WalkFn := fun s b ag w =>
  match s.walkWord b ag (w.reg o.a + 4 * walkSext o) with
  | .error e => (s, .failed e)
  | .ok (s, v) => (s, .ok (w.setReg o.d (BitVec.ofNat 64 v)))

/-- LEN of the LOOP instruction at index `i` of the section, where one stands there: any word with LOOP's OP, though its unused fields
make it illegal. (Log 154, DESIGN CHOICE.) -/
def State.loopAt (s : State) (b : Nat) (ag : Agent) (w : Walker) (i : Nat) : Except FaultInfo (Option Nat) :=
  match s.walkWord b ag (w.section0 + BitVec.ofNat 64 (4 * i)) with
  | .ok (_, v) => .ok (if v / 2 ^ 26 = 0x0E then some (v % 1024) else none)
  | .error e => .error e

/-- The bodies that contain index `p`, innermost first: their first and last instructions, judged statically (15 R352). `n` counts
the places before `p` still to be looked at. A word that cannot be read fails as its fetch would, or makes the walk wait.
(Log 36, DEDUCED.) -/
def State.bodiesOf (s : State) (b : Nat) (ag : Agent) (w : Walker) (p n : Nat) : Except FaultInfo (List (Nat × Nat)) :=
  match n with
  | 0 => .ok []
  | i + 1 =>
    match s.loopAt b ag w i, s.bodiesOf b ag w p i with
    | .error e, _ => .error e
    | _, .error e => .error e
    | .ok (some len), .ok r => .ok (if p ≤ i + len then (i + 1, i + len) :: r else r)
    | .ok none, .ok r => .ok r

/-- LOOP (15 R352): its body must end within the section and within every body that contains it, and be no fifth level.
(Log 36, DEDUCED.) -/
def walkFnLoop (o : WalkOp) : WalkFn := fun s b ag w =>
  let last := w.wpc + immBits o.imm 9 0
  match s.bodiesOf b ag w w.wpc w.wpc with
  | .error e => (s, .failed e)
  | .ok outer =>
  if w.len ≤ last || (outer.any fun x => x.2 < last) || 4 ≤ outer.length then (s, .bad)
  else
    let n := (w.reg o.a).toNat % 2 ^ 32
    if n = 0 then (s, .jump w (last + 1))
    else (s, .ok { w with loops := { count := n, pass := 0, first := w.wpc + 1, last := last } :: w.loops })

/-- LIDX (15 R352). -/
def walkFnLidx (o : WalkOp) : WalkFn := fun s _ _ w =>
  match w.loops[immBits o.imm 1 0]? with
  | some l => (s, .ok (w.setReg o.d (BitVec.ofNat 64 l.pass)))
  | none => (s, .bad)

/-- A branch (15 R352). -/
def walkBranch (o : WalkOp) (zero : Bool) : WalkFn := fun s b ag w =>
  if (w.reg o.a == 0) != zero then (s, .ok w)
  else
    let off := o.imm.toInt
    let p : Int := (w.wpc : Int) + off
    if off = 0 then (s, .bad)
    else match s.bodiesOf b ag w w.wpc w.wpc with
    | .error e => (s, .failed e)
    | .ok ((first, last) :: _) =>
      if (first : Int) ≤ p && p ≤ (last : Int) + 1 then (s, .jump w p.toNat) else (s, .bad)
    | .ok [] =>
      if p < 0 then (s, .bad)
      else if (w.len : Int) ≤ p then (s, .done w.flush)
      else match s.bodiesOf b ag w p.toNat p.toNat with
      | .error e => (s, .failed e)
      | .ok [] => (s, .jump w p.toNat)
      | .ok _ => (s, .bad)

/-- CSET. -/
def walkFnCset (o : WalkOp) : WalkFn := fun s _ _ w =>
  (s, .ok { w with cols := w.cols.set 0 ((w.reg o.a).toNat % 32) (w.reg o.b) })

/-- The reads of CLD from entry `j`, `n` of them. -/
def State.walkCols (s : State) (b : Nat) (ag : Agent) (a : Dbl) (j n : Nat) (cols : SMap Dbl) :
    Except FaultInfo (State × SMap Dbl) :=
  match n with
  | 0 => .ok (s, cols)
  | k + 1 =>
    match s.walkWord b ag (a + BitVec.ofNat 64 (4 * j)) with
    | .error e => .error e
    | .ok (s, v) => s.walkCols b ag a (j + 1) k (cols.set 0 j (BitVec.ofNat 64 v))

/-- CLD. -/
def walkFnCld (o : WalkOp) : WalkFn := fun s b ag w =>
  match s.walkCols b ag (w.reg o.a) 0 32 w.cols with
  | .error e => (s, .failed e)
  | .ok (s, cols) => (s, .ok { w with cols := cols })

/-- Element (r, c) of the source view (15 R349, R353, R360): zero where it is out of range or its flag is trusted. -/
def State.viewElem (s : State) (b : Nat) (ag : Agent) (w : Walker) (r c : Int) : Except FaultInfo (State × Nat) :=
  let h := w.handle
  let rows := if w.transposed then h.cols else h.rows
  let cols := if w.transposed then h.rows else h.cols
  if !(0 ≤ r && r < (rows : Int) && 0 ≤ c && c < (cols : Int)) then .ok (s, 0)
  else
    let i := if w.transposed then c.toNat else r.toNat
    let j := if w.transposed then r.toNat else c.toNat
    if w.zflag && s.trusted b ag h (i / 32 * h.blockCols + j / 32) then .ok (s, 0) else s.readElem b ag h i j

/-- Elements of a row from column place `j`, `n` of them (15 R353). -/
def State.rowElems (s : State) (b : Nat) (ag : Agent) (w : Walker) (r : Int) (col : Nat → Dbl) (on : Nat → Bool) (j n : Nat) :
    Except FaultInfo (State × List Half) :=
  match n with
  | 0 => .ok (s, [])
  | k + 1 =>
    match (if on j then s.viewElem b ag w r (col j).toInt else .ok (s, 0)) with
    | .error e => .error e
    | .ok (s, v) =>
      match s.rowElems b ag w r col on (j + 1) k with
      | .error e => .error e
      | .ok (s, l) => .ok (s, BitVec.ofNat 16 v :: l)

/-- Append a row (15 R353). -/
def walkAppend (row : Walker → Dbl) (col : Walker → Nat → Dbl) (on : Walker → Nat → Bool) : WalkFn := fun s b ag w =>
  match s.rowElems b ag w (row w).toInt (col w) (on w) 0 32 with
  | .error e => (s, .failed e)
  | .ok (s, l) =>
    let w := { w with part := w.part ++ l, k := w.k + 1 }
    (s, .ok (if w.k = w.rows then w.stage else w))

/-- END. -/
def execWalkEnd (s : State) : Host.Outcome State Fault Refusal := walkInstr s walkFnEnd
/-- MOVI. -/
def execWalkMovi (o : WalkOp) (s : State) : Host.Outcome State Fault Refusal := walkInstr s (walkReg o.d fun _ => walkSext o)
/-- ADD. -/
def execWalkAdd (o : WalkOp) (s : State) : Host.Outcome State Fault Refusal :=
  walkInstr s (walkReg o.d fun w => w.reg o.a + w.reg o.b)
/-- SUB. -/
def execWalkSub (o : WalkOp) (s : State) : Host.Outcome State Fault Refusal :=
  walkInstr s (walkReg o.d fun w => w.reg o.a - w.reg o.b)
/-- ADDI. -/
def execWalkAddi (o : WalkOp) (s : State) : Host.Outcome State Fault Refusal :=
  walkInstr s (walkReg o.d fun w => w.reg o.a + walkSext o)
/-- MUL. -/
def execWalkMul (o : WalkOp) (s : State) : Host.Outcome State Fault Refusal :=
  walkInstr s (walkReg o.d fun w => w.reg o.a * w.reg o.b)
/-- DIVU: all ones for a divisor of 0. -/
def execWalkDivu (o : WalkOp) (s : State) : Host.Outcome State Fault Refusal :=
  walkInstr s (walkReg o.d fun w => if w.reg o.b = 0 then 0xFFFFFFFFFFFFFFFF else w.reg o.a / w.reg o.b)
/-- REMU: the dividend for a divisor of 0. -/
def execWalkRemu (o : WalkOp) (s : State) : Host.Outcome State Fault Refusal :=
  walkInstr s (walkReg o.d fun w => if w.reg o.b = 0 then w.reg o.a else w.reg o.a % w.reg o.b)
/-- AND. -/
def execWalkAnd (o : WalkOp) (s : State) : Host.Outcome State Fault Refusal :=
  walkInstr s (walkReg o.d fun w => w.reg o.a &&& w.reg o.b)
/-- XOR. -/
def execWalkXor (o : WalkOp) (s : State) : Host.Outcome State Fault Refusal :=
  walkInstr s (walkReg o.d fun w => w.reg o.a ^^^ w.reg o.b)
/-- SHLI. -/
def execWalkShli (o : WalkOp) (s : State) : Host.Outcome State Fault Refusal :=
  walkInstr s (walkReg o.d fun w => w.reg o.a <<< (immBits o.imm 5 0))
/-- SHRI. -/
def execWalkShri (o : WalkOp) (s : State) : Host.Outcome State Fault Refusal :=
  walkInstr s (walkReg o.d fun w => w.reg o.a >>> (immBits o.imm 5 0))
/-- HASH. -/
def execWalkHash (o : WalkOp) (s : State) : Host.Outcome State Fault Refusal :=
  walkInstr s (walkReg o.d fun w => walkMix (w.reg o.a) (w.reg o.b))
/-- LDI. -/
def execWalkLdi (o : WalkOp) (s : State) : Host.Outcome State Fault Refusal := walkInstr s (walkFnLdi o)
/-- LOOP. -/
def execWalkLoop (o : WalkOp) (s : State) : Host.Outcome State Fault Refusal := walkInstr s (walkFnLoop o)
/-- LIDX. -/
def execWalkLidx (o : WalkOp) (s : State) : Host.Outcome State Fault Refusal := walkInstr s (walkFnLidx o)
/-- BRZ. -/
def execWalkBrz (o : WalkOp) (s : State) : Host.Outcome State Fault Refusal := walkInstr s (walkBranch o true)
/-- BRNZ. -/
def execWalkBrnz (o : WalkOp) (s : State) : Host.Outcome State Fault Refusal := walkInstr s (walkBranch o false)
/-- ROW. -/
def execWalkRow (o : WalkOp) (s : State) : Host.Outcome State Fault Refusal :=
  walkInstr s (walkAppend (fun w => w.reg o.a) (fun w j => w.reg o.b + BitVec.ofNat 64 j * walkSext o) fun _ _ => true)
/-- ROWM. -/
def execWalkRowm (o : WalkOp) (s : State) : Host.Outcome State Fault Refusal :=
  walkInstr s (walkAppend (fun w => w.reg o.a) (fun w j => w.reg o.b + BitVec.ofNat 64 j) fun w j =>
    (w.reg (walkRegC o)).getLsbD j)
/-- CSET. -/
def execWalkCset (o : WalkOp) (s : State) : Host.Outcome State Fault Refusal := walkInstr s (walkFnCset o)
/-- CLD. -/
def execWalkCld (o : WalkOp) (s : State) : Host.Outcome State Fault Refusal := walkInstr s (walkFnCld o)
/-- ROWL. -/
def execWalkRowl (o : WalkOp) (s : State) : Host.Outcome State Fault Refusal :=
  walkInstr s (walkAppend (fun w => w.reg o.a) (fun w j => w.cols.get 0 j + w.reg o.b) fun w j =>
    (w.reg (walkRegC o)).getLsbD j)
/-- MSK. -/
def execWalkMsk (o : WalkOp) (s : State) : Host.Outcome State Fault Refusal :=
  walkInstr s (walkReg o.d fun w => walkMask (w.reg o.a) (w.reg o.b))
/-- FLUSH. -/
def execWalkFlush (s : State) : Host.Outcome State Fault Refusal := walkInstr s fun s _ _ w => (s, .ok w.flush)

/-- The walk instructions by opcode, with the rule on their unused fields (15 R350, R351). -/
def walkMeanings : List (Nat × (WalkOp → Bool) × (WalkOp → State → Host.Outcome State Fault Refusal)) :=
  let c3 := walkOk true true true (· == 0)
  let none3 := walkOk false false false (· == 0)
  [(0x00, none3, fun _ => execWalkEnd),
   (0x01, walkOk true false false (fun _ => true), execWalkMovi),
   (0x02, c3, execWalkAdd), (0x03, c3, execWalkSub),
   (0x04, walkOk true true false (fun _ => true), execWalkAddi),
   (0x05, c3, execWalkMul), (0x06, c3, execWalkDivu), (0x07, c3, execWalkRemu), (0x08, c3, execWalkAnd),
   (0x09, c3, execWalkXor),
   (0x0A, walkOk true true false (fun i => immBits i 13 6 == 0), execWalkShli),
   (0x0B, walkOk true true false (fun i => immBits i 13 6 == 0), execWalkShri),
   (0x0C, c3, execWalkHash),
   (0x0D, walkOk true true false (fun _ => true), execWalkLdi),
   (0x0E, walkOk false true false (fun i => immBits i 13 10 == 0 && i != 0), execWalkLoop),
   (0x0F, walkOk true false false (fun i => immBits i 13 2 == 0), execWalkLidx),
   (0x10, walkOk false true false (fun _ => true), execWalkBrz),
   (0x11, walkOk false true false (fun _ => true), execWalkBrnz),
   (0x12, walkOk false true true (fun _ => true), execWalkRow),
   (0x13, walkOk false true true walkC, execWalkRowm),
   (0x14, walkOk false true true (· == 0), execWalkCset),
   (0x15, walkOk false true false (· == 0), execWalkCld),
   (0x16, walkOk false true true walkC, execWalkRowl),
   (0x17, c3, execWalkMsk),
   (0x18, none3, fun _ => execWalkFlush)]

/-- Run the walk instruction in a word; none where it is illegal. -/
def walkRunWord (w : Word) (s : State) : Option (Host.Outcome State Fault Refusal) :=
  match walkMeanings.lookup (w.extractLsb' 26 6).toNat with
  | some (ok, f) => if ok (WalkOp.ofWord w) then some (f (WalkOp.ofWord w) s) else none
  | none => none

/-- The walker of core `n` may run an instruction (15 R346, R357); at a cut of its function it stops (17 R402). -/
def State.walkReady (s : State) (n : Nat) : Bool :=
  let w := (s.core n).walker
  w.owner != 0 && w.running && w.staged.length < 4 && s.acked w.after && s.lockClear n w.lockOp &&
  !(s.func (s.block (s.team (w.owner - 1)).block).func).cut

/-- The word that core `n`'s walker fetches (15 R355). -/
def State.walkFetch (s : State) (n : Nat) : Except FaultInfo (State × Nat) :=
  let w := (s.core n).walker
  s.walkWord (s.team (w.owner - 1)).block (s.walkAgent n) w.pc

/-- One turn of core `n`'s walker: fetch and run, or END past the section's end (15 R352). -/
def State.walkTurn (s : State) (n : Nat) : Host.Outcome State Fault Refusal :=
  let w := (s.core n).walker
  if !s.walkReady n then .next s
  else
    let s0 := { s with cur := some { team := w.owner - 1, pc := 0, group := [], len := 0, word := 0 } }
    if w.len ≤ w.wpc then execWalkEnd s0
    else match s0.walkFetch n with
    | .error e => .next (s0.walkStep n fun s _ _ _ => (s, .failed e))
    | .ok (s1, v) => (walkRunWord (BitVec.ofNat 32 v) s1).getD (.next (s1.walkStep n fun s _ _ _ => (s, .bad)))

/-! ### WALK.START, WALK.QUERY, WALK.STOP (15 R356 to R361) -/

/-- The checks of WALK.START on the handle (15 R356). -/
def walkFront (c : Ctx) (h : Handle) (shape : Nat) : Option FaultInfo :=
  match h.fault c.iss.word with
  | some e => some e
  | none =>
    if !(if shape = 2 then h.fmt == 1 || h.fmt == 2 else h.fmt == 3 || h.fmt == 4) then
      some { code := codeIllegal, info := c.iss.word }
    else none

/-- The checks of WALK.START on the image address and of its header's read, in order (15 R356); a header in another function's doorbell
page reads zero, wherever it stands there (03 R62). -/
def State.headerAt (s : State) (ag : Agent) (image : Nat) : Except FaultInfo Target :=
  match (if image % 8 ≠ 0 then some (.at codeAlign 0 image) else frontChecks image 8 8) with
  | none => s.engineAccess ag .read image 8
  | some e =>
    match s.strangeDoor ag .read image with
    | .error w => .error w
    | .ok (some t) => .ok t
    | .ok none => .error e

/-- The checks on the header (15 R356). TADDR and TINFO of its WALKOP the manual does not state.
(Log 35, DESIGN CHOICE.) -/
def State.walkHeader (s : State) (v image : Nat) (transposed : Bool) : Option FaultInfo :=
  let fwd := natBits v 15 0
  let inv := natBits v 47 32
  if natBits v 63 48 != 0 || natBits v 31 16 != 0 || fwd = 0 || 16384 < fwd || 16384 < inv then
    some { code := 0x1C, addr := Config.freeDbl s.stamp image, info := (Config.freeDbl s.stamp (image + 1)).setWidth 32 }
  else if transposed && inv = 0 then some (.at 0x0F 0 image)
  else none

/-- The context that WALK.START leaves (15 R349, R356). -/
def walkContext (c : Ctx) (m : Nat) (h : Handle) (shape v image op : Nat) (sup zflag : Bool) (after : List Nat) : Walker :=
  let tr := c.form.imm.getLsbD 2
  let fwd := natBits v 15 0
  let r := opReg c.team m c.form 3
  let y := (List.range 4).foldl (fun (y : SMap Dbl) i => y.set 0 i (c.team.vpair m (r + 2 * i))) []
  { owner := c.iss.team + 1, running := true, y := y, handle := h, shape := shape, transposed := tr,
    image := BitVec.ofNat 64 image, section0 := BitVec.ofNat 64 (image + 8 + if tr then 4 * fwd else 0),
    len := if tr then natBits v 47 32 else fwd, lane := m, supervisor := sup, zflag := zflag, lockOp := op, op := op,
    knows := (c.team.lane m).know, after := after }

/-- WALK.START (15 R356). The header is read as a plain read of Le made at the issue, once such a read may be performed; its count in
TLC is not seen. The walk waits for the team's earlier accesses (R357). (Log 34, DEDUCED.) -/
def execWalkStart (o : L64) (s : State) : Host.Outcome State Fault Refusal :=
  runInstr (.walkStart o) s fun c => teamEffect s c fun m =>
    let n := c.team.core
    let w := (s.core n).walker
    let mine := w.owner == c.iss.team + 1
    let s1 := s.dropWalk c.iss.team
    if (w.owner != 0 && !mine) || (s1.core n).freeSlots == [] || c.team.tlc = 255 then { st := s, stall := true }
    else
      let h := Handle.parse (c.team.vregs m (opReg c.team m c.form 2) 4)
      let shape := immBits c.form.imm 1 0
      let image := (rd64 c.team m c.form 1).toNat
      let ag := s.agentOf c.iss.team m
      match walkFront c h shape with
      | some e => faultAll s1 c e
      | none =>
        match s1.headerAt ag image with
        | .error e => faultAll s1 c e
        | .ok t =>
          if !s1.readReady c.iss.team m t 8 then { st := s, stall := true }
          else
            let (s2, v) := s1.readNow c.iss.team m t 8
            match s2.walkHeader v image (c.form.imm.getLsbD 2) with
            | some e => faultAll s2 c e
            | none =>
              let op := s2.fresh
              let s3 := { s2 with fresh := op + 1 }.lockRange n ag op h.base.toNat h.lastByte false
              { st := s3.setCore n { s3.core n with
                  walker := walkContext c m h shape v image op ag.sup (c.node.featreq.getLsbD 12) (s.unacked c.iss.team) } }

/-- The word of WALK.QUERY (15 R358). -/
def Walker.query (w : Walker) (tn : Nat) : Word :=
  if w.owner = tn + 1 then
    BitVec.ofNat 32 ((if w.running then 1 else if w.faulted then 3 else 2) * 2 ^ 30 + w.staged.length * 2 ^ 24 + w.produced)
  else 0

/-- WALK.QUERY (15 R358). -/
def execWalkQuery (o : L64) (s : State) : Host.Outcome State Fault Refusal :=
  laneInstr (.walkQuery o) s fun c L t => wr32 c.team L c.form ((s.core c.team.core).walker.query c.iss.team) t

/-- WALK.STOP (15 R359). -/
def execWalkStop (s : State) : Host.Outcome State Fault Refusal :=
  runInstr .walkStop s fun c => teamEffect s c fun _ => { st := s.dropWalk c.iss.team }

/-! ### MXM.W (14 R337) -/

/-- The feature bit of a SHAPE. -/
def shapeFeature (shape : Nat) : Nat := if shape = 0 then 1 else if shape = 1 then 2 else 3

/-- MXM.W (14 R337): of a tile that was staged under another SHAPE the rows that it has count. (Log 139, DESIGN CHOICE.) -/
def execMxmW (o : L64) (s : State) : Host.Outcome State Fault Refusal :=
  runInstr (.mxmW o) s fun c => teamEffect s c fun m =>
    let n := c.team.core
    let w := (s.core n).walker
    let mine := w.owner == c.iss.team + 1
    let shape := immBits c.form.imm 1 0
    if !c.node.featreq.getLsbD (shapeFeature shape) then
      faultAll s c { code := codeFeature, info := BitVec.ofNat 32 (shapeFeature shape) }
    else if mine && w.running && w.staged == [] then { st := s, stall := true }
    else match fmtFault c m shape with
    | some e => faultAll s c e
    | none =>
      let f := (rd32 c.team m c.form 3).toNat
      match (if mine then w.staged else []) with
      | [] => { st := s }
      | .marker code sub cause addr t :: _ =>
        faultAll s c { code := code, subcode := sub, cause := cause, addr := addr, info := BitVec.ofNat 32 t }
      | .tile fmt elems :: rest =>
        if fmt ≠ natBits f 7 4 then faultAll s c { code := 0x0E, info := BitVec.ofNat 32 f }
        else
          let s := s.setWalker n { w with staged := rest }
          { st := s.product c shape (c.form.imm.getLsbD 2) f fun k i =>
              cvtSource fmt ((elems.getD (32 * k + i) 0).setWidth 64) }

end Sys2Proof.Machine
end

