-- ==== Sys2Proof/Machine/Dispatch.lean ====
section
/-! DEFINITION. One instruction of the table: every constructor calls its own meaning. -/
namespace Sys2Proof.Machine
open Sys2Proof

/-- What an instruction or event does to the machine. An event whose precondition does not hold leaves the state as it was
(log 46, DESIGN CHOICE). -/
def exec (i : Instr) (s : State) : Host.Outcome State Fault Refusal :=
  match i with
  | .ret o => Sys2Proof.Machine.execRet o s
  | .trap o => Sys2Proof.Machine.execTrap o s
  | .bar o => Sys2Proof.Machine.execBar o s
  | .barArv o => Sys2Proof.Machine.execBarArv o s
  | .barWait o => Sys2Proof.Machine.execBarWait o s
  | .drain o => Sys2Proof.Machine.execDrain o s
  | .waitw o => Sys2Proof.Machine.execWaitw o s
  | .twaitAny o => Sys2Proof.Machine.execTwaitAny o s
  | .twaitAll o => Sys2Proof.Machine.execTwaitAll o s
  | .tfind o => Sys2Proof.Machine.execTfind o s
  | .waitb o => Sys2Proof.Machine.execWaitb o s
  | .pred o => Sys2Proof.Machine.execPred o s
  | .predNot o => Sys2Proof.Machine.execPredNot o s
  | .sread o => Sys2Proof.Machine.execSread o s
  | .swrite o => Sys2Proof.Machine.execSwrite o s
  | .wget o => Sys2Proof.Machine.execWget o s
  | .wset o => Sys2Proof.Machine.execWset o s
  | .xset o => Sys2Proof.Machine.execXset o s
  | .xget o => Sys2Proof.Machine.execXget o s
  | .mov o => Sys2Proof.Machine.execMov o s
  | .movB64 o => Sys2Proof.Machine.execMovB64 o s
  | .notV o => Sys2Proof.Machine.execNotV o s
  | .negS32 o => Sys2Proof.Machine.execNegS32 o s
  | .absS32 o => Sys2Proof.Machine.execAbsS32 o s
  | .popc o => Sys2Proof.Machine.execPopc o s
  | .clz o => Sys2Proof.Machine.execClz o s
  | .ctz o => Sys2Proof.Machine.execCtz o s
  | .brev o => Sys2Proof.Machine.execBrev o s
  | .enrol o => Sys2Proof.Machine.execEnrol o s
  | .join o => Sys2Proof.Machine.execJoin o s
  | .leave o => Sys2Proof.Machine.execLeave o s
  | .waitk o => Sys2Proof.Machine.execWaitk o s
  | .strike o => Sys2Proof.Machine.execStrike o s
  | .kmov o => Sys2Proof.Machine.execKmov o s
  | .knot o => Sys2Proof.Machine.execKnot o s
  | .kand o => Sys2Proof.Machine.execKand o s
  | .kor o => Sys2Proof.Machine.execKor o s
  | .kxor o => Sys2Proof.Machine.execKxor o s
  | .kandn o => Sys2Proof.Machine.execKandn o s
  | .kact o => Sys2Proof.Machine.execKact o s
  | .kpop o => Sys2Proof.Machine.execKpop o s
  | .kget o => Sys2Proof.Machine.execKget o s
  | .kset o => Sys2Proof.Machine.execKset o s
  | .fabs f o => Sys2Proof.Machine.execFabs f o s
  | .fneg f o => Sys2Proof.Machine.execFneg f o s
  | .fclass f o => Sys2Proof.Machine.execFclass f o s
  | .frcp f o => Sys2Proof.Machine.execFrcp f o s
  | .fsqrt f o => Sys2Proof.Machine.execFsqrt f o s
  | .frsq f o => Sys2Proof.Machine.execFrsq f o s
  | .fexp2 f o => Sys2Proof.Machine.execFexp2 f o s
  | .flog2 f o => Sys2Proof.Machine.execFlog2 f o s
  | .fsin f o => Sys2Proof.Machine.execFsin f o s
  | .fcos f o => Sys2Proof.Machine.execFcos f o s
  | .ftanh f o => Sys2Proof.Machine.execFtanh f o s
  | .addS32 o => Sys2Proof.Machine.execAddS32 o s
  | .addN32 o => Sys2Proof.Machine.execAddN32 o s
  | .subS32 o => Sys2Proof.Machine.execSubS32 o s
  | .subN32 o => Sys2Proof.Machine.execSubN32 o s
  | .mul o => Sys2Proof.Machine.execMul o s
  | .mulhiS32 o => Sys2Proof.Machine.execMulhiS32 o s
  | .mulhiN32 o => Sys2Proof.Machine.execMulhiN32 o s
  | .mad o => Sys2Proof.Machine.execMad o s
  | .divS32 o => Sys2Proof.Machine.execDivS32 o s
  | .divN32 o => Sys2Proof.Machine.execDivN32 o s
  | .remS32 o => Sys2Proof.Machine.execRemS32 o s
  | .remN32 o => Sys2Proof.Machine.execRemN32 o s
  | .minS32 o => Sys2Proof.Machine.execMinS32 o s
  | .minN32 o => Sys2Proof.Machine.execMinN32 o s
  | .maxS32 o => Sys2Proof.Machine.execMaxS32 o s
  | .maxN32 o => Sys2Proof.Machine.execMaxN32 o s
  | .andV o => Sys2Proof.Machine.execAndV o s
  | .orV o => Sys2Proof.Machine.execOrV o s
  | .xorV o => Sys2Proof.Machine.execXorV o s
  | .andn o => Sys2Proof.Machine.execAndn o s
  | .shl o => Sys2Proof.Machine.execShl o s
  | .shr o => Sys2Proof.Machine.execShr o s
  | .sar o => Sys2Proof.Machine.execSar o s
  | .rot o => Sys2Proof.Machine.execRot o s
  | .bfxS32 o => Sys2Proof.Machine.execBfxS32 o s
  | .bfxN32 o => Sys2Proof.Machine.execBfxN32 o s
  | .bfi o => Sys2Proof.Machine.execBfi o s
  | .sel o => Sys2Proof.Machine.execSel o s
  | .cmpS32 o => Sys2Proof.Machine.execCmpS32 o s
  | .cmpN32 o => Sys2Proof.Machine.execCmpN32 o s
  | .cmpS64 o => Sys2Proof.Machine.execCmpS64 o s
  | .cmpN64 o => Sys2Proof.Machine.execCmpN64 o s
  | .addS64 o => Sys2Proof.Machine.execAddS64 o s
  | .addN64 o => Sys2Proof.Machine.execAddN64 o s
  | .subS64 o => Sys2Proof.Machine.execSubS64 o s
  | .subN64 o => Sys2Proof.Machine.execSubN64 o s
  | .mulB64 o => Sys2Proof.Machine.execMulB64 o s
  | .adda o => Sys2Proof.Machine.execAdda o s
  | .shla o => Sys2Proof.Machine.execShla o s
  | .divS64 o => Sys2Proof.Machine.execDivS64 o s
  | .divN64 o => Sys2Proof.Machine.execDivN64 o s
  | .remS64 o => Sys2Proof.Machine.execRemS64 o s
  | .remN64 o => Sys2Proof.Machine.execRemN64 o s
  | .minS64 o => Sys2Proof.Machine.execMinS64 o s
  | .minN64 o => Sys2Proof.Machine.execMinN64 o s
  | .maxS64 o => Sys2Proof.Machine.execMaxS64 o s
  | .maxN64 o => Sys2Proof.Machine.execMaxN64 o s
  | .addS32X96 o => Sys2Proof.Machine.execAddS32X96 o s
  | .addN32X96 o => Sys2Proof.Machine.execAddN32X96 o s
  | .subS32X96 o => Sys2Proof.Machine.execSubS32X96 o s
  | .subN32X96 o => Sys2Proof.Machine.execSubN32X96 o s
  | .mulX96 o => Sys2Proof.Machine.execMulX96 o s
  | .mulhiS32X96 o => Sys2Proof.Machine.execMulhiS32X96 o s
  | .mulhiN32X96 o => Sys2Proof.Machine.execMulhiN32X96 o s
  | .madX96 o => Sys2Proof.Machine.execMadX96 o s
  | .divS32X96 o => Sys2Proof.Machine.execDivS32X96 o s
  | .divN32X96 o => Sys2Proof.Machine.execDivN32X96 o s
  | .remS32X96 o => Sys2Proof.Machine.execRemS32X96 o s
  | .remN32X96 o => Sys2Proof.Machine.execRemN32X96 o s
  | .minS32X96 o => Sys2Proof.Machine.execMinS32X96 o s
  | .minN32X96 o => Sys2Proof.Machine.execMinN32X96 o s
  | .maxS32X96 o => Sys2Proof.Machine.execMaxS32X96 o s
  | .maxN32X96 o => Sys2Proof.Machine.execMaxN32X96 o s
  | .andX96 o => Sys2Proof.Machine.execAndX96 o s
  | .orX96 o => Sys2Proof.Machine.execOrX96 o s
  | .xorX96 o => Sys2Proof.Machine.execXorX96 o s
  | .andnX96 o => Sys2Proof.Machine.execAndnX96 o s
  | .shlX96 o => Sys2Proof.Machine.execShlX96 o s
  | .shrX96 o => Sys2Proof.Machine.execShrX96 o s
  | .sarX96 o => Sys2Proof.Machine.execSarX96 o s
  | .rotX96 o => Sys2Proof.Machine.execRotX96 o s
  | .bfxS32X96 o => Sys2Proof.Machine.execBfxS32X96 o s
  | .bfxN32X96 o => Sys2Proof.Machine.execBfxN32X96 o s
  | .bfiX96 o => Sys2Proof.Machine.execBfiX96 o s
  | .selX96 o => Sys2Proof.Machine.execSelX96 o s
  | .cmpS32X96 o => Sys2Proof.Machine.execCmpS32X96 o s
  | .cmpN32X96 o => Sys2Proof.Machine.execCmpN32X96 o s
  | .cmpS64X96 o => Sys2Proof.Machine.execCmpS64X96 o s
  | .cmpN64X96 o => Sys2Proof.Machine.execCmpN64X96 o s
  | .addS64X96 o => Sys2Proof.Machine.execAddS64X96 o s
  | .addN64X96 o => Sys2Proof.Machine.execAddN64X96 o s
  | .subS64X96 o => Sys2Proof.Machine.execSubS64X96 o s
  | .subN64X96 o => Sys2Proof.Machine.execSubN64X96 o s
  | .mulB64X96 o => Sys2Proof.Machine.execMulB64X96 o s
  | .addaX96 o => Sys2Proof.Machine.execAddaX96 o s
  | .shlaX96 o => Sys2Proof.Machine.execShlaX96 o s
  | .divS64X96 o => Sys2Proof.Machine.execDivS64X96 o s
  | .divN64X96 o => Sys2Proof.Machine.execDivN64X96 o s
  | .remS64X96 o => Sys2Proof.Machine.execRemS64X96 o s
  | .remN64X96 o => Sys2Proof.Machine.execRemN64X96 o s
  | .minS64X96 o => Sys2Proof.Machine.execMinS64X96 o s
  | .minN64X96 o => Sys2Proof.Machine.execMinN64X96 o s
  | .maxS64X96 o => Sys2Proof.Machine.execMaxS64X96 o s
  | .maxN64X96 o => Sys2Proof.Machine.execMaxN64X96 o s
  | .addi o => Sys2Proof.Machine.execAddi o s
  | .andi o => Sys2Proof.Machine.execAndi o s
  | .ori o => Sys2Proof.Machine.execOri o s
  | .xori o => Sys2Proof.Machine.execXori o s
  | .shli o => Sys2Proof.Machine.execShli o s
  | .shri o => Sys2Proof.Machine.execShri o s
  | .sari o => Sys2Proof.Machine.execSari o s
  | .cmpiS32 o => Sys2Proof.Machine.execCmpiS32 o s
  | .addai o => Sys2Proof.Machine.execAddai o s
  | .cmpiN32 o => Sys2Proof.Machine.execCmpiN32 o s
  | .movi o => Sys2Proof.Machine.execMovi o s
  | .lit o => Sys2Proof.Machine.execLit o s
  | .litB64 o => Sys2Proof.Machine.execLitB64 o s
  | .shflIdx o => Sys2Proof.Machine.execShflIdx o s
  | .shflUp o => Sys2Proof.Machine.execShflUp o s
  | .shflDown o => Sys2Proof.Machine.execShflDown o s
  | .shflXor o => Sys2Proof.Machine.execShflXor o s
  | .bcast o => Sys2Proof.Machine.execBcast o s
  | .voteAny o => Sys2Proof.Machine.execVoteAny o s
  | .voteAll o => Sys2Proof.Machine.execVoteAll o s
  | .voteBal o => Sys2Proof.Machine.execVoteBal o s
  | .matchLanes o => Sys2Proof.Machine.execMatchLanes o s
  | .redstep o => Sys2Proof.Machine.execRedstep o s
  | .scanstep o => Sys2Proof.Machine.execScanstep o s
  | .fadd f o => Sys2Proof.Machine.execFadd f o s
  | .fsub f o => Sys2Proof.Machine.execFsub f o s
  | .fmul f o => Sys2Proof.Machine.execFmul f o s
  | .ffma f o => Sys2Proof.Machine.execFfma f o s
  | .fmin f o => Sys2Proof.Machine.execFmin f o s
  | .fmax f o => Sys2Proof.Machine.execFmax f o s
  | .fcmp f o => Sys2Proof.Machine.execFcmp f o s
  | .faddX96 f o => Sys2Proof.Machine.execFaddX96 f o s
  | .fsubX96 f o => Sys2Proof.Machine.execFsubX96 f o s
  | .fmulX96 f o => Sys2Proof.Machine.execFmulX96 f o s
  | .ffmaX96 f o => Sys2Proof.Machine.execFfmaX96 f o s
  | .fminX96 f o => Sys2Proof.Machine.execFminX96 f o s
  | .fmaxX96 f o => Sys2Proof.Machine.execFmaxX96 f o s
  | .fcmpX96 f o => Sys2Proof.Machine.execFcmpX96 f o s
  | .cvt o => Sys2Proof.Machine.execCvt o s
  | .bra o => Sys2Proof.Machine.execBra o s
  | .brnz o => Sys2Proof.Machine.execBrnz o s
  | .brz o => Sys2Proof.Machine.execBrz o s
  | .brk o => Sys2Proof.Machine.execBrk o s
  | .call o => Sys2Proof.Machine.execCall o s
  | .braLong o => Sys2Proof.Machine.execBraLong o s
  | .brnzLong o => Sys2Proof.Machine.execBrnzLong o s
  | .brzLong o => Sys2Proof.Machine.execBrzLong o s
  | .brkLong o => Sys2Proof.Machine.execBrkLong o s
  | .callLong o => Sys2Proof.Machine.execCallLong o s
  | .jmp o => Sys2Proof.Machine.execJmp o s
  | .callr o => Sys2Proof.Machine.execCallr o s
  | .jtab o => Sys2Proof.Machine.execJtab o s
  | .live o => Sys2Proof.Machine.execLive o s
  | .phint o => Sys2Proof.Machine.execPhint o s
  | .waitc o => Sys2Proof.Machine.execWaitc o s
  | .ld o => Sys2Proof.Machine.execLd o s
  | .st o => Sys2Proof.Machine.execSt o s
  | .tld o => Sys2Proof.Machine.execTld o s
  | .watch o => Sys2Proof.Machine.execWatch o s
  | .atomAdd o => Sys2Proof.Machine.execAtomAdd o s
  | .atomFadd o => Sys2Proof.Machine.execAtomFadd o s
  | .atomMin o => Sys2Proof.Machine.execAtomMin o s
  | .atomMax o => Sys2Proof.Machine.execAtomMax o s
  | .atomAnd o => Sys2Proof.Machine.execAtomAnd o s
  | .atomOr o => Sys2Proof.Machine.execAtomOr o s
  | .atomXor o => Sys2Proof.Machine.execAtomXor o s
  | .atomXchg o => Sys2Proof.Machine.execAtomXchg o s
  | .atomCas o => Sys2Proof.Machine.execAtomCas o s
  | .cpy o => Sys2Proof.Machine.execCpy o s
  | .cpy2d o => Sys2Proof.Machine.execCpy2d o s
  | .updAdd o => Sys2Proof.Machine.execUpdAdd o s
  | .updMin o => Sys2Proof.Machine.execUpdMin o s
  | .updMax o => Sys2Proof.Machine.execUpdMax o s
  | .updclr o => Sys2Proof.Machine.execUpdclr o s
  | .zscan o => Sys2Proof.Machine.execZscan o s
  | .mxmF8 o => Sys2Proof.Machine.execMxmF8 o s
  | .mxmS2p8 o => Sys2Proof.Machine.execMxmS2p8 o s
  | .mxmH16 o => Sys2Proof.Machine.execMxmH16 o s
  | .mxmW o => Sys2Proof.Machine.execMxmW o s
  | .mxzero o => Sys2Proof.Machine.execMxzero o s
  | .mxrd o => Sys2Proof.Machine.execMxrd o s
  | .mxst o => Sys2Proof.Machine.execMxst o s
  | .mxskip o => Sys2Proof.Machine.execMxskip o s
  | .nmv o => Sys2Proof.Machine.execNmv o s
  | .walkStart o => Sys2Proof.Machine.execWalkStart o s
  | .walkQuery o => Sys2Proof.Machine.execWalkQuery o s
  | .emit o => Sys2Proof.Machine.execEmit o s
  | .emitReg o => Sys2Proof.Machine.execEmitReg o s
  | .emitSelf o => Sys2Proof.Machine.execEmitSelf o s
  | .emitRemote o => Sys2Proof.Machine.execEmitRemote o s
  | .bootStageComplete haltcode => Sys2Proof.Machine.execBootStageComplete haltcode s
  | .barrierArrival t lane => Sys2Proof.Machine.execBarrierArrival t lane s
  | .homeAccess a => Sys2Proof.Machine.execHomeAccess a s
  | .acknowledgement a => Sys2Proof.Machine.execAcknowledgement a s
  | .loadResult a => Sys2Proof.Machine.execLoadResult a s
  | .pairAccept p => Sys2Proof.Machine.execPairAccept p s
  | .scFloorReached e => Sys2Proof.Machine.execScFloorReached e s
  | .nop => Sys2Proof.Machine.execNop s
  | .exit => Sys2Proof.Machine.execExit s
  | .tret => Sys2Proof.Machine.execTret s
  | .fenceAcq => Sys2Proof.Machine.execFenceAcq s
  | .fenceRel => Sys2Proof.Machine.execFenceRel s
  | .fenceSc => Sys2Proof.Machine.execFenceSc s
  | .fenceTbl => Sys2Proof.Machine.execFenceTbl s
  | .updflush => Sys2Proof.Machine.execUpdflush s
  | .cancelRun => Sys2Proof.Machine.execCancelRun s
  | .cancelPhase => Sys2Proof.Machine.execCancelPhase s
  | .cancelJob => Sys2Proof.Machine.execCancelJob s
  | .walkStop => Sys2Proof.Machine.execWalkStop s
  | .coldReset => Sys2Proof.Machine.execColdReset s
  | .warmReset => Sys2Proof.Machine.execWarmReset s
  | .vfReset f => Sys2Proof.Machine.execVfReset f s
  | .thermalStep temps => Sys2Proof.Machine.execThermalStep temps s
  | .thermalTrip temps => Sys2Proof.Machine.execThermalTrip temps s
  | .watchdogRestart => Sys2Proof.Machine.execWatchdogRestart s
  | .qcreate f => Sys2Proof.Machine.execQcreate f s
  | .qdestroy f => Sys2Proof.Machine.execQdestroy f s
  | .policyload f => Sys2Proof.Machine.execPolicyload f s
  | .fwstage => Sys2Proof.Machine.execFwstage s
  | .fwactivate w => Sys2Proof.Machine.execFwactivate w s
  | .fwfuse => Sys2Proof.Machine.execFwfuse s
  | .attest nonce => Sys2Proof.Machine.execAttest nonce s
  | .tailWrite f j v => Sys2Proof.Machine.execTailWrite f j v s
  | .doorbellBadWrite f j => Sys2Proof.Machine.execDoorbellBadWrite f j s
  | .queueReexamine q => Sys2Proof.Machine.execQueueReexamine q s
  | .headMirrorWrite q => Sys2Proof.Machine.execHeadMirrorWrite q s
  | .slice f => Sys2Proof.Machine.execSlice f s
  | .run f => Sys2Proof.Machine.execRun f s
  | .cancelPacketRun f => Sys2Proof.Machine.execCancelPacketRun f s
  | .cancelPacketPhase f => Sys2Proof.Machine.execCancelPacketPhase f s
  | .cancelPacketJob f => Sys2Proof.Machine.execCancelPacketJob f s
  | .setctr f => Sys2Proof.Machine.execSetctr f s
  | .nopPacket f => Sys2Proof.Machine.execNopPacket f s
  | .runAdmit f => Sys2Proof.Machine.execRunAdmit f s
  | .entryRecordAppend run => Sys2Proof.Machine.execEntryRecordAppend run s
  | .partownWrite who p v => Sys2Proof.Machine.execPartownWrite who p v s
  | .quotaWrite who off v => Sys2Proof.Machine.execQuotaWrite who off v s
  | .lofthbmWrite who d v => Sys2Proof.Machine.execLofthbmWrite who d v s
  | .ptrootWrite who f v => Sys2Proof.Machine.execPtrootWrite who f v s
  | .invalidate who v => Sys2Proof.Machine.execInvalidate who v s
  | .invalidationComplete => Sys2Proof.Machine.execInvalidationComplete s
  | .regionWrite who f off v => Sys2Proof.Machine.execRegionWrite who f off v s
  | .regionClearDone f r => Sys2Proof.Machine.execRegionClearDone f r s
  | .preemptSaveFunction f => Sys2Proof.Machine.execPreemptSaveFunction f s
  | .preemptSaveJob f job => Sys2Proof.Machine.execPreemptSaveJob f job s
  | .preemptResumeFunction f => Sys2Proof.Machine.execPreemptResumeFunction f s
  | .preemptResumeJob f job => Sys2Proof.Machine.execPreemptResumeJob f job s
  | .cut f => Sys2Proof.Machine.execCut f s
  | .cutResume f => Sys2Proof.Machine.execCutResume f s
  | .readback => Sys2Proof.Machine.execReadback s
  | .assistReply v => Sys2Proof.Machine.execAssistReply v s
  | .assistTimeout rseq => Sys2Proof.Machine.execAssistTimeout rseq s
  | .registerWrite who bar off size v => Sys2Proof.Machine.execRegisterWrite who bar off size v s
  | .recordAppend em => Sys2Proof.Machine.execRecordAppend em s
  | .muster r node => Sys2Proof.Machine.execMuster r node s
  | .musterTimeout r node => Sys2Proof.Machine.execMusterTimeout r node s
  | .blockStart core => Sys2Proof.Machine.execBlockStart core s
  | .stealable b => Sys2Proof.Machine.execStealable b s
  | .steal die cores => Sys2Proof.Machine.execSteal die cores s
  | .teamPark t => Sys2Proof.Machine.execTeamPark t s
  | .teamResume t => Sys2Proof.Machine.execTeamResume t s
  | .probeQuiet r node => Sys2Proof.Machine.execProbeQuiet r node s
  | .blockRetire b => Sys2Proof.Machine.execBlockRetire b s
  | .trapEntry t lane => Sys2Proof.Machine.execTrapEntry t lane s
  | .logfullTimeout t lane => Sys2Proof.Machine.execLogfullTimeout t lane s
  | .lineFill t va damage => Sys2Proof.Machine.execLineFill t va damage s
  | .registerFill t => Sys2Proof.Machine.execRegisterFill t s
  | .fullSave t => Sys2Proof.Machine.execFullSave t s
  | .savedBlockResume b core => Sys2Proof.Machine.execSavedBlockResume b core s
  | .copyStart core tag => Sys2Proof.Machine.execCopyStart core tag s
  | .copyComplete core tag => Sys2Proof.Machine.execCopyComplete core tag s
  | .waitwTimeout t lane => Sys2Proof.Machine.execWaitwTimeout t lane s
  | .zscanComplete e => Sys2Proof.Machine.execZscanComplete e s
  | .nmvComplete e => Sys2Proof.Machine.execNmvComplete e s
  | .mxstComplete e => Sys2Proof.Machine.execMxstComplete e s
  | .floorBroadcast => Sys2Proof.Machine.execFloorBroadcast s
  | .reserve m => Sys2Proof.Machine.execReserve m s
  | .grant token => Sys2Proof.Machine.execGrant token s
  | .refuse token reason => Sys2Proof.Machine.execRefuse token reason s
  | .hold token => Sys2Proof.Machine.execHold token s
  | .record m => Sys2Proof.Machine.execRecord m s
  | .arrived token count => Sys2Proof.Machine.execArrived token count s
  | .holdTimer => Sys2Proof.Machine.execHoldTimer s
  | .remoteTimeout token => Sys2Proof.Machine.execRemoteTimeout token s
  | .linkReset port up cause seqs => Sys2Proof.Machine.execLinkReset port up cause seqs s
  | .uncorrectedEcc die struc addr corrected => Sys2Proof.Machine.execUncorrectedEcc die struc addr corrected s
  | .yardMessageDropped port => Sys2Proof.Machine.execYardMessageDropped port s
  | .walkEnd => Sys2Proof.Machine.execWalkEnd s
  | .walkMovi o => Sys2Proof.Machine.execWalkMovi o s
  | .walkAdd o => Sys2Proof.Machine.execWalkAdd o s
  | .walkSub o => Sys2Proof.Machine.execWalkSub o s
  | .walkAddi o => Sys2Proof.Machine.execWalkAddi o s
  | .walkMul o => Sys2Proof.Machine.execWalkMul o s
  | .walkDivu o => Sys2Proof.Machine.execWalkDivu o s
  | .walkRemu o => Sys2Proof.Machine.execWalkRemu o s
  | .walkAnd o => Sys2Proof.Machine.execWalkAnd o s
  | .walkXor o => Sys2Proof.Machine.execWalkXor o s
  | .walkShli o => Sys2Proof.Machine.execWalkShli o s
  | .walkShri o => Sys2Proof.Machine.execWalkShri o s
  | .walkHash o => Sys2Proof.Machine.execWalkHash o s
  | .walkLdi o => Sys2Proof.Machine.execWalkLdi o s
  | .walkLoop o => Sys2Proof.Machine.execWalkLoop o s
  | .walkLidx o => Sys2Proof.Machine.execWalkLidx o s
  | .walkBrz o => Sys2Proof.Machine.execWalkBrz o s
  | .walkBrnz o => Sys2Proof.Machine.execWalkBrnz o s
  | .walkRow o => Sys2Proof.Machine.execWalkRow o s
  | .walkRowm o => Sys2Proof.Machine.execWalkRowm o s
  | .walkCset o => Sys2Proof.Machine.execWalkCset o s
  | .walkCld o => Sys2Proof.Machine.execWalkCld o s
  | .walkRowl o => Sys2Proof.Machine.execWalkRowl o s
  | .walkMsk o => Sys2Proof.Machine.execWalkMsk o s
  | .walkFlush => Sys2Proof.Machine.execWalkFlush s
  | .npbMovi o => Sys2Proof.Machine.execNpbMovi o s
  | .npbMovhi o => Sys2Proof.Machine.execNpbMovhi o s
  | .npbMov o => Sys2Proof.Machine.execNpbMov o s
  | .npbAdd o => Sys2Proof.Machine.execNpbAdd o s
  | .npbSub o => Sys2Proof.Machine.execNpbSub o s
  | .npbAddi o => Sys2Proof.Machine.execNpbAddi o s
  | .npbAnd o => Sys2Proof.Machine.execNpbAnd o s
  | .npbOr o => Sys2Proof.Machine.execNpbOr o s
  | .npbXor o => Sys2Proof.Machine.execNpbXor o s
  | .npbShl o => Sys2Proof.Machine.execNpbShl o s
  | .npbShr o => Sys2Proof.Machine.execNpbShr o s
  | .npbMul o => Sys2Proof.Machine.execNpbMul o s
  | .npbDivu o => Sys2Proof.Machine.execNpbDivu o s
  | .npbMinu o => Sys2Proof.Machine.execNpbMinu o s
  | .npbMaxu o => Sys2Proof.Machine.execNpbMaxu o s
  | .npbSltu o => Sys2Proof.Machine.execNpbSltu o s
  | .npbLds o => Sys2Proof.Machine.execNpbLds o s
  | .npbSts o => Sys2Proof.Machine.execNpbSts o s
  | .npbLdv o => Sys2Proof.Machine.execNpbLdv o s
  | .npbBeq o => Sys2Proof.Machine.execNpbBeq o s
  | .npbBne o => Sys2Proof.Machine.execNpbBne o s
  | .npbBltu o => Sys2Proof.Machine.execNpbBltu o s
  | .npbLoop o => Sys2Proof.Machine.execNpbLoop o s
  | .npbRet => Sys2Proof.Machine.execNpbRet s

end Sys2Proof.Machine
end

