-- ==== Sys2Proof/Machine/Turns.lean ====
section
/-! DEFINITION. What a turn of the machine does: a core issues, a walker or a policy goes on, an event happens; the order of turns
within a cycle; the default turn. -/
namespace Sys2Proof.Machine

/-- The second instruction of a pair issues in the cycle of the first, where it may (05 R126; 06 R154): `t` is the team before the
first, `s` the state after it. -/
def issueSecond (s : State) (t : Team) (iss : Issue) (i : Instr) : Host.Outcome State Fault Refusal :=
  match s.pairNext t iss i with
  | none => .next s
  | some (iss', k) =>
    let gs := s.namedGroups iss'.team iss'.group k
    match exec k { s.useGroups iss'.team gs gs with cur := some iss' } with
    | .next s' => .next { s' with cur := none }
    | o => o

/-- What the path of a team at `pc` would do now: whether something issues from it, or a fault is taken at its fetch (05 R127). The
instruction's unit must be free; registers that the cache lacks are no obstacle, since the path is then chosen and they are filled. -/
def State.moves (s : State) (tn : Nat) (pc : Dbl) : Bool :=
  match s.fetchPath tn pc with
  | .none _ moved => moved
  | .illegal _ _ => true
  | .run s' iss i =>
    let gs := s'.namedGroups tn iss.group i
    match exec i { s'.useGroups tn gs gs with cur := some iss } with
    | .next s2 => s2.cur != none
    | _ => true

/-- A path can issue (05 R127). -/
def canIssue (s : State) (tn : Nat) (pc : Dbl) : Bool := s.pathFree tn pc && s.moves tn pc

/-- FCNT has reached FAIR and another path than the last served can issue (05 R129); while the last-served path waits, no other is
forced (R146). (Log 26, DEDUCED.) -/
def State.mustSwitch (s : State) (tn : Nat) : Bool :=
  let t := s.team tn
  match t.lastPc with
  | none => false
  | some p => t.fairness ≤ t.fcnt && t.service.any fun q => q != p && canIssue s tn q

/-- The service list as the next issue sees it: a forced switch moves the last-served path to its end (05 R129, 08 R209).
(Log 26, DEDUCED.) -/
def State.serviceTurn (s : State) (tn : Nat) : State :=
  if s.mustSwitch tn then
    let t := s.team tn
    match t.lastPc with
    | some p => s.setTeam tn { t with service := t.service.filter (· != p) ++ if t.service.contains p then [p] else [] }
    | none => s
  else s

/-- Bookkeeping after an issue of the path at `pc` (05 R127, R129): `s0` is the state before it.
(Log 24, DEDUCED; log 26, DEDUCED.) -/
def State.issued (s0 s : State) (tn : Nat) (pc : Dbl) (group : List Nat) : State :=
  let t0 := s0.team tn
  let same := t0.lastLane.any group.contains
  let t := s.team tn
  let next := (group.find? fun L => (t.lane L).isReady).or (group.find? fun L => !(t.lane L).isExited)
  let t := { t with
    fcnt := if same then (if t0.service.any fun q => q != pc && canIssue s0 tn q then t0.fcnt + 1 else t0.fcnt) else 0
    lastLane := next, lastIssue := s.cycle.toNat }
  let c := s.core t0.core
  let place := (c.blocks.idxOf? t0.block).getD c.pointer
  (s.setTeam tn t).setCore t0.core { c with pointer := (place + 1) % max c.blocks.length 1 }

/-- Try to issue from the path of a team at `pc`: the outcome, and whether something issued. -/
def attempt (s : State) (tn : Nat) (pc : Dbl) : Host.Outcome State Fault Refusal × Bool :=
  match s.fetchPath tn pc with
  | .none s' moved => (.next s', moved)
  | .illegal s' iss => (.next (State.issued s (s'.issueIllegal iss) tn pc iss.group), true)
  | .run s' iss i =>
    let gs := s'.namedGroups tn iss.group i
    match s'.missing tn gs with
    | [] =>
      match exec i { s'.useGroups tn gs gs with cur := some iss } with
      | .next s2 =>
        if s2.cur = none then (.next s2, false)
        else match issueSecond { s2 with cur := none } (s'.team tn) iss i with
          | .next s3 => (.next (State.issued s s3 tn pc iss.group), true)
          | o => (o, true)
      | o => (o, true)
    | miss => (.next (s'.setTeam tn { s'.team tn with filling := miss, fillFor := gs }), false)

/-- The first path of a list from which something issues (05 R127); the service list changes only with an issue (08 R209). A path that
misses in the register cache has not issued, and the next one may. (Log 149, DESIGN CHOICE.) -/
def tryPaths (ps : List (Nat × Dbl)) (s : State) : Host.Outcome State Fault Refusal :=
  match ps with
  | [] => .next s
  | (tn, pc) :: r =>
    if s.pathFree tn pc then
      match attempt (s.serviceTurn tn) tn pc with
      | (.next s', false) => tryPaths r (s'.setTeam tn { s'.team tn with service := (s.team tn).service })
      | (o, _) => o
    else tryPaths r s

/-- Core `n` issues from at most one path; trap entries that are due come first (05 R126, 17 R384).
(Log 24, DEDUCED.) -/
def issueTurn (n : Nat) (s : State) : Host.Outcome State Fault Refusal :=
  match s.pendingTraps.find? fun p => (s.team p.1).core == n && s.teamRuns p.1 with
  | some p => execTrapEntry p.1 p.2.1 s
  | none => tryPaths ((s.issueOrder n).flatMap fun tn => ((s.serviceTurn tn).team tn).service.map fun pc => (tn, pc)) s

/-- What the host asks through a BAR happens only while the BARs are served, and a peer's message arrives only over a link, which the
device has at stage 0x05 (01 R31, R32). -/
def State.served (s : State) (i : Instr) : Bool :=
  match i with
  | .tailWrite _ _ _ => s.barsLive
  | .doorbellBadWrite _ _ => s.barsLive
  | .vfReset _ => s.barsLive
  | .preemptSaveFunction _ => s.barsLive
  | .preemptSaveJob _ _ => s.barsLive
  | .preemptResumeFunction _ => s.barsLive
  | .preemptResumeJob _ _ => s.barsLive
  | .cut _ => s.barsLive
  | .cutResume _ => s.barsLive
  | .assistReply _ => s.barsLive
  | .readback => s.barsLive
  | .fwstage => s.barsLive
  | .fwactivate _ => s.barsLive
  | .fwfuse => s.barsLive
  | .attest none => s.barsLive
  | .qcreate _ => s.barsLive
  | .qdestroy _ => s.barsLive
  | .policyload _ => s.barsLive
  | .reserve _ => s.dev.stage == 5
  | .record _ => s.dev.stage == 5
  | .grant _ => s.dev.stage == 5
  | .refuse _ _ => s.dev.stage == 5
  | .hold _ => s.dev.stage == 5
  | .arrived _ _ => s.dev.stage == 5
  | .yardMessageDropped _ => s.dev.stage == 5
  | _ => true

/-- A step of the device: an encoded instruction is none. -/
def eventTurn (i : Instr) (s : State) : Host.Outcome State Fault Refusal :=
  match i.enc with
  | .none => if s.served i then exec i s else .next s
  | _ => .next s

/-- With the power rails off only a cold reset happens, beside what is read of the device: the identity block, and what the management
sideband asks (01 R24, R29). (Log 95, DEDUCED; log 117, DESIGN CHOICE.) -/
def darkTurn (t : Turn) (s : State) : Host.Outcome State Fault Refusal :=
  match t with
  | .event .coldReset => execColdReset s
  | .event (.attest (some n)) => execAttest (some n) s
  | .hostRead who bar off n => .next (s.hostRead who bar off n)
  | .sidebandRead item => .next (s.sidebandRead item)
  | _ => .next s

/-! ### Order within a cycle -/

/-- A core issues from one path in a cycle (05 R126). -/
def issuePlace (n : Nat) : CyclePlace := { res := 2000 + n, place := 0, alone := true }

/-- At a function's queues takes come before TAIL writes (03 R68). -/
def takePlace (f : Nat) : CyclePlace := { res := f, place := 0 }

/-- TAIL writes go by function, then core; the host's, of no core, come first (03 R68). -/
def tailPlace (f : Nat) : CyclePlace := { res := f, place := 1 + 2000 * f }

/-- A thread's access to a doorbell page. -/
def State.accessPlace (s : State) (id : Nat) : List CyclePlace :=
  match s.accesses.find? fun a => a.id == id with
  | some a => match a.target with
    | .door o => [{ res := (s.queue (o / 4096)).owner, place := 2 + 2000 * a.func + a.core }]
    | _ => []
  | none => []

/-- At a Yard a muster, one in a cycle, comes first, then appends, then the expiry of a timer, which an append of the cycle may
leave without effect (04 R106, R107, R122). -/
def State.musterPlace (s : State) (r node : Nat) (timer : Bool) : CyclePlace :=
  { res := 1000 + (s.run r).homeDie node, place := if timer then 1100 else 1, alone := !timer }

/-- Entry records come before emitted ones (04 R99). -/
def State.entryPlace (s : State) (r : Nat) : CyclePlace :=
  { res := 1000 + (s.run r).homeDie (natBits (s.run r).packet.enode.toNat 11 0), place := 2 }

/-- Emitted records go by core (04 R99). -/
def State.appendPlace (s : State) (id : Nat) : List CyclePlace :=
  ((s.emissions.find? fun e => e.id == id).map fun e =>
    ({ res := 1000 + (s.run e.run).homeDie e.node, place := 3 + e.core } : CyclePlace)).toList

/-- The decrements of retirements at the Yard that holds a run's counter go by core (18 R409, R422); the held records that a commit
appends are emitted records of the block's core (04 R99). -/
def State.retirePlace (s : State) (b : Nat) : List CyclePlace :=
  let k := s.block b
  let x := s.run k.run
  { res := 1010 + x.homeDie 0, place := k.core } ::
    k.heldRecs.map fun h => { res := 1000 + x.homeDie h.node, place := 3 + k.core }

/-- One block starts on a core in a cycle (05 R146). -/
def startPlace (n : Nat) : CyclePlace := { res := 3000 + n, place := 0, alone := true }

/-- A park deadline comes after what a Yard or a port accepts in the cycle (04 R114, R122). -/
def State.parkPlace (s : State) (t : Nat) : List CyclePlace :=
  { res := 1020, place := 1 } :: (s.emissions.filter fun e => e.team == t).map fun e =>
    { res := 1000 + (s.run e.run).homeDie e.node, place := 1101 }

/-- What completes is seen by what issues on its core from the next cycle on (07 R182). -/
def tagPlace (n : Nat) : CyclePlace := { res := 2000 + n, place := 1 }

/-- An access that may count numeric events when it is performed (12 R309): an ATOM.FADD, or a store that has met some. -/
def State.countPlace (s : State) (id : Nat) : List CyclePlace :=
  match s.accesses.find? fun a => a.id == id with
  | some a => if a.kind == .atomic 1 || a.events != [] then [tagPlace a.core] else []
  | none => []

/-- An operation of an engine that counts numeric events as it completes. -/
def State.enginePlace (s : State) (id : Nat) : List CyclePlace :=
  ((s.engines.find? fun e => e.id == id).map fun e => tagPlace e.core).toList

/-- A write through BAR2 to a queue's TAIL is the host's (03 R62, R68). -/
def State.barPlace (s : State) (who bar off : Nat) : List CyclePlace :=
  if bar = 2 && off % 4096 / 8 == 0 then [{ tailPlace who with res := (s.queue (s.queueNo who (off / 4096))).owner }] else []

/-- The places of an event. -/
def State.eventPlace (s : State) (i : Instr) : List CyclePlace :=
  match i with
  | .run f => [takePlace f]
  | .cancelPacketRun f => [takePlace f]
  | .cancelPacketPhase f => [takePlace f]
  | .cancelPacketJob f => [takePlace f]
  | .setctr f => [takePlace f]
  | .nopPacket f => [takePlace f]
  | .tailWrite f _ _ => [tailPlace f]
  | .registerWrite who bar off _ _ => s.barPlace who bar off
  | .homeAccess id => s.accessPlace id ++ s.countPlace id
  | .loadResult id => s.countPlace id
  | .nmvComplete id => s.enginePlace id
  | .barrierArrival t _ => [tagPlace (s.team t).core]
  | .trapEntry t _ => [tagPlace (s.team t).core]
  | .musterTimeout r node => [s.musterPlace r node true]
  | .muster r node => [s.musterPlace r node false]
  | .entryRecordAppend r => [s.entryPlace r]
  | .recordAppend id => s.appendPlace id
  | .grant _ => [{ res := 1020, place := 0 }]
  | .teamPark t => s.parkPlace t
  | .blockStart n => [startPlace n]
  | .savedBlockResume _ n => [startPlace n]
  | .steal _ ns => ns.map startPlace
  | .copyComplete n _ => [tagPlace n]
  | .blockRetire b => s.retirePlace b
  | _ => []

/-- The places of a turn. -/
def State.turnPlace (s : State) (t : Turn) : List CyclePlace :=
  match t with
  | .issue n => [issuePlace n]
  | .event i => s.eventPlace i
  | _ => []

/-- What comes too late for one of its places in the current cycle is of the next one. -/
def State.inPlace (s : State) (ps : List CyclePlace) : State :=
  (if ps.any s.late then s.tick else s).markPlaces ps

/-- What a turn does. -/
def runTurn (t : Turn) (s : State) : Host.Outcome State Fault Refusal :=
  match t with
  | .tick => .next s.tick
  | .issue n => issueTurn n s
  | .walk n => s.walkTurn n
  | .policy => s.policyStep
  | .event i => eventTurn i s
  | .l1Evict core word => .next (s.l1Evict core word)
  | .l1Hit a => .next (s.l1Hit a)
  | .l1Fill core word => .next (s.l1Fill core word)
  | .hostRead who bar off n => .next (s.hostRead who bar off n)
  | .configRead who item => .next (s.configRead who item)
  | .sidebandRead item => .next (s.sidebandRead item)
  | .portEnable port on sec => .next (s.portEnable port on sec)
  | .windowRead off n => .next (s.windowRead off n)
  | .tlbFill cluster core func page => .next (s.tlbFill cluster core func page)
  | .tlbEvict cluster core func page => .next (s.tlbEvict cluster core func page)
  | .walkFill die func level va => .next (s.walkFill die func level va)
  | .walkEvict die func level va => .next (s.walkEvict die func level va)
  | .drainGroup core => .next (s.drainGroup core)
  | .lineEvict core func va => .next (s.lineEvict core func va)
  | .copyMove core tag n => .next (s.copyMove core tag n)
  | .penApply line => .next (s.penApply line)
  | .penFull pen => .next (s.penFull pen)
  | .outsideWrite t n v => .next (s.outsideWrite t n v.toNat)

/-- Take one turn. (Log 1, DESIGN CHOICE; log 95, DEDUCED.) -/
def takeTurn (t : Turn) (s : State) : Host.Outcome State Fault Refusal :=
  if s.dev.railsOff then darkTurn t s else runTurn t (s.inPlace (s.turnPlace t))

/-! ### The default turn (log 1) -/

/-- A turn as a function. -/
abbrev TurnFn := State → Host.Outcome State Fault Refusal

/-- A turn in its place in the cycle. -/
def placed (p : State → List CyclePlace) (f : TurnFn) : TurnFn := fun s => f (s.inPlace (p s))

/-- Turns of memory operations and engines in flight. (Log 11, DESIGN CHOICE.) -/
def memoryTurns (s : State) : List TurnFn :=
  (s.accesses.flatMap fun (a : Access) =>
    (match a.stage with
     | .issued => [placed (fun s => s.accessPlace a.id ++ s.countPlace a.id) (execHomeAccess a.id)]
     | .performed _ => if a.kind = .store then [execAcknowledgement a.id] else [placed (·.countPlace a.id) (execLoadResult a.id)]) ++
    if a.ord = 3 && !a.floored then [execFloorBroadcast, execScFloorReached a.ins] else []) ++
  ((s.pairs.filter fun p => !p.accepted).map fun (p : Pair) => execPairAccept p.id) ++
  (s.engines.flatMap fun (e : Engine) =>
    [execZscanComplete e.id, placed (·.enginePlace e.id) (execNmvComplete e.id), execMxstComplete e.id, execFloorBroadcast, execScFloorReached e.id]) ++
  s.cores.flatMap fun c => c.2.copies.flatMap fun k =>
    [execCopyStart c.1 k.1, ((fun s => .next (s.copyMove c.1 k.1 k.2.total)) : TurnFn),
     placed (fun _ => [tagPlace c.1]) (execCopyComplete c.1 k.1)]

/-- Turns of teams and cores. (Log 11, DESIGN CHOICE.) -/
def coreTurns (s : State) : List TurnFn :=
  let here (tn : Nat) (f : TurnFn) : TurnFn := placed (fun s => [tagPlace (s.team tn).core]) f
  (s.pendingTraps.map fun p => here p.1 (execTrapEntry p.1 p.2.1)) ++
  (s.teams.flatMap fun t =>
    (if t.2.filling = [] then [] else [execRegisterFill t.1]) ++
    (if t.2.parked then [execTeamResume t.1] else []) ++
    (laneList.flatMap fun L =>
      match (t.2.lane L).st with
      | .waiting (.arrive _ _ _) => [here t.1 (execBarrierArrival t.1 L)]
      | .waiting (.drain _ _) => [here t.1 (execBarrierArrival t.1 L)]
      | .waiting (.emulate _ _ _) => [here t.1 (execTrapEntry t.1 L)]
      | _ => [])) ++
  s.cores.flatMap fun c =>
    (if c.2.blocks = [] then [] else [placed (fun _ => [issuePlace c.1]) (issueTurn c.1)]) ++
    (if c.2.walker.running then [((·.walkTurn c.1) : TurnFn)] else []) ++
    if c.2.wbuf = [] then [] else [((fun s => .next (s.drainGroup c.1)) : TurnFn)]

/-- Turns of the Yards and the command processors. (Log 11, DESIGN CHOICE.) -/
def yardTurns (s : State) : List TurnFn :=
  (s.emissions.map fun (e : Emission) => placed (·.appendPlace e.id) (execRecordAppend e.id)) ++
  (s.stalls.flatMap fun k =>
    [placed (fun s => [s.musterPlace (keyRun k.1) (keyNode k.1) false]) (execMuster (keyRun k.1) (keyNode k.1)),
     execProbeQuiet (keyRun k.1) (keyNode k.1)]) ++
  (s.blocks.flatMap fun b =>
    placed (·.retirePlace b.1) (execBlockRetire b.1) ::
      (List.range 4).map fun i => placed (fun _ => [startPlace (4 * b.2.cluster + i)]) (execBlockStart (4 * b.2.cluster + i))) ++
  (s.runs.map fun r => placed (fun s => [s.entryPlace r.1]) (execEntryRecordAppend r.1)) ++
  (s.funcs.flatMap fun f =>
    (([execRun f.1, execNopPacket f.1, execSetctr f.1, execCancelPacketRun f.1, execCancelPacketPhase f.1,
       execCancelPacketJob f.1] : List TurnFn).map (placed fun _ => [takePlace f.1])) ++
    [execRunAdmit f.1, execQcreate f.1, execQdestroy f.1, execPolicyload f.1]) ++
  (s.queues.flatMap fun q => [execQueueReexamine q.1, execHeadMirrorWrite q.1]) ++ [execInvalidationComplete]

/-- With an empty agenda: bring-up goes on, and then whatever is in hand takes its turn, one thing after another.
(Log 11, DESIGN CHOICE.) -/
def defaultTurn (s : State) : Host.Outcome State Fault Refusal :=
  if s.dev.railsOff || s.dev.stage = 0xFF then .next s
  else if s.dev.stage ≠ 5 then execBootStageComplete 0 s
  else
    let ts : List TurnFn := ((fun s => .next s.tick) : TurnFn) :: (memoryTurns s ++ coreTurns s ++ yardTurns s)
    match ts[s.stamp % ts.length]? with
    | some f => f s
    | none => .next s

end Sys2Proof.Machine
end

