-- ==== Sys2Proof/Machine/Step.lean ====
section
/-! DEFINITION. One step of the machine: the next turn of the agenda, or a default turn where it is empty (log 1); and how a
test places one instruction where the next step fetches it. -/
namespace Sys2Proof.Machine

/-- One step: the stamp of the free values advances, a turn is taken, and what follows at once follows.
(Log 1, DESIGN CHOICE; log 2, DESIGN CHOICE.) -/
def step (s : State) : Host.Outcome State Fault Refusal :=
  let s := { s with stamp := s.stamp + 1 }
  match (match s.agenda with
    | t :: r => takeTurn t { s with agenda := r }
    | [] => defaultTurn s) with
  | .next s' => .next { s'.settle with cur := none }
  | o => o

/-! ### Placing one instruction (log 10) -/

/-- Virtual address of the placed line; its page is mapped to physical address 0x10000. -/
def placeVa : Nat := 0x10000

/-- The sixteen words of a line that holds these words from slot 0: slot 0 is a marked target, and PARITY agrees. -/
def placeLine (ws : List Word) : List Word :=
  let slots := (ws ++ List.replicate 15 (0 : Word)).take 15
  slots ++ [BitVec.ofNat 32 (xorWords slots * 2 ^ 24 + 1)]

/-- Write words to HBM from `p`. -/
def placeWords (p : Nat) (ws : List Word) (s : State) : State :=
  match ws with
  | [] => s
  | w :: r => placeWords (p + 4) r (s.hbmWrite p 4 w.toNat)

/-- Page tables of function 1 that map one page, readable, writable, executable and for the user, and the line there.
(Log 10, DEDUCED.) -/
def placeMemory (ws : List Word) (s : State) : State :=
  let s := s.hbmWrite 0x1000 8 0x2001
  let s := s.hbmWrite 0x2000 8 0x3001
  let s := s.hbmWrite 0x3000 8 0x4001
  let s := s.hbmWrite 0x4080 8 0x1002F
  placeWords 0x10000 (placeLine ws) s

/-- A node that may use everything: 512 registers, 12 masks, 16 barriers, 4 accumulator slots, every feature. -/
def placeNode : Node :=
  { code := BitVec.ofNat 64 placeVa, featreq := 0x1FFF, shape := 0x224320 }

/-- A team of one lane, READY at the placed line. -/
def placeTeam : Team :=
  let pc : Dbl := BitVec.ofNat 64 placeVa
  { resident := true, lanes := [(0, { st := .ready, pc := pc, arrival := .transfer 0 })], service := [pc] }

/-- The register groups of the placed team are in the register cache (05 R135). -/
def placeGroups : List (Nat × Nat) := (List.range 32).map fun g => (0, g)

/-- One block of one team of function 1 runs on core 0, at a line that holds `ws`. (Log 10, DEDUCED.) -/
def State.placeBlock1 (s : State) (ws : List Word) : State :=
  let s := placeMemory ws s
  { s with
    dev := { s.dev with stage := 5, schedulerUp := true, railsOff := false }
    funcs := [(1, { ptroot := 0x1109 })]
    runs := [(0, { stage := .admitted, func := 1, graph := { nodes := [placeNode] } })]
    blocks := [(0, { place := .running, func := 1, teams := [0] })]
    teams := [(0, placeTeam)]
    cores := [(0, { blocks := [0], rcache := placeGroups })]
    answers := [], tlb := [], walks := [], ilines := [], pendingTraps := [], cur := none, agenda := [.issue 0] }

/-- The walker of core 0 runs a section of one word, at the second line of the placed page. (Log 10, DEDUCED.) -/
def placeWalker : Walker :=
  { owner := 1, running := true, len := 1, image := BitVec.ofNat 64 placeVa, section0 := BitVec.ofNat 64 placeVa }

/-- The word is a legal walk instruction (15 R351). (Log 36, DEDUCED.) -/
def walkWordOk (w : Word) : Bool :=
  match walkMeanings.lookup (w.extractLsb' 26 6).toNat with
  | some (ok, _) => ok (WalkOp.ofWord w)
  | none => false

/-- The state with an instruction placed where the next step fetches it: a word of the main set in a line at which a lane
stands; a walk word in a running walk's image; a policy word as the program of a policy event.
(Log 6, DESIGN CHOICE; log 10, DEDUCED.) -/
def State.withFetchWord (s : State) (nbits w : Nat) : State :=
  let w0 : Word := BitVec.ofNat 32 w
  let w1 : Word := BitVec.ofNat 32 (w / 2 ^ 32)
  let w2 : Word := BitVec.ofNat 32 (w / 2 ^ 64)
  if (decodeSlots w0 w1 w2).isNone && nbits ≤ 32 && walkWordOk w0 then
    let s := s.placeBlock1 [w0]
    { s with cores := [(0, { blocks := [0], rcache := placeGroups, walker := placeWalker })], agenda := [.walk 0] }
  else if (decodeSlots w0 w1 w2).isNone && npbFormed (w1 ++ w0) then
    { s.placeBlock1 [] with policy := some { func := 1, prog := [w1 ++ w0] }, agenda := [.policy] }
  else s.placeBlock1 [w0, w1, w2]

end Sys2Proof.Machine
end

