-- ==== Sys2Proof/Safety.lean ====
section
/-! DEFINITION. What a run must keep: the canonical form of the memories, and steps that neither fault nor refuse. -/
namespace Sys2Proof.Machine

/-- The four byte memories of a state are in canonical form: HBM, the vaults, host memory, other accelerators' memory. -/
def State.memWf (s : State) : Bool :=
  Memory.wf s.hbm && Memory.wf s.vaults && Memory.wf s.host && Memory.wf s.remote

/-- An outcome is a next state that satisfies `p`. -/
def NextWith (o : Host.Outcome State Fault Refusal) (p : State → Prop) : Prop := ∃ t, o = .next t ∧ p t

/-- An outcome is a next state. -/
def Continues (o : Host.Outcome State Fault Refusal) : Prop := NextWith o fun _ => True

/-- An outcome is a next state equal to this one. -/
def Answers (o : Host.Outcome State Fault Refusal) (t : State) : Prop := o = .next t

/-- A run of `k` steps from `s` never faults and never is refused. -/
def SafeRun (k : Nat) (s : State) : Prop := ∃ t, Host.Core.run Sys2Proof.core k s = .next t

end Sys2Proof.Machine
end

