-- ==== Sys2Proof/Certificates/Slice0/Obligations.lean ====
section
/-! DEFINITION. The statements about the ZX4 model, and the words they are said in.

Words of the statements stand first, in `Sys2Proof.Claims`; a statement is a proposition `Obligations.<Name>`. A statement
about an instruction of the main set is about `exec i s` for the current issue `iss` of `s`: the lanes of `iss.group`
whose pending predicate is 1 are Active (05 R125, 08 R203). -/
namespace Sys2Proof.Claims
open Sys2Proof Sys2Proof.Machine

/-! ### The issue of an instruction -/

/-- The Active lanes, ascending: those of the issue group whose predicate is 1. -/
def actives (s : State) (iss : Issue) : List Nat :=
  (List.range 64).filter fun L => decide (L ∈ iss.group) && ((s.team iss.team).lane L).pend

/-- Lane `L` is Active. -/
abbrev Act (s : State) (iss : Issue) (L : Nat) : Prop := L ∈ actives s iss

/-- The node that the issuing team's block runs. -/
def nodeAt (s : State) (iss : Issue) : Node := s.nodeOf (s.team iss.team).block

/-- What a meaning is told of the issue. -/
def seen (s : State) (iss : Issue) (i : Instr) : Ctx :=
  { iss := iss, team := s.team iss.team, block := s.block (s.team iss.team).block, node := nodeAt s iss, form := i.form,
    act := actives s iss }

/-- Instruction `i` is being issued for `iss`, on a node with no more registers than 02 R43 allows, and no row from 6 to
10 of 06 R165 stops one of its lanes. -/
def Issued (s : State) (iss : Issue) (i : Instr) : Prop :=
  s.cur = some iss ∧ (nodeAt s iss).regs ≤ 512 ∧
  ∀ L, Act s iss L → rowFault s (s.team iss.team) (nodeAt s iss) i.wf i.form iss.word L = none

/-- A lane of the group has gone on to the next PC with its predicate 1 (06 R150, 08 R203). -/
def goneOn (iss : Issue) (l : Lane) : Lane := { l.flow (nextPc iss.pc iss.len) with pend := true, hold := .none }

/-- Every lane of the group has gone on; every other lane is as it was. -/
def LanesGoOn (s t : State) (iss : Issue) : Prop :=
  ∀ L, (t.team iss.team).lane L =
    if L < 64 ∧ L ∈ iss.group then goneOn iss ((s.team iss.team).lane L) else (s.team iss.team).lane L

/-- INSNS after one more issue (05 R128). -/
def counted (n : BitVec 16) : BitVec 16 := if n = 0xFFFF then n else n + 1

/-- Nothing but the issuing team has changed. -/
def OnlyTeam (s t : State) (iss : Issue) : Prop := t = s.setTeam iss.team (t.team iss.team)

/-- In the issuing team only vector registers, the zero map, lanes, INSNS and the service list have changed, and of the
vector registers only those that `dest` names: the frame of an instruction that writes vector registers. -/
def VectorFrame (s t : State) (iss : Issue) (dest : Nat → Nat → Prop) : Prop :=
  let T := s.team iss.team
  let T' := t.team iss.team
  OnlyTeam s t iss ∧
  T' = { T with v := T'.v, nonzero := T'.nonzero, lanes := T'.lanes, insns := counted T.insns, service := T'.service } ∧
  LanesGoOn s t iss ∧
  ∀ L n, L < 64 → n < 512 → ¬ dest L n → T'.vreg L n = T.vreg L n

/-- The number of the destination register of `i` for lane `L`. -/
def destReg (s : State) (iss : Issue) (i : Instr) (L : Nat) : Nat := opReg (s.team iss.team) L i.form 0

/-- `i` completes: each Active lane's 32-bit destination register holds a value as `ok` says, and nothing else changes. -/
def Gives32 (i : Instr) (ok : State → Issue → Nat → Word → Prop) : Prop :=
  ∀ s iss, Issued s iss i → ∃ t, exec i s = .next t ∧
    VectorFrame s t iss (fun L n => Act s iss L ∧ n = destReg s iss i L) ∧
    ∀ L, Act s iss L → ok s iss L ((t.team iss.team).vreg L (destReg s iss i L))

/-- `i` completes: each Active lane's destination pair holds a value as `ok` says, and nothing else changes. -/
def Gives64 (i : Instr) (ok : State → Issue → Nat → Dbl → Prop) : Prop :=
  ∀ s iss, Issued s iss i → ∃ t, exec i s = .next t ∧
    VectorFrame s t iss (fun L n => Act s iss L ∧ (n = destReg s iss i L ∨ n = destReg s iss i L + 1)) ∧
    ∀ L, Act s iss L → ok s iss L ((t.team iss.team).vpair L (destReg s iss i L))

/-- Operand A, B or C (slot 1, 2, 3) of lane `L`, 32 bits, before the instruction. -/
def op32 (s : State) (iss : Issue) (i : Instr) (slot L : Nat) : Word := rd32 (s.team iss.team) L i.form slot
/-- The same, 64 bits. -/
def op64 (s : State) (iss : Issue) (i : Instr) (slot L : Nat) : Dbl := rd64 (s.team iss.team) L i.form slot

/-- An operation of the L64 form and of the X96 form, in which LIT32 replaces operand B (07 R177). -/
def Alu32 (reg : L64 → Instr) (lit : X96 → Instr) (f : BitVec 14 → Word → Word → Word) : Prop :=
  (∀ o, Gives32 (reg o) fun s iss L w =>
    w = f o.imm (op32 s iss (reg o) 1 L) (op32 s iss (reg o) 2 L)) ∧
  (∀ o, Gives32 (lit o) fun s iss L w => w = f o.lo.imm (op32 s iss (lit o) 1 L) o.lit)

/-- The same at 64 bits; `wide` widens LIT32 (07 R177). -/
def Alu64 (reg : L64 → Instr) (lit : X96 → Instr) (wide : Word → Dbl) (f : BitVec 14 → Dbl → Dbl → Dbl) : Prop :=
  (∀ o, Gives64 (reg o) fun s iss L w =>
    w = f o.imm (op64 s iss (reg o) 1 L) (op64 s iss (reg o) 2 L)) ∧
  (∀ o, Gives64 (lit o) fun s iss L w => w = f o.lo.imm (op64 s iss (lit o) 1 L) (wide o.lit))

/-- Sign extension and zero extension of LIT32. -/
def sx (w : Word) : Dbl := w.signExtend 64
def zx (w : Word) : Dbl := w.setWidth 64

/-- Clamp to a range where SAT, bit 8 of IMM14, is 1 (06 R160, 07 R184). -/
def satIn (imm : BitVec 14) (lo hi x : Int) : Int := if imm.getLsbD 8 then max lo (min hi x) else x

/-- Position and length of a field (07 R189), where operand B gives one. -/
def fieldPos (b : Word) : Nat := (b.extractLsb' 0 8).toNat
def fieldLen (b : Word) : Nat := min (b.extractLsb' 8 8).toNat (32 - fieldPos b)
def hasField (b : Word) : Bool := b.extractLsb' 8 8 != 0 && decide (fieldPos b < 32)

/-! ### Writes of masks -/

/-- In the issuing team only masks, lanes, INSNS and the service list have changed, and of the masks only those that `dest`
names. -/
def MaskFrame (s t : State) (iss : Issue) (dest : Nat → Prop) : Prop :=
  let T := s.team iss.team
  let T' := t.team iss.team
  OnlyTeam s t iss ∧
  T' = { T with k := T'.k, lanes := T'.lanes, insns := counted T.insns, service := T'.service } ∧
  LanesGoOn s t iss ∧
  ∀ n, ¬ dest n → T'.kreg n = T.kreg n

/-- `i` completes: mask `d` holds bit by bit what `bit` says, nothing else changes, and then the release check of the mask
runs (08 R213). -/
def GivesMask (i : Instr) (d : Nat) (bit : State → Issue → Nat → Bool) : Prop :=
  ∀ s iss, Issued s iss i → ∃ t, exec i s = .next (t.checkMask iss.team d) ∧
    MaskFrame s t iss (fun n => n = d) ∧
    ∀ L, L < 64 → ((t.team iss.team).kreg d).getLsbD L = bit s iss L

/-- `i` writes the whole of mask `d` where some lane is Active (and then its release check runs), and with no Active lane
only the PC moves on and the issue is counted. -/
def GivesWholeMask (i : Instr) (d : Nat) (bit : State → Issue → Nat → Bool) : Prop :=
  ∀ s iss, Issued s iss i →
    (actives s iss ≠ [] → ∃ t, exec i s = .next (t.checkMask iss.team d) ∧ MaskFrame s t iss (fun n => n = d) ∧
      ∀ L, L < 64 → ((t.team iss.team).kreg d).getLsbD L = bit s iss L) ∧
    (actives s iss = [] → ∃ t, exec i s = .next t ∧ MaskFrame s t iss (fun _ => False))

/-- Bit `L` of mask `n` before the instruction. -/
def kbit (s : State) (iss : Issue) (n L : Nat) : Bool := ((s.team iss.team).kreg n).getLsbD L

/-- In the issuing team nothing has changed but lanes, INSNS, the service list and what `blank` blanks out; nothing outside
the team has changed; every lane of the group is as `lane` says. -/
def TeamFrame (s t : State) (iss : Issue) (blank : Team → Team) (lane : Nat → Lane → Lane) : Prop :=
  let T := s.team iss.team
  let T' := t.team iss.team
  let bare (u : Team) : Team := blank { u with lanes := [], insns := 0, service := [] }
  OnlyTeam s t iss ∧ bare T' = bare T ∧ T'.insns = counted T.insns ∧
  ∀ L, T'.lane L = if L < 64 ∧ L ∈ iss.group then lane L (T.lane L) else T.lane L

/-- `i` takes these faults, in lane order: before that, nothing has changed but the issuing team's lanes, INSNS and service
list; a faulting lane stands where it was with its predicate 1, every other lane of the group has gone on; answers that say
that a page walk fails are used up (09 R237). -/
def FaultsWith (i : Instr) (s : State) (iss : Issue) (fs : List (Nat × FaultInfo)) : Prop :=
  ∃ t, exec i s = .next ((t.dropAnswers iss.team (fs.map (·.1))).takeFaults iss.team fs iss.pc (nextPc iss.pc iss.len)) ∧
    TeamFrame s t iss id (fun L l => if (fs.lookup L).isSome then { l with pend := true } else goneOn iss l)

/-- `i` completes from `u`, which has the instruction's effect outside the lanes: the lanes `fs` fault, in lane order, each
where it stands; every other lane of the group is as `lane` says; in the issuing team only lanes, INSNS, the service list
and what `blank` blanks out differ from `u`, and nothing outside it; `also` says more of the state before faults are taken,
and `after` is the check that follows. -/
def Does (i : Instr) (s : State) (iss : Issue) (u : State) (fs : List (Nat × FaultInfo)) (blank : Team → Team)
    (lane : Nat → Lane → Lane) (also : State → Prop) (after : State → State) : Prop :=
  ∃ t, exec i s = .next (after (if fs = [] then t else
      (t.dropAnswers iss.team (fs.map (·.1))).takeFaults iss.team fs iss.pc (nextPc iss.pc iss.len))) ∧
    TeamFrame u t iss blank (fun L l => if (fs.lookup L).isSome then { l with pend := true } else lane L l) ∧ also t

/-- The system registers that SREAD reads and their values for a lane (05 R143; 12 R309; 17 R382), as doubles. -/
def sysTable (s : State) (iss : Issue) (L : Nat) : List (Nat × Dbl) :=
  let T := s.team iss.team
  let l := T.lane L
  let k := s.block T.block
  let nd := nodeAt s iss
  let th := 64 * T.index + L
  let nat (n : Nat) : Dbl := .ofNat 64 n
  [(0x000, 64), (0x001, nat L), (0x002, nat ((k.teams.length - 1) % 16 * 2 ^ 16 + T.index % 16)), (0x003, nat (th % 1024)),
   (0x004, nat (nd.tprl * 2 ^ 24 + th % 2 ^ nd.tprl * 2 ^ 16 + th / 2 ^ nd.tprl % 1024)),
   (0x005, if nd.depnode then 0 else nat k.records.length), (0x006, nd.shape.setWidth 64),
   (0x007, nat (dieOfCore T.core * 2 ^ 24 + clusterOfCore T.core * 2 ^ 16 + T.core)),
   (0x008, (s.nodeid T.block).setWidth 64), (0x009, (s.jobid T.block).setWidth 64), (0x00A, (s.runid T.block).setWidth 64),
   (0x010, k.vbase), (0x012, nat nd.vaultb), (0x013, nat nd.privb), (0x018, (s.core T.core).tags),
   (0x01C, T.insns.setWidth 64), (0x01D, T.fair.setWidth 64), (0x01E, s.cycle), (0x020, 0x1FFF),
   (0x100, l.tpc), (0x102, l.tnext), (0x104, l.tstatus.setWidth 64), (0x105, l.tinfo.setWidth 64), (0x106, l.taddr),
   (0x108, k.taskid), (0x10A, k.abase)] ++
  (List.range 20).map fun e => (0x140 + e, nat (k.events.get 0 e))

end Sys2Proof.Claims

open Sys2Proof Sys2Proof.Machine Sys2Proof.Claims

/-! ### Integer instructions (07) -/

/-- 07 R184: ADD and SUB compute exactly, clamp to the type's range under SAT, and narrow. -/
def Obligations.AddAndSubResults : Prop :=
  Alu32 .addS32 .addS32X96 (fun imm a b => .ofInt 32 (satIn imm (-2 ^ 31) (2 ^ 31 - 1) (a.toInt + b.toInt))) ∧
  Alu32 .addN32 .addN32X96 (fun imm a b => .ofInt 32 (satIn imm 0 (2 ^ 32 - 1) (a.toNat + b.toNat))) ∧
  Alu32 .subS32 .subS32X96 (fun imm a b => .ofInt 32 (satIn imm (-2 ^ 31) (2 ^ 31 - 1) (a.toInt - b.toInt))) ∧
  Alu32 .subN32 .subN32X96 (fun imm a b => .ofInt 32 (satIn imm 0 (2 ^ 32 - 1) (a.toNat - b.toNat))) ∧
  Alu64 .addS64 .addS64X96 sx (fun imm a b => .ofInt 64 (satIn imm (-2 ^ 63) (2 ^ 63 - 1) (a.toInt + b.toInt))) ∧
  Alu64 .addN64 .addN64X96 zx (fun imm a b => .ofInt 64 (satIn imm 0 (2 ^ 64 - 1) (a.toNat + b.toNat))) ∧
  Alu64 .subS64 .subS64X96 sx (fun imm a b => .ofInt 64 (satIn imm (-2 ^ 63) (2 ^ 63 - 1) (a.toInt - b.toInt))) ∧
  Alu64 .subN64 .subN64X96 zx (fun imm a b => .ofInt 64 (satIn imm 0 (2 ^ 64 - 1) (a.toNat - b.toNat)))

/-- 07 R185: the multiplications write the low or the high bits of the exact product. -/
def Obligations.MultiplyResults : Prop :=
  Alu32 .mul .mulX96 (fun _ a b => .ofNat 32 (a.toNat * b.toNat)) ∧
  Alu32 .mulhiS32 .mulhiS32X96 (fun _ a b => .ofInt 32 (a.toInt * b.toInt / 2 ^ 32)) ∧
  Alu32 .mulhiN32 .mulhiN32X96 (fun _ a b => .ofNat 32 (a.toNat * b.toNat / 2 ^ 32)) ∧
  Alu64 .mulB64 .mulB64X96 sx (fun _ a b => .ofNat 64 (a.toNat * b.toNat)) ∧
  (∀ o, Gives32 (.mad o) fun s iss L w =>
    w = .ofNat 32 ((op32 s iss (.mad o) 1 L).toNat * (op32 s iss (.mad o) 2 L).toNat + (op32 s iss (.mad o) 3 L).toNat)) ∧
  (∀ o, Gives32 (.madX96 o) fun s iss L w =>
    w = .ofNat 32 ((op32 s iss (.madX96 o) 1 L).toNat * o.lit.toNat + (op32 s iss (.madX96 o) 3 L).toNat))

/-- 07 R186: division truncates toward zero, and every divisor gives a result. (`sdiv` and `srem` wrap at the least value
divided by −1, as R186 does.) -/
def Obligations.DivisionResults : Prop :=
  Alu32 .divS32 .divS32X96 (fun _ a b => if b = 0 then .allOnes 32 else a.sdiv b) ∧
  Alu32 .divN32 .divN32X96 (fun _ a b => if b = 0 then .allOnes 32 else a / b) ∧
  Alu32 .remS32 .remS32X96 (fun _ a b => if b = 0 then a else a.srem b) ∧
  Alu32 .remN32 .remN32X96 (fun _ a b => if b = 0 then a else a % b) ∧
  Alu64 .divS64 .divS64X96 sx (fun _ a b => if b = 0 then .allOnes 64 else a.sdiv b) ∧
  Alu64 .divN64 .divN64X96 zx (fun _ a b => if b = 0 then .allOnes 64 else a / b) ∧
  Alu64 .remS64 .remS64X96 sx (fun _ a b => if b = 0 then a else a.srem b) ∧
  Alu64 .remN64 .remN64X96 zx (fun _ a b => if b = 0 then a else a % b)

/-- 07 R187: the lesser or greater operand, and the bitwise operations.
07 R188: the count is all 32 bits of operand B; shifts by 32 or more push everything out, a rotation takes it modulo
32. -/
def Obligations.LogicAndShiftResults : Prop :=
  (
    Alu32 .minS32 .minS32X96 (fun _ a b => if a.toInt ≤ b.toInt then a else b) ∧
    Alu32 .minN32 .minN32X96 (fun _ a b => if a ≤ b then a else b) ∧
    Alu32 .maxS32 .maxS32X96 (fun _ a b => if a.toInt ≤ b.toInt then b else a) ∧
    Alu32 .maxN32 .maxN32X96 (fun _ a b => if a ≤ b then b else a) ∧
    Alu64 .minS64 .minS64X96 sx (fun _ a b => if a.toInt ≤ b.toInt then a else b) ∧
    Alu64 .minN64 .minN64X96 zx (fun _ a b => if a ≤ b then a else b) ∧
    Alu64 .maxS64 .maxS64X96 sx (fun _ a b => if a.toInt ≤ b.toInt then b else a) ∧
    Alu64 .maxN64 .maxN64X96 zx (fun _ a b => if a ≤ b then b else a) ∧
    Alu32 .andV .andX96 (fun _ a b => a &&& b) ∧ Alu32 .orV .orX96 (fun _ a b => a ||| b) ∧
    Alu32 .xorV .xorX96 (fun _ a b => a ^^^ b) ∧ Alu32 .andn .andnX96 (fun _ a b => a &&& ~~~b)) ∧
  (
    Alu32 .shl .shlX96 (fun _ a b => if 32 ≤ b.toNat then 0 else a <<< b.toNat) ∧
    Alu32 .shr .shrX96 (fun _ a b => if 32 ≤ b.toNat then 0 else a >>> b.toNat) ∧
    Alu32 .sar .sarX96 (fun _ a b => a.sshiftRight (min b.toNat 31)) ∧
    Alu32 .rot .rotX96 (fun _ a b => (a <<< (b.toNat % 32)) ||| (a >>> (32 - b.toNat % 32))))


/-- 07 R189: fields extracted, with zeros or copies of the top bit above, and inserted. -/
def Obligations.FieldResults : Prop :=
  Alu32 .bfxN32 .bfxN32X96 (fun _ a b =>
    if hasField b then (a <<< (32 - fieldPos b - fieldLen b)) >>> (32 - fieldLen b) else 0) ∧
  Alu32 .bfxS32 .bfxS32X96 (fun _ a b =>
    if hasField b then (a <<< (32 - fieldPos b - fieldLen b)).sshiftRight (32 - fieldLen b) else 0) ∧
  (∀ o, Gives32 (.bfi o) fun s iss L w =>
    let b := op32 s iss (.bfi o) 2 L
    ∀ i, i < 32 → w.getLsbD i =
      if hasField b = true ∧ fieldPos b ≤ i ∧ i < fieldPos b + fieldLen b
      then (op32 s iss (.bfi o) 3 L).getLsbD (i - fieldPos b) else (op32 s iss (.bfi o) 1 L).getLsbD i) ∧
  (∀ o, Gives32 (.bfiX96 o) fun s iss L w =>
    ∀ i, i < 32 → w.getLsbD i =
      if hasField o.lit = true ∧ fieldPos o.lit ≤ i ∧ i < fieldPos o.lit + fieldLen o.lit
      then (op32 s iss (.bfiX96 o) 3 L).getLsbD (i - fieldPos o.lit) else (op32 s iss (.bfiX96 o) 1 L).getLsbD i)

/-- 07 R191, R192: per-lane select by a mask bit, and address arithmetic on pairs.
07 R180, R193: immediate forms, MOVI, LIT and LIT.B64. -/
def Obligations.SelectAddressAndImmediateResults : Prop :=
  (
    (∀ o, Gives32 (.sel o) fun s iss L w =>
      w = if kbit s iss o.c.toNat L then op32 s iss (.sel o) 1 L else op32 s iss (.sel o) 2 L) ∧
    (∀ o, Gives32 (.selX96 o) fun s iss L w =>
      w = if kbit s iss o.lo.c.toNat L then op32 s iss (.selX96 o) 1 L else o.lit) ∧
    (∀ o, Gives64 (.adda o) fun s iss L w => w = op64 s iss (.adda o) 1 L + sx (op32 s iss (.adda o) 2 L)) ∧
    (∀ o, Gives64 (.addaX96 o) fun s iss L w => w = op64 s iss (.addaX96 o) 1 L + sx o.lit) ∧
    (∀ o, Gives64 (.shla o) fun s iss L w =>
      w = op64 s iss (.shla o) 1 L + (zx (op32 s iss (.shla o) 2 L) <<< o.c.toNat)) ∧
    (∀ o, Gives64 (.shlaX96 o) fun s iss L w => w = op64 s iss (.shlaX96 o) 1 L + (zx o.lit <<< o.lo.c.toNat)) ∧
    (∀ o, Gives64 (.addai o) fun s iss L w => w = op64 s iss (.addai o) 1 L + o.imm.signExtend 64)) ∧
  (
    (∀ p ∈ ([(Instr.addi, fun a i => a + i), (.andi, fun a i => a &&& i), (.ori, fun a i => a ||| i),
             (.xori, fun a i => a ^^^ i)] : List ((L64 → Instr) × (Word → Word → Word))),
      ∀ o, Gives32 (p.1 o) fun s iss L w => w = p.2 (op32 s iss (p.1 o) 1 L) (o.imm.signExtend 32)) ∧
    (∀ p ∈ ([(Instr.shli, fun a n => a <<< n), (.shri, fun a n => a >>> n),
             (.sari, fun a n => a.sshiftRight n)] : List ((L64 → Instr) × (Word → Nat → Word))),
      ∀ o, Gives32 (p.1 o) fun s iss L w => w = p.2 (op32 s iss (p.1 o) 1 L) o.imm.toNat) ∧
    (∀ o, Gives32 (.movi o) fun _ _ _ w => w = o.imm.signExtend 32) ∧
    (∀ o, Gives32 (.lit o) fun _ _ _ w => w = o.lit) ∧
    (∀ o, Gives64 (.litB64 o) fun _ _ _ w => w = sx o.lit))


/-- 07 R179, R194: moves and unary forms. -/
def Obligations.MoveAndUnaryResults : Prop :=
  (∀ p ∈ ([(Instr.mov, fun a => a), (.notV, fun a => ~~~a), (.negS32, fun a => 0 - a),
           (.absS32, fun a => .ofInt 32 |a.toInt|),
           (.popc, fun a => .ofNat 32 ((List.range 32).countP fun i => a.getLsbD i)),
           (.clz, fun a => a.clz), (.ctz, fun a => a.ctz)] : List ((S32 → Instr) × (Word → Word))),
    ∀ o, Gives32 (p.1 o) fun s iss L w => w = p.2 (op32 s iss (p.1 o) 1 L)) ∧
  (∀ o, Gives32 (.brev o) fun s iss L w =>
    ∀ i, i < 32 → w.getLsbD i = (op32 s iss (.brev o) 1 L).getLsbD (31 - i)) ∧
  (∀ o, Gives64 (.movB64 o) fun s iss L w => w = op64 s iss (.movB64 o) 1 L)

/-- 07 R190, R193: a compare writes bit L of its mask in Active lanes and keeps the other bits. -/
def Obligations.CompareResults : Prop :=
  let cc (c : BitVec 9) (eq lt : Bool) : Bool :=
    match c.toNat with
    | 0 => eq | 1 => !eq | 2 => lt | 3 => lt || eq | 4 => !lt && !eq | _ => !lt
  let gives (i : Instr) (d c : BitVec 9) (eq lt : State → Issue → Nat → Bool) : Prop :=
    GivesMask i d.toNat fun s iss L =>
      if Act s iss L then cc c (eq s iss L) (lt s iss L) else kbit s iss d.toNat L
  (∀ o, gives (.cmpS32 o) o.d o.c (fun s iss L => op32 s iss (.cmpS32 o) 1 L == op32 s iss (.cmpS32 o) 2 L)
    (fun s iss L => (op32 s iss (.cmpS32 o) 1 L).slt (op32 s iss (.cmpS32 o) 2 L))) ∧
  (∀ o, gives (.cmpN32 o) o.d o.c (fun s iss L => op32 s iss (.cmpN32 o) 1 L == op32 s iss (.cmpN32 o) 2 L)
    (fun s iss L => (op32 s iss (.cmpN32 o) 1 L).ult (op32 s iss (.cmpN32 o) 2 L))) ∧
  (∀ o, gives (.cmpS64 o) o.d o.c (fun s iss L => op64 s iss (.cmpS64 o) 1 L == op64 s iss (.cmpS64 o) 2 L)
    (fun s iss L => (op64 s iss (.cmpS64 o) 1 L).slt (op64 s iss (.cmpS64 o) 2 L))) ∧
  (∀ o, gives (.cmpN64 o) o.d o.c (fun s iss L => op64 s iss (.cmpN64 o) 1 L == op64 s iss (.cmpN64 o) 2 L)
    (fun s iss L => (op64 s iss (.cmpN64 o) 1 L).ult (op64 s iss (.cmpN64 o) 2 L))) ∧
  (∀ o, gives (.cmpS32X96 o) o.lo.d o.lo.c (fun s iss L => op32 s iss (.cmpS32X96 o) 1 L == o.lit)
    (fun s iss L => (op32 s iss (.cmpS32X96 o) 1 L).slt o.lit)) ∧
  (∀ o, gives (.cmpN32X96 o) o.lo.d o.lo.c (fun s iss L => op32 s iss (.cmpN32X96 o) 1 L == o.lit)
    (fun s iss L => (op32 s iss (.cmpN32X96 o) 1 L).ult o.lit)) ∧
  (∀ o, gives (.cmpS64X96 o) o.lo.d o.lo.c (fun s iss L => op64 s iss (.cmpS64X96 o) 1 L == sx o.lit)
    (fun s iss L => (op64 s iss (.cmpS64X96 o) 1 L).slt (sx o.lit))) ∧
  (∀ o, gives (.cmpN64X96 o) o.lo.d o.lo.c (fun s iss L => op64 s iss (.cmpN64X96 o) 1 L == zx o.lit)
    (fun s iss L => (op64 s iss (.cmpN64X96 o) 1 L).ult (zx o.lit))) ∧
  (∀ o, gives (.cmpiS32 o) o.d o.c (fun s iss L => op32 s iss (.cmpiS32 o) 1 L == o.imm.signExtend 32)
    (fun s iss L => (op32 s iss (.cmpiS32 o) 1 L).slt (o.imm.signExtend 32))) ∧
  (∀ o, gives (.cmpiN32 o) o.d o.c (fun s iss L => op32 s iss (.cmpiN32 o) 1 L == o.imm.setWidth 32)
    (fun s iss L => (op32 s iss (.cmpiN32 o) 1 L).ult (o.imm.setWidth 32)))

/-! ### Index, team and system registers, cross-lane instructions, masks (07, 08) -/

/-- 07 R179, R181, R182; 08 R216; 05 R143: reads of index, team, mask and system registers into vector registers.
07 R179, R181, R182: writes of index, team and system registers. WSET and SWRITE of FAIR take the value of the lowest
Active lane; TPC keeps its two low bits 0 (05 R144). -/
def Obligations.RegisterReadsAndWrites : Prop :=
  (
    (∀ o, Gives32 (.xget o) fun s iss L w => w = (s.team iss.team).xreg L o.a.toNat) ∧
    (∀ o, Gives32 (.wget o) fun s iss _ w => w = (s.team iss.team).wreg o.a.toNat) ∧
    (∀ o, Gives32 (.kpop o) fun s iss _ w => w = .ofNat 32 ((List.range 64).countP fun L => kbit s iss o.a.toNat L)) ∧
    (∀ o, Gives32 (.kget o) fun s iss L w => w = if kbit s iss o.a.toNat L then 1 else 0) ∧
    (∀ o, sysSize o.a.toNat = some 4 → Gives32 (.sread o) fun s iss L w =>
      ((sysTable s iss L).lookup o.a.toNat).map (·.setWidth 32) = some w) ∧
    (∀ o, sysSize o.a.toNat = some 8 → Gives64 (.sread o) fun s iss L w => (sysTable s iss L).lookup o.a.toNat = some w)) ∧
  (
    (∀ o s iss, Issued s iss (.xset o) → ∃ t, exec (.xset o) s = .next t ∧
      TeamFrame s t iss (fun u => { u with x := [] }) (fun _ => goneOn iss) ∧
      ∀ L n, L < 64 → n < 4 → o.d.toNat < 4 → (t.team iss.team).xreg L n =
        if Act s iss L ∧ n = o.d.toNat then op32 s iss (.xset o) 1 L else (s.team iss.team).xreg L n) ∧
    (∀ o s iss, Issued s iss (.wset o) → ∃ t, exec (.wset o) s = .next t ∧
      TeamFrame s t iss (fun u => { u with w := [] }) (fun _ => goneOn iss) ∧
      ∀ n, (t.team iss.team).wreg n = match actives s iss with
        | [] => (s.team iss.team).wreg n
        | m :: _ => if n = o.d.toNat then op32 s iss (.wset o) 1 m else (s.team iss.team).wreg n) ∧
    (∀ o s iss, Issued s iss (.swrite o) → o.d.toNat = 0x01D → ∃ t, exec (.swrite o) s = .next t ∧
      TeamFrame s t iss (fun u => { u with fair := 0 }) (fun _ => goneOn iss) ∧
      (t.team iss.team).fair = match actives s iss with
        | [] => (s.team iss.team).fair
        | m :: _ => (op32 s iss (.swrite o) 1 m).setWidth 16) ∧
    (∀ o s iss, Issued s iss (.swrite o) → o.d.toNat = 0x100 → ∃ t, exec (.swrite o) s = .next t ∧
      TeamFrame s t iss id (fun L l =>
        goneOn iss (if Act s iss L then { l with tpc := op64 s iss (.swrite o) 1 L &&& ~~~(3 : Dbl) } else l))) ∧
    (∀ o s iss, Issued s iss (.swrite o) → o.d.toNat = 0x104 → ∃ t, exec (.swrite o) s = .next t ∧
      TeamFrame s t iss id (fun L l =>
        goneOn iss (if Act s iss L then { l with tstatus := op32 s iss (.swrite o) 1 L } else l))))


/-- 07 R195 to R197: SHFL and BCAST read the operand of an Active lane only; a lane whose source is not Active reads its
own. -/
def Obligations.ShuffleResults : Prop :=
  let from_ (i : Instr) (s : State) (iss : Issue) (L j : Nat) (w : Word) : Prop :=
    w = if Act s iss j then op32 s iss i 1 j else op32 s iss i 1 L
  let seg (o : L64) : Nat := if o.c = 0 then 64 else min (2 ^ o.c.toNat) 64
  let n (i : Instr) (s : State) (iss : Issue) (L : Nat) : Nat := (op32 s iss i 2 L).toNat
  (∀ o, Gives32 (.shflIdx o) fun s iss L w =>
    from_ (.shflIdx o) s iss L (L - L % seg o + n (.shflIdx o) s iss L % seg o) w) ∧
  (∀ o, Gives32 (.shflUp o) fun s iss L w =>
    let n := n (.shflUp o) s iss L
    from_ (.shflUp o) s iss L (if n ≤ L % seg o then L - n else L) w) ∧
  (∀ o, Gives32 (.shflDown o) fun s iss L w =>
    let n := n (.shflDown o) s iss L
    from_ (.shflDown o) s iss L (if L % seg o + n < seg o then L + n else L) w) ∧
  (∀ o, Gives32 (.shflXor o) fun s iss L w =>
    from_ (.shflXor o) s iss L (L - L % seg o + (L % seg o ^^^ n (.shflXor o) s iss L % seg o)) w) ∧
  (∀ o, Gives32 (.bcast o) fun s iss _ w =>
    ∀ m, (actives s iss).head? = some m → from_ (.bcast o) s iss m (n (.bcast o) s iss m % 64) w)

/-- 07 R198 to R200: votes, groups of equal values, and one step of a reduction or scan. -/
def Obligations.VoteAndReduceResults : Prop :=
  let nz (i : Instr) (s : State) (iss : Issue) (L : Nat) : Bool := op32 s iss i 1 L != 0
  let op (o : L64) (x y : Word) : Word :=
    match (o.imm.extractLsb' 3 4).toNat with
    | 0 => x + y
    | 1 => if x.toInt ≤ y.toInt then x else y
    | 2 => if x ≤ y then x else y
    | 3 => if x.toInt ≤ y.toInt then y else x
    | 4 => if x ≤ y then y else x
    | 5 => x &&& y
    | 6 => x ||| y
    | _ => x ^^^ y
  let d (o : L64) : Nat := 2 ^ (o.imm.extractLsb' 0 3).toNat
  let partner (s : State) (iss : Issue) (o : L64) (L P : Nat) : Prop :=
    Act s iss P ∧ P / (2 * d o) = L / (2 * d o) ∧ P / d o ≠ L / d o
  (∀ o, Gives32 (.voteAny o) fun s iss _ w => w = if ∃ M ∈ actives s iss, nz (.voteAny o) s iss M then 1 else 0) ∧
  (∀ o, Gives32 (.voteAll o) fun s iss _ w => w = if ∀ M ∈ actives s iss, nz (.voteAll o) s iss M then 1 else 0) ∧
  (∀ o, GivesWholeMask (.voteBal o) o.d.toNat fun s iss L => decide (Act s iss L) && nz (.voteBal o) s iss L) ∧
  (∀ o, Gives32 (.matchLanes o) fun s iss L w =>
    let e := (actives s iss).filter fun J => op32 s iss (.matchLanes o) 1 J == op32 s iss (.matchLanes o) 1 L
    ∃ m ∈ e, (∀ J ∈ e, m ≤ J) ∧ w = .ofNat 32 (e.length * 2 ^ 16 + m)) ∧
  (∀ o, Gives32 (.redstep o) fun s iss L w =>
    let a := op32 s iss (.redstep o) 1 L
    (∀ P, partner s iss o L P → (∀ Q, partner s iss o L Q → P ≤ Q) →
      w = if L / d o % 2 = 0 then op o a (op32 s iss (.redstep o) 1 P) else op o (op32 s iss (.redstep o) 1 P) a) ∧
    ((∀ P, ¬ partner s iss o L P) → w = a)) ∧
  (∀ o, Gives32 (.scanstep o) fun s iss L w =>
    let a := op32 s iss (.scanstep o) 1 L
    (∀ P, partner s iss o L P → (∀ Q, partner s iss o L Q → Q ≤ P) →
      w = if L / d o % 2 = 1 then op o (op32 s iss (.scanstep o) 1 P) a else a) ∧
    ((∀ P, ¬ partner s iss o L P) → w = a))

/-- 08 R211, R216: writes of masks. Whole-mask forms write every bit; ENROL, LEAVE and KSET write the bits of Active lanes;
STRIKE clears them in every mask from `d` to 11. That a whole-mask form with no Active lane writes nothing and runs no release check is
the model's choice (log 137, DESIGN CHOICE): 08 R216 does not say. -/
def Obligations.MaskWrites : Prop :=
  (∀ o, GivesMask (.enrol o) o.d.toNat fun s iss L => decide (Act s iss L) || kbit s iss o.d.toNat L) ∧
  (∀ o, GivesMask (.leave o) o.d.toNat fun s iss L => !decide (Act s iss L) && kbit s iss o.d.toNat L) ∧
  (∀ o, GivesMask (.kset o) o.d.toNat fun s iss L =>
    if Act s iss L then op32 s iss (.kset o) 1 L != 0 else kbit s iss o.d.toNat L) ∧
  (∀ p ∈ ([(Instr.kmov, fun _ a => a), (.knot, fun _ a => !a), (.kand, fun d a => d && a), (.kor, fun d a => d || a),
           (.kxor, fun d a => xor d a), (.kandn, fun d a => d && !a)] : List ((S32 → Instr) × (Bool → Bool → Bool))),
    ∀ o, GivesWholeMask (p.1 o) o.d.toNat fun s iss L => p.2 (kbit s iss o.d.toNat L) (kbit s iss o.a.toNat L)) ∧
  (∀ o, GivesWholeMask (.kact o) o.d.toNat fun s iss L => decide (Act s iss L)) ∧
  (∀ o s iss, Issued s iss (.strike o) → ∃ t,
    exec (.strike o) s = .next (t.checkMasks iss.team ((List.range 12).filter fun n => o.d.toNat ≤ n)) ∧
    MaskFrame s t iss (fun n => o.d.toNat ≤ n ∧ n ≤ 11) ∧
    ∀ n L, o.d.toNat ≤ n → n ≤ 11 → L < 64 →
      ((t.team iss.team).kreg n).getLsbD L = (!decide (Act s iss L) && kbit s iss n L))

/-- 08 R203, 06 R169: PRED and PRED.NOT set each lane's predicate for its next instruction, and NOP does nothing; all move
to the next PC.
08 R212: at JOIN and WAITK an enrolled Active lane waits where it stands, and every other lane of the group goes on;
then the release check of the mask and the deadlock check run. In deterministic mode the entry of the mask's release, one for all its
waiters, must have room (log 141). In a version the waiting lanes keep what their arrival carries (log 122). -/
def Obligations.PredicationAndJoins : Prop :=
  (
    (∀ o s iss, Issued s iss (.pred o) → ∃ t, exec (.pred o) s = .next t ∧
      TeamFrame s t iss id (fun L l =>
        { goneOn iss l with pend := decide (Act s iss L) && kbit s iss o.a.toNat L })) ∧
    (∀ o s iss, Issued s iss (.predNot o) → ∃ t, exec (.predNot o) s = .next t ∧
      TeamFrame s t iss id (fun L l =>
        { goneOn iss l with pend := decide (Act s iss L) && !kbit s iss o.a.toNat L })) ∧
    (∀ s iss, Issued s iss .nop → ∃ t, exec .nop s = .next t ∧ TeamFrame s t iss id (fun _ => goneOn iss))) ∧
  (
    let room (s : State) (iss : Issue) (d L : Nat) : Prop :=
      let T := s.team iss.team
      s.logNeed iss.team L (dieOfCore T.core) .order (if T.atMask d = [] then 1 else 0) = none
    let waits (i : Instr) (d : Nat) (w : List Nat → Wait) : Prop := ∀ s iss, Issued s iss i →
      (∀ L, Act s iss L → kbit s iss d L = true → room s iss d L) →
      ∃ t, exec i s = .next ((t.checkMask iss.team d).checkDead iss.team) ∧
        TeamFrame (s.gives iss.team ((actives s iss).filter fun L => kbit s iss d L)) t iss id (fun L l =>
          if Act s iss L ∧ kbit s iss d L then { l with st := .waiting (w (s.unacked iss.team)), pend := true }
          else goneOn iss l)
    (∀ o, waits (.join o) o.d.toNat (.join o.d.toNat)) ∧ (∀ o, waits (.waitk o) o.d.toNat (.waitk o.d.toNat)))


/-! ### Control flow and traps (08; 17) -/

/-- 08 R205: BRA, BRNZ, BRZ and BRK move the Active lanes for which the condition holds to PC + 4 · disp, in the short and
the long form, and every other lane of the group to the next PC. -/
def Obligations.BranchesMoveLanes : Prop :=
  let gives (i : Instr) (disp : Dbl) (take : State → Issue → Nat → Bool) : Prop := ∀ s iss, Issued s iss i →
    ∃ t, exec i s = .next t ∧ TeamFrame s t iss id (fun L l =>
      if Act s iss L ∧ take s iss L then
        { goneOn iss l with pc := iss.pc + 4 * disp, arrival := .transfer iss.pc }
      else goneOn iss l)
  let nz (i : Instr) (s : State) (iss : Issue) (L : Nat) : Bool := op32 s iss i 1 L != 0
  (∀ o, gives (.bra o) (o.imm.signExtend 64) fun _ _ _ => true) ∧
  (∀ o, gives (.brnz o) (o.imm.signExtend 64) (nz (.brnz o))) ∧
  (∀ o, gives (.brz o) (o.imm.signExtend 64) fun s iss L => !nz (.brz o) s iss L) ∧
  (∀ o, gives (.brk o) (o.imm.signExtend 64) fun s iss L => kbit s iss o.a.toNat L) ∧
  (∀ o, gives (.braLong o) (sx o.lit) fun _ _ _ => true) ∧
  (∀ o, gives (.brnzLong o) (sx o.lit) (nz (.brnzLong o))) ∧
  (∀ o, gives (.brzLong o) (sx o.lit) fun s iss L => !nz (.brzLong o) s iss L) ∧
  (∀ o, gives (.brkLong o) (sx o.lit) fun s iss L => kbit s iss o.lo.a.toNat L)

/-- 08 R210: where a conditional branch splits the one path of a team, the hinted side is served first; without a hint, or
under .UNIFORM, the side with more lanes, and the fall-through side on a tie. So for BRNZ, BRZ and BRK, in the
short and the long form. -/
def Obligations.BranchServesHintedSideFirst : Prop :=
  let serves (i : Instr) (hint : BitVec 2) (disp : Dbl) (take : State → Issue → Nat → Bool) : Prop :=
    ∀ s iss, Issued s iss i →
      let T := s.team iss.team
      let taken := (actives s iss).filter (take s iss)
      let fall := ((List.range 64).filter fun L => decide (L ∈ iss.group)).filter fun L => !taken.contains L
      let target := iss.pc + 4 * disp
      let next := nextPc iss.pc iss.len
      T.service = [iss.pc] → iss.group.Nodup → (∀ L ∈ iss.group, L < 64 ∧ (T.lane L).st = .ready) →
      (∀ L, L ∉ iss.group → (T.lane L).st ≠ .ready) → target ≠ next → taken ≠ [] → fall ≠ [] →
      ∃ t, exec i s = .next t ∧ (t.team iss.team).service =
        if hint = 1 ∨ (hint ≠ 2 ∧ fall.length < taken.length) then [target, next] else [next, target]
  let nz (i : Instr) (s : State) (iss : Issue) (L : Nat) : Bool := op32 s iss i 1 L != 0
  (∀ o, serves (.brnz o) o.hint (o.imm.signExtend 64) (nz (.brnz o))) ∧
  (∀ o, serves (.brz o) o.hint (o.imm.signExtend 64) fun s iss L => !nz (.brz o) s iss L) ∧
  (∀ o, serves (.brk o) o.hint (o.imm.signExtend 64) fun s iss L => kbit s iss o.a.toNat L) ∧
  (∀ o, serves (.brnzLong o) o.lo.hint (sx o.lit) (nz (.brnzLong o))) ∧
  (∀ o, serves (.brzLong o) o.lo.hint (sx o.lit) fun s iss L => !nz (.brzLong o) s iss L) ∧
  (∀ o, serves (.brkLong o) o.lo.hint (sx o.lit) fun s iss L => kbit s iss o.lo.a.toNat L)

/-- 08 R205: CALL writes the next PC to its link pair and moves every Active lane to PC + 4 · disp; JMP, CALLR and RET move
an Active lane to its target, read before the link is written, where every target is a multiple of 4. -/
def Obligations.CallsAndJumps : Prop :=
  let moves (i : Instr) (link checked : Bool) (target : State → Issue → Nat → Dbl) : Prop := ∀ s iss, Issued s iss i →
    (checked = true → ∀ L, Act s iss L → (target s iss L).toNat % 4 = 0) →
    ∃ t, exec i s = .next t ∧
      TeamFrame s t iss (fun u => if link then { u with v := [], nonzero := [] } else u) (fun L l =>
        if Act s iss L then { goneOn iss l with pc := target s iss L, arrival := .transfer iss.pc } else goneOn iss l) ∧
      (link = true → (∀ L, Act s iss L → (t.team iss.team).vpair L (destReg s iss i L) = nextPc iss.pc iss.len) ∧
        ∀ L n, L < 64 → n < 512 → ¬ (Act s iss L ∧ (n = destReg s iss i L ∨ n = destReg s iss i L + 1)) →
          (t.team iss.team).vreg L n = (s.team iss.team).vreg L n)
  (∀ o, moves (.call o) true false fun _ iss _ => iss.pc + 4 * o.imm.signExtend 64) ∧
  (∀ o, moves (.callLong o) true false fun _ iss _ => iss.pc + 4 * sx o.lit) ∧
  (∀ o, moves (.jmp o) false true fun s iss L => op64 s iss (.jmp o) 1 L + 4 * o.imm.signExtend 64) ∧
  (∀ o, moves (.callr o) true true fun s iss L => op64 s iss (.callr o) 1 L + 4 * o.imm.signExtend 64) ∧
  (∀ o, moves (.ret o) false true fun s iss L => op64 s iss (.ret o) 1 L)

/-- 08 R206: JTAB of one Active lane whose index is below COUNT, whose base is a multiple of 8, whose table entry passes the
checks of an 8-byte load, which no earlier access of the lane holds back and for which the log has room, and is a PC: the lane
transfers to the entry read.
08 R205, R206: a misaligned target of JMP, CALLR or RET faults ALIGN with no link written; an index at or above COUNT
faults JTAB, a base that is no multiple of 8 ALIGN, unless it lies in a doorbell page that is no queue's of the function (03
R62) or its page walk is referred (one Active lane). The address that ALIGN of a JTAB reports, the base, is the model's choice
(log 120). -/
def Obligations.JumpTablesAndTransferFaults : Prop :=
  (
    ∀ o s iss L p, Issued s iss (.jtab o) → actives s iss = [L] →
      let i := (op32 s iss (.jtab o) 1 L).toNat
      let base := (op64 s iss (.jtab o) 2 L).toNat
      let a := (base + 8 * i) % 2 ^ 64
      i < o.imm.toNat + 1 → base % 8 = 0 → s.checkThread iss.team L .read a 8 8 = .ok (.hbm p) →
      s.logFaults (seen s iss (.jtab o)) [(L, [], .hbm p)] = [] → s.readReady iss.team L (.hbm p) 8 = true →
      let e := (s.readNow iss.team L (.hbm p) 8).2
      let r := (s.readNow iss.team L (.hbm p) 8).1
      e % 4 = 0 → e < 2 ^ 56 →
      ∃ t, exec (.jtab o) s = .next t ∧ TeamFrame r t iss id (fun M l =>
        if M = L then { goneOn iss l with pc := .ofNat 64 e, arrival := .transfer iss.pc } else goneOn iss l)) ∧
  (
    let faults (i : Instr) (bad : State → Issue → Nat → Option FaultInfo) : Prop :=
      ∀ s iss L e, Issued s iss i → actives s iss = [L] → bad s iss L = some e → FaultsWith i s iss [(L, e)]
    let mis (a : Dbl) : Option FaultInfo := if a.toNat % 4 = 0 then none else some { code := 0x06, addr := a }
    (∀ o, faults (.jmp o) fun s iss L => mis (op64 s iss (.jmp o) 1 L + 4 * o.imm.signExtend 64)) ∧
    (∀ o, faults (.callr o) fun s iss L => mis (op64 s iss (.callr o) 1 L + 4 * o.imm.signExtend 64)) ∧
    (∀ o, faults (.ret o) fun s iss L => mis (op64 s iss (.ret o) 1 L)) ∧
    (∀ o, faults (.jtab o) fun s iss L =>
      let i := op32 s iss (.jtab o) 1 L
      let base := op64 s iss (.jtab o) 2 L
      if o.imm.toNat + 1 ≤ i.toNat then some { code := 0x0C, info := i }
      else if base.toNat % 8 = 0 then none
      else match s.strangeDoor (s.agentOf iss.team L) .read ((base.toNat + 8 * i.toNat) % 2 ^ 64) with
        | .ok none => some { code := 0x06, addr := base }
        | _ => none))


/-- 08 R207: EXIT ends the Active lanes and clears them in every mask; then the masks that changed, the barriers and deadlock
are checked. A walk of the team ends with its last lane (15 R347). -/
def Obligations.ExitEndsLanes : Prop :=
  ∀ s iss, Issued s iss .exit → actives s iss ≠ [] →
    let T := s.team iss.team
    let last := (List.range 64).all fun L => (T.lane L).isExited || decide (Act s iss L)
    let changed := (List.range 12).filter fun n => (List.range 64).any fun L => kbit s iss n L && decide (Act s iss L)
    ∃ t, exec .exit s = .next (((t.checkMasks iss.team changed).checkBars T.block).checkDead iss.team) ∧
      t = (if last then s.dropWalk iss.team else s).setTeam iss.team (t.team iss.team) ∧
      (∀ L, (t.team iss.team).lane L =
        if Act s iss L then { T.lane L with st := .exited, watch := .none, trap := false, pend := true }
        else if L < 64 ∧ L ∈ iss.group then goneOn iss (T.lane L) else T.lane L) ∧
      (∀ n L, n < 12 → L < 64 →
        ((t.team iss.team).kreg n).getLsbD L = (kbit s iss n L && !decide (Act s iss L))) ∧
      ∀ L n, (t.team iss.team).vreg L n = T.vreg L n

/-- 17 R386: TRAP raises the fault with its code in every Active lane.
17 R387: TRET returns every Active lane in trap mode to TPC at user level, where TSTATUS has its reserved bits 0; a lane
outside trap mode faults TRETCTX (one Active lane). -/
def Obligations.TrapAndReturn : Prop :=
  (
    ∀ o s iss, Issued s iss (.trap o) → actives s iss ≠ [] →
      FaultsWith (.trap o) s iss ((actives s iss).map fun L => (L, { code := o.d.toNat }))) ∧
  (
    (∀ s iss, Issued s iss .tret →
      (∀ L, Act s iss L → ((s.team iss.team).lane L).trap = true ∧
        ((s.team iss.team).lane L).tstatus.extractLsb' 20 12 = 0) →
      ∃ t, exec .tret s = .next t ∧ TeamFrame s t iss id (fun L l =>
        if Act s iss L then { l with trap := false, pc := l.tpc, pend := true, arrival := .newLine } else goneOn iss l)) ∧
    (∀ s iss L, Issued s iss .tret → actives s iss = [L] → ((s.team iss.team).lane L).trap = false →
      FaultsWith .tret s iss [(L, { code := 0x15 })]))

/-- 17 R384: a lane at user level that faults, on a node with a trap table whose entry can be read at once and is a PC, has its PC,
next PC, address, cause, sub-code, code and information saved, enters trap mode with predicate 1, and stands at the
handler; its registers, the masks and every other lane are as before. -/
def Obligations.FaultEntersHandler : Prop :=
  ∀ (s : State) (tn L : Nat) (e : FaultInfo) (pc next : Dbl) (p : Nat),
    let T := s.team tn
    let l := T.lane L
    let l' : Lane := { l with
      tpc := pc, tnext := next, taddr := e.addr, tinfo := e.info,
      tstatus := .ofNat 32 (e.cause % 16 * 2 ^ 16 + e.subcode % 256 * 2 ^ 8 + e.code % 256),
      trap := true, pend := true, st := .ready }
    let u := s.setTeam tn (T.setLane L l')
    let tab := (s.nodeOf T.block).traptab.toNat
    l.st ≠ .exited → l.trap = false → tab ≠ 0 → u.checkThread tn L .read (tab + 8 * e.code) 8 8 = .ok (.hbm p) →
    u.readReady tn L (.hbm p) 8 = true →
    let h := (u.readNow tn L (.hbm p) 8).2
    h ≠ 0 → h < 2 ^ 56 → h % 4 = 0 →
    let r := (u.readNow tn L (.hbm p) 8).1
    let t := s.takeFault tn L e pc next
    t = r.setTeam tn (t.team tn) ∧
    (∀ M, M ≠ L → (t.team tn).lane M = (r.team tn).lane M) ∧
    (t.team tn).lane L =
      { l' with pc := .ofNat 64 h, arrival := .transfer pc, watch := ((t.team tn).lane L).watch } ∧
    (∀ M n, (t.team tn).vreg M n = (r.team tn).vreg M n) ∧ ∀ n, (t.team tn).kreg n = (r.team tn).kreg n

/-- 17 R381, R389 to R391: a fault in trap mode stops the block with reason DOUBLE, and a fault at user level without a trap
table runs the default handler, which for every code but ATOMEMU and LOGFULL stops it with reason DEFAULT: every lane of
every team of the block is EXITED and the block waits for its retirement. -/
def Obligations.UnhandledFaultStopsBlock : Prop :=
  ∀ (s : State) (tn L : Nat) (e : FaultInfo) (pc next : Dbl),
    let b := (s.team tn).block
    (s.block b).place = .running → ((s.team tn).lane L).st ≠ .exited → tn ∈ (s.block b).teams → (s.block b).teams.Nodup →
    (((s.team tn).lane L).trap = true ∨ ((s.nodeOf b).traptab = 0 ∧ e.code ≠ 0x11 ∧ e.code ≠ 0x14)) →
    let t := s.takeFault tn L e pc next
    (t.block b).place = .retired ∧
    (t.block b).stop = (if ((s.team tn).lane L).trap then 2 else 1) ∧
    (t.run (s.block b).run).stopped = true ∧
    ∀ k ∈ (s.block b).teams, ∀ M, ((t.team k).lane M).st = .exited


/-- 06 R165, rows 6 to 10: where the one lane of the group with predicate 1 is stopped by a row, the lane takes that row's fault
and nothing else of the instruction happens; then the checks run that follow the instruction. So for every instruction of
the main set but EXIT and LIVE; PRED leaves the other lanes' predicates 0.
06 R165: the order of rows 6 to 10 and the fault of each. A form that breaks a field rule faults ILLEGAL with its first
word; a feature that FEATREQ lacks faults FEATURE with its bit; a system register of supervisor level faults PRIV at user
level; a register or an accumulator beyond the allotment faults REGBOUND, a mask or barrier beyond its count BARBOUND; otherwise the lane
passes, but for an indirect pair of odd index, which faults ALIGN. That such a pair which also lies beyond the allotment faults REGBOUND
is the model's choice (log 41, DESIGN CHOICE). The first part says nothing of EXIT and LIVE, nor of a group in which more than one lane
has predicate 1. -/
def Obligations.RowsStopLanes : Prop :=
  (
    let stopped (i : Instr) (base : State → Issue → State) (lane : Issue → Lane → Lane)
        (after : State → Issue → State → State → Prop) : Prop := ∀ s iss L e, s.cur = some iss → actives s iss = [L] →
      rowFault s (s.team iss.team) (nodeAt s iss) i.wf i.form iss.word L = some e →
      ∃ f, (∀ t, after s iss t (f t)) ∧ Does i s iss (base s iss) [(L, e)] id (fun _ l => lane iss l) (fun _ => True) f
    let stops (i : Instr) : Prop := ∀ s iss L e, s.cur = some iss → actives s iss = [L] →
      rowFault s (s.team iss.team) (nodeAt s iss) i.wf i.form iss.word L = some e → FaultsWith i s iss [(L, e)]
    let checksMask (i : Instr) (d : Nat) : Prop := stopped i (fun s _ => s) goneOn fun _ iss t u => u = t.checkMask iss.team d
    let checksDead (i : Instr) : Prop := stopped i (fun s _ => s) goneOn fun _ iss t u => u = t ∨ u = t.checkDead iss.team
    let meets (i : Instr) (d : Nat) : Prop :=
      stopped i (fun s _ => s) goneOn fun _ iss t u => u = (t.checkMask iss.team d).checkDead iss.team
    let tagged (i : Instr) : Prop :=
      stopped i (fun s iss => let n := (s.team iss.team).core; s.setCore n (s.core n)) goneOn fun _ _ t u => u = t
    let predicates (i : Instr) : Prop :=
      stopped i (fun s _ => s) (fun iss l => { goneOn iss l with pend := false }) fun _ _ t u => u = t
    (∀ c ∈ ([.addS32, .addN32, .subS32, .subN32, .mul, .mulhiS32, .mulhiN32, .mad, .divS32, .divN32, .remS32, .remN32,
      .minS32, .minN32, .maxS32, .maxN32, .andV, .orV, .xorV, .andn, .shl, .shr, .sar, .rot, .bfxS32, .bfxN32, .bfi,
      .sel, .addS64, .addN64, .subS64, .subN64, .mulB64, .adda, .shla, .divS64, .divN64, .remS64, .remN64, .minS64,
      .minN64, .maxS64, .maxN64, .addi, .andi, .ori, .xori, .shli, .shri, .sari, .addai, .movi, .shflIdx, .shflUp,
      .shflDown, .shflXor, .bcast, .voteAny, .voteAll, .voteBal, .matchLanes, .redstep, .scanstep, .cvt, .bra, .brnz,
      .brz, .brk, .call, .jmp, .callr, .jtab, .cpy, .updAdd, .updMin, .updMax, .updclr, .zscan, .mxmF8, .mxmS2p8,
      .mxmH16, .mxmW, .mxzero, .mxrd, .mxst, .mxskip, .nmv, .walkStart, .walkQuery, .emit, .emitReg, .emitSelf,
      .emitRemote] : List (L64 → Instr)), ∀ o, stops (c o)) ∧
    (∀ c ∈ ([.addS32X96, .addN32X96, .subS32X96, .subN32X96, .mulX96, .mulhiS32X96, .mulhiN32X96, .madX96, .divS32X96,
      .divN32X96, .remS32X96, .remN32X96, .minS32X96, .minN32X96, .maxS32X96, .maxN32X96, .andX96, .orX96, .xorX96,
      .andnX96, .shlX96, .shrX96, .sarX96, .rotX96, .bfxS32X96, .bfxN32X96, .bfiX96, .selX96, .addS64X96, .addN64X96,
      .subS64X96, .subN64X96, .mulB64X96, .addaX96, .shlaX96, .divS64X96, .divN64X96, .remS64X96, .remN64X96,
      .minS64X96, .minN64X96, .maxS64X96, .maxN64X96, .lit, .litB64, .braLong, .brnzLong, .brzLong, .brkLong,
      .callLong, .phint, .cpy2d] : List (X96 → Instr)), ∀ o, stops (c o)) ∧
    (∀ c ∈ ([.ret, .trap, .waitw, .waitb, .sread, .swrite, .wget, .wset, .xset, .xget, .mov, .movB64, .notV, .negS32,
      .absS32, .popc, .clz, .ctz, .brev, .kmov, .knot, .kand, .kor, .kxor, .kandn, .kact, .kpop, .kget] : List (S32 →
      Instr)), ∀ o, stops (c o)) ∧
    (∀ c ∈ ([.ld, .st, .tld, .watch, .atomAdd, .atomFadd, .atomMin, .atomMax, .atomAnd, .atomOr, .atomXor, .atomXchg,
      .atomCas] : List (M64 → Instr)), ∀ o, stops (c o)) ∧
    (∀ f, ∀ c ∈ ([.fabs, .fneg, .fclass, .frcp, .fsqrt, .frsq, .fexp2, .flog2, .fsin, .fcos, .ftanh] : List (FFmt →
      S32 → Instr)), ∀ o, stops (c f o)) ∧
    (∀ f, ∀ c ∈ ([.fadd, .fsub, .fmul, .ffma, .fmin, .fmax] : List (FFmt → L64 → Instr)), ∀ o, stops (c f o)) ∧
    (∀ f, ∀ c ∈ ([.faddX96, .fsubX96, .fmulX96, .ffmaX96, .fminX96, .fmaxX96] : List (FFmt → X96 → Instr)), ∀ o, stops
      (c f o)) ∧
    (∀ i ∈ ([.nop, .tret, .fenceAcq, .fenceRel, .fenceSc, .fenceTbl, .updflush, .cancelRun, .cancelPhase, .cancelJob,
      .walkStop] : List Instr), stops i) ∧
    (∀ o, (∀ c ∈ ([.cmpN32, .cmpN64, .cmpS32, .cmpS64, .cmpiN32, .cmpiS32] : List (L64 → Instr)), checksMask (c o)
      o.d.toNat)) ∧
    (∀ o, (∀ c ∈ ([.cmpN32X96, .cmpN64X96, .cmpS32X96, .cmpS64X96] : List (X96 → Instr)), checksMask (c o)
      o.lo.d.toNat)) ∧
    (∀ o, (∀ c ∈ ([.enrol, .leave, .kset] : List (S32 → Instr)), checksMask (c o) o.d.toNat)) ∧
    (∀ f o, checksMask (.fcmp f o) o.d.toNat) ∧ (∀ f o, checksMask (.fcmpX96 f o) o.lo.d.toNat) ∧
    (∀ o, (∀ c ∈ ([.bar, .barArv, .barWait, .drain] : List (S32 → Instr)), checksDead (c o))) ∧
    (∀ o, checksDead (.waitc o)) ∧ (∀ o, meets (.join o) o.d.toNat) ∧ (∀ o, meets (.waitk o) o.d.toNat) ∧
    (∀ o, stopped (.strike o) (fun s _ => s) goneOn fun _ iss t u =>
      u = t.checkMasks iss.team ((List.range 12).filter fun n => o.d.toNat ≤ n)) ∧
    (∀ o, (∀ c ∈ ([.twaitAny, .twaitAll, .tfind] : List (S32 → Instr)), tagged (c o))) ∧
    (∀ o, predicates (.pred o)) ∧ ∀ o, predicates (.predNot o)) ∧
  (
    ∀ (s : State) (t : Team) (nd : Node) (f : Form) (w : Word) (L : Nat),
      rowFault s t nd false f w L = some { code := 0x01, info := w } ∧
      (∀ b, b ∈ f.feats → nd.featreq.getLsbD b = false → (∀ c ∈ f.feats, nd.featreq.getLsbD c = false → b ≤ c) →
        rowFault s t nd true f w L = some { code := 0x02, info := .ofNat 32 b }) ∧
      ((∀ c ∈ f.feats, nd.featreq.getLsbD c = true) →
        (∀ n, privNumber f = some n → (t.lane L).trap = false →
          rowFault s t nd true f w L = some { code := 0x17, info := .ofNat 32 n }) ∧
        ((privNumber f = none ∨ (t.lane L).trap = true) →
          (∀ n, regBeyond t L f nd.regs = some n →
            rowFault s t nd true f w L = some { code := 0x03, info := .ofInt 32 n }) ∧
          (regBeyond t L f nd.regs = none → ∀ n, kindBeyond f .acc nd.accs = some n →
            rowFault s t nd true f w L = some { code := 0x03, info := .ofInt 32 n }) ∧
          (regBeyond t L f nd.regs = none → kindBeyond f .acc nd.accs = none →
            (∀ n, kindBeyond f .k nd.masks = some n →
              rowFault s t nd true f w L = some { code := 0x04, info := .ofInt 32 n }) ∧
            (kindBeyond f .k nd.masks = none →
              (∀ n, kindBeyond f .bar nd.bars = some n →
                rowFault s t nd true f w L = some { code := 0x04, info := .ofInt 32 n }) ∧
              (kindBeyond f .bar nd.bars = none →
                (oddPair t L f = false → rowFault s t nd true f w L = none) ∧
                (oddPair t L f = true → ∃ e, rowFault s t nd true f w L = some e ∧ e.code = 0x06)))))))


/-- 05 R138: LIVE zeroes, in the Active lanes, the register groups below REGS whose bit of the literal is 0, when no result
is outstanding in them, and nothing else.
17 R399, R400: without a pending pre-emption request PHINT does nothing but go on; with one, and with every live lane of
the team in the group, at user level, and nothing to wait for, the team is saved after it, and at a cut whole (17 R402, R406). -/
def Obligations.LiveAndPhint : Prop :=
  (
    ∀ o s iss, Issued s iss (.live o) →
      let dead (n : Nat) : Prop := n / 16 < (nodeAt s iss).regs / 16 ∧ o.lit.getLsbD (n / 16) = false
      (∀ L g, Act s iss L → g < 32 → dead (16 * g) → s.groupBusy iss.team L g = false) →
      ∃ t, exec (.live o) s = .next t ∧
        (let c := (s.team iss.team).core
         { t.core c with rcache := [] } = { s.core c with rcache := [] } ∧
         TeamFrame (s.setCore c (t.core c)) t iss (fun u => { u with v := [], nonzero := [] }) (fun _ => goneOn iss)) ∧
        (∀ L n, L < 64 → n < 512 → (t.team iss.team).vreg L n =
          if Act s iss L ∧ n / 16 < (nodeAt s iss).regs / 16 ∧ o.lit.getLsbD (n / 16) = false then 0
          else (s.team iss.team).vreg L n)) ∧
  (
    ∀ o s iss, Issued s iss (.phint o) →
      let b := (s.team iss.team).block
      ((s.block b).preempt = false → ∃ t, exec (.phint o) s = .next t ∧ TeamFrame s t iss id (fun _ => goneOn iss)) ∧
      ((s.block b).preempt = true → actives s iss ≠ [] → s.saveReady iss.team = true →
        (∀ L, L < 64 → ((s.team iss.team).lane L).st ≠ .exited → L ∈ iss.group ∧ ((s.team iss.team).lane L).trap = false) →
        ∃ u t, exec (.phint o) s = .next t ∧ TeamFrame s u iss id (fun _ => goneOn iss) ∧
          t = (if (s.func (s.block b).func).cut then u.fullSaveTeam iss.team 2
            else u.phintSave iss.team o.lit [(o.lo.d.toNat, o.lo.a.toNat), (o.lo.b.toNat, o.lo.c.toNat)]
              (o.lo.imm.getLsbD 0)) ∧
          (t.team iss.team).saved = true ∧ (t.team iss.team).resident = false))


namespace Sys2Proof.Claims
open Sys2Proof Sys2Proof.Machine

/-- Every lane of the group goes on to the next PC, from `u`. -/
def GoesOn (i : Instr) (s : State) (iss : Issue) (u : State) : Prop :=
  Does i s iss u [] id (fun _ l => goneOn iss l) (fun _ => True) id

/-- `i` cannot issue: nothing changes, and there is no issue any more (05 R127). -/
def CannotIssue (i : Instr) (s : State) : Prop := exec i s = .next { s with cur := none }

/-- A lane of the group waits. -/
def waitsFor (w : Wait) (l : Lane) : Lane := { l with pend := true, st := .waiting w }

/-- Vector registers may differ. -/
def exceptRegs (T : Team) : Team := { T with v := [], nonzero := [] }

/-- In the issuing team of `t` every register but those of `dest` is as in `s`. -/
def RegsKept (s t : State) (iss : Issue) (dest : Nat → Nat → Prop) : Prop :=
  ∀ L n, L < 64 → n < 512 → ¬ dest L n → (t.team iss.team).vreg L n = (s.team iss.team).vreg L n

/-- Effective address of an M64 access of lane `L` (10 R239). -/
def laneAddr (s : State) (iss : Issue) (o : M64) (L : Nat) : Nat :=
  ((s.team iss.team).vpair L o.base.toNat + o.off.signExtend 64).toNat

/-- The accesses of a lane (10 R242, R243): target, address, size, first result register, number of result registers and
data. A 16-byte access to host or remote memory is two accesses of 8 bytes, unless it is an atomic. -/
def laneAccesses (T : Team) (o : M64) (m : MemOp) (tgt : Target) (a L : Nat) :
    List (Target × Nat × Nat × Nat × Nat × Nat) :=
  let n := 2 ^ o.wid.toNat
  let d := o.d.toNat
  let results := if m = .store then 0 else (n + 3) / 4
  let v := if m = .load ∨ m = .tload ∨ m = .watch then 0 else T.vregs L d ((n + 3) / 4) % 2 ^ (8 * n)
  let half := if m = .store then 0 else 2
  match m, tgt, n with
  | .atomic _, _, _ => [(tgt, a, n, d, results, v)]
  | _, .host p, 16 => [(.host p, a, 8, d, half, v % 2 ^ 64), (.host (p + 8), a + 8, 8, d + 2, half, v / 2 ^ 64)]
  | _, .remote g p, 16 =>
    [(.remote g p, a, 8, d, half, v % 2 ^ 64), (.remote g (p + 8), a + 8, 8, d + 2, half, v / 2 ^ 64)]
  | _, _, _ => [(tgt, a, n, d, results, v)]

/-- The accesses of the instruction in flight, as `laneAccesses` says, for each Active lane in ascending order. -/
def AccessesOf (s : State) (iss : Issue) (o : M64) (m : MemOp) (tgt : Nat → Target) (accs : List Access) : Prop :=
  let T := s.team iss.team
  accs.map (·.id) = List.range' (s.fresh + 1) accs.length ∧
  (∀ x ∈ accs, Act s iss x.lane ∧ x.team = iss.team ∧ x.block = T.block ∧ x.core = T.core ∧ x.ins = s.fresh ∧
    x.func = (s.block T.block).func ∧ x.kind = m.acc ∧ x.ord = o.ord.toNat ∧ x.sx = (o.sx == 1) ∧ x.stage = .issued ∧
    x.floored = false ∧ x.supervisor = (T.lane x.lane).trap ∧ x.nol1 = (o.cache == 1 || o.cache == 3) ∧
    x.ts = (if m.kind = .write ∧ o.ord.toNat ≠ 3 then (T.lane x.lane).rel else 0) ∧
    x.knows = (let l := T.lane x.lane
      if m.kind = .write ∧ 2 ≤ o.ord.toNat then l.know.join (s.covers iss.team) else l.know) ∧ x.missed = s.tableMisses x ∧
    x.carries = (if m.kind ≠ .write then [] else if 2 ≤ o.ord.toNat then s.covers iss.team else (T.lane x.lane).fenced) ∧
    x.data2 = (let k := (2 ^ o.wid.toNat + 3) / 4
      if m = .atomic 8 then BitVec.ofNat 128 (T.vregs x.lane (o.d.toNat + k) k) else 0)) ∧
  ∀ L, Act s iss L → ((accs.filter (·.lane == L)).map fun x =>
      (x.target, x.va, x.size, x.dest, x.ndest, x.data)) =
    (laneAccesses T o m (tgt L) (laneAddr s iss o L) L).map fun y =>
      (y.1, BitVec.ofNat 64 y.2.1, y.2.2.1, y.2.2.2.1, y.2.2.2.2.1, BitVec.ofNat 128 y.2.2.2.2.2)

end Sys2Proof.Claims

/-! ### Memory instructions (10) -/

/-- 10 R239 to R245, R257, 11 R276: a load, table read, watch, store or atomic whose Active lanes all pass their checks puts
each lane's access in flight, counts one instruction in LDC, or in STC for a store, and goes on; SC operations that are due
take their timestamps (11 R285). Premises: the logs have room and a version's budget holds the writes (18 R415, 17 R396), the
memory performs the atomic itself (10 R259), the counter is below 255, and the core has room for the requests (01 R22). What a
version's accesses carry and know, and what its lanes know after a release, is the model's (log 122), and so are the clock that a
write after a release fence takes with it (log 15), how the core's requests are counted (log 142) and which table reads have a fill of
their own (log 143). -/
def Obligations.AccessesAreIssued : Prop :=
  let issues (ins : M64 → Instr) (m : MemOp) : Prop := ∀ o s iss (tgt : Nat → Target),
    let T := s.team iss.team
    let c := seen s iss (ins o)
    let ls := (actives s iss).map fun L => (L, laneAddr s iss o L, tgt L)
    Issued s iss (ins o) → actives s iss ≠ [] →
    (∀ L, Act s iss L → s.checkMem c L (laneAddr s iss o L) (2 ^ o.wid.toNat) m = .ok (tgt L)) →
    s.logFaults c (s.laneLogs c (2 ^ o.wid.toNat) m o.ord.toNat ls) = [] →
    (m.kind = .write → s.overLanes T.block c.node ls (s.pendingLines T.block) = []) →
    (∀ op, m = .atomic op → ∀ L, Act s iss L → atomNative (tgt L) op o.wid.toNat = true) →
    (if m = MemOp.store then T.stc else T.ldc) ≠ 255 →
    let counted := s.setTeam iss.team (if m = MemOp.store then { T with stc := T.stc + 1 } else { T with ldc := T.ldc + 1 })
    let u := if m.kind = .write ∧ 2 ≤ o.ord.toNat then counted.releasePoint iss.team (actives s iss) else counted
    let requests := (actives s iss).flatMap fun L =>
      (laneAccesses T o m (tgt L) (laneAddr s iss o L) L).map fun y => (s.fresh, y.1.sector)
    s.requestRoom T.core requests = true →
    ∃ accs, AccessesOf s iss o m tgt accs ∧
      GoesOn (ins o) s iss ({ u with accesses := s.accesses ++ accs, fresh := s.fresh + 1 + accs.length }).stampAll
  issues .ld .load ∧ issues .st .store ∧ issues .tld .tload ∧ issues .watch .watch ∧
  issues .atomAdd (.atomic 0) ∧ issues .atomFadd (.atomic 1) ∧ issues .atomMin (.atomic 2) ∧ issues .atomMax (.atomic 3) ∧
  issues .atomAnd (.atomic 4) ∧ issues .atomOr (.atomic 5) ∧ issues .atomXor (.atomic 6) ∧ issues .atomXchg (.atomic 7) ∧
  issues .atomCas (.atomic 8)

/-- 10 R239: where every Active lane of a memory instruction, of each load, store, table read, watch and atomic form, fails its
checks, each takes its own fault and no access is made. -/
def Obligations.AccessFaultsAreTaken : Prop :=
  ∀ p ∈ ([(Instr.ld, MemOp.load), (.st, .store), (.tld, .tload), (.watch, .watch),
      (.atomAdd, .atomic 0), (.atomFadd, .atomic 1), (.atomMin, .atomic 2), (.atomMax, .atomic 3), (.atomAnd, .atomic 4),
      (.atomOr, .atomic 5), (.atomXor, .atomic 6), (.atomXchg, .atomic 7), (.atomCas, .atomic 8)] :
      List ((M64 → Instr) × MemOp)),
    ∀ o s iss (e : Nat → FaultInfo), Issued s iss (p.1 o) → actives s iss ≠ [] →
      (∀ L, Act s iss L → (e L).code ≠ 0 ∧
        s.checkMem (seen s iss (p.1 o)) L (laneAddr s iss o L) (2 ^ o.wid.toNat) p.2 = .error (e L)) →
      FaultsWith (p.1 o) s iss ((actives s iss).map fun L => (L, e L))

/-- 09 R218 to R222: which fault an access of `n` bytes at `a` takes, by its window, its bounds, its alignment and, in the
vault window, its lowest byte outside the block's part; and where such an access stands. A misaligned access to a doorbell page
that is no queue's of the function takes no fault (03 R62), and one whose page walk is referred waits (R237).
09 R231: which PAGEPERM cause a leaf entry gives an access: 7 for a fetch without X or outside HBM, then 6 for a write
to a page with RO, then 5 for a write without W, then 8 for a user access without U. -/
def Obligations.AddressAndPageChecks : Prop :=
  (
    ∀ (s : State) (ag : Agent) (kind : AccessKind) (a n align : Nat), 0 < n → 0 < align → a < 2 ^ 64 →
      (3 * 2 ^ 56 ≤ a → s.checkAccess ag kind a n align = .error { code := 0x08, addr := .ofNat 64 a }) ∧
      (a < 3 * 2 ^ 56 → a / 2 ^ 56 ≠ (a + n - 1) / 2 ^ 56 →
        s.checkAccess ag kind a n align = .error { code := 0x07, addr := .ofNat 64 a }) ∧
      (a < 3 * 2 ^ 56 → a / 2 ^ 56 = (a + n - 1) / 2 ^ 56 → a % align ≠ 0 →
        (∀ o, s.resolve ag kind a 1 ≠ .ok (.door o)) → (∀ e, s.resolve ag kind a 1 = .error e → e.code ≠ 0) →
        s.checkAccess ag kind a n align = .error { code := 0x06, addr := .ofNat 64 a }) ∧
      (a < 3 * 2 ^ 56 → a / 2 ^ 56 = (a + n - 1) / 2 ^ 56 → a % align ≠ 0 → ∀ o, s.resolve ag kind a 1 = .ok (.door o) →
        s.checkAccess ag kind a n align =
          if kind = .fetch ∨ s.doorOwned ag.func o = true then .error { code := 0x06, addr := .ofNat 64 a }
          else .ok (.door o)) ∧
      (a / 2 ^ 56 = 1 → (a + n - 1) / 2 ^ 56 = 1 → a % align = 0 → kind ≠ .fetch → ag.sup = false →
        (∀ b, a ≤ b → b < a + n → natBits b 55 32 = 0 ∧ natBits b 31 24 < 160 ∧ natBits b 23 0 < 0x400000 ∧
          ag.vbase ≤ b ∧ b < ag.vbase + ag.vaultb) →
        s.checkAccess ag kind a n align = .ok (.vault (natBits a 31 24) (natBits a 23 0))) ∧
      (a / 2 ^ 56 = 1 → (a + n - 1) / 2 ^ 56 = 1 → a % align = 0 → kind ≠ .fetch → ag.sup = false →
        (a < ag.vbase ∨ ag.vbase + ag.vaultb ≤ a) →
        s.checkAccess ag kind a n align = .error { code := 0x05, addr := .ofNat 64 a })) ∧
  (
    ∀ (e : Nat) (kind : AccessKind) (user door : Bool),
      leafPermits e kind user door =
        if kind = .fetch ∧ (e.testBit 2 = false ∨ natBits e 9 8 ≠ 0 ∨ door = true) then some 7
        else if kind = .write ∧ e.testBit 4 = true then some 6
        else if kind = .write ∧ e.testBit 1 = false then some 5
        else if user = true ∧ e.testBit 3 = false then some 8
        else none)


/-- 10 R246: WAITC lets every lane go on where the four counters are at or below the limits of LIT32; otherwise the Active
lanes wait for that, and deadlock is examined. 10 R274: WAITW waits on an armed watch; a lane whose watch has triggered
reads status 0, one without a watch status 2, and its watch is unarmed. It cannot issue while a WATCH of an Active lane is
not performed, which is the model's choice (log 128). -/
def Obligations.WaitsForCountersAndWatches : Prop :=
  (∀ o s iss, Issued s iss (.waitc o) →
    let T := s.team iss.team
    let lim (i : Nat) : Nat := o.lit.toNat / 2 ^ (8 * i) % 256
    let ok := T.ldc ≤ lim 0 ∧ T.stc ≤ lim 1 ∧ T.cpc ≤ lim 2 ∧ T.tlc ≤ lim 3
    (ok → GoesOn (.waitc o) s iss s) ∧
    (¬ ok → Does (.waitc o) s iss s [] id
      (fun L l => if Act s iss L then waitsFor (.counters (lim 0) (lim 1) (lim 2) (lim 3)) l else goneOn iss l)
      (fun _ => True) fun t => t.checkDead iss.team)) ∧
  ∀ o s iss, Issued s iss (.waitw o) →
    let d := o.d.toNat
    let w (L : Nat) : Watch := ((s.team iss.team).lane L).watch
    let armed (L : Nat) : Bool := match w L with | .armed _ => true | _ => false
    let due := ∃ x ∈ s.accesses, x.team = iss.team ∧ Act s iss x.lane ∧ x.stage = .issued ∧ x.kind = .watch
    (due → CannotIssue (.waitw o) s) ∧
    (¬ due → Does (.waitw o) s iss s [] exceptRegs
      (fun L l => if Act s iss L then (if armed L then waitsFor (.watch d) l else goneOn iss { l with watch := .none })
        else goneOn iss l)
      (fun t => (∀ L, Act s iss L → armed L = false →
          (t.team iss.team).vreg L d = if w L = .triggered then 0 else 2) ∧
        RegsKept s t iss fun L n => Act s iss L ∧ armed L = false ∧ n = d) id)

/-- 10 R247, R256, 11 R280, R281: with no read of the issuing lanes outstanding FENCE.ACQ discards from the core's L1 every word
the core does not own, and FENCE.TBL, with none of their writes outstanding either, also every line of the cluster's table
cache; FENCE.REL gives the Active lanes the core's clock and, while the team has unacknowledged writes or reads not yet
performed (but table reads), holds its path; with a read outstanding FENCE.ACQ and FENCE.TBL cannot issue, nor FENCE.TBL with a
write. With no Active lane a fence only goes on. In a version the lanes also keep what happens-before them (log 122). 10 R247,
11 R285: FENCE.SC, with no read of the issuing lanes outstanding and room in the log, starts an SC operation, which takes its
timestamp as soon as the team's earlier writes are acknowledged, and holds the path until the operation has taken step 4. 10
R267: UPDFLUSH counts one in STC and notes which pairs it waits for. Rests on the model's choices of log 38, of log 125 (that a
release also waits for the team's unperformed reads) and of log 15 (the clock that FENCE.REL keeps). -/
def Obligations.FencesAndFlushes : Prop :=
  (
    (∀ i ∈ [Instr.fenceAcq, .fenceRel, .fenceTbl, .fenceSc, .updflush], ∀ s iss, Issued s iss i → actives s iss = [] →
      GoesOn i s iss s) ∧
    (∀ i ∈ [Instr.fenceAcq, .fenceTbl], ∀ s iss, Issued s iss i → actives s iss ≠ [] →
      let due := (∃ x ∈ s.accesses, x.team = iss.team ∧ Act s iss x.lane ∧ x.stage = .issued ∧
          (x.kind ≠ .store ∨ i = .fenceTbl)) ∨
        (i = .fenceTbl ∧ ∃ p ∈ s.pairs, p.team = iss.team ∧ Act s iss p.lane ∧ p.accepted = false)
      let core := (s.team iss.team).core
      let clean : State :=
        ({ s with l1 := s.l1.filter fun e => e.core != core || e.owned } : State).learnHeard iss.team (actives s iss)
      (due → CannotIssue i s) ∧
      (¬ due → GoesOn i s iss (if i = .fenceAcq then clean else
        { clean with tlines := s.tlines.filter fun l => l.cluster != clusterOfCore core }))) ∧
    ∀ s iss, Issued s iss .fenceRel → actives s iss ≠ [] →
      let ids := s.unacked iss.team
      let clock := s.coreClock (s.team iss.team).core
      Does .fenceRel s iss s [] id (fun L l =>
        { goneOn iss (if Act s iss L then
              { l with rel := clock, fenced := s.covers iss.team, know := l.know.join (s.covers iss.team) } else l) with
          hold := if ids = [] then .none else .acks ids })
        (fun _ => True) id) ∧
  (
    let started (s : State) (iss : Issue) (kind : EngineKind) (L : Nat) : Engine :=
      { id := s.fresh, ins := s.fresh, kind := kind, team := iss.team, block := (s.team iss.team).block,
        core := (s.team iss.team).core, func := (s.block (s.team iss.team).block).func, lane := L, lanes := actives s iss,
        supervisor := false, aborted := false }
    (∀ s iss L r, Issued s iss .fenceSc → actives s iss = L :: r →
      (∀ M, Act s iss M → s.logNeed iss.team M (dieOfCore (s.team iss.team).core) .order 1 = none) →
      (¬ ∃ x ∈ s.accesses, x.team = iss.team ∧ Act s iss x.lane ∧ x.stage = .issued ∧ x.kind ≠ .store) →
      Does .fenceSc s iss ({ s with engines := s.engines ++ [started s iss (.fenceSc 0) L], fresh := s.fresh + 1 }).stampAll []
        id (fun _ l => { goneOn iss l with hold := .sc s.fresh }) (fun _ => True) id) ∧
    ∀ s iss L r, Issued s iss .updflush → actives s iss = L :: r → (s.team iss.team).stc ≠ 255 →
      let u : State := { s with engines := s.engines ++ [started s iss (.updflush s.fresh) L], fresh := s.fresh + 1 }
      GoesOn .updflush s iss (u.setTeam iss.team { s.team iss.team with stc := (s.team iss.team).stc + 1 }))



/-! ### Masks, barriers, tags and troughs (08, 10, 14, 16) -/

/-- 08 R213: the release check of mask `n`, outside deterministic mode. If every lane with its bit set is at the mask, every lane
at the mask is released, else those whose bit is clear; a released lane goes to the next PC with its predicate, READY, and a JOIN
waiter's bit becomes 0. Nothing else in the team changes but the service list; the release discards the words the core's L1 does
not own (11 R280). Until the writes that the released lanes' arrivals cover are acknowledged these lanes do not issue (`due`: log
141, DEDUCED). In a version the lanes released learn what the arrivals carry (log 122). -/
def Obligations.MaskRelease : Prop :=
  ∀ (s : State) (tn n : Nat), n < 12 →
    let T := s.team tn
    let k := T.kreg n
    let joins (L : Nat) : Prop := ∃ a, (T.lane L).st = .waiting (.join n a)
    let waits (L : Nat) : Prop := L < 64 ∧ (joins L ∨ ∃ a, (T.lane L).st = .waiting (.waitk n a))
    let all := ∀ L, L < 64 → k.getLsbD L = true → waits L
    let freed (L : Nat) : Prop := waits L ∧ (all ∨ k.getLsbD L = false)
    s.det T.block = false →
    let t := s.checkMask tn n
    ((∀ L, ¬ freed L) → t = s) ∧
    ((∃ L, freed L) →
      let u : State := { s with l1 := s.l1.filter fun e => e.core != T.core || e.owned }
      let clock := (T.maskFrees n).foldl (fun m L => SMap.join m (T.lane L).gave) ([] : SMap Nat)
      let due := s.arrivalsDue T (T.maskFrees n)
      ∃ T' : Team, t = (u.setTeam tn T').learnNow tn (T.maskFrees n) clock ∧ T' = { T with k := T'.k, lanes := T'.lanes, service := T'.service } ∧
      (∀ L, freed L → T'.lane L =
        { (T.lane L).flow (nextPc (T.lane L).pc 1) with
          st := .ready, hold := if due = [] then (T.lane L).hold else .freed due }) ∧
      (∀ L, ¬ freed L → T'.lane L = T.lane L) ∧
      (∀ L, L < 64 → (freed L ∧ joins L → (T'.kreg n).getLsbD L = false) ∧
        (¬ (freed L ∧ joins L) → (T'.kreg n).getLsbD L = k.getLsbD L)) ∧
      ∀ m, m ≠ n → T'.kreg m = T.kreg m)

/-- 16 R366, R371: BAR, BAR.ARV and DRAIN begin an arrival of every Active lane, which waits until it is recorded; the arrival
is a release over the team's unacknowledged writes and its reads not yet performed, but table reads (log 125); BAR.WAIT waits
where the lane has arrived in this phase and otherwise goes on, which is an acquire; then deadlock is examined. In deterministic
mode the log must have room for the entry of the release, one for all arrivals of a phase. Rests on the model's choices of logs 37, 125
and 140, and in a version on those of log 122. -/
def Obligations.BarrierInstructionsWait : Prop :=
  let room (s : State) (iss : Issue) (b : Nat) : Prop :=
    let T := s.team iss.team
    ∀ L, Act s iss L → s.logNeed iss.team L (dieOfCore T.core) .order (if s.barOwes T.block b then 0 else 1) = none
  let arrive (i : Instr) (b : Nat) (w : List Nat → Wait) : Prop := ∀ s iss, Issued s iss i → room s iss b →
    Does i s iss (s.gives iss.team (actives s iss)) [] id
      (fun L l => if Act s iss L then waitsFor (w (s.unacked iss.team)) l else goneOn iss l)
      (fun _ => True) fun t => t.checkDead iss.team
  (∀ o, arrive (.bar o) o.d.toNat fun a => .arrive .bar o.d.toNat a) ∧
  (∀ o, arrive (.barArv o) o.d.toNat fun a => .arrive .arv o.d.toNat a) ∧
  (∀ o, arrive (.drain o) o.d.toNat fun a => .drain o.d.toNat a) ∧
  ∀ o s iss, Issued s iss (.barWait o) →
    let T := s.team iss.team
    let here (L : Nat) : Prop := Act s iss L ∧ (((s.block T.block).bar o.d.toNat).arr.getLsbD (64 * T.index + L)) = true
    let clean : State := ({ s with l1 := s.l1.filter fun e => e.core != T.core || e.owned } : State).learnNow iss.team
      ((actives s iss).filter fun L => !((s.block T.block).bar o.d.toNat).arr.getLsbD (64 * T.index + L))
      ((s.block T.block).bar o.d.toNat).last
    let runs (u : State) : Prop := Does (.barWait o) s iss u [] id
      (fun L l => if ((s.block T.block).bar o.d.toNat).arr.getLsbD (64 * T.index + L) && decide (Act s iss L)
        then waitsFor (.barWait o.d.toNat) l else goneOn iss l) (fun _ => True) fun t => t.checkDead iss.team
    ((∀ L, Act s iss L → here L) → runs s) ∧ ((∃ L, Act s iss L ∧ ¬ here L) → runs clean)

/-- 16 R365, R366, R371: BARRIER_ARRIVAL records the arrival of a waiting lane whose team's earlier writes are acknowledged
and whose bit is clear, for a DRAIN with STC, CPC and EMC at 0: its bit, and no other, is set; a BAR.ARV lane goes on, which is
an acquire, and any other waits for the phase; then the barrier's release and deadlock are checked.
Rests on the model's choices of log 37, and in a version on those of log 122. -/
def Obligations.BarrierArrivalRecords : Prop :=
  ∀ (s : State) (tn L : Nat) (kind : BarKind) (b : Nat) (after : List Nat),
    let T := s.team tn
    let k := s.block T.block
    let th := 64 * T.index + L
    ((T.lane L).st = .waiting (.arrive kind b after) ∨
      (kind = .drain ∧ (T.lane L).st = .waiting (.drain b after) ∧ T.stc = 0 ∧ T.cpc = 0 ∧ T.emc = 0)) →
    s.acked after = true → th < 1024 → (k.bar b).arr.getLsbD th = false → k.place = .running →
    ∃ u, exec (.barrierArrival tn L) s = .next ((u.checkBar T.block b).checkDead tn) ∧
      let clean : State := if kind = .arv then { s with l1 := s.l1.filter fun e => e.core != T.core || e.owned } else s
      u = (clean.setBlock T.block (u.block T.block)).setTeam tn (u.team tn) ∧
      u.block T.block = { k with bars := (u.block T.block).bars } ∧
      (∀ i, i < 1024 → (((u.block T.block).bar b).arr.getLsbD i = true ↔ i = th ∨ (k.bar b).arr.getLsbD i = true)) ∧
      ((u.block T.block).bar b).ph = (k.bar b).ph ∧ ((u.block T.block).bar b).last = (k.bar b).last ∧
      ((u.block T.block).bar b).clock = (k.bar b).clock.join (T.lane L).gave ∧
      (∀ c, c ≠ b → (u.block T.block).bar c = k.bar c) ∧
      u.team tn = { T with lanes := (u.team tn).lanes, service := (u.team tn).service } ∧
      (∀ M, M ≠ L → (u.team tn).lane M = T.lane M) ∧
      (u.team tn).lane L = if kind = .arv then { (T.lane L).flow (nextPc (T.lane L).pc 1) with st := .ready }
        else { T.lane L with st := .waiting (.phase b) }

/-- 16 R367: outside deterministic mode the phase of a barrier completes where some thread has arrived and every live lane
of every team of the block has: the arrival set becomes empty, PH rises by one, the waiting lanes go on, and INSNS of a team
with a waiter becomes 0; otherwise nothing changes. In a version the waiting lanes learn what the arrivals carry (log 122). -/
def Obligations.BarrierRelease : Prop :=
  ∀ (s : State) (b bar : Nat),
    let k := s.block b
    let x := k.bar bar
    let due := x.arr ≠ 0 ∧ ∀ tn ∈ k.teams, ∀ L, L < 64 → ((s.team tn).lane L).st ≠ .exited →
      x.arr.getLsbD (64 * (s.team tn).index + L) = true
    let t := s.checkBar b bar
    s.det b = false → k.teams.Nodup →
    (¬ due → t = s) ∧
    (due →
      t.block b = k.setBar bar { arr := 0, ph := x.ph + 1, last := x.clock } ∧
      t = { s with blocks := t.blocks, teams := t.teams, l1 := s.l1.filter fun e => e.core != k.core || e.owned } ∧
      (∀ c, c ≠ b → t.block c = s.block c) ∧
      (∀ tn, tn ∉ k.teams → t.team tn = s.team tn) ∧
      ∀ tn ∈ k.teams,
        let waits (L : Nat) : Prop := L < 64 ∧
          (((s.team tn).lane L).st = .waiting (.phase bar) ∨ ((s.team tn).lane L).st = .waiting (.barWait bar))
        (∀ L, waits L → (t.team tn).lane L =
          { ((s.team tn).lane L).flow (nextPc ((s.team tn).lane L).pc 1) with
            st := .ready, know := ((s.team tn).lane L).know.join x.clock }) ∧
        (∀ L, ¬ waits L → (t.team tn).lane L = (s.team tn).lane L) ∧
        ((∃ L, waits L) → (t.team tn).insns = 0) ∧
        (∀ L n, (t.team tn).vreg L n = (s.team tn).vreg L n))

/-- 10 R254: TWAIT.ANY and TWAIT.ALL let a lane go on whose condition on TAGS holds, fault it with the error of the lowest
tag of its mask that is set in TAGS where that holds one, and let any other Active lane wait; TFIND writes the number of
the lowest such tag, 64 for none, or faults with its error. Reported errors are cleared. In a version the lanes that go on have
observed the tags (log 122). -/
def Obligations.TagInstructions : Prop :=
  let core (s : State) (iss : Issue) : Core := s.core (s.team iss.team).core
  let low (m : Dbl) : Nat := ((List.range 64).find? fun i => m.getLsbD i).getD 64
  let err (s : State) (iss : Issue) (m : Dbl) : Option TagError :=
    (core s iss).tagErrs.find? fun e => e.tag == low ((core s iss).tags &&& m)
  let fault (e : TagError) : FaultInfo :=
    { code := e.code, cause := e.cause, addr := e.addr, info := BitVec.ofNat 32 e.tag }
  let clear (s : State) (iss : Issue) (es : List TagError) : State := s.setCore (s.team iss.team).core
    { core s iss with tagErrs := (core s iss).tagErrs.filter fun e => es.all fun x => e.tag != x.tag }
  let codes (s : State) (iss : Issue) : Prop := ∀ e ∈ (core s iss).tagErrs, e.code ≠ 0
  let mask (i : Instr) (s : State) (iss : Issue) (L : Nat) : Dbl := op64 s iss i 1 L
  let waits (i : Instr) (all : Bool) : Prop := ∀ s iss, Issued s iss i → codes s iss →
    let tags := (core s iss).tags
    let m := mask i s iss
    let holds (L : Nat) : Bool := if all then tags &&& m L == m L else m L == 0 || tags &&& m L != 0
    let es := ((actives s iss).filter holds).filterMap fun L => (err s iss (m L)).map fun e => (L, e)
    Does i s iss ((clear s iss (es.map (·.2))).observe iss.team ((actives s iss).filter holds) m)
      (es.map fun x => (x.1, fault x.2)) id
      (fun L l => if Act s iss L ∧ holds L = false then waitsFor (.tags all (m L)) l else goneOn iss l) (fun _ => True) id
  (∀ o, waits (.twaitAny o) false) ∧ (∀ o, waits (.twaitAll o) true) ∧
  ∀ o s iss, Issued s iss (.tfind o) → codes s iss →
    let i := Instr.tfind o
    let es := (actives s iss).filterMap fun L => (err s iss (mask i s iss L)).map fun e => (L, e)
    let writes (L : Nat) : Prop := Act s iss L ∧ err s iss (mask i s iss L) = none
    let ok := (actives s iss).filter fun L => (err s iss (mask i s iss L)).isNone
    Does i s iss ((clear s iss (es.map (·.2))).observe iss.team ok (mask i s iss)) (es.map fun x => (x.1, fault x.2)) exceptRegs (fun _ l => goneOn iss l)
      (fun t => (∀ L, writes L → (t.team iss.team).vreg L (destReg s iss i L) =
          BitVec.ofNat 32 (low ((core s iss).tags &&& mask i s iss L))) ∧
        RegsKept s t iss fun L n => writes L ∧ n = destReg s iss i L) id

/-- 14 R343: WAITB of lanes whose barrier addresses pass the checks of a 16-byte read: a lane whose barrier has PEND 0 reads
PHASE, or faults NMVFAULT where the error flag is set; any other waits. A barrier at which a WAITB has completed is marked until
the cycle ends: an NMV that would count itself there waits (14 R345). -/
def Obligations.TroughWaits : Prop :=
  ∀ o s iss (at' : Nat → Nat × Nat), Issued s iss (.waitb o) →
    let i := Instr.waitb o
    let a (L : Nat) : Nat := (op64 s iss i 1 L).toNat
    let fld (L off : Nat) : Nat := s.peek (.vault (at' L).1 ((at' L).2 + off)) 4
    let d := o.d.toNat
    (∀ L, Act s iss L → a L / 2 ^ 56 = 1 ∧ (a L + 15) / 2 ^ 56 = 1 ∧ a L % 16 = 0 ∧
      s.checkThread iss.team L .read (a L) 16 16 = .ok (.vault (at' L).1 (at' L).2)) →
    let over' (L : Nat) : Bool := fld L 0 == 0
    let bad (L : Nat) : Bool := over' L && decide (2 ^ 31 ≤ fld L 4)
    let fault (L : Nat) : FaultInfo := { code := 0x1B, addr := BitVec.ofNat 64 (fld L 12), info := BitVec.ofNat 32 (fld L 8) }
    let fs := ((actives s iss).filter bad).map fun L => (L, fault L)
    let core := (s.team iss.team).core
    Does i s iss (if (actives s iss).any over' then
        { s with l1 := s.l1.filter fun e => e.core != core || e.owned, marks := ((actives s iss).filter over').foldl
                   (fun m L => SMap.set m 0 (barrierMark (at' L).1 (at' L).2) 1) s.marks } else s)
      fs exceptRegs
      (fun L l => if Act s iss L ∧ over' L = false then waitsFor (.trough d (at' L).1 (at' L).2) l else goneOn iss l)
      (fun t => (∀ L, Act s iss L → over' L = true → bad L = false →
          (t.team iss.team).vreg L d = BitVec.ofNat 32 (fld L 4)) ∧
        RegsKept s t iss fun L n => Act s iss L ∧ over' L = true ∧ bad L = false ∧ n = d) id

/-- 16 R377: CANCEL of a team with no unacknowledged write, where the log has room, goes on and cancels the run, the runs
of the job in its phase, or the job's runs; a cancelled phase or job is marked (02 R58); with unacknowledged writes, or reads not
yet performed but table reads, it cannot issue. That the cancellation, a release, waits for the reads too is the model's (log
125). -/
def Obligations.CancelsEndRuns : Prop :=
  let cancels (i : Instr) (level : Nat) (target : State → Nat → Nat) (runs : State → Nat → List Nat)
      (act : State → Nat → State → List Nat → State) : Prop :=
    ∀ s iss, Issued s iss i → actives s iss ≠ [] →
      let b := (s.team iss.team).block
      let rs := runs s b
      let die := (s.run (rs.headD (s.block b).run)).homeDie 0
      (s.unacked iss.team ≠ [] → CannotIssue i s) ∧
      (s.unacked iss.team = [] → (∀ L, Act s iss L → s.logNeed iss.team L die .yard 1 = none) →
        Does i s iss s [] id (fun _ l => goneOn iss l) (fun _ => True) fun t =>
          act s b (t.cancelLog rs level (target s b) (s.team iss.team).core) rs)
  cancels .cancelRun 0 (fun s b => (s.runid b).toNat) (fun s b => [(s.block b).run]) (fun _ _ t rs => t.cancelRuns rs) ∧
  cancels .cancelPhase 1 (fun s b => (s.jobid b).toNat)
    (fun s b => s.runsOf (s.block b).func (s.block b).job (some (s.run (s.block b).run).phase))
    (fun s b t rs => (t.cancelUnits (s.block b).func (s.block b).job (some (s.run (s.block b).run).phase)).cancelRuns rs) ∧
  cancels .cancelJob 2 (fun s b => (s.block b).job) (fun s b => s.runsOf (s.block b).func (s.block b).job none)
    (fun s b t rs => (t.cancelUnits (s.block b).func (s.block b).job none).cancelRuns rs)


namespace Sys2Proof.Claims
open Sys2Proof Sys2Proof.Machine

/-- An entry of the range-lock table in a free slot of core `n` (10 R249). -/
def lockIn (s : State) (n slot : Nat) : Prop := slot < 64 ∧ ∀ l ∈ (s.core n).locks, l.slot ≠ slot

/-- The range-lock entry of operation `op` for the bytes `first` to `last` of agent `ag` (10 R249). -/
def lockOf (ag : Agent) (op slot first last : Nat) (dst : Bool) : RangeLock :=
  { slot := slot, first := (lockPlace ag first).2, last := (lockPlace ag first).2 + (last - first), dst := dst,
    func := ag.func, vault := (lockPlace ag first).1, priv := windowOf first == 2, op := op }

/-- Free entries of core `n`'s range-lock table. -/
def freeLocks (s : State) (n : Nat) : Nat := ((List.range 64).filter fun i => !((s.core n).locks.any fun l => l.slot == i)).length

/-- `s` with these locks more on core `n`. -/
def withLocks (s : State) (n : Nat) (ls : List RangeLock) : State :=
  s.setCore n { s.core n with locks := (s.core n).locks ++ ls }

/-- The engine operation that a team starts, for its elected lane `m` (10 R251). That its writes take the clock of the lane's last
release fence is the model's (logs 15, 122). -/
def engineOf (s : State) (iss : Issue) (kind : EngineKind) (m : Nat) : Engine :=
  { id := s.fresh, ins := s.fresh, kind := kind, team := iss.team, block := (s.team iss.team).block,
    core := (s.team iss.team).core, func := (s.block (s.team iss.team).block).func, lane := m, lanes := actives s iss,
    supervisor := ((s.team iss.team).lane m).trap, aborted := false, knows := ((s.team iss.team).lane m).know,
    rel := ((s.team iss.team).lane m).rel, carries := ((s.team iss.team).lane m).fenced }

/-- `s` with engine operation `e`, which takes its number, and TLC one higher. -/
def withEngine (s : State) (iss : Issue) (e : Engine) : State :=
  ({ s with engines := s.engines ++ [e], fresh := e.id + 1 }).setTeam iss.team
    { s.team iss.team with tlc := (s.team iss.team).tlc + 1 }

/-- The tile handle in an operand's four registers of lane `m`. -/
def handleIn (s : State) (iss : Issue) (i : Instr) (slot m : Nat) : Handle :=
  Handle.parse ((s.team iss.team).vregs m (opReg (s.team iss.team) m i.form slot) 4)

/-- The format word is the same in every Active lane, its upper half is zero and the SHAPE permits its formats (14 R331). -/
def FmtsPass (s : State) (iss : Issue) (i : Instr) (shape : Nat) (f : Word) : Prop :=
  (∀ L, Act s iss L → op32 s iss i 3 L = f) ∧ natBits f.toNat 31 16 = 0 ∧
  fmtsOk shape (natBits f.toNat 3 0) (natBits f.toNat 7 4) = true

/-- `i` accumulates: element (i, n) of its slot receives the products A(i, k) · B(k, n) · 2^sc in ascending k, from zero
where `z`; the events of the elements are counted in element order; other slots keep their elements (14 R333, 12 R306). -/
def Multiplies (i : Instr) (s : State) (iss : Issue) (base : State) (shape : Nat) (z : Bool) (f : Word) (a : Nat)
    (b : Nat → Nat → Machine.Num) : Prop :=
  let T := s.team iss.team
  let slot := i.form.d.field.toNat
  let old (r n : Nat) : AccElem := if z then {} else T.elem slot r n
  let sum (r n : Nat) := accumulateAll (old r n) (BitVec.ofNat 8 (natBits f.toNat 15 8)).toInt
    ((List.range (shapeK shape)).map fun k => (fragElem (seen s iss i) a shape (natBits f.toNat 3 0) r k, b k n))
  let events := (List.range 1024).flatMap fun e =>
    eventIndex (markFmt (natBits f.toNat 3 0) (natBits f.toNat 7 4)) (firstMark (sum (e / 32) (e % 32)).2)
  Does i s iss (base.countEvents T.block events) [] (fun u => { u with acc := [] }) (fun _ l => goneOn iss l)
    (fun t => (∀ r n, r < 32 → n < 32 → (t.team iss.team).elem slot r n = (sum r n).1) ∧
      ∀ o r n, o ≠ slot → r < 32 → n < 32 → (t.team iss.team).elem o r n = T.elem o r n) id

end Sys2Proof.Claims

/-! ### Copies, updates, engines, walks, emission (10, 14, 15, 16) -/

/-- 10 R249 to R252: CPY and CPY2D, for the elected lane, which is the lowest Active lane: they cannot issue while their tag
is busy or fewer than two range locks are free; an unreported error of the tag faults every Active lane and is cleared; a
copy of zero bytes sets its tag; any other copy whose two ranges pass registers both ranges, clears its tag, stands on the
tag, and counts in CPC.
Rests on the model's choices of log 40; that the copy's writes take the clock of the lane's last release fence is log 15, and what
they carry in a version log 122. -/
def Obligations.CopiesStart : Prop :=
  let starts (i : Instr) (shape : State → Issue → Nat → Nat × Nat × Int × Int) : Prop := ∀ s iss m r, Issued s iss i →
    actives s iss = m :: r →
    let T := s.team iss.team
    let n := T.core
    let tag := natBits i.form.imm.toNat 13 8
    let dst := op64 s iss i 0 m
    let src := op64 s iss i 1 m
    let (rows, rb, ds, ss) := shape s iss m
    let ag := s.agentOf iss.team m
    let dr := boundRange dst.toNat rows rb ds
    let sr := boundRange src.toNat rows rb ss
    let free := (s.core n).tags.getLsbD tag = true ∧ 2 ≤ freeLocks s n
    let error := (s.core n).tagErrs.find? fun e => e.tag == tag
    (¬ free → CannotIssue i s) ∧
    (free → (∀ e, error = some e → e.code ≠ 0 →
      Does i s iss (s.setCore n { s.core n with tagErrs := (s.core n).tagErrs.filter fun x => x.tag != tag })
        ((actives s iss).map fun L => (L, { code := e.code, cause := e.cause, addr := e.addr, info := BitVec.ofNat 32 e.tag }))
        id (fun _ l => goneOn iss l) (fun _ => True) id) ∧
      (error = none → rows * rb = 0 →
        GoesOn i s iss (s.setCore n { s.core n with tags := (s.core n).tags ||| (1 <<< tag) })) ∧
      (error = none → rows * rb ≠ 0 → 0 ≤ dr.1 → 0 ≤ sr.1 → s.copyRange ag dr.1.toNat dr.2.toNat = none →
        s.copyRange ag sr.1.toNat sr.2.toNat = none → T.cpc ≠ 255 →
        ∃ s1 s2, lockIn s n s1 ∧ lockIn s n s2 ∧ s1 ≠ s2 ∧
          let c := s.core n
          let cp : Copy :=
            { op := s.fresh, func := (s.block T.block).func, team := iss.team, block := T.block, lane := m,
              supervisor := (T.lane m).trap, dst := dst, src := src, rows := rows, rowBytes := rb, dstStride := ds,
              srcStride := ss, knows := (T.lane m).know, rel := (T.lane m).rel, carries := (T.lane m).fenced }
          let u := ({ s with fresh := s.fresh + 1 }).setCore n { c with
            tags := c.tags &&& ~~~((1 : Dbl) <<< tag)
            locks := c.locks ++ [lockOf ag s.fresh s1 sr.1.toNat sr.2.toNat false,
              lockOf ag s.fresh s2 dr.1.toNat dr.2.toNat true]
            copies := c.copies.set {} tag cp }
          GoesOn i s iss (u.setTeam iss.team { T with cpc := T.cpc + 1 })))
  (∀ o, starts (.cpy o) fun s iss m => (1, natBits (op32 s iss (.cpy o) 2 m).toNat 23 0, 0, 0)) ∧
  ∀ o, starts (.cpy2d o) fun s iss m =>
    let b := (op32 s iss (.cpy2d o) 2 m).toNat
    (natBits b 31 20 + 1, natBits b 19 0, (op32 s iss (.cpy2d o) 3 m).toInt, o.lit.toInt)

/-- 10 R271: ZSCAN of a handle that passes 02 R56 starts a scan for every Active lane: without ranges where it has no record to
write, else with its tile locked as a source and its record as a destination. 14 R339 to R341: NMV, with three range locks free,
a barrier address that passes and no WAITB completed there in this cycle, locks x, M and y, counts itself in the barrier's PEND
and starts. Rests on the model's choices of logs 15, 40 and 122. -/
def Obligations.EnginesStart : Prop :=
  (∀ o s iss m r, Issued s iss (.zscan o) → actives s iss = m :: r →
    let i := Instr.zscan o
    let T := s.team iss.team
    let h := handleIn s iss i 1 m
    let ag := s.agentOf iss.team m
    let d := o.d.toNat
    let zr := (s.func (s.block T.block).func).zflagAddr h.zfi
    let last' := zr + 0x40 + 4 * h.blocks
    let none' := h.zfi = 0 ∨ windowOf h.base.toNat = 1 ∨ s.tileOutside ag h.pages = .ok true
    h.fault iss.word = none → T.tlc ≠ 255 →
    (none' → GoesOn i s iss (withEngine s iss (engineOf s iss (.zscan h d (some 0x100)) m))) ∧
    (¬ none' → s.tileOutside ag h.pages = .ok false → windowOf zr ≠ 3 → last' ≤ 2 ^ 64 → windowOf (last' - 1) = windowOf zr → 2 ≤ freeLocks s T.core →
      ∃ s1 s2, lockIn s T.core s1 ∧ lockIn s T.core s2 ∧ s1 ≠ s2 ∧
        GoesOn i s iss (withEngine (withLocks s T.core [lockOf ag s.fresh s1 h.base.toNat h.lastByte false,
          lockOf ag s.fresh s2 zr (last' - 1) true]) iss (engineOf s iss (.zscan h d none) m)))) ∧
  ∀ o s iss m r bc bo, Issued s iss (.nmv o) → actives s iss = m :: r →
    let i := Instr.nmv o
    let T := s.team iss.team
    let ag := s.agentOf iss.team m
    let h := handleIn s iss i 2 m
    let y := op64 s iss i 0 m
    let x := op64 s iss i 1 m
    let yf := natBits o.imm.toNat 4 3
    let xf := natBits o.imm.toNat 2 0
    let size (f : Nat) : Nat := (floatFmt f).width / 8
    3 ≤ freeLocks s T.core → s.nmvBarrier ag (op64 s iss i 3 m).toNat = .ok (bc, bo) → s.marks.get 0 (barrierMark bc bo) = 0 →
    ∃ s1 s2 s3, lockIn s T.core s1 ∧ lockIn s T.core s2 ∧ lockIn s T.core s3 ∧ s1 ≠ s2 ∧ s1 ≠ s3 ∧ s2 ≠ s3 ∧
      let u := (withLocks { s with fresh := s.fresh + 1 } T.core
        [lockOf ag s.fresh s1 x.toNat (x.toNat + h.cols * size xf - 1) false,
         lockOf ag s.fresh s2 h.base.toNat h.lastByte false,
         lockOf ag s.fresh s3 y.toNat (y.toNat + h.rows * size yf - 1) true]).nmvIssue T.core bc bo
      GoesOn i s iss { u with engines := u.engines ++
        [engineOf s iss (.nmv y x h bc bo yf xf o.hint.toNat (o.imm.getLsbD 5)) m] }

/-- 10 R262: UPD.ADD, UPD.MIN and UPD.MAX whose Active lanes all pass their steps, on a core that has room for the requests (01
R22, as log 142 counts them), put one pair in flight for each lane, with the core's next sequence numbers, and count one in STC.
10 R268: UPDCLR of a region discards its pending pairs and clears TORN; in a doorbell page that is no queue's of the function it
only goes on (03 R62). -/
def Obligations.UpdatesAreIssued : Prop :=
  let issues (i : Instr) (op : Nat) : Prop := ∀ s iss (reg p : Nat → Nat) (ent : Nat → Region), Issued s iss i →
    let T := s.team iss.team
    let c := seen s iss i
    let ty := natBits i.form.imm.toNat 2 0
    let a (L : Nat) : Nat := (op64 s iss i 1 L).toNat
    actives s iss ≠ [] → (nodeAt s iss).versioned = false → T.stc ≠ 255 →
    (∀ L, Act s iss L → s.updCheck c L (a L) (regionBytes ty) (regionBytes ty) (some (ty, op)) =
        .ok (reg L, ent L, .hbm (p L)) ∧ s.updTorn c L (a L) (reg L, ent L, .hbm (p L)) = none) →
    let ps := (actives s iss).zipIdx.map fun x =>
      ({ id := s.fresh + 1 + x.2, ins := s.fresh, team := iss.team, block := T.block, core := T.core, lane := x.1,
         q := (s.core T.core).q + x.2, func := (s.block T.block).func, region := reg x.1, p := p x.1,
         value := if 3 ≤ ty then op64 s iss i 2 x.1 else (op32 s iss i 2 x.1).setWidth 64, ty := ty, op := op,
         accepted := false, held := false, va := op64 s iss i 1 x.1, job := (s.block T.block).job,
         det := s.det T.block } : Pair)
    s.requestRoom T.core (ps.map Pair.request) = true →
    let u : State := { s with pairs := s.pairs ++ ps, fresh := s.fresh + 1 + ps.length }
    GoesOn i s iss ((u.setCore T.core { s.core T.core with q := (s.core T.core).q + ps.length }).setTeam iss.team
      { T with stc := T.stc + 1 })
  (∀ o, issues (.updAdd o) 0) ∧ (∀ o, issues (.updMin o) 1) ∧ (∀ o, issues (.updMax o) 2) ∧
  ∀ o s iss m r reg ent tgt, Issued s iss (.updclr o) → actives s iss = m :: r →
    (s.team iss.team).stc ≠ 255 →
    s.updCheck (seen s iss (.updclr o)) m (op64 s iss (.updclr o) 1 m).toNat 1 1 none = .ok (reg, ent, tgt) →
    (∀ p, tgt = .door p → GoesOn (.updclr o) s iss s) ∧ ((∀ p, tgt ≠ .door p) →
    let f := (s.block (s.team iss.team).block).func
    let u : State := { s with pairs := s.pairs.filter fun p => !(p.accepted && p.func == f && p.region == reg) }
    GoesOn (.updclr o) s iss (u.setFunc f { s.func f with
      regions := (s.func f).regions.set {} reg { ent with rctl := ent.rctl &&& ~~~((1 : Dbl) <<< 62) } }))

/-- 14 R329 to R334, R337: MXM of each SHAPE accumulates the products of its fragments, MXM.W those of the next tile of the
team's walk; an MXM.W of a walk that has staged nothing yet cannot issue, and with no tile left it does nothing; MXZERO
clears its slot. That a tile staged under another SHAPE gives 0 for the rows it lacks and no more rows than the SHAPE has is the model's
choice (log 139, DESIGN CHOICE). -/
def Obligations.MatrixProducts : Prop :=
  let frag (ins : L64 → Instr) (shape : Nat) : Prop := ∀ o s iss m r f, Issued s iss (ins o) → actives s iss = m :: r →
    FmtsPass s iss (ins o) shape f →
    Multiplies (ins o) s iss s shape (o.imm.getLsbD 0) f (opReg (s.team iss.team) 0 (ins o).form 1) fun k n =>
      fragElem (seen s iss (ins o)) (opReg (s.team iss.team) m (ins o).form 2) shape (natBits f.toNat 7 4) n k
  frag .mxmF8 0 ∧ frag .mxmS2p8 1 ∧ frag .mxmH16 2 ∧
  (∀ o s iss m r f, Issued s iss (.mxmW o) → actives s iss = m :: r →
    let n := (s.team iss.team).core
    let w := (s.core n).walker
    let mine := w.owner = iss.team + 1
    let shape := natBits o.imm.toNat 1 0
    (nodeAt s iss).featreq.getLsbD (shape + 1) = true →
    (mine → w.running = true → w.staged = [] → CannotIssue (.mxmW o) s) ∧
    ((¬ mine ∨ (w.running = false ∧ w.staged = [])) → FmtsPass s iss (.mxmW o) shape f → GoesOn (.mxmW o) s iss s) ∧
    (∀ elems rest, mine → w.staged = .tile (natBits f.toNat 7 4) elems :: rest → FmtsPass s iss (.mxmW o) shape f →
      Multiplies (.mxmW o) s iss (s.setWalker n { w with staged := rest }) shape (o.imm.getLsbD 2) f
        (opReg (s.team iss.team) 0 (Instr.mxmW o).form 1) fun k i =>
          cvtSource (natBits f.toNat 7 4) ((elems.getD (32 * k + i) 0).setWidth 64))) ∧
  ∀ o s iss, Issued s iss (.mxzero o) → actives s iss ≠ [] →
    Does (.mxzero o) s iss s [] (fun u => { u with acc := [] }) (fun _ l => goneOn iss l)
      (fun t => ∀ a r n, r < 32 → n < 32 →
        (t.team iss.team).elem a r n = if a = (Instr.mxzero o).form.d.field.toNat then {} else (s.team iss.team).elem a r n) id

/-- 14 R335: MXRD gives each Active lane sixteen elements of its row, rounded and packed from the low bits of its registers, and
counts their events; MXST, where its addresses pass, puts 1,024 stores of the rounded elements in flight under one engine
operation, each with the event that counts once it is written; both clear the slot where bit 4 of IMM14 says so. 14 R338: MXSKIP
sets the mask bit of each Active lane that needs its block, and then the mask's release check runs. The clock that the stores
take with them is log 15, and what they carry in a version log 122. -/
def Obligations.MatrixReads : Prop :=
  let size (imm : BitVec 14) : Nat := (floatFmt (natBits imm.toNat 2 0)).width
  let elem (s : State) (iss : Issue) (imm : BitVec 14) (hint : BitVec 2) (slot r n : Nat) : ElemResult :=
    ((s.team iss.team).elem slot r n).deliver (imm.extractLsb' 5 9).toInt (natBits imm.toNat 2 0) (.ofHint hint)
      (imm.getLsbD 3)
  (∀ o s iss m q, Issued s iss (.mxrd o) → actives s iss = m :: q →
    let T := s.team iss.team
    let slot := (Instr.mxrd o).form.a.field.toNat
    let d := destReg s iss (.mxrd o) m
    let w := size o.imm
    let el (L j : Nat) : ElemResult := elem s iss o.imm o.hint slot (L % 32) (16 * (L / 32) + j)
    let events := (actives s iss).flatMap fun L => (List.range 16).flatMap fun j =>
      eventIndex (natBits o.imm.toNat 2 0) (el L j).2
    Does (.mxrd o) s iss (s.countEvents T.block events) [] (fun u => { u with v := [], nonzero := [], acc := [] })
      (fun _ l => goneOn iss l)
      (fun t => (∀ L j, Act s iss L → j < 16 →
          (t.team iss.team).vregs L d (w / 2) / 2 ^ (w * j) % 2 ^ w = (el L j).1) ∧
        RegsKept s t iss (fun L n => Act s iss L ∧ d ≤ n ∧ n < d + w / 2) ∧
        ∀ a r n, r < 32 → n < 32 → (t.team iss.team).elem a r n =
          if o.imm.getLsbD 4 = true ∧ a = slot then {} else T.elem a r n) id) ∧
  (∀ o s iss m q ts, Issued s iss (.mxst o) → actives s iss = m :: q →
    let i := Instr.mxst o
    let T := s.team iss.team
    let slot := i.form.d.field.toNat
    let b := size o.imm / 8
    let base := (op64 s iss i 1 m).toNat
    let stride := (op32 s iss i 2 m).toInt
    let a (e : Nat) : Nat := (((base : Int) + (e / 32 : Nat) * stride + (e % 32 * b : Nat)) % 2 ^ 64).toNat
    let ag := s.agentOf iss.team m
    let el (e : Nat) : ElemResult := elem s iss o.imm o.hint slot (e / 32) (e % 32)
    base % b = 0 → stride % (b : Int) = 0 → s.mxstCheck (seen s iss i) ag base stride b 0 1024 = .ok ts →
    (nodeAt s iss).versioned = false → T.tlc ≠ 255 → 1 ≤ freeLocks s T.core →
    s.requestRoom T.core (ts.map fun x => (s.fresh, x.2.sector)) = true →
    ∃ s1 lo hi accs, lockIn s T.core s1 ∧ accs.length = 1024 ∧
      (∀ e, e < 1024 → lo ≤ a e ∧ a e ≤ hi) ∧ (∃ e, e < 1024 ∧ a e = lo) ∧ (∃ e, e < 1024 ∧ a e = hi) ∧
      (∀ e, e < 1024 → ∃ tgt, s.engineAccess ag .write (a e) b = .ok tgt ∧ accs[e]? = some
        ({ id := s.fresh + 1 + e, ins := s.fresh, kind := .store, team := iss.team, block := T.block, core := T.core,
           lane := m, func := (s.block T.block).func, va := BitVec.ofNat 64 (a e), target := tgt, size := b, ord := 0, dest := 0,
           ndest := 0, sx := false, nol1 := true, data := BitVec.ofNat 128 (el e).1, data2 := 0, ts := (T.lane m).rel, floored := false,
           carries := (T.lane m).fenced, supervisor := (T.lane m).trap, stage := .issued, knows := (T.lane m).know,
           events := eventIndex (natBits o.imm.toNat 2 0) (el e).2 } : Access)) ∧
      let u := withEngine (withLocks { s with accesses := s.accesses ++ accs } T.core
        [lockOf ag s.fresh s1 lo (hi + b - 1) true]) iss (engineOf s iss .mxst m)
      Does i s iss ({ u with fresh := s.fresh + 1025 } : State) []
        (fun u => { u with acc := [] }) (fun _ l => goneOn iss l)
        (fun t => ∀ c r n, r < 32 → n < 32 → (t.team iss.team).elem c r n =
          if o.imm.getLsbD 4 = true ∧ c = slot then {} else T.elem c r n) id) ∧
  ∀ o s iss m q, Issued s iss (.mxskip o) → actives s iss = m :: q →
    let i := Instr.mxskip o
    let T := s.team iss.team
    let h := handleIn s iss i 3 m
    let d := i.form.d.field.toNat
    let a := opReg T m i.form 1
    let flag := o.imm.getLsbD 11 && s.trusted T.block (s.agentOf iss.team m) h (natBits o.imm.toNat 10 0)
    let need (L : Nat) : Bool := skipNeeded (T.vreg L a).toNat (T.vreg L (a + 1)).toNat (T.vreg L (a + 2)).toNat
      (if flag then 0 else (op32 s iss i 2 L).toNat)
    h.fault iss.word = none → T.tlc ≠ 255 →
    ∃ t, exec i s = .next (t.checkMask iss.team d) ∧ MaskFrame s t iss (fun n => n = d) ∧
      ∀ L, L < 64 → ((t.team iss.team).kreg d).getLsbD L = if Act s iss L then need L else kbit s iss d L

/-- 15 R346, R356 to R359: WALK.START, with the core's context free or the team's own, a free range lock and a header that can
be read at once, ends the team's walk, checks handle and header, locks the tile and leaves a running context whose y0 to y3 are
the four pairs of operand C and which waits for the team's earlier writes, and for its reads not yet performed (R357, log 125);
WALK.QUERY gives its word; WALK.STOP ends the team's walk. Rests on the model's choices of log 34. -/
def Obligations.WalksStartAndStop : Prop :=
  let ended (s : State) (tn : Nat) : State :=
    let n := (s.team tn).core
    let c := s.core n
    if c.walker.owner = tn + 1 then s.setCore n
      { c with locks := c.locks.filter (fun l => l.op != c.walker.lockOp), walker := {} } else s
  (∀ o s iss m q r v tgt, Issued s iss (.walkStart o) → actives s iss = m :: q →
    let i := Instr.walkStart o
    let T := s.team iss.team
    let n := T.core
    let u := ended s iss.team
    let h := handleIn s iss i 2 m
    let image := (op64 s iss i 1 m).toNat
    let shape := natBits o.imm.toNat 1 0
    let tr := o.imm.getLsbD 2
    let ag := s.agentOf iss.team m
    let fwd := natBits v 15 0
    let inv := natBits v 47 32
    ((s.core n).walker.owner = 0 ∨ (s.core n).walker.owner = iss.team + 1) → 1 ≤ freeLocks u n → T.tlc ≠ 255 →
    walkFront (seen s iss i) h shape = none → u.headerAt ag image = .ok tgt →
    u.readReady iss.team m tgt 8 = true → u.readNow iss.team m tgt 8 = (r, v) →
    natBits v 63 48 = 0 → natBits v 31 16 = 0 → 1 ≤ fwd → fwd ≤ 16384 → inv ≤ 16384 → (tr = true → 1 ≤ inv) →
    ∃ s1, lockIn r n s1 ∧ ∃ w : Walker,
      GoesOn i s iss (({ r with fresh := r.fresh + 1 } : State).setCore n { r.core n with
        locks := (r.core n).locks ++ [lockOf ag r.fresh s1 h.base.toNat h.lastByte false], walker := w }) ∧
      w.owner = iss.team + 1 ∧ w.running = true ∧ w.faulted = false ∧ w.staged = [] ∧ w.produced = 0 ∧ w.wpc = 0 ∧
      w.loops = [] ∧ w.cols = [] ∧ w.t = 0 ∧ w.k = 0 ∧ w.part = [] ∧ w.handle = h ∧ w.shape = shape ∧ w.transposed = tr ∧
      w.image = BitVec.ofNat 64 image ∧ w.section0 = BitVec.ofNat 64 (image + 8 + if tr then 4 * fwd else 0) ∧
      w.len = (if tr then inv else fwd) ∧ w.lane = m ∧ w.lockOp = r.fresh ∧ w.op = r.fresh ∧ w.knows = (T.lane m).know ∧
      w.after = s.unacked iss.team ∧
      w.supervisor = (T.lane m).trap ∧ w.zflag = (nodeAt s iss).featreq.getLsbD 12 ∧
      ∀ y, y < 16 → w.y.get 0 y = if y < 4 then T.vpair m (opReg T m i.form 3 + 2 * y) else 0) ∧
  (∀ o, Gives32 (.walkQuery o) fun s iss _ x =>
    let w := (s.core (s.team iss.team).core).walker
    x = if w.owner = iss.team + 1 then
      BitVec.ofNat 32 ((if w.running then 1 else if w.faulted then 3 else 2) * 2 ^ 30 + w.staged.length * 2 ^ 24 + w.produced)
      else 0) ∧
  ∀ s iss, Issued s iss .walkStop → actives s iss ≠ [] → GoesOn .walkStop s iss (ended s iss.team)

/-- 16 R372 to R376: EMIT and EMIT.SELF whose Active lanes' records all pass their checks, outside a version and outside
deterministic mode, emit one record of each lane, in lane order, with ESEQ numbering and the depth of 02 R51; the lanes wait,
and EMC counts the records as they are sent, at once where no write of the team is unacknowledged and none of its reads, but
table reads, is unperformed (log 125). EMIT.REMOTE sends one reservation for each target, and the lanes wait for the replies.
Rests on the model's choices of logs 86, 87, 88 and 125. -/
def Obligations.EmitsSendRecords : Prop :=
  let emits (i : Instr) (self : Bool) (node : State → Issue → Nat → Nat) : Prop := ∀ s iss, Issued s iss i →
    actives s iss ≠ [] →
    let T := s.team iss.team
    let k := s.block T.block
    let target (n : Nat) : Node := (s.run k.run).graph.nodes.getD n {}
    let a := i.form.a.field.toNat
    let depth (L : Nat) : Nat := s.newDepth iss.team L (node s iss L)
    (nodeAt s iss).versioned = false → s.det T.block = false →
    T.emc + s.unsent iss.team + (actives s iss).length ≤ 65535 →
    (∀ L, Act s iss L → s.permits T.block (node s iss L) self = true ∧
      a + (target (node s iss L)).rsize / 4 ≤ (nodeAt s iss).regs ∧ depth L ≤ (target (node s iss L)).depth) →
    let es := (actives s iss).zipIdx.map fun x =>
      let n := node s iss x.1
      ({ id := s.fresh + 1 + x.2, ins := s.fresh, team := iss.team, block := T.block, core := T.core, lane := x.1,
         run := k.run, node := n,
         entry := { hdr := (T.eseq + BitVec.ofNat 32 x.2) ++ BitVec.ofNat 32 (k.node % 4096 * 2 ^ 16 + depth x.1 % 32),
                    words := (List.range ((target n).rsize / 4)).map fun j => T.vreg x.1 (a + j), index := 0 },
         after := s.unacked iss.team, listed := false, sent := decide (s.unacked iss.team = []) } : Emission)
    let u : State := { s with emissions := s.emissions ++ es, fresh := s.fresh + 1 + es.length }
    Does i s iss (u.setTeam iss.team { T with
        emc := T.emc + (if s.unacked iss.team = [] then es.length else 0), eseq := T.eseq + BitVec.ofNat 32 es.length }) [] id
      (fun L l => if Act s iss L then waitsFor .emit l else goneOn iss l) (fun _ => True) fun t => t.checkDead iss.team
  (∀ o, emits (.emit o) false fun _ _ _ => natBits o.imm.toNat 11 0) ∧
  (∀ o, emits (.emitReg o) false fun s iss L => natBits ((s.team iss.team).vreg L o.b.toNat).toNat 11 0) ∧
  (∀ o, emits (.emitSelf o) true fun s iss _ => (s.block (s.team iss.team).block).node) ∧
  ∀ o s iss, Issued s iss (.emitRemote o) → actives s iss ≠ [] →
    let T := s.team iss.team
    let c := seen s iss (.emitRemote o)
    let a := (Instr.emitRemote o).form.a.field.toNat
    let n := natBits o.imm.toNat 3 0
    let ms := (remoteGroups c (actives s iss)).map (s.mkReserve c a n (actives s iss))
    s.det T.block = false → T.emc + s.unsent iss.team + (actives s iss).length ≤ 65535 →
    (∀ L, Act s iss L → s.remoteCheck c a (4 * (n + 1)) L = none) →
    (∀ L, Act s iss L → ∃ x ∈ ms, L ∈ x.lanes) ∧
    Does (.emitRemote o) s iss (ms.foldl (fun u x => u.sendReserve c.block.func x)
        (s.setTeam iss.team { T with eseq := T.eseq + BitVec.ofNat 32 (actives s iss).length })) [] id
      (fun L l => if Act s iss L then waitsFor (.remote (((ms.find? fun x => x.lanes.contains L).map (·.token)).getD 0)) l
        else goneOn iss l) (fun _ => True) fun t => t.checkDead iss.team


namespace Sys2Proof.Claims
open Sys2Proof Sys2Proof.Machine

/-- Elements of a scalar form joined: the register's bits, and the event counters that its elements count in (12 R308, R309;
13 R314). -/
def joined (f : FFmt) (el : Nat → Nat × Option Nat) : Word × List Nat :=
  let idx : Nat := match f with | .f32 => 0 | .bf16 => 2 | _ => 1
  let ev (x : Nat × Option Nat) : List Nat := x.2.toList.map fun e => 4 * idx + e
  if f = .f16x2 then (.ofNat 32 ((el 0).1 + 2 ^ 16 * (el 1).1), ev (el 0) ++ ev (el 1))
  else (.ofNat 32 (el 0).1, ev (el 0))

/-- The format of a form's elements, and element `h` of an operand (13 R314). -/
def elFmt (f : FFmt) : FloatFmt :=
  match f with | .f32 => ⟨23, 8, 127, false⟩ | .bf16 => ⟨7, 8, 127, false⟩ | _ => ⟨10, 5, 15, false⟩
def elOf (f : FFmt) (w : Word) (h : Nat) : Nat := if f = .f32 then w.toNat else w.toNat / 2 ^ (16 * h) % 2 ^ 16

/-- `i` completes: each Active lane's destination holds `val`'s register, and the events are counted, lane by lane, in the
block's counters; nothing else changes. -/
def GivesFloat (i : Instr) (val : State → Issue → Nat → Word × List Nat) : Prop :=
  ∀ s iss, Issued s iss i → ∃ t, exec i s = .next t ∧
    VectorFrame (s.countEvents (s.team iss.team).block ((actives s iss).flatMap fun L => (val s iss L).2)) t iss
      (fun L n => Act s iss L ∧ n = destReg s iss i L) ∧
    ∀ L, Act s iss L → (t.team iss.team).vreg L (destReg s iss i L) = (val s iss L).1

/-- A rounded result with its event: none for a NaN operand; NaN 0; Infinity 1 for an infinite exact result of finite operands;
Overflow 2; Underflow 3 (12 R308). -/
def roundedWith (x : Machine.Num) (F : FloatFmt) (mode : Mode) (sat : Bool) (ops : List Machine.Num) : Nat × Option Nat :=
  let r := roundTo x F mode sat
  (r.bits, if ops.any (· == .nan) then none
    else match x with
      | .nan => some 0
      | .inf _ => if ops.any (fun o => o == .inf true || o == .inf false) then none else some 1
      | .fin _ _ _ => if r.overflow then some 2 else if r.underflow then some 3 else none)

/-- The table of 13 R323 for a special operand of format `F`: result and event. FRCP 0, FSQRT 1, FRSQ 2, FEXP2 3, FLOG2 4,
FSIN 5, FCOS 6, FTANH 7. -/
def sfnTable (fn : Nat) (F : FloatFmt) (v : Machine.Num) : Option (Nat × Option Nat) :=
  let zero (n : Bool) : Nat := if n then 2 ^ (F.p + F.e) else 0
  let one (n : Bool) : Nat := zero n + F.bias.toNat * 2 ^ F.p
  let bad : Nat × Option Nat := (F.nan, some 0)
  match v with
  | .nan => some (F.nan, none)
  | .inf n => some (match fn with
    | 0 => (zero n, none)
    | 1 => if n then bad else (F.inf false, none)
    | 2 => if n then bad else (0, none)
    | 3 => if n then (0, none) else (F.inf false, none)
    | 4 => if n then bad else (F.inf false, none)
    | 7 => (one n, none)
    | _ => bad)
  | .fin n 0 _ => some (match fn with
    | 0 => (F.inf n, some 1)
    | 2 => (F.inf n, some 1)
    | 3 => (one false, none)
    | 4 => (F.inf true, some 1)
    | 6 => (one false, none)
    | _ => (zero n, none))
  | .fin n _ _ => if n && (fn == 1 || fn == 2 || fn == 4) then some bad else none

/-- The rational value of a finite number. -/
def ratOf (x : Machine.Num) : ℚ :=
  match x with
  | .fin n m e => (if n then -1 else 1) * m * (2 : ℚ) ^ e
  | _ => 0

end Sys2Proof.Claims

/-! ### Floating point (12, 13) -/

/-- 13 R314 to R322: FADD, FSUB, FMUL and FFMA round the exact result once, element by element, and count its event; FMIN,
FMAX, FABS, FNEG and FCLASS write their bits and count none; FCMP writes its condition to the mask. 13 R323, R325: FRCP, FSQRT,
FRSQ, FEXP2, FLOG2, FSIN, FCOS, FTANH and CVT complete whenever they issue: they write the destinations of the Active lanes, a
pair for a 64-bit CVT, count events of the block, and change nothing else. -/
def Obligations.ScalarFloatResults : Prop :=
  let arith (op : Mode → Machine.Num → Machine.Num → Machine.Num → Machine.Num) (three : Bool) (reg : FFmt → L64 → Instr)
      (lit : FFmt → X96 → Instr) : Prop :=
    let el (f : FFmt) (hint : BitVec 2) (imm : BitVec 14) (a b c : Word) (h : Nat) : Nat × Option Nat :=
      let v (w : Word) := (elFmt f).value (elOf f w h)
      roundedWith (op (.ofHint hint) (v a) (v b) (v c)) (elFmt f) (.ofHint hint) (imm.getLsbD 8)
        (if three then [v a, v b, v c] else [v a, v b])
    (∀ f o, GivesFloat (reg f o) fun s iss L => joined f (el f o.hint o.imm (op32 s iss (reg f o) 1 L)
      (op32 s iss (reg f o) 2 L) (op32 s iss (reg f o) 3 L))) ∧
    ∀ f o, GivesFloat (lit f o) fun s iss L => joined f (el f o.lo.hint o.lo.imm (op32 s iss (lit f o) 1 L) o.lit
      (op32 s iss (lit f o) 3 L))
  let minMax (max : Bool) (reg : FFmt → L64 → Instr) (lit : FFmt → X96 → Instr) : Prop :=
    let el (f : FFmt) (a b : Word) (h : Nat) : Nat × Option Nat := (floatMinMax (elFmt f) max (elOf f a h) (elOf f b h), none)
    (∀ f o, GivesFloat (reg f o) fun s iss L => joined f (el f (op32 s iss (reg f o) 1 L) (op32 s iss (reg f o) 2 L))) ∧
    ∀ f o, GivesFloat (lit f o) fun s iss L => joined f (el f (op32 s iss (lit f o) 1 L) o.lit)
  let sign (ins : FFmt → S32 → Instr) (g : FloatFmt → Nat → Nat) : Prop := ∀ f o, GivesFloat (ins f o) fun s iss L =>
    joined f fun h => (g (elFmt f) (elOf f (op32 s iss (ins f o) 1 L) h), none)
  let cc (c : BitVec 9) (a b : Machine.Num) : Bool :=
    let un := a.isNan || b.isNan
    match c.toNat with
    | 0 => !un && a.eqv b | 1 => un || !a.eqv b | 2 => !un && a.lt b | 3 => !un && (a.lt b || a.eqv b)
    | 4 => !un && !(a.lt b || a.eqv b) | 5 => !un && !a.lt b | 6 => un | _ => !un
  arith (fun m a b _ => a.add b m) false .fadd .faddX96 ∧
  arith (fun m a b _ => a.add b.neg m) false .fsub .fsubX96 ∧
  arith (fun _ a b _ => a.mul b) false .fmul .fmulX96 ∧
  arith (fun m a b c => (a.mul b).add c m) true .ffma .ffmaX96 ∧
  minMax false .fmin .fminX96 ∧ minMax true .fmax .fmaxX96 ∧
  sign .fabs (fun F w => w % 2 ^ (F.p + F.e)) ∧
  sign .fneg (fun F w => (w + 2 ^ (F.p + F.e)) % 2 ^ (F.p + F.e + 1)) ∧
  sign .fclass classMask ∧
  (∀ f o, GivesMask (.fcmp f o) o.d.toNat fun s iss L => if Act s iss L then
    cc o.c ((elFmt f).value (elOf f (op32 s iss (.fcmp f o) 1 L) 0)) ((elFmt f).value (elOf f (op32 s iss (.fcmp f o) 2 L) 0))
    else kbit s iss o.d.toNat L) ∧
  (∀ f o, GivesMask (.fcmpX96 f o) o.lo.d.toNat fun s iss L => if Act s iss L then
    cc o.lo.c ((elFmt f).value (elOf f (op32 s iss (.fcmpX96 f o) 1 L) 0)) ((elFmt f).value (elOf f o.lit 0))
    else kbit s iss o.lo.d.toNat L) ∧
  let completes (i : Instr) (wide : Bool) : Prop := ∀ s iss, Issued s iss i → ∃ t events, exec i s = .next t ∧
    VectorFrame (s.countEvents (s.team iss.team).block events) t iss
      (fun L n => Act s iss L ∧ (n = destReg s iss i L ∨ (wide = true ∧ n = destReg s iss i L + 1)))
  (∀ f o, completes (.frcp f o) false ∧ completes (.fsqrt f o) false ∧ completes (.frsq f o) false ∧
    completes (.fexp2 f o) false ∧ completes (.flog2 f o) false ∧ completes (.fsin f o) false ∧
    completes (.fcos f o) false ∧ completes (.ftanh f o) false) ∧
  ∀ o, completes (.cvt o) (o.imm.extractLsb' 4 4 == 0xD || o.imm.extractLsb' 4 4 == 0xE)

/-- 13 R323, R324: a special function delivers the same bits for the same input: for a special operand the value and the event of
its table, exact powers and logarithms where the table says so, a FTANH of magnitude at most 1, and for FRCP, FSQRT and the 16-bit
forms the rounding of its exact value; any other F32 result is the model's free pick within the bound (log 8).
13 R325, R326: CVT converts each lane's source and counts its events.
Rests on the model's choices of log 8, 31. -/
def Obligations.SpecialFunctionsAndConversions : Prop :=
  let special (fn : Nat) (ins : FFmt → S32 → Instr) : Prop := ∀ f, ∃ pick : Nat → Nat,
    let F := elFmt f
    let event (w : Nat) : Option Nat := (roundedWith (sfnExact fn (F.value w)) F .RN false [F.value w]).2
    (∀ o, GivesFloat (ins f o) fun s iss L => joined f fun h =>
      let w := elOf f (op32 s iss (ins f o) 1 L) h
      (pick w, event w)) ∧
    (∀ w, let x := sfnExact fn (F.value w)
      pick w = (roundTo x F .RN false).bits ∨
      (f = .f32 ∧ 2 ≤ fn ∧ sfnWithin fn x (pick w) = true)) ∧
    ∀ w, w < 2 ^ F.width →
      (∀ r, sfnTable fn F (F.value w) = some r → (pick w, event w) = r) ∧
      (∀ n m e, F.value w = .fin n m e → m ≠ 0 →
        (fn = 3 → ∀ k : Int, ratOf (.fin n m e) = k → 1 - F.bias - F.p ≤ k → k ≤ F.bias →
          ∃ m' e', F.value (pick w) = .fin false m' e' ∧ ratOf (.fin false m' e') = (2 : ℚ) ^ k) ∧
        (fn = 4 → ∀ k : Int, ratOf (.fin n m e) = (2 : ℚ) ^ k →
          (k = 0 → pick w = 0) ∧ ∃ n' m' e', F.value (pick w) = .fin n' m' e' ∧ ratOf (.fin n' m' e') = k) ∧
        (fn = 7 → ∃ n' m' e', F.value (pick w) = .fin n' m' e' ∧ |ratOf (.fin n' m' e')| ≤ 1))
  special 0 .frcp ∧ special 1 .fsqrt ∧ special 2 .frsq ∧ special 3 .fexp2 ∧ special 4 .flog2 ∧ special 5 .fsin ∧
  special 6 .fcos ∧ special 7 .ftanh ∧
  ∀ o s iss, Issued s iss (.cvt o) →
    let i := Instr.cvt o
    let wide (code : Nat) : Bool := code == 0xD || code == 0xE
    let dfmt := natBits o.imm.toNat 7 4
    let sfmt := natBits o.imm.toNat 3 0
    let src (L : Nat) : Dbl := if wide sfmt then op64 s iss i 1 L else (op32 s iss i 1 L).setWidth 64
    let r (L : Nat) := convert dfmt sfmt o.c.toInt (.ofHint o.hint) (o.imm.getLsbD 8) (src L)
    ∃ t, exec i s = .next t ∧
      VectorFrame (s.countEvents (s.team iss.team).block ((actives s iss).flatMap fun L => (r L).2)) t iss
        (fun L n => Act s iss L ∧ (n = destReg s iss i L ∨ (wide dfmt = true ∧ n = destReg s iss i L + 1))) ∧
      ∀ L, Act s iss L → if wide dfmt then (t.team iss.team).vpair L (destReg s iss i L) = (r L).1
        else (t.team iss.team).vreg L (destReg s iss i L) = (r L).1.setWidth 32

/-- 12 R302, 13 R318: sums and products of finite values are exact, and a finite value rounds to the neighbour that the
mode names: RN to no farther than any value of the format, with an even last bit on a tie; RZ, RU and RD to the value
nearest on their side; a zero keeps its sign; overflow delivers the infinity or the largest value that the mode and SAT
name. -/
def Obligations.RoundingIsCorrect : Prop :=
  (∀ (n n' : Bool) (m m' : Nat) (e e' : Int) (mode : Mode),
    (∃ a b c, (Machine.Num.fin n m e).add (.fin n' m' e') mode = .fin a b c) ∧
    ratOf ((Machine.Num.fin n m e).add (.fin n' m' e') mode) = ratOf (.fin n m e) + ratOf (.fin n' m' e') ∧
    (∃ a b c, (Machine.Num.fin n m e).mul (.fin n' m' e') = .fin a b c) ∧
    ratOf ((Machine.Num.fin n m e).mul (.fin n' m' e')) = ratOf (.fin n m e) * ratOf (.fin n' m' e')) ∧
  ∀ F ∈ [fmtF32, fmtF16, fmtBF16, fmtF8A, fmtF8B], ∀ (n : Bool) (m : Nat) (e : Int) (mode : Mode) (sat : Bool),
    let x : Machine.Num := .fin n m e
    let r := roundTo x F mode sat
    let sign := if n then 2 ^ (F.p + F.e) else 0
    let values := { y : ℚ | ∃ b a c d, b < 2 ^ F.width ∧ F.value b = .fin a c d ∧ y = ratOf (.fin a c d) }
    (m = 0 → r = ⟨sign, false, false⟩) ∧
    (r.overflow = false → ∃ a c d, F.value r.bits = .fin a c d ∧ r.bits < 2 ^ F.width ∧
      let y := ratOf (.fin a c d)
      match mode with
      | .RN => ∀ z ∈ values, |y - ratOf x| < |z - ratOf x| ∨ z = y ∨ (|y - ratOf x| = |z - ratOf x| ∧ r.bits % 2 = 0)
      | .RZ => |y| ≤ |ratOf x| ∧ 0 ≤ y * ratOf x ∧ ∀ z ∈ values, |z| ≤ |ratOf x| → |z| ≤ |y|
      | .RU => ratOf x ≤ y ∧ ∀ z ∈ values, ratOf x ≤ z → y ≤ z
      | .RD => y ≤ ratOf x ∧ ∀ z ∈ values, z ≤ ratOf x → z ≤ y) ∧
    (r.overflow = true → (∀ z ∈ values, |z| < |ratOf x|) ∧ r.underflow = false ∧
      r.bits = if mode = .RZ ∨ (mode = .RU ∧ n = true) ∨ (mode = .RD ∧ n = false) ∨ sat = true then sign + F.maxEnc
        else if F.noInf then F.nan else F.inf n) ∧
    (r.underflow = true ↔ ratOf x ≠ 0 ∧ |ratOf x| < (2 : ℚ) ^ (1 - F.bias) ∧ ratOf x ∉ values)


namespace Sys2Proof.Claims
open Sys2Proof Sys2Proof.Machine

/-- Core `n` runs walk `w`, a slot of its staging buffer is free (15 R346), and the current instruction is its. -/
def Walking (s : State) (n : Nat) (w : Walker) : Prop :=
  (∃ iss, s.cur = some iss ∧ (s.team iss.team).core = n ∧ (s.core n).walker = w ∧ w.owner = iss.team + 1 ∧ w.running = true) ∧
  w.staged.length < 4

/-- `s` with this context in core `n`. -/
def withWalk (s : State) (n : Nat) (w : Walker) : State := s.setCore n { s.core n with walker := w }

/-- Block and agent of a walk (15 R355, R356). -/
def walkBlock (s : State) (w : Walker) : Nat := (s.team (w.owner - 1)).block
def walkAgent (s : State) (w : Walker) : Agent := s.agentFor (w.owner - 1) w.lane w.supervisor w.op w.knows

/-- y_n of a walk. -/
def yOf (w : Walker) (n : BitVec 4) : Dbl := w.y.get 0 n.toNat

/-- A row appended: the tile is staged when it is full (15 R353). -/
def appended (w : Walker) (row : List Half) : Walker :=
  let rows := if w.shape = 0 then 32 else if w.shape = 1 then 64 else 16
  if w.k + 1 = rows then
    { w with staged := w.staged ++ [.tile w.handle.fmt (w.part ++ row)], produced := min (w.produced + 1) 0xFFFFFF,
             t := w.t + 1, k := 0, part := [] }
  else { w with part := w.part ++ row, k := w.k + 1 }

/-- The partial tile staged, its missing rows zero (15 R351). -/
def flushed (w : Walker) : Walker :=
  let rows := if w.shape = 0 then 32 else if w.shape = 1 then 64 else 16
  if w.k = 0 then w else
    { w with staged := w.staged ++ [.tile w.handle.fmt (w.part ++ List.replicate (32 * (rows - w.k)) 0)],
             produced := min (w.produced + 1) 0xFFFFFF, t := w.t + 1, k := 0, part := [] }

/-- The walk of core `n` ends: its partial tile is staged, its range lock is gone, and a context that holds nothing has no owner
(15 R347, R354). -/
def walkEnded (s : State) (n : Nat) (w : Walker) : State :=
  let u := { flushed w with running := false }
  s.setCore n { s.core n with
    locks := (s.core n).locks.filter fun l => l.op != w.lockOp
    walker := if u.faulted = false ∧ u.staged = [] then {} else u }

/-- An illegal walk instruction ends the walk: a fault marker takes the place of its next tile (15 R355). -/
def walkIllegal (s : State) (n : Nat) (w : Walker) : State :=
  s.setCore n { s.core n with
    locks := (s.core n).locks.filter fun l => l.op != w.lockOp
    walker := { w with running := false, faulted := true, part := [], k := 0,
                       staged := w.staged ++ [.marker 0x1C 0 0 (w.section0 + .ofNat 64 (4 * w.wpc)) w.t] } }

/-- q_n of a policy event. -/
def qOf (p : PolicyRun) (n : BitVec 4) : Dbl := p.q.get 0 n.toNat

/-- A policy event at instruction `pc`: at the end of a running body its next pass begins, with its register one higher, or
the loop is over (03 R87). -/
def policyAt (p : PolicyRun) (pc : Nat) : PolicyRun :=
  match p.loop with
  | none => { p with pc := pc }
  | some (r, count, pass, first, last) =>
    if pc ≠ last + 1 then { p with pc := pc }
    else if pass + 1 < count then
      let r4 : BitVec 4 := .ofNat 4 r
      { p with q := p.q.set 0 r4.toNat (qOf p r4 + 1), pc := first, loop := some (r, count, pass + 1, first, last) }
    else { p with pc := pc, loop := none }

/-- `s` with this policy event. -/
def withPolicy (s : State) (p : PolicyRun) : State := { s with policy := some p }

/-- A policy event with q_d written, at the next instruction. -/
def policySets (p : PolicyRun) (d : BitVec 4) (v : Dbl) : PolicyRun := policyAt { p with q := p.q.set 0 d.toNat v } (p.pc + 1)

end Sys2Proof.Claims

/-! ### Walk programs and policy bytecode (15; 03) -/

/-- 15 R351 to R354: each walk instruction of a running walk has its effect on the context, and nothing else changes but
what its reads cause (10 R265); WPC goes on, and back where a body ends and passes are left. 15 R352: a taken branch in a body goes
to a target within it or just past its end; outside every body it goes to one outside every body, and past the section's end it
acts as END; any other is illegal. 15 R346: no turn of a walker leaves more than four slots occupied. That the words of the
section are read again to judge the bodies is the model's (log 36). -/
def Obligations.WalkInstructions : Prop :=
  let sets (i : Instr) (d : BitVec 4) (f : Walker → Dbl) : Prop := ∀ s n w, Walking s n w →
    exec i s = .next (withWalk s n (({ w with y := w.y.set 0 d.toNat (f w) }).goTo (w.wpc + 1)))
  let moves (i : Instr) (f : Walker → Walker) : Prop := ∀ s n w, Walking s n w →
    exec i s = .next (withWalk s n ((f w).goTo (w.wpc + 1)))
  let rows (i : Instr) (row : Walker → Dbl) (col : Walker → Nat → Dbl) (on : Walker → Nat → Bool) : Prop :=
    ∀ s n w t l, Walking s n w →
      s.rowElems (walkBlock s w) (walkAgent s w) w (row w).toInt (col w) (on w) 0 32 = .ok (t, l) →
      exec i s = .next (withWalk t n ((appended w l).goTo (w.wpc + 1)))
  let imm (o : WalkOp) : Dbl := o.imm.signExtend 64
  let six (o : WalkOp) : Nat := natBits o.imm.toNat 5 0
  let c (o : WalkOp) : BitVec 4 := o.imm.extractLsb' 10 4
  (∀ o, sets (.walkMovi o) o.d fun _ => imm o) ∧
  (∀ o, sets (.walkAdd o) o.d fun w => yOf w o.a + yOf w o.b) ∧
  (∀ o, sets (.walkSub o) o.d fun w => yOf w o.a - yOf w o.b) ∧
  (∀ o, sets (.walkAddi o) o.d fun w => yOf w o.a + imm o) ∧
  (∀ o, sets (.walkMul o) o.d fun w => yOf w o.a * yOf w o.b) ∧
  (∀ o, sets (.walkDivu o) o.d fun w => if yOf w o.b = 0 then .allOnes 64 else yOf w o.a / yOf w o.b) ∧
  (∀ o, sets (.walkRemu o) o.d fun w => if yOf w o.b = 0 then yOf w o.a else yOf w o.a % yOf w o.b) ∧
  (∀ o, sets (.walkAnd o) o.d fun w => yOf w o.a &&& yOf w o.b) ∧
  (∀ o, sets (.walkXor o) o.d fun w => yOf w o.a ^^^ yOf w o.b) ∧
  (∀ o, sets (.walkShli o) o.d fun w => yOf w o.a <<< six o) ∧
  (∀ o, sets (.walkShri o) o.d fun w => yOf w o.a >>> six o) ∧
  (∀ o, sets (.walkHash o) o.d fun w =>
    let h := (yOf w o.a ^^^ (yOf w o.a >>> 31)) * 0x9E6D52C3A1F70B4D + yOf w o.b
    h ^^^ (h >>> 29)) ∧
  (∀ o, sets (.walkMsk o) o.d fun w => walkMask (yOf w o.a) (yOf w o.b)) ∧
  (∀ (a b : Dbl) (j : Nat), (walkMask a b).getLsbD j = true ↔ j < 32 ∧ a.toInt ≤ j ∧ (j : Int) ≤ b.toInt) ∧
  (∀ o s n w t v, Walking s n w → s.walkWord (walkBlock s w) (walkAgent s w) (yOf w o.a + 4 * imm o) = .ok (t, v) →
    exec (.walkLdi o) s = .next (withWalk t n (({ w with y := w.y.set 0 o.d.toNat (.ofNat 64 v) }).goTo (w.wpc + 1)))) ∧
  (∀ o s n w, Walking s n w →
    let last := w.wpc + natBits o.imm.toNat 9 0
    let count := (yOf w o.a).toNat % 2 ^ 32
    ∀ outer, s.bodiesOf (walkBlock s w) (walkAgent s w) w w.wpc w.wpc = .ok outer →
    last < w.len → (∀ x ∈ outer, last ≤ x.2) → outer.length < 4 →
    exec (.walkLoop o) s = .next (withWalk s n (if count = 0 then w.goTo (last + 1) else
      ({ w with loops := { count := count, pass := 0, first := w.wpc + 1, last := last } :: w.loops }).goTo (w.wpc + 1)))) ∧
  (∀ o s n w l, Walking s n w → w.loops[natBits o.imm.toNat 1 0]? = some l →
    exec (.walkLidx o) s = .next (withWalk s n (({ w with y := w.y.set 0 o.d.toNat (.ofNat 64 l.pass) }).goTo (w.wpc + 1)))) ∧
  (∀ o s n w, Walking s n w → yOf w o.a ≠ 0 → exec (.walkBrz o) s = .next (withWalk s n (w.goTo (w.wpc + 1)))) ∧
  (∀ o s n w, Walking s n w → yOf w o.a = 0 → exec (.walkBrnz o) s = .next (withWalk s n (w.goTo (w.wpc + 1)))) ∧
  (∀ o s n w, Walking s n w →
    let p : Int := w.wpc + o.imm.toInt
    let bodies (i : Nat) := s.bodiesOf (walkBlock s w) (walkAgent s w) w i i
    let goes (t : State) : Prop := (yOf w o.a = 0 → exec (.walkBrz o) s = .next t) ∧
      (yOf w o.a ≠ 0 → exec (.walkBrnz o) s = .next t)
    (o.imm = 0 → goes (walkIllegal s n w)) ∧
    (∀ first last r, o.imm ≠ 0 → bodies w.wpc = .ok ((first, last) :: r) →
      goes (if (first : Int) ≤ p ∧ p ≤ last + 1 then withWalk s n (w.goTo p.toNat) else walkIllegal s n w)) ∧
    (o.imm ≠ 0 → bodies w.wpc = .ok [] →
      (p < 0 → goes (walkIllegal s n w)) ∧ ((w.len : Int) ≤ p → goes (walkEnded s n w)) ∧
      (0 ≤ p → p < w.len → ∀ l, bodies p.toNat = .ok l →
        goes (if l = [] then withWalk s n (w.goTo p.toNat) else walkIllegal s n w)))) ∧
  (∀ o, rows (.walkRow o) (fun w => yOf w o.a) (fun w j => yOf w o.b + .ofNat 64 j * imm o) fun _ _ => true) ∧
  (∀ o, rows (.walkRowm o) (fun w => yOf w o.a) (fun w j => yOf w o.b + .ofNat 64 j) fun w j => (yOf w (c o)).getLsbD j) ∧
  (∀ o, rows (.walkRowl o) (fun w => yOf w o.a) (fun w j => w.cols.get 0 j + yOf w o.b) fun w j =>
    (yOf w (c o)).getLsbD j) ∧
  (∀ o, moves (.walkCset o) fun w => { w with cols := w.cols.set 0 ((yOf w o.a).toNat % 32) (yOf w o.b) }) ∧
  (∀ o s n w t cols, Walking s n w →
    s.walkCols (walkBlock s w) (walkAgent s w) (yOf w o.a) 0 32 w.cols = .ok (t, cols) →
    exec (.walkCld o) s = .next (withWalk t n (({ w with cols := cols }).goTo (w.wpc + 1)))) ∧
  moves .walkFlush flushed ∧
  (∀ s n w, Walking s n w → exec .walkEnd s = .next (walkEnded s n w)) ∧
  (∀ (s t : State) n, (s.core n).walker.staged.length ≤ 4 → s.walkTurn n = .next t → (t.core n).walker.staged.length ≤ 4) ∧
  ∀ (w : Walker) (p : Nat),
    (w.loops = [] → w.goTo p = { w with wpc := p }) ∧
    ∀ l r, w.loops = l :: r →
      (p ≠ l.last + 1 → w.goTo p = { w with wpc := p }) ∧
      (p = l.last + 1 → l.pass + 1 < l.count →
        w.goTo p = { w with wpc := l.first, loops := { l with pass := l.pass + 1 } :: r }) ∧
      (p = l.last + 1 → l.count ≤ l.pass + 1 → w.goTo p = ({ w with loops := r }).goTo p)

/-- 03 R87, R90: each policy instruction of an event that has not ended has its effect on the event's registers and the
function's state area, and nothing else changes; LDS, STS and LDV outside their areas are policy faults, which end the
event. -/
def Obligations.PolicyInstructions : Prop :=
  let runs (s : State) (p : PolicyRun) : Prop := s.policy = some p ∧ p.ended = false
  let alu (ins : NpbOp → Instr) (f : NpbOp → Dbl → Dbl → Dbl) : Prop := ∀ o s p, runs s p →
    exec (ins o) s = .next (withPolicy s (policySets p o.d (f o (qOf p o.a) (qOf p o.b))))
  let branch (ins : NpbOp → Instr) (c : Dbl → Dbl → Bool) : Prop := ∀ o s p, runs s p →
    exec (ins o) s =
      .next (withPolicy s (policyAt p (if c (qOf p o.a) (qOf p o.b) then p.pc + o.imm.toNat else p.pc + 1)))
  let imm (o : NpbOp) : Dbl := o.imm.signExtend 64
  let index (o : NpbOp) (p : PolicyRun) : Nat := (qOf p o.a + imm o).toNat
  let faults (s : State) (p : PolicyRun) : State :=
    let f := s.func p.func
    let g := if f.policyFaults + 1 < 16 then { f with policyFaults := f.policyFaults + 1 }
      else { f with policy := none, policyMem := [], policyFaults := 0, override := 0, mbEvt := f.mbEvt ||| 1 }
    withPolicy (s.setFunc p.func g) { p with ended := true, faulted := true }
  alu .npbMovi (fun o _ _ => imm o) ∧
  (∀ o s p, runs s p → exec (.npbMovhi o) s =
    .next (withPolicy s (policySets p o.d (o.imm ++ (qOf p o.d).extractLsb' 0 32)))) ∧
  alu .npbMov (fun _ a _ => a) ∧ alu .npbAdd (fun _ a b => a + b) ∧ alu .npbSub (fun _ a b => a - b) ∧
  alu .npbAddi (fun o a _ => a + imm o) ∧ alu .npbAnd (fun _ a b => a &&& b) ∧ alu .npbOr (fun _ a b => a ||| b) ∧
  alu .npbXor (fun _ a b => a ^^^ b) ∧ alu .npbShl (fun _ a b => a <<< (b.toNat % 64)) ∧
  alu .npbShr (fun _ a b => a >>> (b.toNat % 64)) ∧ alu .npbMul (fun _ a b => a * b) ∧
  alu .npbDivu (fun _ a b => if b = 0 then .allOnes 64 else a / b) ∧
  alu .npbMinu (fun _ a b => if a ≤ b then a else b) ∧ alu .npbMaxu (fun _ a b => if a ≤ b then b else a) ∧
  alu .npbSltu (fun _ a b => if a < b then 1 else 0) ∧
  (∀ o s p, runs s p → exec (.npbLds o) s = .next (if index o p < 512 then
    withPolicy s (policySets p o.d ((s.func p.func).policyMem.get 0 (index o p))) else faults s p)) ∧
  (∀ o s p, runs s p → exec (.npbSts o) s = .next (if index o p < 512 then
    withPolicy (s.setFunc p.func { s.func p.func with
      policyMem := (s.func p.func).policyMem.set 0 (index o p) (qOf p o.b) }) (policyAt p (p.pc + 1)) else faults s p)) ∧
  (∀ o s p, runs s p → exec (.npbLdv o) s = .next (if h : index o p < p.view.length then
    withPolicy s (policySets p o.d p.view[index o p]) else faults s p)) ∧
  branch .npbBeq (fun a b => a == b) ∧ branch .npbBne (fun a b => a != b) ∧ branch .npbBltu (fun a b => decide (a < b)) ∧
  (∀ o s p, runs s p →
    let loop := some (o.d.toNat, natBits o.imm.toNat 6 0, 0, p.pc + 1, p.pc + natBits o.imm.toNat 24 16)
    exec (.npbLoop o) s = .next (withPolicy s { p with q := p.q.set 0 o.d.toNat 0, pc := p.pc + 1, loop := loop })) ∧
  ∀ s p, runs s p → exec .npbRet s = .next (withPolicy s { p with ended := true })

/-! ### The device and its registers (01, 03, 04, 09, 10, 17, 18) -/

/-- 01 R24, R31 to R37; 03 R93 to R96; 18 R417, R418: what bring-up, resets, clocks, the watchdog, firmware commands,
attestation, link and ECC events and the read-back window leave. A restart rebuilds the queues where it cuts off no QCREATE or
QDESTROY; a port comes up where the PF has enabled it (R28, R32); a warm reset keeps the black boxes, but for the CHECK of an
entry written in its own cycle (18 R417). FWSTAGE and ATTEST read once the log has room for what that applies (18 R415). Rests
on the model's choices of logs 3, 7, 45 (the reserved ranges after stage 0x04), 62 (the offsets in DATA of a black-box entry),
72 (an ATTEST that cannot be written returns 2), 74 (an activation that meets the watchdog), 77, 78, 79, 80, 81, 115 (a clock is
not lowered below 0), 116 (ports that the PF enables) and 134 (FWSTAGE and ATTEST read MBARG as they execute). -/
def Obligations.DeviceEvents : Prop :=
  (∀ s c, s.dev.stage.toNat < 5 → s.dev.railsOff = false →
    (s.stageFails c = 0 → ∃ t, exec (.bootStageComplete c) s = .next t ∧ t.dev.stage = s.dev.stage + 1 ∧
      t.dev.haltcode = s.dev.haltcode ∧ t.pf = s.pf ∧ t.funcs = s.funcs ∧ t.queues = s.queues ∧
      t.hbm = (if s.dev.stage = 2 then [] else s.hbm) ∧ t.vaults = (if s.dev.stage = 3 then [] else s.vaults) ∧
      (s.dev.stage = 4 → t.cycle = 0 ∧ t.reserved = Config.bootReserved ∧ t.dev.schedulerUp = true)) ∧
    (s.stageFails c ≠ 0 → ∃ t, exec (.bootStageComplete c) s = .next t ∧
      t.dev = { s.dev with stage := 0xFF, haltcode := BitVec.ofNat 8 (s.stageFails c) } ∧ t.hbm = s.hbm)) ∧
  (∀ s, ∃ t, exec .coldReset s = .next t ∧ t.dev = { State.reset.dev with fuse := s.dev.fuse } ∧ t.pf = State.reset.pf ∧
    t.funcs = [] ∧ t.queues = [] ∧ t.runs = [] ∧ t.blocks = [] ∧ t.teams = [] ∧ t.cores = [] ∧ t.yards = [] ∧ t.hbm = [] ∧
    t.vaults = [] ∧ t.accesses = [] ∧ t.pairs = [] ∧ t.host = s.host ∧ t.remote = s.remote) ∧
  (∀ s, ∃ t, exec .warmReset s = .next t ∧
    t.dev = { State.reset.dev with fuse := s.dev.fuse, boots := s.dev.boots + 1 } ∧ t.pf = State.reset.pf ∧
    t.funcs = [] ∧ t.queues = [] ∧ t.runs = [] ∧ t.blocks = [] ∧ t.teams = [] ∧ t.cores = [] ∧
    ∀ d, d < 4 → (t.yard d).bbox = s.cutEntry d ∧ (s.marks.get 0 (bbMark d) = 0 → (t.yard d).bbox = (s.yard d).bbox) ∧
      (t.yard d).bbox.length = (s.yard d).bbox.length ∧ (t.yard d).bbox.dropLast = (s.yard d).bbox.dropLast ∧
      (t.yard d).bbhead = (s.yard d).bbhead ∧ (t.yard d).mode = 0) ∧
  (∀ s temps, s.dev.railsOff = false →
    let core := (s.yard 0).coreMHz
    let fabric := s.dev.fabricMHz
    let clocks (t : State) (c f : Nat) : Prop :=
      t.dev.fabricMHz = f ∧ ∀ d, d < 4 → (t.yard d).coreMHz = c
    ((∃ x ∈ temps, 100 < x) → ∃ t, exec (.thermalStep temps) s = .next t ∧ clocks t (core - 100) (fabric - 100) ∧
      t.dev.throttling = true) ∧
    ((∀ x ∈ temps, x ≤ 95) → core < 1200 ∨ fabric < 2400 → ∃ t, exec (.thermalStep temps) s = .next t ∧
      clocks t (min 1200 (core + 100)) (min 2400 (fabric + 100)) ∧ t.dev.throttling = false)) ∧
  (∀ s temps, (∃ x ∈ temps, 115 ≤ x) → ∃ t, exec (.thermalTrip temps) s = .next t ∧
    t.dev = { s.dev with railsOff := true } ∧ (t.yard 0).bbhead = (s.yard 0).bbhead + 1) ∧
  (∀ s, s.dev.stage = 5 →
    let cores (t : State) (up : Bool) : Prop := t.dev = { s.dev with schedulerUp := up, nolle := t.dev.nolle } ∧
      ∀ i, 1 ≤ i → i ≤ 7 → t.dev.nolle.get {} i = { mode := .scheduler, up := up }
    (s.dev.schedulerUp = true → ∃ t, exec .watchdogRestart s = .next t ∧ cores t false ∧
      t.queues = s.queues ∧ t.funcs = s.funcs ∧ (t.yard 0).bbhead = (s.yard 0).bbhead + 1) ∧
    (s.dev.schedulerUp = false → ∃ t, exec .watchdogRestart s = .next t ∧ cores t true ∧
      ((∀ f, f < 193 → (s.func f).mbBusy = true → (s.func f).mbCmd ≠ 1 ∧ (s.func f).mbCmd ≠ 2) →
        t.queues = s.queues.map (fun q => (q.1, q.2.rebuild))) ∧ ∀ f, f < 193 →
        (t.func f).mbEvt = (s.func f).mbEvt ||| 2 ∧ (t.func f).mbBusy = false ∧
        ((s.func f).mbBusy = true → (t.func f).mbResult = 0x0008))) ∧
  (∀ s img, s.mbHas 0 0x10 = true →
    let v := s.func 0
    let s1 := s.devReach 0 v.mbArg0.toNat v.mbArg1.toNat
    let f := Config.fwFields img
    s.devRoom 0 v.mbArg0.toNat v.mbArg1.toNat = true → s1.devBytes 0 v.mbArg0.toNat v.mbArg1.toNat = some img →
    ∃ t, exec .fwstage s = .next t ∧ (t.func 0).mbBusy = false ∧
      (if !(Config.fwSigned img && Config.fwDigest img) then t.dev = s1.dev ∧ (t.func 0).mbResult = 4
       else if f.2.2 < s.dev.fuse then t.dev = s1.dev ∧ (t.func 0).mbResult = 5
       else t.dev = { s1.dev with staged := some { ver := f.1, layout := f.2.1, sec := f.2.2, image := img } } ∧
         (t.func 0).mbResult = 0)) ∧
  (∀ s w, s.mbHas 0 0x11 = true → s.dev.staged = none → ∃ t, exec (.fwactivate w) s = .next t ∧ t.dev = s.dev ∧
    (t.func 0).mbBusy = false ∧ (t.func 0).mbResult = 2 ∧ (t.yard 0).bbhead = (s.yard 0).bbhead + 1) ∧
  (∀ s w im, s.mbHas 0 0x11 = true → s.dev.staged = some im → s.saveInProgress = false →
    s.saveBlocks im.layout.toNat = false →
    ∃ t, exec (.fwactivate w) s = .next t ∧ t.dev.schedulerUp = true ∧
      (w = .beforeSwitch → t.dev.fwver = s.dev.fwver ∧ t.dev.staged = some im) ∧
      (w ≠ .beforeSwitch → t.dev.fwver = im.ver ∧ t.dev.savelayout = im.layout ∧ t.dev.secver = im.sec ∧ t.dev.staged = none) ∧
      (w = .none → (t.func 0).mbBusy = false ∧ (t.func 0).mbResult = 0 ∧
        ∀ f, f < 193 → (t.func f).mbEvt = (s.func f).mbEvt ||| 4)) ∧
  (∀ s, s.mbHas 0 0x12 = true → exec .fwfuse s =
    .next (({ s with dev := { s.dev with fuse := max s.dev.fuse s.dev.secver } }).setFunc 0
      { s.func 0 with mbBusy := false, mbCmd := 0, mbResult := 0 })) ∧
  (∀ s b, b.length = 32 → exec (.attest (some b)) s = .next { s with dev := { s.dev with sideband := s.report b } }) ∧
  (∀ s b, s.mbHas 0 0x13 = true →
    let v := s.func 0
    let s1 := s.devReach 0 v.mbArg0.toNat 32
    let r := s1.report b
    let w := s1.devWriteBytes 0 v.mbArg1.toNat r r.length
    s.devRoom 0 v.mbArg0.toNat 32 = true → s1.devBytes 0 v.mbArg0.toNat 32 = some b →
    ∃ t, exec (.attest none) s = .next t ∧ (t.func 0).mbBusy = false ∧
      (if s1.devPagesOk 0 .write v.mbArg1.toNat r.length then t = w.setFunc 0 (t.func 0) ∧ (t.func 0).mbResult = 0
       else t = s1.setFunc 0 (t.func 0) ∧ (t.func 0).mbResult = 2)) ∧
  (∀ s port up cause seqs, port < 16 → (up = true → s.dev.stage = 5 ∧ s.dev.portOn.getLsbD port = true) → ∃ t, exec (.linkReset port up cause seqs) s = .next t ∧
    t.ports = s.ports.set 0 port (if up then 1 else 0) ∧ (t.yard 0).bbhead = (s.yard 0).bbhead + 1) ∧
  (∀ s die struc addr, exec (.uncorrectedEcc die struc addr true) s =
    .next (s.setYard die { s.yard die with corrected := (s.yard die).corrected + 1 })) ∧
  (∀ s die struc addr, die < 4 → ∃ t, exec (.uncorrectedEcc die struc addr false) s = .next t ∧
    t = ({ s with marks := s.marks.set 0 (bbMark die) 1 } : State).setYard die
      { s.yard die with bbox := (t.yard die).bbox, bbhead := (s.yard die).bbhead + 1 } ∧
    ((t.yard die).bbox.getLast?.map fun e => (e.extractLsb' 96 16, e.extractLsb' 128 32, e.extractLsb' 160 64)) =
      some (0x09, BitVec.ofNat 32 struc, addr)) ∧
  (∀ s port, port < 16 → exec (.yardMessageDropped port) s =
    .next { s with dropped := s.dropped.set 0 port (s.dropped.get 0 port + 1) }) ∧
  ∀ s, s.pf.rbctl.getLsbD 31 = true →
    let a := s.pf.rbaddr.toNat
    let r := s.readUnit (natBits a 63 56) (natBits a 55 40) (natBits a 39 6 * 64)
    exec .readback s = .next { s with pf := { s.pf with rbctl := if r.isSome then 0 else 1, rbdata := r.getD 0 } }

/-- 00 R7; 01 R433; 03 R79, R84; 04 R103; 09 R232, R236; 10 R261; 17 R398, R402; 18 R421: writes of registers at stage 0x05, and
what the requests made by registers do; 12 R313: the write that clears PEND of EVTSTAT, which a crossing of its own cycle
outlives. A new root waits for the accesses that use the old one (09 R238); referred walks that an invalidation reaches are
discarded (R236), and translations of reserved HBM leave the TLBs (R230); a region that becomes valid leaves the L1s (10 R265);
flits saved at a cut are delivered once each, in order (17 R403). Rests on the model's choices of logs 21 (an answer to an
atomic whose team does not run is kept), 45 (LOFTHBM resizes its range where it stands), 82, 84 (what an invalidation and a new
root wait for), 85 (a region's entry while PENDING), 90 (CUT asks for saves), 91 (a resume takes back no request) and 92 (the
order of the flits kept at a cut). -/
def Obligations.HostRegisterWrites : Prop :=
  (∀ s p v, s.barsLive = true → p < 40 →
    let o := natBits v.toNat 7 0
    let cur := (s.pf.partown.get 0xFF p).toNat
    (1 ≤ o ∧ o ≤ 192 ∨ o = 255) → o ≠ cur → s.busyOwner cur = false → s.busyOwner o = false →
    exec (.partownWrite 0 p v) s =
      .next { s with pf := { s.pf with partown := s.pf.partown.set 0xFF p (BitVec.ofNat 8 o) } }) ∧
  (∀ who p v s, who ≠ 0 → exec (.partownWrite who p v) s = .next s) ∧
  (∀ s f v, s.barsLive = true → f < 193 →
    let x := s.func f
    let w (o : Nat) : Instr := .quotaWrite 0 (0x4000 + 0x20 * f + o) v
    (s.rangeOk f (natBits v.toNat 14 0) x.queues = true →
      exec (w 0) s = .next (s.setFunc f { x with qbase := v &&& 0x7FFF })) ∧
    (s.rangeOk f (natBits x.qbase.toNat 14 0) (natBits v.toNat 15 0) = true →
      exec (w 4) s = .next (s.setFunc f { x with qcount := v &&& 0xFFFF })) ∧
    (natBits v.toNat 12 0 ≤ 4096 → exec (w 8) s = .next ((s.setFunc f { x with
      dctrs := BitVec.ofNat 32 (natBits v.toNat 12 0), ctr := x.ctr.filter fun e => e.1 < natBits v.toNat 12 0 }).examineAll f)) ∧
    exec (w 0xC) s = .next (s.setFunc f { x with stallq := v }) ∧
    exec (w 0x10) s = .next (s.setFunc f { x with predq := v &&& 0xFFFF }) ∧
    exec (w 0x14) s = .next (s.setFunc f { x with runq := v &&& 0xFFF }) ∧
    exec (w 0x18) s = .next (s.setFunc f { x with weight := v &&& 0xFF })) ∧
  (∀ s d v, s.barsLive = true → d < 4 → (s.yard d).reserved = 0 → natBits v.toNat 16 0 ≤ 65536 →
    let n := natBits v.toNat 16 0
    let u := s.setYard d { s.yard d with lofthbm := BitVec.ofNat 32 n }
    ∃ t, exec (.lofthbmWrite 0 d v) s = .next t ∧ t = { u with
      reserved := s.reserved.map fun r => if r.2.2 = (1, d) then (r.1, n * 2 ^ 20, 1, d) else r
      tlb := t.tlb, walks := t.walks } ∧
    (∀ e, e ∈ t.tlb ↔ e ∈ s.tlb ∧
      ¬ (natBits e.pte.toNat 9 8 = 0 ∧ t.reservedAt (pteFrame e.pte.toNat) (leafSize e.level) = true)) ∧
    ∀ e, e ∈ t.walks ↔ e ∈ s.walks ∧ t.reservedAt (pteFrame e.entry) 4096 = false) ∧
  (∀ s f v, s.barsLive = true → f < 193 → 9 ≤ natBits v.toNat 4 0 → natBits v.toNat 4 0 ≤ 17 →
    let root := v &&& 0x000FFFFFFFFFF11F
    let u : State := { s with tlb := s.tlb.filter fun e => e.func != f, walks := s.walks.filter fun w => w.func != f
                              referrals := s.referrals.map fun (r : Referral) =>
                                if r.mode = 2 ∧ r.func = f then { r with stale := true } else r }
    let used := (∃ a ∈ s.accesses, a.func = f ∧ a.stage = .issued) ∨ ∃ p ∈ s.pairs, p.func = f ∧ p.accepted = false
    (¬ used → exec (.ptrootWrite 0 f v) s = .next (u.setFunc f { s.func f with ptroot := root, newRoot := none })) ∧
    (used → exec (.ptrootWrite 0 f v) s = .next (u.setFunc f { s.func f with newRoot := some root }))) ∧
  (∀ s v, s.barsLive = true → s.pf.invctl.getLsbD 31 = false →
    let first := natBits s.pf.invva.toNat 55 12
    let hit (page : Nat) : Prop := v.getLsbD 30 = true ∨ (first ≤ page ∧ page < first + (natBits v.toNat 29 16 + 1))
    ∃ t, exec (.invalidate 0 v) s = .next t ∧
      t = { s with pf := { s.pf with invctl := v &&& 0xFFFF00FF }, referrals := t.referrals } ∧
      t.referrals.length = s.referrals.length ∧ ∀ (i : Nat) (r : Referral), s.referrals[i]? = some r →
        (v.getLsbD 31 = true ∧ r.mode = 2 ∧ r.func = natBits v.toNat 7 0 ∧ hit (r.arg0.toNat / 4096) →
          t.referrals[i]? = some { r with stale := true }) ∧
        (¬ (v.getLsbD 31 = true ∧ r.mode = 2 ∧ r.func = natBits v.toNat 7 0 ∧ hit (r.arg0.toNat / 4096)) →
          t.referrals[i]? = some r)) ∧
  (∀ s, s.pf.invctl.getLsbD 31 = true → (∀ x ∈ s.funcs, x.2.newRoot = none) →
    let f := natBits s.pf.invctl.toNat 7 0
    let first := natBits s.pf.invva.toNat 55 12
    let hit (page : Nat) : Prop := s.pf.invctl.getLsbD 30 = true ∨
      (first ≤ page ∧ page < first + (natBits s.pf.invctl.toNat 29 16 + 1))
    let used := (∃ a ∈ s.accesses, a.func = f ∧ a.stage = .issued ∧
        hit ((lockPlace (s.agentOf a.team a.lane) a.va.toNat).2 / 4096)) ∨ ∃ p ∈ s.pairs, p.func = f ∧ p.accepted = false
    ∃ t, exec .invalidationComplete s = .next t ∧ t = { s with pf := t.pf, tlb := t.tlb, walks := t.walks } ∧
      (¬ used → t.pf = { s.pf with invctl := s.pf.invctl &&& 0x7FFFFFFF }) ∧ (used → t.pf = s.pf) ∧
      (∀ e, e ∈ t.tlb ↔ e ∈ s.tlb ∧ ¬ (e.func = f ∧ hit e.page)) ∧
      ∀ w, w ∈ t.walks ↔ w ∈ s.walks ∧ ¬ (w.func = f ∧ (s.pf.invctl.getLsbD 30 = true ∨
        overlaps (w.part * 512 ^ (w.level - 1)) (512 ^ (w.level - 1)) first (natBits s.pf.invctl.toNat 29 16 + 1) = true))) ∧
  (∀ s who f i v, s.barsLive = true → f < 193 → (who = 0 ∨ who = f) → i < 256 →
    let x := s.func f
    let r := x.regions.get {} i
    let put (n : Region) : State := s.setFunc f { x with regions := x.regions.set {} i n }
    let put' (n : Region) : State := { put n with l1 := s.l1.filter fun e => !(put n).regionLine (e.word / 16) }
    let w : Dbl := (v &&& 0x8000003FFFFFFFFF) ||| (r.rctl &&& 0x4000000000000000)
    (r.rctl.getLsbD 63 = false → exec (.regionWrite who f (0x1000 + 16 * i) v) s =
      .next (put { r with rbase := v &&& 0x00FFFFFFFFFFFFC0 })) ∧
    (r.rctl.getLsbD 63 = false → v.getLsbD 63 = false → exec (.regionWrite who f (0x1000 + 16 * i + 8) v) s =
      .next (put' { r with rctl := w })) ∧
    (r.rctl.getLsbD 63 = false → v.getLsbD 63 = true → x.regionFits i { r with rctl := w } = true →
      exec (.regionWrite who f (0x1000 + 16 * i + 8) v) s = .next (put' { r with rctl := w })) ∧
    (r.rctl.getLsbD 63 = true → v.getLsbD 63 = false → exec (.regionWrite who f (0x1000 + 16 * i + 8) v) s =
      .next (put { r with rctl := r.rctl ||| (1 <<< 61), next := w }))) ∧
  (∀ s f i,
    let r := (s.func f).regions.get {} i
    r.rctl.getLsbD 61 = true → (∀ p ∈ s.pairs, ¬ (p.func = f ∧ p.region = i ∧ p.accepted = true ∧ p.held = false)) →
    let n : Region := { rbase := r.rbase, rctl := (r.next &&& 0x3FFFFFFFFF) ||| (r.rctl &&& 0x4000000000000000) }
    exec (.regionClearDone f i) s = .next (s.setFunc f { s.func f with regions := (s.func f).regions.set {} i n })) ∧
  (∀ s who v, s.barsLive = true → who < 193 →
    let x := s.func who
    let w : Word := v.setWidth 32
    let sets (off size : Nat) (y : Func) : Prop := exec (.registerWrite who 0 off size v) s = .next (s.setFunc who y)
    sets 0x108 8 { x with mbArg0 := v } ∧ sets 0x110 8 { x with mbArg1 := v } ∧ sets 0x118 8 { x with mbArg2 := v } ∧
    sets 0x120 8 { x with mbArg3 := v } ∧ sets 0x130 4 { x with mbEvt := x.mbEvt &&& ~~~(w &&& 7) } ∧
    sets 0x300 8 { x with zfbase := v &&& 0x00FFFFFFFFFFC000 } ∧ sets 0x308 8 { x with lockTab := v &&& 0x00FFFFFFFFFF8000 } ∧
    sets 0x318 4 { x with evtctl := w } ∧ sets 0x320 8 { x with stopbase := v &&& 0x00FFFFFFFFFFF00F } ∧
    sets 0x328 4 { x with stopctl := w &&& 0x1FF } ∧
    (w.getLsbD 31 = false → exec (.registerWrite who 0 0x31C 4 v) s = .next s) ∧
    (w.getLsbD 31 = true → s.crossings.get 0 (2 * who) = 0 → s.crossings.get 0 (2 * who + 1) = 0 →
      sets 0x31C 4 { x with evtstat := x.evtstat &&& 0x7FFFFFFF }) ∧
    (w.getLsbD 31 = true → s.crossings.get 0 (2 * who) ≠ 0 → exec (.registerWrite who 0 0x31C 4 v) s = .next s) ∧
    (x.mbBusy = false → s.dev.schedulerUp = true → natBits v.toNat 7 0 = 1 →
      sets 0x100 4 { x with mbBusy := true, mbCmd := 1 })) ∧
  (∀ s who bar off size v, s.dev.stage ≠ 5 → exec (.registerWrite who bar off size v) s = .next s) ∧
  (∀ s v r, let s1 := { s with pf := { s.pf with asrval := v } }
    (s.referrals.find? fun r => r.posted && r.rseq == s.pf.asrseq.toNat) = some r →
    exec (.assistReply v) s = .next (State.answer { s1 with referrals := s.referrals.filter fun x => x.rseq != r.rseq } r v)) ∧
  (∀ s rseq r, (s.referrals.find? fun r => r.rseq == rseq) = some r →
    let s1 := { s with referrals := s.referrals.filter fun x => x.rseq != r.rseq }
    (r.mode = 6 → exec (.assistTimeout rseq) s = .next s) ∧
    (r.mode = 0 → exec (.assistTimeout rseq) s = .next (s1.placeAnswer r.obj none)) ∧
    (r.mode = 1 → exec (.assistTimeout rseq) s = .next (s1.pickAnswer r 0)) ∧
    (r.mode = 3 → s1.handlersRun r.obj = true → exec (.assistTimeout rseq) s = .next (s1.defaultStop r.obj r.obj2)) ∧
    (r.mode = 3 → s1.handlersRun r.obj = false → exec (.assistTimeout rseq) s = .next (s1.emuAt r.obj r.obj2 .failed)) ∧
    (r.mode = 4 → exec (.assistTimeout rseq) s = .next (s1.penEmpties r.obj))) ∧
  (∀ s f, exec (.preemptSaveFunction f) s = .next ((s.setFunc f { s.func f with held := true }).requestSave f none)) ∧
  (∀ s f job, exec (.preemptSaveJob f job) s = .next ((s.setFunc f { s.func f with
    heldJobs := job :: (s.func f).heldJobs.filter (· != job) }).requestSave f (some job))) ∧
  (∀ s f, exec (.preemptResumeFunction f) s = .next (s.setFunc f { s.func f with held := false })) ∧
  (∀ s f job, exec (.preemptResumeJob f job) s =
    .next (s.setFunc f { s.func f with heldJobs := (s.func f).heldJobs.filter (· != job) })) ∧
  (∀ s f, SMap.wf s.blocks {} = true → ∃ t, exec (.cut f) s = .next t ∧ (t.func f).cut = true ∧ t.teams = s.teams ∧ t.hbm = s.hbm ∧
    ∀ b, let own := decide ((s.block b).func = f ∧ (s.block b).place = .running)
      t.block b = if own then
        (if (s.block b).preempt then { s.block b with fullSave := true, saveKind := 2 } else { s.block b with preempt := true })
        else s.block b) ∧
  ∀ s f,
    ((s.func f).cut = false → exec (.cutResume f) s = .next s) ∧
    ((s.func f).cut = true →
      let u0 := s.setFunc f { s.func f with cut := false }
      let u : State := { u0 with
        cutFlits := s.cutFlits.filter fun e => e.func != f
        blocks := s.blocks.map fun b =>
          if b.2.func = f && b.2.place == .running then (b.1, { b.2 with preempt := u0.staysPreempted b.1 }) else b }
      let mine := (s.stalls.filter fun e => (s.run (keyRun e.1)).func == f).map (·.1)
      let arrives (u : State) (e : CutFlit) : State := if e.seq ≤ (u.func f).lastFlit then u
        else (u.setFunc f { u.func f with lastFlit := e.seq }).deliver (some f) e.flit
      let u4 := mine.foldl (fun u k => u.serveWaiting (keyRun k) (keyNode k))
        ((s.cutFlits.filter fun e => e.func == f).foldl arrives u)
      exec (.cutResume f) s =
        .next (((u4.runs.filter fun r => r.2.func == f).foldl (fun u r => u.checkRun r.1) u4).examineAll f))

namespace Sys2Proof.Claims
open Sys2Proof Sys2Proof.Machine

/-- Function `f` wins the next take, its pick is queue `q`, and the head of `q` is packet `p`, of the kind that the step names,
in a line that can be reached (18 R415); `u` is the state with VALID of the entry cleared, HEAD one higher and the take counted
(03 R65, R72, R83). -/
def Taking (s : State) (f : Nat) (kind : Packet → Bool) (q : Nat) (p : Packet) (u : State) : Prop :=
  ∃ left s1 e s2, s.winner = some (f, left) ∧ s.pickQueue f = (s1, some q) ∧ s1.headEntry q = some e ∧
    p = Packet.parse e ∧ kind p = true ∧
    let x := s1.queue q
    s1.devRoom f (x.slot x.head) 64 = true ∧ s1.devWrite f (x.slot x.head) 4 (p.hdr &&& 0x7FFFFFFF).toNat = some s2 ∧
    let s3 : State := s2.setFunc f { s2.func f with takes := (s2.func f).takes + 1 }
    let s4 : State := { s3 with arbiter := { s2.arbiter with left := left, next := f + 1 } }
    u = s4.setQueue q { s4.queue q with
      head := x.head + 1, mirrorDue := true, readySince := s4.cycle.toNat, ahead := x.ahead.filter fun a => x.head < a.1,
      taken := x.taken ++ [{ seq := x.head, kind := p.kind, run := 0, completed := false }] }

/-- A port has received a message for function `f`, which is not cut: the message has the next link sequence number (17 R403). -/
def received (s : State) (f : Nat) : State :=
  State.setFunc { s with flits := s.flits + 1 } f { s.func f with lastFlit := s.flits + 1 }

/-- A mailbox command of function `f` has returned: nothing but the mailbox of `f` differs from `u` (03 R84). -/
def Returned (u t : State) (f : Nat) (result : BitVec 16) (detail : Option Dbl) : Prop :=
  t = u.setFunc f { u.func f with mbBusy := false, mbCmd := 0, mbResult := result, mbRes := detail.getD (u.func f).mbRes }

end Sys2Proof.Claims

/-! ### Queues, packets and policies (03; 04) -/

/-- 03 R61 to R79, R83 to R89; 04 R99: doorbells, examination, head mirrors, mailbox commands on queues and policies, the take
of each kind of packet, admission and entry records. A device read waits while it would apply pairs for whose log entries there is
no room, or that a cut keeps, and a CANCEL packet is not taken before its log entry has room (18 R413, R415); at a cut no run is
admitted (17 R402).
Rests on the model's choices of logs 47, 48 (a packet of an unassigned kind is taken as NOP's step takes it), 53 (MBRES keeps its
value), 75 (how a CANCEL packet is logged), 106 (a failed read of an entry record), 111 (POLICYLOAD zeroes the fault count) and 134
(QCREATE, QDESTROY and POLICYLOAD read MBARG as they execute). -/
def Obligations.QueueEvents : Prop :=
  let takes (ins : Nat → Instr) (kind : State → Nat → Packet → Bool) (body : State → Nat → Nat → Nat → Packet → State) : Prop :=
    ∀ s f q p u, Taking s f (kind s f) q p u →
      let seq := (u.queue q).head - 1
      (u.packetOk f p = true → exec (ins f) s = .next ((body u f q seq p).examine q)) ∧
      (u.packetOk f p = false → exec (ins f) s =
        .next (((u.setQueue q { u.queue q with reject := true }).packetEnds q seq p 3 0).examine q))
  let job (p : Packet) : Nat := natBits p.job.toNat 15 0
  (∀ s f j v, s.doorLive f j = true →
    let q := s.queueNo f j
    let x := s.queue q
    (x.err = true → exec (.tailWrite f j v) s = .next s) ∧
    (x.err = false → exec (.tailWrite f j v) s = .next ((s.setQueue q
      (if v.toNat ≤ x.tail then { x with stale := true }
       else if x.head + 2 ^ x.log2 < v.toNat then { x with overrun := true } else { x with tail := v.toNat })).examine q)) ∧
    exec (.doorbellBadWrite f j) s = .next (s.setQueue q { x with baddb := true })) ∧
  (∀ s q, let x := s.queue q
    x.created = true → (x.waitvalid = true ∨ x.blocked = true ∨ x.unread = true) → x.err = false →
    let room := s.devRoom x.owner (x.slot x.head) 64
    let v := (s.devReach x.owner (x.slot x.head) 64).setQueue q { x with unread := false }
    (x.tail ≤ x.head → exec (.queueReexamine q) s = .next
      (s.setQueue q { x with waitvalid := false, blocked := false, takeable := false, unread := false, ahead := [] })) ∧
    (x.head < x.tail → room = false →
      exec (.queueReexamine q) s = .next (s.setQueue q { x with unread := true, takeable := false })) ∧
    (x.head < x.tail → room = true → v.ringEntry q x.head = none → exec (.queueReexamine q) s = .next (v.queueError q)) ∧
    (x.head < x.tail → room = true → ∀ e, v.ringEntry q x.head = some e → e.getLsbD 31 = false →
      exec (.queueReexamine q) s = .next (v.setQueue q
        { x with unread := false, waitvalid := true, blocked := false, takeable := false, ahead := [] })) ∧
    (x.head < x.tail → room = true → ∀ e, v.ringEntry q x.head = some e → e.getLsbD 31 = true →
      let can := v.mayTake q e
      let fresh := can && !x.takeable
      let w := v.setQueue q { x with
        unread := false, waitvalid := false, blocked := true, takeable := can, readySince := if fresh then v.cycle.toNat else x.readySince,
        ahead := mergeAhead x.ahead (v.readAhead q x.head 8) }
      exec (.queueReexamine q) s = .next (if fresh then w.enqueueEvent q e else w))) ∧
  (∀ s q, let x := s.queue q
    x.created = true → x.mirrorDue = true →
    let u := s.setQueue q { x with mirrorDue := false }
    (x.headmir = 0 → exec (.headMirrorWrite q) s = .next u) ∧
    (x.headmir ≠ 0 → ∀ t, u.devWrite x.owner x.headmir.toNat 8 x.head = some t → exec (.headMirrorWrite q) s = .next t)) ∧
  (∀ s f, s.mbHas f 0x01 = true →
    let v := s.func f
    let q := s.queueNo f v.mbArg0.toNat
    let x := s.queue q
    (∀ c, s.qcreateFails f = some c → ∃ t, exec (.qcreate f) s = .next t ∧ Returned s t f 2 (some (BitVec.ofNat 64 c))) ∧
    (s.qcreateFails f = none → x.created = true → ∃ t, exec (.qcreate f) s = .next t ∧ Returned s t f 0 none) ∧
    (s.qcreateFails f = none → x.created = false → ∃ u t, exec (.qcreate f) s = .next t ∧ Returned u t f 0 none ∧
      u = s.setQueue q (u.queue q) ∧
      let y := u.queue q
      y = { created := true, owner := f, ringbase := v.mbArg1, headmir := v.mbArg3, log2 := natBits v.mbArg2.toNat 4 0,
            vector := natBits v.mbArg2.toNat 15 8, copyA := y.copyA, copyB := y.copyB } ∧
      (y.copyA.qstate = 1 ∧ y.copyB = x.copyB ∨ y.copyB.qstate = 1 ∧ y.copyA = x.copyA))) ∧
  (∀ s f, s.mbHas f 0x02 = true →
    let j := (s.func f).mbArg0.toNat
    let q := s.queueNo f j
    ((s.func f).queues ≤ j → ∃ t, exec (.qdestroy f) s = .next t ∧ Returned s t f 2 (some 1)) ∧
    (j < (s.func f).queues → (s.queue q).created = false →
      ∃ t, exec (.qdestroy f) s = .next t ∧ Returned s t f 0 none) ∧
    (j < (s.func f).queues → (s.queue q).created = true → ∃ v u t, exec (.headMirrorWrite q) s = .next v ∧
      exec (.qdestroy f) s = .next t ∧ Returned u t f 0 none ∧ u = v.setQueue q (u.queue q) ∧
      (u.queue q).created = false ∧ (u.queue q).tail = 0 ∧ (u.queue q).taken = [])) ∧
  (∀ s f, s.mbHas f 0x03 = true →
    let a := (s.func f).mbArg0.toNat
    let n := (s.func f).mbArg1.toNat
    let u := s.devReach f a n
    let prog := u.readDoubles f a (n / 8)
    n ≠ 0 → n ≤ 4096 → n % 8 = 0 → s.devRoom f a n = true → s.devPagesOk f .read a n = true →
    (npbCheck prog = none → ∃ t, exec (.policyload f) s = .next t ∧
      Returned (u.setFunc f { u.func f with policy := some prog, policyMem := [], policyFaults := 0 }) t f 0 none) ∧
    (∀ c i, npbCheck prog = some (c, some i) → ∃ t, exec (.policyload f) s = .next t ∧
      Returned u t f 7 (some (BitVec.ofNat 64 (c + i * 2 ^ 16))))) ∧
  (∀ s f, s.dev.schedulerUp = true →
    let n := (s.runs.filter fun r => r.2.func == f && r.2.stage == .admitted).length
    let r := s.policyEvent f 3 [BitVec.ofNat 64 n, BitVec.ofNat 64 (s.func f).useStall, BitVec.ofNat 64 (s.func f).takes]
    exec (.slice f) s = .next (r.1.setFunc f { r.1.func f with
      override := (r.2.map fun d => natBits d.toNat 7 0).getD 0, takes := 0 }) ∧
    ((s.func f).policy = none → exec (.slice f) s = .next (s.setFunc f { s.func f with override := 0, takes := 0 }))) ∧
  (∀ s f q p u g, Taking s f (fun p => p.kind == 0 && s.graphRoom f p.graph.toNat) q p u → u.packetOk f p = true →
    let seq := (u.queue q).head - 1
    let own := (u.queue q).owner
    let det := p.job.getLsbD 16
    let phase := natBits p.phase.toNat 15 0
    let c : State := if (u.liveJob own (job p)).isSome then u else { u with
      ilines := u.ilines.filter fun l => !u.ownsCluster own (clusterOfCore l.core)
      tlines := u.tlines.filter fun l => !u.ownsCluster own l.cluster }
    let v := c.graphReach own p.graph.toNat
    (∀ k, u.liveJob own (job p) = some k → k.det = det) →
    v.runGraph own p = .ok g →
    (∃ n, g.nodes[natBits p.enode.toNat 11 0]? = some n ∧ n.depnode = false) →
    v.overQuota own g = false →
    let jp := (v.joinJob own (job p) det p.graph.toNat g).joinPhase own (job p) phase
    let first := (jp.2.firstWaiting own).isNone
    let r := jp.2.take.1
    let w := jp.2.take.2.setRun r
      { stage := .waiting, func := own, job := job p, phase := phase, unit := jp.1, det := det, queue := q, seq := seq,
        packet := p, graph := g }
    let y := w.setQueue q { w.queue q with
      taken := (w.queue q).taken.map fun t => if t.seq = seq then { t with run := r + 1 } else t }
    exec (.run f) s = .next ((if first && y.chargeFree r then y.admitRun r else y).examine q)) ∧
  (∀ s f q p u, Taking s f (fun p => p.kind == 0 && s.graphRoom f p.graph.toNat) q p u → u.packetOk f p = false →
    exec (.run f) s = .next (((u.setQueue q { u.queue q with reject := true }).packetEnds q ((u.queue q).head - 1) p 3 0).examine q)) ∧
  takes .setctr (fun _ _ p => p.kind == 2) (fun u f q seq p =>
    ((u.setFunc f { u.func f with ctr := (u.func f).ctr.set 0 (natBits p.ctrs.toNat 31 16) p.arg }).packetEnds q seq p 0
      0).examineAll f) ∧
  takes .nopPacket (fun _ _ p => 3 ≤ p.kind) (fun u _ q seq p => u.packetEnds q seq p 0 0) ∧
  takes .cancelPacketPhase (fun s f => s.cancelTaken f 1) (fun u f q seq p =>
    let rs := u.runsOf f (job p) (some (natBits p.phase.toNat 15 0))
    (((u.cancelLog rs 1 (job p + natBits p.phase.toNat 15 0 * 2 ^ 16) 0x3FF).cancelUnits f (job p)
      (some (natBits p.phase.toNat 15 0))).cancelRuns rs).packetEnds q seq p 0 0) ∧
  takes .cancelPacketJob (fun s f => s.cancelTaken f 2) (fun u f q seq p =>
    (((u.cancelLog (u.runsOf f (job p) none) 2 (job p) 0x3FF).cancelUnits f (job p) none).cancelRuns
      (u.runsOf f (job p) none)).packetEnds q seq p 0 0) ∧
  (∀ s f q p u, Taking s f (s.cancelTaken f 0) q p u → u.packetOk f p = true →
    let seq := (u.queue q).head - 1
    let j := natBits p.ecount.toNat 14 0
    let t := u.queue (u.queueNo f j)
    ((u.func f).queues ≤ j ∨ t.created = false ∨ t.owner ≠ f →
      exec (.cancelPacketRun f) s = .next ((u.reject q seq p).examine q)) ∧
    (j < (u.func f).queues → t.created = true → t.owner = f →
      (∀ k ∈ t.taken, k.seq = p.graph.toNat → k.run = 0) →
      exec (.cancelPacketRun f) s = .next ((u.packetEnds q seq p 0 0).examine q)) ∧
    (j < (u.func f).queues → t.created = true → t.owner = f → p.graph.toNat < t.head → ∀ r,
      (t.taken.find? fun k => k.seq == p.graph.toNat && k.run != 0).map (·.run) = some (r + 1) →
      (∀ o, (u.run r).stage ≠ .done o) →
      exec (.cancelPacketRun f) s =
        .next ((((u.cancelLog [r] 0 (u.run r).number 0x3FF).cancelRuns [r]).packetEnds q seq p 0 0).examine q))) ∧
  (∀ s f r, s.firstWaiting f = some r →
    (s.chargeFree r = true → (s.func f).cut = false → exec (.runAdmit f) s = .next (s.admitRun r)) ∧
    (s.chargeFree r = false ∨ (s.func f).cut = true → exec (.runAdmit f) s = .next s)) ∧
  ∀ s r,
    let x := s.run r
    let node := natBits x.packet.enode.toNat 11 0
    let n := s.nodeAt r node
    let k := s.stall r node
    let count := natBits x.packet.ecount.toNat 23 0
    let a := x.packet.entry.toNat + x.appended * n.rsize
    let u := s.devReach x.func a n.rsize
    x.stage = .admitted → x.cancelled = false → x.entryFailed = false → x.appended < count → k.count < n.cap →
    k.waiting = [] → k.group = 0 → (s.func x.func).cut = false → s.logHolds r (x.homeDie node) 1 = false →
    s.segRoom r node = true → s.devRoom x.func a n.rsize = true →
    (u.devPagesOk x.func .read a n.rsize = false →
      let y := (u.setRun r { u.run r with entryFailed := true }).releaseEmitters r
      exec (.entryRecordAppend r) s = .next (State.checkRun { y with
        stalls := y.stalls.map fun e => if keyRun e.1 = r then (e.1, { e.2 with waiting := [] }) else e } r)) ∧
    ∀ v, u.devPagesOk x.func .read a n.rsize = true → u.devRead x.func a n.rsize = some v →
      let w := u.appendEntry r node (BitVec.ofNat 64 (x.appended * 2 ^ 32 + 0xFFF * 2 ^ 16))
        ((List.range (n.rsize / 4)).map fun i => BitVec.ofNat 32 (v / 2 ^ (32 * i))) (appendWho 0x3FF 0)
      let t := w.setRun r { w.run r with appended := x.appended + 1 }
      exec (.entryRecordAppend r) s = .next (if x.appended + 1 = count then t.evalInputs r else t)

/-! ### Yards, blocks and remote records (04; 16; 17; 18) -/

/-- The registers of a team whose watches are lost (10 R274): a lane that waits at a WAITW reads status 2 in its destination,
which is the model's reading (log 128), and every other register is kept. -/
def RegsLosingWatches (T U : Team) : Prop :=
  (∀ L d, L < 64 → (T.lane L).st = .waiting (.watch d) → U.vreg L d = 2) ∧
  ((∀ L d, (T.lane L).st = .waiting (.watch d) → d < 512) →
    ∀ L n, n < 512 → (L < 64 → (T.lane L).st ≠ .waiting (.watch n)) → U.vreg L n = T.vreg L n)

/-- 04 R99, R106 to R115, R119; 05 R124, R130; 17 R384, R390, R398 to R404; 18 R407, R408: records reach their stalls, musters
form blocks, blocks start, are stolen, park, resume, are saved and retire, and a function is reset. Rests on the model's choices
of logs 14 (the clocks that a Yard and a core exchange), 22 (a LOGFULL handler of a team that does not run waits), 57, 58, 61
(the RETIRE entry stands at the die of the block's cluster), 68, 89, 90, 91, 106 (which records are discarded), 112 (where a
parked team's record lies), 126 (what of a resumed block moves with it) and 128. -/
def Obligations.YardAndBlockEvents : Prop :=
  (∀ s em e, (s.emissions.find? fun e => e.id == em) = some e → s.emissionReady e = true →
    let x := s.stall e.run e.node
    let run := s.run e.run
    let d := run.homeDie e.node
    let told : State := (s.tellUnit e.core (yardUnit d)).tellCore (yardUnit d) e.core
    let full := (s.nodeAt e.run e.node).cap ≤ x.count ∨ x.waiting ≠ [] ∨ (s.func run.func).cut = true
    (s.discards e.run e.node = true → exec (.recordAppend em) s = .next ((told.ackEmission e.team 1).acceptEmission e)) ∧
    (s.discards e.run e.node = false → full → ∀ ours : Waiting → Bool,
      (∀ id, ours (.emission id) = s.emissions.any fun o => o.id == id && o.ins == e.ins) →
      (∀ src token, ours (.remote src token) = false) →
      let l := if x.group = 0 then x.waiting ++ [.emission em] else listAfter ours x.waiting (.emission em)
      let u := told.setStall e.run e.node { x with waiting := l, group := s.groupAfter e }
      exec (.recordAppend em) s = .next (State.ackEmission { u with
        emissions := u.emissions.map fun o => if o.id = em then { o with listed := true } else o } e.team 1)) ∧
    (s.discards e.run e.node = false → ¬ full → s.logHolds e.run d 1 = false →
      s.segRoom e.run e.node = true →
      let u := told.setStall e.run e.node { x with group := s.groupAfter e }
      exec (.recordAppend em) s = .next (((u.appendEntry e.run e.node e.entry.hdr e.entry.words
        (appendWho e.core (s.team e.team).index)).acceptEmission e).ackEmission e.team 1))) ∧
  (∀ s r node k, s.musterSize r node = some k → s.logHolds r ((s.run r).homeDie node) 1 = false →
    (∀ e ∈ s.stallsOf ((s.run r).homeDie node), s.mustersNow (keyRun e.1) (keyNode e.1) = true →
      s.musterBefore (stallKey r node) e.1 = true) →
    let x := s.stall r node
    let y : Stall := { x with
      entries := x.entries.drop k, musters := x.musters + 1, expired := false, segs := segPop x.segs k }
    let u := s.setStall r node { y with timer := if y.count = 0 then 0 else s.timerLimit r node }
    let t := ((u.fetchHead r node).formBlock r node x.musters (x.entries.take k)).serveWaiting r node
    exec (.muster r node) s = .next (if (t.stall r node).count = 0 then t.evalInputs r else t)) ∧
  (∀ s r node, s.stallState r node = .gathering → (s.stall r node).timer ≠ 0 →
    exec (.musterTimeout r node) s = .next (s.setStall r node { s.stall r node with expired := true })) ∧
  (∀ s n b, s.oldestBay n = some b → s.resumesFirst n = false → s.savedFirst n = false → s.bestCore b = some n →
    exec (.blockStart n) s = .next (s.startBlock b n false)) ∧
  (∀ s b, (s.block b).place = .bay false → ∃ t, exec (.stealable b) s = .next t ∧
    t.block b = { s.block b with place := .bay true, stealAt := s.fresh + 1 } ∧ t.fresh = s.fresh + 1 ∧
    (∀ c, c ≠ b → t.block c = s.block c) ∧ t.teams = s.teams) ∧
  (∀ s die n b, n / 160 = die → s.coreIdle n = true → s.resumesFirst n = false → s.savedFirst n = false →
    (s.stealQueue n).find? (fun b => s.fits n b) = some b → (∀ h, s.bestCore b = some h → s.oldestBay h ≠ some b) →
    exec (.steal die [n]) s = .next (s.startBlock b n true)) ∧
  (∀ s tn, let T := s.team tn
    let nd := s.nodeOf T.block
    let d := dieOfCore T.core
    T.resident = true → T.stays = false → s.emitWaits tn = true → T.ldc = 0 → T.tlc = 0 → T.cpc = 0 →
    T.filling = [] → s.scPending tn = false →
    s.parkUse d + 4096 + 131072 * nd.accs ≤ 2 ^ 32 → s.overflowUse d + nd.contextSize ≤ 2 ^ 31 →
    ∃ t, exec (.teamPark tn) s = .next t ∧
      (let U := t.team tn
       let watched (L : Nat) : Prop := L < 64 ∧ ∃ d, (T.lane L).st = .waiting (.watch d)
       U = { T with lanes := U.lanes, service := U.service, v := U.v, nonzero := U.nonzero, resident := false, parked := true,
                    parking := false, parkedAt := s.fresh, parkAt := U.parkAt, vback := U.v } ∧
       (∀ L, (U.lane L).watch = .none) ∧
       (∀ L, ¬ watched L → U.lane L = { T.lane L with watch := .none, arrival := (U.lane L).arrival }) ∧
       (∀ L, watched L → (U.lane L).st = .ready) ∧ RegsLosingWatches T U) ∧
      (∀ m, m ≠ tn → t.team m = { s.team m with parkAt := (t.team m).parkAt }) ∧ t.blocks = s.blocks ∧ t.hbm = s.hbm ∧
      t.core T.core = { s.core T.core with
        rcache := (s.core T.core).rcache.filter fun p => p.1 != tn, wbuf := (s.core T.core).wbuf.filter fun w => w.team != tn }) ∧
  (∀ s tn, let T := s.team tn
    s.resumable tn = true → s.resumeFits tn = true → T.overflowed = false →
    (∀ o ∈ s.teams, o.2.core = T.core → o.2.parkedAt < T.parkedAt → s.resumable o.1 = false) →
    ∃ slot ∈ s.freeTeamSlots T.core, exec (.teamResume tn) s =
      .next (((s.setTeam tn { T with parked := false, resident := true, slot := slot }).restoreWalk tn).reenter tn)) ∧
  (∀ s r node, (s.stall r node).probe = true → (s.stall r node).asked = 0 → s.inTransit r node = false →
    (s.func (s.run r).func).cut = false →
    let k := s.stall r node
    (s.inputConds r node = true → exec (.probeQuiet r node) s =
      .next (((s.setStall r node { k with probe := false }).setStall r node { k with probe := false, closed := true }).checkRun r)) ∧
    (s.inputConds r node = false →
      exec (.probeQuiet r node) s = .next ((s.setStall r node { k with probe := false }).evalInputs r))) ∧
  (∀ s b, s.mayRetire b = true → s.nothingInFlight b = true → s.retireLogs b = true → s.retireRoom b = true →
    (s.func (s.block b).func).cut = false → (s.nodeOf b).versioned = false →
    let k := s.block b
    let v := ((s.tellUnit k.core (yardUnit (dieOfCluster k.cluster))).leaveCore b).addEvents b
    let u := v.yardLog k.run (dieOfCluster k.cluster) 0x05 (v.rnm b) k.stop
    let w : State := { u with answers := u.answers.filter fun a => (u.team a.who.team).block != b
                              teams := u.teams.filter fun t => t.2.block != b, blocks := u.blocks.erase b }
    exec (.blockRetire b) s = .next (w.checkRun k.run)) ∧
  (∀ s tn L p, (s.pendingTraps.find? fun p => p.1 == tn && p.2.1 == L) = some p → (s.team tn).resident = true →
    (s.block (s.team tn).block).place = .running →
    let l := (s.team tn).lane L
    let u : State := { s with pendingTraps := s.pendingTraps.filter fun q => !(q.1 == tn && q.2.1 == L) }
    exec (.trapEntry tn L) s = .next (u.takeFault tn L p.2.2 l.pc l.tnext)) ∧
  (∀ s tn L k die, let T := s.team tn
    let l := T.lane L
    l.st = .waiting (.logRoom k die) → tn ∈ (s.block T.block).teams → (s.block T.block).teams.Nodup →
    (s.handlersRun tn = true → ∃ t, exec (.logfullTimeout tn L) s = .next t ∧
      (t.block T.block).place = .retired ∧ (t.block T.block).stop = 1 ∧ ((t.team tn).lane L).st = .exited) ∧
    (s.handlersRun tn = false → exec (.logfullTimeout tn L) s = .next s)) ∧
  (∀ s tn, let T := s.team tn
    let k := s.block T.block
    k.preempt = true → k.place = .running → T.resident = true → T.saved = false → T.ldc = 0 → T.tlc = 0 → T.filling = [] →
    s.scPending tn = false → (∀ p ∈ s.pendingTraps, p.1 ≠ tn) →
    ∃ t, exec (.fullSave tn) s = .next t ∧ (t.team tn).saved = true ∧ (t.team tn).resident = false ∧
      RegsLosingWatches T (t.team tn) ∧ (∀ n, (t.team tn).kreg n = T.kreg n) ∧
      (t.block T.block).fullSave = true ∧ t.hbm = s.hbm) ∧
  (∀ s b n, let k := s.block b
    s.savedReady b = true → (s.nodeOf b).featreq &&& 0x1FFF = (s.nodeOf b).featreq → k.saveLayout = s.dev.savelayout.toNat →
    k.saveBad = false → s.resumeCore b n = true →
    let u := (s.logStart b n (clusterOfCore n != k.cluster) true).seatBlock b n
    let p := (u.block b).vaultPlace
    let size := (s.nodeOf b).vaultb
    let v : State := { u with
      vaults := k.savedVault.foldl (fun m c => Memory.setByte m (p + c.1) c.2) u.vaults
      engines := u.engines.map fun e => if e.block = b then e.moved k.vaultPlace size p else e }
    let w := v.setBlock b { v.block b with
      savedVault := [], fullSave := false, vranges := [], saveKind := 0, stealAt := 0 }
    let x := k.teams.foldl (fun t tn => (t.setTeam tn { t.team tn with
      lanes := (t.team tn).lanes.map fun q => (q.1, q.2.moved k.vaultPlace size p) }).restoreTeam tn n) w
    let y := (x.acquire n).tellCore (yardUnit (dieOfCluster k.cluster)) n
    exec (.savedBlockResume b n) s =
      .next (k.teams.foldl (fun t tn => if (t.team tn).resident then t.reenter tn else t) y)) ∧
  ∀ s f, 1 ≤ f → f ≤ 192 →
    let a := s.setFunc f { s.func f with cut := false, evtctl := 0 }
    let q := s.queues.map fun q => if q.2.owner = f && q.2.created then (q.1, q.2.freed) else q
    let r := s.runs.map fun r => if r.2.func = f then (r.1, { r.2 with packet := r.2.packet.mute }) else r
    let u : State := { a with
      queues := q, cutFlits := s.cutFlits.filter fun e => e.func != f, runs := r
      posted := s.posted.filter fun w => w.func != f || w.kind == PostedKind.run }
    let w := (s.jobs.filter fun j => j.func == f).foldl (fun u j => u.cancelUnits f j.job none) u
    let v := (w.cancelRuns ((r.filter fun r => r.2.func == f).map (·.1))).tearRegions f
    exec (.vfReset f) s = .next (v.setFunc f (v.func f).reset) ∧
    (∀ p ∈ v.pairs, p.func ≠ f)

/-- 04 R116 to R118; 16 R370, R376; 17 R403: reservations are granted, refused or held, records arrive and are acknowledged,
and an emitter without a reply is stopped: to its reservation, or, once every record granted has been sent, to its records (16 R379),
but not during a cut (17 R402).
Rests on the model's choices of logs 59, 87, 88, 92 (how received flits are numbered and kept at a cut) and 113 (which of the records of
a cycle is appended first). -/
def Obligations.RemoteRecords : Prop :=
  (∀ s (m : ReserveMsg) f job,
    (s.gatesFor m.srcAccel m.job = [] →
      exec (.reserve m) s = .next (State.send { s with flits := s.flits + 1 } 0x03 m.srcAccel m.token (bodyWords 0))) ∧
    (s.gatesFor m.srcAccel m.job = [(f, job)] → (s.func f).cut = true →
      exec (.reserve m) s = .next { s with
        flits := s.flits + 1, cutFlits := s.cutFlits ++ [{ func := f, seq := s.flits + 1, flit := .reserve m }] }) ∧
    (s.gatesFor m.srcAccel m.job = [(f, job)] → (s.func f).cut = false →
      let v := received s f
      (s.remoteRun f job m.node = none →
        exec (.reserve m) s = .next (v.send 0x03 m.srcAccel m.token (bodyWords 1))) ∧
      ∀ r, s.remoteRun f job m.node = some r →
        let n := s.nodeAt r m.node
        (n.rsize ≠ 16 * (m.sizem1 + 1) → exec (.reserve m) s = .next (v.send 0x03 m.srcAccel m.token (bodyWords 2))) ∧
        (n.rsize = 16 * (m.sizem1 + 1) → n.depth < m.depth →
          exec (.reserve m) s = .next (v.send 0x03 m.srcAccel m.token (bodyWords 3))) ∧
        (n.rsize = 16 * (m.sizem1 + 1) → m.depth ≤ n.depth → s.discards r m.node = false →
          let x := s.stall r m.node
          let e : RemoteIn :=
            { srcAccel := m.srcAccel, token := m.token, run := r, node := m.node, count := m.count, depth := m.depth,
              granted := 0, records := [], appended := 0 }
          let u : State := { v with remoteIn := s.remoteIn ++ [e] }
          let k : Stall := { x with waiting := x.waiting ++ [.remote m.srcAccel m.token] }
          exec (.reserve m) s = .next ((u.setStall r m.node k).serveWaiting r m.node)))) ∧
  (∀ s token m, s.outgoing token = some m → m.granted = false → (s.func (s.block m.block).func).cut = false →
    let v := received s (s.block m.block).func
    let u : State := { v with
      remoteOut := s.remoteOut.map fun x => if x.token = token then { x with granted := true } else x }
    exec (.grant token) s = .next (u.sendGranted { m with granted := true }) ∧
    ∀ reason, ∃ t, exec (.refuse token reason) s = .next t ∧ t.remoteOut = s.remoteOut.filter (fun x => x.token != token) ∧
      let ls := m.lanes.filter fun L => ((s.team m.team).lane L).st == .waiting (.remote token)
      t.pendingTraps = s.pendingTraps ++ ls.map (fun L => (m.team, L,
        if reason = 3 then { code := 0x0D, info := BitVec.ofNat 32 (m.node + m.depth % 32 * 2 ^ 16) }
        else { code := 0x1A, info := BitVec.ofNat 32 (m.node + m.accel * 2 ^ 12) })) ∧
      ∀ L ∈ ls, L < 64 → ls.Nodup →
        (t.team m.team).lane L = { (s.team m.team).lane L with st := .ready, tnext := nextPc ((s.team m.team).lane L).pc 2 }) ∧
  (∀ s token, (s.outgoing token = none → exec (.hold token) s = .next { s with flits := s.flits + 1 }) ∧
    ∀ m, s.outgoing token = some m → (s.func (s.block m.block).func).cut = false →
      exec (.hold token) s = .next (received s (s.block m.block).func)) ∧
  (∀ s (m : RecordMsg) x, (s.remoteIn.find? fun x => x.srcAccel == m.srcAccel && x.token == m.token) = some x →
    x.count ≤ x.granted → m.index < x.count → (∀ r ∈ x.records, r.1 ≠ m.index) →
    ((s.func (s.run x.run).func).cut = true →
      exec (.record m) s = .next { s with
        flits := s.flits + 1, cutFlits := s.cutFlits ++ [{ func := (s.run x.run).func, seq := s.flits + 1, flit := .record m }] }) ∧
    ((s.func (s.run x.run).func).cut = false →
      let u : State := { received s (s.run x.run).func with remoteIn := s.remoteIn.map fun y =>
        if y.srcAccel = m.srcAccel && y.token = m.token then { y with records := y.records ++ [(m.index, m.words)] } else y }
      exec (.record m) s = .next ((u.appendRemote m.srcAccel m.token x.count).arrivedAll m.srcAccel m.token))) ∧
  (∀ s token count m, s.outgoing token = some m → (∃ T, (m.team, T) ∈ s.teams) →
    (s.func (s.block m.block).func).cut = false → ∃ t, exec (.arrived token count) s = .next t ∧
      { t with remoteOut := [] } =
        { (received s (s.block m.block).func).setTeam m.team
            { s.team m.team with emc := (s.team m.team).emc - count } with remoteOut := [] } ∧
      t.remoteOut = if m.lanes.length ≤ m.arrived + count then s.remoteOut.filter fun x => x.token != token
        else s.remoteOut.map fun x => if x.token = token then { x with arrived := x.arrived + count } else x) ∧
  (∀ s, ∃ msgs, exec .holdTimer s = .next { s with sent := msgs ++ s.sent } ∧ (∀ x ∈ msgs, x.mtype = 0x04) ∧
    ∀ m ∈ s.remoteIn, (m.granted < m.count ∨ (s.func (s.run m.run).func).cut = true) →
      ∃ x ∈ msgs, x.accel = m.srcAccel ∧ x.token = m.token) ∧
  ∀ s token m, s.outgoing token = some m →
    let cut := (s.func (s.block m.block).func).cut
    ((m.granted = true ∧ m.records ≠ []) ∨ cut = true → exec (.remoteTimeout token) s = .next s) ∧
    ((m.granted = false ∨ m.records = []) → cut = false → (s.block m.block).place = .running → (s.block m.block).teams.Nodup →
    ∃ t, exec (.remoteTimeout token) s = .next t ∧ t.remoteOut = s.remoteOut.filter (fun x => x.token != token) ∧
      (t.block m.block).place = .retired ∧ (t.block m.block).stop = 6 ∧
      ∀ k ∈ (s.block m.block).teams, ∀ L, ((t.team k).lane L).st = .exited)

/-! ### Accesses at their homes, engines, caches (05; 06; 10; 11; 14) -/

/-- 10 R243, R245, R257, R258; 11 R277, R278, R283 to R287: an access is performed at its home, its result or its
acknowledgement arrives, pens accept pairs, and SC operations take step 4. Premises of the memory clauses: outside
deterministic mode, no committed pair on the line (10 R265), and for an atomic that its lanes see the same held writes.
Rests on the model's choices of logs 9, 14 (the clocks that a pen and a core exchange), 15 (the clock that FENCE.SC leaves its lanes), 16
(the lanes of an instruction on one address as one group), 71 (when a pair is accepted) and 122 (what a version's lanes learn). -/
def Obligations.HomeEvents : Prop :=
  let performs (x : Nat × Nat) (l : List Access) : List Access :=
    l.map fun y => if y.id = x.1 then { y with stage := .performed (BitVec.ofNat 128 x.2) } else y
  let plain (s : State) (a : Access) : Prop :=
    s.det a.block = false ∧ (∀ p, a.target = .hbm p → s.batch (p / 64) = [])
  let unheard (s : State) (x : Access) : Prop := (s.block x.block).carried x.target x.size = []
  let stored (s t : State) (a : Access) (v : Nat) : Prop :=
    (∀ p, a.target = .hbm p → (s.nodeOf a.block).versioned = false → t.hbm = (s.hbmWrite p a.size v).hbm ∧
      (∀ w, p / 4 ≤ w → w ≤ (p + a.size - 1) / 4 → (t.owners.get {} w).core = a.core + 1) ∧ t.vaults = s.vaults ∧ t.host = s.host) ∧
    (∀ c o, a.target = .vault c o → t.vaults = Memory.write s.vaults (2 ^ 23 * c + o) a.size v ∧ t.hbm = s.hbm ∧
      t.host = s.host) ∧
    (∀ p, a.target = .host p → t.host = Memory.write s.host p a.size v ∧ t.hbm = s.hbm ∧ t.vaults = s.vaults)
  (∀ s id a, (s.accesses.find? fun x => x.id == id) = some a → s.homeLogOk a = true → plain s a → 0 < a.size →
    (∀ o, a.target ≠ .door o) →
    (s.accessReady a = true → a.kind = .store → ∃ t, exec (.homeAccess id) s = .next t ∧ stored s t a a.data.toNat ∧
      t.accesses = s.accesses.map fun (y : Access) => if y.id = id then { y with stage := .performed 0, events := [] } else y) ∧
    (s.accessReady a = true → a.kind = .load → ∃ t, exec (.homeAccess id) s = .next t ∧ t.hbm = s.hbm ∧ t.vaults = s.vaults ∧
      t.host = s.host ∧ (unheard s a → t.teams = s.teams ∧ t.accesses = performs (id, s.homeValue a) s.accesses)) ∧
    (∀ op, a.kind = .atomic op → a.stage = .issued → (∀ x ∈ s.groupOf a, s.accessReady x = true) →
      (∀ x ∈ s.groupOf a, s.homeValue x = s.homeValue a) →
      let r := atomGroup op (8 * a.size) (s.homeValue a) (s.groupOf a)
      ∃ t, exec (.homeAccess id) s = .next t ∧ stored s t a r.2.1 ∧
        ((∀ x ∈ s.groupOf a, unheard s x) → t.accesses = r.1.foldl (fun l x => l.map fun y => if y.id = x.1 then
          { y with stage := .performed (BitVec.ofNat 128 x.2.1), events := x.2.2 } else y) s.accesses))) ∧
  (∀ s id a, (s.accesses.find? fun x => x.id == id) = some a → a.kind = .store → a.stage ≠ .issued →
    let rest := s.accesses.filter fun x => x.id != a.id
    let u : State := { s with accesses := rest }
    let T := s.team a.team
    let counts := (rest.all fun x => x.ins != a.ins) && !(s.engines.any fun e => e.id == a.ins && e.kind == .mxst)
    exec (.acknowledgement id) s =
      .next (State.afterAck (if counts then u.setTeam a.team { T with stc := T.stc - 1 } else u) a.team)) ∧
  (∀ s id a v, (s.accesses.find? fun x => x.id == id) = some a → a.kind ≠ .store → a.stage = .performed v →
    let rest := s.accesses.filter fun x => x.id != a.id
    let u : State := { s with accesses := rest }
    let T := (s.team a.team).setVs a.lane a.dest a.ndest
      (if a.size ≤ 2 ∧ a.sx = true then ((BitVec.ofNat (8 * a.size) v.toNat).signExtend 32).toNat
        else v.toNat % 2 ^ (8 * a.size))
    exec (.loadResult id) s = .next (((u.setTeam a.team
      (if rest.all fun x => x.ins != a.ins then { T with ldc := T.ldc - 1 } else T)).countEvents a.block a.events).afterAck
        a.team)) ∧
  (∀ s id p, (s.pairs.find? fun y => y.id == id) = some p → s.pairReady p = true →
    let v : State := { s with pairs := s.pairs.map fun (x : Pair) => if x.id = id then { x with accepted := true } else x }
    let pen := penUnit (s.penOf p.p)
    let u := (v.tellUnit p.core pen).tellCore pen p.core
    let T := s.team p.team
    exec (.pairAccept id) s = .next (if u.pairs.all fun x => x.ins != p.ins || x.accepted
      then (u.setTeam p.team { T with stc := T.stc - 1 }).afterAck p.team else u)) ∧
  (∀ s e x, (s.scOpen.find? fun y => y.2.2 == e) = some x → x.1 ≤ s.floor →
    (∀ y ∈ s.scOpen, y.2.2 = e ∨ x.1 < y.1 ∨ (x.1 = y.1 ∧ x.2.1 < y.2.1)) →
    let u : State := { s with l1 := s.l1.filter fun w => w.core != x.2.1 || w.owned }
    ((∀ y ∈ s.engines, y.id ≠ e) → exec (.scFloorReached e) s =
      .next { u with accesses := s.accesses.map fun a => if a.ins = e then { a with floored := true } else a }) ∧
    (∀ f, (s.engines.find? fun y => y.id == e) = some f →
      let v := u.setTeam f.team ((s.team f.team).mapLanes f.lanes fun _ l =>
        { l with rel := x.1, fenced := s.covers f.team, know := l.know.join (s.covers f.team) })
      let w : State := { v.learnHeard f.team f.lanes with engines := s.engines.filter fun y => y.id != e }
      exec (.scFloorReached e) s = .next (w.afterAck f.team))) ∧
  ∀ s, ∃ t, exec .floorBroadcast s = .next t ∧ t = { s with floor := t.floor } ∧ s.floor ≤ t.floor ∧
    (s.floor < t.floor → (∀ n, n < 640 → t.floor ≤ s.coreClock n) ∧ (∀ u ∈ fabricUnits, t.floor ≤ s.unitClock u) ∧
      ∀ x ∈ s.scOpen, t.floor ≤ x.1)

/-- 10 R249 to R253, R271, R274; 14 R335, R341; 05 R136; 06 R153: copies start and end, engines complete, a watch times out,
lines arrive and register fills complete. Rests on the model's choices of logs 12 (ZSCAN in two steps, NMV in one), 14 (the
clocks that a fetch of a line exchanges), 25 (a fill drains the write-back buffer first), 33 (the order of NMV's checks), 121
(which lines are fetched ahead) and 126 (engines of a saved block). -/
def Obligations.EngineEvents : Prop :=
  (∀ s n tag, let c := (s.core n).copies.get {} tag
    c.total ≠ 0 → c.started = false → s.lockClear n c.op = true → s.acquireOpen c.team c.lane c.op = false →
    let ag := s.copyAgent c
    let d := boundRange c.dst.toNat c.rows c.rowBytes c.dstStride
    let r := boundRange c.src.toNat c.rows c.rowBytes c.srcStride
    let lap := (lockPlace ag d.1.toNat).1 == (lockPlace ag r.1.toNat).1 &&
      overlaps (lockPlace ag d.1.toNat).2 (d.2 + 1 - d.1).toNat (lockPlace ag r.1.toNat).2 (r.2 + 1 - r.1).toNat
    let x : State × List Byte × Option FaultInfo := if lap then s.copySource c ag 0 c.total else (s, [], none)
    (∀ e, x.2.2 = some e → e.code = 0 → exec (.copyStart n tag) s = .next (s.waitFor ag e)) ∧
    ((∀ e, x.2.2 = some e → e.code ≠ 0) → exec (.copyStart n tag) s = .next (x.1.setCore n { x.1.core n with
      copies := (x.1.core n).copies.set {} tag
        { c with started := true, overlap := lap, buffer := x.2.1, bufferEnd := x.2.2 } }))) ∧
  (∀ s n tag, let c := (s.core n).copies.get {} tag
    c.total ≠ 0 → c.started = true → c.aborted = false → (c.done = c.total ∨ c.failed.isSome = true) →
    let k := s.core n
    let err (e : FaultInfo) : TagError := { tag := tag, code := e.code, cause := e.cause, addr := e.addr }
    let u := s.setCore n { k with
      locks := k.locks.filter fun l => l.op != c.op, tags := k.tags ||| (1 <<< tag), copies := k.copies.erase tag,
      tagErrs := k.tagErrs ++ c.failed.toList.map err }
    let T := s.team c.team
    exec (.copyComplete n tag) s =
      .next (((u.setTeam c.team ({ T with cpc := T.cpc - 1 } : Team).wakeCounters).wakeCore n).blockSaved c.block)) ∧
  (∀ s tn L d, ((s.team tn).lane L).st = .waiting (.watch d) → L < 64 → d < 512 →
    ∃ t, exec (.waitwTimeout tn L) s = .next t ∧ t = s.setTeam tn (t.team tn) ∧ (t.team tn).vreg L d = 1 ∧
      (t.team tn).lane L = { ((s.team tn).lane L).flow (nextPc ((s.team tn).lane L).pc 1) with st := .ready, watch := .none } ∧
      (∀ M, M ≠ L → (t.team tn).lane M = (s.team tn).lane M) ∧
      ∀ M n, M < 64 → n < 512 → ¬ (M = L ∧ n = d) → (t.team tn).vreg M n = (s.team tn).vreg M n) ∧
  (∀ s id e h d early, (s.engines.find? fun x => x.id == id) = some e → e.kind = .zscan h d early → e.aborted = false →
    s.lockClear e.core id = true → s.acquireOpen e.team e.lane e.ins = false →
    let ag := e.agent s
    let zr := (s.func e.func).zflagAddr h.zfi
    let ends (u : State) (status : Word) : Prop :=
      let v := u.endEngine e
      exec (.zscanComplete id) s = .next (((v.setTeam e.team
        (e.lanes.foldl (fun t L => t.setV L d status) (v.team e.team)).wakeCounters).dropAnswers ag.who.team [ag.asks]).blockSaved
        e.block)
    e.id = id →
    (early.isSome = true → ends s 0x100) ∧
    (early = none → ∀ u f, (if e.begun then s.scanRecord e ag h zr else s.recordWrites e ag [(zr + 0x10, 4, 0)]) = (u, f) →
      (f = none → e.begun = false → exec (.zscanComplete id) s =
        .next { u with engines := u.engines.map fun y => if y.id = id then { y with begun := true } else y }) ∧
      (f = none → e.begun = true → ends u 0) ∧
      ∀ x, f = some x → (x.code ≠ 0 → ends u (BitVec.ofNat 32 x.code)) ∧
        (x.code = 0 → exec (.zscanComplete id) s = .next (s.waitFor ag x)))) ∧
  (∀ s id e y x h bc bo yf xf mode sat, (s.engines.find? fun x => x.id == id) = some e →
    e.kind = .nmv y x h bc bo yf xf mode sat → s.lockClear e.core id = true → e.id = id →
    s.acquireOpen e.team e.lane e.ins = false →
    let ag := e.agent s
    let size := (floatFmt xf).width / 8
    let front := ((s.nmvAway e x y).or (s.nmvFront e ag h)).or (nmvRange 1 0 x.toNat (h.cols * size))
    let fails (v : State) (er : NmvError) : Prop :=
      if er.code = 0 then exec (.nmvComplete id) s = .next (s.waitFor ag er.src)
      else exec (.nmvComplete id) s = .next ((v.nmvFinish e bc bo (some er)).dropAnswers ag.who.team [ag.asks])
    (∀ er, front = some er → er.code ≠ 0 → exec (.nmvComplete id) s = .next (s.nmvFinish e bc bo (some er))) ∧
    (∀ er, front = some er → er.code = 0 → exec (.nmvComplete id) s = .next (s.waitFor ag er.src)) ∧
    (front = none → ∀ er, s.nmvVector e ag xf size x.toNat h.cols = .error er → fails s er) ∧
    (front = none → ∀ s1 xs s2 evs err, s.nmvVector e ag xf size x.toNat h.cols = .ok (s1, xs) →
      s1.nmvRows e ag h y.toNat xs yf (.ofHint (BitVec.ofNat 2 mode)) sat 0 h.rows = (s2, evs, err) →
      (err = none → exec (.nmvComplete id) s = .next ((s2.countEvents e.block evs).nmvFinish e bc bo none)) ∧
      ∀ er, err = some er → fails (s2.countEvents e.block evs) er)) ∧
  (∀ s id e, (s.engines.find? fun x => x.id == id) = some e → e.kind = .mxst → (∀ a ∈ s.accesses, a.ins ≠ id) →
    let u := s.endEngine e
    exec (.mxstComplete id) s = .next ((u.setTeam e.team (u.team e.team).wakeCounters).blockSaved e.block)) ∧
  (∀ s tn (va : Dbl) L p, s.teamRuns tn = true →
    ((List.range 64).filter fun L => ((s.team tn).lane L).isReady && (lineOf ((s.team tn).lane L).pc == va ||
      s.fetchAhead tn ((s.team tn).lane L).pc == some va)).head? = some L →
    s.fetchTarget tn L va.toNat = .ok (.hbm p) → s.batch (p / 64) = [] → parityOk (s.lineAt p) = true →
    let line : ILine := { core := (s.team tn).core, func := (s.block (s.team tn).block).func, va := va.toNat, words := s.lineAt p }
    let rest := s.ilines.filter fun l => !(l.core == line.core && l.func == line.func && l.va == line.va)
    exec (.lineFill tn va .none) s = .next { s.callHome (s.team tn).core (.hbm p) with ilines := line :: rest }) ∧
  ∀ s tn, let T := s.team tn
    T.filling ≠ [] → T.resident = true →
    let w := (s.core T.core).wbuf
    let d := if ∃ e ∈ w, e.team = tn ∧ e.group ∈ T.filling then s.drainAll T.core w.length else s
    let u := d.useGroups tn T.filling T.fillFor
    exec (.registerFill tn) s = .next (u.setTeam tn { u.team tn with filling := [], fillFor := [] }) ∧
    ((∀ g ∈ T.filling, g ∈ T.fillFor) → ∀ g ∈ T.filling, (tn, g) ∈ (u.core T.core).rcache)

namespace Sys2Proof.Claims
open Sys2Proof Sys2Proof.Machine

/-- What a step answers after its turn: what follows at once follows, and there is no issue any more (05 R126). -/
def afterTurn (o : Host.Outcome State Fault Refusal) : Host.Outcome State Fault Refusal :=
  match o with
  | .next t => .next { t.settle with cur := none }
  | o => o

end Sys2Proof.Claims

/-! ### Encoding, the step, invariants, reset (01; 05; 06; 15; 03) -/

/-- 06 R157 to R168; 15 R350; 03 R86: decoding the words of any well-formed instruction that has an encoding gives it back, with
every field at every value that the encoding admits. -/
def Obligations.DecodeOfEncode : Prop :=
  ∀ i : Instr, i.enc ≠ .none → i.wf = true → decodeWords i.enc.set (encode i) = some i

/-- 06 R149, R157 to R168: what the main set's decoder accepts is well-formed, and encoding it gives back every bit that it
was read from. -/
def Obligations.EncodeOfDecode : Prop :=
  ∀ w0 w1 w2 i, decodeSlots w0 w1 w2 = some i →
    i.wf = true ∧ ∃ n, slotLen w0 = some n ∧ encode i = [w0, w1, w2].take n

/-- Words that the spec writes out, one or more of each format: what they decode to (06 R157 to R163; 15 R350; 03 R86). -/
def Obligations.DecodedWords : Prop :=
  decodeSlots 0x00C07041 0xC8200000 0x00000000 = some (.addS32 ⟨7, 6, 0, 0, 0, 12808⟩) ∧
  decodeSlots 0x00080840 0x00000000 0x00000000 = some (.sread ⟨2, 1⟩) ∧
  decodeSlots 0x00003782 0x00000000 0x00000100 = some (.lit ⟨⟨3, 0, 0, 0, 0, 0⟩, 256⟩) ∧
  decodeSlots 0x00000004 0x00000000 0x00000000 = some .exit ∧
  decodeSlots 0x808060D9 0x00000180 0x00000000 = some (.shla ⟨6, 4, 2, 3, 0, 0⟩) ∧
  decodeSlots 0x00600305 0xFFE90000 0x00000000 = some (.brnz ⟨0, 3, 0, 0, 1, 16378⟩) ∧
  decodeSlots 0x00806801 0x20400010 0x00000000 = some (.ld ⟨6, 4, 64, 1, 0, 0, 1⟩) ∧
  decodeSlots 0xC0408231 0x00000200 0x00000000 = some (.ffma .f32 ⟨8, 2, 3, 4, 0, 0⟩) ∧
  decodeSlots 0x02001405 0x00001406 0x00000000 = some (.mxmS2p8 ⟨1, 16, 24, 40, 0, 0⟩) ∧
  decodeSlots 0x02000481 0x00040000 0x00000000 = some (.emit ⟨0, 16, 0, 0, 0, 1⟩) ∧
  decodeSlots 0x000007C2 0x00000000 0x00000003 = some (.live ⟨⟨0, 0, 0, 0, 0, 0⟩, 3⟩) ∧
  decodeSlots 0x01814805 0x10C00000 0x00000000 = some (.st ⟨20, 12, 0, 3, 0, 2, 0⟩) ∧
  decodeWalk 0x381C0008 = some (.walkLoop ⟨0, 7, 0, 8⟩) ∧
  decodeNpb 0x0130000000000005 = some (.npbMovi ⟨3, 0, 0, 5⟩) ∧
  decodeSlots 0x00000003 0 0 = none

/-- 05 R126, 06 R154, R165, 15 R352, 03 R87: a step whose turn is a core's issue runs exec of the instruction that stands at the
slot of the path, for the lanes of the path, once its register groups are in the register cache (log 25, DEDUCED), then of the
second of a pair that issues with it (log 24, DEDUCED), and then does the bookkeeping of the issue; a step whose turn is a walk,
a policy event or an event of the device runs exec of the instruction decoded there. Turns of one cycle come in the order that
`inPlace` gives the places of `issuePlace` and `eventPlace` (log 113, DEDUCED); which path is tried first, and what a forced
switch changes, is log 26 (DEDUCED). -/
def Obligations.StepRunsDecoded : Prop :=
  ∀ (s : State) (r : List Turn), s.dev.railsOff = false →
    let u0 : State := { s with stamp := s.stamp + 1, agenda := r }
    (∀ n tn pc ws w i len, s.agenda = .issue n :: r →
      let u := u0.inPlace [issuePlace n]
      (∀ p ∈ s.pendingTraps, (u.team p.1).core = n → u.teamRuns p.1 = false) →
      (((u.issueOrder n).flatMap fun tn => ((u.serviceTurn tn).team tn).service.map fun pc => (tn, pc)).head? = some (tn, pc)) →
      u.pathFree tn pc = true →
      let v := u.serviceTurn tn
      let group := (v.team tn).path pc
      let at' (p : Nat) : Prop := ∃ L rest, group = L :: rest ∧ v.fetchTarget tn L pc.toNat = .ok (.hbm p)
      (∀ L ∈ group, ∃ p, v.fetchTarget tn L pc.toNat = .ok (.hbm p)) →
      (∃ p, at' p ∧ v.fetchWords tn pc p = (w, some ws)) →
      (∀ L ∈ group, entryFault ((v.team tn).lane L) pc ws = none) →
      decodeAt ws (slotOf pc) = some (i, len) →
      let iss : Issue := { team := tn, pc := pc, group := group, len := slotLength ws (slotOf pc), word := ws.getD (slotOf pc) 0 }
      let x := w.setTeam tn ((v.team tn).mapLanes group fun _ l => { l with arrival := .inLine })
      let gs := x.namedGroups tn group i
      x.teamRuns tn = true → x.missing tn gs = [] →
      let y : State := { x.useGroups tn gs gs with cur := some iss }
      (∀ t, exec i y = .next t → t.cur ≠ none →
        let q : State := { t with cur := none }
        (q.pairNext (x.team tn) iss i = none → step s = afterTurn (.next (State.issued v q tn pc group))) ∧
        (∀ iss' k, q.pairNext (x.team tn) iss i = some (iss', k) →
          let gs' := q.namedGroups iss'.team iss'.group k
          let z : State := { q.useGroups iss'.team gs' gs' with cur := some iss' }
          (∀ t', exec k z = .next t' → step s = afterTurn (.next (State.issued v { t' with cur := none } tn pc group))) ∧
          (∀ f, exec k z = .fault f → step s = .fault f) ∧ (∀ f, exec k z = .refused f → step s = .refused f))) ∧
      (∀ f, exec i y = .fault f → step s = .fault f) ∧ (∀ f, exec i y = .refused f → step s = .refused f)) ∧
    (∀ n x word i, s.agenda = .walk n :: r → u0.walkReady n = true →
      let w := (u0.core n).walker
      let u : State := { u0 with cur := some { team := w.owner - 1, pc := 0, group := [], len := 0, word := 0 } }
      w.wpc < w.len → u.walkFetch n = .ok (x, word) → decodeWalk (BitVec.ofNat 32 word) = some i →
      step s = afterTurn (exec i x)) ∧
    (∀ p w i, s.agenda = .policy :: r → s.policy = some p → p.prog[p.pc]? = some w → decodeNpb w = some i →
      step s = afterTurn (exec i u0)) ∧
    ∀ i, s.agenda = .event i :: r → i.enc = .none →
      let u := u0.inPlace (u0.eventPlace i)
      step s = afterTurn (if u.served i then exec i u else .next u)

/-- The memories keep their canonical form in every step: addresses strictly rising, and no entry that equals what an
unlisted address reads as. -/
def Obligations.StepsKeepMemoryForm : Prop :=
  ∀ s t : State, s.memWf = true → step s = .next t → t.memWf = true

/-- The state after reset: its memories are in canonical form, every lane is EXITED and no queue is created (01 R32), and the
registers hold the values that their rules give them (01 R433; 04 R103; 05 R143; 09 R232, R235; 10 R253; 17 R398; 18 R411,
R417, R420).
Rests on the model's choices of log 3, 4. -/
def Obligations.ResetState : Prop :=
  let s := State.reset
  s.memWf = true ∧ s.dev.stage = 0 ∧ s.dev.haltcode = 0 ∧ s.cycle = 0 ∧
  (∀ p, (s.pf.partown.get 0xFF p) = 0xFF) ∧ s.pf.hbmil = .allOnes 64 ∧ s.pf.preempt = 0 ∧ s.pf.forceto = 100 ∧ s.pf.invctl = 0 ∧
  (∀ f, (s.func f).ptroot = 9 ∧ (s.func f).waymask = 0xFFFF ∧ (s.func f).qcount = 0 ∧ (s.func f).weight = 0 ∧
    (s.func f).evtctl = 0 ∧ (s.func f).stopctl = 0 ∧ (s.func f).policy = none ∧ (s.func f).cut = false) ∧
  (∀ d, (s.yard d).cfg = 0x0210104B ∧ (s.yard d).loftl2 = 64 ∧ (s.yard d).lofthbm = 4096 ∧ (s.yard d).mode = 0 ∧
    (s.yard d).ylhead = 0 ∧ (s.yard d).mlhead = 0 ∧ (s.yard d).bbhead = 0 ∧ (s.yard d).coreMHz = 1200) ∧
  (∀ n, (s.core n).tags = .allOnes 64 ∧ (s.core n).blocks = [] ∧ (s.core n).walker.owner = 0) ∧
  (∀ tn L, ((s.team tn).lane L).st = .exited ∧ (s.team tn).fair = 512 ∧ (s.team tn).insns = 0) ∧
  (∀ q, (s.queue q).created = false) ∧ (∀ p, s.hbmByte p = 0) ∧ ∀ a, Memory.byte s.vaults a = 0
end

