-- ==== Sys2Proof/Laws/Store.lean ====
section
/-! SUPPORT. Laws of sparse storage and of byte memories: what a read gives after a write, and that every write keeps the
canonical form. -/
namespace Sys2Proof.Machine

/-! ### Sparse storage -/

theorem SMap.get_erase {α : Type} (m : SMap α) (d : α) (k j : Nat) :
    SMap.get (SMap.erase m k) d j = if j = k then d else SMap.get m d j := by
  induction m with
  | nil => simp [SMap.erase, SMap.get]
  | cons p r ih =>
    obtain ⟨a, v⟩ := p
    by_cases h : a = k
    · subst h
      simp only [SMap.erase, if_pos, ih, SMap.get]
      by_cases hj : j = a
      · simp [hj]
      · simp [hj, Ne.symm hj]
    · simp only [SMap.erase, if_neg h, SMap.get, ih]
      by_cases hj : a = j
      · subst hj; simp [h]
      · simp [hj]

theorem SMap.erase_absent {α : Type} (m : SMap α) (k : Nat) : ∀ p ∈ SMap.erase m k, p.1 ≠ k := by
  induction m with
  | nil => simp [SMap.erase]
  | cons p r ih =>
    obtain ⟨a, v⟩ := p
    by_cases h : a = k
    · simpa [SMap.erase, h] using ih
    · intro q hq
      simp only [SMap.erase, if_neg h, List.mem_cons] at hq
      rcases hq with rfl | hq
      · exact h
      · exact ih q hq

theorem SMap.get_insert {α : Type} (m : SMap α) (d : α) (k j : Nat) (v : α) (h : ∀ p ∈ m, p.1 ≠ k) :
    SMap.get (SMap.insert m k v) d j = if j = k then v else SMap.get m d j := by
  induction m with
  | nil => simp [SMap.insert, SMap.get, eq_comm]
  | cons p r ih =>
    obtain ⟨a, w⟩ := p
    have ha : a ≠ k := h (a, w) List.mem_cons_self
    have hr := ih fun q hq => h q (List.mem_cons_of_mem _ hq)
    simp only [SMap.insert]
    split
    · by_cases hj : j = k
      · simp [SMap.get, hj]
      · simp [SMap.get, hj, Ne.symm hj]
    · simp only [SMap.get, hr]
      by_cases hj : a = j
      · subst hj; simp [ha]
      · simp [hj]

/-- A read after a write: at the key written, the value written; elsewhere, what was there. -/
theorem SMap.get_set {α : Type} [DecidableEq α] (m : SMap α) (d : α) (k j : Nat) (v : α) :
    SMap.get (SMap.set m d k v) d j = if j = k then v else SMap.get m d j := by
  unfold SMap.set
  split
  · next h => rw [SMap.get_erase, h]
  · rw [SMap.get_insert _ _ _ _ _ (SMap.erase_absent m k), SMap.get_erase]
    split <;> simp_all

@[simp] theorem SMap.get_set_self {α : Type} [DecidableEq α] (m : SMap α) (d : α) (k : Nat) (v : α) :
    SMap.get (SMap.set m d k v) d k = v := by simp [SMap.get_set]

theorem SMap.get_set_ne {α : Type} [DecidableEq α] (m : SMap α) (d : α) {k j : Nat} (v : α) (h : j ≠ k) :
    SMap.get (SMap.set m d k v) d j = SMap.get m d j := by simp [SMap.get_set, h]

theorem SMap.erase_of_absent {α : Type} (m : SMap α) (k : Nat) (h : ∀ p ∈ m, p.1 ≠ k) : SMap.erase m k = m := by
  induction m with
  | nil => rfl
  | cons p r ih =>
    obtain ⟨a, v⟩ := p
    rw [SMap.erase, if_neg (h (a, v) List.mem_cons_self), ih fun q hq => h q (List.mem_cons_of_mem _ hq)]

theorem SMap.erase_insert {α : Type} (m : SMap α) (k : Nat) (v : α) (h : ∀ p ∈ m, p.1 ≠ k) :
    SMap.erase (SMap.insert m k v) k = m := by
  induction m with
  | nil => simp [SMap.insert, SMap.erase]
  | cons p r ih =>
    obtain ⟨a, w⟩ := p
    have ha : a ≠ k := h (a, w) List.mem_cons_self
    have hr : ∀ q ∈ r, q.1 ≠ k := fun q hq => h q (List.mem_cons_of_mem _ hq)
    simp only [SMap.insert]
    split
    · simp only [SMap.erase, if_true, if_neg ha, SMap.erase_of_absent r k hr]
    · simp only [SMap.erase, if_neg ha, ih hr]

/-- The last write at a key stands. -/
theorem SMap.set_set {α : Type} [DecidableEq α] (m : SMap α) (d : α) (k : Nat) (v w : α) :
    SMap.set (SMap.set m d k v) d k w = SMap.set m d k w := by
  have h : SMap.erase (SMap.set m d k v) k = SMap.erase m k := by
    unfold SMap.set
    split
    · exact SMap.erase_of_absent _ _ (SMap.erase_absent m k)
    · exact SMap.erase_insert _ _ _ (SMap.erase_absent m k)
  rw [SMap.set, h, SMap.set]

/-- Every key lies above a bound. -/
def SMap.above {α : Type} (m : SMap α) (lo : Option Nat) : Prop := ∀ p ∈ m, ∀ b, lo = some b → b < p.1

theorem SMap.rising_cons {α : Type} (k : Nat) (v : α) (r : SMap α) (lo : Option Nat) :
    SMap.rising ((k, v) :: r) lo = true ↔ (∀ b, lo = some b → b < k) ∧ SMap.rising r (some k) = true := by
  cases lo <;> simp [SMap.rising]

theorem SMap.rising_above {α : Type} (m : SMap α) (lo : Option Nat) (h : m.rising lo = true) : m.above lo := by
  induction m generalizing lo with
  | nil => intro p hp; simp at hp
  | cons q r ih =>
    obtain ⟨k, v⟩ := q
    rw [SMap.rising_cons] at h
    intro p hp b hb
    rcases List.mem_cons.mp hp with rfl | hp
    · exact h.1 b hb
    · exact lt_trans (h.1 b hb) (ih _ h.2 p hp k rfl)

theorem SMap.rising_weaken {α : Type} (m : SMap α) (lo hi : Option Nat) (h : m.rising hi = true)
    (hlo : m.above lo) : m.rising lo = true := by
  cases m with
  | nil => rfl
  | cons q r =>
    obtain ⟨k, v⟩ := q
    rw [SMap.rising_cons] at h ⊢
    exact ⟨fun b hb => hlo (k, v) List.mem_cons_self b hb, h.2⟩

theorem SMap.mem_erase {α : Type} (m : SMap α) (k : Nat) (p : Nat × α) : p ∈ SMap.erase m k → p ∈ m := by
  induction m with
  | nil => simp [SMap.erase]
  | cons q r ih =>
    obtain ⟨a, v⟩ := q
    simp only [SMap.erase]
    split
    · exact fun h => List.mem_cons_of_mem _ (ih h)
    · intro h
      rcases List.mem_cons.mp h with rfl | h
      · exact List.mem_cons_self
      · exact List.mem_cons_of_mem _ (ih h)

theorem SMap.mem_insert {α : Type} (m : SMap α) (k : Nat) (v : α) (p : Nat × α) :
    p ∈ SMap.insert m k v → p = (k, v) ∨ p ∈ m := by
  induction m with
  | nil => simp [SMap.insert]
  | cons q r ih =>
    obtain ⟨a, w⟩ := q
    simp only [SMap.insert]
    split
    · exact fun h => List.mem_cons.mp h
    · intro h
      rcases List.mem_cons.mp h with rfl | h
      · exact .inr List.mem_cons_self
      · exact (ih h).imp id (List.mem_cons_of_mem _)

theorem SMap.rising_erase {α : Type} (m : SMap α) (k : Nat) (lo : Option Nat) (h : m.rising lo = true) :
    (SMap.erase m k).rising lo = true := by
  induction m generalizing lo with
  | nil => rfl
  | cons q r ih =>
    obtain ⟨a, v⟩ := q
    rw [SMap.rising_cons] at h
    simp only [SMap.erase]
    split
    · refine SMap.rising_weaken _ _ _ (ih _ h.2) fun p hp b hb => ?_
      exact lt_trans (h.1 b hb) (SMap.rising_above r _ h.2 p (SMap.mem_erase r k p hp) a rfl)
    · rw [SMap.rising_cons]
      exact ⟨h.1, ih _ h.2⟩

theorem SMap.rising_insert {α : Type} (m : SMap α) (k : Nat) (v : α) (lo : Option Nat) (h : m.rising lo = true)
    (hlo : ∀ b, lo = some b → b < k) (hk : ∀ p ∈ m, p.1 ≠ k) : (SMap.insert m k v).rising lo = true := by
  induction m generalizing lo with
  | nil => rw [SMap.insert, SMap.rising_cons]; exact ⟨hlo, rfl⟩
  | cons q r ih =>
    obtain ⟨a, w⟩ := q
    rw [SMap.rising_cons] at h
    simp only [SMap.insert]
    split
    · next hlt =>
      rw [SMap.rising_cons, SMap.rising_cons]
      exact ⟨hlo, fun b hb => by cases hb; exact hlt, h.2⟩
    · next hge =>
      have ha : a ≠ k := hk (a, w) List.mem_cons_self
      rw [SMap.rising_cons]
      exact ⟨h.1, ih _ h.2 (fun b hb => by cases hb; omega) fun p hp => hk p (List.mem_cons_of_mem _ hp)⟩

/-- A write keeps the canonical form. -/
theorem SMap.set_wf {α : Type} [DecidableEq α] (m : SMap α) (d : α) (k : Nat) (v : α) (h : SMap.wf m d = true) :
    SMap.wf (SMap.set m d k v) d = true := by
  simp only [SMap.wf, Bool.and_eq_true, List.all_eq_true, decide_eq_true_eq] at h ⊢
  unfold SMap.set
  split
  · exact ⟨SMap.rising_erase _ _ _ h.1, fun p hp => h.2 p (SMap.mem_erase _ _ _ hp)⟩
  · next hv =>
    refine ⟨SMap.rising_insert _ _ _ _ (SMap.rising_erase _ _ _ h.1) (by simp) (SMap.erase_absent m k), fun p hp => ?_⟩
    rcases SMap.mem_insert _ _ _ _ hp with rfl | hp
    · exact hv
    · exact h.2 p (SMap.mem_erase _ _ _ hp)

@[simp] theorem SMap.wf_nil {α : Type} [DecidableEq α] (d : α) : SMap.wf ([] : SMap α) d = true := rfl

/-! ### Byte memories -/

theorem Memory.byte_setByte (m : List Host.Cell) (a b : Nat) (v : Byte) :
    Memory.byte (Memory.setByte m a v) b = if b = a then v else Memory.byte m b := SMap.get_set m 0 a b v

@[simp] theorem Memory.byte_setByte_self (m : List Host.Cell) (a : Nat) (v : Byte) :
    Memory.byte (Memory.setByte m a v) a = v := by simp [Memory.byte_setByte]

theorem Memory.setByte_wf (m : List Host.Cell) (a : Nat) (v : Byte) (h : Memory.wf m = true) :
    Memory.wf (Memory.setByte m a v) = true := SMap.set_wf m 0 a v h

/-- A write of `n` bytes keeps the canonical form. -/
theorem Memory.write_wf (m : List Host.Cell) (a n v : Nat) (h : Memory.wf m = true) :
    Memory.wf (Memory.write m a n v) = true := by
  induction n generalizing m a v with
  | zero => exact h
  | succ k ih => exact ih _ _ _ (Memory.setByte_wf m a _ h)

/-- A write of a list of bytes keeps the canonical form. -/
theorem Memory.setBytes_wf (m : List Host.Cell) (a : Nat) (bs : List Byte) (h : Memory.wf m = true) :
    Memory.wf (Memory.setBytes m a bs) = true := by
  induction bs generalizing m a with
  | nil => exact h
  | cons b r ih => exact ih _ _ (Memory.setByte_wf m a _ h)

/-- A write leaves every byte outside its range. -/
theorem Memory.byte_write_outside (m : List Host.Cell) (a n v b : Nat) (h : b < a ∨ a + n ≤ b) :
    Memory.byte (Memory.write m a n v) b = Memory.byte m b := by
  induction n generalizing m a v with
  | zero => rfl
  | succ k ih =>
    rw [Memory.write, ih _ _ _ (by omega), Memory.byte_setByte, if_neg (by omega)]

/-- Byte `i` of what was written. -/
theorem Memory.byte_write_inside (m : List Host.Cell) (a n v i : Nat) (h : i < n) :
    Memory.byte (Memory.write m a n v) (a + i) = BitVec.ofNat 8 (v / 256 ^ i) := by
  induction n generalizing m a v i with
  | zero => omega
  | succ k ih =>
    rw [Memory.write]
    cases i with
    | zero => rw [Memory.byte_write_outside _ _ _ _ _ (by omega)]; simp
    | succ j =>
      rw [show a + (j + 1) = a + 1 + j by omega, ih _ _ _ _ (by omega), Nat.div_div_eq_div_mul,
        ← Nat.pow_succ']

/-- A read of what was written. -/
theorem Memory.read_write (m : List Host.Cell) (a n v : Nat) :
    Memory.read (Memory.write m a n v) a n = v % 256 ^ n := by
  induction n generalizing m a v with
  | zero => simp [Memory.read, Nat.mod_one]
  | succ k ih =>
    rw [Memory.write, Memory.read, ih, Memory.byte_write_outside _ _ _ _ _ (by omega),
      Memory.byte_setByte_self, BitVec.toNat_ofNat, Nat.pow_succ' (m := 256) (n := k), Nat.mod_mul]

end Sys2Proof.Machine
end

