-- ==== Sys2Proof/Laws/State.lean ====
section
/-! SUPPORT. What each update of the state and of a team does to each field: one lemma a field, so that no proof unfolds a
record update. -/
namespace Sys2Proof.Machine

/-! ### Updates of the state -/

@[simp] theorem State.setFunc_agenda (s : State) (n : Nat) (v : Func) : (s.setFunc n v).agenda = s.agenda := rfl
@[simp] theorem State.setFunc_stamp (s : State) (n : Nat) (v : Func) : (s.setFunc n v).stamp = s.stamp := rfl
@[simp] theorem State.setFunc_fresh (s : State) (n : Nat) (v : Func) : (s.setFunc n v).fresh = s.fresh := rfl
@[simp] theorem State.setFunc_marks (s : State) (n : Nat) (v : Func) : (s.setFunc n v).marks = s.marks := rfl
@[simp] theorem State.setFunc_crossings (s : State) (n : Nat) (v : Func) : (s.setFunc n v).crossings = s.crossings := rfl
@[simp] theorem State.setFunc_cycle (s : State) (n : Nat) (v : Func) : (s.setFunc n v).cycle = s.cycle := rfl
@[simp] theorem State.setFunc_floor (s : State) (n : Nat) (v : Func) : (s.setFunc n v).floor = s.floor := rfl
@[simp] theorem State.setFunc_dev (s : State) (n : Nat) (v : Func) : (s.setFunc n v).dev = s.dev := rfl
@[simp] theorem State.setFunc_pf (s : State) (n : Nat) (v : Func) : (s.setFunc n v).pf = s.pf := rfl
@[simp] theorem State.setFunc_queues (s : State) (n : Nat) (v : Func) : (s.setFunc n v).queues = s.queues := rfl
@[simp] theorem State.setFunc_yards (s : State) (n : Nat) (v : Func) : (s.setFunc n v).yards = s.yards := rfl
@[simp] theorem State.setFunc_arbiter (s : State) (n : Nat) (v : Func) : (s.setFunc n v).arbiter = s.arbiter := rfl
@[simp] theorem State.setFunc_jobs (s : State) (n : Nat) (v : Func) : (s.setFunc n v).jobs = s.jobs := rfl
@[simp] theorem State.setFunc_phases (s : State) (n : Nat) (v : Func) : (s.setFunc n v).phases = s.phases := rfl
@[simp] theorem State.setFunc_ended (s : State) (n : Nat) (v : Func) : (s.setFunc n v).ended = s.ended := rfl
@[simp] theorem State.setFunc_runs (s : State) (n : Nat) (v : Func) : (s.setFunc n v).runs = s.runs := rfl
@[simp] theorem State.setFunc_nextRun (s : State) (n : Nat) (v : Func) : (s.setFunc n v).nextRun = s.nextRun := rfl
@[simp] theorem State.setFunc_stalls (s : State) (n : Nat) (v : Func) : (s.setFunc n v).stalls = s.stalls := rfl
@[simp] theorem State.setFunc_blocks (s : State) (n : Nat) (v : Func) : (s.setFunc n v).blocks = s.blocks := rfl
@[simp] theorem State.setFunc_teams (s : State) (n : Nat) (v : Func) : (s.setFunc n v).teams = s.teams := rfl
@[simp] theorem State.setFunc_cores (s : State) (n : Nat) (v : Func) : (s.setFunc n v).cores = s.cores := rfl
@[simp] theorem State.setFunc_hbm (s : State) (n : Nat) (v : Func) : (s.setFunc n v).hbm = s.hbm := rfl
@[simp] theorem State.setFunc_vaults (s : State) (n : Nat) (v : Func) : (s.setFunc n v).vaults = s.vaults := rfl
@[simp] theorem State.setFunc_host (s : State) (n : Nat) (v : Func) : (s.setFunc n v).host = s.host := rfl
@[simp] theorem State.setFunc_remote (s : State) (n : Nat) (v : Func) : (s.setFunc n v).remote = s.remote := rfl
@[simp] theorem State.setFunc_arenas (s : State) (n : Nat) (v : Func) : (s.setFunc n v).arenas = s.arenas := rfl
@[simp] theorem State.setFunc_unsettled (s : State) (n : Nat) (v : Func) : (s.setFunc n v).unsettled = s.unsettled := rfl
@[simp] theorem State.setFunc_gens (s : State) (n : Nat) (v : Func) : (s.setFunc n v).gens = s.gens := rfl
@[simp] theorem State.setFunc_owners (s : State) (n : Nat) (v : Func) : (s.setFunc n v).owners = s.owners := rfl
@[simp] theorem State.setFunc_units (s : State) (n : Nat) (v : Func) : (s.setFunc n v).units = s.units := rfl
@[simp] theorem State.setFunc_l1 (s : State) (n : Nat) (v : Func) : (s.setFunc n v).l1 = s.l1 := rfl
@[simp] theorem State.setFunc_ilines (s : State) (n : Nat) (v : Func) : (s.setFunc n v).ilines = s.ilines := rfl
@[simp] theorem State.setFunc_tlines (s : State) (n : Nat) (v : Func) : (s.setFunc n v).tlines = s.tlines := rfl
@[simp] theorem State.setFunc_tlb (s : State) (n : Nat) (v : Func) : (s.setFunc n v).tlb = s.tlb := rfl
@[simp] theorem State.setFunc_walks (s : State) (n : Nat) (v : Func) : (s.setFunc n v).walks = s.walks := rfl
@[simp] theorem State.setFunc_answers (s : State) (n : Nat) (v : Func) : (s.setFunc n v).answers = s.answers := rfl
@[simp] theorem State.setFunc_reserved (s : State) (n : Nat) (v : Func) : (s.setFunc n v).reserved = s.reserved := rfl
@[simp] theorem State.setFunc_accesses (s : State) (n : Nat) (v : Func) : (s.setFunc n v).accesses = s.accesses := rfl
@[simp] theorem State.setFunc_pairs (s : State) (n : Nat) (v : Func) : (s.setFunc n v).pairs = s.pairs := rfl
@[simp] theorem State.setFunc_engines (s : State) (n : Nat) (v : Func) : (s.setFunc n v).engines = s.engines := rfl
@[simp] theorem State.setFunc_emissions (s : State) (n : Nat) (v : Func) : (s.setFunc n v).emissions = s.emissions := rfl
@[simp] theorem State.setFunc_remoteOut (s : State) (n : Nat) (v : Func) : (s.setFunc n v).remoteOut = s.remoteOut := rfl
@[simp] theorem State.setFunc_remoteIn (s : State) (n : Nat) (v : Func) : (s.setFunc n v).remoteIn = s.remoteIn := rfl
@[simp] theorem State.setFunc_sent (s : State) (n : Nat) (v : Func) : (s.setFunc n v).sent = s.sent := rfl
@[simp] theorem State.setFunc_flits (s : State) (n : Nat) (v : Func) : (s.setFunc n v).flits = s.flits := rfl
@[simp] theorem State.setFunc_cutFlits (s : State) (n : Nat) (v : Func) : (s.setFunc n v).cutFlits = s.cutFlits := rfl
@[simp] theorem State.setFunc_pendingTraps (s : State) (n : Nat) (v : Func) : (s.setFunc n v).pendingTraps = s.pendingTraps := rfl
@[simp] theorem State.setFunc_referrals (s : State) (n : Nat) (v : Func) : (s.setFunc n v).referrals = s.referrals := rfl
@[simp] theorem State.setFunc_nextReferral (s : State) (n : Nat) (v : Func) : (s.setFunc n v).nextReferral = s.nextReferral := rfl
@[simp] theorem State.setFunc_policy (s : State) (n : Nat) (v : Func) : (s.setFunc n v).policy = s.policy := rfl
@[simp] theorem State.setFunc_ports (s : State) (n : Nat) (v : Func) : (s.setFunc n v).ports = s.ports := rfl
@[simp] theorem State.setFunc_dropped (s : State) (n : Nat) (v : Func) : (s.setFunc n v).dropped = s.dropped := rfl
@[simp] theorem State.setFunc_posted (s : State) (n : Nat) (v : Func) : (s.setFunc n v).posted = s.posted := rfl
@[simp] theorem State.setFunc_raised (s : State) (n : Nat) (v : Func) : (s.setFunc n v).raised = s.raised := rfl
@[simp] theorem State.setFunc_cur (s : State) (n : Nat) (v : Func) : (s.setFunc n v).cur = s.cur := rfl
@[simp] theorem State.func_setFunc_self (s : State) (n : Nat) (v : Func) : (s.setFunc n v).func n = v :=
  SMap.get_set_self _ _ _ _
theorem State.func_setFunc (s : State) (n m : Nat) (v : Func) : (s.setFunc n v).func m = if m = n then v else s.func m :=
  SMap.get_set _ _ _ _ _
theorem State.func_setFunc_ne (s : State) {n m : Nat} (v : Func) (h : m ≠ n) : (s.setFunc n v).func m = s.func m :=
  SMap.get_set_ne _ _ _ h
@[simp] theorem State.setFunc_setFunc (s : State) (n : Nat) (v w : Func) : (s.setFunc n v).setFunc n w = s.setFunc n w := by
  simp [State.setFunc, SMap.set_set]
@[simp] theorem State.queue_setFunc (s : State) (n m : Nat) (v : Func) : (s.setFunc n v).queue m = s.queue m := rfl
@[simp] theorem State.yard_setFunc (s : State) (n m : Nat) (v : Func) : (s.setFunc n v).yard m = s.yard m := rfl
@[simp] theorem State.run_setFunc (s : State) (n m : Nat) (v : Func) : (s.setFunc n v).run m = s.run m := rfl
@[simp] theorem State.block_setFunc (s : State) (n m : Nat) (v : Func) : (s.setFunc n v).block m = s.block m := rfl
@[simp] theorem State.team_setFunc (s : State) (n m : Nat) (v : Func) : (s.setFunc n v).team m = s.team m := rfl
@[simp] theorem State.core_setFunc (s : State) (n m : Nat) (v : Func) : (s.setFunc n v).core m = s.core m := rfl
@[simp] theorem State.nodeOf_setFunc (s : State) (n m : Nat) (v : Func) : (s.setFunc n v).nodeOf m = s.nodeOf m := rfl
@[simp] theorem State.setQueue_agenda (s : State) (n : Nat) (v : Queue) : (s.setQueue n v).agenda = s.agenda := rfl
@[simp] theorem State.setQueue_stamp (s : State) (n : Nat) (v : Queue) : (s.setQueue n v).stamp = s.stamp := rfl
@[simp] theorem State.setQueue_fresh (s : State) (n : Nat) (v : Queue) : (s.setQueue n v).fresh = s.fresh := rfl
@[simp] theorem State.setQueue_marks (s : State) (n : Nat) (v : Queue) : (s.setQueue n v).marks = s.marks := rfl
@[simp] theorem State.setQueue_crossings (s : State) (n : Nat) (v : Queue) : (s.setQueue n v).crossings = s.crossings := rfl
@[simp] theorem State.setQueue_cycle (s : State) (n : Nat) (v : Queue) : (s.setQueue n v).cycle = s.cycle := rfl
@[simp] theorem State.setQueue_floor (s : State) (n : Nat) (v : Queue) : (s.setQueue n v).floor = s.floor := rfl
@[simp] theorem State.setQueue_dev (s : State) (n : Nat) (v : Queue) : (s.setQueue n v).dev = s.dev := rfl
@[simp] theorem State.setQueue_pf (s : State) (n : Nat) (v : Queue) : (s.setQueue n v).pf = s.pf := rfl
@[simp] theorem State.setQueue_funcs (s : State) (n : Nat) (v : Queue) : (s.setQueue n v).funcs = s.funcs := rfl
@[simp] theorem State.setQueue_yards (s : State) (n : Nat) (v : Queue) : (s.setQueue n v).yards = s.yards := rfl
@[simp] theorem State.setQueue_arbiter (s : State) (n : Nat) (v : Queue) : (s.setQueue n v).arbiter = s.arbiter := rfl
@[simp] theorem State.setQueue_jobs (s : State) (n : Nat) (v : Queue) : (s.setQueue n v).jobs = s.jobs := rfl
@[simp] theorem State.setQueue_phases (s : State) (n : Nat) (v : Queue) : (s.setQueue n v).phases = s.phases := rfl
@[simp] theorem State.setQueue_ended (s : State) (n : Nat) (v : Queue) : (s.setQueue n v).ended = s.ended := rfl
@[simp] theorem State.setQueue_runs (s : State) (n : Nat) (v : Queue) : (s.setQueue n v).runs = s.runs := rfl
@[simp] theorem State.setQueue_nextRun (s : State) (n : Nat) (v : Queue) : (s.setQueue n v).nextRun = s.nextRun := rfl
@[simp] theorem State.setQueue_stalls (s : State) (n : Nat) (v : Queue) : (s.setQueue n v).stalls = s.stalls := rfl
@[simp] theorem State.setQueue_blocks (s : State) (n : Nat) (v : Queue) : (s.setQueue n v).blocks = s.blocks := rfl
@[simp] theorem State.setQueue_teams (s : State) (n : Nat) (v : Queue) : (s.setQueue n v).teams = s.teams := rfl
@[simp] theorem State.setQueue_cores (s : State) (n : Nat) (v : Queue) : (s.setQueue n v).cores = s.cores := rfl
@[simp] theorem State.setQueue_hbm (s : State) (n : Nat) (v : Queue) : (s.setQueue n v).hbm = s.hbm := rfl
@[simp] theorem State.setQueue_vaults (s : State) (n : Nat) (v : Queue) : (s.setQueue n v).vaults = s.vaults := rfl
@[simp] theorem State.setQueue_host (s : State) (n : Nat) (v : Queue) : (s.setQueue n v).host = s.host := rfl
@[simp] theorem State.setQueue_remote (s : State) (n : Nat) (v : Queue) : (s.setQueue n v).remote = s.remote := rfl
@[simp] theorem State.setQueue_arenas (s : State) (n : Nat) (v : Queue) : (s.setQueue n v).arenas = s.arenas := rfl
@[simp] theorem State.setQueue_unsettled (s : State) (n : Nat) (v : Queue) : (s.setQueue n v).unsettled = s.unsettled := rfl
@[simp] theorem State.setQueue_gens (s : State) (n : Nat) (v : Queue) : (s.setQueue n v).gens = s.gens := rfl
@[simp] theorem State.setQueue_owners (s : State) (n : Nat) (v : Queue) : (s.setQueue n v).owners = s.owners := rfl
@[simp] theorem State.setQueue_units (s : State) (n : Nat) (v : Queue) : (s.setQueue n v).units = s.units := rfl
@[simp] theorem State.setQueue_l1 (s : State) (n : Nat) (v : Queue) : (s.setQueue n v).l1 = s.l1 := rfl
@[simp] theorem State.setQueue_ilines (s : State) (n : Nat) (v : Queue) : (s.setQueue n v).ilines = s.ilines := rfl
@[simp] theorem State.setQueue_tlines (s : State) (n : Nat) (v : Queue) : (s.setQueue n v).tlines = s.tlines := rfl
@[simp] theorem State.setQueue_tlb (s : State) (n : Nat) (v : Queue) : (s.setQueue n v).tlb = s.tlb := rfl
@[simp] theorem State.setQueue_walks (s : State) (n : Nat) (v : Queue) : (s.setQueue n v).walks = s.walks := rfl
@[simp] theorem State.setQueue_answers (s : State) (n : Nat) (v : Queue) : (s.setQueue n v).answers = s.answers := rfl
@[simp] theorem State.setQueue_reserved (s : State) (n : Nat) (v : Queue) : (s.setQueue n v).reserved = s.reserved := rfl
@[simp] theorem State.setQueue_accesses (s : State) (n : Nat) (v : Queue) : (s.setQueue n v).accesses = s.accesses := rfl
@[simp] theorem State.setQueue_pairs (s : State) (n : Nat) (v : Queue) : (s.setQueue n v).pairs = s.pairs := rfl
@[simp] theorem State.setQueue_engines (s : State) (n : Nat) (v : Queue) : (s.setQueue n v).engines = s.engines := rfl
@[simp] theorem State.setQueue_emissions (s : State) (n : Nat) (v : Queue) : (s.setQueue n v).emissions = s.emissions := rfl
@[simp] theorem State.setQueue_remoteOut (s : State) (n : Nat) (v : Queue) : (s.setQueue n v).remoteOut = s.remoteOut := rfl
@[simp] theorem State.setQueue_remoteIn (s : State) (n : Nat) (v : Queue) : (s.setQueue n v).remoteIn = s.remoteIn := rfl
@[simp] theorem State.setQueue_sent (s : State) (n : Nat) (v : Queue) : (s.setQueue n v).sent = s.sent := rfl
@[simp] theorem State.setQueue_flits (s : State) (n : Nat) (v : Queue) : (s.setQueue n v).flits = s.flits := rfl
@[simp] theorem State.setQueue_cutFlits (s : State) (n : Nat) (v : Queue) : (s.setQueue n v).cutFlits = s.cutFlits := rfl
@[simp] theorem State.setQueue_pendingTraps (s : State) (n : Nat) (v : Queue) : (s.setQueue n v).pendingTraps = s.pendingTraps := rfl
@[simp] theorem State.setQueue_referrals (s : State) (n : Nat) (v : Queue) : (s.setQueue n v).referrals = s.referrals := rfl
@[simp] theorem State.setQueue_nextReferral (s : State) (n : Nat) (v : Queue) : (s.setQueue n v).nextReferral = s.nextReferral := rfl
@[simp] theorem State.setQueue_policy (s : State) (n : Nat) (v : Queue) : (s.setQueue n v).policy = s.policy := rfl
@[simp] theorem State.setQueue_ports (s : State) (n : Nat) (v : Queue) : (s.setQueue n v).ports = s.ports := rfl
@[simp] theorem State.setQueue_dropped (s : State) (n : Nat) (v : Queue) : (s.setQueue n v).dropped = s.dropped := rfl
@[simp] theorem State.setQueue_posted (s : State) (n : Nat) (v : Queue) : (s.setQueue n v).posted = s.posted := rfl
@[simp] theorem State.setQueue_raised (s : State) (n : Nat) (v : Queue) : (s.setQueue n v).raised = s.raised := rfl
@[simp] theorem State.setQueue_cur (s : State) (n : Nat) (v : Queue) : (s.setQueue n v).cur = s.cur := rfl
@[simp] theorem State.queue_setQueue_self (s : State) (n : Nat) (v : Queue) : (s.setQueue n v).queue n = v :=
  SMap.get_set_self _ _ _ _
theorem State.queue_setQueue (s : State) (n m : Nat) (v : Queue) : (s.setQueue n v).queue m = if m = n then v else s.queue m :=
  SMap.get_set _ _ _ _ _
theorem State.queue_setQueue_ne (s : State) {n m : Nat} (v : Queue) (h : m ≠ n) : (s.setQueue n v).queue m = s.queue m :=
  SMap.get_set_ne _ _ _ h
@[simp] theorem State.setQueue_setQueue (s : State) (n : Nat) (v w : Queue) : (s.setQueue n v).setQueue n w = s.setQueue n w := by
  simp [State.setQueue, SMap.set_set]
@[simp] theorem State.func_setQueue (s : State) (n m : Nat) (v : Queue) : (s.setQueue n v).func m = s.func m := rfl
@[simp] theorem State.yard_setQueue (s : State) (n m : Nat) (v : Queue) : (s.setQueue n v).yard m = s.yard m := rfl
@[simp] theorem State.run_setQueue (s : State) (n m : Nat) (v : Queue) : (s.setQueue n v).run m = s.run m := rfl
@[simp] theorem State.block_setQueue (s : State) (n m : Nat) (v : Queue) : (s.setQueue n v).block m = s.block m := rfl
@[simp] theorem State.team_setQueue (s : State) (n m : Nat) (v : Queue) : (s.setQueue n v).team m = s.team m := rfl
@[simp] theorem State.core_setQueue (s : State) (n m : Nat) (v : Queue) : (s.setQueue n v).core m = s.core m := rfl
@[simp] theorem State.nodeOf_setQueue (s : State) (n m : Nat) (v : Queue) : (s.setQueue n v).nodeOf m = s.nodeOf m := rfl
@[simp] theorem State.setYard_agenda (s : State) (n : Nat) (v : Yard) : (s.setYard n v).agenda = s.agenda := rfl
@[simp] theorem State.setYard_stamp (s : State) (n : Nat) (v : Yard) : (s.setYard n v).stamp = s.stamp := rfl
@[simp] theorem State.setYard_fresh (s : State) (n : Nat) (v : Yard) : (s.setYard n v).fresh = s.fresh := rfl
@[simp] theorem State.setYard_marks (s : State) (n : Nat) (v : Yard) : (s.setYard n v).marks = s.marks := rfl
@[simp] theorem State.setYard_crossings (s : State) (n : Nat) (v : Yard) : (s.setYard n v).crossings = s.crossings := rfl
@[simp] theorem State.setYard_cycle (s : State) (n : Nat) (v : Yard) : (s.setYard n v).cycle = s.cycle := rfl
@[simp] theorem State.setYard_floor (s : State) (n : Nat) (v : Yard) : (s.setYard n v).floor = s.floor := rfl
@[simp] theorem State.setYard_dev (s : State) (n : Nat) (v : Yard) : (s.setYard n v).dev = s.dev := rfl
@[simp] theorem State.setYard_pf (s : State) (n : Nat) (v : Yard) : (s.setYard n v).pf = s.pf := rfl
@[simp] theorem State.setYard_funcs (s : State) (n : Nat) (v : Yard) : (s.setYard n v).funcs = s.funcs := rfl
@[simp] theorem State.setYard_queues (s : State) (n : Nat) (v : Yard) : (s.setYard n v).queues = s.queues := rfl
@[simp] theorem State.setYard_arbiter (s : State) (n : Nat) (v : Yard) : (s.setYard n v).arbiter = s.arbiter := rfl
@[simp] theorem State.setYard_jobs (s : State) (n : Nat) (v : Yard) : (s.setYard n v).jobs = s.jobs := rfl
@[simp] theorem State.setYard_phases (s : State) (n : Nat) (v : Yard) : (s.setYard n v).phases = s.phases := rfl
@[simp] theorem State.setYard_ended (s : State) (n : Nat) (v : Yard) : (s.setYard n v).ended = s.ended := rfl
@[simp] theorem State.setYard_runs (s : State) (n : Nat) (v : Yard) : (s.setYard n v).runs = s.runs := rfl
@[simp] theorem State.setYard_nextRun (s : State) (n : Nat) (v : Yard) : (s.setYard n v).nextRun = s.nextRun := rfl
@[simp] theorem State.setYard_stalls (s : State) (n : Nat) (v : Yard) : (s.setYard n v).stalls = s.stalls := rfl
@[simp] theorem State.setYard_blocks (s : State) (n : Nat) (v : Yard) : (s.setYard n v).blocks = s.blocks := rfl
@[simp] theorem State.setYard_teams (s : State) (n : Nat) (v : Yard) : (s.setYard n v).teams = s.teams := rfl
@[simp] theorem State.setYard_cores (s : State) (n : Nat) (v : Yard) : (s.setYard n v).cores = s.cores := rfl
@[simp] theorem State.setYard_hbm (s : State) (n : Nat) (v : Yard) : (s.setYard n v).hbm = s.hbm := rfl
@[simp] theorem State.setYard_vaults (s : State) (n : Nat) (v : Yard) : (s.setYard n v).vaults = s.vaults := rfl
@[simp] theorem State.setYard_host (s : State) (n : Nat) (v : Yard) : (s.setYard n v).host = s.host := rfl
@[simp] theorem State.setYard_remote (s : State) (n : Nat) (v : Yard) : (s.setYard n v).remote = s.remote := rfl
@[simp] theorem State.setYard_arenas (s : State) (n : Nat) (v : Yard) : (s.setYard n v).arenas = s.arenas := rfl
@[simp] theorem State.setYard_unsettled (s : State) (n : Nat) (v : Yard) : (s.setYard n v).unsettled = s.unsettled := rfl
@[simp] theorem State.setYard_gens (s : State) (n : Nat) (v : Yard) : (s.setYard n v).gens = s.gens := rfl
@[simp] theorem State.setYard_owners (s : State) (n : Nat) (v : Yard) : (s.setYard n v).owners = s.owners := rfl
@[simp] theorem State.setYard_units (s : State) (n : Nat) (v : Yard) : (s.setYard n v).units = s.units := rfl
@[simp] theorem State.setYard_l1 (s : State) (n : Nat) (v : Yard) : (s.setYard n v).l1 = s.l1 := rfl
@[simp] theorem State.setYard_ilines (s : State) (n : Nat) (v : Yard) : (s.setYard n v).ilines = s.ilines := rfl
@[simp] theorem State.setYard_tlines (s : State) (n : Nat) (v : Yard) : (s.setYard n v).tlines = s.tlines := rfl
@[simp] theorem State.setYard_tlb (s : State) (n : Nat) (v : Yard) : (s.setYard n v).tlb = s.tlb := rfl
@[simp] theorem State.setYard_walks (s : State) (n : Nat) (v : Yard) : (s.setYard n v).walks = s.walks := rfl
@[simp] theorem State.setYard_answers (s : State) (n : Nat) (v : Yard) : (s.setYard n v).answers = s.answers := rfl
@[simp] theorem State.setYard_reserved (s : State) (n : Nat) (v : Yard) : (s.setYard n v).reserved = s.reserved := rfl
@[simp] theorem State.setYard_accesses (s : State) (n : Nat) (v : Yard) : (s.setYard n v).accesses = s.accesses := rfl
@[simp] theorem State.setYard_pairs (s : State) (n : Nat) (v : Yard) : (s.setYard n v).pairs = s.pairs := rfl
@[simp] theorem State.setYard_engines (s : State) (n : Nat) (v : Yard) : (s.setYard n v).engines = s.engines := rfl
@[simp] theorem State.setYard_emissions (s : State) (n : Nat) (v : Yard) : (s.setYard n v).emissions = s.emissions := rfl
@[simp] theorem State.setYard_remoteOut (s : State) (n : Nat) (v : Yard) : (s.setYard n v).remoteOut = s.remoteOut := rfl
@[simp] theorem State.setYard_remoteIn (s : State) (n : Nat) (v : Yard) : (s.setYard n v).remoteIn = s.remoteIn := rfl
@[simp] theorem State.setYard_sent (s : State) (n : Nat) (v : Yard) : (s.setYard n v).sent = s.sent := rfl
@[simp] theorem State.setYard_flits (s : State) (n : Nat) (v : Yard) : (s.setYard n v).flits = s.flits := rfl
@[simp] theorem State.setYard_cutFlits (s : State) (n : Nat) (v : Yard) : (s.setYard n v).cutFlits = s.cutFlits := rfl
@[simp] theorem State.setYard_pendingTraps (s : State) (n : Nat) (v : Yard) : (s.setYard n v).pendingTraps = s.pendingTraps := rfl
@[simp] theorem State.setYard_referrals (s : State) (n : Nat) (v : Yard) : (s.setYard n v).referrals = s.referrals := rfl
@[simp] theorem State.setYard_nextReferral (s : State) (n : Nat) (v : Yard) : (s.setYard n v).nextReferral = s.nextReferral := rfl
@[simp] theorem State.setYard_policy (s : State) (n : Nat) (v : Yard) : (s.setYard n v).policy = s.policy := rfl
@[simp] theorem State.setYard_ports (s : State) (n : Nat) (v : Yard) : (s.setYard n v).ports = s.ports := rfl
@[simp] theorem State.setYard_dropped (s : State) (n : Nat) (v : Yard) : (s.setYard n v).dropped = s.dropped := rfl
@[simp] theorem State.setYard_posted (s : State) (n : Nat) (v : Yard) : (s.setYard n v).posted = s.posted := rfl
@[simp] theorem State.setYard_raised (s : State) (n : Nat) (v : Yard) : (s.setYard n v).raised = s.raised := rfl
@[simp] theorem State.setYard_cur (s : State) (n : Nat) (v : Yard) : (s.setYard n v).cur = s.cur := rfl
@[simp] theorem State.yard_setYard_self (s : State) (n : Nat) (v : Yard) : (s.setYard n v).yard n = v :=
  SMap.get_set_self _ _ _ _
theorem State.yard_setYard (s : State) (n m : Nat) (v : Yard) : (s.setYard n v).yard m = if m = n then v else s.yard m :=
  SMap.get_set _ _ _ _ _
theorem State.yard_setYard_ne (s : State) {n m : Nat} (v : Yard) (h : m ≠ n) : (s.setYard n v).yard m = s.yard m :=
  SMap.get_set_ne _ _ _ h
@[simp] theorem State.setYard_setYard (s : State) (n : Nat) (v w : Yard) : (s.setYard n v).setYard n w = s.setYard n w := by
  simp [State.setYard, SMap.set_set]
@[simp] theorem State.func_setYard (s : State) (n m : Nat) (v : Yard) : (s.setYard n v).func m = s.func m := rfl
@[simp] theorem State.queue_setYard (s : State) (n m : Nat) (v : Yard) : (s.setYard n v).queue m = s.queue m := rfl
@[simp] theorem State.run_setYard (s : State) (n m : Nat) (v : Yard) : (s.setYard n v).run m = s.run m := rfl
@[simp] theorem State.block_setYard (s : State) (n m : Nat) (v : Yard) : (s.setYard n v).block m = s.block m := rfl
@[simp] theorem State.team_setYard (s : State) (n m : Nat) (v : Yard) : (s.setYard n v).team m = s.team m := rfl
@[simp] theorem State.core_setYard (s : State) (n m : Nat) (v : Yard) : (s.setYard n v).core m = s.core m := rfl
@[simp] theorem State.nodeOf_setYard (s : State) (n m : Nat) (v : Yard) : (s.setYard n v).nodeOf m = s.nodeOf m := rfl
@[simp] theorem State.setRun_agenda (s : State) (n : Nat) (v : Run) : (s.setRun n v).agenda = s.agenda := rfl
@[simp] theorem State.setRun_stamp (s : State) (n : Nat) (v : Run) : (s.setRun n v).stamp = s.stamp := rfl
@[simp] theorem State.setRun_fresh (s : State) (n : Nat) (v : Run) : (s.setRun n v).fresh = s.fresh := rfl
@[simp] theorem State.setRun_marks (s : State) (n : Nat) (v : Run) : (s.setRun n v).marks = s.marks := rfl
@[simp] theorem State.setRun_crossings (s : State) (n : Nat) (v : Run) : (s.setRun n v).crossings = s.crossings := rfl
@[simp] theorem State.setRun_cycle (s : State) (n : Nat) (v : Run) : (s.setRun n v).cycle = s.cycle := rfl
@[simp] theorem State.setRun_floor (s : State) (n : Nat) (v : Run) : (s.setRun n v).floor = s.floor := rfl
@[simp] theorem State.setRun_dev (s : State) (n : Nat) (v : Run) : (s.setRun n v).dev = s.dev := rfl
@[simp] theorem State.setRun_pf (s : State) (n : Nat) (v : Run) : (s.setRun n v).pf = s.pf := rfl
@[simp] theorem State.setRun_funcs (s : State) (n : Nat) (v : Run) : (s.setRun n v).funcs = s.funcs := rfl
@[simp] theorem State.setRun_queues (s : State) (n : Nat) (v : Run) : (s.setRun n v).queues = s.queues := rfl
@[simp] theorem State.setRun_yards (s : State) (n : Nat) (v : Run) : (s.setRun n v).yards = s.yards := rfl
@[simp] theorem State.setRun_arbiter (s : State) (n : Nat) (v : Run) : (s.setRun n v).arbiter = s.arbiter := rfl
@[simp] theorem State.setRun_jobs (s : State) (n : Nat) (v : Run) : (s.setRun n v).jobs = s.jobs := rfl
@[simp] theorem State.setRun_phases (s : State) (n : Nat) (v : Run) : (s.setRun n v).phases = s.phases := rfl
@[simp] theorem State.setRun_ended (s : State) (n : Nat) (v : Run) : (s.setRun n v).ended = s.ended := rfl
@[simp] theorem State.setRun_nextRun (s : State) (n : Nat) (v : Run) : (s.setRun n v).nextRun = s.nextRun := rfl
@[simp] theorem State.setRun_stalls (s : State) (n : Nat) (v : Run) : (s.setRun n v).stalls = s.stalls := rfl
@[simp] theorem State.setRun_blocks (s : State) (n : Nat) (v : Run) : (s.setRun n v).blocks = s.blocks := rfl
@[simp] theorem State.setRun_teams (s : State) (n : Nat) (v : Run) : (s.setRun n v).teams = s.teams := rfl
@[simp] theorem State.setRun_cores (s : State) (n : Nat) (v : Run) : (s.setRun n v).cores = s.cores := rfl
@[simp] theorem State.setRun_hbm (s : State) (n : Nat) (v : Run) : (s.setRun n v).hbm = s.hbm := rfl
@[simp] theorem State.setRun_vaults (s : State) (n : Nat) (v : Run) : (s.setRun n v).vaults = s.vaults := rfl
@[simp] theorem State.setRun_host (s : State) (n : Nat) (v : Run) : (s.setRun n v).host = s.host := rfl
@[simp] theorem State.setRun_remote (s : State) (n : Nat) (v : Run) : (s.setRun n v).remote = s.remote := rfl
@[simp] theorem State.setRun_arenas (s : State) (n : Nat) (v : Run) : (s.setRun n v).arenas = s.arenas := rfl
@[simp] theorem State.setRun_unsettled (s : State) (n : Nat) (v : Run) : (s.setRun n v).unsettled = s.unsettled := rfl
@[simp] theorem State.setRun_gens (s : State) (n : Nat) (v : Run) : (s.setRun n v).gens = s.gens := rfl
@[simp] theorem State.setRun_owners (s : State) (n : Nat) (v : Run) : (s.setRun n v).owners = s.owners := rfl
@[simp] theorem State.setRun_units (s : State) (n : Nat) (v : Run) : (s.setRun n v).units = s.units := rfl
@[simp] theorem State.setRun_l1 (s : State) (n : Nat) (v : Run) : (s.setRun n v).l1 = s.l1 := rfl
@[simp] theorem State.setRun_ilines (s : State) (n : Nat) (v : Run) : (s.setRun n v).ilines = s.ilines := rfl
@[simp] theorem State.setRun_tlines (s : State) (n : Nat) (v : Run) : (s.setRun n v).tlines = s.tlines := rfl
@[simp] theorem State.setRun_tlb (s : State) (n : Nat) (v : Run) : (s.setRun n v).tlb = s.tlb := rfl
@[simp] theorem State.setRun_walks (s : State) (n : Nat) (v : Run) : (s.setRun n v).walks = s.walks := rfl
@[simp] theorem State.setRun_answers (s : State) (n : Nat) (v : Run) : (s.setRun n v).answers = s.answers := rfl
@[simp] theorem State.setRun_reserved (s : State) (n : Nat) (v : Run) : (s.setRun n v).reserved = s.reserved := rfl
@[simp] theorem State.setRun_accesses (s : State) (n : Nat) (v : Run) : (s.setRun n v).accesses = s.accesses := rfl
@[simp] theorem State.setRun_pairs (s : State) (n : Nat) (v : Run) : (s.setRun n v).pairs = s.pairs := rfl
@[simp] theorem State.setRun_engines (s : State) (n : Nat) (v : Run) : (s.setRun n v).engines = s.engines := rfl
@[simp] theorem State.setRun_emissions (s : State) (n : Nat) (v : Run) : (s.setRun n v).emissions = s.emissions := rfl
@[simp] theorem State.setRun_remoteOut (s : State) (n : Nat) (v : Run) : (s.setRun n v).remoteOut = s.remoteOut := rfl
@[simp] theorem State.setRun_remoteIn (s : State) (n : Nat) (v : Run) : (s.setRun n v).remoteIn = s.remoteIn := rfl
@[simp] theorem State.setRun_sent (s : State) (n : Nat) (v : Run) : (s.setRun n v).sent = s.sent := rfl
@[simp] theorem State.setRun_flits (s : State) (n : Nat) (v : Run) : (s.setRun n v).flits = s.flits := rfl
@[simp] theorem State.setRun_cutFlits (s : State) (n : Nat) (v : Run) : (s.setRun n v).cutFlits = s.cutFlits := rfl
@[simp] theorem State.setRun_pendingTraps (s : State) (n : Nat) (v : Run) : (s.setRun n v).pendingTraps = s.pendingTraps := rfl
@[simp] theorem State.setRun_referrals (s : State) (n : Nat) (v : Run) : (s.setRun n v).referrals = s.referrals := rfl
@[simp] theorem State.setRun_nextReferral (s : State) (n : Nat) (v : Run) : (s.setRun n v).nextReferral = s.nextReferral := rfl
@[simp] theorem State.setRun_policy (s : State) (n : Nat) (v : Run) : (s.setRun n v).policy = s.policy := rfl
@[simp] theorem State.setRun_ports (s : State) (n : Nat) (v : Run) : (s.setRun n v).ports = s.ports := rfl
@[simp] theorem State.setRun_dropped (s : State) (n : Nat) (v : Run) : (s.setRun n v).dropped = s.dropped := rfl
@[simp] theorem State.setRun_posted (s : State) (n : Nat) (v : Run) : (s.setRun n v).posted = s.posted := rfl
@[simp] theorem State.setRun_raised (s : State) (n : Nat) (v : Run) : (s.setRun n v).raised = s.raised := rfl
@[simp] theorem State.setRun_cur (s : State) (n : Nat) (v : Run) : (s.setRun n v).cur = s.cur := rfl
@[simp] theorem State.run_setRun_self (s : State) (n : Nat) (v : Run) : (s.setRun n v).run n = v :=
  SMap.get_set_self _ _ _ _
theorem State.run_setRun (s : State) (n m : Nat) (v : Run) : (s.setRun n v).run m = if m = n then v else s.run m :=
  SMap.get_set _ _ _ _ _
theorem State.run_setRun_ne (s : State) {n m : Nat} (v : Run) (h : m ≠ n) : (s.setRun n v).run m = s.run m :=
  SMap.get_set_ne _ _ _ h
@[simp] theorem State.setRun_setRun (s : State) (n : Nat) (v w : Run) : (s.setRun n v).setRun n w = s.setRun n w := by
  simp [State.setRun, SMap.set_set]
@[simp] theorem State.func_setRun (s : State) (n m : Nat) (v : Run) : (s.setRun n v).func m = s.func m := rfl
@[simp] theorem State.queue_setRun (s : State) (n m : Nat) (v : Run) : (s.setRun n v).queue m = s.queue m := rfl
@[simp] theorem State.yard_setRun (s : State) (n m : Nat) (v : Run) : (s.setRun n v).yard m = s.yard m := rfl
@[simp] theorem State.block_setRun (s : State) (n m : Nat) (v : Run) : (s.setRun n v).block m = s.block m := rfl
@[simp] theorem State.team_setRun (s : State) (n m : Nat) (v : Run) : (s.setRun n v).team m = s.team m := rfl
@[simp] theorem State.core_setRun (s : State) (n m : Nat) (v : Run) : (s.setRun n v).core m = s.core m := rfl
@[simp] theorem State.setBlock_agenda (s : State) (n : Nat) (v : Block) : (s.setBlock n v).agenda = s.agenda := rfl
@[simp] theorem State.setBlock_stamp (s : State) (n : Nat) (v : Block) : (s.setBlock n v).stamp = s.stamp := rfl
@[simp] theorem State.setBlock_fresh (s : State) (n : Nat) (v : Block) : (s.setBlock n v).fresh = s.fresh := rfl
@[simp] theorem State.setBlock_marks (s : State) (n : Nat) (v : Block) : (s.setBlock n v).marks = s.marks := rfl
@[simp] theorem State.setBlock_crossings (s : State) (n : Nat) (v : Block) : (s.setBlock n v).crossings = s.crossings := rfl
@[simp] theorem State.setBlock_cycle (s : State) (n : Nat) (v : Block) : (s.setBlock n v).cycle = s.cycle := rfl
@[simp] theorem State.setBlock_floor (s : State) (n : Nat) (v : Block) : (s.setBlock n v).floor = s.floor := rfl
@[simp] theorem State.setBlock_dev (s : State) (n : Nat) (v : Block) : (s.setBlock n v).dev = s.dev := rfl
@[simp] theorem State.setBlock_pf (s : State) (n : Nat) (v : Block) : (s.setBlock n v).pf = s.pf := rfl
@[simp] theorem State.setBlock_funcs (s : State) (n : Nat) (v : Block) : (s.setBlock n v).funcs = s.funcs := rfl
@[simp] theorem State.setBlock_queues (s : State) (n : Nat) (v : Block) : (s.setBlock n v).queues = s.queues := rfl
@[simp] theorem State.setBlock_yards (s : State) (n : Nat) (v : Block) : (s.setBlock n v).yards = s.yards := rfl
@[simp] theorem State.setBlock_arbiter (s : State) (n : Nat) (v : Block) : (s.setBlock n v).arbiter = s.arbiter := rfl
@[simp] theorem State.setBlock_jobs (s : State) (n : Nat) (v : Block) : (s.setBlock n v).jobs = s.jobs := rfl
@[simp] theorem State.setBlock_phases (s : State) (n : Nat) (v : Block) : (s.setBlock n v).phases = s.phases := rfl
@[simp] theorem State.setBlock_ended (s : State) (n : Nat) (v : Block) : (s.setBlock n v).ended = s.ended := rfl
@[simp] theorem State.setBlock_runs (s : State) (n : Nat) (v : Block) : (s.setBlock n v).runs = s.runs := rfl
@[simp] theorem State.setBlock_nextRun (s : State) (n : Nat) (v : Block) : (s.setBlock n v).nextRun = s.nextRun := rfl
@[simp] theorem State.setBlock_stalls (s : State) (n : Nat) (v : Block) : (s.setBlock n v).stalls = s.stalls := rfl
@[simp] theorem State.setBlock_teams (s : State) (n : Nat) (v : Block) : (s.setBlock n v).teams = s.teams := rfl
@[simp] theorem State.setBlock_cores (s : State) (n : Nat) (v : Block) : (s.setBlock n v).cores = s.cores := rfl
@[simp] theorem State.setBlock_hbm (s : State) (n : Nat) (v : Block) : (s.setBlock n v).hbm = s.hbm := rfl
@[simp] theorem State.setBlock_vaults (s : State) (n : Nat) (v : Block) : (s.setBlock n v).vaults = s.vaults := rfl
@[simp] theorem State.setBlock_host (s : State) (n : Nat) (v : Block) : (s.setBlock n v).host = s.host := rfl
@[simp] theorem State.setBlock_remote (s : State) (n : Nat) (v : Block) : (s.setBlock n v).remote = s.remote := rfl
@[simp] theorem State.setBlock_arenas (s : State) (n : Nat) (v : Block) : (s.setBlock n v).arenas = s.arenas := rfl
@[simp] theorem State.setBlock_unsettled (s : State) (n : Nat) (v : Block) : (s.setBlock n v).unsettled = s.unsettled := rfl
@[simp] theorem State.setBlock_gens (s : State) (n : Nat) (v : Block) : (s.setBlock n v).gens = s.gens := rfl
@[simp] theorem State.setBlock_owners (s : State) (n : Nat) (v : Block) : (s.setBlock n v).owners = s.owners := rfl
@[simp] theorem State.setBlock_units (s : State) (n : Nat) (v : Block) : (s.setBlock n v).units = s.units := rfl
@[simp] theorem State.setBlock_l1 (s : State) (n : Nat) (v : Block) : (s.setBlock n v).l1 = s.l1 := rfl
@[simp] theorem State.setBlock_ilines (s : State) (n : Nat) (v : Block) : (s.setBlock n v).ilines = s.ilines := rfl
@[simp] theorem State.setBlock_tlines (s : State) (n : Nat) (v : Block) : (s.setBlock n v).tlines = s.tlines := rfl
@[simp] theorem State.setBlock_tlb (s : State) (n : Nat) (v : Block) : (s.setBlock n v).tlb = s.tlb := rfl
@[simp] theorem State.setBlock_walks (s : State) (n : Nat) (v : Block) : (s.setBlock n v).walks = s.walks := rfl
@[simp] theorem State.setBlock_answers (s : State) (n : Nat) (v : Block) : (s.setBlock n v).answers = s.answers := rfl
@[simp] theorem State.setBlock_reserved (s : State) (n : Nat) (v : Block) : (s.setBlock n v).reserved = s.reserved := rfl
@[simp] theorem State.setBlock_accesses (s : State) (n : Nat) (v : Block) : (s.setBlock n v).accesses = s.accesses := rfl
@[simp] theorem State.setBlock_pairs (s : State) (n : Nat) (v : Block) : (s.setBlock n v).pairs = s.pairs := rfl
@[simp] theorem State.setBlock_engines (s : State) (n : Nat) (v : Block) : (s.setBlock n v).engines = s.engines := rfl
@[simp] theorem State.setBlock_emissions (s : State) (n : Nat) (v : Block) : (s.setBlock n v).emissions = s.emissions := rfl
@[simp] theorem State.setBlock_remoteOut (s : State) (n : Nat) (v : Block) : (s.setBlock n v).remoteOut = s.remoteOut := rfl
@[simp] theorem State.setBlock_remoteIn (s : State) (n : Nat) (v : Block) : (s.setBlock n v).remoteIn = s.remoteIn := rfl
@[simp] theorem State.setBlock_sent (s : State) (n : Nat) (v : Block) : (s.setBlock n v).sent = s.sent := rfl
@[simp] theorem State.setBlock_flits (s : State) (n : Nat) (v : Block) : (s.setBlock n v).flits = s.flits := rfl
@[simp] theorem State.setBlock_cutFlits (s : State) (n : Nat) (v : Block) : (s.setBlock n v).cutFlits = s.cutFlits := rfl
@[simp] theorem State.setBlock_pendingTraps (s : State) (n : Nat) (v : Block) : (s.setBlock n v).pendingTraps = s.pendingTraps := rfl
@[simp] theorem State.setBlock_referrals (s : State) (n : Nat) (v : Block) : (s.setBlock n v).referrals = s.referrals := rfl
@[simp] theorem State.setBlock_nextReferral (s : State) (n : Nat) (v : Block) : (s.setBlock n v).nextReferral = s.nextReferral := rfl
@[simp] theorem State.setBlock_policy (s : State) (n : Nat) (v : Block) : (s.setBlock n v).policy = s.policy := rfl
@[simp] theorem State.setBlock_ports (s : State) (n : Nat) (v : Block) : (s.setBlock n v).ports = s.ports := rfl
@[simp] theorem State.setBlock_dropped (s : State) (n : Nat) (v : Block) : (s.setBlock n v).dropped = s.dropped := rfl
@[simp] theorem State.setBlock_posted (s : State) (n : Nat) (v : Block) : (s.setBlock n v).posted = s.posted := rfl
@[simp] theorem State.setBlock_raised (s : State) (n : Nat) (v : Block) : (s.setBlock n v).raised = s.raised := rfl
@[simp] theorem State.setBlock_cur (s : State) (n : Nat) (v : Block) : (s.setBlock n v).cur = s.cur := rfl
@[simp] theorem State.block_setBlock_self (s : State) (n : Nat) (v : Block) : (s.setBlock n v).block n = v :=
  SMap.get_set_self _ _ _ _
theorem State.block_setBlock (s : State) (n m : Nat) (v : Block) : (s.setBlock n v).block m = if m = n then v else s.block m :=
  SMap.get_set _ _ _ _ _
theorem State.block_setBlock_ne (s : State) {n m : Nat} (v : Block) (h : m ≠ n) : (s.setBlock n v).block m = s.block m :=
  SMap.get_set_ne _ _ _ h
@[simp] theorem State.setBlock_setBlock (s : State) (n : Nat) (v w : Block) : (s.setBlock n v).setBlock n w = s.setBlock n w := by
  simp [State.setBlock, SMap.set_set]
@[simp] theorem State.func_setBlock (s : State) (n m : Nat) (v : Block) : (s.setBlock n v).func m = s.func m := rfl
@[simp] theorem State.queue_setBlock (s : State) (n m : Nat) (v : Block) : (s.setBlock n v).queue m = s.queue m := rfl
@[simp] theorem State.yard_setBlock (s : State) (n m : Nat) (v : Block) : (s.setBlock n v).yard m = s.yard m := rfl
@[simp] theorem State.run_setBlock (s : State) (n m : Nat) (v : Block) : (s.setBlock n v).run m = s.run m := rfl
@[simp] theorem State.team_setBlock (s : State) (n m : Nat) (v : Block) : (s.setBlock n v).team m = s.team m := rfl
@[simp] theorem State.core_setBlock (s : State) (n m : Nat) (v : Block) : (s.setBlock n v).core m = s.core m := rfl
@[simp] theorem State.setTeam_agenda (s : State) (n : Nat) (v : Team) : (s.setTeam n v).agenda = s.agenda := rfl
@[simp] theorem State.setTeam_stamp (s : State) (n : Nat) (v : Team) : (s.setTeam n v).stamp = s.stamp := rfl
@[simp] theorem State.setTeam_fresh (s : State) (n : Nat) (v : Team) : (s.setTeam n v).fresh = s.fresh := rfl
@[simp] theorem State.setTeam_marks (s : State) (n : Nat) (v : Team) : (s.setTeam n v).marks = s.marks := rfl
@[simp] theorem State.setTeam_crossings (s : State) (n : Nat) (v : Team) : (s.setTeam n v).crossings = s.crossings := rfl
@[simp] theorem State.setTeam_cycle (s : State) (n : Nat) (v : Team) : (s.setTeam n v).cycle = s.cycle := rfl
@[simp] theorem State.setTeam_floor (s : State) (n : Nat) (v : Team) : (s.setTeam n v).floor = s.floor := rfl
@[simp] theorem State.setTeam_dev (s : State) (n : Nat) (v : Team) : (s.setTeam n v).dev = s.dev := rfl
@[simp] theorem State.setTeam_pf (s : State) (n : Nat) (v : Team) : (s.setTeam n v).pf = s.pf := rfl
@[simp] theorem State.setTeam_funcs (s : State) (n : Nat) (v : Team) : (s.setTeam n v).funcs = s.funcs := rfl
@[simp] theorem State.setTeam_queues (s : State) (n : Nat) (v : Team) : (s.setTeam n v).queues = s.queues := rfl
@[simp] theorem State.setTeam_yards (s : State) (n : Nat) (v : Team) : (s.setTeam n v).yards = s.yards := rfl
@[simp] theorem State.setTeam_arbiter (s : State) (n : Nat) (v : Team) : (s.setTeam n v).arbiter = s.arbiter := rfl
@[simp] theorem State.setTeam_jobs (s : State) (n : Nat) (v : Team) : (s.setTeam n v).jobs = s.jobs := rfl
@[simp] theorem State.setTeam_phases (s : State) (n : Nat) (v : Team) : (s.setTeam n v).phases = s.phases := rfl
@[simp] theorem State.setTeam_ended (s : State) (n : Nat) (v : Team) : (s.setTeam n v).ended = s.ended := rfl
@[simp] theorem State.setTeam_runs (s : State) (n : Nat) (v : Team) : (s.setTeam n v).runs = s.runs := rfl
@[simp] theorem State.setTeam_nextRun (s : State) (n : Nat) (v : Team) : (s.setTeam n v).nextRun = s.nextRun := rfl
@[simp] theorem State.setTeam_stalls (s : State) (n : Nat) (v : Team) : (s.setTeam n v).stalls = s.stalls := rfl
@[simp] theorem State.setTeam_blocks (s : State) (n : Nat) (v : Team) : (s.setTeam n v).blocks = s.blocks := rfl
@[simp] theorem State.setTeam_cores (s : State) (n : Nat) (v : Team) : (s.setTeam n v).cores = s.cores := rfl
@[simp] theorem State.setTeam_hbm (s : State) (n : Nat) (v : Team) : (s.setTeam n v).hbm = s.hbm := rfl
@[simp] theorem State.setTeam_vaults (s : State) (n : Nat) (v : Team) : (s.setTeam n v).vaults = s.vaults := rfl
@[simp] theorem State.setTeam_host (s : State) (n : Nat) (v : Team) : (s.setTeam n v).host = s.host := rfl
@[simp] theorem State.setTeam_remote (s : State) (n : Nat) (v : Team) : (s.setTeam n v).remote = s.remote := rfl
@[simp] theorem State.setTeam_arenas (s : State) (n : Nat) (v : Team) : (s.setTeam n v).arenas = s.arenas := rfl
@[simp] theorem State.setTeam_unsettled (s : State) (n : Nat) (v : Team) : (s.setTeam n v).unsettled = s.unsettled := rfl
@[simp] theorem State.setTeam_gens (s : State) (n : Nat) (v : Team) : (s.setTeam n v).gens = s.gens := rfl
@[simp] theorem State.setTeam_owners (s : State) (n : Nat) (v : Team) : (s.setTeam n v).owners = s.owners := rfl
@[simp] theorem State.setTeam_units (s : State) (n : Nat) (v : Team) : (s.setTeam n v).units = s.units := rfl
@[simp] theorem State.setTeam_l1 (s : State) (n : Nat) (v : Team) : (s.setTeam n v).l1 = s.l1 := rfl
@[simp] theorem State.setTeam_ilines (s : State) (n : Nat) (v : Team) : (s.setTeam n v).ilines = s.ilines := rfl
@[simp] theorem State.setTeam_tlines (s : State) (n : Nat) (v : Team) : (s.setTeam n v).tlines = s.tlines := rfl
@[simp] theorem State.setTeam_tlb (s : State) (n : Nat) (v : Team) : (s.setTeam n v).tlb = s.tlb := rfl
@[simp] theorem State.setTeam_walks (s : State) (n : Nat) (v : Team) : (s.setTeam n v).walks = s.walks := rfl
@[simp] theorem State.setTeam_answers (s : State) (n : Nat) (v : Team) : (s.setTeam n v).answers = s.answers := rfl
@[simp] theorem State.setTeam_reserved (s : State) (n : Nat) (v : Team) : (s.setTeam n v).reserved = s.reserved := rfl
@[simp] theorem State.setTeam_accesses (s : State) (n : Nat) (v : Team) : (s.setTeam n v).accesses = s.accesses := rfl
@[simp] theorem State.setTeam_pairs (s : State) (n : Nat) (v : Team) : (s.setTeam n v).pairs = s.pairs := rfl
@[simp] theorem State.setTeam_engines (s : State) (n : Nat) (v : Team) : (s.setTeam n v).engines = s.engines := rfl
@[simp] theorem State.setTeam_emissions (s : State) (n : Nat) (v : Team) : (s.setTeam n v).emissions = s.emissions := rfl
@[simp] theorem State.setTeam_remoteOut (s : State) (n : Nat) (v : Team) : (s.setTeam n v).remoteOut = s.remoteOut := rfl
@[simp] theorem State.setTeam_remoteIn (s : State) (n : Nat) (v : Team) : (s.setTeam n v).remoteIn = s.remoteIn := rfl
@[simp] theorem State.setTeam_sent (s : State) (n : Nat) (v : Team) : (s.setTeam n v).sent = s.sent := rfl
@[simp] theorem State.setTeam_flits (s : State) (n : Nat) (v : Team) : (s.setTeam n v).flits = s.flits := rfl
@[simp] theorem State.setTeam_cutFlits (s : State) (n : Nat) (v : Team) : (s.setTeam n v).cutFlits = s.cutFlits := rfl
@[simp] theorem State.setTeam_pendingTraps (s : State) (n : Nat) (v : Team) : (s.setTeam n v).pendingTraps = s.pendingTraps := rfl
@[simp] theorem State.setTeam_referrals (s : State) (n : Nat) (v : Team) : (s.setTeam n v).referrals = s.referrals := rfl
@[simp] theorem State.setTeam_nextReferral (s : State) (n : Nat) (v : Team) : (s.setTeam n v).nextReferral = s.nextReferral := rfl
@[simp] theorem State.setTeam_policy (s : State) (n : Nat) (v : Team) : (s.setTeam n v).policy = s.policy := rfl
@[simp] theorem State.setTeam_ports (s : State) (n : Nat) (v : Team) : (s.setTeam n v).ports = s.ports := rfl
@[simp] theorem State.setTeam_dropped (s : State) (n : Nat) (v : Team) : (s.setTeam n v).dropped = s.dropped := rfl
@[simp] theorem State.setTeam_posted (s : State) (n : Nat) (v : Team) : (s.setTeam n v).posted = s.posted := rfl
@[simp] theorem State.setTeam_raised (s : State) (n : Nat) (v : Team) : (s.setTeam n v).raised = s.raised := rfl
@[simp] theorem State.setTeam_cur (s : State) (n : Nat) (v : Team) : (s.setTeam n v).cur = s.cur := rfl
@[simp] theorem State.team_setTeam_self (s : State) (n : Nat) (v : Team) : (s.setTeam n v).team n = v :=
  SMap.get_set_self _ _ _ _
theorem State.team_setTeam (s : State) (n m : Nat) (v : Team) : (s.setTeam n v).team m = if m = n then v else s.team m :=
  SMap.get_set _ _ _ _ _
theorem State.team_setTeam_ne (s : State) {n m : Nat} (v : Team) (h : m ≠ n) : (s.setTeam n v).team m = s.team m :=
  SMap.get_set_ne _ _ _ h
@[simp] theorem State.setTeam_setTeam (s : State) (n : Nat) (v w : Team) : (s.setTeam n v).setTeam n w = s.setTeam n w := by
  simp [State.setTeam, SMap.set_set]
@[simp] theorem State.func_setTeam (s : State) (n m : Nat) (v : Team) : (s.setTeam n v).func m = s.func m := rfl
@[simp] theorem State.queue_setTeam (s : State) (n m : Nat) (v : Team) : (s.setTeam n v).queue m = s.queue m := rfl
@[simp] theorem State.yard_setTeam (s : State) (n m : Nat) (v : Team) : (s.setTeam n v).yard m = s.yard m := rfl
@[simp] theorem State.run_setTeam (s : State) (n m : Nat) (v : Team) : (s.setTeam n v).run m = s.run m := rfl
@[simp] theorem State.block_setTeam (s : State) (n m : Nat) (v : Team) : (s.setTeam n v).block m = s.block m := rfl
@[simp] theorem State.core_setTeam (s : State) (n m : Nat) (v : Team) : (s.setTeam n v).core m = s.core m := rfl
@[simp] theorem State.nodeOf_setTeam (s : State) (n m : Nat) (v : Team) : (s.setTeam n v).nodeOf m = s.nodeOf m := rfl
@[simp] theorem State.setCore_agenda (s : State) (n : Nat) (v : Core) : (s.setCore n v).agenda = s.agenda := rfl
@[simp] theorem State.setCore_stamp (s : State) (n : Nat) (v : Core) : (s.setCore n v).stamp = s.stamp := rfl
@[simp] theorem State.setCore_fresh (s : State) (n : Nat) (v : Core) : (s.setCore n v).fresh = s.fresh := rfl
@[simp] theorem State.setCore_marks (s : State) (n : Nat) (v : Core) : (s.setCore n v).marks = s.marks := rfl
@[simp] theorem State.setCore_crossings (s : State) (n : Nat) (v : Core) : (s.setCore n v).crossings = s.crossings := rfl
@[simp] theorem State.setCore_cycle (s : State) (n : Nat) (v : Core) : (s.setCore n v).cycle = s.cycle := rfl
@[simp] theorem State.setCore_floor (s : State) (n : Nat) (v : Core) : (s.setCore n v).floor = s.floor := rfl
@[simp] theorem State.setCore_dev (s : State) (n : Nat) (v : Core) : (s.setCore n v).dev = s.dev := rfl
@[simp] theorem State.setCore_pf (s : State) (n : Nat) (v : Core) : (s.setCore n v).pf = s.pf := rfl
@[simp] theorem State.setCore_funcs (s : State) (n : Nat) (v : Core) : (s.setCore n v).funcs = s.funcs := rfl
@[simp] theorem State.setCore_queues (s : State) (n : Nat) (v : Core) : (s.setCore n v).queues = s.queues := rfl
@[simp] theorem State.setCore_yards (s : State) (n : Nat) (v : Core) : (s.setCore n v).yards = s.yards := rfl
@[simp] theorem State.setCore_arbiter (s : State) (n : Nat) (v : Core) : (s.setCore n v).arbiter = s.arbiter := rfl
@[simp] theorem State.setCore_jobs (s : State) (n : Nat) (v : Core) : (s.setCore n v).jobs = s.jobs := rfl
@[simp] theorem State.setCore_phases (s : State) (n : Nat) (v : Core) : (s.setCore n v).phases = s.phases := rfl
@[simp] theorem State.setCore_ended (s : State) (n : Nat) (v : Core) : (s.setCore n v).ended = s.ended := rfl
@[simp] theorem State.setCore_runs (s : State) (n : Nat) (v : Core) : (s.setCore n v).runs = s.runs := rfl
@[simp] theorem State.setCore_nextRun (s : State) (n : Nat) (v : Core) : (s.setCore n v).nextRun = s.nextRun := rfl
@[simp] theorem State.setCore_stalls (s : State) (n : Nat) (v : Core) : (s.setCore n v).stalls = s.stalls := rfl
@[simp] theorem State.setCore_blocks (s : State) (n : Nat) (v : Core) : (s.setCore n v).blocks = s.blocks := rfl
@[simp] theorem State.setCore_teams (s : State) (n : Nat) (v : Core) : (s.setCore n v).teams = s.teams := rfl
@[simp] theorem State.setCore_hbm (s : State) (n : Nat) (v : Core) : (s.setCore n v).hbm = s.hbm := rfl
@[simp] theorem State.setCore_vaults (s : State) (n : Nat) (v : Core) : (s.setCore n v).vaults = s.vaults := rfl
@[simp] theorem State.setCore_host (s : State) (n : Nat) (v : Core) : (s.setCore n v).host = s.host := rfl
@[simp] theorem State.setCore_remote (s : State) (n : Nat) (v : Core) : (s.setCore n v).remote = s.remote := rfl
@[simp] theorem State.setCore_arenas (s : State) (n : Nat) (v : Core) : (s.setCore n v).arenas = s.arenas := rfl
@[simp] theorem State.setCore_unsettled (s : State) (n : Nat) (v : Core) : (s.setCore n v).unsettled = s.unsettled := rfl
@[simp] theorem State.setCore_gens (s : State) (n : Nat) (v : Core) : (s.setCore n v).gens = s.gens := rfl
@[simp] theorem State.setCore_owners (s : State) (n : Nat) (v : Core) : (s.setCore n v).owners = s.owners := rfl
@[simp] theorem State.setCore_units (s : State) (n : Nat) (v : Core) : (s.setCore n v).units = s.units := rfl
@[simp] theorem State.setCore_l1 (s : State) (n : Nat) (v : Core) : (s.setCore n v).l1 = s.l1 := rfl
@[simp] theorem State.setCore_ilines (s : State) (n : Nat) (v : Core) : (s.setCore n v).ilines = s.ilines := rfl
@[simp] theorem State.setCore_tlines (s : State) (n : Nat) (v : Core) : (s.setCore n v).tlines = s.tlines := rfl
@[simp] theorem State.setCore_tlb (s : State) (n : Nat) (v : Core) : (s.setCore n v).tlb = s.tlb := rfl
@[simp] theorem State.setCore_walks (s : State) (n : Nat) (v : Core) : (s.setCore n v).walks = s.walks := rfl
@[simp] theorem State.setCore_answers (s : State) (n : Nat) (v : Core) : (s.setCore n v).answers = s.answers := rfl
@[simp] theorem State.setCore_reserved (s : State) (n : Nat) (v : Core) : (s.setCore n v).reserved = s.reserved := rfl
@[simp] theorem State.setCore_accesses (s : State) (n : Nat) (v : Core) : (s.setCore n v).accesses = s.accesses := rfl
@[simp] theorem State.setCore_pairs (s : State) (n : Nat) (v : Core) : (s.setCore n v).pairs = s.pairs := rfl
@[simp] theorem State.setCore_engines (s : State) (n : Nat) (v : Core) : (s.setCore n v).engines = s.engines := rfl
@[simp] theorem State.setCore_emissions (s : State) (n : Nat) (v : Core) : (s.setCore n v).emissions = s.emissions := rfl
@[simp] theorem State.setCore_remoteOut (s : State) (n : Nat) (v : Core) : (s.setCore n v).remoteOut = s.remoteOut := rfl
@[simp] theorem State.setCore_remoteIn (s : State) (n : Nat) (v : Core) : (s.setCore n v).remoteIn = s.remoteIn := rfl
@[simp] theorem State.setCore_sent (s : State) (n : Nat) (v : Core) : (s.setCore n v).sent = s.sent := rfl
@[simp] theorem State.setCore_flits (s : State) (n : Nat) (v : Core) : (s.setCore n v).flits = s.flits := rfl
@[simp] theorem State.setCore_cutFlits (s : State) (n : Nat) (v : Core) : (s.setCore n v).cutFlits = s.cutFlits := rfl
@[simp] theorem State.setCore_pendingTraps (s : State) (n : Nat) (v : Core) : (s.setCore n v).pendingTraps = s.pendingTraps := rfl
@[simp] theorem State.setCore_referrals (s : State) (n : Nat) (v : Core) : (s.setCore n v).referrals = s.referrals := rfl
@[simp] theorem State.setCore_nextReferral (s : State) (n : Nat) (v : Core) : (s.setCore n v).nextReferral = s.nextReferral := rfl
@[simp] theorem State.setCore_policy (s : State) (n : Nat) (v : Core) : (s.setCore n v).policy = s.policy := rfl
@[simp] theorem State.setCore_ports (s : State) (n : Nat) (v : Core) : (s.setCore n v).ports = s.ports := rfl
@[simp] theorem State.setCore_dropped (s : State) (n : Nat) (v : Core) : (s.setCore n v).dropped = s.dropped := rfl
@[simp] theorem State.setCore_posted (s : State) (n : Nat) (v : Core) : (s.setCore n v).posted = s.posted := rfl
@[simp] theorem State.setCore_raised (s : State) (n : Nat) (v : Core) : (s.setCore n v).raised = s.raised := rfl
@[simp] theorem State.setCore_cur (s : State) (n : Nat) (v : Core) : (s.setCore n v).cur = s.cur := rfl
@[simp] theorem State.core_setCore_self (s : State) (n : Nat) (v : Core) : (s.setCore n v).core n = v :=
  SMap.get_set_self _ _ _ _
theorem State.core_setCore (s : State) (n m : Nat) (v : Core) : (s.setCore n v).core m = if m = n then v else s.core m :=
  SMap.get_set _ _ _ _ _
theorem State.core_setCore_ne (s : State) {n m : Nat} (v : Core) (h : m ≠ n) : (s.setCore n v).core m = s.core m :=
  SMap.get_set_ne _ _ _ h
@[simp] theorem State.setCore_setCore (s : State) (n : Nat) (v w : Core) : (s.setCore n v).setCore n w = s.setCore n w := by
  simp [State.setCore, SMap.set_set]
@[simp] theorem State.func_setCore (s : State) (n m : Nat) (v : Core) : (s.setCore n v).func m = s.func m := rfl
@[simp] theorem State.queue_setCore (s : State) (n m : Nat) (v : Core) : (s.setCore n v).queue m = s.queue m := rfl
@[simp] theorem State.yard_setCore (s : State) (n m : Nat) (v : Core) : (s.setCore n v).yard m = s.yard m := rfl
@[simp] theorem State.run_setCore (s : State) (n m : Nat) (v : Core) : (s.setCore n v).run m = s.run m := rfl
@[simp] theorem State.block_setCore (s : State) (n m : Nat) (v : Core) : (s.setCore n v).block m = s.block m := rfl
@[simp] theorem State.team_setCore (s : State) (n m : Nat) (v : Core) : (s.setCore n v).team m = s.team m := rfl
@[simp] theorem State.nodeOf_setCore (s : State) (n m : Nat) (v : Core) : (s.setCore n v).nodeOf m = s.nodeOf m := rfl
@[simp] theorem State.setStall_agenda (s : State) (r n : Nat) (v : Stall) : (s.setStall r n v).agenda = s.agenda := rfl
@[simp] theorem State.setStall_stamp (s : State) (r n : Nat) (v : Stall) : (s.setStall r n v).stamp = s.stamp := rfl
@[simp] theorem State.setStall_fresh (s : State) (r n : Nat) (v : Stall) : (s.setStall r n v).fresh = s.fresh := rfl
@[simp] theorem State.setStall_marks (s : State) (r n : Nat) (v : Stall) : (s.setStall r n v).marks = s.marks := rfl
@[simp] theorem State.setStall_crossings (s : State) (r n : Nat) (v : Stall) : (s.setStall r n v).crossings = s.crossings := rfl
@[simp] theorem State.setStall_cycle (s : State) (r n : Nat) (v : Stall) : (s.setStall r n v).cycle = s.cycle := rfl
@[simp] theorem State.setStall_floor (s : State) (r n : Nat) (v : Stall) : (s.setStall r n v).floor = s.floor := rfl
@[simp] theorem State.setStall_dev (s : State) (r n : Nat) (v : Stall) : (s.setStall r n v).dev = s.dev := rfl
@[simp] theorem State.setStall_pf (s : State) (r n : Nat) (v : Stall) : (s.setStall r n v).pf = s.pf := rfl
@[simp] theorem State.setStall_funcs (s : State) (r n : Nat) (v : Stall) : (s.setStall r n v).funcs = s.funcs := rfl
@[simp] theorem State.setStall_queues (s : State) (r n : Nat) (v : Stall) : (s.setStall r n v).queues = s.queues := rfl
@[simp] theorem State.setStall_yards (s : State) (r n : Nat) (v : Stall) : (s.setStall r n v).yards = s.yards := rfl
@[simp] theorem State.setStall_arbiter (s : State) (r n : Nat) (v : Stall) : (s.setStall r n v).arbiter = s.arbiter := rfl
@[simp] theorem State.setStall_jobs (s : State) (r n : Nat) (v : Stall) : (s.setStall r n v).jobs = s.jobs := rfl
@[simp] theorem State.setStall_phases (s : State) (r n : Nat) (v : Stall) : (s.setStall r n v).phases = s.phases := rfl
@[simp] theorem State.setStall_ended (s : State) (r n : Nat) (v : Stall) : (s.setStall r n v).ended = s.ended := rfl
@[simp] theorem State.setStall_runs (s : State) (r n : Nat) (v : Stall) : (s.setStall r n v).runs = s.runs := rfl
@[simp] theorem State.setStall_nextRun (s : State) (r n : Nat) (v : Stall) : (s.setStall r n v).nextRun = s.nextRun := rfl
@[simp] theorem State.setStall_blocks (s : State) (r n : Nat) (v : Stall) : (s.setStall r n v).blocks = s.blocks := rfl
@[simp] theorem State.setStall_teams (s : State) (r n : Nat) (v : Stall) : (s.setStall r n v).teams = s.teams := rfl
@[simp] theorem State.setStall_cores (s : State) (r n : Nat) (v : Stall) : (s.setStall r n v).cores = s.cores := rfl
@[simp] theorem State.setStall_hbm (s : State) (r n : Nat) (v : Stall) : (s.setStall r n v).hbm = s.hbm := rfl
@[simp] theorem State.setStall_vaults (s : State) (r n : Nat) (v : Stall) : (s.setStall r n v).vaults = s.vaults := rfl
@[simp] theorem State.setStall_host (s : State) (r n : Nat) (v : Stall) : (s.setStall r n v).host = s.host := rfl
@[simp] theorem State.setStall_remote (s : State) (r n : Nat) (v : Stall) : (s.setStall r n v).remote = s.remote := rfl
@[simp] theorem State.setStall_arenas (s : State) (r n : Nat) (v : Stall) : (s.setStall r n v).arenas = s.arenas := rfl
@[simp] theorem State.setStall_unsettled (s : State) (r n : Nat) (v : Stall) : (s.setStall r n v).unsettled = s.unsettled := rfl
@[simp] theorem State.setStall_gens (s : State) (r n : Nat) (v : Stall) : (s.setStall r n v).gens = s.gens := rfl
@[simp] theorem State.setStall_owners (s : State) (r n : Nat) (v : Stall) : (s.setStall r n v).owners = s.owners := rfl
@[simp] theorem State.setStall_units (s : State) (r n : Nat) (v : Stall) : (s.setStall r n v).units = s.units := rfl
@[simp] theorem State.setStall_l1 (s : State) (r n : Nat) (v : Stall) : (s.setStall r n v).l1 = s.l1 := rfl
@[simp] theorem State.setStall_ilines (s : State) (r n : Nat) (v : Stall) : (s.setStall r n v).ilines = s.ilines := rfl
@[simp] theorem State.setStall_tlines (s : State) (r n : Nat) (v : Stall) : (s.setStall r n v).tlines = s.tlines := rfl
@[simp] theorem State.setStall_tlb (s : State) (r n : Nat) (v : Stall) : (s.setStall r n v).tlb = s.tlb := rfl
@[simp] theorem State.setStall_walks (s : State) (r n : Nat) (v : Stall) : (s.setStall r n v).walks = s.walks := rfl
@[simp] theorem State.setStall_answers (s : State) (r n : Nat) (v : Stall) : (s.setStall r n v).answers = s.answers := rfl
@[simp] theorem State.setStall_reserved (s : State) (r n : Nat) (v : Stall) : (s.setStall r n v).reserved = s.reserved := rfl
@[simp] theorem State.setStall_accesses (s : State) (r n : Nat) (v : Stall) : (s.setStall r n v).accesses = s.accesses := rfl
@[simp] theorem State.setStall_pairs (s : State) (r n : Nat) (v : Stall) : (s.setStall r n v).pairs = s.pairs := rfl
@[simp] theorem State.setStall_engines (s : State) (r n : Nat) (v : Stall) : (s.setStall r n v).engines = s.engines := rfl
@[simp] theorem State.setStall_emissions (s : State) (r n : Nat) (v : Stall) : (s.setStall r n v).emissions = s.emissions := rfl
@[simp] theorem State.setStall_remoteOut (s : State) (r n : Nat) (v : Stall) : (s.setStall r n v).remoteOut = s.remoteOut := rfl
@[simp] theorem State.setStall_remoteIn (s : State) (r n : Nat) (v : Stall) : (s.setStall r n v).remoteIn = s.remoteIn := rfl
@[simp] theorem State.setStall_sent (s : State) (r n : Nat) (v : Stall) : (s.setStall r n v).sent = s.sent := rfl
@[simp] theorem State.setStall_flits (s : State) (r n : Nat) (v : Stall) : (s.setStall r n v).flits = s.flits := rfl
@[simp] theorem State.setStall_cutFlits (s : State) (r n : Nat) (v : Stall) : (s.setStall r n v).cutFlits = s.cutFlits := rfl
@[simp] theorem State.setStall_pendingTraps (s : State) (r n : Nat) (v : Stall) : (s.setStall r n v).pendingTraps = s.pendingTraps := rfl
@[simp] theorem State.setStall_referrals (s : State) (r n : Nat) (v : Stall) : (s.setStall r n v).referrals = s.referrals := rfl
@[simp] theorem State.setStall_nextReferral (s : State) (r n : Nat) (v : Stall) : (s.setStall r n v).nextReferral = s.nextReferral := rfl
@[simp] theorem State.setStall_policy (s : State) (r n : Nat) (v : Stall) : (s.setStall r n v).policy = s.policy := rfl
@[simp] theorem State.setStall_ports (s : State) (r n : Nat) (v : Stall) : (s.setStall r n v).ports = s.ports := rfl
@[simp] theorem State.setStall_dropped (s : State) (r n : Nat) (v : Stall) : (s.setStall r n v).dropped = s.dropped := rfl
@[simp] theorem State.setStall_posted (s : State) (r n : Nat) (v : Stall) : (s.setStall r n v).posted = s.posted := rfl
@[simp] theorem State.setStall_raised (s : State) (r n : Nat) (v : Stall) : (s.setStall r n v).raised = s.raised := rfl
@[simp] theorem State.setStall_cur (s : State) (r n : Nat) (v : Stall) : (s.setStall r n v).cur = s.cur := rfl
@[simp] theorem State.setHbmByte_agenda (s : State) (p : Nat) (v : Byte) : (s.setHbmByte p v).agenda = s.agenda := rfl
@[simp] theorem State.setHbmByte_stamp (s : State) (p : Nat) (v : Byte) : (s.setHbmByte p v).stamp = s.stamp := rfl
@[simp] theorem State.setHbmByte_fresh (s : State) (p : Nat) (v : Byte) : (s.setHbmByte p v).fresh = s.fresh := rfl
@[simp] theorem State.setHbmByte_marks (s : State) (p : Nat) (v : Byte) : (s.setHbmByte p v).marks = s.marks := rfl
@[simp] theorem State.setHbmByte_crossings (s : State) (p : Nat) (v : Byte) : (s.setHbmByte p v).crossings = s.crossings := rfl
@[simp] theorem State.setHbmByte_cycle (s : State) (p : Nat) (v : Byte) : (s.setHbmByte p v).cycle = s.cycle := rfl
@[simp] theorem State.setHbmByte_floor (s : State) (p : Nat) (v : Byte) : (s.setHbmByte p v).floor = s.floor := rfl
@[simp] theorem State.setHbmByte_dev (s : State) (p : Nat) (v : Byte) : (s.setHbmByte p v).dev = s.dev := rfl
@[simp] theorem State.setHbmByte_pf (s : State) (p : Nat) (v : Byte) : (s.setHbmByte p v).pf = s.pf := rfl
@[simp] theorem State.setHbmByte_funcs (s : State) (p : Nat) (v : Byte) : (s.setHbmByte p v).funcs = s.funcs := rfl
@[simp] theorem State.setHbmByte_queues (s : State) (p : Nat) (v : Byte) : (s.setHbmByte p v).queues = s.queues := rfl
@[simp] theorem State.setHbmByte_yards (s : State) (p : Nat) (v : Byte) : (s.setHbmByte p v).yards = s.yards := rfl
@[simp] theorem State.setHbmByte_arbiter (s : State) (p : Nat) (v : Byte) : (s.setHbmByte p v).arbiter = s.arbiter := rfl
@[simp] theorem State.setHbmByte_jobs (s : State) (p : Nat) (v : Byte) : (s.setHbmByte p v).jobs = s.jobs := rfl
@[simp] theorem State.setHbmByte_phases (s : State) (p : Nat) (v : Byte) : (s.setHbmByte p v).phases = s.phases := rfl
@[simp] theorem State.setHbmByte_ended (s : State) (p : Nat) (v : Byte) : (s.setHbmByte p v).ended = s.ended := rfl
@[simp] theorem State.setHbmByte_runs (s : State) (p : Nat) (v : Byte) : (s.setHbmByte p v).runs = s.runs := rfl
@[simp] theorem State.setHbmByte_nextRun (s : State) (p : Nat) (v : Byte) : (s.setHbmByte p v).nextRun = s.nextRun := rfl
@[simp] theorem State.setHbmByte_stalls (s : State) (p : Nat) (v : Byte) : (s.setHbmByte p v).stalls = s.stalls := rfl
@[simp] theorem State.setHbmByte_blocks (s : State) (p : Nat) (v : Byte) : (s.setHbmByte p v).blocks = s.blocks := rfl
@[simp] theorem State.setHbmByte_teams (s : State) (p : Nat) (v : Byte) : (s.setHbmByte p v).teams = s.teams := rfl
@[simp] theorem State.setHbmByte_cores (s : State) (p : Nat) (v : Byte) : (s.setHbmByte p v).cores = s.cores := rfl
@[simp] theorem State.setHbmByte_vaults (s : State) (p : Nat) (v : Byte) : (s.setHbmByte p v).vaults = s.vaults := rfl
@[simp] theorem State.setHbmByte_host (s : State) (p : Nat) (v : Byte) : (s.setHbmByte p v).host = s.host := rfl
@[simp] theorem State.setHbmByte_remote (s : State) (p : Nat) (v : Byte) : (s.setHbmByte p v).remote = s.remote := rfl
@[simp] theorem State.setHbmByte_arenas (s : State) (p : Nat) (v : Byte) : (s.setHbmByte p v).arenas = s.arenas := rfl
@[simp] theorem State.setHbmByte_unsettled (s : State) (p : Nat) (v : Byte) : (s.setHbmByte p v).unsettled = s.unsettled := rfl
@[simp] theorem State.setHbmByte_gens (s : State) (p : Nat) (v : Byte) : (s.setHbmByte p v).gens = s.gens := rfl
@[simp] theorem State.setHbmByte_owners (s : State) (p : Nat) (v : Byte) : (s.setHbmByte p v).owners = s.owners := rfl
@[simp] theorem State.setHbmByte_units (s : State) (p : Nat) (v : Byte) : (s.setHbmByte p v).units = s.units := rfl
@[simp] theorem State.setHbmByte_l1 (s : State) (p : Nat) (v : Byte) : (s.setHbmByte p v).l1 = s.l1 := rfl
@[simp] theorem State.setHbmByte_ilines (s : State) (p : Nat) (v : Byte) : (s.setHbmByte p v).ilines = s.ilines := rfl
@[simp] theorem State.setHbmByte_tlines (s : State) (p : Nat) (v : Byte) : (s.setHbmByte p v).tlines = s.tlines := rfl
@[simp] theorem State.setHbmByte_tlb (s : State) (p : Nat) (v : Byte) : (s.setHbmByte p v).tlb = s.tlb := rfl
@[simp] theorem State.setHbmByte_walks (s : State) (p : Nat) (v : Byte) : (s.setHbmByte p v).walks = s.walks := rfl
@[simp] theorem State.setHbmByte_answers (s : State) (p : Nat) (v : Byte) : (s.setHbmByte p v).answers = s.answers := rfl
@[simp] theorem State.setHbmByte_reserved (s : State) (p : Nat) (v : Byte) : (s.setHbmByte p v).reserved = s.reserved := rfl
@[simp] theorem State.setHbmByte_accesses (s : State) (p : Nat) (v : Byte) : (s.setHbmByte p v).accesses = s.accesses := rfl
@[simp] theorem State.setHbmByte_pairs (s : State) (p : Nat) (v : Byte) : (s.setHbmByte p v).pairs = s.pairs := rfl
@[simp] theorem State.setHbmByte_engines (s : State) (p : Nat) (v : Byte) : (s.setHbmByte p v).engines = s.engines := rfl
@[simp] theorem State.setHbmByte_emissions (s : State) (p : Nat) (v : Byte) : (s.setHbmByte p v).emissions = s.emissions := rfl
@[simp] theorem State.setHbmByte_remoteOut (s : State) (p : Nat) (v : Byte) : (s.setHbmByte p v).remoteOut = s.remoteOut := rfl
@[simp] theorem State.setHbmByte_remoteIn (s : State) (p : Nat) (v : Byte) : (s.setHbmByte p v).remoteIn = s.remoteIn := rfl
@[simp] theorem State.setHbmByte_sent (s : State) (p : Nat) (v : Byte) : (s.setHbmByte p v).sent = s.sent := rfl
@[simp] theorem State.setHbmByte_flits (s : State) (p : Nat) (v : Byte) : (s.setHbmByte p v).flits = s.flits := rfl
@[simp] theorem State.setHbmByte_cutFlits (s : State) (p : Nat) (v : Byte) : (s.setHbmByte p v).cutFlits = s.cutFlits := rfl
@[simp] theorem State.setHbmByte_pendingTraps (s : State) (p : Nat) (v : Byte) : (s.setHbmByte p v).pendingTraps = s.pendingTraps := rfl
@[simp] theorem State.setHbmByte_referrals (s : State) (p : Nat) (v : Byte) : (s.setHbmByte p v).referrals = s.referrals := rfl
@[simp] theorem State.setHbmByte_nextReferral (s : State) (p : Nat) (v : Byte) : (s.setHbmByte p v).nextReferral = s.nextReferral := rfl
@[simp] theorem State.setHbmByte_policy (s : State) (p : Nat) (v : Byte) : (s.setHbmByte p v).policy = s.policy := rfl
@[simp] theorem State.setHbmByte_ports (s : State) (p : Nat) (v : Byte) : (s.setHbmByte p v).ports = s.ports := rfl
@[simp] theorem State.setHbmByte_dropped (s : State) (p : Nat) (v : Byte) : (s.setHbmByte p v).dropped = s.dropped := rfl
@[simp] theorem State.setHbmByte_posted (s : State) (p : Nat) (v : Byte) : (s.setHbmByte p v).posted = s.posted := rfl
@[simp] theorem State.setHbmByte_raised (s : State) (p : Nat) (v : Byte) : (s.setHbmByte p v).raised = s.raised := rfl
@[simp] theorem State.setHbmByte_cur (s : State) (p : Nat) (v : Byte) : (s.setHbmByte p v).cur = s.cur := rfl

@[simp] theorem State.stall_setStall_self (s : State) (r n : Nat) (v : Stall) : (s.setStall r n v).stall r n = v :=
  SMap.get_set_self _ _ _ _

/-! ### Updates of a team -/

@[simp] theorem Team.setLane_block (t : Team) (L : Nat) (v : Lane) : (t.setLane L v).block = t.block := rfl
@[simp] theorem Team.setLane_index (t : Team) (L : Nat) (v : Lane) : (t.setLane L v).index = t.index := rfl
@[simp] theorem Team.setLane_core (t : Team) (L : Nat) (v : Lane) : (t.setLane L v).core = t.core := rfl
@[simp] theorem Team.setLane_resident (t : Team) (L : Nat) (v : Lane) : (t.setLane L v).resident = t.resident := rfl
@[simp] theorem Team.setLane_parked (t : Team) (L : Nat) (v : Lane) : (t.setLane L v).parked = t.parked := rfl
@[simp] theorem Team.setLane_saved (t : Team) (L : Nat) (v : Lane) : (t.setLane L v).saved = t.saved := rfl
@[simp] theorem Team.setLane_slot (t : Team) (L : Nat) (v : Lane) : (t.setLane L v).slot = t.slot := rfl
@[simp] theorem Team.setLane_parkedAt (t : Team) (L : Nat) (v : Lane) : (t.setLane L v).parkedAt = t.parkedAt := rfl
@[simp] theorem Team.setLane_overflowed (t : Team) (L : Nat) (v : Lane) : (t.setLane L v).overflowed = t.overflowed := rfl
@[simp] theorem Team.setLane_v (t : Team) (L : Nat) (v : Lane) : (t.setLane L v).v = t.v := rfl
@[simp] theorem Team.setLane_x (t : Team) (L : Nat) (v : Lane) : (t.setLane L v).x = t.x := rfl
@[simp] theorem Team.setLane_w (t : Team) (L : Nat) (v : Lane) : (t.setLane L v).w = t.w := rfl
@[simp] theorem Team.setLane_k (t : Team) (L : Nat) (v : Lane) : (t.setLane L v).k = t.k := rfl
@[simp] theorem Team.setLane_acc (t : Team) (L : Nat) (v : Lane) : (t.setLane L v).acc = t.acc := rfl
@[simp] theorem Team.setLane_insns (t : Team) (L : Nat) (v : Lane) : (t.setLane L v).insns = t.insns := rfl
@[simp] theorem Team.setLane_fcnt (t : Team) (L : Nat) (v : Lane) : (t.setLane L v).fcnt = t.fcnt := rfl
@[simp] theorem Team.setLane_fair (t : Team) (L : Nat) (v : Lane) : (t.setLane L v).fair = t.fair := rfl
@[simp] theorem Team.setLane_ldc (t : Team) (L : Nat) (v : Lane) : (t.setLane L v).ldc = t.ldc := rfl
@[simp] theorem Team.setLane_stc (t : Team) (L : Nat) (v : Lane) : (t.setLane L v).stc = t.stc := rfl
@[simp] theorem Team.setLane_cpc (t : Team) (L : Nat) (v : Lane) : (t.setLane L v).cpc = t.cpc := rfl
@[simp] theorem Team.setLane_tlc (t : Team) (L : Nat) (v : Lane) : (t.setLane L v).tlc = t.tlc := rfl
@[simp] theorem Team.setLane_emc (t : Team) (L : Nat) (v : Lane) : (t.setLane L v).emc = t.emc := rfl
@[simp] theorem Team.setLane_eseq (t : Team) (L : Nat) (v : Lane) : (t.setLane L v).eseq = t.eseq := rfl
@[simp] theorem Team.setLane_service (t : Team) (L : Nat) (v : Lane) : (t.setLane L v).service = t.service := rfl
@[simp] theorem Team.setLane_lastLane (t : Team) (L : Nat) (v : Lane) : (t.setLane L v).lastLane = t.lastLane := rfl
@[simp] theorem Team.setLane_lastIssue (t : Team) (L : Nat) (v : Lane) : (t.setLane L v).lastIssue = t.lastIssue := rfl
@[simp] theorem Team.setLane_filling (t : Team) (L : Nat) (v : Lane) : (t.setLane L v).filling = t.filling := rfl
@[simp] theorem Team.setLane_fillFor (t : Team) (L : Nat) (v : Lane) : (t.setLane L v).fillFor = t.fillFor := rfl
@[simp] theorem Team.setLane_parking (t : Team) (L : Nat) (v : Lane) : (t.setLane L v).parking = t.parking := rfl
@[simp] theorem Team.setLane_stays (t : Team) (L : Nat) (v : Lane) : (t.setLane L v).stays = t.stays := rfl
@[simp] theorem Team.setLane_vback (t : Team) (L : Nat) (v : Lane) : (t.setLane L v).vback = t.vback := rfl
@[simp] theorem Team.setLane_ctxAt (t : Team) (L : Nat) (v : Lane) : (t.setLane L v).ctxAt = t.ctxAt := rfl
@[simp] theorem Team.setLane_parkAt (t : Team) (L : Nat) (v : Lane) : (t.setLane L v).parkAt = t.parkAt := rfl
@[simp] theorem Team.setLane_nonzero (t : Team) (L : Nat) (v : Lane) : (t.setLane L v).nonzero = t.nonzero := rfl
@[simp] theorem Team.setLane_walk (t : Team) (L : Nat) (v : Lane) : (t.setLane L v).walk = t.walk := rfl
@[simp] theorem Team.setV_block (t : Team) (L n : Nat) (v : Word) : (t.setV L n v).block = t.block := rfl
@[simp] theorem Team.setV_index (t : Team) (L n : Nat) (v : Word) : (t.setV L n v).index = t.index := rfl
@[simp] theorem Team.setV_core (t : Team) (L n : Nat) (v : Word) : (t.setV L n v).core = t.core := rfl
@[simp] theorem Team.setV_resident (t : Team) (L n : Nat) (v : Word) : (t.setV L n v).resident = t.resident := rfl
@[simp] theorem Team.setV_parked (t : Team) (L n : Nat) (v : Word) : (t.setV L n v).parked = t.parked := rfl
@[simp] theorem Team.setV_saved (t : Team) (L n : Nat) (v : Word) : (t.setV L n v).saved = t.saved := rfl
@[simp] theorem Team.setV_slot (t : Team) (L n : Nat) (v : Word) : (t.setV L n v).slot = t.slot := rfl
@[simp] theorem Team.setV_parkedAt (t : Team) (L n : Nat) (v : Word) : (t.setV L n v).parkedAt = t.parkedAt := rfl
@[simp] theorem Team.setV_overflowed (t : Team) (L n : Nat) (v : Word) : (t.setV L n v).overflowed = t.overflowed := rfl
@[simp] theorem Team.setV_lanes (t : Team) (L n : Nat) (v : Word) : (t.setV L n v).lanes = t.lanes := rfl
@[simp] theorem Team.setV_x (t : Team) (L n : Nat) (v : Word) : (t.setV L n v).x = t.x := rfl
@[simp] theorem Team.setV_w (t : Team) (L n : Nat) (v : Word) : (t.setV L n v).w = t.w := rfl
@[simp] theorem Team.setV_k (t : Team) (L n : Nat) (v : Word) : (t.setV L n v).k = t.k := rfl
@[simp] theorem Team.setV_acc (t : Team) (L n : Nat) (v : Word) : (t.setV L n v).acc = t.acc := rfl
@[simp] theorem Team.setV_insns (t : Team) (L n : Nat) (v : Word) : (t.setV L n v).insns = t.insns := rfl
@[simp] theorem Team.setV_fcnt (t : Team) (L n : Nat) (v : Word) : (t.setV L n v).fcnt = t.fcnt := rfl
@[simp] theorem Team.setV_fair (t : Team) (L n : Nat) (v : Word) : (t.setV L n v).fair = t.fair := rfl
@[simp] theorem Team.setV_ldc (t : Team) (L n : Nat) (v : Word) : (t.setV L n v).ldc = t.ldc := rfl
@[simp] theorem Team.setV_stc (t : Team) (L n : Nat) (v : Word) : (t.setV L n v).stc = t.stc := rfl
@[simp] theorem Team.setV_cpc (t : Team) (L n : Nat) (v : Word) : (t.setV L n v).cpc = t.cpc := rfl
@[simp] theorem Team.setV_tlc (t : Team) (L n : Nat) (v : Word) : (t.setV L n v).tlc = t.tlc := rfl
@[simp] theorem Team.setV_emc (t : Team) (L n : Nat) (v : Word) : (t.setV L n v).emc = t.emc := rfl
@[simp] theorem Team.setV_eseq (t : Team) (L n : Nat) (v : Word) : (t.setV L n v).eseq = t.eseq := rfl
@[simp] theorem Team.setV_service (t : Team) (L n : Nat) (v : Word) : (t.setV L n v).service = t.service := rfl
@[simp] theorem Team.setV_lastLane (t : Team) (L n : Nat) (v : Word) : (t.setV L n v).lastLane = t.lastLane := rfl
@[simp] theorem Team.setV_lastIssue (t : Team) (L n : Nat) (v : Word) : (t.setV L n v).lastIssue = t.lastIssue := rfl
@[simp] theorem Team.setV_filling (t : Team) (L n : Nat) (v : Word) : (t.setV L n v).filling = t.filling := rfl
@[simp] theorem Team.setV_fillFor (t : Team) (L n : Nat) (v : Word) : (t.setV L n v).fillFor = t.fillFor := rfl
@[simp] theorem Team.setV_parking (t : Team) (L n : Nat) (v : Word) : (t.setV L n v).parking = t.parking := rfl
@[simp] theorem Team.setV_stays (t : Team) (L n : Nat) (v : Word) : (t.setV L n v).stays = t.stays := rfl
@[simp] theorem Team.setV_vback (t : Team) (L n : Nat) (v : Word) : (t.setV L n v).vback = t.vback := rfl
@[simp] theorem Team.setV_ctxAt (t : Team) (L n : Nat) (v : Word) : (t.setV L n v).ctxAt = t.ctxAt := rfl
@[simp] theorem Team.setV_parkAt (t : Team) (L n : Nat) (v : Word) : (t.setV L n v).parkAt = t.parkAt := rfl
@[simp] theorem Team.setV_walk (t : Team) (L n : Nat) (v : Word) : (t.setV L n v).walk = t.walk := rfl
@[simp] theorem Team.setX_block (t : Team) (L i : Nat) (v : Word) : (t.setX L i v).block = t.block := rfl
@[simp] theorem Team.setX_index (t : Team) (L i : Nat) (v : Word) : (t.setX L i v).index = t.index := rfl
@[simp] theorem Team.setX_core (t : Team) (L i : Nat) (v : Word) : (t.setX L i v).core = t.core := rfl
@[simp] theorem Team.setX_resident (t : Team) (L i : Nat) (v : Word) : (t.setX L i v).resident = t.resident := rfl
@[simp] theorem Team.setX_parked (t : Team) (L i : Nat) (v : Word) : (t.setX L i v).parked = t.parked := rfl
@[simp] theorem Team.setX_saved (t : Team) (L i : Nat) (v : Word) : (t.setX L i v).saved = t.saved := rfl
@[simp] theorem Team.setX_slot (t : Team) (L i : Nat) (v : Word) : (t.setX L i v).slot = t.slot := rfl
@[simp] theorem Team.setX_parkedAt (t : Team) (L i : Nat) (v : Word) : (t.setX L i v).parkedAt = t.parkedAt := rfl
@[simp] theorem Team.setX_overflowed (t : Team) (L i : Nat) (v : Word) : (t.setX L i v).overflowed = t.overflowed := rfl
@[simp] theorem Team.setX_lanes (t : Team) (L i : Nat) (v : Word) : (t.setX L i v).lanes = t.lanes := rfl
@[simp] theorem Team.setX_v (t : Team) (L i : Nat) (v : Word) : (t.setX L i v).v = t.v := rfl
@[simp] theorem Team.setX_w (t : Team) (L i : Nat) (v : Word) : (t.setX L i v).w = t.w := rfl
@[simp] theorem Team.setX_k (t : Team) (L i : Nat) (v : Word) : (t.setX L i v).k = t.k := rfl
@[simp] theorem Team.setX_acc (t : Team) (L i : Nat) (v : Word) : (t.setX L i v).acc = t.acc := rfl
@[simp] theorem Team.setX_insns (t : Team) (L i : Nat) (v : Word) : (t.setX L i v).insns = t.insns := rfl
@[simp] theorem Team.setX_fcnt (t : Team) (L i : Nat) (v : Word) : (t.setX L i v).fcnt = t.fcnt := rfl
@[simp] theorem Team.setX_fair (t : Team) (L i : Nat) (v : Word) : (t.setX L i v).fair = t.fair := rfl
@[simp] theorem Team.setX_ldc (t : Team) (L i : Nat) (v : Word) : (t.setX L i v).ldc = t.ldc := rfl
@[simp] theorem Team.setX_stc (t : Team) (L i : Nat) (v : Word) : (t.setX L i v).stc = t.stc := rfl
@[simp] theorem Team.setX_cpc (t : Team) (L i : Nat) (v : Word) : (t.setX L i v).cpc = t.cpc := rfl
@[simp] theorem Team.setX_tlc (t : Team) (L i : Nat) (v : Word) : (t.setX L i v).tlc = t.tlc := rfl
@[simp] theorem Team.setX_emc (t : Team) (L i : Nat) (v : Word) : (t.setX L i v).emc = t.emc := rfl
@[simp] theorem Team.setX_eseq (t : Team) (L i : Nat) (v : Word) : (t.setX L i v).eseq = t.eseq := rfl
@[simp] theorem Team.setX_service (t : Team) (L i : Nat) (v : Word) : (t.setX L i v).service = t.service := rfl
@[simp] theorem Team.setX_lastLane (t : Team) (L i : Nat) (v : Word) : (t.setX L i v).lastLane = t.lastLane := rfl
@[simp] theorem Team.setX_lastIssue (t : Team) (L i : Nat) (v : Word) : (t.setX L i v).lastIssue = t.lastIssue := rfl
@[simp] theorem Team.setX_filling (t : Team) (L i : Nat) (v : Word) : (t.setX L i v).filling = t.filling := rfl
@[simp] theorem Team.setX_fillFor (t : Team) (L i : Nat) (v : Word) : (t.setX L i v).fillFor = t.fillFor := rfl
@[simp] theorem Team.setX_parking (t : Team) (L i : Nat) (v : Word) : (t.setX L i v).parking = t.parking := rfl
@[simp] theorem Team.setX_stays (t : Team) (L i : Nat) (v : Word) : (t.setX L i v).stays = t.stays := rfl
@[simp] theorem Team.setX_vback (t : Team) (L i : Nat) (v : Word) : (t.setX L i v).vback = t.vback := rfl
@[simp] theorem Team.setX_ctxAt (t : Team) (L i : Nat) (v : Word) : (t.setX L i v).ctxAt = t.ctxAt := rfl
@[simp] theorem Team.setX_parkAt (t : Team) (L i : Nat) (v : Word) : (t.setX L i v).parkAt = t.parkAt := rfl
@[simp] theorem Team.setX_nonzero (t : Team) (L i : Nat) (v : Word) : (t.setX L i v).nonzero = t.nonzero := rfl
@[simp] theorem Team.setX_walk (t : Team) (L i : Nat) (v : Word) : (t.setX L i v).walk = t.walk := rfl
@[simp] theorem Team.setW_block (t : Team) (j : Nat) (v : Word) : (t.setW j v).block = t.block := rfl
@[simp] theorem Team.setW_index (t : Team) (j : Nat) (v : Word) : (t.setW j v).index = t.index := rfl
@[simp] theorem Team.setW_core (t : Team) (j : Nat) (v : Word) : (t.setW j v).core = t.core := rfl
@[simp] theorem Team.setW_resident (t : Team) (j : Nat) (v : Word) : (t.setW j v).resident = t.resident := rfl
@[simp] theorem Team.setW_parked (t : Team) (j : Nat) (v : Word) : (t.setW j v).parked = t.parked := rfl
@[simp] theorem Team.setW_saved (t : Team) (j : Nat) (v : Word) : (t.setW j v).saved = t.saved := rfl
@[simp] theorem Team.setW_slot (t : Team) (j : Nat) (v : Word) : (t.setW j v).slot = t.slot := rfl
@[simp] theorem Team.setW_parkedAt (t : Team) (j : Nat) (v : Word) : (t.setW j v).parkedAt = t.parkedAt := rfl
@[simp] theorem Team.setW_overflowed (t : Team) (j : Nat) (v : Word) : (t.setW j v).overflowed = t.overflowed := rfl
@[simp] theorem Team.setW_lanes (t : Team) (j : Nat) (v : Word) : (t.setW j v).lanes = t.lanes := rfl
@[simp] theorem Team.setW_v (t : Team) (j : Nat) (v : Word) : (t.setW j v).v = t.v := rfl
@[simp] theorem Team.setW_x (t : Team) (j : Nat) (v : Word) : (t.setW j v).x = t.x := rfl
@[simp] theorem Team.setW_k (t : Team) (j : Nat) (v : Word) : (t.setW j v).k = t.k := rfl
@[simp] theorem Team.setW_acc (t : Team) (j : Nat) (v : Word) : (t.setW j v).acc = t.acc := rfl
@[simp] theorem Team.setW_insns (t : Team) (j : Nat) (v : Word) : (t.setW j v).insns = t.insns := rfl
@[simp] theorem Team.setW_fcnt (t : Team) (j : Nat) (v : Word) : (t.setW j v).fcnt = t.fcnt := rfl
@[simp] theorem Team.setW_fair (t : Team) (j : Nat) (v : Word) : (t.setW j v).fair = t.fair := rfl
@[simp] theorem Team.setW_ldc (t : Team) (j : Nat) (v : Word) : (t.setW j v).ldc = t.ldc := rfl
@[simp] theorem Team.setW_stc (t : Team) (j : Nat) (v : Word) : (t.setW j v).stc = t.stc := rfl
@[simp] theorem Team.setW_cpc (t : Team) (j : Nat) (v : Word) : (t.setW j v).cpc = t.cpc := rfl
@[simp] theorem Team.setW_tlc (t : Team) (j : Nat) (v : Word) : (t.setW j v).tlc = t.tlc := rfl
@[simp] theorem Team.setW_emc (t : Team) (j : Nat) (v : Word) : (t.setW j v).emc = t.emc := rfl
@[simp] theorem Team.setW_eseq (t : Team) (j : Nat) (v : Word) : (t.setW j v).eseq = t.eseq := rfl
@[simp] theorem Team.setW_service (t : Team) (j : Nat) (v : Word) : (t.setW j v).service = t.service := rfl
@[simp] theorem Team.setW_lastLane (t : Team) (j : Nat) (v : Word) : (t.setW j v).lastLane = t.lastLane := rfl
@[simp] theorem Team.setW_lastIssue (t : Team) (j : Nat) (v : Word) : (t.setW j v).lastIssue = t.lastIssue := rfl
@[simp] theorem Team.setW_filling (t : Team) (j : Nat) (v : Word) : (t.setW j v).filling = t.filling := rfl
@[simp] theorem Team.setW_fillFor (t : Team) (j : Nat) (v : Word) : (t.setW j v).fillFor = t.fillFor := rfl
@[simp] theorem Team.setW_parking (t : Team) (j : Nat) (v : Word) : (t.setW j v).parking = t.parking := rfl
@[simp] theorem Team.setW_stays (t : Team) (j : Nat) (v : Word) : (t.setW j v).stays = t.stays := rfl
@[simp] theorem Team.setW_vback (t : Team) (j : Nat) (v : Word) : (t.setW j v).vback = t.vback := rfl
@[simp] theorem Team.setW_ctxAt (t : Team) (j : Nat) (v : Word) : (t.setW j v).ctxAt = t.ctxAt := rfl
@[simp] theorem Team.setW_parkAt (t : Team) (j : Nat) (v : Word) : (t.setW j v).parkAt = t.parkAt := rfl
@[simp] theorem Team.setW_nonzero (t : Team) (j : Nat) (v : Word) : (t.setW j v).nonzero = t.nonzero := rfl
@[simp] theorem Team.setW_walk (t : Team) (j : Nat) (v : Word) : (t.setW j v).walk = t.walk := rfl
@[simp] theorem Team.setK_block (t : Team) (n : Nat) (v : Dbl) : (t.setK n v).block = t.block := rfl
@[simp] theorem Team.setK_index (t : Team) (n : Nat) (v : Dbl) : (t.setK n v).index = t.index := rfl
@[simp] theorem Team.setK_core (t : Team) (n : Nat) (v : Dbl) : (t.setK n v).core = t.core := rfl
@[simp] theorem Team.setK_resident (t : Team) (n : Nat) (v : Dbl) : (t.setK n v).resident = t.resident := rfl
@[simp] theorem Team.setK_parked (t : Team) (n : Nat) (v : Dbl) : (t.setK n v).parked = t.parked := rfl
@[simp] theorem Team.setK_saved (t : Team) (n : Nat) (v : Dbl) : (t.setK n v).saved = t.saved := rfl
@[simp] theorem Team.setK_slot (t : Team) (n : Nat) (v : Dbl) : (t.setK n v).slot = t.slot := rfl
@[simp] theorem Team.setK_parkedAt (t : Team) (n : Nat) (v : Dbl) : (t.setK n v).parkedAt = t.parkedAt := rfl
@[simp] theorem Team.setK_overflowed (t : Team) (n : Nat) (v : Dbl) : (t.setK n v).overflowed = t.overflowed := rfl
@[simp] theorem Team.setK_lanes (t : Team) (n : Nat) (v : Dbl) : (t.setK n v).lanes = t.lanes := rfl
@[simp] theorem Team.setK_v (t : Team) (n : Nat) (v : Dbl) : (t.setK n v).v = t.v := rfl
@[simp] theorem Team.setK_x (t : Team) (n : Nat) (v : Dbl) : (t.setK n v).x = t.x := rfl
@[simp] theorem Team.setK_w (t : Team) (n : Nat) (v : Dbl) : (t.setK n v).w = t.w := rfl
@[simp] theorem Team.setK_acc (t : Team) (n : Nat) (v : Dbl) : (t.setK n v).acc = t.acc := rfl
@[simp] theorem Team.setK_insns (t : Team) (n : Nat) (v : Dbl) : (t.setK n v).insns = t.insns := rfl
@[simp] theorem Team.setK_fcnt (t : Team) (n : Nat) (v : Dbl) : (t.setK n v).fcnt = t.fcnt := rfl
@[simp] theorem Team.setK_fair (t : Team) (n : Nat) (v : Dbl) : (t.setK n v).fair = t.fair := rfl
@[simp] theorem Team.setK_ldc (t : Team) (n : Nat) (v : Dbl) : (t.setK n v).ldc = t.ldc := rfl
@[simp] theorem Team.setK_stc (t : Team) (n : Nat) (v : Dbl) : (t.setK n v).stc = t.stc := rfl
@[simp] theorem Team.setK_cpc (t : Team) (n : Nat) (v : Dbl) : (t.setK n v).cpc = t.cpc := rfl
@[simp] theorem Team.setK_tlc (t : Team) (n : Nat) (v : Dbl) : (t.setK n v).tlc = t.tlc := rfl
@[simp] theorem Team.setK_emc (t : Team) (n : Nat) (v : Dbl) : (t.setK n v).emc = t.emc := rfl
@[simp] theorem Team.setK_eseq (t : Team) (n : Nat) (v : Dbl) : (t.setK n v).eseq = t.eseq := rfl
@[simp] theorem Team.setK_service (t : Team) (n : Nat) (v : Dbl) : (t.setK n v).service = t.service := rfl
@[simp] theorem Team.setK_lastLane (t : Team) (n : Nat) (v : Dbl) : (t.setK n v).lastLane = t.lastLane := rfl
@[simp] theorem Team.setK_lastIssue (t : Team) (n : Nat) (v : Dbl) : (t.setK n v).lastIssue = t.lastIssue := rfl
@[simp] theorem Team.setK_filling (t : Team) (n : Nat) (v : Dbl) : (t.setK n v).filling = t.filling := rfl
@[simp] theorem Team.setK_fillFor (t : Team) (n : Nat) (v : Dbl) : (t.setK n v).fillFor = t.fillFor := rfl
@[simp] theorem Team.setK_parking (t : Team) (n : Nat) (v : Dbl) : (t.setK n v).parking = t.parking := rfl
@[simp] theorem Team.setK_stays (t : Team) (n : Nat) (v : Dbl) : (t.setK n v).stays = t.stays := rfl
@[simp] theorem Team.setK_vback (t : Team) (n : Nat) (v : Dbl) : (t.setK n v).vback = t.vback := rfl
@[simp] theorem Team.setK_ctxAt (t : Team) (n : Nat) (v : Dbl) : (t.setK n v).ctxAt = t.ctxAt := rfl
@[simp] theorem Team.setK_parkAt (t : Team) (n : Nat) (v : Dbl) : (t.setK n v).parkAt = t.parkAt := rfl
@[simp] theorem Team.setK_nonzero (t : Team) (n : Nat) (v : Dbl) : (t.setK n v).nonzero = t.nonzero := rfl
@[simp] theorem Team.setK_walk (t : Team) (n : Nat) (v : Dbl) : (t.setK n v).walk = t.walk := rfl
@[simp] theorem Team.setElem_block (t : Team) (a i n : Nat) (v : AccElem) : (t.setElem a i n v).block = t.block := rfl
@[simp] theorem Team.setElem_index (t : Team) (a i n : Nat) (v : AccElem) : (t.setElem a i n v).index = t.index := rfl
@[simp] theorem Team.setElem_core (t : Team) (a i n : Nat) (v : AccElem) : (t.setElem a i n v).core = t.core := rfl
@[simp] theorem Team.setElem_resident (t : Team) (a i n : Nat) (v : AccElem) : (t.setElem a i n v).resident = t.resident := rfl
@[simp] theorem Team.setElem_parked (t : Team) (a i n : Nat) (v : AccElem) : (t.setElem a i n v).parked = t.parked := rfl
@[simp] theorem Team.setElem_saved (t : Team) (a i n : Nat) (v : AccElem) : (t.setElem a i n v).saved = t.saved := rfl
@[simp] theorem Team.setElem_slot (t : Team) (a i n : Nat) (v : AccElem) : (t.setElem a i n v).slot = t.slot := rfl
@[simp] theorem Team.setElem_parkedAt (t : Team) (a i n : Nat) (v : AccElem) : (t.setElem a i n v).parkedAt = t.parkedAt := rfl
@[simp] theorem Team.setElem_overflowed (t : Team) (a i n : Nat) (v : AccElem) : (t.setElem a i n v).overflowed = t.overflowed := rfl
@[simp] theorem Team.setElem_lanes (t : Team) (a i n : Nat) (v : AccElem) : (t.setElem a i n v).lanes = t.lanes := rfl
@[simp] theorem Team.setElem_v (t : Team) (a i n : Nat) (v : AccElem) : (t.setElem a i n v).v = t.v := rfl
@[simp] theorem Team.setElem_x (t : Team) (a i n : Nat) (v : AccElem) : (t.setElem a i n v).x = t.x := rfl
@[simp] theorem Team.setElem_w (t : Team) (a i n : Nat) (v : AccElem) : (t.setElem a i n v).w = t.w := rfl
@[simp] theorem Team.setElem_k (t : Team) (a i n : Nat) (v : AccElem) : (t.setElem a i n v).k = t.k := rfl
@[simp] theorem Team.setElem_insns (t : Team) (a i n : Nat) (v : AccElem) : (t.setElem a i n v).insns = t.insns := rfl
@[simp] theorem Team.setElem_fcnt (t : Team) (a i n : Nat) (v : AccElem) : (t.setElem a i n v).fcnt = t.fcnt := rfl
@[simp] theorem Team.setElem_fair (t : Team) (a i n : Nat) (v : AccElem) : (t.setElem a i n v).fair = t.fair := rfl
@[simp] theorem Team.setElem_ldc (t : Team) (a i n : Nat) (v : AccElem) : (t.setElem a i n v).ldc = t.ldc := rfl
@[simp] theorem Team.setElem_stc (t : Team) (a i n : Nat) (v : AccElem) : (t.setElem a i n v).stc = t.stc := rfl
@[simp] theorem Team.setElem_cpc (t : Team) (a i n : Nat) (v : AccElem) : (t.setElem a i n v).cpc = t.cpc := rfl
@[simp] theorem Team.setElem_tlc (t : Team) (a i n : Nat) (v : AccElem) : (t.setElem a i n v).tlc = t.tlc := rfl
@[simp] theorem Team.setElem_emc (t : Team) (a i n : Nat) (v : AccElem) : (t.setElem a i n v).emc = t.emc := rfl
@[simp] theorem Team.setElem_eseq (t : Team) (a i n : Nat) (v : AccElem) : (t.setElem a i n v).eseq = t.eseq := rfl
@[simp] theorem Team.setElem_service (t : Team) (a i n : Nat) (v : AccElem) : (t.setElem a i n v).service = t.service := rfl
@[simp] theorem Team.setElem_lastLane (t : Team) (a i n : Nat) (v : AccElem) : (t.setElem a i n v).lastLane = t.lastLane := rfl
@[simp] theorem Team.setElem_lastIssue (t : Team) (a i n : Nat) (v : AccElem) : (t.setElem a i n v).lastIssue = t.lastIssue := rfl
@[simp] theorem Team.setElem_filling (t : Team) (a i n : Nat) (v : AccElem) : (t.setElem a i n v).filling = t.filling := rfl
@[simp] theorem Team.setElem_fillFor (t : Team) (a i n : Nat) (v : AccElem) : (t.setElem a i n v).fillFor = t.fillFor := rfl
@[simp] theorem Team.setElem_parking (t : Team) (a i n : Nat) (v : AccElem) : (t.setElem a i n v).parking = t.parking := rfl
@[simp] theorem Team.setElem_stays (t : Team) (a i n : Nat) (v : AccElem) : (t.setElem a i n v).stays = t.stays := rfl
@[simp] theorem Team.setElem_vback (t : Team) (a i n : Nat) (v : AccElem) : (t.setElem a i n v).vback = t.vback := rfl
@[simp] theorem Team.setElem_ctxAt (t : Team) (a i n : Nat) (v : AccElem) : (t.setElem a i n v).ctxAt = t.ctxAt := rfl
@[simp] theorem Team.setElem_parkAt (t : Team) (a i n : Nat) (v : AccElem) : (t.setElem a i n v).parkAt = t.parkAt := rfl
@[simp] theorem Team.setElem_nonzero (t : Team) (a i n : Nat) (v : AccElem) : (t.setElem a i n v).nonzero = t.nonzero := rfl
@[simp] theorem Team.setElem_walk (t : Team) (a i n : Nat) (v : AccElem) : (t.setElem a i n v).walk = t.walk := rfl
@[simp] theorem Team.vreg_setLane (t : Team) (L : Nat) (v : Lane) (j i : Nat) : (t.setLane L v).vreg j i = t.vreg j i := rfl
@[simp] theorem Team.xreg_setLane (t : Team) (L : Nat) (v : Lane) (j i : Nat) : (t.setLane L v).xreg j i = t.xreg j i := rfl
@[simp] theorem Team.wreg_setLane (t : Team) (L : Nat) (v : Lane) (i : Nat) : (t.setLane L v).wreg i = t.wreg i := rfl
@[simp] theorem Team.kreg_setLane (t : Team) (L : Nat) (v : Lane) (i : Nat) : (t.setLane L v).kreg i = t.kreg i := rfl
@[simp] theorem Team.elem_setLane (t : Team) (L : Nat) (v : Lane) (b i j : Nat) : (t.setLane L v).elem b i j = t.elem b i j := rfl
@[simp] theorem Team.lane_setV (t : Team) (L n : Nat) (v : Word) (j : Nat) : (t.setV L n v).lane j = t.lane j := rfl
@[simp] theorem Team.xreg_setV (t : Team) (L n : Nat) (v : Word) (j i : Nat) : (t.setV L n v).xreg j i = t.xreg j i := rfl
@[simp] theorem Team.wreg_setV (t : Team) (L n : Nat) (v : Word) (i : Nat) : (t.setV L n v).wreg i = t.wreg i := rfl
@[simp] theorem Team.kreg_setV (t : Team) (L n : Nat) (v : Word) (i : Nat) : (t.setV L n v).kreg i = t.kreg i := rfl
@[simp] theorem Team.elem_setV (t : Team) (L n : Nat) (v : Word) (b i j : Nat) : (t.setV L n v).elem b i j = t.elem b i j := rfl
@[simp] theorem Team.lane_setX (t : Team) (L m : Nat) (v : Word) (j : Nat) : (t.setX L m v).lane j = t.lane j := rfl
@[simp] theorem Team.vreg_setX (t : Team) (L m : Nat) (v : Word) (j i : Nat) : (t.setX L m v).vreg j i = t.vreg j i := rfl
@[simp] theorem Team.wreg_setX (t : Team) (L m : Nat) (v : Word) (i : Nat) : (t.setX L m v).wreg i = t.wreg i := rfl
@[simp] theorem Team.kreg_setX (t : Team) (L m : Nat) (v : Word) (i : Nat) : (t.setX L m v).kreg i = t.kreg i := rfl
@[simp] theorem Team.elem_setX (t : Team) (L m : Nat) (v : Word) (b i j : Nat) : (t.setX L m v).elem b i j = t.elem b i j := rfl
@[simp] theorem Team.lane_setW (t : Team) (m : Nat) (v : Word) (j : Nat) : (t.setW m v).lane j = t.lane j := rfl
@[simp] theorem Team.vreg_setW (t : Team) (m : Nat) (v : Word) (j i : Nat) : (t.setW m v).vreg j i = t.vreg j i := rfl
@[simp] theorem Team.xreg_setW (t : Team) (m : Nat) (v : Word) (j i : Nat) : (t.setW m v).xreg j i = t.xreg j i := rfl
@[simp] theorem Team.kreg_setW (t : Team) (m : Nat) (v : Word) (i : Nat) : (t.setW m v).kreg i = t.kreg i := rfl
@[simp] theorem Team.elem_setW (t : Team) (m : Nat) (v : Word) (b i j : Nat) : (t.setW m v).elem b i j = t.elem b i j := rfl
@[simp] theorem Team.lane_setK (t : Team) (m : Nat) (v : Dbl) (j : Nat) : (t.setK m v).lane j = t.lane j := rfl
@[simp] theorem Team.vreg_setK (t : Team) (m : Nat) (v : Dbl) (j i : Nat) : (t.setK m v).vreg j i = t.vreg j i := rfl
@[simp] theorem Team.xreg_setK (t : Team) (m : Nat) (v : Dbl) (j i : Nat) : (t.setK m v).xreg j i = t.xreg j i := rfl
@[simp] theorem Team.wreg_setK (t : Team) (m : Nat) (v : Dbl) (i : Nat) : (t.setK m v).wreg i = t.wreg i := rfl
@[simp] theorem Team.elem_setK (t : Team) (m : Nat) (v : Dbl) (b i j : Nat) : (t.setK m v).elem b i j = t.elem b i j := rfl
@[simp] theorem Team.lane_setElem (t : Team) (a c d : Nat) (v : AccElem) (j : Nat) : (t.setElem a c d v).lane j = t.lane j := rfl
@[simp] theorem Team.vreg_setElem (t : Team) (a c d : Nat) (v : AccElem) (j i : Nat) : (t.setElem a c d v).vreg j i = t.vreg j i := rfl
@[simp] theorem Team.xreg_setElem (t : Team) (a c d : Nat) (v : AccElem) (j i : Nat) : (t.setElem a c d v).xreg j i = t.xreg j i := rfl
@[simp] theorem Team.wreg_setElem (t : Team) (a c d : Nat) (v : AccElem) (i : Nat) : (t.setElem a c d v).wreg i = t.wreg i := rfl
@[simp] theorem Team.kreg_setElem (t : Team) (a c d : Nat) (v : AccElem) (i : Nat) : (t.setElem a c d v).kreg i = t.kreg i := rfl

@[simp] theorem Team.lane_setLane_self (t : Team) (L : Nat) (v : Lane) : (t.setLane L v).lane L = v :=
  SMap.get_set_self _ _ _ _
theorem Team.lane_setLane (t : Team) (L M : Nat) (v : Lane) : (t.setLane L v).lane M = if M = L then v else t.lane M :=
  SMap.get_set _ _ _ _ _
@[simp] theorem Team.vreg_setV_self (t : Team) (L n : Nat) (w : Word) : (t.setV L n w).vreg L n = w :=
  SMap.get_set_self _ _ _ _
/-- Registers of other numbers, and of other lanes, stay (below 512 a key names one lane and one register). -/
theorem Team.vreg_setV_ne (t : Team) {L n M m : Nat} (w : Word) (hn : n < 512) (hm : m < 512) (h : M ≠ L ∨ m ≠ n) :
    (t.setV L n w).vreg M m = t.vreg M m := SMap.get_set_ne _ _ _ (by omega)
theorem Team.vreg_setV (t : Team) {L n M m : Nat} (w : Word) (hn : n < 512) (hm : m < 512) :
    (t.setV L n w).vreg M m = if M = L ∧ m = n then w else t.vreg M m := by
  split
  · next h => rw [h.1, h.2, Team.vreg_setV_self]
  · next h => exact Team.vreg_setV_ne t w hn hm (by tauto)
@[simp] theorem Team.xreg_setX_self (t : Team) (L i : Nat) (w : Word) : (t.setX L i w).xreg L i = w :=
  SMap.get_set_self _ _ _ _
theorem Team.xreg_setX_ne (t : Team) {L i M j : Nat} (w : Word) (hi : i < 4) (hj : j < 4) (h : M ≠ L ∨ j ≠ i) :
    (t.setX L i w).xreg M j = t.xreg M j := SMap.get_set_ne _ _ _ (by omega)
@[simp] theorem Team.wreg_setW_self (t : Team) (j : Nat) (w : Word) : (t.setW j w).wreg j = w :=
  SMap.get_set_self _ _ _ _
theorem Team.wreg_setW (t : Team) (i j : Nat) (w : Word) : (t.setW j w).wreg i = if i = j then w else t.wreg i :=
  SMap.get_set _ _ _ _ _
@[simp] theorem Team.kreg_setK_self (t : Team) (n : Nat) (w : Dbl) : (t.setK n w).kreg n = w :=
  SMap.get_set_self _ _ _ _
theorem Team.kreg_setK (t : Team) (i n : Nat) (w : Dbl) : (t.setK n w).kreg i = if i = n then w else t.kreg i :=
  SMap.get_set _ _ _ _ _
@[simp] theorem Team.elem_setElem_self (t : Team) (a i n : Nat) (e : AccElem) : (t.setElem a i n e).elem a i n = e :=
  SMap.get_set_self _ _ _ _
@[simp] theorem Block.bar_setBar_self (k : Block) (b : Nat) (v : Barrier) : (k.setBar b v).bar b = v :=
  SMap.get_set_self _ _ _ _
theorem Block.bar_setBar (k : Block) (a b : Nat) (v : Barrier) : (k.setBar b v).bar a = if a = b then v else k.bar a :=
  SMap.get_set _ _ _ _ _

end Sys2Proof.Machine
end

