-- ==== Sys2Proof/Laws/Clocks.lean ====
section
/-! SUPPORT. What an exchange of Lamport clocks does (11 R285; 18 R412): the receiver's clock rises to the sender's, and nothing
else changes. -/
namespace Sys2Proof.Machine

/-- Only the unit's clock can change. -/
theorem State.tellLead_eq (s : State) (u l : Nat) : s.tellLead u l = { s with units := (s.tellLead u l).units } := by
  unfold State.tellLead; split <;> rfl

/-- The receiver's clock rises to the sender's. -/
theorem State.tellLead_units (s : State) (u l v : Nat) :
    (s.tellLead u l).units.get 0 v = if v = u then max (s.units.get 0 u) l else s.units.get 0 v := by
  unfold State.tellLead
  split
  · rw [SMap.get_set]
    split <;> omega
  · split
    · subst v; omega
    · rfl

/-- A core's message to a unit changes the unit's clock alone. -/
theorem State.tellUnit_eq (s : State) (n u : Nat) : s.tellUnit n u = { s with units := (s.tellUnit n u).units } :=
  State.tellLead_eq _ _ _

/-- A unit's message to a core changes the core's clock alone. -/
theorem State.tellCore_eq (s : State) (u n : Nat) : s.tellCore u n = { s with cores := (s.tellCore u n).cores } := by
  unfold State.tellCore; split <;> rfl

/-- The core's clock rises to the unit's. -/
theorem State.tellCore_core (s : State) (u n m : Nat) :
    (s.tellCore u n).core m =
      if m = n then { s.core n with lead := max (s.core n).lead (s.units.get 0 u) } else s.core m := by
  unfold State.tellCore
  split
  · rw [State.core_setCore]
    split
    · rw [max_eq_right (by omega)]
    · rfl
  · split
    · subst m; rw [max_eq_left (by omega)]
    · rfl

/-- Two units that exchange messages have one clock, the later of theirs. -/
theorem State.tellUnits_units (s : State) (u v w : Nat) :
    (s.tellUnits u v).units.get 0 w =
      if w = u ∨ w = v then max (s.units.get 0 u) (s.units.get 0 v) else s.units.get 0 w := by
  unfold State.tellUnits
  simp only [State.tellLead_units]
  split_ifs <;> subst_vars <;> omega

/-- A request and its answer change the clocks of the core and of the target's home alone (11 R285). -/
theorem State.callHome_eq (s : State) (n : Nat) (t : Target) :
    s.callHome n t = { s with units := (s.callHome n t).units, cores := (s.callHome n t).cores } := by
  unfold State.callHome
  simp only
  rw [State.tellCore_eq, State.tellUnit_eq]

/-- After them both have one clock, the later of theirs. -/
theorem State.callHome_core (s : State) (n m : Nat) (t : Target) :
    (s.callHome n t).core m =
      if m = n then { s.core n with lead := max (s.core n).lead (s.units.get 0 (s.homeUnit n t)) } else s.core m := by
  unfold State.callHome
  simp only
  rw [State.tellCore_core]
  have h : ∀ k, (s.tellUnit n (s.homeUnit n t)).core k = s.core k := fun k => by rw [State.tellUnit_eq]; rfl
  have hu : (s.tellUnit n (s.homeUnit n t)).units.get 0 (s.homeUnit n t) =
      max (s.units.get 0 (s.homeUnit n t)) (s.core n).lead := by
    unfold State.tellUnit; rw [State.tellLead_units, if_pos rfl]
  rw [h, h, hu, show max (s.core n).lead (max (s.units.get 0 (s.homeUnit n t)) (s.core n).lead) =
    max (s.core n).lead (s.units.get 0 (s.homeUnit n t)) by omega]

end Sys2Proof.Machine
end

