-- ==== Sys2Proof/Laws/Memory.lean ====
section
/-! SUPPORT. Every operation on the four byte memories keeps their canonical form, and the reset state has it. -/
namespace Sys2Proof.Machine

/-! ### Byte memories -/

theorem SMap.above_filter {α : Type} (m : SMap α) (p : Nat × α → Bool) (lo : Option Nat) (h : m.above lo) :
    SMap.above (m.filter p) lo := fun q hq => h q (List.mem_filter.mp hq).1

theorem SMap.rising_filter {α : Type} (m : SMap α) (p : Nat × α → Bool) (lo : Option Nat) (h : m.rising lo = true) :
    SMap.rising (m.filter p) lo = true := by
  induction m generalizing lo with
  | nil => rfl
  | cons q r ih =>
    obtain ⟨k, v⟩ := q
    have h' := (SMap.rising_cons k v r lo).mp h
    simp only [List.filter_cons]
    split
    · exact (SMap.rising_cons _ _ _ _).mpr ⟨h'.1, ih _ h'.2⟩
    · refine SMap.rising_weaken _ _ _ (ih _ h'.2) (SMap.above_filter _ _ _ fun q hq => ?_)
      exact SMap.rising_above _ _ h q (List.mem_cons_of_mem _ hq)

/-- Removing entries keeps the canonical form: the bytes removed read as zero. -/
theorem Memory.filter_wf (m : List Host.Cell) (p : Host.Cell → Bool) (h : Memory.wf m = true) :
    Memory.wf (m.filter p) = true := by
  simp only [Memory.wf, SMap.wf, Bool.and_eq_true, List.all_eq_true] at h ⊢
  exact ⟨SMap.rising_filter m p none h.1, fun q hq => h.2 q (List.mem_filter.mp hq).1⟩

/-- Writing a list of cells keeps the canonical form. -/
theorem Memory.setCells_wf (cs m : List Host.Cell) (p : Nat) (h : Memory.wf m = true) :
    Memory.wf (cs.foldl (fun m (c : Host.Cell) => Memory.setByte m (p + c.1) c.2) m) = true := by
  induction cs generalizing m with
  | nil => exact h
  | cons c r ih => exact ih _ (Memory.setByte_wf m _ _ h)

/-! ### The memories of a state -/

/-- The four memories, apart from the rest of the state. -/
def State.mems (s : State) : List Host.Cell × List Host.Cell × List Host.Cell × List Host.Cell :=
  (s.hbm, s.vaults, s.host, s.remote)

theorem State.memWf_iff (s : State) : s.memWf = true ↔
    Memory.wf s.hbm = true ∧ Memory.wf s.vaults = true ∧ Memory.wf s.host = true ∧ Memory.wf s.remote = true := by
  simp [State.memWf, and_assoc]

/-- The canonical form speaks of the four memories alone. -/
theorem State.memWf_of_mems {s t : State} (e : t.mems = s.mems) (h : s.memWf = true) : t.memWf = true := by
  simp only [State.mems, Prod.mk.injEq] at e
  rw [State.memWf_iff] at h ⊢
  rwa [e.1, e.2.1, e.2.2.1, e.2.2.2]

/-- The reset state's memories are in canonical form. -/
theorem State.reset_memWf : State.reset.memWf = true := rfl

/-- A fold keeps the canonical form when each of its steps does. -/
theorem State.memWf_foldl {α : Type} (f : State → α → State) (hf : ∀ s a, s.memWf = true → (f s a).memWf = true)
    (l : List α) (s : State) (h : s.memWf = true) : (l.foldl f s).memWf = true := by
  induction l generalizing s with
  | nil => exact h
  | cons a r ih => exact ih _ (hf s a h)

/-- A fold leaves the memories when each of its steps does. -/
theorem State.mems_foldl {α : Type} (f : State → α → State) (hf : ∀ s a, (f s a).mems = s.mems) (l : List α) (s : State) :
    (l.foldl f s).mems = s.mems := by
  induction l generalizing s with
  | nil => rfl
  | cons a r ih => rw [List.foldl_cons, ih, hf]

@[simp] theorem State.setFunc_mems (s : State) (f : Nat) (v : Func) : (s.setFunc f v).mems = s.mems := rfl
@[simp] theorem State.setQueue_mems (s : State) (q : Nat) (v : Queue) : (s.setQueue q v).mems = s.mems := rfl
@[simp] theorem State.setYard_mems (s : State) (d : Nat) (v : Yard) : (s.setYard d v).mems = s.mems := rfl
@[simp] theorem State.setRun_mems (s : State) (r : Nat) (v : Run) : (s.setRun r v).mems = s.mems := rfl
@[simp] theorem State.setStall_mems (s : State) (r n : Nat) (v : Stall) : (s.setStall r n v).mems = s.mems := rfl
@[simp] theorem State.setBlock_mems (s : State) (b : Nat) (v : Block) : (s.setBlock b v).mems = s.mems := rfl
@[simp] theorem State.setTeam_mems (s : State) (t : Nat) (v : Team) : (s.setTeam t v).mems = s.mems := rfl
@[simp] theorem State.setCore_mems (s : State) (n : Nat) (v : Core) : (s.setCore n v).mems = s.mems := rfl
@[simp] theorem State.mapTeams_mems (s : State) (f : Nat → Team → Team) : (s.mapTeams f).mems = s.mems := rfl
@[simp] theorem State.trigger_mems (s : State) (l : Nat) : (s.trigger l).mems = s.mems := rfl
@[simp] theorem State.l1Room_mems (s : State) (core line : Nat) : (s.l1Room core line).mems = s.mems := by
  unfold State.l1Room; simp only; split <;> rfl
@[simp] theorem State.spoilImages_mems (s : State) (p n : Nat) : (s.spoilImages p n).mems = s.mems := by
  unfold State.spoilImages; split <;> rfl
@[simp] theorem State.acquire_mems (s : State) (n : Nat) : (s.acquire n).mems = s.mems := rfl
@[simp] theorem State.dropSector_mems (s : State) (n k : Nat) : (s.dropSector n k).mems = s.mems := rfl
@[simp] theorem State.bbEvent_mems (s : State) (d k v : Nat) : (s.bbEvent d k v).mems = s.mems := rfl
@[simp] theorem State.raise_mems (s : State) (f v : Nat) : (s.raise f v).mems = s.mems := by
  unfold State.raise; generalize (if f = 0 then 256 else 32 : Nat) = k; split <;> rfl
@[simp] theorem State.tellLead_mems (s : State) (u l : Nat) : (s.tellLead u l).mems = s.mems := by
  unfold State.tellLead; split <;> rfl
@[simp] theorem State.tellUnit_mems (s : State) (n u : Nat) : (s.tellUnit n u).mems = s.mems := State.tellLead_mems _ _ _
@[simp] theorem State.tellCore_mems (s : State) (u n : Nat) : (s.tellCore u n).mems = s.mems := by
  unfold State.tellCore; split <;> rfl
@[simp] theorem State.callHome_mems (s : State) (n : Nat) (t : Target) : (s.callHome n t).mems = s.mems :=
  (State.tellCore_mems _ _ _).trans (State.tellUnit_mems _ _ _)
@[simp] theorem State.revoke_mems (s : State) (who w : Nat) : (s.revoke who w).mems = s.mems := by
  unfold State.revoke; simp only; split
  · rfl
  · exact State.callHome_mems _ _ _
@[simp] theorem State.own_mems (s : State) (who ts : Nat) (keep : Bool) (w : Nat) : (s.own who ts keep w).mems = s.mems := by
  unfold State.own
  simp only
  split
  · exact State.revoke_mems _ _ _
  · exact (State.l1Room_mems _ _ _).trans (State.revoke_mems _ _ _)
@[simp] theorem State.tellUnits_mems (s : State) (u v : Nat) : (s.tellUnits u v).mems = s.mems := by
  unfold State.tellUnits; rw [State.tellLead_mems, State.tellLead_mems]
@[simp] theorem State.ownAt_mems (s : State) (who ts : Nat) (t : Target) (n : Nat) : (s.ownAt who ts t n).mems = s.mems := rfl

/-! ### Writes of HBM -/

theorem State.setHbmByte_memWf (s : State) (p : Nat) (v : Byte) (h : s.memWf = true) : (s.setHbmByte p v).memWf = true := by
  rw [State.memWf_iff] at h ⊢
  exact ⟨Memory.setByte_wf _ _ _ h.1, h.2⟩

theorem State.hbmWrite_memWf (s : State) (p n v : Nat) (h : s.memWf = true) : (s.hbmWrite p n v).memWf = true := by
  induction n generalizing s p v with
  | zero => exact h
  | succ k ih => exact ih _ _ _ (State.setHbmByte_memWf s p _ h)

theorem State.rawWrite_memWf (s : State) (p n v : Nat) (h : s.memWf = true) : (s.rawWrite p n v).memWf = true :=
  State.memWf_of_mems (s := s.hbmWrite p n v) rfl (State.hbmWrite_memWf s p n v h)

theorem State.writeLog_memWf (s : State) (die : Nat) (k : LogKind) (kind func job unit ts a b : Nat) (h : s.memWf = true) :
    (s.writeLog die k kind func job unit ts a b).memWf = true := by
  unfold State.writeLog
  simp only
  split
  · exact h
  · exact State.memWf_of_mems (State.setYard_mems _ _ _)
      (State.rawWrite_memWf _ _ _ _ (State.rawWrite_memWf _ _ _ _ (State.rawWrite_memWf _ _ _ _
        (State.rawWrite_memWf _ _ _ _ h))))

theorem State.orderLog_memWf (s : State) (b n kind ts a v : Nat) (h : s.memWf = true) :
    (s.orderLog b n kind ts a v).memWf = true := State.writeLog_memWf _ _ _ _ _ _ _ _ _ _ h

/-! ### Writes at a home -/

/-- A write performed at any home. -/
theorem State.poke_memWf (s : State) (who ts : Nat) (keep : Bool) (t : Target) (n v : Nat) (h : s.memWf = true) :
    (s.poke who ts keep t n v).memWf = true := by
  cases t with
  | hbm p =>
    refine State.memWf_of_mems (State.trigger_mems _ _) ?_
    exact State.memWf_foldl _ (fun s w hs => State.memWf_of_mems (State.own_mems _ _ _ _ _) hs) _ _
      (State.rawWrite_memWf s p n v h)
  | vault c o =>
    refine State.memWf_of_mems ((State.trigger_mems _ _).trans (State.ownAt_mems _ _ _ _ _)) ?_
    rw [State.memWf_iff] at h ⊢
    exact ⟨h.1, Memory.write_wf _ _ _ _ h.2.1, h.2.2⟩
  | host p =>
    refine State.memWf_of_mems (State.ownAt_mems _ _ _ _ _) ?_
    rw [State.memWf_iff] at h
    exact (State.memWf_iff _).mpr ⟨h.1, h.2.1, Memory.write_wf _ _ _ _ h.2.2.1, h.2.2.2⟩
  | remote a p =>
    refine State.memWf_of_mems (State.ownAt_mems _ _ _ _ _) ?_
    rw [State.memWf_iff] at h
    exact (State.memWf_iff _).mpr ⟨h.1, h.2.1, h.2.2.1, Memory.write_wf _ _ _ _ h.2.2.2⟩
  | door p => exact h

theorem State.logBatchCores_memWf (s : State) (die func job unit ts : Nat) (cs : List (Nat × Nat)) (h : s.memWf = true) :
    (s.logBatchCores die func job unit ts cs).memWf = true := by
  fun_induction State.logBatchCores s die func job unit ts cs with
  | case1 s => exact h
  | case2 s c => exact State.writeLog_memWf _ _ _ _ _ _ _ _ _ _ h
  | case3 s c c' r enc ih => exact ih (State.writeLog_memWf _ _ _ _ _ _ _ _ _ _ h)

theorem State.logBatch_memWf (s : State) (line : Nat) (b : List Pair) (h : s.memWf = true) :
    (s.logBatch line b).memWf = true := by
  unfold State.logBatch
  split
  · exact h
  · exact State.logBatchCores_memWf _ _ _ _ _ _ _ (State.writeLog_memWf _ _ _ _ _ _ _ _ _ _ h)

/-- A pen's batch. -/
theorem State.applyLine_memWf (s : State) (line : Nat) (h : s.memWf = true) : (s.applyLine line).memWf = true := by
  unfold State.applyLine
  split
  · exact h
  · refine State.memWf_of_mems (s := List.foldl _ _ _) rfl ?_
    refine State.memWf_foldl _ (fun s k hs => State.poke_memWf _ _ _ _ _ _ _ hs) _ _ ?_
    exact State.memWf_foldl _ (fun s q hs => State.hbmWrite_memWf _ _ _ _ hs) _ _
      (State.logBatch_memWf _ _ _ (State.memWf_of_mems (State.tellUnits_mems _ _ _) h))

theorem State.reach_memWf (s : State) (t : Target) (h : s.memWf = true) : (s.reach t).memWf = true := by
  cases t <;> first | exact State.applyLine_memWf _ _ h | exact h

theorem State.devReach_memWf (s : State) (f a n : Nat) (h : s.memWf = true) : (s.devReach f a n).memWf = true := by
  refine State.memWf_foldl _ (fun s i hs => ?_) _ _ h
  split
  · exact State.reach_memWf _ _ hs
  · exact hs

/-- A device's write. -/
theorem State.devWrite_memWf (s t : State) (f a n v : Nat) (h : s.memWf = true) (e : s.devWrite f a n v = some t) :
    t.memWf = true := by
  unfold State.devWrite at e
  split at e
  · cases e
  · split at e
    · split at e <;> cases e
      · exact State.poke_memWf _ _ _ _ _ _ _ (State.reach_memWf _ _ h)
      · exact h
    · cases e

theorem State.devWrite_getD_memWf (s : State) (f a n v : Nat) (h : s.memWf = true) :
    ((s.devWrite f a n v).getD s).memWf = true := by
  cases e : s.devWrite f a n v with
  | none => exact h
  | some t => exact State.devWrite_memWf s t f a n v h e

/-- What follows the device writes of a function is done now or recorded as waiting. -/
theorem State.afterPosted_memWf (s : State) (f : Nat) (k : PostedKind) (n : Nat) (act : State → State)
    (ha : (act s).memWf = true) (h : s.memWf = true) : (s.afterPosted f k n act).memWf = true := by
  unfold State.afterPosted; split
  · exact h
  · exact ha

/-- A vector that waits for its function's device writes writes no memory. -/
@[simp] theorem State.raiseAfter_mems (s : State) (f v : Nat) : (s.raiseAfter f v).mems = s.mems := by
  unfold State.raiseAfter State.afterPosted; split
  · rfl
  · exact State.raise_mems _ _ _

/-! ### Policy events write no byte memory -/

theorem State.policyFault_mems (s : State) (p : PolicyRun) : (s.policyFault p).mems = s.mems := rfl

theorem npbInstr_mems (s t : State) (f : PolicyRun → State) (hf : ∀ p, (f p).mems = s.mems) (e : npbInstr s f = .next t) :
    t.mems = s.mems := by
  unfold npbInstr at e
  split at e <;> cases e
  split
  · rfl
  · exact hf _

/-- No instruction of a policy writes a byte memory. -/
theorem npbMeanings_mems : ∀ x ∈ npbMeanings, ∀ (o : NpbOp) (s t : State), x.2.2 o s = .next t → t.mems = s.mems := by
  simp only [npbMeanings, List.forall_mem_cons]
  refine ⟨?_, ?_, ?_, ?_, ?_, ?_, ?_, ?_, ?_, ?_, ?_, ?_, ?_, ?_, ?_, ?_, ?_, ?_, ?_, ?_, ?_, ?_, ?_, ?_, nofun⟩ <;>
    refine fun o s t e => npbInstr_mems s t _ (fun p => ?_) e
  all_goals first
    | rfl
    | (dsimp only; split <;> rfl)

theorem State.policyStep_mems (s t : State) (e : s.policyStep = .next t) : t.mems = s.mems := by
  unfold State.policyStep at e
  split at e
  · cases e; rfl
  · split at e
    · cases e; rfl
    · split at e
      · rename_i hl
        obtain ⟨l, r, hm, -⟩ := List.lookup_eq_some_iff.mp hl
        exact npbMeanings_mems _ (by rw [hm]; exact List.mem_append_right _ List.mem_cons_self) _ _ _ e
      · cases e; rfl

theorem State.policyRun_mems (s : State) (n : Nat) : (s.policyRun n).mems = s.mems := by
  induction n generalizing s with
  | zero => rfl
  | succ k ih =>
    unfold State.policyRun
    split
    · rfl
    · split
      · rfl
      · split
        · rename_i e; exact (ih _).trans (State.policyStep_mems _ _ e)
        · rfl

theorem State.policyEvent_mems (s : State) (f code : Nat) (rest : List Dbl) : (s.policyEvent f code rest).1.mems = s.mems := by
  unfold State.policyEvent
  split
  · rfl
  · simp only
    split <;> exact (State.policyRun_mems _ _).trans (State.policyRun_mems _ _)

/-! ### Queues and completions -/

theorem State.enqueueEvent_memWf (s : State) (q : Nat) (e : BitVec 512) (h : s.memWf = true) :
    (s.enqueueEvent q e).memWf = true := State.memWf_of_mems (State.policyEvent_mems _ _ _ _) h

/-- An examination reads the ring, whose line's pending pairs are applied first. -/
theorem State.examine_memWf (s : State) (q : Nat) (h : s.memWf = true) : (s.examine q).memWf = true := by
  unfold State.examine
  simp only
  split
  · exact h
  split
  · exact h
  split
  · exact h
  have hr := fun f a (x : Queue) =>
    State.memWf_of_mems (State.setQueue_mems (s.devReach f a 64) q x) (State.devReach_memWf s f a 64 h)
  split
  · exact State.memWf_of_mems (State.setQueue_mems _ _ _) (hr _ _ _)
  split
  · exact State.memWf_of_mems (State.setQueue_mems _ _ _) (hr _ _ _)
  split
  · exact State.enqueueEvent_memWf _ _ _ (State.memWf_of_mems (State.setQueue_mems _ _ _) (hr _ _ _))
  · exact State.memWf_of_mems (State.setQueue_mems _ _ _) (hr _ _ _)

theorem State.examineAll_memWf (s : State) (f : Nat) (h : s.memWf = true) : (s.examineAll f).memWf = true :=
  State.memWf_foldl _ State.examine_memWf _ _ h

theorem State.decrementCounter_memWf (s : State) (f i : Nat) (h : s.memWf = true) : (s.decrementCounter f i).memWf = true := by
  unfold State.decrementCounter
  simp only
  split
  · exact h
  split
  · exact State.examineAll_memWf _ _ h
  · exact h

theorem State.closeUnits_mems (s : State) (u : Nat) : (s.closeUnits u).mems = s.mems := by
  unfold State.closeUnits
  split
  · rfl
  split
  · rfl
  split
  · rfl
  simp only
  split <;> rfl

theorem State.finishRun_memWf (s : State) (r : Nat) (h : s.memWf = true) : (s.finishRun r).memWf = true :=
  State.examine_memWf _ _ (State.decrementCounter_memWf _ _ _ (State.memWf_of_mems (State.closeUnits_mems _ _) h))

/-- What waited for device writes is done, in order. -/
theorem State.postedOut_memWf (s : State) (ws : List Posted) (h : s.memWf = true) : (s.postedOut ws).memWf = true := by
  induction ws generalizing s with
  | nil => exact h
  | cons w r ih =>
    refine ih _ ?_
    split
    · exact State.devWrite_getD_memWf _ _ _ _ _ h
    · exact State.memWf_of_mems (State.raiseAfter_mems _ _ _) h
    · exact State.afterPosted_memWf _ _ _ _ _ (State.decrementCounter_memWf _ _ _ h) h
    · exact State.afterPosted_memWf _ _ _ _ _ (State.finishRun_memWf _ _ h) h

theorem State.flushPosted_memWf (s : State) (h : s.memWf = true) : s.flushPosted.memWf = true := by
  unfold State.flushPosted
  split
  · exact h
  · exact State.postedOut_memWf _ _ h

theorem State.devWriteBytes_memWf (s : State) (f a : Nat) (bs : List Byte) (c : Nat) (h : s.memWf = true) :
    (s.devWriteBytes f a bs c).memWf = true := by
  induction c generalizing s a bs with
  | zero => exact h
  | succ k ih =>
    unfold State.devWriteBytes
    split
    · exact h
    · exact ih _ _ _ (State.devWrite_getD_memWf _ _ _ _ _ h)

/-- An outside agent's write. -/
theorem State.outsideWrite_memWf (s : State) (t : Target) (n v : Nat) (h : s.memWf = true) :
    (s.outsideWrite t n v).memWf = true := by
  unfold State.outsideWrite
  split
  · split
    · exact h
    · split
      · exact State.memWf_of_mems (State.spoilImages_mems _ _ _) h
      · split
        · exact State.poke_memWf _ _ _ _ _ _ _ (State.reach_memWf _ _ h)
        · exact h
  · split
    · exact State.poke_memWf _ _ _ _ _ _ _ h
    · exact h
  · split
    · exact State.poke_memWf _ _ _ _ _ _ _ h
    · exact h
  · exact h

/-- A B-operand field written by a matrix unit. -/
theorem State.setBfield_memWf (s : State) (who c o off v : Nat) (h : s.memWf = true) :
    (s.setBfield who c o off v).memWf = true := State.poke_memWf _ _ _ _ _ _ _ h

/-! ### Writes of host memory and of the vaults -/

theorem State.assistEntry_memWf (s : State) (n v : Nat) (h : s.memWf = true) : (s.assistEntry n v).memWf = true := by
  rw [State.memWf_iff] at h
  exact (State.memWf_iff _).mpr ⟨h.1, h.2.1, Memory.write_wf _ _ _ _ h.2.2.1, h.2.2.2⟩

theorem State.assistCont_memWf (s : State) (n : Nat) (cs : List (BitVec 256)) (h : s.memWf = true) :
    (s.assistCont n cs).memWf = true := by
  induction cs generalizing s n with
  | nil => exact h
  | cons c r ih => exact ih _ _ (State.assistEntry_memWf _ _ _ h)

theorem State.clearVault_memWf (s : State) (place n : Nat) (h : s.memWf = true) : (s.clearVault place n).memWf = true := by
  rw [State.memWf_iff] at h
  exact (State.memWf_iff _).mpr ⟨h.1, Memory.filter_wf _ _ h.2.1, h.2.2⟩

theorem settleBytes_wf (stamp : Nat) (m hist : List Host.Cell) (k a : Nat) (h : Memory.wf m = true) :
    Memory.wf (settleBytes stamp m hist k a) = true := by
  unfold settleBytes
  generalize hist.filter (fun c => Config.freePick stamp c.1 % 2 == 1) = cs
  have h0 := Memory.filter_wf m (fun c => !(k ≤ c.1 && c.1 < k + 4096)) h
  revert h0
  generalize m.filter (fun c => !(k ≤ c.1 && c.1 < k + 4096)) = m0
  intro h0
  induction cs generalizing m0 with
  | nil => exact h0
  | cons c r ih => exact ih _ (Memory.setByte_wf _ _ _ h0)

theorem State.settlePage_memWf (s : State) (b a : Nat) (h : s.memWf = true) : (s.settlePage b a).memWf = true := by
  rw [State.memWf_iff] at h
  unfold State.settlePage
  simp only
  split <;> refine (State.memWf_iff _).mpr ?_ <;> simp [h, settleBytes_wf]

theorem State.settleArena_memWf (s : State) (b base n : Nat) (h : s.memWf = true) :
    (s.settleArena b base n).memWf = true :=
  State.memWf_foldl _ (fun _ _ hs => State.settlePage_memWf _ _ _ hs) _ _ h

theorem State.settlePages_memWf (s : State) (h : s.memWf = true) : s.settlePages.memWf = true :=
  State.memWf_foldl _ (fun _ _ hs => State.settlePage_memWf _ _ _ hs) _ _ h

/-- The vault bytes of a saved block come back. -/
theorem State.restoreVault_memWf (s : State) (p : Nat) (cs : List Host.Cell) (h : s.memWf = true) :
    ({ s with vaults := cs.foldl (fun m (c : Host.Cell) => Memory.setByte m (p + c.1) c.2) s.vaults } : State).memWf
      = true := by
  rw [State.memWf_iff] at h
  exact (State.memWf_iff _).mpr ⟨h.1, Memory.setCells_wf _ _ _ h.2.1, h.2.2⟩

/-! ### Bring-up and resets -/

theorem State.bbEvent_memWf (s : State) (d k v : Nat) (h : s.memWf = true) : (s.bbEvent d k v).memWf = true :=
  State.memWf_of_mems (State.bbEvent_mems _ _ _ _) h

theorem State.stageWork_memWf (s : State) (h : s.memWf = true) : s.stageWork.memWf = true := by
  rw [State.memWf_iff] at h
  unfold State.stageWork
  split
  · exact (State.memWf_iff _).mpr h
  · exact (State.memWf_iff _).mpr h
  · exact (State.memWf_iff _).mpr ⟨rfl, h.2⟩
  · exact (State.memWf_iff _).mpr ⟨h.1, rfl, h.2.2⟩
  · exact (State.memWf_iff _).mpr h

theorem State.restart_memWf (s : State) (h : s.memWf = true) : s.restart.memWf = true := by
  rw [State.memWf_iff] at h
  exact (State.memWf_iff _).mpr ⟨rfl, rfl, h.2.2⟩

end Sys2Proof.Machine
end

