-- ==== Sys2Proof/Laws/Ops.lean ====
section
/-! SUPPORT. What the frame of an instruction does: what an issue that cannot complete leaves, and what one without a fault
answers; what moving lanes and splitting a path leave unchanged. -/
namespace Sys2Proof.Machine

/-! ### Moving lanes -/

theorem Team.mapLanes_other {β : Type} (g : Team → β) (hg : ∀ (t : Team) (L : Nat) (v : Lane), g (t.setLane L v) = g t)
    (t : Team) (ls : List Nat) (f : Nat → Lane → Lane) : g (t.mapLanes ls f) = g t := by
  unfold Team.mapLanes
  induction ls generalizing t with
  | nil => rfl
  | cons a r ih => rw [List.foldl_cons, ih, hg]

/-- Only lanes change. -/
theorem Team.mapLanes_eq (t : Team) (ls : List Nat) (f : Nat → Lane → Lane) :
    t.mapLanes ls f = { t with lanes := (t.mapLanes ls f).lanes } := by
  have h := Team.mapLanes_other (fun u : Team => { u with lanes := t.lanes }) (fun _ _ _ => rfl) t ls f
  have h' := congrArg (fun u : Team => { u with lanes := (t.mapLanes ls f).lanes }) h
  exact h'

@[simp] theorem Team.mapLanes_vreg (t : Team) (ls : List Nat) (f : Nat → Lane → Lane) (L n : Nat) :
    (t.mapLanes ls f).vreg L n = t.vreg L n := Team.mapLanes_other (fun u => u.vreg L n) (fun _ _ _ => rfl) t ls f
@[simp] theorem Team.mapLanes_xreg (t : Team) (ls : List Nat) (f : Nat → Lane → Lane) (L n : Nat) :
    (t.mapLanes ls f).xreg L n = t.xreg L n := Team.mapLanes_other (fun u => u.xreg L n) (fun _ _ _ => rfl) t ls f
@[simp] theorem Team.mapLanes_wreg (t : Team) (ls : List Nat) (f : Nat → Lane → Lane) (n : Nat) :
    (t.mapLanes ls f).wreg n = t.wreg n := Team.mapLanes_other (fun u => u.wreg n) (fun _ _ _ => rfl) t ls f
@[simp] theorem Team.mapLanes_kreg (t : Team) (ls : List Nat) (f : Nat → Lane → Lane) (n : Nat) :
    (t.mapLanes ls f).kreg n = t.kreg n := Team.mapLanes_other (fun u => u.kreg n) (fun _ _ _ => rfl) t ls f

/-- Each lane of the list is moved once, from where it stood. -/
theorem Team.mapLanes_lane (t : Team) (ls : List Nat) (f : Nat → Lane → Lane) (hn : ls.Nodup) (L : Nat) :
    (t.mapLanes ls f).lane L = if L ∈ ls then f L (t.lane L) else t.lane L := by
  unfold Team.mapLanes
  induction ls generalizing t with
  | nil => simp
  | cons a r ih =>
    rw [List.foldl_cons, ih _ (List.nodup_cons.mp hn).2]
    have ha := (List.nodup_cons.mp hn).1
    by_cases hr : L ∈ r
    · have : L ≠ a := fun h => ha (h ▸ hr)
      simp [hr, Team.lane_setLane, this]
    · by_cases hL : L = a
      · subst hL; simp [hr]
      · simp [hr, hL, Team.lane_setLane]

theorem laneList_nodup : laneList.Nodup := List.nodup_range
@[simp] theorem mem_laneList (L : Nat) : L ∈ laneList ↔ L < 64 := List.mem_range

/-- Only the service list changes. -/
theorem Team.refresh_eq (t : Team) : t.refresh = { t with service := t.refresh.service } := rfl
@[simp] theorem Team.refresh_lane (t : Team) (L : Nat) : t.refresh.lane L = t.lane L := rfl
@[simp] theorem Team.refresh_vreg (t : Team) (L n : Nat) : t.refresh.vreg L n = t.vreg L n := rfl
@[simp] theorem Team.refresh_kreg (t : Team) (n : Nat) : t.refresh.kreg n = t.kreg n := rfl
theorem Team.split_eq (t : Team) (pc : Dbl) (ps : List Dbl) :
    t.split pc ps = { t with service := (t.split pc ps).service } := rfl
@[simp] theorem Team.split_lane (t : Team) (pc : Dbl) (ps : List Dbl) (L : Nat) : (t.split pc ps).lane L = t.lane L := rfl
@[simp] theorem Team.split_vreg (t : Team) (pc : Dbl) (ps : List Dbl) (L n : Nat) :
    (t.split pc ps).vreg L n = t.vreg L n := rfl
@[simp] theorem Team.split_kreg (t : Team) (pc : Dbl) (ps : List Dbl) (n : Nat) : (t.split pc ps).kreg n = t.kreg n := rfl
@[simp] theorem Team.countIssue_lane (t : Team) (L : Nat) : t.countIssue.lane L = t.lane L := rfl
@[simp] theorem Team.countIssue_vreg (t : Team) (L n : Nat) : t.countIssue.vreg L n = t.vreg L n := rfl
@[simp] theorem Team.countIssue_kreg (t : Team) (n : Nat) : t.countIssue.kreg n = t.kreg n := rfl

/-! ### Completing an issue -/

/-- The lanes handed to a meaning when no row of R165 stops one. -/
def State.activeLanes (s : State) (iss : Issue) : List Nat :=
  laneList.filter fun L => iss.group.contains L && ((s.team iss.team).lane L).pend

/-- The lanes of the issue group after an issue without a fault. -/
def Team.moved (t : Team) (iss : Issue) (e : Effect) : Team :=
  t.mapLanes (laneList.filter iss.group.contains) fun L l => l.after iss.pc (nextPc iss.pc iss.len) e L

/-- The team after an issue without a fault: lanes moved, INSNS counted, the path replaced by those the lanes went to. -/
def Team.issuedBy (t : Team) (iss : Issue) (e : Effect) : Team :=
  let u := t.moved iss e
  u.countIssue.split iss.pc
    ((if e.order = [] then [nextPc iss.pc iss.len] else e.order).filter fun p =>
      iss.group.any fun L => (u.lane L).isReady && (u.lane L).pc == p)

/-- Of the team, only lanes, INSNS and the service list change. -/
theorem Team.issuedBy_eq (T : Team) (iss : Issue) (e : Effect) :
    T.issuedBy iss e = { T with
      lanes := (T.moved iss e).lanes
      insns := if T.insns = 0xFFFF then T.insns else T.insns + 1
      service := (T.issuedBy iss e).service } := by
  unfold Team.issuedBy
  generalize hu : T.moved iss e = u
  obtain ⟨ls, rfl⟩ : ∃ ls, u = { T with lanes := ls } :=
    ⟨_, by rw [← hu]; exact Team.mapLanes_eq _ _ _⟩
  rfl

/-- Each lane of the group moves as the effect says; every other lane stays. -/
theorem Team.issuedBy_lane (T : Team) (iss : Issue) (e : Effect) (L : Nat) :
    (T.issuedBy iss e).lane L =
      if L < 64 ∧ L ∈ iss.group then (T.lane L).after iss.pc (nextPc iss.pc iss.len) e L else T.lane L := by
  simp only [Team.issuedBy, Team.moved, Team.split_lane, Team.countIssue_lane]
  rw [Team.mapLanes_lane _ _ _ (laneList_nodup.filter _)]
  simp only [List.mem_filter, mem_laneList, List.contains_iff_mem]

@[simp] theorem Team.issuedBy_vreg (T : Team) (iss : Issue) (e : Effect) (L n : Nat) :
    (T.issuedBy iss e).vreg L n = T.vreg L n := by rw [Team.issuedBy_eq]; rfl
@[simp] theorem Team.issuedBy_vpair (T : Team) (iss : Issue) (e : Effect) (L n : Nat) :
    (T.issuedBy iss e).vpair L n = T.vpair L n := by rw [Team.issuedBy_eq]; rfl
@[simp] theorem Team.issuedBy_xreg (T : Team) (iss : Issue) (e : Effect) (L n : Nat) :
    (T.issuedBy iss e).xreg L n = T.xreg L n := by rw [Team.issuedBy_eq]; rfl
@[simp] theorem Team.issuedBy_wreg (T : Team) (iss : Issue) (e : Effect) (n : Nat) :
    (T.issuedBy iss e).wreg n = T.wreg n := by rw [Team.issuedBy_eq]; rfl
@[simp] theorem Team.issuedBy_kreg (T : Team) (iss : Issue) (e : Effect) (n : Nat) :
    (T.issuedBy iss e).kreg n = T.kreg n := by rw [Team.issuedBy_eq]; rfl

/-! ### Writes of every Active lane -/

/-- What does not read vector registers does not see their writes. -/
theorem Team.fold_other {β : Type} (g : Team → β) (f : Nat → Team → Team) (hg : ∀ L t, g (f L t) = g t)
    (ls : List Nat) (t : Team) : g (ls.foldl (fun t L => f L t) t) = g t := by
  induction ls generalizing t with
  | nil => rfl
  | cons a r ih => rw [List.foldl_cons, ih, hg]

/-- Each lane of a list writes one register of its own: the others stay. -/
theorem Team.fold_setV (d : Nat → Nat) (g : Nat → Word) (ls : List Nat) (t : Team) (hn : ls.Nodup)
    (hd : ∀ L ∈ ls, d L < 512) (M m : Nat) (hm : m < 512) :
    (ls.foldl (fun t L => t.setV L (d L) (g L)) t).vreg M m = if M ∈ ls ∧ m = d M then g M else t.vreg M m := by
  induction ls generalizing t with
  | nil => simp
  | cons a r ih =>
    rw [List.foldl_cons, ih _ (List.nodup_cons.mp hn).2 fun L hL => hd L (List.mem_cons_of_mem _ hL)]
    have ha := (List.nodup_cons.mp hn).1
    rw [Team.vreg_setV _ _ (hd a List.mem_cons_self) hm]
    by_cases hM : M ∈ r
    · have : M ≠ a := fun h => ha (h ▸ hM)
      simp [hM, this]
    · by_cases hMa : M = a
      · subst hMa; simp [hM]
      · simp [hM, hMa]

theorem State.activeLanes_nodup (s : State) (iss : Issue) : (s.activeLanes iss).Nodup := laneList_nodup.filter _

/-- An issue without a fault or a wait: the team moves on, then the release checks and the deadlock check that the effect
asks for. -/
theorem State.finish_clean (s : State) (iss : Issue) (e : Effect) (hf : e.faults = []) (hs : e.stall = false) :
    s.finish iss [] e =
      let s1 := e.st.setTeam iss.team ((e.st.team iss.team).issuedBy iss e)
      let s2 := s1.checkMasks iss.team e.masks
      let s3 := if e.bars then s2.checkBars (e.st.team iss.team).block else s2
      if e.check then s3.checkDead iss.team else s3 := by
  have hb : ∀ u : Team, (u.issuedBy iss e).block = u.block := fun u =>
    Team.mapLanes_other (fun u => u.block) (fun _ _ _ => rfl) _ _ _
  unfold State.finish
  simp only [hf, hs, List.append_nil, List.foldl_nil, List.find?_nil, List.lookup_nil, Option.isSome_none,
    Bool.false_eq_true, if_false, beq_self_eq_true, if_true, State.takeFaults, State.takeAll, List.map_nil, List.filter_nil]
  have hb' := hb (e.st.team iss.team)
  simp only [Team.issuedBy, Team.moved] at hb' ⊢
  rw [hb']

/-- An instruction that cannot issue changes nothing; the current issue is over. -/
theorem State.finish_stall (s : State) (iss : Issue) (e : Effect) (hf : e.faults = []) (hs : e.stall = true) :
    s.finish iss [] e = { s with cur := none } := by
  unfold State.finish
  simp [hf, hs]

/-- What a meaning sees when no row of R165 stops a lane. -/
def State.ctxOf (s : State) (iss : Issue) (i : Instr) : Ctx :=
  { iss := iss, team := s.team iss.team, block := s.block (s.team iss.team).block,
    node := s.nodeOf (s.team iss.team).block, form := i.form, act := s.activeLanes iss }

/-- No row from 6 to 10 of R165 stops a lane of the group. -/
def State.passes (s : State) (iss : Issue) (i : Instr) : Prop :=
  ∀ L ∈ s.activeLanes iss,
    rowFault s (s.team iss.team) (s.nodeOf (s.team iss.team).block) i.wf i.form iss.word L = none

theorem State.issueInstr_clean (s : State) (iss : Issue) (i : Instr) (body : Ctx → Effect) (h : s.passes iss i) :
    s.issueInstr iss i body = s.finish iss [] (body (s.ctxOf iss i)) := by
  have hr : ((s.activeLanes iss).filterMap fun L =>
      (rowFault s (s.team iss.team) (s.nodeOf (s.team iss.team).block) i.wf i.form iss.word L).map fun e => (L, e)) = [] := by
    rw [List.filterMap_eq_nil_iff]
    intro L hL
    rw [h L hL]; rfl
  unfold State.issueInstr
  simp only [State.activeLanes] at hr ⊢
  rw [hr]
  simp only [List.lookup_nil, Option.isNone_none, List.filter_true]
  rfl

/-- An instruction of the main set whose lanes pass every row: what its meaning's effect gives. -/
theorem runInstr_clean (i : Instr) (s : State) (body : Ctx → Effect) (iss : Issue) (hc : s.cur = some iss)
    (h : s.passes iss i) : runInstr i s body = .next (s.finish iss [] (body (s.ctxOf iss i))) := by
  unfold runInstr
  rw [hc]
  simp only [State.issueInstr_clean s iss i body h]

/-- Without an issue there is nothing to execute. -/
theorem runInstr_none (i : Instr) (s : State) (body : Ctx → Effect) (hc : s.cur = none) :
    runInstr i s body = .fault .noIssuer := by unfold runInstr; rw [hc]

/-- A register instruction: the lanes' writes, and the team moves on to the next PC. -/
theorem laneInstr_clean (i : Instr) (s : State) (f : Ctx → Nat → Team → Team) (iss : Issue) (hc : s.cur = some iss)
    (h : s.passes iss i) :
    laneInstr i s f = .next (s.setTeam iss.team
      (((s.activeLanes iss).foldl (fun t L => f (s.ctxOf iss i) L t) (s.team iss.team)).issuedBy iss { st := s })) := by
  have hi : (s.ctxOf iss i).iss = iss := rfl
  unfold laneInstr
  rw [runInstr_clean i s _ iss hc h, State.finish_clean _ _ _ rfl rfl]
  simp only [hi, State.checkMasks, List.foldl_nil, Bool.false_eq_true, if_false, State.team_setTeam_self,
    State.setTeam_setTeam]
  rfl

end Sys2Proof.Machine
end

