-- ==== Sys2Proof/Laws/PerInstr.lean ====
section
/-! SUPPORT. Facts about every instruction as syntax, one lemma per constructor: the length of its encoding, and that LEN of
the first slot says it (R149). -/
namespace Sys2Proof.Laws

/-- Number of 32-bit words of an encoding (R149, R350, R86). -/
def Length.words : Enc → Nat
  | .s32 _ _ _ => 1
  | .l64 _ _ => 2
  | .m64 _ _ => 2
  | .x96 _ _ => 3
  | .walk _ _ => 1
  | .npb _ _ => 2
  | .none => 0

/-- The encoding has its number of words, and in the main set LEN of the first slot gives it (R149). -/
def Length.Statement (i : Instr) : Prop :=
  (encode i).length = Length.words i.enc ∧
  (i.enc.set = .main → i.enc ≠ .none → slotLen ((encode i).getD 0 0) = some (Length.words i.enc))

theorem Length.s32_len (o : S32) (a b : Nat) : (o.word a b).extractLsb' 0 2 = 0 := by
  apply BitVec.eq_of_getLsbD_eq
  intro i hi
  simp only [S32.word, BitVec.getLsbD_extractLsb', BitVec.getLsbD_append]
  interval_cases i <;> simp

theorem Length.l64_len (o : L64) (a : Nat) (len : BitVec 2) :
    ((o.bits a len).extractLsb' 0 32).extractLsb' 0 2 = len := by
  apply BitVec.eq_of_getLsbD_eq
  intro i hi
  simp only [L64.bits, BitVec.getLsbD_extractLsb', BitVec.getLsbD_append]
  interval_cases i <;> simp

theorem Length.m64_len (o : M64) (a : Nat) : ((o.bits a).extractLsb' 0 32).extractLsb' 0 2 = 1 := by
  apply BitVec.eq_of_getLsbD_eq
  intro i hi
  simp only [M64.bits, BitVec.getLsbD_extractLsb', BitVec.getLsbD_append]
  interval_cases i <;> simp

theorem Length.x96_len (o : X96) (a : Nat) : ((o.bits a).extractLsb' 0 32).extractLsb' 0 2 = 2 := by
  apply BitVec.eq_of_getLsbD_eq
  intro i hi
  simp only [X96.bits, L64.bits, BitVec.getLsbD_extractLsb', BitVec.getLsbD_append]
  interval_cases i <;> simp

theorem Length.of_enc (i : Instr) : Length.Statement i := by
  unfold Length.Statement encode
  cases h : i.enc with
  | s32 a b o => simp [Enc.slots, Length.words, slotLen, Length.s32_len]
  | l64 a o => simp only [Enc.slots, List.length_cons, List.length_nil, Length.words, List.getD_cons_zero, slotLen, Length.l64_len]; simp
  | m64 a o => simp only [Enc.slots, List.length_cons, List.length_nil, Length.words, List.getD_cons_zero, slotLen, Length.m64_len]; simp
  | x96 a o => simp only [Enc.slots, List.length_cons, List.length_nil, Length.words, List.getD_cons_zero, slotLen, Length.x96_len]; simp
  | walk a o => simp [Enc.slots, Length.words, Enc.set]
  | npb a o => simp [Enc.slots, Length.words, Enc.set]
  | none => simp [Enc.slots, Length.words]

theorem Length.ret (o : S32) : Length.Statement (.ret o) := Length.of_enc _
theorem Length.trap (o : S32) : Length.Statement (.trap o) := Length.of_enc _
theorem Length.bar (o : S32) : Length.Statement (.bar o) := Length.of_enc _
theorem Length.barArv (o : S32) : Length.Statement (.barArv o) := Length.of_enc _
theorem Length.barWait (o : S32) : Length.Statement (.barWait o) := Length.of_enc _
theorem Length.drain (o : S32) : Length.Statement (.drain o) := Length.of_enc _
theorem Length.waitw (o : S32) : Length.Statement (.waitw o) := Length.of_enc _
theorem Length.twaitAny (o : S32) : Length.Statement (.twaitAny o) := Length.of_enc _
theorem Length.twaitAll (o : S32) : Length.Statement (.twaitAll o) := Length.of_enc _
theorem Length.tfind (o : S32) : Length.Statement (.tfind o) := Length.of_enc _
theorem Length.waitb (o : S32) : Length.Statement (.waitb o) := Length.of_enc _
theorem Length.pred (o : S32) : Length.Statement (.pred o) := Length.of_enc _
theorem Length.predNot (o : S32) : Length.Statement (.predNot o) := Length.of_enc _
theorem Length.sread (o : S32) : Length.Statement (.sread o) := Length.of_enc _
theorem Length.swrite (o : S32) : Length.Statement (.swrite o) := Length.of_enc _
theorem Length.wget (o : S32) : Length.Statement (.wget o) := Length.of_enc _
theorem Length.wset (o : S32) : Length.Statement (.wset o) := Length.of_enc _
theorem Length.xset (o : S32) : Length.Statement (.xset o) := Length.of_enc _
theorem Length.xget (o : S32) : Length.Statement (.xget o) := Length.of_enc _
theorem Length.mov (o : S32) : Length.Statement (.mov o) := Length.of_enc _
theorem Length.movB64 (o : S32) : Length.Statement (.movB64 o) := Length.of_enc _
theorem Length.notV (o : S32) : Length.Statement (.notV o) := Length.of_enc _
theorem Length.negS32 (o : S32) : Length.Statement (.negS32 o) := Length.of_enc _
theorem Length.absS32 (o : S32) : Length.Statement (.absS32 o) := Length.of_enc _
theorem Length.popc (o : S32) : Length.Statement (.popc o) := Length.of_enc _
theorem Length.clz (o : S32) : Length.Statement (.clz o) := Length.of_enc _
theorem Length.ctz (o : S32) : Length.Statement (.ctz o) := Length.of_enc _
theorem Length.brev (o : S32) : Length.Statement (.brev o) := Length.of_enc _
theorem Length.enrol (o : S32) : Length.Statement (.enrol o) := Length.of_enc _
theorem Length.join (o : S32) : Length.Statement (.join o) := Length.of_enc _
theorem Length.leave (o : S32) : Length.Statement (.leave o) := Length.of_enc _
theorem Length.waitk (o : S32) : Length.Statement (.waitk o) := Length.of_enc _
theorem Length.strike (o : S32) : Length.Statement (.strike o) := Length.of_enc _
theorem Length.kmov (o : S32) : Length.Statement (.kmov o) := Length.of_enc _
theorem Length.knot (o : S32) : Length.Statement (.knot o) := Length.of_enc _
theorem Length.kand (o : S32) : Length.Statement (.kand o) := Length.of_enc _
theorem Length.kor (o : S32) : Length.Statement (.kor o) := Length.of_enc _
theorem Length.kxor (o : S32) : Length.Statement (.kxor o) := Length.of_enc _
theorem Length.kandn (o : S32) : Length.Statement (.kandn o) := Length.of_enc _
theorem Length.kact (o : S32) : Length.Statement (.kact o) := Length.of_enc _
theorem Length.kpop (o : S32) : Length.Statement (.kpop o) := Length.of_enc _
theorem Length.kget (o : S32) : Length.Statement (.kget o) := Length.of_enc _
theorem Length.kset (o : S32) : Length.Statement (.kset o) := Length.of_enc _
theorem Length.fabs (f : FFmt) (o : S32) : Length.Statement (.fabs f o) := Length.of_enc _
theorem Length.fneg (f : FFmt) (o : S32) : Length.Statement (.fneg f o) := Length.of_enc _
theorem Length.fclass (f : FFmt) (o : S32) : Length.Statement (.fclass f o) := Length.of_enc _
theorem Length.frcp (f : FFmt) (o : S32) : Length.Statement (.frcp f o) := Length.of_enc _
theorem Length.fsqrt (f : FFmt) (o : S32) : Length.Statement (.fsqrt f o) := Length.of_enc _
theorem Length.frsq (f : FFmt) (o : S32) : Length.Statement (.frsq f o) := Length.of_enc _
theorem Length.fexp2 (f : FFmt) (o : S32) : Length.Statement (.fexp2 f o) := Length.of_enc _
theorem Length.flog2 (f : FFmt) (o : S32) : Length.Statement (.flog2 f o) := Length.of_enc _
theorem Length.fsin (f : FFmt) (o : S32) : Length.Statement (.fsin f o) := Length.of_enc _
theorem Length.fcos (f : FFmt) (o : S32) : Length.Statement (.fcos f o) := Length.of_enc _
theorem Length.ftanh (f : FFmt) (o : S32) : Length.Statement (.ftanh f o) := Length.of_enc _
theorem Length.addS32 (o : L64) : Length.Statement (.addS32 o) := Length.of_enc _
theorem Length.addN32 (o : L64) : Length.Statement (.addN32 o) := Length.of_enc _
theorem Length.subS32 (o : L64) : Length.Statement (.subS32 o) := Length.of_enc _
theorem Length.subN32 (o : L64) : Length.Statement (.subN32 o) := Length.of_enc _
theorem Length.mul (o : L64) : Length.Statement (.mul o) := Length.of_enc _
theorem Length.mulhiS32 (o : L64) : Length.Statement (.mulhiS32 o) := Length.of_enc _
theorem Length.mulhiN32 (o : L64) : Length.Statement (.mulhiN32 o) := Length.of_enc _
theorem Length.mad (o : L64) : Length.Statement (.mad o) := Length.of_enc _
theorem Length.divS32 (o : L64) : Length.Statement (.divS32 o) := Length.of_enc _
theorem Length.divN32 (o : L64) : Length.Statement (.divN32 o) := Length.of_enc _
theorem Length.remS32 (o : L64) : Length.Statement (.remS32 o) := Length.of_enc _
theorem Length.remN32 (o : L64) : Length.Statement (.remN32 o) := Length.of_enc _
theorem Length.minS32 (o : L64) : Length.Statement (.minS32 o) := Length.of_enc _
theorem Length.minN32 (o : L64) : Length.Statement (.minN32 o) := Length.of_enc _
theorem Length.maxS32 (o : L64) : Length.Statement (.maxS32 o) := Length.of_enc _
theorem Length.maxN32 (o : L64) : Length.Statement (.maxN32 o) := Length.of_enc _
theorem Length.andV (o : L64) : Length.Statement (.andV o) := Length.of_enc _
theorem Length.orV (o : L64) : Length.Statement (.orV o) := Length.of_enc _
theorem Length.xorV (o : L64) : Length.Statement (.xorV o) := Length.of_enc _
theorem Length.andn (o : L64) : Length.Statement (.andn o) := Length.of_enc _
theorem Length.shl (o : L64) : Length.Statement (.shl o) := Length.of_enc _
theorem Length.shr (o : L64) : Length.Statement (.shr o) := Length.of_enc _
theorem Length.sar (o : L64) : Length.Statement (.sar o) := Length.of_enc _
theorem Length.rot (o : L64) : Length.Statement (.rot o) := Length.of_enc _
theorem Length.bfxS32 (o : L64) : Length.Statement (.bfxS32 o) := Length.of_enc _
theorem Length.bfxN32 (o : L64) : Length.Statement (.bfxN32 o) := Length.of_enc _
theorem Length.bfi (o : L64) : Length.Statement (.bfi o) := Length.of_enc _
theorem Length.sel (o : L64) : Length.Statement (.sel o) := Length.of_enc _
theorem Length.cmpS32 (o : L64) : Length.Statement (.cmpS32 o) := Length.of_enc _
theorem Length.cmpN32 (o : L64) : Length.Statement (.cmpN32 o) := Length.of_enc _
theorem Length.cmpS64 (o : L64) : Length.Statement (.cmpS64 o) := Length.of_enc _
theorem Length.cmpN64 (o : L64) : Length.Statement (.cmpN64 o) := Length.of_enc _
theorem Length.addS64 (o : L64) : Length.Statement (.addS64 o) := Length.of_enc _
theorem Length.addN64 (o : L64) : Length.Statement (.addN64 o) := Length.of_enc _
theorem Length.subS64 (o : L64) : Length.Statement (.subS64 o) := Length.of_enc _
theorem Length.subN64 (o : L64) : Length.Statement (.subN64 o) := Length.of_enc _
theorem Length.mulB64 (o : L64) : Length.Statement (.mulB64 o) := Length.of_enc _
theorem Length.adda (o : L64) : Length.Statement (.adda o) := Length.of_enc _
theorem Length.shla (o : L64) : Length.Statement (.shla o) := Length.of_enc _
theorem Length.divS64 (o : L64) : Length.Statement (.divS64 o) := Length.of_enc _
theorem Length.divN64 (o : L64) : Length.Statement (.divN64 o) := Length.of_enc _
theorem Length.remS64 (o : L64) : Length.Statement (.remS64 o) := Length.of_enc _
theorem Length.remN64 (o : L64) : Length.Statement (.remN64 o) := Length.of_enc _
theorem Length.minS64 (o : L64) : Length.Statement (.minS64 o) := Length.of_enc _
theorem Length.minN64 (o : L64) : Length.Statement (.minN64 o) := Length.of_enc _
theorem Length.maxS64 (o : L64) : Length.Statement (.maxS64 o) := Length.of_enc _
theorem Length.maxN64 (o : L64) : Length.Statement (.maxN64 o) := Length.of_enc _
theorem Length.addS32X96 (o : X96) : Length.Statement (.addS32X96 o) := Length.of_enc _
theorem Length.addN32X96 (o : X96) : Length.Statement (.addN32X96 o) := Length.of_enc _
theorem Length.subS32X96 (o : X96) : Length.Statement (.subS32X96 o) := Length.of_enc _
theorem Length.subN32X96 (o : X96) : Length.Statement (.subN32X96 o) := Length.of_enc _
theorem Length.mulX96 (o : X96) : Length.Statement (.mulX96 o) := Length.of_enc _
theorem Length.mulhiS32X96 (o : X96) : Length.Statement (.mulhiS32X96 o) := Length.of_enc _
theorem Length.mulhiN32X96 (o : X96) : Length.Statement (.mulhiN32X96 o) := Length.of_enc _
theorem Length.madX96 (o : X96) : Length.Statement (.madX96 o) := Length.of_enc _
theorem Length.divS32X96 (o : X96) : Length.Statement (.divS32X96 o) := Length.of_enc _
theorem Length.divN32X96 (o : X96) : Length.Statement (.divN32X96 o) := Length.of_enc _
theorem Length.remS32X96 (o : X96) : Length.Statement (.remS32X96 o) := Length.of_enc _
theorem Length.remN32X96 (o : X96) : Length.Statement (.remN32X96 o) := Length.of_enc _
theorem Length.minS32X96 (o : X96) : Length.Statement (.minS32X96 o) := Length.of_enc _
theorem Length.minN32X96 (o : X96) : Length.Statement (.minN32X96 o) := Length.of_enc _
theorem Length.maxS32X96 (o : X96) : Length.Statement (.maxS32X96 o) := Length.of_enc _
theorem Length.maxN32X96 (o : X96) : Length.Statement (.maxN32X96 o) := Length.of_enc _
theorem Length.andX96 (o : X96) : Length.Statement (.andX96 o) := Length.of_enc _
theorem Length.orX96 (o : X96) : Length.Statement (.orX96 o) := Length.of_enc _
theorem Length.xorX96 (o : X96) : Length.Statement (.xorX96 o) := Length.of_enc _
theorem Length.andnX96 (o : X96) : Length.Statement (.andnX96 o) := Length.of_enc _
theorem Length.shlX96 (o : X96) : Length.Statement (.shlX96 o) := Length.of_enc _
theorem Length.shrX96 (o : X96) : Length.Statement (.shrX96 o) := Length.of_enc _
theorem Length.sarX96 (o : X96) : Length.Statement (.sarX96 o) := Length.of_enc _
theorem Length.rotX96 (o : X96) : Length.Statement (.rotX96 o) := Length.of_enc _
theorem Length.bfxS32X96 (o : X96) : Length.Statement (.bfxS32X96 o) := Length.of_enc _
theorem Length.bfxN32X96 (o : X96) : Length.Statement (.bfxN32X96 o) := Length.of_enc _
theorem Length.bfiX96 (o : X96) : Length.Statement (.bfiX96 o) := Length.of_enc _
theorem Length.selX96 (o : X96) : Length.Statement (.selX96 o) := Length.of_enc _
theorem Length.cmpS32X96 (o : X96) : Length.Statement (.cmpS32X96 o) := Length.of_enc _
theorem Length.cmpN32X96 (o : X96) : Length.Statement (.cmpN32X96 o) := Length.of_enc _
theorem Length.cmpS64X96 (o : X96) : Length.Statement (.cmpS64X96 o) := Length.of_enc _
theorem Length.cmpN64X96 (o : X96) : Length.Statement (.cmpN64X96 o) := Length.of_enc _
theorem Length.addS64X96 (o : X96) : Length.Statement (.addS64X96 o) := Length.of_enc _
theorem Length.addN64X96 (o : X96) : Length.Statement (.addN64X96 o) := Length.of_enc _
theorem Length.subS64X96 (o : X96) : Length.Statement (.subS64X96 o) := Length.of_enc _
theorem Length.subN64X96 (o : X96) : Length.Statement (.subN64X96 o) := Length.of_enc _
theorem Length.mulB64X96 (o : X96) : Length.Statement (.mulB64X96 o) := Length.of_enc _
theorem Length.addaX96 (o : X96) : Length.Statement (.addaX96 o) := Length.of_enc _
theorem Length.shlaX96 (o : X96) : Length.Statement (.shlaX96 o) := Length.of_enc _
theorem Length.divS64X96 (o : X96) : Length.Statement (.divS64X96 o) := Length.of_enc _
theorem Length.divN64X96 (o : X96) : Length.Statement (.divN64X96 o) := Length.of_enc _
theorem Length.remS64X96 (o : X96) : Length.Statement (.remS64X96 o) := Length.of_enc _
theorem Length.remN64X96 (o : X96) : Length.Statement (.remN64X96 o) := Length.of_enc _
theorem Length.minS64X96 (o : X96) : Length.Statement (.minS64X96 o) := Length.of_enc _
theorem Length.minN64X96 (o : X96) : Length.Statement (.minN64X96 o) := Length.of_enc _
theorem Length.maxS64X96 (o : X96) : Length.Statement (.maxS64X96 o) := Length.of_enc _
theorem Length.maxN64X96 (o : X96) : Length.Statement (.maxN64X96 o) := Length.of_enc _
theorem Length.addi (o : L64) : Length.Statement (.addi o) := Length.of_enc _
theorem Length.andi (o : L64) : Length.Statement (.andi o) := Length.of_enc _
theorem Length.ori (o : L64) : Length.Statement (.ori o) := Length.of_enc _
theorem Length.xori (o : L64) : Length.Statement (.xori o) := Length.of_enc _
theorem Length.shli (o : L64) : Length.Statement (.shli o) := Length.of_enc _
theorem Length.shri (o : L64) : Length.Statement (.shri o) := Length.of_enc _
theorem Length.sari (o : L64) : Length.Statement (.sari o) := Length.of_enc _
theorem Length.cmpiS32 (o : L64) : Length.Statement (.cmpiS32 o) := Length.of_enc _
theorem Length.addai (o : L64) : Length.Statement (.addai o) := Length.of_enc _
theorem Length.cmpiN32 (o : L64) : Length.Statement (.cmpiN32 o) := Length.of_enc _
theorem Length.movi (o : L64) : Length.Statement (.movi o) := Length.of_enc _
theorem Length.lit (o : X96) : Length.Statement (.lit o) := Length.of_enc _
theorem Length.litB64 (o : X96) : Length.Statement (.litB64 o) := Length.of_enc _
theorem Length.shflIdx (o : L64) : Length.Statement (.shflIdx o) := Length.of_enc _
theorem Length.shflUp (o : L64) : Length.Statement (.shflUp o) := Length.of_enc _
theorem Length.shflDown (o : L64) : Length.Statement (.shflDown o) := Length.of_enc _
theorem Length.shflXor (o : L64) : Length.Statement (.shflXor o) := Length.of_enc _
theorem Length.bcast (o : L64) : Length.Statement (.bcast o) := Length.of_enc _
theorem Length.voteAny (o : L64) : Length.Statement (.voteAny o) := Length.of_enc _
theorem Length.voteAll (o : L64) : Length.Statement (.voteAll o) := Length.of_enc _
theorem Length.voteBal (o : L64) : Length.Statement (.voteBal o) := Length.of_enc _
theorem Length.matchLanes (o : L64) : Length.Statement (.matchLanes o) := Length.of_enc _
theorem Length.redstep (o : L64) : Length.Statement (.redstep o) := Length.of_enc _
theorem Length.scanstep (o : L64) : Length.Statement (.scanstep o) := Length.of_enc _
theorem Length.fadd (f : FFmt) (o : L64) : Length.Statement (.fadd f o) := Length.of_enc _
theorem Length.fsub (f : FFmt) (o : L64) : Length.Statement (.fsub f o) := Length.of_enc _
theorem Length.fmul (f : FFmt) (o : L64) : Length.Statement (.fmul f o) := Length.of_enc _
theorem Length.ffma (f : FFmt) (o : L64) : Length.Statement (.ffma f o) := Length.of_enc _
theorem Length.fmin (f : FFmt) (o : L64) : Length.Statement (.fmin f o) := Length.of_enc _
theorem Length.fmax (f : FFmt) (o : L64) : Length.Statement (.fmax f o) := Length.of_enc _
theorem Length.fcmp (f : FFmt) (o : L64) : Length.Statement (.fcmp f o) := Length.of_enc _
theorem Length.faddX96 (f : FFmt) (o : X96) : Length.Statement (.faddX96 f o) := Length.of_enc _
theorem Length.fsubX96 (f : FFmt) (o : X96) : Length.Statement (.fsubX96 f o) := Length.of_enc _
theorem Length.fmulX96 (f : FFmt) (o : X96) : Length.Statement (.fmulX96 f o) := Length.of_enc _
theorem Length.ffmaX96 (f : FFmt) (o : X96) : Length.Statement (.ffmaX96 f o) := Length.of_enc _
theorem Length.fminX96 (f : FFmt) (o : X96) : Length.Statement (.fminX96 f o) := Length.of_enc _
theorem Length.fmaxX96 (f : FFmt) (o : X96) : Length.Statement (.fmaxX96 f o) := Length.of_enc _
theorem Length.fcmpX96 (f : FFmt) (o : X96) : Length.Statement (.fcmpX96 f o) := Length.of_enc _
theorem Length.cvt (o : L64) : Length.Statement (.cvt o) := Length.of_enc _
theorem Length.bra (o : L64) : Length.Statement (.bra o) := Length.of_enc _
theorem Length.brnz (o : L64) : Length.Statement (.brnz o) := Length.of_enc _
theorem Length.brz (o : L64) : Length.Statement (.brz o) := Length.of_enc _
theorem Length.brk (o : L64) : Length.Statement (.brk o) := Length.of_enc _
theorem Length.call (o : L64) : Length.Statement (.call o) := Length.of_enc _
theorem Length.braLong (o : X96) : Length.Statement (.braLong o) := Length.of_enc _
theorem Length.brnzLong (o : X96) : Length.Statement (.brnzLong o) := Length.of_enc _
theorem Length.brzLong (o : X96) : Length.Statement (.brzLong o) := Length.of_enc _
theorem Length.brkLong (o : X96) : Length.Statement (.brkLong o) := Length.of_enc _
theorem Length.callLong (o : X96) : Length.Statement (.callLong o) := Length.of_enc _
theorem Length.jmp (o : L64) : Length.Statement (.jmp o) := Length.of_enc _
theorem Length.callr (o : L64) : Length.Statement (.callr o) := Length.of_enc _
theorem Length.jtab (o : L64) : Length.Statement (.jtab o) := Length.of_enc _
theorem Length.live (o : X96) : Length.Statement (.live o) := Length.of_enc _
theorem Length.phint (o : X96) : Length.Statement (.phint o) := Length.of_enc _
theorem Length.waitc (o : X96) : Length.Statement (.waitc o) := Length.of_enc _
theorem Length.ld (o : M64) : Length.Statement (.ld o) := Length.of_enc _
theorem Length.st (o : M64) : Length.Statement (.st o) := Length.of_enc _
theorem Length.tld (o : M64) : Length.Statement (.tld o) := Length.of_enc _
theorem Length.watch (o : M64) : Length.Statement (.watch o) := Length.of_enc _
theorem Length.atomAdd (o : M64) : Length.Statement (.atomAdd o) := Length.of_enc _
theorem Length.atomFadd (o : M64) : Length.Statement (.atomFadd o) := Length.of_enc _
theorem Length.atomMin (o : M64) : Length.Statement (.atomMin o) := Length.of_enc _
theorem Length.atomMax (o : M64) : Length.Statement (.atomMax o) := Length.of_enc _
theorem Length.atomAnd (o : M64) : Length.Statement (.atomAnd o) := Length.of_enc _
theorem Length.atomOr (o : M64) : Length.Statement (.atomOr o) := Length.of_enc _
theorem Length.atomXor (o : M64) : Length.Statement (.atomXor o) := Length.of_enc _
theorem Length.atomXchg (o : M64) : Length.Statement (.atomXchg o) := Length.of_enc _
theorem Length.atomCas (o : M64) : Length.Statement (.atomCas o) := Length.of_enc _
theorem Length.cpy (o : L64) : Length.Statement (.cpy o) := Length.of_enc _
theorem Length.cpy2d (o : X96) : Length.Statement (.cpy2d o) := Length.of_enc _
theorem Length.updAdd (o : L64) : Length.Statement (.updAdd o) := Length.of_enc _
theorem Length.updMin (o : L64) : Length.Statement (.updMin o) := Length.of_enc _
theorem Length.updMax (o : L64) : Length.Statement (.updMax o) := Length.of_enc _
theorem Length.updclr (o : L64) : Length.Statement (.updclr o) := Length.of_enc _
theorem Length.zscan (o : L64) : Length.Statement (.zscan o) := Length.of_enc _
theorem Length.mxmF8 (o : L64) : Length.Statement (.mxmF8 o) := Length.of_enc _
theorem Length.mxmS2p8 (o : L64) : Length.Statement (.mxmS2p8 o) := Length.of_enc _
theorem Length.mxmH16 (o : L64) : Length.Statement (.mxmH16 o) := Length.of_enc _
theorem Length.mxmW (o : L64) : Length.Statement (.mxmW o) := Length.of_enc _
theorem Length.mxzero (o : L64) : Length.Statement (.mxzero o) := Length.of_enc _
theorem Length.mxrd (o : L64) : Length.Statement (.mxrd o) := Length.of_enc _
theorem Length.mxst (o : L64) : Length.Statement (.mxst o) := Length.of_enc _
theorem Length.mxskip (o : L64) : Length.Statement (.mxskip o) := Length.of_enc _
theorem Length.nmv (o : L64) : Length.Statement (.nmv o) := Length.of_enc _
theorem Length.walkStart (o : L64) : Length.Statement (.walkStart o) := Length.of_enc _
theorem Length.walkQuery (o : L64) : Length.Statement (.walkQuery o) := Length.of_enc _
theorem Length.emit (o : L64) : Length.Statement (.emit o) := Length.of_enc _
theorem Length.emitReg (o : L64) : Length.Statement (.emitReg o) := Length.of_enc _
theorem Length.emitSelf (o : L64) : Length.Statement (.emitSelf o) := Length.of_enc _
theorem Length.emitRemote (o : L64) : Length.Statement (.emitRemote o) := Length.of_enc _
theorem Length.bootStageComplete (haltcode : Nat) : Length.Statement (.bootStageComplete haltcode) := Length.of_enc _
theorem Length.barrierArrival (t lane : Nat) : Length.Statement (.barrierArrival t lane) := Length.of_enc _
theorem Length.homeAccess (a : Nat) : Length.Statement (.homeAccess a) := Length.of_enc _
theorem Length.acknowledgement (a : Nat) : Length.Statement (.acknowledgement a) := Length.of_enc _
theorem Length.loadResult (a : Nat) : Length.Statement (.loadResult a) := Length.of_enc _
theorem Length.pairAccept (p : Nat) : Length.Statement (.pairAccept p) := Length.of_enc _
theorem Length.scFloorReached (e : Nat) : Length.Statement (.scFloorReached e) := Length.of_enc _
theorem Length.nop : Length.Statement .nop := Length.of_enc _
theorem Length.exit : Length.Statement .exit := Length.of_enc _
theorem Length.tret : Length.Statement .tret := Length.of_enc _
theorem Length.fenceAcq : Length.Statement .fenceAcq := Length.of_enc _
theorem Length.fenceRel : Length.Statement .fenceRel := Length.of_enc _
theorem Length.fenceSc : Length.Statement .fenceSc := Length.of_enc _
theorem Length.fenceTbl : Length.Statement .fenceTbl := Length.of_enc _
theorem Length.updflush : Length.Statement .updflush := Length.of_enc _
theorem Length.cancelRun : Length.Statement .cancelRun := Length.of_enc _
theorem Length.cancelPhase : Length.Statement .cancelPhase := Length.of_enc _
theorem Length.cancelJob : Length.Statement .cancelJob := Length.of_enc _
theorem Length.walkStop : Length.Statement .walkStop := Length.of_enc _
theorem Length.coldReset : Length.Statement .coldReset := Length.of_enc _
theorem Length.warmReset : Length.Statement .warmReset := Length.of_enc _
theorem Length.vfReset (f : Nat) : Length.Statement (.vfReset f) := Length.of_enc _
theorem Length.thermalStep (temps : List Nat) : Length.Statement (.thermalStep temps) := Length.of_enc _
theorem Length.thermalTrip (temps : List Nat) : Length.Statement (.thermalTrip temps) := Length.of_enc _
theorem Length.watchdogRestart : Length.Statement .watchdogRestart := Length.of_enc _
theorem Length.qcreate (f : Nat) : Length.Statement (.qcreate f) := Length.of_enc _
theorem Length.qdestroy (f : Nat) : Length.Statement (.qdestroy f) := Length.of_enc _
theorem Length.policyload (f : Nat) : Length.Statement (.policyload f) := Length.of_enc _
theorem Length.fwstage : Length.Statement .fwstage := Length.of_enc _
theorem Length.fwactivate (w : WatchdogMeet) : Length.Statement (.fwactivate w) := Length.of_enc _
theorem Length.fwfuse : Length.Statement .fwfuse := Length.of_enc _
theorem Length.attest (nonce : Option (List Byte)) : Length.Statement (.attest nonce) := Length.of_enc _
theorem Length.tailWrite (f j : Nat) (v : Dbl) : Length.Statement (.tailWrite f j v) := Length.of_enc _
theorem Length.doorbellBadWrite (f j : Nat) : Length.Statement (.doorbellBadWrite f j) := Length.of_enc _
theorem Length.queueReexamine (q : Nat) : Length.Statement (.queueReexamine q) := Length.of_enc _
theorem Length.headMirrorWrite (q : Nat) : Length.Statement (.headMirrorWrite q) := Length.of_enc _
theorem Length.slice (f : Nat) : Length.Statement (.slice f) := Length.of_enc _
theorem Length.run (f : Nat) : Length.Statement (.run f) := Length.of_enc _
theorem Length.cancelPacketRun (f : Nat) : Length.Statement (.cancelPacketRun f) := Length.of_enc _
theorem Length.cancelPacketPhase (f : Nat) : Length.Statement (.cancelPacketPhase f) := Length.of_enc _
theorem Length.cancelPacketJob (f : Nat) : Length.Statement (.cancelPacketJob f) := Length.of_enc _
theorem Length.setctr (f : Nat) : Length.Statement (.setctr f) := Length.of_enc _
theorem Length.nopPacket (f : Nat) : Length.Statement (.nopPacket f) := Length.of_enc _
theorem Length.runAdmit (f : Nat) : Length.Statement (.runAdmit f) := Length.of_enc _
theorem Length.entryRecordAppend (run : Nat) : Length.Statement (.entryRecordAppend run) := Length.of_enc _
theorem Length.partownWrite (who p : Nat) (v : Word) : Length.Statement (.partownWrite who p v) := Length.of_enc _
theorem Length.quotaWrite (who off : Nat) (v : Word) : Length.Statement (.quotaWrite who off v) := Length.of_enc _
theorem Length.lofthbmWrite (who d : Nat) (v : Word) : Length.Statement (.lofthbmWrite who d v) := Length.of_enc _
theorem Length.ptrootWrite (who f : Nat) (v : Dbl) : Length.Statement (.ptrootWrite who f v) := Length.of_enc _
theorem Length.invalidate (who : Nat) (v : Word) : Length.Statement (.invalidate who v) := Length.of_enc _
theorem Length.invalidationComplete : Length.Statement .invalidationComplete := Length.of_enc _
theorem Length.regionWrite (who f off : Nat) (v : Dbl) : Length.Statement (.regionWrite who f off v) := Length.of_enc _
theorem Length.regionClearDone (f i : Nat) : Length.Statement (.regionClearDone f i) := Length.of_enc _
theorem Length.preemptSaveFunction (f : Nat) : Length.Statement (.preemptSaveFunction f) := Length.of_enc _
theorem Length.preemptSaveJob (f job : Nat) : Length.Statement (.preemptSaveJob f job) := Length.of_enc _
theorem Length.preemptResumeFunction (f : Nat) : Length.Statement (.preemptResumeFunction f) := Length.of_enc _
theorem Length.preemptResumeJob (f job : Nat) : Length.Statement (.preemptResumeJob f job) := Length.of_enc _
theorem Length.cut (f : Nat) : Length.Statement (.cut f) := Length.of_enc _
theorem Length.cutResume (f : Nat) : Length.Statement (.cutResume f) := Length.of_enc _
theorem Length.readback : Length.Statement .readback := Length.of_enc _
theorem Length.assistReply (v : Dbl) : Length.Statement (.assistReply v) := Length.of_enc _
theorem Length.assistTimeout (rseq : Nat) : Length.Statement (.assistTimeout rseq) := Length.of_enc _
theorem Length.registerWrite (who bar off size : Nat) (v : Dbl) : Length.Statement (.registerWrite who bar off size v) := Length.of_enc _
theorem Length.recordAppend (em : Nat) : Length.Statement (.recordAppend em) := Length.of_enc _
theorem Length.muster (r node : Nat) : Length.Statement (.muster r node) := Length.of_enc _
theorem Length.musterTimeout (r node : Nat) : Length.Statement (.musterTimeout r node) := Length.of_enc _
theorem Length.blockStart (core : Nat) : Length.Statement (.blockStart core) := Length.of_enc _
theorem Length.stealable (b : Nat) : Length.Statement (.stealable b) := Length.of_enc _
theorem Length.steal (die : Nat) (cores : List Nat) : Length.Statement (.steal die cores) := Length.of_enc _
theorem Length.teamPark (t : Nat) : Length.Statement (.teamPark t) := Length.of_enc _
theorem Length.teamResume (t : Nat) : Length.Statement (.teamResume t) := Length.of_enc _
theorem Length.probeQuiet (r node : Nat) : Length.Statement (.probeQuiet r node) := Length.of_enc _
theorem Length.blockRetire (b : Nat) : Length.Statement (.blockRetire b) := Length.of_enc _
theorem Length.trapEntry (t lane : Nat) : Length.Statement (.trapEntry t lane) := Length.of_enc _
theorem Length.logfullTimeout (t lane : Nat) : Length.Statement (.logfullTimeout t lane) := Length.of_enc _
theorem Length.lineFill (t : Nat) (va : Dbl) (damage : LineDamage) : Length.Statement (.lineFill t va damage) := Length.of_enc _
theorem Length.registerFill (t : Nat) : Length.Statement (.registerFill t) := Length.of_enc _
theorem Length.fullSave (t : Nat) : Length.Statement (.fullSave t) := Length.of_enc _
theorem Length.savedBlockResume (b core : Nat) : Length.Statement (.savedBlockResume b core) := Length.of_enc _
theorem Length.copyStart (core tag : Nat) : Length.Statement (.copyStart core tag) := Length.of_enc _
theorem Length.copyComplete (core tag : Nat) : Length.Statement (.copyComplete core tag) := Length.of_enc _
theorem Length.waitwTimeout (t lane : Nat) : Length.Statement (.waitwTimeout t lane) := Length.of_enc _
theorem Length.zscanComplete (e : Nat) : Length.Statement (.zscanComplete e) := Length.of_enc _
theorem Length.nmvComplete (e : Nat) : Length.Statement (.nmvComplete e) := Length.of_enc _
theorem Length.mxstComplete (e : Nat) : Length.Statement (.mxstComplete e) := Length.of_enc _
theorem Length.floorBroadcast : Length.Statement .floorBroadcast := Length.of_enc _
theorem Length.reserve (m : ReserveMsg) : Length.Statement (.reserve m) := Length.of_enc _
theorem Length.grant (token : Nat) : Length.Statement (.grant token) := Length.of_enc _
theorem Length.refuse (token reason : Nat) : Length.Statement (.refuse token reason) := Length.of_enc _
theorem Length.hold (token : Nat) : Length.Statement (.hold token) := Length.of_enc _
theorem Length.record (m : RecordMsg) : Length.Statement (.record m) := Length.of_enc _
theorem Length.arrived (token count : Nat) : Length.Statement (.arrived token count) := Length.of_enc _
theorem Length.holdTimer : Length.Statement .holdTimer := Length.of_enc _
theorem Length.remoteTimeout (token : Nat) : Length.Statement (.remoteTimeout token) := Length.of_enc _
theorem Length.linkReset (port : Nat) (up : Bool) (cause seqs : Nat) : Length.Statement (.linkReset port up cause seqs) := Length.of_enc _
theorem Length.uncorrectedEcc (die struc : Nat) (addr : Dbl) (corrected : Bool) : Length.Statement (.uncorrectedEcc die struc addr corrected) := Length.of_enc _
theorem Length.yardMessageDropped (port : Nat) : Length.Statement (.yardMessageDropped port) := Length.of_enc _
theorem Length.walkEnd : Length.Statement .walkEnd := Length.of_enc _
theorem Length.walkMovi (o : WalkOp) : Length.Statement (.walkMovi o) := Length.of_enc _
theorem Length.walkAdd (o : WalkOp) : Length.Statement (.walkAdd o) := Length.of_enc _
theorem Length.walkSub (o : WalkOp) : Length.Statement (.walkSub o) := Length.of_enc _
theorem Length.walkAddi (o : WalkOp) : Length.Statement (.walkAddi o) := Length.of_enc _
theorem Length.walkMul (o : WalkOp) : Length.Statement (.walkMul o) := Length.of_enc _
theorem Length.walkDivu (o : WalkOp) : Length.Statement (.walkDivu o) := Length.of_enc _
theorem Length.walkRemu (o : WalkOp) : Length.Statement (.walkRemu o) := Length.of_enc _
theorem Length.walkAnd (o : WalkOp) : Length.Statement (.walkAnd o) := Length.of_enc _
theorem Length.walkXor (o : WalkOp) : Length.Statement (.walkXor o) := Length.of_enc _
theorem Length.walkShli (o : WalkOp) : Length.Statement (.walkShli o) := Length.of_enc _
theorem Length.walkShri (o : WalkOp) : Length.Statement (.walkShri o) := Length.of_enc _
theorem Length.walkHash (o : WalkOp) : Length.Statement (.walkHash o) := Length.of_enc _
theorem Length.walkLdi (o : WalkOp) : Length.Statement (.walkLdi o) := Length.of_enc _
theorem Length.walkLoop (o : WalkOp) : Length.Statement (.walkLoop o) := Length.of_enc _
theorem Length.walkLidx (o : WalkOp) : Length.Statement (.walkLidx o) := Length.of_enc _
theorem Length.walkBrz (o : WalkOp) : Length.Statement (.walkBrz o) := Length.of_enc _
theorem Length.walkBrnz (o : WalkOp) : Length.Statement (.walkBrnz o) := Length.of_enc _
theorem Length.walkRow (o : WalkOp) : Length.Statement (.walkRow o) := Length.of_enc _
theorem Length.walkRowm (o : WalkOp) : Length.Statement (.walkRowm o) := Length.of_enc _
theorem Length.walkCset (o : WalkOp) : Length.Statement (.walkCset o) := Length.of_enc _
theorem Length.walkCld (o : WalkOp) : Length.Statement (.walkCld o) := Length.of_enc _
theorem Length.walkRowl (o : WalkOp) : Length.Statement (.walkRowl o) := Length.of_enc _
theorem Length.walkMsk (o : WalkOp) : Length.Statement (.walkMsk o) := Length.of_enc _
theorem Length.walkFlush : Length.Statement .walkFlush := Length.of_enc _
theorem Length.npbMovi (o : NpbOp) : Length.Statement (.npbMovi o) := Length.of_enc _
theorem Length.npbMovhi (o : NpbOp) : Length.Statement (.npbMovhi o) := Length.of_enc _
theorem Length.npbMov (o : NpbOp) : Length.Statement (.npbMov o) := Length.of_enc _
theorem Length.npbAdd (o : NpbOp) : Length.Statement (.npbAdd o) := Length.of_enc _
theorem Length.npbSub (o : NpbOp) : Length.Statement (.npbSub o) := Length.of_enc _
theorem Length.npbAddi (o : NpbOp) : Length.Statement (.npbAddi o) := Length.of_enc _
theorem Length.npbAnd (o : NpbOp) : Length.Statement (.npbAnd o) := Length.of_enc _
theorem Length.npbOr (o : NpbOp) : Length.Statement (.npbOr o) := Length.of_enc _
theorem Length.npbXor (o : NpbOp) : Length.Statement (.npbXor o) := Length.of_enc _
theorem Length.npbShl (o : NpbOp) : Length.Statement (.npbShl o) := Length.of_enc _
theorem Length.npbShr (o : NpbOp) : Length.Statement (.npbShr o) := Length.of_enc _
theorem Length.npbMul (o : NpbOp) : Length.Statement (.npbMul o) := Length.of_enc _
theorem Length.npbDivu (o : NpbOp) : Length.Statement (.npbDivu o) := Length.of_enc _
theorem Length.npbMinu (o : NpbOp) : Length.Statement (.npbMinu o) := Length.of_enc _
theorem Length.npbMaxu (o : NpbOp) : Length.Statement (.npbMaxu o) := Length.of_enc _
theorem Length.npbSltu (o : NpbOp) : Length.Statement (.npbSltu o) := Length.of_enc _
theorem Length.npbLds (o : NpbOp) : Length.Statement (.npbLds o) := Length.of_enc _
theorem Length.npbSts (o : NpbOp) : Length.Statement (.npbSts o) := Length.of_enc _
theorem Length.npbLdv (o : NpbOp) : Length.Statement (.npbLdv o) := Length.of_enc _
theorem Length.npbBeq (o : NpbOp) : Length.Statement (.npbBeq o) := Length.of_enc _
theorem Length.npbBne (o : NpbOp) : Length.Statement (.npbBne o) := Length.of_enc _
theorem Length.npbBltu (o : NpbOp) : Length.Statement (.npbBltu o) := Length.of_enc _
theorem Length.npbLoop (o : NpbOp) : Length.Statement (.npbLoop o) := Length.of_enc _
theorem Length.npbRet : Length.Statement .npbRet := Length.of_enc _

end Sys2Proof.Laws
end

