-- ==== Sys2Proof/Tests/Slice0.lean ====
section
/-! SUPPORT. Tests of the model: well-formedness, decoding, single steps with results from the spec's worked values, and
witnesses of the statements' hypotheses. -/
namespace Sys2Proof.Tests
open Sys2Proof Sys2Proof.Machine Sys2Proof.Claims

set_option Elab.async false

/-! ### Well-formedness: each check passes its boundary value and refuses the next (06 R157 to R168) -/

/-- Refused: a field that the form does not use (06 R158). -/
theorem test_wf_unused_field : Instr.wf (.popc ⟨1, 2⟩) = true ∧ Instr.wf (.enrol ⟨1, 2⟩) = false := by decide +kernel

/-- Refused: an odd pair (06 R164). -/
theorem test_wf_pair_even : Instr.wf (.movB64 ⟨2, 4⟩) = true ∧ Instr.wf (.movB64 ⟨3, 4⟩) = false := by decide +kernel

/-- Refused: a quad from no multiple of 4. -/
theorem test_wf_quad_aligned : Instr.wf (.zscan ⟨1, 8, 0, 0, 0, 0⟩) = true ∧ Instr.wf (.zscan ⟨1, 6, 0, 0, 0, 0⟩) = false := by decide +kernel

/-- Refused: a fragment from no multiple of its size (14 R332). -/
theorem test_wf_fragment_aligned : Instr.wf (.mxmF8 ⟨0, 16, 24, 40, 0, 0⟩) = true ∧ Instr.wf (.mxmF8 ⟨0, 18, 24, 40, 0, 0⟩) = false := by decide +kernel

/-- Refused: x4. -/
theorem test_wf_index_register : Instr.wf (.xset ⟨3, 9⟩) = true ∧ Instr.wf (.xset ⟨4, 9⟩) = false := by decide +kernel

/-- Refused: w64. -/
theorem test_wf_team_register : Instr.wf (.wset ⟨63, 9⟩) = true ∧ Instr.wf (.wset ⟨64, 9⟩) = false := by decide +kernel

/-- Refused: k12. -/
theorem test_wf_mask_register : Instr.wf (.pred ⟨0, 11⟩) = true ∧ Instr.wf (.pred ⟨0, 12⟩) = false := by decide +kernel

/-- Refused: acc4. -/
theorem test_wf_accumulator : Instr.wf (.mxzero ⟨3, 0, 0, 0, 0, 0⟩) = true ∧ Instr.wf (.mxzero ⟨4, 0, 0, 0, 0, 0⟩) = false := by decide +kernel

/-- Refused: barrier 16 (16 R366). -/
theorem test_wf_barrier_number : Instr.wf (.bar ⟨15, 0⟩) = true ∧ Instr.wf (.bar ⟨16, 0⟩) = false := by decide +kernel

/-- Refused: a TRAP code below 64 (17 R386). -/
theorem test_wf_trap_code : Instr.wf (.trap ⟨64, 0⟩) = true ∧ Instr.wf (.trap ⟨63, 0⟩) = false := by decide +kernel

/-- Refused: a system register that is not assigned (05 R143). -/
theorem test_wf_sread_number : Instr.wf (.sread ⟨2, 0x153⟩) = true ∧ Instr.wf (.sread ⟨2, 0x154⟩) = false := by decide +kernel

/-- Refused: a system register that may not be written (05 R144). -/
theorem test_wf_swrite_number : Instr.wf (.swrite ⟨0x01D, 2⟩) = true ∧ Instr.wf (.swrite ⟨0x01C, 2⟩) = false := by decide +kernel

/-- Refused: a reserved IMM14. -/
theorem test_wf_s32_imm_zero : Instr.wf (.walkQuery ⟨3, 0, 0, 0, 0, 0⟩) = true ∧ Instr.wf (.walkQuery ⟨3, 0, 0, 0, 0, 1⟩) = false := by decide +kernel

/-- Refused: SAT on a form without one (06 R160). -/
theorem test_wf_sat_only_where_given : Instr.wf (.addS32 ⟨1, 2, 3, 0, 0, 0x100⟩) = true ∧ Instr.wf (.mul ⟨1, 2, 3, 0, 0, 0x100⟩) = false := by decide +kernel

/-- Refused: an indirect field that is not zero (06 R160). -/
theorem test_wf_ind_field_zero : Instr.wf (.addS32 ⟨7, 6, 0, 0, 0, 0x3208⟩) = true ∧ Instr.wf (.addS32 ⟨7, 6, 1, 0, 0, 0x3208⟩) = false := by decide +kernel

/-- Refused: an indirect field that holds no vector register. -/
theorem test_wf_ind_register_field : Instr.wf (.sel ⟨0, 6, 5, 0, 0, 0x2000⟩) = true ∧ Instr.wf (.sel ⟨0, 6, 5, 0, 0, 0x3800⟩) = false := by decide +kernel

/-- Refused: a descriptor that is not zero with IE 0. -/
theorem test_wf_ind_off_zero : Instr.wf (.addS32 ⟨7, 6, 5, 0, 0, 0⟩) = true ∧ Instr.wf (.addS32 ⟨7, 6, 5, 0, 0, 0x0008⟩) = false := by decide +kernel

/-- Refused: IOP naming B in a literal form (06 R168). -/
theorem test_wf_x96_iop : Instr.wf (.addS32X96 ⟨⟨0, 6, 0, 0, 0, 0x2000⟩, 5⟩) = true ∧ Instr.wf (.addS32X96 ⟨⟨7, 6, 0, 0, 0, 0x3000⟩, 5⟩) = false := by decide +kernel

/-- Refused: a shift count of 32 (07 R193). -/
theorem test_wf_shift_count : Instr.wf (.shri ⟨9, 0, 0, 0, 0, 31⟩) = true ∧ Instr.wf (.shri ⟨9, 0, 0, 0, 0, 32⟩) = false := by decide +kernel

/-- Refused: condition 6 of an integer compare (07 R190). -/
theorem test_wf_condition : Instr.wf (.cmpS32 ⟨1, 2, 3, 5, 0, 0⟩) = true ∧ Instr.wf (.cmpS32 ⟨1, 2, 3, 6, 0, 0⟩) = false := by decide +kernel

/-- Refused: a scale of 8 (07 R192). -/
theorem test_wf_shla_count : Instr.wf (.shla ⟨2, 4, 6, 7, 0, 0⟩) = true ∧ Instr.wf (.shla ⟨2, 4, 6, 8, 0, 0⟩) = false := by decide +kernel

/-- Refused: operation 8 of REDSTEP (07 R200). -/
theorem test_wf_step_operation : Instr.wf (.redstep ⟨4, 3, 0, 0, 0, 0x3A⟩) = true ∧ Instr.wf (.redstep ⟨4, 3, 0, 0, 0, 0x42⟩) = false := by decide +kernel

/-- Refused: format 15 of CVT (13 R325). -/
theorem test_wf_cvt_format : Instr.wf (.cvt ⟨2, 4, 0, 0, 0, 0xE0⟩) = true ∧ Instr.wf (.cvt ⟨2, 4, 0, 0, 0, 0xF0⟩) = false := by decide +kernel

/-- Refused: a 64-bit destination of CVT in an odd register. -/
theorem test_wf_cvt_wide_pair : Instr.wf (.cvt ⟨2, 4, 0, 0, 0, 0xD0⟩) = true ∧ Instr.wf (.cvt ⟨3, 4, 0, 0, 0, 0xD0⟩) = false := by decide +kernel

/-- Refused: a reserved bit of MXM (14 R333). -/
theorem test_wf_mxm_imm : Instr.wf (.mxmF8 ⟨0, 16, 24, 40, 0, 1⟩) = true ∧ Instr.wf (.mxmF8 ⟨0, 16, 24, 40, 0, 2⟩) = false := by decide +kernel

/-- Refused: SHAPE 3 (14 R337). -/
theorem test_wf_mxw_shape : Instr.wf (.mxmW ⟨0, 32, 0, 40, 0, 2⟩) = true ∧ Instr.wf (.mxmW ⟨0, 32, 0, 40, 0, 3⟩) = false := by decide +kernel

/-- Refused: format 5 of MXRD (14 R335). -/
theorem test_wf_mxrd_format : Instr.wf (.mxrd ⟨32, 1, 0, 0, 0, 4⟩) = true ∧ Instr.wf (.mxrd ⟨32, 1, 0, 0, 0, 5⟩) = false := by decide +kernel

/-- Refused: a reserved bit of MXSKIP (14 R338). -/
theorem test_wf_mxskip_imm : Instr.wf (.mxskip ⟨1, 4, 8, 12, 0, 0x800⟩) = true ∧ Instr.wf (.mxskip ⟨1, 4, 8, 12, 0, 0x1000⟩) = false := by decide +kernel

/-- Refused: y format 3 of NMV (14 R339). -/
theorem test_wf_nmv_format : Instr.wf (.nmv ⟨2, 4, 8, 12, 0, 0x14⟩) = true ∧ Instr.wf (.nmv ⟨2, 4, 8, 12, 0, 0x18⟩) = false := by decide +kernel

/-- Refused: SHAPE 3 of WALK.START (15 R356). -/
theorem test_wf_walk_start_shape : Instr.wf (.walkStart ⟨0, 8, 12, 24, 0, 2⟩) = true ∧ Instr.wf (.walkStart ⟨0, 8, 12, 24, 0, 3⟩) = false := by decide +kernel

/-- Refused: a reserved bit of EMIT (16 R372). -/
theorem test_wf_emit_node : Instr.wf (.emit ⟨0, 16, 0, 0, 0, 0xFFF⟩) = true ∧ Instr.wf (.emit ⟨0, 16, 0, 0, 0, 0x1000⟩) = false := by decide +kernel

/-- Refused: a literal node beside a register (16 R372). -/
theorem test_wf_emit_register : Instr.wf (.emitReg ⟨0, 8, 20, 0, 0, 0x2000⟩) = true ∧ Instr.wf (.emitReg ⟨0, 8, 20, 0, 0, 0x2001⟩) = false := by decide +kernel

/-- Refused: a reserved bit of EMIT.REMOTE (16 R372). -/
theorem test_wf_emit_remote : Instr.wf (.emitRemote ⟨0, 8, 20, 0, 0, 15⟩) = true ∧ Instr.wf (.emitRemote ⟨0, 8, 20, 0, 0, 16⟩) = false := by decide +kernel

/-- Refused: a reserved bit of CPY (10 R251). -/
theorem test_wf_copy_tag : Instr.wf (.cpy ⟨2, 4, 6, 0, 0, 0x3F00⟩) = true ∧ Instr.wf (.cpy ⟨2, 4, 6, 0, 0, 0x3F01⟩) = false := by decide +kernel

/-- Refused: TYPE 5 of an update (10 R262). -/
theorem test_wf_upd_type : Instr.wf (.updAdd ⟨0, 4, 6, 0, 0, 4⟩) = true ∧ Instr.wf (.updAdd ⟨0, 4, 6, 0, 0, 5⟩) = false := by decide +kernel

/-- Refused: a reserved bit of PHINT (17 R399). -/
theorem test_wf_phint_imm : Instr.wf (.phint ⟨⟨0, 2, 0, 0, 0, 1⟩, 3⟩) = true ∧ Instr.wf (.phint ⟨⟨0, 2, 0, 0, 0, 2⟩, 3⟩) = false := by decide +kernel

/-- Refused: HINT on a form that does not use it (06 R161). -/
theorem test_wf_hint_unused : Instr.wf (.addS32 ⟨1, 2, 3, 0, 0, 0⟩) = true ∧ Instr.wf (.addS32 ⟨1, 2, 3, 0, 1, 0⟩) = false := by decide +kernel

/-- Refused: WID 5 (10 R240). -/
theorem test_wf_load_width : Instr.wf (.ld ⟨8, 4, 0, 4, 0, 1, 0⟩) = true ∧ Instr.wf (.ld ⟨8, 4, 0, 5, 0, 1, 0⟩) = false := by decide +kernel

/-- Refused: SX on a 32-bit load (10 R240). -/
theorem test_wf_load_sign : Instr.wf (.ld ⟨8, 4, 0, 1, 0, 0, 1⟩) = true ∧ Instr.wf (.ld ⟨8, 4, 0, 2, 0, 0, 1⟩) = false := by decide +kernel

/-- Refused: a release load (10 R240). -/
theorem test_wf_load_order : Instr.wf (.ld ⟨8, 4, 0, 2, 0, 1, 0⟩) = true ∧ Instr.wf (.ld ⟨8, 4, 0, 2, 0, 2, 0⟩) = false := by decide +kernel

/-- Refused: an acquire store (10 R240). -/
theorem test_wf_store_order : Instr.wf (.st ⟨8, 4, 0, 2, 0, 2, 0⟩) = true ∧ Instr.wf (.st ⟨8, 4, 0, 2, 0, 1, 0⟩) = false := by decide +kernel

/-- Refused: a 64-bit ATOM.FADD (10 R257). -/
theorem test_wf_atomic_width : Instr.wf (.atomFadd ⟨8, 4, 0, 2, 0, 3, 0⟩) = true ∧ Instr.wf (.atomFadd ⟨8, 4, 0, 3, 0, 3, 0⟩) = false := by decide +kernel

/-- Refused: CAS.B128 data from no multiple of 8 (10 R258). -/
theorem test_wf_cas_fragment : Instr.wf (.atomCas ⟨8, 4, 0, 4, 0, 0, 0⟩) = true ∧ Instr.wf (.atomCas ⟨12, 4, 0, 4, 0, 0, 0⟩) = false := by decide +kernel

/-- Refused: a packed FCMP (13 R322). -/
theorem test_wf_fcmp_packed : Instr.wf (.fcmp .f16 ⟨1, 2, 3, 0, 0, 0⟩) = true ∧ Instr.wf (.fcmp .f16x2 ⟨1, 2, 3, 0, 0, 0⟩) = false := by decide +kernel

/-- Refused: an unused field of a walk instruction (15 R351). -/
theorem test_wf_walk_unused : Instr.wf (.walkMovi ⟨1, 0, 0, 5⟩) = true ∧ Instr.wf (.walkMovi ⟨1, 0, 1, 5⟩) = false := by decide +kernel

/-- Refused: low bits of C (15 R350). -/
theorem test_wf_walk_c : Instr.wf (.walkRowm ⟨0, 5, 1, 0x2800⟩) = true ∧ Instr.wf (.walkRowm ⟨0, 5, 1, 0x2801⟩) = false := by decide +kernel

/-- Refused: a LOOP of no instructions (15 R351). -/
theorem test_wf_walk_loop : Instr.wf (.walkLoop ⟨0, 7, 0, 1⟩) = true ∧ Instr.wf (.walkLoop ⟨0, 7, 0, 0⟩) = false := by decide +kernel

/-- Refused: an unused field of a policy instruction (03 R87). -/
theorem test_wf_npb_unused : Instr.wf (.npbMov ⟨1, 2, 0, 0⟩) = true ∧ Instr.wf (.npbMov ⟨1, 2, 0, 1⟩) = false := by decide +kernel

/-- Refused: a reserved bit of a policy LOOP (03 R87). -/
theorem test_wf_npb_loop : Instr.wf (.npbLoop ⟨1, 0, 0, 0x00050003⟩) = true ∧ Instr.wf (.npbLoop ⟨1, 0, 0, 0x02050003⟩) = false := by decide +kernel

/-! ### Decoding: words of the spec's worked programs, the file of each in brackets (06 R157 to R163) -/

/-- ADD.S32 v7, v6, v[x1+#8] (06) -/
theorem test_decode_addS32 : decodeSlots 0x00C07041 0xC8200000 0x00000000 = some (.addS32 ⟨7, 6, 0, 0, 0, 12808⟩) := by decide +kernel

/-- SREAD v2, LANE -/
theorem test_decode_sread : decodeSlots 0x00080840 0x00000000 0x00000000 = some (.sread ⟨2, 1⟩) := by decide +kernel

/-- LIT v3, #0x100 -/
theorem test_decode_lit : decodeSlots 0x00003782 0x00000000 0x00000100 = some (.lit ⟨⟨3, 0, 0, 0, 0, 0⟩, 256⟩) := by decide +kernel

/-- EXIT -/
theorem test_decode_exit : decodeSlots 0x00000004 0x00000000 0x00000000 = some .exit := by decide +kernel

/-- SHLA v6, v4, v2, #3 (07) -/
theorem test_decode_shla : decodeSlots 0x808060D9 0x00000180 0x00000000 = some (.shla ⟨6, 4, 2, 3, 0, 0⟩) := by decide +kernel

/-- REDSTEP v4, v3, ADD, #2 (07) -/
theorem test_decode_redstep : decodeSlots 0x00604165 0x00080000 0x00000000 = some (.redstep ⟨4, 3, 0, 0, 0, 2⟩) := by decide +kernel

/-- BRNZ.LIKELY v3, -6 (08) -/
theorem test_decode_brnz : decodeSlots 0x00600305 0xFFE90000 0x00000000 = some (.brnz ⟨0, 3, 0, 0, 1, 16378⟩) := by decide +kernel

/-- JOIN k0 (08) -/
theorem test_decode_join : decodeSlots 0x00000084 0x00000000 0x00000000 = some (.join ⟨0, 0⟩) := by decide +kernel

/-- ENROL k1 (08) -/
theorem test_decode_enrol : decodeSlots 0x00000480 0x00000000 0x00000000 = some (.enrol ⟨1, 0⟩) := by decide +kernel

/-- LD.S16 v6, [v4+0x40] (10) -/
theorem test_decode_ld : decodeSlots 0x00806801 0x20400010 0x00000000 = some (.ld ⟨6, 4, 64, 1, 0, 0, 1⟩) := by decide +kernel

/-- ATOM.ADD.B32 v8, [v4] (10) -/
theorem test_decode_atomAdd : decodeSlots 0x00808811 0x00800000 0x00000000 = some (.atomAdd ⟨8, 4, 0, 2, 0, 0, 0⟩) := by decide +kernel

/-- FFMA.F32 v8, v2, v3, v4 (13) -/
theorem test_decode_ffma_f32 : decodeSlots 0xC0408231 0x00000200 0x00000000 = some (.ffma .f32 ⟨8, 2, 3, 4, 0, 0⟩) := by decide +kernel

/-- CVT.F8A.F32.RZ.SAT v5, v4 (13) -/
theorem test_decode_cvt : decodeSlots 0x00805281 0x04C10000 0x00000000 = some (.cvt ⟨5, 4, 0, 0, 1, 304⟩) := by decide +kernel

/-- MXM.S2P8 acc1, v16, v24, v40 (14) -/
theorem test_decode_mxmS2p8 : decodeSlots 0x02001405 0x00001406 0x00000000 = some (.mxmS2p8 ⟨1, 16, 24, 40, 0, 0⟩) := by decide +kernel

/-- MXM.W.F8.Z acc0, v32, v40 (14) -/
theorem test_decode_mxmW : decodeSlots 0x0400040D 0x00101400 0x00000000 = some (.mxmW ⟨0, 32, 0, 40, 0, 4⟩) := by decide +kernel

/-- WALK.START.F8 v8, v12, v24 (15) -/
theorem test_decode_walkStart : decodeSlots 0x01000441 0x00000C03 0x00000000 = some (.walkStart ⟨0, 8, 12, 24, 0, 0⟩) := by decide +kernel

/-- WALK.QUERY v3 (15) -/
theorem test_decode_walkQuery : decodeSlots 0x00003445 0x00000000 0x00000000 = some (.walkQuery ⟨3, 0, 0, 0, 0, 0⟩) := by decide +kernel

/-- WALK.STOP (15) -/
theorem test_decode_walkStop : decodeSlots 0x00000449 0x00000000 0x00000000 = some .walkStop := by decide +kernel

/-- EMIT v16, #1 (16) -/
theorem test_decode_emit : decodeSlots 0x02000481 0x00040000 0x00000000 = some (.emit ⟨0, 16, 0, 0, 0, 1⟩) := by decide +kernel

/-- EMIT v8, v20 (16) -/
theorem test_decode_emitReg : decodeSlots 0x01000481 0x80000005 0x00000000 = some (.emitReg ⟨0, 8, 20, 0, 0, 8192⟩) := by decide +kernel

/-- EMIT.SELF v8 (16) -/
theorem test_decode_emitSelf : decodeSlots 0x01000485 0x00000000 0x00000000 = some (.emitSelf ⟨0, 8, 0, 0, 0, 0⟩) := by decide +kernel

/-- BAR #3 (16) -/
theorem test_decode_bar : decodeSlots 0x00000C14 0x00000000 0x00000000 = some (.bar ⟨3, 0⟩) := by decide +kernel

/-- BAR.ARV #3 (16) -/
theorem test_decode_barArv : decodeSlots 0x10000C14 0x00000000 0x00000000 = some (.barArv ⟨3, 0⟩) := by decide +kernel

/-- DRAIN #0 (16) -/
theorem test_decode_drain : decodeSlots 0x00000018 0x00000000 0x00000000 = some (.drain ⟨0, 0⟩) := by decide +kernel

/-- CANCEL.PHASE (16) -/
theorem test_decode_cancelPhase : decodeSlots 0x10000038 0x00000000 0x00000000 = some .cancelPhase := by decide +kernel

/-- TRAP #0x40 (17) -/
theorem test_decode_trap : decodeSlots 0x00010010 0x00000000 0x00000000 = some (.trap ⟨64, 0⟩) := by decide +kernel

/-- TRET (17) -/
theorem test_decode_tret : decodeSlots 0x0000000C 0x00000000 0x00000000 = some .tret := by decide +kernel

/-- LIVE #3 (05) -/
theorem test_decode_live : decodeSlots 0x000007C2 0x00000000 0x00000003 = some (.live ⟨⟨0, 0, 0, 0, 0, 0⟩, 3⟩) := by decide +kernel

/-- PHINT #3, #0, #2 (17) -/
theorem test_decode_phint : decodeSlots 0x004007C6 0x00000000 0x00000003 = some (.phint ⟨⟨0, 2, 0, 0, 0, 0⟩, 3⟩) := by decide +kernel

/-- TLD.B32 v21, [v12] (10) -/
theorem test_decode_tld : decodeSlots 0x01815809 0x00800000 0x00000000 = some (.tld ⟨21, 12, 0, 2, 0, 0, 0⟩) := by decide +kernel

/-- FENCE.TBL (10) -/
theorem test_decode_fenceTbl : decodeSlots 0x4000001C 0x00000000 0x00000000 = some .fenceTbl := by decide +kernel

/-- JTAB v0, v8, #5 (08) -/
theorem test_decode_jtab : decodeSlots 0x0000031D 0x00100002 0x00000000 = some (.jtab ⟨0, 0, 8, 0, 0, 4⟩) := by decide +kernel

/-- KACT k1 (08) -/
theorem test_decode_kact : decodeSlots 0x000004AC 0x00000000 0x00000000 = some (.kact ⟨1, 0⟩) := by decide +kernel

/-- KPOP v11, k1 (08) -/
theorem test_decode_kpop : decodeSlots 0x00082CB0 0x00000000 0x00000000 = some (.kpop ⟨11, 1⟩) := by decide +kernel

/-- OR v20, v[x0+#48], v19 (07) -/
theorem test_decode_orV : decodeSlots 0xC0014085 0xA0C00004 0x00000000 = some (.orV ⟨20, 0, 19, 0, 0, 10288⟩) := by decide +kernel

/-- UPD.ADD.F32 [v36], v20 (10) -/
theorem test_decode_updAdd : decodeSlots 0x04800845 0x00080005 0x00000000 = some (.updAdd ⟨0, 36, 20, 0, 0, 2⟩) := by decide +kernel

/-- WATCH.B64 v18, [v10] (10) -/
theorem test_decode_watch : decodeSlots 0x0141280D 0x00C00000 0x00000000 = some (.watch ⟨18, 10, 0, 3, 0, 0, 0⟩) := by decide +kernel

/-- WAITW v24 (10) -/
theorem test_decode_waitw : decodeSlots 0x00006020 0x00000000 0x00000000 = some (.waitw ⟨24, 0⟩) := by decide +kernel

/-- ST.B64.REL [v12], v20 (10) -/
theorem test_decode_st : decodeSlots 0x01814805 0x10C00000 0x00000000 = some (.st ⟨20, 12, 0, 3, 0, 2, 0⟩) := by decide +kernel

/-- BFX.N32 v11, v1, #0x1900 (07) -/
theorem test_decode_bfxN32X96 : decodeSlots 0x0020B0A6 0x00000000 0x00001900 = some (.bfxN32X96 ⟨⟨11, 1, 0, 0, 0, 0⟩, 6400⟩) := by decide +kernel

/-- SHRI v9, v0, #31 (07) -/
theorem test_decode_shri : decodeSlots 0x00009115 0x007C0000 0x00000000 = some (.shri ⟨9, 0, 0, 0, 0, 31⟩) := by decide +kernel

/-- ADDI v9, v9, #1 (07) -/
theorem test_decode_addi : decodeSlots 0x01209101 0x00040000 0x00000000 = some (.addi ⟨9, 9, 0, 0, 0, 1⟩) := by decide +kernel

/-- LOOP y7, #8 (15) -/
theorem test_decode_walkLoop : decodeWalk 0x381C0008 = some (.walkLoop ⟨0, 7, 0, 8⟩) := by decide +kernel

/-- MSK y10, y8, y9 (15) -/
theorem test_decode_walkMsk : decodeWalk 0x5EA24000 = some (.walkMsk ⟨10, 8, 9, 0⟩) := by decide +kernel

/-- ROWM y5, y1, y10 (15) -/
theorem test_decode_walkRowm : decodeWalk 0x4C146800 = some (.walkRowm ⟨0, 5, 1, 10240⟩) := by decide +kernel

/-- MOVI q3, #5: OP8 1 in bits 63:56, D in bits 55:52, IMM32 in bits 31:0 (03 R86). -/
theorem test_decode_npbMovi : decodeNpb 0x0130000000000005 = some (.npbMovi ⟨3, 0, 0, 5⟩) := by decide +kernel

/-! ### A small machine: one block of one team of function 1 on core 0 -/

/-- The issue of lanes 0 and 1 at 0x10000. -/
def iss0 : Issue := { team := 0, pc := 0x10000, group := [0, 1], len := 1, word := 0x1234 }

/-- A lane READY at 0x10000, with this predicate. -/
def ready (pend : Bool) : Lane := { st := .ready, pc := 0x10000, pend := pend }

/-- A team whose lane 0 is Active and whose lane 1 has predicate 0. -/
def team0 : Team :=
  { resident := true, lanes := [(0, ready true), (1, ready false)], service := [0x10000] }

/-- The machine with this team, node and block. -/
def machine (T : Team := team0) (nd : Node := placeNode) (k : Block := {}) : State :=
  { State.reset with
    dev := { stage := 5, schedulerUp := true }
    funcs := [(1, { ptroot := 0x1109 })]
    runs := [(0, { stage := .admitted, func := 1, graph := { nodes := [nd] }, dies := [0], clusters := [0] })]
    blocks := [(0, { k with place := .running, func := 1, teams := [0] })]
    teams := [(0, T)]
    cores := [(0, { blocks := [0] })]
    cur := some iss0 }

/-- Both lanes Active. -/
def both : Team := { team0 with lanes := [(0, ready true), (1, ready true)] }
/-- No lane Active. -/
def idle : Team := { team0 with lanes := [(0, ready false), (1, ready false)] }
/-- Lane 0 Active in trap mode. -/
def trapped : Team := { team0 with lanes := [(0, { ready true with trap := true, tpc := 0x20000 }), (1, ready false)] }
/-- A team with these registers, and lanes 0 and 1 Active. -/
def holding (l : List (Nat × Nat × Word)) : Team :=
  { both with v := l.foldl (fun m e => m.set 0 (512 * e.1 + e.2.1) e.2.2) [] }

/-- `Issued`, as a computation. -/
def issued (s : State) (i : Instr) : Bool :=
  s.cur == some iss0 && decide ((nodeAt s iss0).regs ≤ 512) &&
  (actives s iss0).all fun L => decide (rowFault s (s.team 0) (nodeAt s iss0) i.wf i.form iss0.word L = none)

theorem issued_sound (s : State) (i : Instr) (h : issued s i = true) : Issued s iss0 i := by
  simp only [issued, Bool.and_eq_true, beq_iff_eq, decide_eq_true_eq, List.all_eq_true] at h
  exact ⟨h.1.1, h.1.2, h.2⟩

/-- The outcome is a next state. -/
def goes (o : Host.Outcome State Fault Refusal) : Bool := match o with | .next _ => true | _ => false

/-- In `s` instruction `i` is issued with an Active lane, and `exec` answers a next state. -/
def runs (s : State) (i : Instr) : Bool := issued s i && actives s iss0 != [] && goes (exec i s)

/-- `runs` gives the premises of a statement about `i`. -/
theorem runs_sound (s : State) (i : Instr) (h : runs s i = true) :
    Issued s iss0 i ∧ actives s iss0 ≠ [] ∧ ∃ t, exec i s = .next t := by
  simp only [runs, Bool.and_eq_true, bne_iff_ne] at h
  refine ⟨issued_sound s i h.1.1, h.1.2, ?_⟩
  cases e : exec i s <;> simp_all [goes]

/-! ### Witnesses: the premises of each statement met -/

/-- Operands that every register form of 07 admits: destination 6, A 4, B 2. -/
def opL : L64 := ⟨6, 4, 2, 0, 0, 0⟩
/-- The same with LIT32. -/
def opX : X96 := ⟨⟨6, 4, 0, 0, 0, 0⟩, 5⟩

theorem witness_AddAndSubResults :
    (([.addS32, .addN32, .subS32, .subN32, .addS64, .addN64, .subS64, .subN64] : List (L64 → Instr)).all fun c =>
      runs machine (c opL) && runs machine (c { opL with imm := 0x100 })) = true ∧
    (([.addS32X96, .addN32X96, .subS32X96, .subN32X96, .addS64X96, .addN64X96, .subS64X96, .subN64X96] :
      List (X96 → Instr)).all fun c => runs machine (c opX)) = true := by decide +kernel

/-- The last registers, and indirect operands. -/
theorem witness_operands : runs machine (.addS32 ⟨511, 510, 509, 0, 0, 0⟩) = true ∧
    runs machine (.addS64 ⟨510, 508, 506, 0, 0, 0⟩) = true ∧
    runs machine (.addS32 ⟨0, 6, 5, 0, 0, 0x2008⟩) = true ∧ runs machine (.addS32 ⟨7, 6, 0, 0, 0, 0x3208⟩) = true := by
  decide +kernel

theorem witness_MultiplyResults :
    (([.mul, .mulhiS32, .mulhiN32, .mad, .mulB64] : List (L64 → Instr)).all fun c => runs machine (c opL)) = true ∧
    (([.mulX96, .mulhiS32X96, .mulhiN32X96, .madX96, .mulB64X96] : List (X96 → Instr)).all fun c =>
      runs machine (c opX)) = true := by decide +kernel

theorem witness_DivisionResults :
    (([.divS32, .divN32, .remS32, .remN32, .divS64, .divN64, .remS64, .remN64] : List (L64 → Instr)).all fun c =>
      runs machine (c opL)) = true ∧
    (([.divS32X96, .divN32X96, .remS32X96, .remN32X96, .divS64X96, .divN64X96, .remS64X96, .remN64X96] :
      List (X96 → Instr)).all fun c => runs machine (c opX)) = true := by decide +kernel

theorem witness_LogicAndShiftResults :
    (([.minS32, .minN32, .maxS32, .maxN32, .minS64, .minN64, .maxS64, .maxN64, .andV, .orV, .xorV, .andn, .shl, .shr, .sar,
      .rot] : List (L64 → Instr)).all fun c => runs machine (c opL)) = true ∧
    (([.minS32X96, .minN32X96, .maxS32X96, .maxN32X96, .minS64X96, .minN64X96, .maxS64X96, .maxN64X96, .andX96, .orX96,
      .xorX96, .andnX96, .shlX96, .shrX96, .sarX96, .rotX96] : List (X96 → Instr)).all fun c =>
      runs machine (c opX)) = true := by decide +kernel

theorem witness_FieldResults :
    (([.bfxN32, .bfxS32, .bfi] : List (L64 → Instr)).all fun c => runs machine (c opL)) = true ∧
    (([.bfxN32X96, .bfxS32X96, .bfiX96] : List (X96 → Instr)).all fun c => runs machine (c opX)) = true := by
  decide +kernel

theorem witness_SelectAddressAndImmediateResults :
    (([.sel, .adda, .shla, .addai, .addi, .andi, .ori, .xori, .shli, .shri, .sari] : List (L64 → Instr)).all fun c =>
      runs machine (c ⟨6, 4, 0, 0, 0, 0⟩)) = true ∧
    runs machine (.sel ⟨6, 4, 2, 11, 0, 0⟩) = true ∧ runs machine (.shla ⟨6, 4, 2, 7, 0, 0⟩) = true ∧
    (([.selX96, .addaX96, .shlaX96] : List (X96 → Instr)).all fun c => runs machine (c opX)) = true ∧
    runs machine (.movi ⟨3, 0, 0, 0, 0, 0x3FFF⟩) = true ∧ runs machine (.lit ⟨⟨3, 0, 0, 0, 0, 0⟩, 7⟩) = true ∧
    runs machine (.litB64 ⟨⟨4, 0, 0, 0, 0, 0⟩, 7⟩) = true := by decide +kernel

theorem witness_MoveAndUnaryResults :
    (([.mov, .notV, .negS32, .absS32, .popc, .clz, .ctz, .brev, .movB64] : List (S32 → Instr)).all fun c =>
      runs machine (c ⟨6, 4⟩)) = true := by decide +kernel

theorem witness_CompareResults :
    (([.cmpS32, .cmpN32, .cmpS64, .cmpN64] : List (L64 → Instr)).all fun c => (List.range 6).all fun k =>
      runs machine (c ⟨11, 4, 2, .ofNat 9 k, 0, 0⟩)) = true ∧
    (([.cmpS32X96, .cmpN32X96, .cmpS64X96, .cmpN64X96] : List (X96 → Instr)).all fun c =>
      runs machine (c ⟨⟨11, 4, 0, 5, 0, 0⟩, 9⟩)) = true ∧
    (([.cmpiS32, .cmpiN32] : List (L64 → Instr)).all fun c => runs machine (c ⟨11, 4, 0, 5, 0, 0x2000⟩)) = true := by
  decide +kernel

/-- SREAD of every system register that has a number, in trap mode, and the writes. -/
theorem witness_RegisterReadsAndWrites :
    (([.xget, .wget, .kpop, .kget] : List (S32 → Instr)).all fun c => runs machine (c ⟨6, 3⟩)) = true ∧
    runs machine (.wget ⟨6, 63⟩) = true ∧ runs machine (.wset ⟨63, 6⟩) = true ∧ runs machine (.xset ⟨3, 6⟩) = true ∧
    ((List.range 512).all fun n => (sysSize n).isNone || runs (machine trapped) (.sread ⟨6, .ofNat 9 n⟩)) = true ∧
    runs machine (.swrite ⟨0x01D, 6⟩) = true ∧ runs (machine trapped) (.swrite ⟨0x100, 6⟩) = true ∧
    runs (machine trapped) (.swrite ⟨0x104, 6⟩) = true := by decide +kernel

theorem witness_ShuffleResults :
    (([.shflIdx, .shflUp, .shflDown, .shflXor] : List (L64 → Instr)).all fun c => (List.range 8).all fun k =>
      runs machine (c ⟨6, 4, 2, .ofNat 9 k, 0, 0⟩)) = true ∧ runs machine (.bcast opL) = true := by decide +kernel

theorem witness_VoteAndReduceResults :
    (([.voteAny, .voteAll, .voteBal, .matchLanes] : List (L64 → Instr)).all fun c =>
      runs (machine both) (c ⟨6, 4, 0, 0, 0, 0⟩)) = true ∧
    issued (machine idle) (.voteBal ⟨6, 4, 0, 0, 0, 0⟩) = true ∧ actives (machine idle) iss0 = [] ∧
    (([.redstep, .scanstep] : List (L64 → Instr)).all fun c => (List.range 8).all fun op => (List.range 8).all fun d =>
      runs (machine both) (c ⟨6, 4, 0, 0, 0, .ofNat 14 (8 * op + d)⟩)) = true := by decide +kernel

theorem witness_MaskWrites :
    (([.enrol, .leave, .kact, .strike] : List (S32 → Instr)).all fun c =>
      runs machine (c ⟨0, 0⟩) && runs machine (c ⟨11, 0⟩)) = true ∧
    (([.kmov, .knot, .kand, .kor, .kxor, .kandn, .kset] : List (S32 → Instr)).all fun c => runs machine (c ⟨11, 3⟩)) = true ∧
    (([.kmov, .knot, .kand, .kor, .kxor, .kandn, .kset] : List (S32 → Instr)).all fun c =>
      issued (machine idle) (c ⟨11, 3⟩)) = true := by decide +kernel

theorem witness_PredicationAndJoins :
    runs machine (.pred ⟨0, 11⟩) = true ∧ runs machine (.predNot ⟨0, 11⟩) = true ∧ runs machine .nop = true ∧
    runs (machine { both with k := [(5, 1)] }) (.join ⟨5, 0⟩) = true ∧
    runs (machine { both with k := [(5, 1)] }) (.waitk ⟨5, 0⟩) = true ∧
    ((machine both).team 0).atMask 5 = [] ∧ (∀ L < 64, (machine { both with k := [(5, 1)] }).logNeed 0 L 0 .order 1 = none) := by
  decide +kernel

theorem witness_BranchesMoveLanes :
    (([.bra, .brnz, .brz, .brk] : List (L64 → Instr)).all fun c => runs machine (c ⟨0, 0, 0, 0, 0, 0x3FFA⟩)) = true ∧
    (([.braLong, .brnzLong, .brzLong, .brkLong] : List (X96 → Instr)).all fun c =>
      runs machine (c ⟨⟨0, 0, 0, 0, 0, 0⟩, 0x100⟩)) = true := by decide +kernel

/-- Lane 0 takes the branch back by 6, lane 1 falls through, for every hint. -/
theorem witness_BranchServesHintedSideFirst : ∀ h ∈ ([0, 1, 2, 3] : List Nat),
    let s := machine (holding [(0, 3, 1)])
    let o : L64 := ⟨0, 3, 0, 0, .ofNat 2 h, 0x3FFA⟩
    issued s (.brnz o) = true ∧ issued s (.brz o) = true ∧ (s.team 0).service = [iss0.pc] ∧ iss0.group.Nodup ∧
    (∀ L ∈ iss0.group, L < 64 ∧ ((s.team 0).lane L).st = .ready) ∧
    (∀ L < 64, L ∉ iss0.group → ((s.team 0).lane L).st ≠ .ready) ∧
    iss0.pc + 4 * o.imm.signExtend 64 ≠ nextPc iss0.pc iss0.len ∧
    (actives s iss0).filter (fun L => op32 s iss0 (.brnz o) 1 L != 0) = [0] := by decide +kernel

theorem witness_CallsAndJumps :
    runs machine (.call ⟨6, 0, 0, 0, 0, 5⟩) = true ∧ runs machine (.callLong ⟨⟨6, 0, 0, 0, 0, 0⟩, 9⟩) = true ∧
    runs machine (.jmp ⟨0, 4, 0, 0, 0, 5⟩) = true ∧ runs machine (.callr ⟨6, 4, 0, 0, 0, 5⟩) = true ∧
    runs machine (.ret ⟨0, 4⟩) = true ∧ ∀ L, Act machine iss0 L →
      (op64 machine iss0 (.jmp ⟨0, 4, 0, 0, 0, 5⟩) 1 L + 4 * (5 : BitVec 14).signExtend 64).toNat % 4 = 0 ∧
      (op64 machine iss0 (.callr ⟨6, 4, 0, 0, 0, 5⟩) 1 L + 4 * (5 : BitVec 14).signExtend 64).toNat % 4 = 0 ∧
      (op64 machine iss0 (.ret ⟨0, 4⟩) 1 L).toNat % 4 = 0 := by decide +kernel

/-- Page 0x20 of function 1 stands at physical address 0x20000, readable, writable, executable and for the user. -/
def tlb0 : List TlbEntry := [{ cluster := 0, func := 1, page := 0x20, pte := 0x2002F, level := 1 }]

/-- The machine with page 0x20 mapped and these doubles in it. -/
def paged (T : Team := team0) (nd : Node := placeNode) (l : List (Nat × Nat) := []) : State :=
  l.foldl (fun s e => s.hbmWrite e.1 8 e.2) { machine T nd with tlb := tlb0 }

/-- With nothing in any L1 a plain read is served at the home. -/
theorem readNow_home (s : State) (tn L p n : Nat) (h : s.l1.isEmpty = true) (hn : 0 < n) :
    let u := ((s.callHome (s.team tn).core (.hbm p)).reach (.hbm p)).dropSector (s.team tn).core (p / 32)
    s.readNow tn L (.hbm p) n = (u.heard tn L (.hbm p) n,
      (s.block (s.team tn).block).overlay (s.agentOf tn L).who p n (u.peek (.hbm p) n)) := by
  have e : s.l1Read (s.team tn).core p n = none := by
    have : s.l1 = [] := by simpa using h
    simp only [State.l1Read, this]
    cases hw : wordsOf p n with
    | nil => simp [wordsOf] at hw; omega
    | cons a r => simp
  simp [State.readNow, e]

/-- Lane 0 alone Active: an index at the last table entry, at an address that it may read, with an entry that is a PC. -/
theorem witness_JumpTables :
    let s := paged { team0 with v := [(0, 1), (8, 0x20010)] } placeNode [(0x20018, 0x20040)]
    let o : L64 := ⟨0, 0, 8, 0, 0, 1⟩
    issued s (.jtab o) = true ∧ actives s iss0 = [0] ∧
    (op32 s iss0 (.jtab o) 1 0).toNat < o.imm.toNat + 1 ∧ (op64 s iss0 (.jtab o) 2 0).toNat % 8 = 0 ∧
    s.checkThread 0 0 .read 0x20018 8 8 = .ok (.hbm 0x20018) ∧ s.readReady 0 0 (.hbm 0x20018) 8 = true ∧
    s.logFaults (seen s iss0 (.jtab o)) [(0, [], .hbm 0x20018)] = [] := by decide +kernel

theorem witness_JumpTables_entry :
    ((paged { team0 with v := [(0, 1), (8, 0x20010)] } placeNode [(0x20018, 0x20040)]).readNow 0 0 (.hbm 0x20018) 8).2 = 0x20040 := by
  rw [readNow_home _ _ _ _ _ (by decide +kernel) (by decide)]
  decide +kernel

theorem witness_TransferFaults :
    (let s := machine { team0 with v := [(4, 0x20002)] }
     issued s (.jmp ⟨0, 4, 0, 0, 0, 5⟩) = true ∧ issued s (.callr ⟨6, 4, 0, 0, 0, 5⟩) = true ∧ issued s (.ret ⟨0, 4⟩) = true ∧
     actives s iss0 = [0] ∧ (op64 s iss0 (.jmp ⟨0, 4, 0, 0, 0, 5⟩) 1 0 + 4 * (5 : BitVec 14).signExtend 64).toNat % 4 = 2 ∧
     (op64 s iss0 (.ret ⟨0, 4⟩) 1 0).toNat % 4 = 2) ∧
    (let s := machine { team0 with v := [(0, 2), (8, 0x20010)] }
     issued s (.jtab ⟨0, 0, 8, 0, 0, 1⟩) = true ∧ (op32 s iss0 (.jtab ⟨0, 0, 8, 0, 0, 1⟩) 1 0).toNat = 2) ∧
    ∀ p ∈ ([0x20000, doorBase] : List Nat),
      let s : State := { machine { team0 with v := [(0, 1), (8, 0x20014)] } with
        tlb := [{ cluster := 0, func := 1, page := 0x20, pte := .ofNat 64 (p + 0x2F), level := 1 }] }
      issued s (.jtab ⟨0, 0, 8, 0, 0, 1⟩) = true ∧ (op64 s iss0 (.jtab ⟨0, 0, 8, 0, 0, 1⟩) 2 0).toNat % 8 = 4 ∧
      s.strangeDoor (s.agentOf 0 0) .read 0x2001C = .ok (if p = doorBase then some (.door 0x1C) else none) := by decide +kernel

/-- EXIT of one lane of a team, and of its last lane. -/
theorem witness_ExitEndsLanes : runs machine .exit = true ∧ runs (machine both) .exit = true := by decide +kernel

theorem witness_TrapAndReturn :
    runs machine (.trap ⟨64, 0⟩) = true ∧ runs (machine both) (.trap ⟨127, 0⟩) = true ∧ runs (machine trapped) .tret = true ∧
    (∀ L, Act (machine trapped) iss0 L → (((machine trapped).team 0).lane L).trap = true ∧
      (((machine trapped).team 0).lane L).tstatus.extractLsb' 20 12 = 0) ∧
    issued machine .tret = true ∧ actives machine iss0 = [0] ∧ ((machine.team 0).lane 0).trap = false := by decide +kernel

/-- A node whose trap table stands at 0x20000. -/
def tableNode : Node := { placeNode with traptab := 0x20000 }

/-- FaultEntersHandler: code 6 finds the handler 0x20040 in entry 6. -/
theorem witness_FaultEntersHandler :
    let s := paged team0 tableNode [(0x20030, 0x20040)]
    let l := (s.team 0).lane 0
    let u := s.setTeam 0 ((s.team 0).setLane 0 { l with
      tpc := 0x10000, tnext := 0x10004, taddr := 3, tinfo := 0, tstatus := 6, trap := true, pend := true, st := .ready })
    l.st ≠ .exited ∧ l.trap = false ∧ (s.nodeOf 0).traptab.toNat = 0x20000 ∧
    u.checkThread 0 0 .read (0x20000 + 8 * 6) 8 8 = .ok (.hbm 0x20030) ∧ u.readReady 0 0 (.hbm 0x20030) 8 = true ∧
    (u.readNow 0 0 (.hbm 0x20030) 8).2 = 0x20040 := by
  refine ⟨by decide +kernel, by decide +kernel, by decide +kernel, by decide +kernel, by decide +kernel, ?_⟩
  rw [readNow_home _ _ _ _ _ (by decide +kernel) (by decide)]
  decide +kernel

/-- UnhandledFaultStopsBlock: a lane in trap mode, and a lane at user level on a node without a trap table. -/
theorem witness_UnhandledFaultStopsBlock : ∀ T ∈ [team0, trapped], let s := machine T
    (s.block 0).place = .running ∧ ((s.team 0).lane 0).st ≠ .exited ∧ 0 ∈ (s.block 0).teams ∧ (s.block 0).teams.Nodup ∧
    (((s.team 0).lane 0).trap = true ∨ (s.nodeOf 0).traptab = 0) := by decide +kernel

/-- RowsStopLanes: on a node without the base feature an instruction of every group named there is stopped by row 8. -/
theorem witness_RowsStopLanes :
    let s := machine team0 { placeNode with featreq := 0 }
    let l : L64 := ⟨6, 0, 0, 0, 0, 0⟩
    let z : S32 := ⟨0, 0⟩
    s.cur = some iss0 ∧ actives s iss0 = [0] ∧
    ∀ i ∈ ([.addS32 l, .jtab ⟨0, 0, 0, 0, 0, 0⟩, .lit ⟨l, 0⟩, .mov z, .ld ⟨6, 4, 64, 1, 0, 0, 1⟩, .frcp .f32 z, .fadd .f32 l,
        .faddX96 .f32 ⟨l, 0⟩, .nop, .fenceAcq, .emit l, .cmpS32 l, .cmpS32X96 ⟨l, 0⟩, .enrol z, .fcmp .f32 l,
        .fcmpX96 .f32 ⟨l, 0⟩, .bar z, .waitc ⟨⟨0, 0, 0, 0, 0, 0⟩, 0⟩, .join z, .waitk z, .strike z, .twaitAny z, .tfind z,
        .pred z, .predNot z] : List Instr),
      rowFault s (s.team 0) (nodeAt s iss0) i.wf i.form 0x1234 0 ≠ none := by decide +kernel

/-- Each row in turn stops the lane: a feature; a register of supervisor level; a register, an accumulator slot, a mask, a
barrier beyond its allotment; an indirect pair of odd index; and an instruction that passes. -/
theorem witness_Rows :
    let nd : Node := { placeNode with featreq := 1, shape := 1 }
    let f (i : Instr) (T : Team := team0) : Option FaultInfo := rowFault machine T nd i.wf i.form 0 0
    f (.mxmF8 ⟨0, 0, 0, 0, 0, 0⟩) = some { code := 0x02, info := 1 } ∧
    f (.sread ⟨6, 0x105⟩) = some { code := 0x17, info := 0x105 } ∧
    privNumber (Instr.form (.sread ⟨6, 0x105⟩)) = some 0x105 ∧
    f (.mov ⟨nd.regs, 0⟩) = some { code := 0x03, info := .ofNat 32 nd.regs } ∧
    kindBeyond (Instr.form (.mxzero ⟨3, 0, 0, 0, 0, 0⟩)) .acc nd.accs = some 3 ∧
    rowFault machine team0 { nd with featreq := 0x1FFF } true (Instr.form (.mxzero ⟨3, 0, 0, 0, 0, 0⟩)) 0 0 =
      some { code := 0x03, info := 3 } ∧
    (kindBeyond (Instr.form (.kact ⟨11, 0⟩)) .k nd.masks).map (BitVec.ofInt 32) = some 11 ∧
    f (.kact ⟨11, 0⟩) = some { code := 0x04, info := 11 } ∧ f (.bar ⟨15, 0⟩) = some { code := 0x04, info := 15 } ∧
    oddPair { team0 with x := [(0, 1)] } 0 (Instr.form (.addS64 ⟨0, 4, 2, 0, 0, 0x2000⟩)) = true ∧ f (.mov ⟨6, 4⟩) = none := by
  decide +kernel

/-- LIVE of two groups; PHINT without a request, and with one, where everything has come to rest. -/
theorem witness_LiveAndPhint :
    (let s := machine
     let o : X96 := ⟨⟨0, 0, 0, 0, 0, 0⟩, 3⟩
     runs s (.live o) = true ∧ ∀ g < 32, s.groupBusy 0 0 g = false) ∧
    (let s := machine
     runs s (.phint ⟨⟨0, 2, 0, 0, 0, 0⟩, 3⟩) = true ∧ (s.block 0).preempt = false) ∧
    ∀ cut ∈ [true, false],
    let s := machine both placeNode { preempt := true }
    let s := s.setFunc 1 { s.func 1 with cut := cut }
    runs s (.phint ⟨⟨0, 2, 0, 0, 0, 1⟩, 3⟩) = true ∧ (s.func 1).cut = cut ∧ (s.block 0).preempt = true ∧ s.saveReady 0 = true ∧
    ∀ L < 64, ((s.team 0).lane L).st ≠ .exited → L ∈ iss0.group ∧ ((s.team 0).lane L).trap = false := by decide +kernel

/-- A node with 4 KiB of vault for each block. -/
def vaultNode : Node := { placeNode with vaultb := 0x1000 }
/-- The machine with 4 KiB of vault at the vault window's first byte, and this in v4:5 of lane 0. -/
def vaulted (a : Dbl := 0x0100000000000000) (T : Team := team0) : State :=
  machine { T with v := [(4, a.setWidth 32), (5, (a >>> 32).setWidth 32)] } vaultNode { vbase := 0x0100000000000000 }

/-- The premises of `AccessesAreIssued` for a form and address. -/
def accessPremises (s : State) (ins : M64 → Instr) (m : MemOp) (o : M64) (tgt : Target) : Bool :=
  let i := ins o
  let c := seen s iss0 i
  let ls := (actives s iss0).map fun L => (L, laneAddr s iss0 o L, tgt)
  runs s i && ((actives s iss0).all fun L => decide (s.checkMem c L (laneAddr s iss0 o L) (2 ^ o.wid.toNat) m = .ok tgt)) &&
  s.logFaults c (s.laneLogs c (2 ^ o.wid.toNat) m o.ord.toNat ls) == [] && s.overLanes 0 c.node ls (s.pendingLines 0) == [] &&
  (match m with | .atomic op => atomNative tgt op o.wid.toNat | _ => true) &&
  s.requestRoom (s.team 0).core ((actives s iss0).flatMap fun L =>
    (laneAccesses (s.team 0) o m tgt (laneAddr s iss0 o L) L).map fun y => (s.fresh, y.1.sector))

/-- Every access form, at the first byte and at the last aligned place of the block's vault. -/
theorem witness_AccessesAreIssued : ∀ a ∈ ([0, 0xFF0] : List Nat),
    let s := vaulted (0x0100000000000000 + BitVec.ofNat 64 a)
    let p (ins : M64 → Instr) (m : MemOp) (o : M64) : Bool := accessPremises s ins m o (.vault 0 a)
    p .ld .load ⟨8, 4, 0, 0, 0, 0, 1⟩ = true ∧ p .ld .load ⟨8, 4, 0, 4, 3, 1, 0⟩ = true ∧
    p .st .store ⟨8, 4, 0, 0, 0, 0, 0⟩ = true ∧ p .st .store ⟨8, 4, 0, 4, 0, 2, 0⟩ = true ∧
    p .tld .tload ⟨8, 4, 0, 3, 0, 0, 0⟩ = true ∧ p .watch .watch ⟨8, 4, 0, 3, 0, 1, 0⟩ = true ∧
    (([(.atomAdd, 0), (.atomMin, 2), (.atomMax, 3), (.atomAnd, 4), (.atomOr, 5), (.atomXor, 6), (.atomXchg, 7)] :
      List ((M64 → Instr) × Nat)).all fun x => p x.1 (.atomic x.2) ⟨8, 4, 0, 2, 0, 3, 0⟩ &&
        p x.1 (.atomic x.2) ⟨8, 4, 0, 3, 0, 0, 0⟩) = true ∧
    p .atomFadd (.atomic 1) ⟨8, 4, 0, 2, 0, 2, 0⟩ = true ∧ p .atomCas (.atomic 8) ⟨8, 4, 0, 4, 0, 0, 0⟩ = true ∧
    (s.team 0).stc = 0 ∧ (s.team 0).ldc = 0 := by decide +kernel

/-- An address in no window fails the checks of every form. -/
theorem witness_AccessFaultsAreTaken :
    let s := vaulted 0xFFFFFFFFFFFFFFF0
    let o : M64 := ⟨8, 4, 0, 2, 0, 0, 0⟩
    (([(Instr.ld, MemOp.load), (.st, .store), (.tld, .tload), (.watch, .watch), (.atomAdd, .atomic 0), (.atomFadd, .atomic 1),
        (.atomMin, .atomic 2), (.atomMax, .atomic 3), (.atomAnd, .atomic 4), (.atomOr, .atomic 5), (.atomXor, .atomic 6),
        (.atomXchg, .atomic 7), (.atomCas, .atomic 8)] :
      List ((M64 → Instr) × MemOp)).all fun p => runs s (p.1 o) &&
        decide (s.checkMem (seen s iss0 (p.1 o)) 0 (laneAddr s iss0 o 0) 4 p.2 =
          .error { code := 0x08, addr := 0xFFFFFFFFFFFFFFF0 })) = true := by decide +kernel

/-- AddressAndPageChecks: an address for each clause, at its boundary, and a vault access outside the block's part. -/
theorem witness_AddressAndPageChecks :
    let s := vaulted
    let ag := s.agentOf 0 0
    3 * 2 ^ 56 ≤ 3 * 2 ^ 56 ∧
    (2 ^ 56 - 4) / 2 ^ 56 ≠ (2 ^ 56 - 4 + 8 - 1) / 2 ^ 56 ∧
    ((2 ^ 56 - 4) / 2 ^ 56 = (2 ^ 56 - 4 + 4 - 1) / 2 ^ 56 ∧ (2 ^ 56 - 3) % 4 ≠ 0) ∧
    (ag.sup = false ∧ ag.vbase = 2 ^ 56 ∧ ag.vaultb = 0x1000) ∧
    s.checkAccess ag .write (2 ^ 56 + 0xFFF) 1 1 = .ok (.vault 0 0xFFF) ∧
    s.checkAccess ag .write (2 ^ 56 + 0x1000) 1 1 = .error { code := 0x05, addr := 0x0100000000001000 } ∧
    leafPermits 0x2B .fetch true false = some 7 ∧ leafPermits 0x1002F .write true false = none := by decide +kernel

/-- A load of lane 0 that has not been performed. -/
def load0 : Access :=
  { id := 1, ins := 0, kind := .load, team := 0, block := 0, core := 0, lane := 0, func := 1, va := 0x0100000000000000,
    target := .vault 0 0, size := 4, ord := 0, dest := 8, ndest := 1, sx := false, nol1 := false, data := 0, data2 := 0, ts := 0,
    floored := false, supervisor := false, stage := .issued }

/-- WAITC at its limits and one above; WAITW of a triggered, an armed and an unarmed watch, and with a WATCH in
flight. -/
theorem witness_WaitsForCountersAndWatches :
    (let s := machine { both with ldc := 4, stc := 3, cpc := 2, tlc := 1 }
     runs s (.waitc ⟨⟨0, 0, 0, 0, 0, 0⟩, 0x01020304⟩) = true ∧ runs s (.waitc ⟨⟨0, 0, 0, 0, 0, 0⟩, 0x01020204⟩) = true) ∧
    (∀ w ∈ [Watch.none, .triggered, .armed 7],
      runs (machine { team0 with lanes := [(0, { ready true with watch := w }), (1, ready false)] }) (.waitw ⟨6, 0⟩) = true) ∧
    let s : State := { machine with accesses := [{ load0 with kind := .watch }] }
    runs s (.waitw ⟨6, 0⟩) = true ∧
      ∃ x ∈ s.accesses, x.team = 0 ∧ Act s iss0 x.lane ∧ x.stage = .issued ∧ x.kind = .watch := by decide +kernel

/-- A store of lane 0 that has not been performed. -/
def store0 : Access := { load0 with id := 2, kind := .store, ndest := 0, data := 0x01020304 }

/-- Fences with no Active lane, with a read outstanding, with a write outstanding, with nothing outstanding. -/
theorem witness_FencesAndFlushes :
    (([.fenceAcq, .fenceRel, .fenceTbl, .fenceSc, .updflush] : List Instr).all fun i => issued (machine idle) i && runs machine i) =
      true ∧ actives (machine idle) iss0 = [] ∧
    (let s : State := { machine with accesses := [load0] }
     runs s .fenceAcq = true ∧ runs s .fenceTbl = true ∧
     ∃ x ∈ s.accesses, x.team = 0 ∧ Act s iss0 x.lane ∧ x.stage = .issued ∧ x.kind ≠ .store) ∧
    (let s : State := { machine with accesses := [store0] }
     runs s .fenceRel = true ∧ runs s .fenceTbl = true ∧ runs s .fenceSc = true ∧ s.unacked 0 = [2] ∧
     s.logNeed 0 0 0 .order 1 = none ∧ (s.team 0).stc ≠ 255) := by decide +kernel

/-- Lanes 0 and 1 at JOIN k0, and lane 2 elsewhere. -/
def joiners (k : Nat) : State :=
  machine { team0 with
    k := [(0, .ofNat 64 k)]
    lanes := [(0, { ready true with st := .waiting (.join 0 []) }), (1, { ready true with st := .waiting (.join 0 []) }),
      (2, ready true)] }

/-- MaskRelease: no lane is released while lane 2 is enrolled, both are once it is not; lane 1 alone where its bit is 0. -/
theorem witness_MaskRelease :
    (∀ k ∈ ([7, 3, 5] : List Nat), (joiners k).det 0 = false) ∧
    ((joiners 7).team 0).maskFrees 0 = [] ∧ ((joiners 3).team 0).maskFrees 0 = [0, 1] ∧
    ((joiners 5).team 0).maskFrees 0 = [1] ∧ (joiners 5).arrivalsDue ((joiners 5).team 0) [1] = [] ∧
    let late : Team := { (joiners 3).team 0 with lanes := [(0, { ready true with st := .waiting (.join 0 [2]) })], k := [(0, 1)] }
    let s : State := { machine late with accesses := [store0] }
    late.maskFrees 0 = [0] ∧ s.arrivalsDue late [0] = [2] := by decide +kernel

/-- Barrier instructions, and BAR.WAIT of a lane that has arrived and of one that has not. -/
theorem witness_BarrierInstructionsWait :
    (([.bar, .barArv, .drain, .barWait] : List (S32 → Instr)).all fun c => runs machine (c ⟨15, 0⟩)) = true ∧
    machine.logNeed 0 0 0 .order 1 = none ∧ machine.barOwes 0 15 = false ∧
    (let s := machine team0 placeNode { bars := [(3, { arr := 1 })] }
     runs s (.barWait ⟨3, 0⟩) = true ∧ ((s.block 0).bar 3).arr.getLsbD 0 = true) ∧
    ((machine.block 0).bar 15).arr.getLsbD 0 = false := by decide +kernel

/-- A lane that arrives at a barrier, and one whose DRAIN condition holds. -/
theorem witness_BarrierArrivalRecords : ∀ w ∈ [Wait.arrive .bar 3 [], .arrive .arv 3 [], .drain 3 []],
    let s := machine { both with lanes := [(0, { ready true with st := .waiting w }), (1, ready true)] }
    ((s.team 0).lane 0).st = .waiting w ∧ (s.team 0).stc = 0 ∧ (s.team 0).cpc = 0 ∧ (s.team 0).emc = 0 ∧ s.acked [] = true ∧
    ((s.block 0).bar 3).arr.getLsbD 0 = false ∧ (s.block 0).place = .running ∧
    goes (exec (.barrierArrival 0 0) s) = true := by decide +kernel

/-- BarrierRelease: one of two live threads has arrived, and both. -/
theorem witness_BarrierRelease : ∀ a ∈ ([1, 3] : List Nat),
    let wait : Lane := { ready true with st := .waiting (.phase 3) }
    let s := machine { both with lanes := [(0, wait), (1, if a = 1 then ready true else wait)] } placeNode
      { bars := [(3, { arr := .ofNat 1024 a })] }
    s.det 0 = false ∧ (s.block 0).teams.Nodup ∧ s.barComplete 0 3 = decide (a = 3) := by decide +kernel

/-- TWAIT and TFIND with no error, and with an error on tag 0. -/
theorem witness_TagInstructions : ∀ es ∈ ([[], [{ tag := 0, code := 0x08, cause := 0, addr := 9 }]] : List (List TagError)),
    let s : State := { machine with cores := [(0, { blocks := [0], tags := 0xFD, tagErrs := es })] }
    runs s (.twaitAny ⟨0, 4⟩) = true ∧ runs s (.twaitAll ⟨0, 4⟩) = true ∧ runs s (.tfind ⟨6, 4⟩) = true ∧
    ∀ e ∈ (s.core 0).tagErrs, e.code ≠ 0 := by decide +kernel

/-- WAITB of a barrier whose PEND is 0, is 0 with the error flag, and is 1. -/
theorem witness_TroughWaits : ∀ m ∈ ([[], [(7, 0x80)], [(0, 1)]] : List (List Host.Cell)),
    let s : State := { vaulted with vaults := m }
    runs s (.waitb ⟨6, 4⟩) = true ∧ (op64 s iss0 (.waitb ⟨6, 4⟩) 1 0).toNat = 2 ^ 56 ∧
    s.checkThread 0 0 .read (2 ^ 56) 16 16 = .ok (.vault 0 0) ∧ s.peek (.vault 0 0) 4 = (if m = [(0, 1)] then 1 else 0) := by
  decide +kernel

/-- CANCEL with nothing unacknowledged, and with a store that is. -/
theorem witness_CancelsEndRuns :
    (([.cancelRun, .cancelPhase, .cancelJob] : List Instr).all fun i => runs machine i &&
      runs { machine with accesses := [store0] } i) = true ∧
    machine.unacked 0 = [] ∧ machine.logNeed 0 0 ((machine.run 0).homeDie 0) .yard 1 = none := by decide +kernel

/-- Registers of lane 0 from v8 that hold a tile handle: base, format, ZFI; one element. -/
def handleRegs (n base fmt zfi : Nat) : List (Nat × Nat × Word) :=
  [(0, n, .ofNat 32 base), (0, n + 1, .ofNat 32 (base / 2 ^ 32 + fmt * 2 ^ 25)), (0, n + 3, .ofNat 32 (zfi * 2 ^ 20))]

/-- The machine with these registers, tag state and so on of core 0. -/
def cored (T : Team) (c : Core) : State := { vaulted with teams := [(0, T)], cores := [(0, { c with blocks := [0] })], tlb := tlb0 }

/-- Two vault ranges in v2:3 and v4:5, and this in v6. -/
def copyRegs (n : Word) : List (Nat × Nat × Word) := [(0, 3, 0x01000000), (0, 4, 0x80), (0, 5, 0x01000000), (0, 6, n)]

/-- CPY: tag busy; an error on the tag; zero bytes; 16 bytes within the vault. CPY2D of one and of two rows. -/
theorem witness_CopiesStart :
    let o : L64 := ⟨2, 4, 6, 0, 0, 0x0100⟩
    let p : X96 := ⟨⟨2, 4, 6, 8, 0, 0x3F00⟩, 32⟩
    (let s := cored (holding (copyRegs 16)) { tags := 0 }
     runs s (.cpy o) = true ∧ (s.core 0).tags.getLsbD 1 = false) ∧
    (let s := cored (holding (copyRegs 16)) { tagErrs := [{ tag := 1, code := 8, cause := 0, addr := 0 }] }
     runs s (.cpy o) = true ∧ freeLocks s 0 = 64) ∧
    (let s := cored (holding (copyRegs 0)) {}
     runs s (.cpy o) = true ∧ (op32 s iss0 (.cpy o) 2 0).toNat = 0 ∧ runs s (.cpy2d p) = true) ∧
    (let s := cored (holding (copyRegs 16)) {}
     let ag := s.agentOf 0 0
     runs s (.cpy o) = true ∧ runs s (.cpy2d p) = true ∧ (s.core 0).tags.getLsbD 1 = true ∧ freeLocks s 0 = 64 ∧
     boundRange (2 ^ 56) 1 16 0 = (2 ^ 56, 2 ^ 56 + 15) ∧
     s.copyRange ag (2 ^ 56) (2 ^ 56 + 15) = none ∧ s.copyRange ag (2 ^ 56 + 0x80) (2 ^ 56 + 0x8F) = none ∧
     (s.team 0).cpc = 0) ∧
    let s := cored (holding (copyRegs (16 + 2 ^ 20))) {}
    runs s (.cpy2d p) = true ∧ natBits (op32 s iss0 (.cpy2d p) 2 0).toNat 31 20 + 1 = 2 := by decide +kernel

/-- ZSCAN without a record and with one; NMV whose barrier stands in the vault. -/
theorem witness_EnginesStart :
    (∀ z ∈ ([0, 1] : List Nat),
      let s := cored (holding (handleRegs 8 0x20000 3 z)) {}
      let h := handleIn s iss0 (.zscan ⟨6, 8, 0, 0, 0, 0⟩) 1 0
      runs s (.zscan ⟨6, 8, 0, 0, 0, 0⟩) = true ∧ h.fault 0x1234 = none ∧ h.zfi = z ∧ (s.team 0).tlc = 0 ∧
      windowOf h.base.toNat = 0 ∧ (match s.tileOutside (s.agentOf 0 0) h.pages with | .ok b => !b | .error _ => false) = true ∧ freeLocks s 0 = 64 ∧
      windowOf ((s.func 1).zflagAddr 1) = 0) ∧
    let s := cored (holding ((0, 13, 0x01000000) :: handleRegs 8 0x20000 3 0)) {}
    runs s (.nmv ⟨2, 4, 8, 12, 0, 0⟩) = true ∧ 3 ≤ freeLocks s 0 ∧ s.marks.get 0 (barrierMark 0 0) = 0 ∧
    s.nmvBarrier (s.agentOf 0 0) (op64 s iss0 (.nmv ⟨2, 4, 8, 12, 0, 0⟩) 3 0).toNat = .ok (0, 0) := by decide +kernel

/-- A region of one line of F32 sums at 0x20000. -/
def regioned : State :=
  let s := cored (holding [(0, 4, 0x20000), (1, 4, 0x20008)]) {}
  s.setFunc 1 { s.func 1 with regions := [(7, { rbase := 0x20000, rctl := 0x8000000000000001 })] }

/-- The region's operation and type (10 R261), set to what a form needs. -/
def regionedFor (ty op : Nat) : State :=
  let r : Region := { rbase := 0x20000, rctl := BitVec.ofNat 64 (2 ^ 63 + 1 + ty * 2 ^ 35 + op * 2 ^ 32) }
  regioned.setFunc 1 { regioned.func 1 with regions := [(7, r)] }

theorem witness_UpdatesAreIssued :
    (([(.updAdd, 0), (.updMin, 1), (.updMax, 2)] : List ((L64 → Instr) × Nat)).all fun x => (List.range 5).all fun ty =>
      let s := regionedFor ty x.2
      let i := x.1 ⟨0, 4, 6, 0, 0, .ofNat 14 ty⟩
      runs s i && (actives s iss0 == [0, 1]) && ((actives s iss0).all fun L =>
        match s.updCheck (seen s iss0 i) L (op64 s iss0 i 1 L).toNat (regionBytes ty) (regionBytes ty) (some (ty, x.2)) with
        | .ok r => r.1 == 7 && (s.updTorn (seen s iss0 i) L (op64 s iss0 i 1 L).toNat r).isNone &&
          s.requestRoom 0 [(s.fresh, Target.sector (.hbm 0x20000)), (s.fresh, r.2.2.sector)]
        | _ => false)) = true ∧
    (nodeAt regioned iss0).versioned = false ∧ (regioned.team 0).stc = 0 ∧
    runs regioned (.updclr ⟨0, 4, 0, 0, 0, 0⟩) = true ∧
    (regioned.updCheck (seen regioned iss0 (.updclr ⟨0, 4, 0, 0, 0, 0⟩)) 0 0x20000 1 1 none).toBool = true ∧
    let s : State := { regioned with
      tlb := [{ cluster := 0, func := 1, page := 0x20, pte := .ofNat 64 (doorBase + 0x2F), level := 1 }] }
    runs s (.updclr ⟨0, 4, 0, 0, 0, 0⟩) = true ∧
    ((s.updCheck (seen s iss0 (.updclr ⟨0, 4, 0, 0, 0, 0⟩)) 0 0x20000 1 1 none).toOption.map (·.2.2)) = some (.door 0) := by
  decide +kernel

/-- MXM of each SHAPE, MXM.W without a walk, before a tile is staged and with one, MXZERO. -/
theorem witness_MatrixProducts :
    (let s (f : Word) := machine { team0 with v := [(40, f)] }
     runs (s 0x33) (.mxmF8 ⟨3, 16, 24, 40, 0, 1⟩) = true ∧ runs (s 0x35) (.mxmS2p8 ⟨1, 16, 24, 40, 0, 0⟩) = true ∧
     runs (s 0x11) (.mxmH16 ⟨0, 16, 24, 40, 0, 0⟩) = true ∧ fmtsOk 0 3 3 = true ∧ fmtsOk 1 5 3 = true ∧ fmtsOk 2 1 1 = true ∧
     op32 (s 0x33) iss0 (.mxmF8 ⟨3, 16, 24, 40, 0, 1⟩) 3 0 = 0x33) ∧
    (∀ w ∈ ([{}, { owner := 1, running := true }, { owner := 1, running := false, staged := [.tile 3 []] }] : List Walker),
      let s := cored { team0 with v := [(40, 0x33)] } { walker := w }
      runs s (.mxmW ⟨0, 32, 0, 40, 0, 4⟩) = true ∧ (nodeAt s iss0).featreq.getLsbD 1 = true) ∧
    runs machine (.mxzero ⟨3, 0, 0, 0, 0, 0⟩) = true := by decide +kernel

/-- MXRD of every format, and MXSKIP with and without a flag record. -/
theorem witness_MatrixReads :
    ((List.range 5).all fun f => runs machine (.mxrd ⟨32, 1, 0, 0, 0, .ofNat 14 (f + 16)⟩)) = true ∧
    ∀ i ∈ ([0, 0x800] : List Nat),
      let s := cored (holding (handleRegs 12 0x20000 3 1)) {}
      let o : L64 := ⟨11, 4, 8, 12, 0, .ofNat 14 i⟩
      runs s (.mxskip o) = true ∧ (handleIn s iss0 (.mxskip o) 3 0).fault 0x1234 = none ∧ (s.team 0).tlc = 0 := by decide +kernel

/-- MXST of F8A elements, 32 to a row, to the block's vault. -/
theorem witness_MatrixStores :
    let s := cored { team0 with v := [(5, 0x01000000), (6, 32)] } {}
    let o : L64 := ⟨1, 4, 6, 0, 0, 3⟩
    issued s (.mxst o) = true ∧ actives s iss0 = [0] ∧ (op64 s iss0 (.mxst o) 1 0).toNat = 2 ^ 56 ∧
    (op32 s iss0 (.mxst o) 2 0).toInt = 32 ∧
    (match s.mxstCheck (seen s iss0 (.mxst o)) (s.agentOf 0 0) (2 ^ 56) 32 1 0 1024 with
      | .ok ts => s.requestRoom 0 (ts.map fun x => (s.fresh, x.2.sector)) | .error _ => false) = true ∧
    (nodeAt s iss0).versioned = false ∧ (s.team 0).tlc = 0 ∧ freeLocks s 0 = 64 := by decide +kernel

/-- WALK.START of an image in the vault with one forward instruction; WALK.QUERY; WALK.STOP of a walk and of none. -/
theorem witness_WalksStartAndStop :
    (let s : State := { cored (holding ((0, 5, 0x01000000) :: handleRegs 8 0x20000 3 0)) {} with vaults := [(0, 1)] }
     let o : L64 := ⟨0, 4, 8, 24, 0, 0⟩
     runs s (.walkStart o) = true ∧ (s.core 0).walker.owner = 0 ∧ freeLocks s 0 = 64 ∧ (s.team 0).tlc = 0 ∧ s.accesses = [] ∧
     s.pairs = [] ∧ walkFront (seen s iss0 (.walkStart o)) (handleIn s iss0 (.walkStart o) 2 0) 0 = none ∧
     (op64 s iss0 (.walkStart o) 1 0).toNat = 2 ^ 56 ∧
     (s.engineRead 0 (s.agentOf 0 0) (2 ^ 56) 8).toOption.map (·.2) = some 1) ∧
    runs machine (.walkQuery ⟨3, 0, 0, 0, 0, 0⟩) = true ∧ runs machine .walkStop = true ∧
    runs (cored team0 { walker := { owner := 1, running := true } }) .walkStop = true := by decide +kernel

/-- A graph of two nodes: node 0 may emit to itself, to node 1, and to node 5 of accelerator 2. -/
def emitter : State :=
  let n0 : Node := { placeNode with succs := [0, 1, 0x80002005] }
  { machine (holding [(0, 20, 1), (1, 20, 1), (0, 21, 0x2005), (1, 21, 0x2005)]) with
    runs := [(0, { stage := .admitted, func := 1, graph := { nodes := [n0, placeNode] } })] }

theorem witness_EmitsSendRecords :
    let s := emitter
    runs s (.emit ⟨0, 16, 0, 0, 0, 1⟩) = true ∧ runs s (.emitReg ⟨0, 8, 20, 0, 0, 0x2000⟩) = true ∧
    runs s (.emitSelf ⟨0, 8, 0, 0, 0, 0⟩) = true ∧ runs s (.emitRemote ⟨0, 8, 21, 0, 0, 0⟩) = true ∧
    (nodeAt s iss0).versioned = false ∧ s.det 0 = false ∧ (s.team 0).emc = 0 ∧ s.unsent 0 = 0 ∧
    (∀ L ∈ actives s iss0, s.permits 0 1 false = true ∧ s.permits 0 0 true = true ∧
      16 + placeNode.rsize / 4 ≤ (nodeAt s iss0).regs ∧ s.newDepth 0 L 1 ≤ placeNode.depth ∧
      s.newDepth 0 L 0 ≤ placeNode.depth ∧ natBits ((s.team 0).vreg L 20).toNat 11 0 = 1 ∧
      s.remoteCheck (seen s iss0 (.emitRemote ⟨0, 8, 21, 0, 0, 0⟩)) 8 4 L = none) := by decide +kernel

theorem witness_ScalarFloatResults : ∀ f ∈ [FFmt.f32, .f16, .bf16, .f16x2],
    (([.fadd, .fsub, .fmul, .ffma, .fmin, .fmax] : List (FFmt → L64 → Instr)).all fun c => runs machine (c f ⟨6, 4, 2, 0, 0, 0⟩)) =
      true ∧
    (([.faddX96, .fsubX96, .fmulX96, .ffmaX96, .fminX96, .fmaxX96] : List (FFmt → X96 → Instr)).all fun c =>
      runs machine (c f opX)) = true ∧
    (([.fabs, .fneg, .fclass, .frcp, .fsqrt, .frsq, .fexp2, .flog2, .fsin, .fcos, .ftanh] : List (FFmt → S32 → Instr)).all
      fun c => runs machine (c f ⟨6, 4⟩)) = true ∧
    ((List.range 15).all fun d => runs machine (.cvt ⟨6, 4, 0, 0, 0, .ofNat 14 (16 * d)⟩)) = true ∧
    (f ≠ .f16x2 → runs machine (.fcmp f ⟨11, 4, 2, 7, 0, 0⟩) = true ∧
      runs machine (.fcmpX96 f ⟨⟨11, 4, 0, 7, 0, 0⟩, 5⟩) = true) := by decide +kernel

theorem witness_SpecialFunctionsAndConversions :
    (∀ f ∈ [FFmt.f32, .f16, .bf16, .f16x2],
      (([.frcp, .fsqrt, .frsq, .fexp2, .flog2, .fsin, .fcos, .ftanh] : List (FFmt → S32 → Instr)).all fun c =>
        runs machine (c f ⟨6, 4⟩)) = true) ∧
    ((List.range 15).all fun d => (List.range 15).all fun s =>
      runs machine (.cvt ⟨6, 4, 0, 0x1FF, 3, .ofNat 14 (16 * d + s)⟩)) = true ∧
    sfnTable 0 fmtF32 (fmtF32.value 0x80000000) = some (0xFF800000, some 1) ∧ sfnTable 4 fmtF32 (fmtF32.value 0xBF800000) =
      some (0x7FC00000, some 0) ∧ fmtF32.value 0x40400000 = .fin false 0xC00000 (-22) := by decide +kernel

/-- F16: a tie that is exact, an overflow, an underflow; and a value of the format. -/
theorem witness_RoundingIsCorrect :
    roundTo (.fin false 0 7) fmtF16 .RN false = ⟨0, false, false⟩ ∧ roundTo (.fin true 0 7) fmtF16 .RD false = ⟨0x8000, false, false⟩ ∧
    roundTo (.fin false 2049 0) fmtF16 .RN false = ⟨0x6800, false, false⟩ ∧
    roundTo (.fin false 65536 0) fmtF16 .RN false = ⟨0x7C00, true, false⟩ ∧
    roundTo (.fin true 65536 0) fmtF16 .RZ false = ⟨0xFBFF, true, false⟩ ∧
    roundTo (.fin false 1 (-26)) fmtF16 .RU false = ⟨1, false, true⟩ ∧ fmtF16.value 1 = .fin false 1 (-24) := by decide +kernel

/-- The machine with this walk of team 0, and team 0 as the issuer. -/
def walking (w : Walker) (l : List Host.Cell := []) : State :=
  { cored team0 { walker := { w with owner := 1, running := true } } with vaults := l }

theorem walking_premise (w : Walker) (l : List Host.Cell) (h : w.staged.length < 4) :
    Walking (walking w l) 0 { w with owner := 1, running := true } := ⟨⟨iss0, rfl, rfl, rfl, rfl, rfl⟩, h⟩

/-- Every walk instruction of a running walk whose y0 is the vault window's first address answers a next state; the handle's
tile is one row of 32 elements in the vault; the section has eight instructions, and one loop runs. -/
def walker0 : Walker :=
  { y := [(0, 0x0100000000000000), (2, 1)], len := 8, wpc := 1, section0 := 0x0100000000000100, image := 0x0100000000000100
    loops := [{ count := 2, pass := 0, first := 1, last := 5 }]
    handle := { base := 0x0100000000000000, fmt := 3, rows := 1, cols := 32, stride := 2 } }

theorem witness_WalkInstructions :
    (([.walkMovi, .walkAdd, .walkSub, .walkAddi, .walkMul, .walkDivu, .walkRemu, .walkAnd, .walkXor, .walkShli, .walkShri, .walkHash,
      .walkLdi, .walkLidx, .walkBrz, .walkBrnz, .walkRow, .walkRowm, .walkCset, .walkCld, .walkRowl, .walkMsk] :
      List (WalkOp → Instr)).all fun c => goes (exec (c ⟨3, 0, 1, 0⟩) (walking walker0))) = true ∧
    goes (exec .walkFlush (walking walker0)) = true ∧ goes (exec .walkEnd (walking walker0)) = true ∧
    goes (exec (.walkLoop ⟨0, 1, 0, 4⟩) (walking walker0)) = true := by decide +kernel

/-- The reads of LDI, CLD and the rows pass, a LOOP of four instructions fits, and branches forward and back stay within the
running body. -/
theorem witness_WalkReads :
    let s := walking walker0
    let w := (s.core 0).walker
    let b := walkBlock s w
    let ag := walkAgent s w
    (s.walkWord b ag (yOf w 0)).toBool = true ∧ (s.walkCols b ag (yOf w 0) 0 32 w.cols).toBool = true ∧
    (s.rowElems b ag w 0 (fun j => BitVec.ofNat 64 j) (fun _ => true) 0 32).toBool = true ∧
    (s.rowElems b ag w (2 ^ 56) (fun j => BitVec.ofNat 64 j) (fun _ => true) 0 32).toBool = true ∧
    (w.wpc + 4 < w.len ∧ w.wpc + 4 ≤ 5 ∧ w.loops.length < 4 ∧ w.loops[0]?.isSome) ∧
    yOf w 0 ≠ 0 ∧ yOf w 1 = 0 ∧ s.bodiesOf b ag w 1 1 = .ok [] := by decide +kernel

/-- Branches (15 R352): without a body around them, from index 1 by 0, to index −1, 0, 7 and 8, a LOOP of two instructions standing at
5, whose body a target may not lie in; and within the body 2 to 4 of the LOOP at 1, to its ends and beyond them. -/
theorem witness_WalkBranches :
    (let s := walking walker0 [(0x114, 2), (0x117, 0x38)]
     let w := (s.core 0).walker
     (s.bodiesOf (walkBlock s w) (walkAgent s w) w 1 1 = .ok []) ∧ (s.bodiesOf (walkBlock s w) (walkAgent s w) w 0 0 = .ok []) ∧
     (s.bodiesOf (walkBlock s w) (walkAgent s w) w 6 6 = .ok [(6, 7)]) ∧ (s.bodiesOf (walkBlock s w) (walkAgent s w) w 7 7 = .ok [(6, 7)]) ∧
     (s.bodiesOf (walkBlock s w) (walkAgent s w) w 5 5 = .ok []) ∧ w.wpc = 1 ∧ w.len = 8 ∧
     ([0, -2, -1, 4, 5, 6, 7].all fun n : Int =>
       goes (exec (.walkBrz ⟨0, 1, 0, .ofInt 14 n⟩) s) && goes (exec (.walkBrnz ⟨0, 0, 0, .ofInt 14 n⟩) s)) = true) ∧
    let s := walking { walker0 with wpc := 3, loops := [{ count := 2, pass := 0, first := 2, last := 4 }] } [(0x104, 3), (0x107, 0x38)]
    let w := (s.core 0).walker
    (s.bodiesOf (walkBlock s w) (walkAgent s w) w 3 3 = .ok [(2, 4)]) ∧ w.wpc = 3 ∧
    ([-2, -1, 1, 2, 3].all fun n : Int =>
      goes (exec (.walkBrz ⟨0, 1, 0, .ofInt 14 n⟩) s) && goes (exec (.walkBrnz ⟨0, 0, 0, .ofInt 14 n⟩) s)) = true := by
  decide +kernel

/-- Where the branch of the second body goes: just past its end it leaves the body, beyond that it is illegal (15 R352, R355). -/
theorem test_walk_branch_ends_body :
    let s := walking { walker0 with wpc := 3, loops := [{ count := 1, pass := 0, first := 2, last := 4 }] } [(0x104, 3), (0x107, 0x38)]
    let goal (n : Nat) : Option (Nat × Bool) := match exec (.walkBrz ⟨0, 1, 0, .ofNat 14 n⟩) s with
      | .next t => some ((t.core 0).walker.wpc, (t.core 0).walker.faulted)
      | _ => none
    goal 2 = some (5, false) ∧ goal 3 = some (3, true) := by decide +kernel

/-- A turn of a walker with three slots occupied, that ends and stages its partial tile (15 R346, R354). -/
theorem witness_WalkStaging :
    let s := walking { walker0 with len := 1, k := 1, staged := [.tile 3 [], .tile 3 [], .tile 3 []], loops := [] }
    (s.core 0).walker.staged.length = 3 ∧
    (match s.walkTurn 0 with
     | .next t => (t.core 0).walker.staged.length == 4
     | _ => false) = true := by decide +kernel

/-- Where a body ends: a pass is left, and the last pass is over (15 R352). -/
theorem witness_WalkLoops :
    (walker0.goTo 6).wpc = 1 ∧ ((walker0.goTo 6).loops.map (·.pass)) = [1] ∧
    ({ walker0 with loops := [{ count := 2, pass := 1, first := 1, last := 5 }] } : Walker).goTo 6 =
      { walker0 with loops := [], wpc := 6 } := by decide +kernel

/-- A policy event of function 1: one instruction of a program of eight, two view doubles. -/
def policing (p : PolicyRun) : State := { machine with policy := some { p with func := 1, prog := List.replicate 8 0, view := [5, 6] } }

theorem witness_PolicyInstructions :
    (([.npbMovi, .npbMovhi, .npbMov, .npbAdd, .npbSub, .npbAddi, .npbAnd, .npbOr, .npbXor, .npbShl, .npbShr, .npbMul, .npbDivu,
      .npbMinu, .npbMaxu, .npbSltu, .npbLds, .npbSts, .npbLdv, .npbBeq, .npbBne, .npbBltu, .npbLoop] : List (NpbOp → Instr)).all
      fun c => [0, 1, 2, 511, 512].all fun n => goes (exec (c ⟨3, 0, 1, .ofNat 32 n⟩) (policing {}))) = true ∧
    goes (exec .npbRet (policing {})) = true ∧ ((policing {}).policy.map (·.ended)) = some false := by decide +kernel

/-- The end of a loop's body in a policy program: a pass left, and none. -/
theorem witness_PolicyLoops :
    (policyAt { loop := some (3, 2, 0, 1, 4) } 5).pc = 1 ∧ qOf (policyAt { loop := some (3, 2, 0, 1, 4) } 5) 3 = 1 ∧
    (policyAt { loop := some (3, 2, 1, 1, 4) } 5).loop = none := by decide +kernel

/-- Page 0x20 of the PF and of function 1 as the device reaches it for them. -/
def tlbDev : List TlbEntry :=
  [{ cluster := 160, func := 0, page := 0x20, pte := 0x2002F, level := 1 },
   { cluster := 160, func := 1, page := 0x20, pte := 0x2002F, level := 1 }]

/-- The machine with mailbox command `c` of function `f` in hand. -/
def mailbox (f c : Nat) (v : Func) : State :=
  let s : State := { machine with tlb := tlbDev, cur := none }
  s.setFunc f { v with mbBusy := true, mbCmd := c }

/-- Bring-up of every stage whose code says nothing of the firmware's own checks, and a stage that fails: an HBM4E stack, a test, a
key. -/
theorem witness_BringUp :
    (([(2, 3), (3, 4), (4, 5)] : List (Nat × Nat)).all fun n =>
      let s : State := { State.reset with dev := { stage := .ofNat 8 n.1 } }
      s.stageFails 0 == 0 && s.stageFails n.2 == n.2 && goes (exec (.bootStageComplete 0) s) &&
        goes (exec (.bootStageComplete n.2) s)) = true := by decide +kernel

/-- Resets, clocks, the watchdog, links, ECC events and the read-back window. -/
theorem witness_DeviceEvents :
    (([.coldReset, .warmReset, .thermalStep [100, 101], .thermalStep [95, 80], .thermalTrip [115], .watchdogRestart,
      .linkReset 15 true 0 0, .linkReset 0 false 1 0, .uncorrectedEcc 3 1 0x40 true, .uncorrectedEcc 3 1 0x40 false,
      .yardMessageDropped 15] : List Instr).all fun i => goes (exec i machine)) = true ∧
    machine.dev.railsOff = false ∧ machine.dev.stage = 5 ∧ machine.dev.schedulerUp = true ∧
    (let s : State := { machine with yards := [(0, { coreMHz := 1100 })] }
     (s.yard 0).coreMHz = 1100 ∧ goes (exec (.thermalStep [95]) s) = true) ∧
    (let s : State := { machine with dev := { stage := 5 } }
     s.dev.schedulerUp = false ∧ goes (exec .watchdogRestart s) = true) ∧
    let s : State := { machine with pf := { rbctl := 0x80000000 } }
    s.pf.rbctl.getLsbD 31 = true ∧ goes (exec .readback s) = true := by decide +kernel

/-- Firmware commands and attestation, by the PF's mailbox. -/
theorem witness_FirmwareCommands :
    (let s := mailbox 0 0x10 { mbArg0 := 0x20000, mbArg1 := 4 }
     s.mbHas 0 0x10 = true ∧ s.devRoom 0 0x20000 4 = true ∧ (s.devReach 0 0x20000 4).devBytes 0 0x20000 4 = some [0, 0, 0, 0]) ∧
    ((mailbox 0 0x11 {}).mbHas 0 0x11 = true ∧ (mailbox 0 0x11 {}).dev.staged = none) ∧
    (let s := mailbox 0 0x11 {}
     let s : State := { s with dev := { s.dev with staged := some { ver := 1, layout := 1, sec := 0, image := [] } } }
     s.mbHas 0 0x11 = true ∧ s.dev.staged.isSome = true ∧ s.saveInProgress = false ∧ s.saveBlocks 1 = false) ∧
    (mailbox 0 0x12 {}).mbHas 0 0x12 = true ∧ goes (exec .fwfuse (mailbox 0 0x12 {})) = true ∧
    (let s := mailbox 0 0x13 { mbArg0 := 0x20000, mbArg1 := 0x20400 }
     s.mbHas 0 0x13 = true ∧ s.devRoom 0 0x20000 32 = true ∧ (s.devReach 0 0x20000 32).devBytes 0 0x20000 32 = some (List.replicate 32 0)) := by
  decide +kernel

/-- Registers of the PF and of function 1: partitions, quotas, loft, page tables, invalidation. -/
theorem witness_HostRegisterWrites :
    let s : State := { machine with tlb := tlbDev }
    s.barsLive = true ∧ s.busyOwner 255 = false ∧ s.busyOwner 192 = false ∧ (s.pf.partown.get 0xFF 39).toNat = 255 ∧
    s.rangeOk 192 0 0 = true ∧ s.rangeOk 192 4095 0 = true ∧ (s.yard 3).reserved = 0 ∧ s.pf.invctl.getLsbD 31 = false ∧
    (([.partownWrite 0 39 192, .partownWrite 1 39 192, .quotaWrite 0 0x5800 0, .quotaWrite 0 0x5804 0, .quotaWrite 0 0x5808 4096,
       .quotaWrite 0 0x580C 9, .quotaWrite 0 0x5810 9, .quotaWrite 0 0x5814 9, .quotaWrite 0 0x5818 9, .lofthbmWrite 0 3 65536,
       .ptrootWrite 0 192 9, .ptrootWrite 0 192 17, .invalidate 0 0x80000000, .registerWrite 192 0 0x31C 4 0, .regionWrite 0 192 0x1FF0 0x1000,
       .regionWrite 192 192 0x1FF8 0, .registerWrite 192 0 0x108 8 5, .registerWrite 192 0 0x100 4 1,
       .preemptSaveFunction 1, .preemptSaveJob 1 0, .preemptResumeFunction 1, .preemptResumeJob 1 0, .cut 1, .cutResume 1] :
       List Instr).all fun i => goes (exec i s)) = true ∧
    SMap.wf s.blocks {} = true ∧ (s.func 192).mbBusy = false := by decide +kernel

/-- PEND of EVTSTAT is written with no crossing in the cycle, with one latched in it, and with one that it kept from being latched
(12 R313); INVCTL is written while a walk of the function is referred. -/
theorem witness_CrossingsAndStaleWalks :
    (∀ c ∈ ([[], [(384, 5)]] : List (SMap Nat)),
      let s : State := { machine with crossings := c }
      s.barsLive = true ∧ s.crossings.get 0 (2 * 192) = (if c = [] then 0 else 5) ∧ s.crossings.get 0 (2 * 192 + 1) = 0 ∧
      goes (exec (.registerWrite 192 0 0x31C 4 0x80000000) s) = true) ∧
    let r : Referral := { rseq := 5, mode := 2, die := 0, func := 1, arg0 := 0x20000, arg1 := 0, cont := [], posted := true, obj := 0, obj2 := 0 }
    let s : State := { machine with referrals := [r], pf := { invva := 0x1F000 } }
    s.barsLive = true ∧ s.pf.invctl.getLsbD 31 = false ∧
    ([0x80010001, 0x80000001].map fun v : Word => match exec (.invalidate 0 v) s with
      | .next t => t.referrals.map (·.stale)
      | _ => []) = [[true], [false]] := by decide +kernel

/-- A crossing that PEND keeps from being latched is latched where PEND is cleared in its cycle (12 R313). -/
theorem test_crossing_survives_clear :
    let s : State := { machine with crossings := [(385, 128 * 3 + 2 + 1)] }
    let s := s.setFunc 192 { s.func 192 with evtstat := 0x80000007 }
    (match exec (.registerWrite 192 0 0x31C 4 0x80000000) s with
     | .next t => (t.func 192).evtstat
     | _ => 0) = 0x82000003 := by decide +kernel

/-- An invalidation with nothing in flight, region entries that are valid and that are being cleared, and a cut function. -/
theorem witness_InvalidationAndRegions :
    (let s : State := { machine with tlb := tlbDev, pf := { invctl := 0xC0000001 } }
     s.pf.invctl.getLsbD 31 = true ∧ s.accesses = [] ∧ s.pairs = [] ∧ goes (exec .invalidationComplete s) = true) ∧
    (let s := machine.setFunc 1 { regions := [(0, { rctl := 0x8000000000000001 }), (255, { rctl := 0xA000000000000001 })] }
     ((s.func 1).regions.get {} 0).rctl.getLsbD 63 = true ∧ ((s.func 1).regions.get {} 255).rctl.getLsbD 61 = true ∧
     goes (exec (.regionWrite 1 1 0x1008 0) s) = true ∧ goes (exec (.regionClearDone 1 255) s) = true) ∧
    ((machine.func 1).regionFits 255 { rctl := 0x8000000000000001 }) = true ∧
    (let s := machine.setFunc 1 { machine.func 1 with cut := true }
     (s.func 1).cut = true ∧ goes (exec (.cutResume 1) s) = true) ∧
    ({ machine with dev := {} } : State).dev.stage ≠ 5 := by decide +kernel

/-- A posted referral of each MODE that a statement names, its answer and its timeout. -/
theorem witness_Referrals : ∀ m ∈ [0, 1, 3, 4, 6],
    let r : Referral := { rseq := 5, mode := m, die := 0, func := 1, arg0 := 0, arg1 := 0, cont := [], posted := true, obj := 0, obj2 := 0 }
    let s : State := { machine with referrals := [r], pf := { asrseq := 5 } }
    (s.referrals.find? fun r => r.posted && r.rseq == s.pf.asrseq.toNat) = some r ∧
    goes (exec (.assistReply 0) s) = true ∧ goes (exec (.assistTimeout 5) s) = true ∧ s.handlersRun 0 = true ∧
    (s.setFunc 1 { s.func 1 with cut := true }).handlersRun 0 = false := by decide +kernel

/-- What `Taking` says, as a computation. -/
def took (s : State) (f : Nat) (kind : Packet → Bool) : Option (Nat × Packet × State) :=
  match s.winner with
  | some (g, left) =>
    match s.pickQueue f with
    | (s1, some q) =>
      match s1.headEntry q with
      | some e =>
        let p := Packet.parse e
        let x := s1.queue q
        match (if s1.devRoom f (x.slot x.head) 64 then s1.devWrite f (x.slot x.head) 4 (p.hdr &&& 0x7FFFFFFF).toNat else none) with
        | some s2 =>
          let s3 : State := s2.setFunc f { s2.func f with takes := (s2.func f).takes + 1 }
          let s4 : State := { s3 with arbiter := { s2.arbiter with left := left, next := f + 1 } }
          if g = f ∧ kind p = true then some (q, p, s4.setQueue q { s4.queue q with
            head := x.head + 1, mirrorDue := true, readySince := s4.cycle.toNat, ahead := x.ahead.filter fun a => x.head < a.1,
            taken := x.taken ++ [{ seq := x.head, kind := p.kind, run := 0, completed := false }] }) else none
        | none => none
      | none => none
    | (_, none) => none
  | none => none

theorem took_sound (s : State) (f : Nat) (kind : Packet → Bool) (q : Nat) (p : Packet) (u : State)
    (h : took s f kind = some (q, p, u)) : Taking s f kind q p u := by
  unfold took at h
  split at h <;> try simp at h
  rename_i g left hw
  split at h <;> try simp at h
  rename_i s1 q' hp
  split at h <;> try simp at h
  rename_i e he
  split at h <;> try simp at h
  rename_i s2 hd
  obtain ⟨⟨rfl, hk⟩, rfl, rfl, rfl⟩ := h
  split at hd <;> try simp at hd
  rename_i hr
  exact ⟨left, s1, e, s2, hw, hp, he, rfl, hk, hr, hd, rfl⟩

/-- Function 1 with two queues, queue 0 created with its ring of 16 entries at 0x20000, one entry at its head: header word,
and the other words by their numbers. -/
def queued (hdr : Nat) (ws : List (Nat × Nat)) (x : Queue := {}) : State :=
  let f : Func := { qcount := 2, weight := 1, share := 1, dctrs := 4, runq := 8, stallq := 8, predq := 8, ptroot := 0x1109 }
  let s : State := { machine with
    tlb := tlbDev, cur := none, funcs := [(1, f)], arbiter := { rest := [1], left := 1 }
    pf := { partown := [(0, 1)] }
    queues := [(0, { x with created := true, owner := 1, ringbase := 0x20000, log2 := 4, tail := 1, takeable := true })] }
  ws.foldl (fun s e => s.hbmWrite (0x20000 + 4 * e.1) 4 e.2) (s.hbmWrite 0x20000 4 (2 ^ 31 + hdr * 2 ^ 24 + 1))

/-- Packets that stand at the head: SETCTR of counter 0, NOP, CANCEL of each level, all with WAITCTR and SIGCTR unused but
where the packet needs one. -/
def noCtr : Nat × Nat := (3, 0xFFFFFFFF)

/-- The packet at the head is taken, by the step of its kind, and passes its checks or fails them. -/
def takes (s : State) (ins : Nat → Instr) (kind : Packet → Bool) (ok : Bool) : Bool :=
  match took s 1 kind with
  | some (q, p, u) => q == 0 && u.packetOk 1 p == ok && goes (exec (ins 1) s)
  | none => false

theorem witness_PacketsTaken :
    takes (queued 2 [(3, 0x0000FFFF)]) .setctr (fun p => p.kind == 2) true = true ∧
    takes (queued 2 [noCtr]) .setctr (fun p => p.kind == 2) false = true ∧
    takes (queued 3 [noCtr]) .nopPacket (fun p => 3 ≤ p.kind) true = true ∧
    takes (queued 15 [noCtr]) .nopPacket (fun p => 3 ≤ p.kind) false = true ∧
    (let s := queued 1 [noCtr, (12, 1)]
     takes s .cancelPacketPhase (s.cancelTaken 1 1) true = true) ∧
    (let s := queued 1 [noCtr, (12, 2)]
     takes s .cancelPacketJob (s.cancelTaken 1 2) true = true) ∧
    let s := queued 1 [noCtr, (12, 2), (13, 1)]
    takes s .cancelPacketJob (s.cancelTaken 1 2) false = true := by decide +kernel

/-- CANCEL of a run: of a queue that does not exist, of a packet that started no run, and of a run that stands. -/
theorem witness_CancelPacketRun :
    (let s := queued 1 [noCtr, (8, 1)]
     takes s .cancelPacketRun (s.cancelTaken 1 0) true = true ∧ (s.queue (s.queueNo 1 1)).created = false) ∧
    takes (queued 1 [noCtr]) .cancelPacketRun ((queued 1 [noCtr]).cancelTaken 1 0) true = true ∧
    let s := queued 1 [noCtr] { head := 0, taken := [{ seq := 0, kind := 0, run := 1, completed := false }] }
    takes s .cancelPacketRun (s.cancelTaken 1 0) true = true ∧
    (s.queue 0).taken.find? (fun k => k.seq == 0 && k.run != 0) = some { seq := 0, kind := 0, run := 1, completed := false } ∧
    (s.run 0).stage = .admitted := by decide +kernel

/-- A graph of one record node of 16 entries. -/
def graph0 : Graph := { nodes := [{ placeNode with stall := 16 }], types := [0] }

/-- RUN of a job that holds a copy of the graph, and a RUN that fails its checks. -/
theorem witness_RunTaken :
    (let s : State := { queued 0 [noCtr] with jobs := [{ func := 1, job := 0, det := false, graphs := [(0, graph0)] }] }
     takes s .run (fun p => p.kind == 0 && s.graphRoom 1 p.graph.toNat) true = true ∧
     (match took s 1 (fun p => p.kind == 0 && s.graphRoom 1 p.graph.toNat) with
      | some (_, p, u) =>
        let v := u.graphReach 1 p.graph.toNat
        (u.liveJob 1 0).map (·.det) == some (p.job.getLsbD 16) &&
        (match v.runGraph 1 p with
         | .ok g => g == graph0 && ((g.nodes[natBits p.enode.toNat 11 0]?).map (·.depnode)) == some false &&
            !v.overQuota 1 g
         | _ => false)
      | none => false) = true) ∧
    takes (queued 0 [noCtr, (13, 1)]) .run (fun p => p.kind == 0 && (queued 0 [noCtr, (13, 1)]).graphRoom 1 p.graph.toNat) false =
      true := by decide +kernel

/-- Doorbells of a queue, with and without an error: below TAIL, within the ring, at its end and beyond it (03 R61). -/
theorem witness_Doorbells :
    (let s := queued 3 [noCtr]
     s.doorLive 1 0 = true ∧ (s.queue (s.queueNo 1 0)).err = false ∧ goes (exec (.doorbellBadWrite 1 0) s) = true ∧
     ([0, 1, 16, 17].all fun v => goes (exec (.tailWrite 1 0 (BitVec.ofNat 64 v)) s)) = true) ∧
    let s := queued 3 [noCtr] { err := true }
    s.doorLive 1 0 = true ∧ (s.queue (s.queueNo 1 0)).err = true ∧ goes (exec (.tailWrite 1 0 5) s) = true := by decide +kernel

/-- Re-examination: an empty queue, an unreadable ring, an entry that is not VALID, and one that is. -/
theorem witness_QueueReexamine :
    let at' (s : State) (tail ring : Nat) : State :=
      s.setQueue 0 { s.queue 0 with tail := tail, ringbase := .ofNat 64 ring, waitvalid := true, takeable := false }
    let e := at' (queued 3 [noCtr]) 0 0x20000
    let b := at' (queued 3 [noCtr]) 1 0x30000
    let n := at' { queued 3 [noCtr] with hbm := [] } 1 0x20000
    let v := at' (queued 3 [noCtr]) 1 0x20000
    let entry (s : State) := (s.devReach 1 0x20000 64).ringEntry 0 0
    let u := v.setQueue 0 { v.queue 0 with waitvalid := false, unread := true }
    (u.queue 0).unread = true ∧ goes (exec (.queueReexamine 0) u) = true ∧ v.devRoom 1 0x20000 64 = true ∧
    b.devRoom 1 0x30000 64 = true ∧
    (([e, b, n, v] : List State).all fun s => (s.queue 0).created && (s.queue 0).waitvalid && !(s.queue 0).err &&
      goes (exec (.queueReexamine 0) s)) = true ∧
    (b.devReach 1 0x30000 64).ringEntry 0 0 = none ∧ (entry n).map (·.getLsbD 31) = some false ∧
    (entry v).map (·.getLsbD 31) = some true := by decide +kernel

/-- Head mirrors: none, and one that can be written. -/
theorem witness_HeadMirror : ∀ m ∈ ([0, 0x20800] : List Nat),
    let s := queued 3 [noCtr]
    let s := s.setQueue 0 { s.queue 0 with mirrorDue := true, headmir := .ofNat 64 m }
    (s.queue 0).mirrorDue = true ∧ (s.queue 0).headmir.toNat = m ∧ goes (exec (.headMirrorWrite 0) s) = true ∧
    (m = 0 ∨ (s.devWrite 1 m 8 0).isSome) := by decide +kernel

/-- QCREATE: refused, repeated, new. QDESTROY: no such queue, not created, created. -/
theorem witness_QueueCommands :
    let m (c : Nat) (j ring : Nat) : State :=
      let s := queued 3 [noCtr]
      s.setFunc 1 { s.func 1 with mbBusy := true, mbCmd := c, mbArg0 := .ofNat 64 j, mbArg1 := .ofNat 64 ring, mbArg2 := 4 }
    (m 1 2 0x20000).mbHas 1 1 = true ∧ (m 1 2 0x20000).qcreateFails 1 = some 1 ∧ (m 1 0 0x20000).qcreateFails 1 = none ∧
    ((m 1 0 0x20000).queue 0).created = true ∧ (m 1 1 0x20000).qcreateFails 1 = none ∧
    ((m 1 1 0x20000).queue 1).created = false ∧ (m 2 0 0).mbHas 1 2 = true ∧ ((m 2 0 0).func 1).queues = 2 ∧
    (([(1, 2), (1, 0), (1, 1), (2, 0), (2, 1), (2, 2)] : List (Nat × Nat)).all fun x =>
      goes (exec (if x.1 = 1 then .qcreate 1 else .qdestroy 1) (m x.1 x.2 0x20000))) = true := by decide +kernel

/-- POLICYLOAD of RET, and of an image that breaks check 2; SLICE with and without a policy. -/
theorem witness_Policies :
    let m (w : Nat) : State :=
      let s := { queued 3 [noCtr] with hbm := [] }.hbmWrite 0x20000 8 w
      s.setFunc 1 { s.func 1 with mbBusy := true, mbCmd := 3, mbArg0 := 0x20000, mbArg1 := 8 }
    let ret := 0x1800000000000000
    let prog (s : State) := (s.devReach 1 0x20000 8).readDoubles 1 0x20000 1
    (m ret).mbHas 1 3 = true ∧ (m ret).devRoom 1 0x20000 8 = true ∧ (m ret).devPagesOk 1 .read 0x20000 8 = true ∧ goes (exec (.policyload 1) (m ret)) = true ∧
    goes (exec (.policyload 1) (m 0)) = true ∧ npbCheck (prog (m ret)) = none ∧ (npbCheck (prog (m 0))).isSome = true ∧
    (m ret).dev.schedulerUp = true ∧ goes (exec (.slice 1) (m ret)) = true ∧ ((m ret).func 1).policy = none := by decide +kernel

/-- RUN_ADMIT and ENTRY_RECORD_APPEND: a waiting run whose charge is free and one whose charge is not; a record that can be
read and one that cannot. -/
theorem witness_AdmissionAndEntryRecords :
    (∀ u ∈ [0, 8],
      let s := queued 3 [noCtr]
      let s := (s.setFunc 1 { s.func 1 with useRun := u }).setRun 5 { func := 1, graph := graph0 }
      s.firstWaiting 1 = some 5 ∧ s.chargeFree 5 = decide (u = 0) ∧ (s.func 1).cut = false ∧ goes (exec (.runAdmit 1) s) = true) ∧
    ∀ a ∈ ([0x20000, 0x30000] : List Nat),
      let x : Run := { stage := .admitted, func := 1, graph := graph0, dies := [0], clusters := [0], packet :=
        { entry := .ofNat 64 a, ecount := 1 } }
      let s := (queued 3 [noCtr]).setRun 0 x
      (s.stall 0 0).count < (s.nodeAt 0 0).cap ∧ (s.stall 0 0).waiting = [] ∧ (s.stall 0 0).group = 0 ∧
      s.logHolds 0 (x.homeDie 0) 1 = false ∧ s.segRoom 0 0 = true ∧ (s.func 1).cut = false ∧ (s.nodeAt 0 0).rsize = 16 ∧
      s.devRoom 1 a 16 = true ∧
      (s.devReach 1 a 16).devPagesOk 1 .read a 16 = decide (a = 0x20000) ∧
      (a = 0x20000 → ((s.devReach 1 a 16).devRead 1 a 16).isSome) ∧ goes (exec (.entryRecordAppend 0) s) = true := by
  decide +kernel

/-- The machine with the run of `graph0` at this stall, its blocks and emissions. -/
def yarded (k : Stall) (bs : List (Nat × Block) := []) (cap : Word := 16) : State :=
  { machine with
    cur := none, tlb := tlbDev, blocks := bs, stalls := [(0, k)], pf := { partown := [(0, 1)] }
    runs := [(0, { stage := .admitted, func := 1, graph := { nodes := [{ placeNode with stall := cap }] }, dies := [0], clusters := [0, 1, 2, 3] })] }

/-- A record on its way to node 0. -/
def record0 : Emission :=
  { id := 9, ins := 8, team := 0, block := 0, core := 0, lane := 0, run := 0, node := 0, entry := { words := [1, 2, 3, 4] }, after := []
    listed := false, sent := true }

/-- A record reaches a complete node, a stall that is full, and a stall with room. -/
theorem witness_RecordAppend :
    (let s : State := { yarded {} with emissions := [record0] }
     s.emissionReady record0 = true ∧ s.discards 0 0 = false ∧ (s.stall 0 0).count < (s.nodeAt 0 0).cap ∧
     (s.stall 0 0).waiting = [] ∧ (s.func 1).cut = false ∧ (s.run 0).det = false ∧ s.segRoom 0 0 = true ∧ goes (exec (.recordAppend 9) s) = true) ∧
    (let s : State := { yarded { entries := [{}] } [] 1 with emissions := [record0] }
     s.emissionReady record0 = true ∧ s.discards 0 0 = false ∧ (s.nodeAt 0 0).cap ≤ (s.stall 0 0).count ∧
     goes (exec (.recordAppend 9) s) = true) ∧
    let s : State := { yarded {} with emissions := [record0] }
    let s := s.setRun 0 { s.run 0 with complete := [0] }
    s.emissionReady record0 = true ∧ s.discards 0 0 = true ∧ goes (exec (.recordAppend 9) s) = true := by decide +kernel

/-- A muster of one record, the muster timer, and a quiescence probe with the conditions met and not met. -/
theorem witness_MusterAndProbe :
    (let s := yarded { entries := [{ words := [1, 2, 3, 4] }] }
     s.musterSize 0 0 = some 1 ∧ (s.func 1).cut = false ∧ s.logHolds 0 ((s.run 0).homeDie 0) 1 = false ∧
     (s.stallsOf 0).all (fun e => s.musterBefore (stallKey 0 0) e.1) = true ∧ goes (exec (.muster 0 0) s) = true) ∧
    (let s := yarded { entries := [{}], timer := 5 }
     let s := s.setRun 0 { s.run 0 with graph := { nodes := [{ placeNode with stall := 0x05000010, block := 1 }] } }
     s.stallState 0 0 = .gathering ∧ (s.stall 0 0).timer = s.timerLimit 0 0 ∧ s.timerLimit 0 0 = 5 ∧ goes (exec (.musterTimeout 0 0) s) = true) ∧
    ∀ b ∈ [true, false],
      let s := yarded { probe := true } (if b then [] else [(0, { place := .running, func := 1 })])
      (s.stall 0 0).asked = 0 ∧ s.inTransit 0 0 = false ∧ s.inputConds 0 0 = b ∧
      goes (exec (.probeQuiet 0 0) s) = true := by decide +kernel

/-- A block in the bay of cluster 0, and two in the bay of cluster 1 of which the younger is stealable. -/
def bayed (bs : List (Nat × Block)) : State := { yarded {} bs with teams := [], cores := [] }

theorem witness_BlockStart :
    (let s := bayed [(0, { place := .bay false, func := 1, records := [{ words := [1, 2, 3, 4] }] })]
     s.oldestBay 0 = some 0 ∧ s.resumesFirst 0 = false ∧ s.savedFirst 0 = false ∧ s.bestCore 0 = some 0 ∧
     goes (exec (.blockStart 0) s) = true ∧ (s.block 0).place = .bay false ∧ goes (exec (.stealable 0) s) = true) ∧
    let s := bayed [(0, { place := .bay false, func := 1, cluster := 1, records := [{}] }),
      (1, { place := .bay true, func := 1, cluster := 1, arrived := 1, stealAt := 1, records := [{}] })]
    s.coreIdle 0 = true ∧ s.resumesFirst 0 = false ∧ s.savedFirst 0 = false ∧
    (s.stealQueue 0).find? (fun b => s.fits 0 b) = some 1 ∧ s.bestCore 1 = some 4 ∧ s.oldestBay 4 = some 0 ∧
    goes (exec (.steal 0 [0]) s) = true := by decide +kernel

/-- A team whose emission waits parks, with a lane at WAITW too; a parked team resumes; a team is saved; a saved block resumes. -/
theorem witness_TeamParkAndSave :
    (let s := machine { both with lanes := [(0, { ready true with st := .waiting (.remote 5) })] }
     s.emitWaits 0 = true ∧ (s.team 0).resident = true ∧ (s.team 0).stays = false ∧ (s.team 0).filling = [] ∧ s.scPending 0 = false ∧
     s.parkUse 0 + 4096 + 131072 * placeNode.accs ≤ 2 ^ 32 ∧ s.overflowUse 0 + placeNode.contextSize ≤ 2 ^ 31 ∧
     goes (exec (.teamPark 0) s) = true) ∧
    (let s := machine { both with
       lanes := [(0, { ready true with st := .waiting (.remote 5) }), (1, { ready true with st := .waiting (.watch 6) })] }
     s.emitWaits 0 = true ∧ (s.team 0).lane 1 = { ready true with st := .waiting (.watch 6) } ∧
     goes (exec (.teamPark 0) s) = true) ∧
    (let s := machine { both with resident := false, parked := true }
     s.resumable 0 = true ∧ s.resumeFits 0 = true ∧ (s.team 0).overflowed = false ∧ 31 ∈ s.freeTeamSlots 0 ∧
     (s.teams.all fun o => o.1 == 0) = true) ∧
    (let s := machine both placeNode { preempt := true }
     (s.block 0).preempt = true ∧ (s.block 0).place = .running ∧ (s.team 0).resident = true ∧ (s.team 0).saved = false ∧
     s.scPending 0 = false ∧ s.pendingTraps = [] ∧ goes (exec (.fullSave 0) s) = true) ∧
    let s := yarded {} [(0, { place := .saved, func := 1, teams := [0], records := [{}] })]
    let s := s.setTeam 0 { both with resident := false, saved := true }
    let s : State := { s with cores := [] }
    s.savedReady 0 = true ∧ (s.nodeOf 0).featreq &&& 0x1FFF = (s.nodeOf 0).featreq ∧ s.dev.savelayout = 0 ∧
    (s.block 0).saveBad = false ∧ s.resumeCore 0 0 = true ∧ goes (exec (.savedBlockResume 0 0) s) = true := by decide +kernel

/-- A block whose lanes have all ended retires; a pending trap is entered; a lane that waits for a log is stopped; a virtual
function is reset. -/
theorem witness_RetireTrapReset :
    (let s := machine { both with lanes := [] }
     s.mayRetire 0 = true ∧ s.nothingInFlight 0 = true ∧ s.retireLogs 0 = true ∧ s.retireRoom 0 = true ∧
     (s.func 1).cut = false ∧ (s.nodeOf 0).versioned = false ∧ goes (exec (.blockRetire 0) s) = true) ∧
    (let s : State := { machine with pendingTraps := [(0, 0, { code := 0x0B })] }
     s.pendingTraps.find? (fun p => p.1 == 0 && p.2.1 == 0) = some (0, 0, { code := 0x0B }) ∧ (s.team 0).resident = true ∧
     (s.block 0).place = .running ∧ goes (exec (.trapEntry 0 0) s) = true) ∧
    (let s := machine { both with lanes := [(0, { ready true with st := .waiting (.logRoom 0 0) })] }
     ((s.team 0).lane 0).st = .waiting (.logRoom 0 0) ∧ (s.block 0).teams = [0] ∧ s.handlersRun 0 = true ∧
     goes (exec (.logfullTimeout 0 0) s) = true ∧ (s.setFunc 1 { s.func 1 with cut := true }).handlersRun 0 = false) ∧
    goes (exec (.vfReset 1) machine) = true ∧ goes (exec (.vfReset 192) machine) = true := by decide +kernel

/-- A reservation of one record from accelerator 2 for node 0 of job 0. -/
def reserve0 : ReserveMsg := { srcAccel := 2, token := 5, job := 0, node := 0, count := 1, sizem1 := 0, depth := 1 }

/-- Function 1 with a gate from accelerator 2 for its job 0. -/
def gated (cut : Bool) : State :=
  let s := yarded {}
  s.setFunc 1 { s.func 1 with gates := [(0, 0x8002000000000000)], cut := cut }

/-- Reservations: without a gate; to a cut function; for a node of no run; of another size; too deep; at the deepest. -/
theorem witness_Reserve :
    (yarded {}).gatesFor 2 0 = [] ∧ (gated true).gatesFor 2 0 = [(1, 0)] ∧ ((gated true).func 1).cut = true ∧
    (gated false).gatesFor 2 0 = [(1, 0)] ∧ ((gated false).func 1).cut = false ∧ (gated false).remoteRun 1 0 1 = none ∧
    (gated false).remoteRun 1 0 0 = some 0 ∧ ((gated false).nodeAt 0 0).rsize = 16 * (reserve0.sizem1 + 1) ∧
    ((gated false).nodeAt 0 0).depth = 8 ∧ (gated false).discards 0 0 = false := by decide +kernel

/-- A reservation of this device, for lane 0 of team 0. -/
def out0 : RemoteOut :=
  { token := 5, team := 0, block := 0, accel := 2, node := 0, job := 0, sizem1 := 0, depth := 1, lanes := [0], records := [[1, 2, 3, 4]]
    after := [], granted := false, arrived := 0 }

/-- Replies to a reservation, and the records of another accelerator's. -/
theorem witness_RemoteRecords :
    (let s : State := { machine { both with lanes := [(0, { ready true with st := .waiting (.remote 5) })], emc := 1 } with
       remoteOut := [out0] }
     s.outgoing 5 = some out0 ∧ out0.granted = false ∧ (s.func (s.block out0.block).func).cut = false ∧ s.teams.any (fun t => t.1 == 0) = true ∧ (s.block 0).place = .running ∧
     (s.block 0).teams.Nodup ∧
     (([.grant 5, .refuse 5 3, .refuse 5 0, .hold 5, .arrived 5 1, .remoteTimeout 5, .holdTimer] : List Instr).all fun i =>
       goes (exec i s)) = true ∧
     let u : State := { s with remoteOut := [{ out0 with granted := true, records := [] }] }
     (u.outgoing 5).map (·.records) = some [] ∧ goes (exec (.remoteTimeout 5) u) = true) ∧
    let x : RemoteIn := { srcAccel := 2, token := 5, run := 0, node := 0, count := 1, depth := 1, granted := 1, records := [], appended := 0 }
    ∀ cut ∈ [true, false],
      let s : State := { gated cut with remoteIn := [x] }
      (s.remoteIn.find? fun x => x.srcAccel == 2 && x.token == 5) = some x ∧ (s.func (s.run x.run).func).cut = cut ∧
      goes (exec (.record { srcAccel := 2, token := 5, index := 0, words := [1, 2, 3, 4] }) s) = true ∧
      goes (exec .holdTimer s) = true := by decide +kernel

/-- An access in flight at each kind of memory, and what its completion events need. -/
theorem witness_HomeEvents :
    (([.hbm 0x40, .vault 0 0, .host 0x1000] : List Target).all fun t =>
      ([AccKind.store, .load, .atomic 0].all fun k =>
        let a : Access := { load0 with kind := k, target := t }
        let s : State := { machine with accesses := [a], cur := none }
        (s.accesses.find? fun x => x.id == 1) == some a && s.homeLogOk a && !s.det 0 && s.accessReady a && s.batch 1 == [] &&
        (s.groupOf a).all s.accessReady && (s.groupOf a).all (fun x => s.homeValue x == s.homeValue a) && goes (exec (.homeAccess 1) s))) = true ∧
    (let s : State := { machine { both with stc := 1 } with accesses := [{ store0 with stage := .performed 0 }] }
     goes (exec (.acknowledgement 2) s) = true) ∧
    (let s : State := { machine { both with ldc := 1 } with accesses := [{ load0 with stage := .performed 7, size := 2, sx := true }] }
     goes (exec (.loadResult 1) s) = true) ∧
    let p : Pair := { id := 3, ins := 3, team := 0, block := 0, core := 0, lane := 0, q := 0, func := 1, region := 0, p := 0x40, value := 1,
                      ty := 0, op := 0, accepted := false, held := false }
    let s : State := { machine { both with stc := 1 } with pairs := [p] }
    s.pairs.find? (fun y => y.id == 3) = some p ∧ s.pairReady p = true ∧ goes (exec (.pairAccept 3) s) = true := by decide +kernel

/-- An SC atomic and an SC fence that are the oldest and whose timestamp the floor has reached; a broadcast of the floor. -/
theorem witness_ScFloor :
    (let s : State := { machine with accesses := [{ load0 with kind := .atomic 0, ord := 3, ts := 4, ins := 1 }], floor := 4 }
     s.scOpen.find? (fun y => y.2.2 == 1) = some (4, 0, 1) ∧ s.scOpen = [(4, 0, 1)] ∧ goes (exec (.scFloorReached 1) s) = true) ∧
    (let e : Engine := { id := 6, ins := 6, kind := .fenceSc 4, team := 0, block := 0, core := 0, func := 1, lane := 0, lanes := [0]
                         supervisor := false, aborted := false }
     let s : State := { machine with engines := [e], floor := 4 }
     s.scOpen = [(4, 0, 6)] ∧ s.engines.find? (fun y => y.id == 6) = some e ∧ goes (exec (.scFloorReached 6) s) = true) ∧
    goes (exec .floorBroadcast machine) = true := by decide +kernel

/-- A copy of 16 bytes within the vault, before it starts, after its last byte, and failed. -/
theorem witness_CopyEvents :
    let cp : Copy := { op := 4, func := 1, dst := 0x0100000000000000, src := 0x0100000000000080, rowBytes := 16 }
    let at' (c : Copy) : State := cored both { copies := [(63, c)], tags := 0x7FFFFFFFFFFFFFFF }
    (at' cp).lockClear 0 4 = true ∧ (at' cp).acquireOpen 0 0 4 = false ∧ cp.total = 16 ∧ goes (exec (.copyStart 0 63) (at' cp)) = true ∧
    goes (exec (.copyStart 0 63) (at' { cp with dst := 0x0100000000000088 })) = true ∧
    goes (exec (.copyComplete 0 63) (at' { cp with started := true, done := 16 })) = true ∧
    goes (exec (.copyComplete 0 63) (at' { cp with started := true, failed := some { code := 8 } })) = true := by decide +kernel

/-- Engine operations of core 0. -/
def engine0 (k : EngineKind) : Engine :=
  { id := 6, ins := 6, kind := k, team := 0, block := 0, core := 0, func := 1, lane := 0, lanes := [0], supervisor := false, aborted := false }

/-- A ZSCAN with and without a record, an NMV of a matrix whose format is refused and one of one element, an MXST, a watch that
times out, a line and a register group that arrive. -/
theorem witness_EngineEvents :
    let h : Handle := { base := 0x20000, fmt := 3, rows := 1, cols := 1, stride := 1, zfi := 1, bits := 0 }
    let at' (k : EngineKind) : State := { cored both {} with engines := [engine0 k] }
    let z := at' (.zscan h 6 none)
    let ag (s : State) : Agent := { s.agentOf 0 0 with sup := false }
    z.lockClear 0 6 = true ∧ z.acquireOpen 0 0 6 = false ∧
    (match z.recordWrites (engine0 (.zscan h 6 none)) (ag z) [((z.func 1).zflagAddr 1 + 0x10, 4, 0)] with
     | (_, f) => f.isSome) = true ∧ goes (exec (.zscanComplete 6) z) = true ∧ goes (exec (.zscanComplete 6) (at' (.zscan h 6 (some 0x100)))) = true ∧
    (([3, 0] : List Nat).all fun f =>
      let s := at' (.nmv 0x0100000000000000 0x0100000000000040 { h with fmt := f } 0 0x80 0 0 0 false)
      ((s.nmvFront (engine0 .mxst) (ag s) { h with fmt := f }).isNone == (f == 3)) && goes (exec (.nmvComplete 6) s)) = true ∧
    goes (exec (.mxstComplete 6) (at' .mxst)) = true ∧
    goes (exec (.waitwTimeout 0 0) (machine { both with lanes := [(0, { ready true with st := .waiting (.watch 511) })] })) = true ∧
    (let s := paged { both with lanes := [(0, { ready true with pc := 0x20000 })], service := [0x20000] }
     s.teamRuns 0 = true ∧ s.fetchTarget 0 0 0x20000 = .ok (.hbm 0x20000) ∧ s.batch (0x20000 / 64) = [] ∧
     parityOk (s.lineAt 0x20000) = true ∧ goes (exec (.lineFill 0 0x20000 .none) s) = true) ∧
    goes (exec (.registerFill 0) (machine { both with filling := [0, 31], fillFor := [0, 1, 31] })) = true := by decide +kernel

/-- Every family has an instruction that is encoded and well-formed: DecodeOfEncode, EncodeOfDecode. -/
theorem witness_DecodeOfEncode :
    (([.nop, .mov ⟨511, 511⟩, .addS32 ⟨511, 511, 511, 0, 0, 0x100⟩, .ld ⟨511, 510, 0xFFFFFF, 1, 3, 1, 1⟩, .lit ⟨⟨511, 0, 0, 0, 0, 0⟩, 0xFFFFFFFF⟩,
      .walkRowm ⟨0, 15, 15, 0x3C00⟩, .npbLoop ⟨15, 0, 0, 0x01FF007F⟩] : List Instr).all fun i =>
      i.wf && decodeWords i.enc.set (encode i) == some i) = true ∧
    (decodeSlots 0xC0408231 0x00000200 0).isSome = true := by decide +kernel

/-- What `step` runs where the agenda gives core 0 its issue, at the line that `withFetchWord` places: every premise of the
first clause of StepRunsDecoded for ADDI v9, v9, #1. -/
theorem witness_StepRunsDecoded :
    let s := State.reset.withFetchWord 64 0x0004000001209101
    let u := ({ s with stamp := s.stamp + 1, agenda := [] } : State).inPlace [issuePlace 0]
    let v := u.serviceTurn 0
    let group := (v.team 0).path 0x10000
    s.dev.railsOff = false ∧ s.agenda = [.issue 0] ∧ s.pendingTraps = [] ∧
    ((u.issueOrder 0).flatMap fun tn => ((u.serviceTurn tn).team tn).service.map fun pc => (tn, pc)).head? = some (0, 0x10000) ∧
    u.pathFree 0 0x10000 = true ∧ group = [0] ∧ v.fetchTarget 0 0 0x10000 = .ok (.hbm 0x10000) ∧
    (match v.fetchWords 0 0x10000 0x10000 with
     | (w, some ws) =>
       (entryFault ((v.team 0).lane 0) 0x10000 ws).isNone && decodeAt ws 0 == some (.addi ⟨9, 9, 0, 0, 0, 1⟩, 2) &&
       (let x := w.setTeam 0 ((v.team 0).mapLanes group fun _ l => { l with arrival := .inLine })
        let gs := x.namedGroups 0 group (.addi ⟨9, 9, 0, 0, 0, 1⟩)
        let iss : Issue := { team := 0, pc := 0x10000, group := group, len := slotLength ws 0, word := ws.getD 0 0 }
        x.teamRuns 0 && x.missing 0 gs == [] &&
        match exec (.addi ⟨9, 9, 0, 0, 0, 1⟩) { x.useGroups 0 gs gs with
          cur := some iss } with
        | .next t => t.cur.isSome && (({ t with cur := none } : State).pairNext (x.team 0) iss (.addi ⟨9, 9, 0, 0, 0, 1⟩)).isNone
        | _ => false)
     | _ => false) = true := by decide +kernel

/-- ADDI v9, v9, #1 of class A and FABS.F32 v3, v2 of class B, with the PAIR bit of the first: one step issues both, and the lane
stands behind them (05 R126, R128; 06 R154). -/
theorem test_step_pair :
    (match step ((State.reset.withFetchWord 64 (0x0004000001209101 + 2 ^ 64 * 0x100D00)).hbmWrite (0x10000 + 62) 1 1) with
     | .next t => ((t.team 0).vreg 0 9, ((t.team 0).lane 0).pc, (t.team 0).insns)
     | _ => (0, 0, 0)) = (1, 0x1000C, 2) := by decide +kernel

/-- The premises of its other clauses: a walk word, a policy word, a step of the device. -/
theorem witness_StepTurns :
    (let s := State.reset.withFetchWord 32 0x5EA24000
     let u : State := { s with stamp := 1, agenda := [] }
     s.agenda = [.walk 0] ∧ u.walkReady 0 = true ∧ (u.core 0).walker.wpc < (u.core 0).walker.len ∧
     (match ({ u with cur := some { team := 0, pc := 0, group := [], len := 0, word := 0 } } : State).walkFetch 0 with
      | .ok (_, w) => w == 0x5EA24000
      | _ => false) = true) ∧
    (let s := State.reset.withFetchWord 64 0x0130000000000005
     s.agenda = [.policy] ∧ (s.policy.map fun p => p.prog[p.pc]?) = some (some 0x0130000000000005)) ∧
    Instr.enc .coldReset = .none ∧ Instr.enc (.muster 0 0) = .none := by decide +kernel

theorem witness_StepsKeepMemoryForm : State.reset.memWf = true ∧ (machine.memWf && goes (step machine)) = true := by decide +kernel

/-! ### One step: `withFetchWord` and `step` -/

/-- ADDI v9, v9, #1 as the first instruction after reset: v9 of lane 0 is 1, and the lane stands at the next slot. -/
theorem test_step_addi : (match step (State.reset.withFetchWord 64 0x0004000001209101) with
    | .next t => ((t.team 0).vreg 0 9, ((t.team 0).lane 0).pc, (t.team 0).insns)
    | _ => (0, 0, 0)) = (1, 0x10008, 1) := by decide +kernel

/-- MSK y10, y8, y9 as the first instruction of a walk; y8 and y9 are 0, so that bit 0 is set (15 R351). -/
theorem test_step_walk : (match step (State.reset.withFetchWord 32 0x5EA24000) with
    | .next t => (t.core 0).walker.y.get 0 10
    | _ => 0) = 1 := by decide +kernel

/-- MOVI q3, #5 as the first instruction of a policy event. -/
theorem test_step_policy : (match step (State.reset.withFetchWord 64 0x0130000000000005) with
    | .next t => t.policy.map fun p => (qOf p 3, p.pc)
    | _ => none) = some (5, 1) := by decide +kernel

/-- A row without an encoding is no instruction of any decoder; the main set refuses a word of length code 0b11 (06 R157). -/
theorem test_decode_refuses : decodeTableWord 32 0x00000003 = none ∧ decodeTableWord 64 0x0004000001209101 =
    some (.addi ⟨9, 9, 0, 0, 0, 1⟩) := by decide +kernel

/-! ### One instruction: values that the spec works out -/

/-- The machine with these registers in lanes 0 and 1. -/
def regs (l : List (Nat × Nat × Word)) : State := machine (holding l)

/-- Register `n` of lane `L` after `i`. -/
def after (s : State) (i : Instr) (L n : Nat) : Option Word :=
  match exec i s with
  | .next t => some ((t.team 0).vreg L n)
  | _ => none

/-- What `f` reads of the state after `i`. -/
def afterTo {α : Type} (s : State) (i : Instr) (f : State → α) : Option α :=
  match exec i s with
  | .next t => some (f t)
  | _ => none

/-- R184: 0x7FFF_FFFF + 1 under ADD.S32.SAT. -/
theorem test_addS32_sat : after (regs [(0, 4, 0x7FFFFFFF), (0, 2, 1)]) (.addS32 ⟨6, 4, 2, 0, 0, 0x100⟩) 0 6 = some 0x7FFFFFFF := by decide +kernel

/-- R184: the same under ADD.N32.SAT. -/
theorem test_addN32_sat : after (regs [(0, 4, 0x7FFFFFFF), (0, 2, 1)]) (.addN32 ⟨6, 4, 2, 0, 0, 0x100⟩) 0 6 = some 0x80000000 := by decide +kernel

/-- R184: 3 − 5 under SUB.N32.SAT. -/
theorem test_subN32_sat : after (regs [(0, 4, 3), (0, 2, 5)]) (.subN32 ⟨6, 4, 2, 0, 0, 0x100⟩) 0 6 = some 0 := by decide +kernel

/-- R185: MULHI.S32 of 0xFFFF_FFFF and 2. -/
theorem test_mulhiS32 : after (regs [(0, 4, 0xFFFFFFFF), (0, 2, 2)]) (.mulhiS32 ⟨6, 4, 2, 0, 0, 0⟩) 0 6 = some 0xFFFFFFFF := by decide +kernel

/-- R185: MULHI.N32 of the same. -/
theorem test_mulhiN32 : after (regs [(0, 4, 0xFFFFFFFF), (0, 2, 2)]) (.mulhiN32 ⟨6, 4, 2, 0, 0, 0⟩) 0 6 = some 1 := by decide +kernel

/-- R186, its table. -/
theorem test_divS32_neg : after (regs [(0, 4, 0xFFFFFFF9), (0, 2, 2)]) (.divS32 ⟨6, 4, 2, 0, 0, 0⟩) 0 6 = some 0xFFFFFFFD := by decide +kernel

/-- R186, its table. -/
theorem test_remS32_neg : after (regs [(0, 4, 0xFFFFFFF9), (0, 2, 2)]) (.remS32 ⟨6, 4, 2, 0, 0, 0⟩) 0 6 = some 0xFFFFFFFF := by decide +kernel

/-- R186, its table. -/
theorem test_divN32_zero : after (regs [(0, 4, 7), (0, 2, 0)]) (.divN32 ⟨6, 4, 2, 0, 0, 0⟩) 0 6 = some 0xFFFFFFFF := by decide +kernel

/-- R186, its table. -/
theorem test_remN32_zero : after (regs [(0, 4, 7), (0, 2, 0)]) (.remN32 ⟨6, 4, 2, 0, 0, 0⟩) 0 6 = some 7 := by decide +kernel

/-- R186, its table. -/
theorem test_divS32_zero : after (regs [(0, 4, 0xFFFFFFFB), (0, 2, 0)]) (.divS32 ⟨6, 4, 2, 0, 0, 0⟩) 0 6 = some 0xFFFFFFFF := by decide +kernel

/-- R186, its table. -/
theorem test_divS32_least : after (regs [(0, 4, 0x80000000), (0, 2, 0xFFFFFFFF)]) (.divS32 ⟨6, 4, 2, 0, 0, 0⟩) 0 6 = some 0x80000000 := by decide +kernel

/-- R186, its table. -/
theorem test_remS32_least : after (regs [(0, 4, 0x80000000), (0, 2, 0xFFFFFFFF)]) (.remS32 ⟨6, 4, 2, 0, 0, 0⟩) 0 6 = some 0 := by decide +kernel

/-- R189: position 4, length 4. -/
theorem test_bfxN32_nibble : after (regs [(0, 4, 0xF70), (0, 2, 0x404)]) (.bfxN32 ⟨6, 4, 2, 0, 0, 0⟩) 0 6 = some 7 := by decide +kernel

/-- R189: position 5. -/
theorem test_bfxN32_five : after (regs [(0, 4, 0xF70), (0, 2, 0x405)]) (.bfxN32 ⟨6, 4, 2, 0, 0, 0⟩) 0 6 = some 0xB := by decide +kernel

/-- R189: the same, signed. -/
theorem test_bfxS32_five : after (regs [(0, 4, 0xF70), (0, 2, 0x405)]) (.bfxS32 ⟨6, 4, 2, 0, 0, 0⟩) 0 6 = some 0xFFFFFFFB := by decide +kernel

/-- R188: a count of 32 pushes everything out. -/
theorem test_shl_full : after (regs [(0, 4, 1), (0, 2, 32)]) (.shl ⟨6, 4, 2, 0, 0, 0⟩) 0 6 = some 0 := by decide +kernel

/-- R188: SAR by 32 or more copies bit 31. -/
theorem test_sar_full : after (regs [(0, 4, 0x80000000), (0, 2, 40)]) (.sar ⟨6, 4, 2, 0, 0, 0⟩) 0 6 = some 0xFFFFFFFF := by decide +kernel

/-- R188: ROT takes the count modulo 32. -/
theorem test_rot_modulo : after (regs [(0, 4, 0x80000001), (0, 2, 33)]) (.rot ⟨6, 4, 2, 0, 0, 0⟩) 0 6 = some 3 := by decide +kernel

/-- R192: V(4:5) = 0x10_0002_0000, v2 = 5, scale 3. -/
theorem test_shla : afterTo (regs [(0, 4, 0x00020000), (0, 5, 0x10), (0, 2, 5)]) (.shla ⟨6, 4, 2, 3, 0, 0⟩) (fun t => (t.team 0).vpair 0 6) = some 0x1000020028 := by decide +kernel

/-- R190: a compare writes the bits of Active lanes only. -/
theorem test_cmp_inactive : afterTo (machine { team0 with k := [(1, 2)], v := [(4, 5), (512 + 4, 5)] }) (.cmpS32 ⟨1, 4, 2, 4, 0, 0⟩) (fun t => (t.team 0).kreg 1) = some 3 := by decide +kernel

/-- R193: MOVI extends the sign of IMM14. -/
theorem test_movi_signed : after machine (.movi ⟨3, 0, 0, 0, 0, 0x3FFF⟩) 0 3 = some 0xFFFFFFFF := by decide +kernel

/-- R176: a lane with predicate 0 writes nothing, and its predicate is 1 afterwards (R203). -/
theorem test_movi_inactive : afterTo machine (.movi ⟨3, 0, 0, 0, 0, 7⟩) (fun t => ((t.team 0).vreg 1 3, ((t.team 0).lane 1).pend, ((t.team 0).lane 1).pc)) = some (0, true, 0x10004) := by decide +kernel

/-- R160, R164: v[x1+#8] with x1 = 4 is v12. -/
theorem test_indirect : after (machine { team0 with x := [(1, 4)], v := [(6, 1), (12, 41)] }) (.addS32 ⟨7, 6, 0, 0, 0, 0x3208⟩) 0 7 = some 42 := by decide +kernel

/-- R196: lanes 0, 1, 3 to 7 Active, v4 = 10 · lane, n = 1, segments of 4. -/
theorem test_shflDown : 
    (let lane (L : Nat) : Lane := { ready (L != 2) with st := .ready }
     let iss : Issue := { iss0 with group := List.range 8 }
     let s : State := { machine { team0 with
       lanes := (List.range 8).map fun L => (L, lane L)
       v := (List.range 8).flatMap fun L => [(512 * L + 2, 1), (512 * L + 4, .ofNat 32 (10 * L))] } with cur := some iss }
     [0, 1, 3, 4, 5, 6, 7].map fun L => after s (.shflDown ⟨6, 4, 2, 2, 0, 0⟩) L 6) = [10, 10, 30, 50, 60, 70, 70].map some := by decide +kernel

/-- R318: 0x3F80_0001 · 0x3F7F_FFFE − 1 is rounded once. -/
theorem test_ffma_f32 : after (regs [(0, 2, 0x3F800001), (0, 3, 0x3F7FFFFE), (0, 4, 0xBF800000)]) (.ffma .f32 ⟨8, 2, 3, 4, 0, 0⟩) 0 8 = some 0xA8800000 := by decide +kernel

/-- R302, R308: ∞ · 0 is the one NaN, event 0. -/
theorem test_ffma_nan : afterTo (machine { team0 with v := [(2, 0x7F800000)] }) (.ffma .f32 ⟨8, 2, 3, 4, 0, 0⟩) (fun t => ((t.team 0).vreg 0 8, (t.block 0).events)) = some (0x7FC00000, [(0, 1)]) := by decide +kernel

/-- R302: 2^100 · 2^100 toward −∞ is the largest value, event 2. -/
theorem test_fmul_overflow_rd : afterTo (machine { team0 with v := [(2, 0x71800000), (4, 0x71800000)] }) (.fmul .f32 ⟨8, 4, 2, 0, 3, 0⟩) (fun t => ((t.team 0).vreg 0 8, (t.block 0).events)) = some (0x7F7FFFFF, [(2, 1)]) := by decide +kernel

/-- R325: 1.1 to F16. -/
theorem test_cvt_f16 : after (regs [(0, 4, 0x3F8CCCCD)]) (.cvt ⟨5, 4, 0, 0, 0, 0x10⟩) 0 5 = some 0x3C66 := by decide +kernel

/-- R325: 1.1 to BF16. -/
theorem test_cvt_bf16 : after (regs [(0, 4, 0x3F8CCCCD)]) (.cvt ⟨5, 4, 0, 0, 0, 0x20⟩) 0 5 = some 0x3F8D := by decide +kernel

/-- R325: 1.1 to F8A, to nearest and toward zero. -/
theorem test_cvt_f8a : (after (regs [(0, 4, 0x3F8CCCCD)]) (.cvt ⟨5, 4, 0, 0, 0, 0x30⟩) 0 5, after (regs [(0, 4, 0x3F8CCCCD)]) (.cvt ⟨5, 4, 0, 0, 1, 0x30⟩) 0 5) = (some 0x39, some 0x38) := by decide +kernel

/-- R325, R326: 470.0 to F8A with .RZ.SAT, and to nearest, which overflows to NaN with event 14. -/
theorem test_cvt_f8a_sat : (after (regs [(0, 4, 0x43EB0000)]) (.cvt ⟨5, 4, 0, 0, 1, 0x130⟩) 0 5, afterTo (machine { team0 with v := [(4, 0x43EB0000)] }) (.cvt ⟨5, 4, 0, 0, 0, 0x30⟩) (fun t => ((t.team 0).vreg 0 5, (t.block 0).events))) = (some 0x7E, some (0x7F, [(14, 1)])) := by decide +kernel

/-- R205: a taken branch goes to PC + 4 · disp; a lane with predicate 0 falls through. -/
theorem test_branch_back : afterTo machine (.bra ⟨0, 0, 0, 0, 0, 0x3FFA⟩) (fun t => (((t.team 0).lane 0).pc, ((t.team 0).lane 1).pc)) = some (0xFFE8, 0x10004) := by decide +kernel

/-- R205: CALL writes the next PC to its link pair. -/
theorem test_call_link : afterTo { machine with cur := some { iss0 with len := 2 } } (.call ⟨6, 0, 0, 0, 0, 2⟩) (fun t => ((t.team 0).vpair 0 6, ((t.team 0).lane 0).pc)) = some (0x10008, 0x10008) := by decide +kernel

/-- R203: PRED sets the predicate from a mask bit. -/
theorem test_pred : afterTo (machine { both with k := [(1, 2)] }) (.pred ⟨0, 1⟩) (fun t => (((t.team 0).lane 0).pend, ((t.team 0).lane 1).pend)) = some (false, true) := by decide +kernel

/-- R212, R213: the last enrolled lane's JOIN releases every lane at the mask and clears their bits. -/
theorem test_join_release : 
    afterTo { machine { team0 with
        k := [(0, 3)], lanes := [(0, ready true), (1, { ready true with st := .waiting (.join 0 []) })] } with
      cur := some { iss0 with group := [0] } } (.join ⟨0, 0⟩)
      (fun t => (((t.team 0).lane 0).st, ((t.team 0).lane 1).st, (t.team 0).kreg 0)) = some (.ready, .ready, 0) := by decide +kernel

/-- R207, R407: the last lane's EXIT leaves the block running until it retires. -/
theorem test_exit_last : afterTo machine .exit (fun t => (((t.team 0).lane 0).st, (t.block 0).place)) = some (.exited, .running) := by decide +kernel

/-- R386, R390: TRAP #0x40 without a trap table stops the block, reason DEFAULT. -/
theorem test_trap_default : afterTo machine (.trap ⟨0x40, 0⟩) (fun t => ((t.block 0).place, (t.block 0).stop)) = some (.retired, 1) := by decide +kernel

/-- R381: a TRAP in trap mode stops the block, reason DOUBLE. -/
theorem test_trap_double : afterTo (machine trapped) (.trap ⟨0x41, 0⟩) (fun t => ((t.block 0).place, (t.block 0).stop)) = some (.retired, 2) := by decide +kernel

/-- R392: the worked double fault's report has REASON 0x0041_1602. -/
theorem test_stop_report : machine.stopImage 0 0 { reason := 2, code := 0x16, subcode := 0x41 } % 2 ^ 32 = 0x00411602 := by decide +kernel

/-- R387: TRET goes to TPC at user level. -/
theorem test_tret : afterTo (machine trapped) .tret (fun t => (((t.team 0).lane 0).pc, ((t.team 0).lane 0).trap)) = some (0x20000, false) := by decide +kernel

/-- R366, R367: the arrival of the one live lane completes the phase. -/
theorem test_bar_arrive : 
    (let s := machine { team0 with lanes := [(0, { ready true with st := .waiting (.arrive .bar 3 []) })] }
     afterTo s (.barrierArrival 0 0) (fun t => (((t.team 0).lane 0).st, ((t.block 0).bar 3).ph)) = some (.ready, 1)) := by decide +kernel

/-- R242, R243: a signed byte is extended. -/
theorem test_load_sign : afterTo { machine { both with ldc := 1 } with accesses := [{ load0 with stage := .performed 0xF0, size := 1, sx := true }] } (.loadResult 1) (fun t => ((t.team 0).vreg 0 8, (t.team 0).ldc)) = some (0xFFFFFFF0, 0) := by decide +kernel

/-- R243: a store's bytes stand least significant first (00 R4). -/
theorem test_store_home : afterTo { machine with accesses := [store0] } (.homeAccess 2) (fun t => t.vaults) = some [(0, 4), (1, 3), (2, 2), (3, 1)] := by decide +kernel

/-- R257: ATOM.ADD answers the old value and leaves the sum. -/
theorem test_atomic_old : afterTo { machine with accesses := [{ load0 with kind := .atomic 0, data := 10 }], vaults := [(0, 100)] } (.homeAccess 1) (fun t => (t.vaults, t.accesses.map (·.stage))) = some ([(0, 110)], [.performed 100]) := by decide +kernel

/-- R219, R239: a 4-byte load at 2 modulo 4 faults ALIGN and is not made. -/
theorem test_misaligned : afterTo (vaulted 0x0100000000000002) (.ld ⟨8, 4, 0, 2, 0, 0, 0⟩) (fun t => ((t.block 0).stop, t.accesses)) = some (1, []) := by decide +kernel

/-- The boundary cases of R219 that 09 lists. -/
theorem test_boundaries : 
    (let ag := machine.agentOf 0 0
     let code (k : AccessKind) (a n : Nat) : Option (Nat × Nat) :=
       match machine.checkAccess ag k a n n with | .error e => some (e.code, e.cause) | .ok _ => none
     [code .read 0x00FFFFFFFFFFFFFC 8, code .read 0x0100000000000000 8, code .read 0x02FFFFFFFFFFFFFE 4,
      code .write 0x0300000000000000 4, code .read 0x0200000000000000 16]) =
    [some (7, 0), some (5, 0), some (7, 0), some (8, 0), some (9, 1)] := by decide +kernel

/-- The worked translation of 09: p = 0x12_3456_706A with HBMIL bit 9 set and cleared (R235). -/
theorem test_interleave : (State.reset.stackOf 0x123456706A, ({ State.reset with pf := { hbmil := ~~~0x200 } } : State).stackOf 0x123456706A) = ((3, 0x2468AC06A), (0, 0x27456706A)) := by decide +kernel

/-- The worked case of R68, step 1: TAIL := 7 with entry 5 not valid. -/
theorem test_queue_waitvalid : 
    (let s := queued 3 [] { head := 5 }
     let s := s.setQueue 0 { s.queue 0 with tail := 5 }
     afterTo s (.tailWrite 1 0 7) (fun t => ((t.queue 0).tail, (t.queue 0).waitvalid)) = some (7, true)) := by decide +kernel

/-- Step 2: TAIL := 6 is ignored and sets STALE. -/
theorem test_queue_stale : 
    (let s := queued 3 [] { head := 5 }
     let s := s.setQueue 0 { s.queue 0 with tail := 7 }
     afterTo s (.tailWrite 1 0 6) (fun t => ((t.queue 0).tail, (t.queue 0).stale)) = some (7, true)) := by decide +kernel

/-- R70: SETCTR stores ARG into counter SIGCTR. -/
theorem test_setctr : afterTo (queued 2 [(3, 0x0003FFFF), (12, 9)]) (.setctr 1) (fun t => ((t.func 1).ctr.get 0 3, (t.queue 0).head)) = some (9, 1) := by decide +kernel

/-- R370, R373: an EMIT of two lanes sends two records and counts two in EMC. -/
theorem test_emit_counts : afterTo emitter (.emit ⟨0, 16, 0, 0, 0, 1⟩) (fun t => ((t.team 0).emc, t.emissions.map (·.node), (t.team 0).eseq)) = some (2, [1, 1], 2) := by decide +kernel

/-- R306, R333, R335: 1 · 1 accumulated 32 times is delivered as 32.0 in F32; F8A 0x38 is 1.0. -/
theorem test_accumulate : (let one := fmtF8A.value 0x38
     ((accumulateAll {} 0 (List.replicate 32 (one, one))).1.deliver 0 0 .RN false).1) = 0x42000000 := by decide +kernel

/-- R351: HASH of 0 and 0 is 0. -/
theorem test_walk_hash : afterTo (walking {}) (.walkHash ⟨3, 0, 1, 0⟩) (fun t => (t.core 0).walker.y.get 0 3) = some 0 := by decide +kernel

/-- R87: DIVU by zero gives all ones. -/
theorem test_policy_divu : afterTo (policing { q := [(0, 7)] }) (.npbDivu ⟨3, 0, 1, 0⟩) (fun t => t.policy.map fun p => qOf p 3) = some (some 0xFFFFFFFFFFFFFFFF) := by decide +kernel

/-- R31, R32: a cold reset returns to stage 0x00. -/
theorem test_cold_reset : afterTo machine .coldReset (fun t => (t.dev.stage, t.blocks)) = some (0, []) := by decide +kernel

/-- 01 R24: above 100 °C the clocks fall by 100 MHz. -/
theorem test_thermal : afterTo machine (.thermalStep [101]) (fun t => ((t.yard 0).coreMHz, t.dev.fabricMHz)) = some (1100, 2300) := by decide +kernel

end Sys2Proof.Tests
end

section
/-! PROOFS of the statements of the PF's and the functions' registers (O49): what a host write reaches, what each register operation
leaves, and what translation invalidation, referrals, pre-emption requests and cuts do. -/
namespace Sys2Proof.Machine

/-! ### Lists and fields -/

/-- Steps that each leave the state as it is leave it so together. -/
theorem foldl_of_fixed {α β : Type} (f : β → α → β) (b : β) (l : List α) (h : ∀ a ∈ l, f b a = b) : l.foldl f b = b := by
  induction l with
  | nil => rfl
  | cons a r ih =>
    rw [List.foldl_cons, h a List.mem_cons_self]
    exact ih fun x hx => h x (List.mem_cons_of_mem _ hx)

/-- A mask with all bits of a field set keeps the field. -/
theorem natBits_and_of_ones (n m hi lo : Nat) (h : natBits m hi lo = 2 ^ (hi + 1 - lo) - 1) :
    natBits (n &&& m) hi lo = natBits n hi lo := by
  unfold natBits at *
  rw [Nat.shiftRight_and_distrib, Nat.and_mod_two_pow, h, Nat.and_two_pow_sub_one_eq_mod, Nat.mod_mod]

/-- The entries of a map in canonical form are its keys with what stands there, where that is not the default. -/
theorem SMap.mem_iff_get {α : Type} [DecidableEq α] (m : SMap α) (d : α) (h : SMap.wf m d = true) (k : Nat) (v : α) :
    (k, v) ∈ m ↔ SMap.get m d k = v ∧ v ≠ d := by
  simp only [SMap.wf, Bool.and_eq_true, List.all_eq_true, decide_eq_true_eq] at h
  obtain ⟨hr, hd⟩ := h
  generalize none = lo at hr
  induction m generalizing lo with
  | nil => simp [SMap.get, eq_comm]
  | cons p r ih =>
    obtain ⟨a, w⟩ := p
    obtain ⟨-, hr'⟩ := (SMap.rising_cons a w r lo).mp hr
    have hab := SMap.rising_above r _ hr'
    have ih' := ih (fun q hq => hd q (List.mem_cons_of_mem _ hq)) _ hr'
    by_cases hk : a = k
    · subst hk
      have hout : (a, v) ∉ r := fun hm => absurd (hab _ hm a rfl) (lt_irrefl a)
      have hw : w ≠ d := hd (a, w) List.mem_cons_self
      simp only [List.mem_cons, Prod.mk.injEq, true_and, hout, or_false, SMap.get, if_true]
      exact ⟨fun e => ⟨e.symm, e ▸ hw⟩, fun e => e.1.symm⟩
    · simp only [List.mem_cons, Prod.mk.injEq, Ne.symm hk, false_and, false_or, SMap.get, if_neg hk, ih']

/-- The keys of a map in canonical form are distinct. -/
theorem SMap.keys_nodup {α : Type} (m : SMap α) (lo : Option Nat) (h : m.rising lo = true) : (m.map (·.1)).Nodup := by
  induction m generalizing lo with
  | nil => exact List.nodup_nil
  | cons p r ih =>
    obtain ⟨a, w⟩ := p
    obtain ⟨-, hr⟩ := (SMap.rising_cons a w r lo).mp h
    refine List.nodup_cons.mpr ⟨fun ha => ?_, ih _ hr⟩
    obtain ⟨q, hq, rfl⟩ := List.mem_map.mp ha
    exact lt_irrefl _ (SMap.rising_above r _ hr q hq q.1 rfl)

/-! ### The partition table and quotas (01 R433; 03 R79) -/

/-- An allowed change of a partition's owner takes effect. -/
theorem State.writePartown_of_allowed (s : State) (p : Nat) (v : Word) (hp : p < 40)
    (ho : 1 ≤ natBits v.toNat 7 0 ∧ natBits v.toNat 7 0 ≤ 192 ∨ natBits v.toNat 7 0 = 255)
    (hne : natBits v.toNat 7 0 ≠ (s.pf.partown.get 0xFF p).toNat)
    (hcur : s.busyOwner (s.pf.partown.get 0xFF p).toNat = false) (hnew : s.busyOwner (natBits v.toNat 7 0) = false) :
    s.writePartown p v =
      { s with pf := { s.pf with partown := s.pf.partown.set 0xFF p (BitVec.ofNat 8 (natBits v.toNat 7 0)) } } := by
  refine if_neg ?_
  simp only [hcur, hnew, Bool.or_eq_true, Bool.and_eq_true, decide_eq_true_eq, Bool.false_eq_true, or_false]
  omega

/-- A write by the PF to OWNER of a partition. -/
theorem exec_partownWrite_pf (s : State) (p : Nat) (v : Word) (hl : s.barsLive = true) :
    exec (.partownWrite 0 p v) s = .next (s.writePartown p v) := by
  change execPartownWrite 0 p v s = _
  simp [execPartownWrite, hl]

/-- No other function can write it. -/
theorem exec_partownWrite_vf (s : State) (who p : Nat) (v : Word) (hw : who ≠ 0) :
    exec (.partownWrite who p v) s = .next s := by
  change execPartownWrite who p v s = _
  simp [execPartownWrite, hw]

/-- A write by the PF to offset `o` of the quota block of function `f`. -/
theorem exec_quotaWrite_pf (s : State) (f o : Nat) (v : Word) (hl : s.barsLive = true) (hf : f < 193) (ho : o < 0x20) :
    exec (.quotaWrite 0 (0x4000 + 0x20 * f + o) v) s = .next (s.writeQuota f o v) := by
  have hblock : (0x4000 + 0x20 * f + o - 0x4000) / 0x20 = f := by omega
  have hreg : (0x4000 + 0x20 * f + o) % 0x20 = o := by omega
  have hlo : 0x4000 ≤ 0x4000 + 0x20 * f + o := by omega
  have hhi : 0x4000 + 0x20 * f + o < 0x4000 + 0x20 * 193 := by omega
  change execQuotaWrite 0 (0x4000 + 0x20 * f + o) v s = _
  rw [execQuotaWrite, if_pos (by simp only [hl, hlo, hhi, decide_true, Bool.and_self]), hblock, hreg]

/-! ### Reserved HBM (04 R103; 09 R230) -/

/-- A write by the PF to LOFTHBM of a die. -/
theorem exec_lofthbmWrite_pf (s : State) (d : Nat) (v : Word) (hl : s.barsLive = true) (hd : d < 4) :
    exec (.lofthbmWrite 0 d v) s = .next (s.writeLofthbm d v) := by
  change execLofthbmWrite 0 d v s = _
  simp [execLofthbmWrite, hl, hd]

/-- A translation stays in the TLBs if its page is not reserved HBM. -/
theorem State.mem_dropReserved_tlb (s : State) (e : TlbEntry) : e ∈ s.dropReserved.tlb ↔
    e ∈ s.tlb ∧ ¬ (natBits e.pte.toNat 9 8 = 0 ∧ s.reservedAt (pteFrame e.pte.toNat) (leafSize e.level) = true) := by
  simp only [State.dropReserved, List.mem_filter, Bool.not_eq_true', ← Bool.not_eq_true, Bool.and_eq_true, beq_iff_eq]

/-- A table entry stays in the walk caches if it does not lead into reserved HBM. -/
theorem State.mem_dropReserved_walks (s : State) (w : WalkEntry) : w ∈ s.dropReserved.walks ↔
    w ∈ s.walks ∧ s.reservedAt (pteFrame w.entry) 4096 = false := by
  simp [State.dropReserved, List.mem_filter]

/-- A value that LOFTHBM can hold resizes the die's range where no run holds a reservation there. -/
theorem State.writeLofthbm_of_free (s : State) (d : Nat) (v : Word) (hr : (s.yard d).reserved = 0)
    (hv : natBits v.toNat 16 0 ≤ 65536) :
    s.writeLofthbm d v =
      { s.setYard d { s.yard d with lofthbm := BitVec.ofNat 32 (natBits v.toNat 16 0) } with
        reserved := s.reserved.map fun (r : Nat × Nat × Nat × Nat) =>
          if r.2.2 = (1, d) then (r.1, natBits v.toNat 16 0 * 2 ^ 20, 1, d) else r }.dropReserved := by
  have hv' : ¬ 65536 < natBits v.toNat 16 0 := by omega
  simp [State.writeLofthbm, hr, hv', Prod.ext_iff]

/-! ### Translation (09 R232, R236, R238) -/

/-- A write by the PF to PTROOT of a function. -/
theorem exec_ptrootWrite_pf (s : State) (f : Nat) (v : Dbl) (hl : s.barsLive = true) (hf : f < 193) :
    exec (.ptrootWrite 0 f v) s = .next (s.writePtroot f v) := by
  change execPtrootWrite 0 f v s = _
  simp [execPtrootWrite, hl, hf]

/-- A write by the PF to INVCTL. -/
theorem exec_invalidate_pf (s : State) (v : Word) (hl : s.barsLive = true) :
    exec (.invalidate 0 v) s = .next (s.writeInvctl v) := by
  change execInvalidate 0 v s = _
  simp [execInvalidate, hl]

/-- An invalidation of a whole address space removes all translations of the function. -/
theorem State.dropTlb_all (s : State) (f first count : Nat) : s.dropTlb f true first count =
    { s with tlb := s.tlb.filter fun e => e.func != f, walks := s.walks.filter fun w => w.func != f } := by
  simp [State.dropTlb, inRange, bne]

theorem State.mem_dropTlb_tlb (s : State) (f : Nat) (all : Bool) (first count : Nat) (e : TlbEntry) :
    e ∈ (s.dropTlb f all first count).tlb ↔ e ∈ s.tlb ∧ ¬ (e.func = f ∧ inRange all first count e.page = true) := by
  simp only [State.dropTlb, List.mem_filter, Bool.not_eq_true', ← Bool.not_eq_true, Bool.and_eq_true, beq_iff_eq]

theorem State.mem_dropTlb_walks (s : State) (f : Nat) (all : Bool) (first count : Nat) (w : WalkEntry) :
    w ∈ (s.dropTlb f all first count).walks ↔ w ∈ s.walks ∧ ¬ (w.func = f ∧ (all = true ∨
      overlaps (w.part * 512 ^ (w.level - 1)) (512 ^ (w.level - 1)) first count = true)) := by
  simp only [State.dropTlb, List.mem_filter, Bool.not_eq_true', ← Bool.not_eq_true, Bool.and_eq_true, Bool.or_eq_true,
    beq_iff_eq]

/-- What an invalidation waits for: accesses not yet performed on a page of its range, and pairs not yet accepted. -/
theorem State.usesPages_iff (s : State) (f : Nat) (hit : Nat → Bool) : s.usesPages f hit = true ↔
    (∃ a ∈ s.accesses, a.func = f ∧ a.stage = .issued ∧
      hit ((lockPlace (s.agentOf a.team a.lane) a.va.toNat).2 / 4096) = true) ∨
    ∃ p ∈ s.pairs, p.func = f ∧ p.accepted = false := by
  simp [State.usesPages, and_assoc]

/-- A page is hit by INVCTL.ALL or by the range from INVVA on. -/
theorem inRange_iff (all : Bool) (first count page : Nat) :
    inRange all first count page = true ↔ all = true ∨ (first ≤ page ∧ page < first + count) := by
  simp [inRange]

/-- The reserved bits of INVCTL play no part in what it hits. -/
theorem invHit_of_masked (p : PfRegs) (v : Word) :
    PfRegs.invHit { p with invctl := v &&& 0xFFFF00FF } =
      inRange (v.getLsbD 30) (natBits p.invva.toNat 55 12) (natBits v.toNat 29 16 + 1) := by
  have hall : (v &&& 0xFFFF00FF).getLsbD 30 = v.getLsbD 30 := by simp
  have hcount : natBits (v &&& 0xFFFF00FF).toNat 29 16 = natBits v.toNat 29 16 := by
    rw [BitVec.toNat_and]
    exact natBits_and_of_ones _ _ _ _ (by decide)
  funext page
  simp only [PfRegs.invHit, hall, hcount]

/-- What an invalidation marks: the function's referred walks for pages of its range. -/
theorem State.staleWalks_eq (s : State) (f : Nat) (hit : Nat → Bool) : s.staleWalks f hit =
    { s with referrals := s.referrals.map fun (r : Referral) =>
        if r.mode = 2 ∧ r.func = f ∧ hit (r.arg0.toNat / 4096) = true then { r with stale := true } else r } := by
  simp [State.staleWalks, and_assoc]

/-- A write to INVCTL while GO reads 0; with GO it marks the walks in flight for its range. -/
theorem State.writeInvctl_of_idle (s : State) (v : Word) (hidle : s.pf.invctl.getLsbD 31 = false) :
    s.writeInvctl v = { s with
      pf := { s.pf with invctl := v &&& 0xFFFF00FF }
      referrals := s.referrals.map fun (r : Referral) =>
        if v.getLsbD 31 = true ∧ r.mode = 2 ∧ r.func = natBits v.toNat 7 0 ∧
            inRange (v.getLsbD 30) (natBits s.pf.invva.toNat 55 12) (natBits v.toNat 29 16 + 1) (r.arg0.toNat / 4096) = true
        then { r with stale := true } else r } := by
  simp only [State.writeInvctl, hidle, Bool.false_eq_true, if_false]
  cases hgo : v.getLsbD 31
  · simp
  · simp only [if_true, true_and, State.staleWalks_eq, invHit_of_masked]

/-- A root that is allowed invalidates the function's address space; it takes effect at once where nothing uses the old one. -/
theorem State.writePtroot_eq (s : State) (f : Nat) (v : Dbl) (hlo : 9 ≤ natBits v.toNat 4 0) (hhi : natBits v.toNat 4 0 ≤ 17) :
    s.writePtroot f v =
      ((s.staleWalks f fun _ => true).dropTlb f true 0 0).setFunc f
        (if s.usesPages f fun _ => true then { s.func f with newRoot := some (keep v 0x000FFFFFFFFFF11F) }
         else { s.func f with ptroot := keep v 0x000FFFFFFFFFF11F, newRoot := none }) := by
  have hlo' : ¬ natBits v.toNat 4 0 < 9 := by omega
  have hhi' : ¬ 17 < natBits v.toNat 4 0 := by omega
  have huses (x : Func) : (((s.staleWalks f fun _ => true).dropTlb f true 0 0).setFunc f x).usesPages f (fun _ => true) =
      s.usesPages f fun _ => true := rfl
  simp only [State.writePtroot, hlo', hhi', huses, decide_false, Bool.or_self, Bool.false_eq_true, if_false]
  split
  · rfl
  · simp [State.installRoot, State.dropTlb_all, State.setFunc, State.func, SMap.set_set]

/-- Where no root waits, none is installed. -/
theorem State.installRoots_of_none (s : State) (h : ∀ x ∈ s.funcs, x.2.newRoot = none) : s.installRoots = s :=
  foldl_of_fixed _ _ _ fun x hx => by simp [h x hx]

/-- An invalidation in progress: the translations of its range leave, and GO clears once nothing uses them. -/
theorem execInvalidationComplete_of_go (s : State) (hgo : s.pf.invctl.getLsbD 31 = true)
    (hroots : ∀ x ∈ s.funcs, x.2.newRoot = none) :
    let f := natBits s.pf.invctl.toNat 7 0
    let d := s.dropTlb f (s.pf.invctl.getLsbD 30) (natBits s.pf.invva.toNat 55 12) (natBits s.pf.invctl.toNat 29 16 + 1)
    execInvalidationComplete s = .next (if s.usesPages f s.pf.invHit then d
      else { d with pf := { s.pf with invctl := s.pf.invctl &&& 0x7FFFFFFF } }) := by
  have hgo' : s.pf.invctl.toNat.testBit 31 = true := hgo
  simp only [execInvalidationComplete, s.installRoots_of_none hroots, hgo', Bool.not_true, Bool.false_eq_true, if_false]
  exact (apply_ite Host.Outcome.next _ _ _).symm

/-! ### Region table (10 R261) -/

/-- A write to the region table by the PF or by the function that it belongs to. -/
theorem exec_regionWrite_allowed (s : State) (who f o : Nat) (v : Dbl) (hl : s.barsLive = true) (hf : f < 193)
    (hw : who = 0 ∨ who = f) (ho : o < 0x1000) :
    exec (.regionWrite who f (0x1000 + o) v) s = .next (s.writeRegion f o v) := by
  have hlo : 0x1000 ≤ 0x1000 + o := by omega
  have hhi : 0x1000 + o < 0x2000 := by omega
  change execRegionWrite who f (0x1000 + o) v s = _
  simp [execRegionWrite, hl, hf, hw, hhi]

/-- RBASE of an entry that is not valid. -/
theorem State.writeRegion_rbase (s : State) (f i : Nat) (v : Dbl)
    (h : ((s.func f).regions.get {} i).rctl.getLsbD 63 = false) :
    s.writeRegion f (16 * i) v = s.setFunc f { s.func f with
      regions := (s.func f).regions.set {} i
        { (s.func f).regions.get {} i with rbase := keep v 0x00FFFFFFFFFFFFC0 } } := by
  have hi : 16 * i / 16 = i := by omega
  simp only [State.writeRegion, hi, Nat.mul_mod_right, if_true, h, Bool.false_eq_true, if_false]

/-- RCTL: a valid entry becomes PENDING where VALID is cleared; another takes the value, where that is a region that fits. -/
theorem State.writeRegion_rctl (s : State) (f i : Nat) (v : Dbl) :
    let x := s.func f
    let r := x.regions.get {} i
    let put (n : Region) : State := s.setFunc f { x with regions := x.regions.set {} i n }
    let w : Dbl := keep v 0x8000003FFFFFFFFF ||| (r.rctl &&& 0x4000000000000000)
    s.writeRegion f (16 * i + 8) v =
      if r.rctl.getLsbD 63 then
        if v.getLsbD 63 then s else put { r with rctl := r.rctl ||| (1 <<< 61), next := w }
      else if v.getLsbD 63 && !x.regionFits i { r with rctl := w } then s
      else (put { r with rctl := w }).dropRegions := by
  have hi : (16 * i + 8) / 16 = i := by omega
  have hm : (16 * i + 8) % 16 = 8 := by omega
  simp only [State.writeRegion, hi, hm, ne_eq, not_true_eq_false, if_false]
  rfl

/-- A region with no committed pairs has no lines to apply. -/
theorem State.regionLines_of_none (s : State) (f i : Nat)
    (h : ∀ p ∈ s.pairs, ¬ (p.func = f ∧ p.region = i ∧ p.accepted = true ∧ p.held = false)) : s.regionLines f i = [] := by
  have hnone : (s.pairs.filter fun p => p.func == f && p.region == i && p.accepted && !p.held) = [] := by
    rw [List.filter_eq_nil_iff]
    intro p hp
    simpa [and_assoc] using h p hp
  simp [State.regionLines, hnone]

/-- An entry that is PENDING takes its next value once no committed pairs of the region are left. -/
theorem execRegionClearDone_of_applied (s : State) (f i : Nat)
    (hp : ((s.func f).regions.get {} i).rctl.getLsbD 61 = true) (h : s.regionLines f i = []) :
    let r := (s.func f).regions.get {} i
    execRegionClearDone f i s = .next (s.setFunc f { s.func f with
      regions := (s.func f).regions.set {} i
        { rbase := r.rbase, rctl := keep r.next 0x3FFFFFFFFF ||| (r.rctl &&& 0x4000000000000000) } }) := by
  simp only [execRegionClearDone, hp, h, Bool.not_true, Bool.false_eq_true, if_false, List.foldl_nil, ne_eq,
    not_true_eq_false]

/-! ### Each function's own registers (00 R7; 03 R84; 12 R313) -/

/-- A write of 8 bytes below 0x4000 of a function's BAR0 reaches a register of its own. -/
theorem exec_registerWrite_own8 (s : State) (who off : Nat) (v : Dbl) (hl : s.barsLive = true) (hw : who < 193)
    (ho : off < 0x4000) : exec (.registerWrite who 0 off 8 v) s = .next (s.writeOwn8 who off v) := by
  have hw' : ¬ 193 ≤ who := by omega
  change execRegisterWrite who 0 off 8 v s = _
  simp [execRegisterWrite, State.writeBar0, hl, hw', ho]

/-- A write of 4 bytes below 0x4000 of a function's BAR0 reaches a register of its own. -/
theorem exec_registerWrite_own4 (s : State) (who off : Nat) (v : Dbl) (hl : s.barsLive = true) (hw : who < 193)
    (ho : off < 0x4000) : exec (.registerWrite who 0 off 4 v) s = .next (s.writeOwn4 who off v) := by
  have hw' : ¬ 193 ≤ who := by omega
  change execRegisterWrite who 0 off 4 v s = _
  simp [execRegisterWrite, State.writeBar0, hl, hw', ho]

/-- EVTSTAT: a write of 1 to PEND clears a crossing, and a write of 0 does nothing. -/
theorem State.writeOwn4_evtstat (s : State) (f : Nat) (v : Dbl) :
    s.writeOwn4 f 0x31C v = if (v.setWidth 32).getLsbD 31 then s.clearCrossing f else s := rfl

/-- PEND clears where no crossing stands beside it. -/
theorem State.clearCrossing_of_none (s : State) (f : Nat) (hnow : s.crossings.get 0 (2 * f) = 0)
    (hkept : s.crossings.get 0 (2 * f + 1) = 0) :
    s.clearCrossing f = s.setFunc f { s.func f with evtstat := (s.func f).evtstat &&& 0x7FFFFFFF } := by
  simp [State.clearCrossing, hnow, hkept]

/-- A crossing latched in the cycle of the write outlives it. -/
theorem State.clearCrossing_of_latched (s : State) (f : Nat) (hnow : s.crossings.get 0 (2 * f) ≠ 0) :
    s.clearCrossing f = s := by
  simp [State.clearCrossing, hnow]

/-- QCREATE starts where no command is in progress. -/
theorem State.writeMbcmd_qcreate (s : State) (f : Nat) (v : Dbl) (hidle : (s.func f).mbBusy = false)
    (hup : s.dev.schedulerUp = true) (hc : natBits v.toNat 7 0 = 1) :
    s.writeMbcmd f v = s.setFunc f { s.func f with mbBusy := true, mbCmd := 1 } := by
  simp [State.writeMbcmd, hidle, hup, hc]

/-- Outside stage 0x05 no register answers. -/
theorem execRegisterWrite_of_stage (s : State) (who bar off size : Nat) (v : Dbl) (h : s.dev.stage ≠ 5) :
    execRegisterWrite who bar off size v s = .next s := by
  have hl : s.barsLive = false := by
    rw [State.barsLive, beq_eq_false_iff_ne.mpr h, Bool.false_and]
  simp [execRegisterWrite, hl]

/-! ### Referrals (18 R421) -/

/-- A reply reaches the posted referral that ASRSEQ names, which is then outstanding no longer. -/
theorem execAssistReply_of_posted (s : State) (v : Dbl) (r : Referral)
    (hr : (s.referrals.find? fun r => r.posted && r.rseq == s.pf.asrseq.toNat) = some r) :
    execAssistReply v s = .next (State.answer { s with
      pf := { s.pf with asrval := v }, referrals := s.referrals.filter fun x => x.rseq != r.rseq } r v) := by
  simp only [execAssistReply, hr]

/-! ### Pre-emption requests and cuts (17 R398, R402, R403) -/

/-- The blocks that a request asks for: the function's running ones. -/
theorem State.mem_runningOf (s : State) (f b : Nat) (h : SMap.wf s.blocks {} = true) :
    b ∈ s.runningOf f none ↔ (s.block b).func = f ∧ (s.block b).place = .running := by
  simp only [State.runningOf, List.mem_map, List.mem_filter, Option.all_none, Bool.and_true, Bool.and_eq_true, beq_iff_eq]
  constructor
  · rintro ⟨⟨k, v⟩, ⟨hm, hf, hp⟩, rfl⟩
    obtain ⟨rfl, -⟩ := (SMap.mem_iff_get _ _ h k v).mp hm
    exact ⟨hf, hp⟩
  · rintro ⟨hf, hp⟩
    have hd : s.block b ≠ {} := fun he => by rw [he] at hp; exact absurd hp (by decide)
    exact ⟨(b, s.block b), ⟨(SMap.mem_iff_get _ _ h b _).mpr ⟨rfl, hd⟩, hf, hp⟩, rfl⟩

theorem State.runningOf_nodup (s : State) (f : Nat) (job : Option Nat) (h : SMap.wf s.blocks {} = true) :
    (s.runningOf f job).Nodup := by
  have hr : s.blocks.rising none = true := (Bool.and_eq_true_iff.mp h).1
  exact SMap.keys_nodup _ none (SMap.rising_filter _ _ _ hr)

/-- What does not read blocks does not see their changes. -/
theorem State.foldl_setBlock_other {β : Type} (p : State → β) (hp : ∀ s b k, p (State.setBlock s b k) = p s) (g : Block → Block)
    (l : List Nat) (s : State) : p (l.foldl (fun s b => s.setBlock b (g (s.block b))) s) = p s := by
  induction l generalizing s with
  | nil => rfl
  | cons a r ih => rw [List.foldl_cons, ih, hp]

/-- Each block of a list changes once, from where it stood. -/
theorem State.block_foldl_setBlock (g : Block → Block) (l : List Nat) (hn : l.Nodup) (s : State) (b : Nat) :
    (l.foldl (fun s b => s.setBlock b (g (s.block b))) s).block b = if b ∈ l then g (s.block b) else s.block b := by
  induction l generalizing s with
  | nil => simp
  | cons a r ih =>
    obtain ⟨ha, hr⟩ := List.nodup_cons.mp hn
    rw [List.foldl_cons, ih hr, State.block_setBlock]
    by_cases hb : b = a
    · subst hb; simp [ha]
    · simp [hb]

/-- What a cut asks of a running block: a save, or, of a save in progress, a full one of KIND 2 (17 R402, R406). -/
def Block.cut (k : Block) : Block :=
  if k.preempt then { k with fullSave := true, saveKind := 2 } else { k with preempt := true }

/-- CUT as one step on each running block of the function. -/
theorem execCut_eq (f : Nat) (s : State) : execCut f s =
    .next ((s.runningOf f none).foldl (fun s b => s.setBlock b (s.block b).cut) (s.setFunc f { s.func f with cut := true })) :=
  rfl

/-- After CUT the function is cut, its running blocks are asked for a save, and teams, HBM and every other block stay. -/
theorem execCut_leaves (f : Nat) (s : State) (hwf : SMap.wf s.blocks {} = true) :
    ∃ t, execCut f s = .next t ∧ (t.func f).cut = true ∧ t.teams = s.teams ∧ t.hbm = s.hbm ∧
      ∀ b, t.block b = if (s.block b).func = f ∧ (s.block b).place = .running then (s.block b).cut else s.block b := by
  refine ⟨_, execCut_eq f s, ?_, ?_, ?_, fun b => ?_⟩
  · rw [State.foldl_setBlock_other (fun u => (u.func f).cut) fun _ _ _ => rfl]
    exact congrArg Func.cut (s.func_setFunc_self f _)
  · exact State.foldl_setBlock_other State.teams (fun _ _ _ => rfl) _ _ _
  · exact State.foldl_setBlock_other State.hbm (fun _ _ _ => rfl) _ _ _
  · rw [State.block_foldl_setBlock _ _ (s.runningOf_nodup f none hwf), s.block_setFunc]
    simp only [s.mem_runningOf f b hwf]

/-- Without a cut in force there is nothing to resume. -/
theorem execCutResume_of_uncut (f : Nat) (s : State) (h : (s.func f).cut = false) : execCutResume f s = .next s := by
  simp [execCutResume, h]


/-! ### The statement -/

/-- Settles O49, clause by clause: a write reaches its register's operation, whose lemma says what it leaves; what an invalidation
waits for is `usesPages_iff`, and a cut is one step on each running block (`execCut_leaves`). -/
theorem hostRegisterWrites : Obligations.HostRegisterWrites := by
  unfold Obligations.HostRegisterWrites
  refine ⟨?partown, ?partownVf, ?quota, ?lofthbm, ?ptroot, ?invctl, ?invalidation, ?region, ?regionClear, ?own, ?stage,
    ?reply, ?timeout, ?saveFunction, ?saveJob, ?resumeFunction, ?resumeJob, ?cut, ?cutResume⟩
  case partown =>
    intro s p v hl hp o cur ho hne hcur hnew
    rw [exec_partownWrite_pf s p v hl, s.writePartown_of_allowed p v hp ho hne hcur hnew]
  case partownVf => exact fun who p v s hw => exec_partownWrite_vf s who p v hw
  case quota =>
    intro s f v hl hf x w
    have hw (o : Nat) (ho : o < 0x20) : exec (w o) s = .next (s.writeQuota f o v) := exec_quotaWrite_pf s f o v hl hf ho
    refine ⟨fun h => ?_, fun h => ?_, fun h => ?_, hw 0xC (by decide), hw 0x10 (by decide), hw 0x14 (by decide),
      hw 0x18 (by decide)⟩
    · rw [hw 0 (by decide), State.writeQuota, if_pos h]
    · rw [hw 4 (by decide), State.writeQuota, if_pos h]
    · rw [hw 8 (by decide), State.writeQuota, if_neg (by omega)]
      rfl
  case lofthbm =>
    intro s d v hl hd hr hv n u
    rw [exec_lofthbmWrite_pf s d v hl hd, s.writeLofthbm_of_free d v hr hv]
    exact ⟨_, rfl, rfl, State.mem_dropReserved_tlb _, State.mem_dropReserved_walks _⟩
  case ptroot =>
    intro s f v hl hf hlo hhi root u used
    have hused : s.usesPages f (fun _ => true) = true ↔ used := by simp [State.usesPages_iff, used]
    rw [exec_ptrootWrite_pf s f v hl hf, s.writePtroot_eq f v hlo hhi, State.dropTlb_all, State.staleWalks_eq]
    simp only [and_true]
    refine ⟨fun h => ?_, fun h => ?_⟩
    · rw [if_neg (mt hused.mp h)]
      rfl
    · rw [if_pos (hused.mpr h)]
      rfl
  case invctl =>
    intro s v hl hidle first hit
    rw [exec_invalidate_pf s v hl, s.writeInvctl_of_idle v hidle]
    refine ⟨_, rfl, rfl, List.length_map _, fun i r hr => ⟨fun h => ?_, fun h => ?_⟩⟩
    · simp only [List.getElem?_map, hr, Option.map_some, inRange_iff]
      exact congrArg some (if_pos h)
    · simp only [List.getElem?_map, hr, Option.map_some, inRange_iff]
      exact congrArg some (if_neg h)
  case invalidation =>
    intro s hgo hroots f first hit used
    have hhit (page : Nat) : s.pf.invHit page = true ↔ hit page := inRange_iff _ _ _ _
    have hused : s.usesPages f s.pf.invHit = true ↔ used := by simp only [State.usesPages_iff, hhit, used]
    have he : exec .invalidationComplete s = _ := execInvalidationComplete_of_go s hgo hroots
    by_cases hu : used
    · rw [if_pos (hused.mpr hu)] at he
      refine ⟨_, he, rfl, fun h => absurd hu h, fun _ => rfl, fun e => ?_, State.mem_dropTlb_walks _ _ _ _ _⟩
      rw [State.mem_dropTlb_tlb, inRange_iff]
    · rw [if_neg (mt hused.mp hu)] at he
      refine ⟨_, he, rfl, fun _ => rfl, fun h => absurd h hu, fun e => ?_, State.mem_dropTlb_walks s _ _ _ _⟩
      exact (State.mem_dropTlb_tlb s _ _ _ _ e).trans (by rw [inRange_iff])
  case region =>
    intro s who f i v hl hf hw hi x r put put' w
    have hbase : exec (.regionWrite who f (0x1000 + 16 * i) v) s = .next (s.writeRegion f (16 * i) v) :=
      exec_regionWrite_allowed s who f (16 * i) v hl hf hw (by omega)
    have hctl : exec (.regionWrite who f (0x1000 + 16 * i + 8) v) s = .next (s.writeRegion f (16 * i + 8) v) :=
      exec_regionWrite_allowed s who f (16 * i + 8) v hl hf hw (by omega)
    rw [hbase, hctl, State.writeRegion_rctl]
    refine ⟨fun hr => ?_, fun hr hv => ?_, fun hr hv hfit => ?_, fun hr hv => ?_⟩
    · rw [State.writeRegion_rbase s f i v hr]
      rfl
    · rw [if_neg (ne_true_of_eq_false hr), hv, Bool.false_and, if_neg Bool.false_ne_true]
      rfl
    · have hfit' : x.regionFits i { r with rctl := keep v 0x8000003FFFFFFFFF ||| (r.rctl &&& 0x4000000000000000) } = true := hfit
      rw [if_neg (ne_true_of_eq_false hr), hfit', Bool.not_true, Bool.and_false, if_neg Bool.false_ne_true]
      rfl
    · rw [if_pos hr, if_neg (ne_true_of_eq_false hv)]
      rfl
  case regionClear =>
    intro s f i r hpend hnone n
    exact execRegionClearDone_of_applied s f i hpend (s.regionLines_of_none f i hnone)
  case own =>
    intro s who v hl hw x w sets
    have h8 (o : Nat) (ho : o < 0x4000) := exec_registerWrite_own8 s who o v hl hw ho
    have h4 (o : Nat) (ho : o < 0x4000) := exec_registerWrite_own4 s who o v hl hw ho
    refine ⟨h8 _ (by decide), h8 _ (by decide), h8 _ (by decide), h8 _ (by decide), h4 _ (by decide), h8 _ (by decide),
      h8 _ (by decide), h4 _ (by decide), h8 _ (by decide), h4 _ (by decide), fun hp => ?_, fun hp h0 h1 => ?_,
      fun hp h0 => ?_, fun hb hup hc => ?_⟩
    · rw [h4 _ (by decide), State.writeOwn4_evtstat, if_neg (ne_true_of_eq_false hp)]
    · exact (h4 _ (by decide)).trans (by rw [State.writeOwn4_evtstat, if_pos hp, s.clearCrossing_of_none who h0 h1])
    · rw [h4 _ (by decide), State.writeOwn4_evtstat, if_pos hp, s.clearCrossing_of_latched who h0]
    · exact (h4 _ (by decide)).trans (congrArg _ (s.writeMbcmd_qcreate who v hb hup hc))
  case stage => exact fun s who bar off size v h => execRegisterWrite_of_stage s who bar off size v h
  case reply => exact fun s v r hr => execAssistReply_of_posted s v r hr
  case timeout =>
    intro s rseq r hr s1
    have he : exec (.assistTimeout rseq) s = execAssistTimeout rseq s := rfl
    simp only [he, execAssistTimeout, hr]
    refine ⟨fun hm => ?_, fun hm => ?_, fun hm => ?_, fun hm hrun => ?_, fun hm hrun => ?_, fun hm => ?_⟩
    · rw [if_pos hm]
    · simp [hm, s1]
    · simp [hm, s1]
    · simp [hm, s1, State.atomTimeout, hrun]
    · simp [hm, s1, State.atomTimeout, hrun]
    · simp [hm, s1]
  case saveFunction => exact fun s f => rfl
  case saveJob => exact fun s f job => rfl
  case resumeFunction => exact fun s f => rfl
  case resumeJob => exact fun s f job => rfl
  case cut =>
    intro s f hwf
    obtain ⟨t, ht, hfunc, hteams, hhbm, hblock⟩ := execCut_leaves f s hwf
    refine ⟨t, ht, hfunc, hteams, hhbm, fun b => (hblock b).trans ?_⟩
    simp only [decide_eq_true_eq]
    rfl
  case cutResume =>
    intro s f
    refine ⟨execCutResume_of_uncut f s, fun h => ?_⟩
    change execCutResume f s = _
    simp only [execCutResume, h, Bool.not_true, Bool.false_eq_true, if_false]
    rfl
end Sys2Proof.Machine
end

section
/-! PROOFS of the statements of bring-up, resets and device events (O48) and of the state after reset (O60): what each of these
events leaves, from what a black-box entry, a pass over the dies and a pass over the functions leave. -/
namespace Sys2Proof.Machine

/-! ### Passes over dies, functions and cores -/

/-- What each step of a pass leaves alone, the pass leaves alone. -/
theorem foldl_keeps {σ α β : Type} (p : σ → β) {step : σ → α → σ} {l : List α} {s : σ} (h : ∀ s a, p (step s a) = p s) :
    p (l.foldl step s) = p s := by
  induction l generalizing s with
  | nil => rfl
  | cons a r ih => rw [List.foldl_cons, ih, h]

/-- A pass whose step changes only the part that it visits changes each part of its list once, from where it stood. -/
theorem foldl_visits {σ α : Type} (part : σ → Nat → α) (g : Nat → α → α) (step : σ → Nat → σ)
    (h : ∀ s a b, part (step s a) b = if b = a then g a (part s a) else part s b) (l : List Nat) (hn : l.Nodup)
    (s : σ) (b : Nat) : part (l.foldl step s) b = if b ∈ l then g b (part s b) else part s b := by
  induction l generalizing s with
  | nil => simp
  | cons a r ih =>
    obtain ⟨ha, hr⟩ := List.nodup_cons.mp hn
    rw [List.foldl_cons, ih hr, h]
    by_cases hb : b = a
    · subst hb; simp [ha]
    · simp [hb]

/-- A pass over the four dies, each stored as a function of what it was. -/
theorem State.yard_foldl_setYard (g : Nat → Yard → Yard) (s : State) {d : Nat} (hd : d < 4) :
    ((List.range 4).foldl (fun t d => t.setYard d (g d (t.yard d))) s).yard d = g d (s.yard d) := by
  rw [foldl_visits State.yard g _ (fun t a b => t.yard_setYard a b _) _ List.nodup_range, if_pos (List.mem_range.mpr hd)]

/-- Such a pass changes only what is kept by die. -/
theorem State.foldl_setYard_eq (g : Nat → Yard → Yard) (l : List Nat) (s : State) :
    ∃ y, l.foldl (fun t d => t.setYard d (g d (t.yard d))) s = { s with yards := y } := by
  induction l generalizing s with
  | nil => exact ⟨s.yards, rfl⟩
  | cons a r ih => exact ih (s.setYard a (g a (s.yard a)))

/-- A pass over all functions whose step changes only the function that it visits. -/
theorem State.func_foldl_allFunctions (g : Func → Func) (step : State → Nat → State)
    (h : ∀ s a b, (step s a).func b = if b = a then g (s.func a) else s.func b) (s : State) {f : Nat} (hf : f < 193) :
    (allFunctions.foldl step s).func f = g (s.func f) := by
  rw [allFunctions, foldl_visits State.func (fun _ => g) step h _ List.nodup_range, if_pos (List.mem_range.mpr hf)]

/-- MBEVT bits are set in every function. -/
theorem State.func_eventAll (s : State) (bits : Word) {f : Nat} (hf : f < 193) :
    (s.eventAll bits).func f = { s.func f with mbEvt := (s.func f).mbEvt ||| bits } :=
  State.func_foldl_allFunctions (fun x => { x with mbEvt := x.mbEvt ||| bits }) _ (fun t a b => t.func_setFunc a b _) s hf

@[simp] theorem State.eventAll_dev (s : State) (bits : Word) : (s.eventAll bits).dev = s.dev :=
  foldl_keeps State.dev fun _ _ => rfl

@[simp] theorem State.eventAll_queues (s : State) (bits : Word) : (s.eventAll bits).queues = s.queues :=
  foldl_keeps State.queues fun _ _ => rfl

/-- The same value at the keys 1 to `n`. -/
theorem SMap.get_foldl_set_succ {α : Type} [DecidableEq α] (m : SMap α) (d v : α) (n i : Nat) :
    SMap.get ((List.range n).foldl (fun m k => SMap.set m d (k + 1) v) m) d i =
      if 1 ≤ i ∧ i ≤ n then v else SMap.get m d i := by
  induction n with
  | zero => rw [if_neg (by omega)]; rfl
  | succ k ih =>
    rw [List.range_succ, List.foldl_append, List.foldl_cons, List.foldl_nil, SMap.get_set, ih]
    by_cases hi : i = k + 1
    · rw [if_pos hi, if_pos (by omega)]
    · have hle : i ≤ k + 1 ↔ i ≤ k := by omega
      simp only [if_neg hi, hle]

/-- The scheduler's cores run together, or stand reset together (03 R81, R93). -/
theorem State.setScheduler_nolle (s : State) (up : Bool) {i : Nat} (h1 : 1 ≤ i) (h7 : i ≤ 7) :
    (s.setScheduler up).dev.nolle.get {} i = { mode := .scheduler, up := up } := by
  simp only [State.setScheduler, SMap.get_foldl_set_succ, if_pos (And.intro h1 h7)]

theorem State.setScheduler_dev (s : State) (up : Bool) : (s.setScheduler up).dev =
    { s.dev with schedulerUp := up, nolle := (s.setScheduler up).dev.nolle } := by
  simp only [State.setScheduler]

/-! ### Mailbox commands (03 R84) -/

/-- A function whose command has returned, without a detail. -/
def Func.mbReturned (x : Func) (result : Nat) : Func :=
  { x with mbBusy := false, mbCmd := 0, mbResult := BitVec.ofNat 16 result }

theorem State.mbDone_none (s : State) (f result : Nat) : s.mbDone f result none = s.setFunc f ((s.func f).mbReturned result) := rfl

@[simp] theorem State.func_mbDone_none (s : State) (f result : Nat) :
    (s.mbDone f result none).func f = (s.func f).mbReturned result := s.func_setFunc_self f _

theorem State.mbDone_mbBusy (s : State) (f result : Nat) : ((s.mbDone f result none).func f).mbBusy = false := by
  rw [State.func_mbDone_none, Func.mbReturned]

theorem State.mbDone_mbResult (s : State) (f result : Nat) :
    ((s.mbDone f result none).func f).mbResult = BitVec.ofNat 16 result := by
  rw [State.func_mbDone_none, Func.mbReturned]

@[simp] theorem State.mbDone_dev (s : State) (f result : Nat) (detail : Option Nat) : (s.mbDone f result detail).dev = s.dev := rfl

/-- A command that returns sets no MBEVT bit. -/
theorem State.mbDone_mbEvt (s : State) (f result g : Nat) :
    ((s.mbDone f result none).func g).mbEvt = (s.func g).mbEvt := by
  rw [State.mbDone_none, State.func_setFunc]
  split
  · next h => rw [h]; rfl
  · rfl

theorem State.schedulerUp_of_mbHas {s : State} {f c : Nat} (h : s.mbHas f c = true) : s.dev.schedulerUp = true :=
  (Bool.and_eq_true_iff.mp h).2

/-! ### Black-box entries (18 R417) -/

@[simp] theorem State.bbEvent_func (s : State) (d k v f : Nat) : (s.bbEvent d k v).func f = s.func f := rfl
@[simp] theorem State.bbEvent_dev (s : State) (d k v : Nat) : (s.bbEvent d k v).dev = s.dev := rfl

/-- An entry changes the black box of its die alone, and marks it as written in this cycle. -/
theorem State.bbEvent_eq (s : State) (d k v : Nat) : s.bbEvent d k v =
    ({ s with marks := s.marks.set 0 (bbMark d) 1 } : State).setYard d
      { s.yard d with bbox := ((s.bbEvent d k v).yard d).bbox, bbhead := (s.yard d).bbhead + 1 } := by
  simp only [State.bbEvent, State.yard_setYard_self]

@[simp] theorem State.bbEvent_bbhead (s : State) (d k v : Nat) : ((s.bbEvent d k v).yard d).bbhead = (s.yard d).bbhead + 1 :=
  congrArg Yard.bbhead (State.yard_setYard_self _ d _)

/-- An entry changes no clock. -/
@[simp] theorem State.bbEvent_coreMHz (s : State) (d k v e : Nat) :
    ((s.bbEvent d k v).yard e).coreMHz = (s.yard e).coreMHz := by
  rw [State.bbEvent_eq, State.yard_setYard]
  split
  · next h => rw [h]
  · rfl

theorem xorBytes_lt (v n : Nat) : xorBytes v n < 256 := by
  induction n generalizing v with
  | zero => exact Nat.two_pow_pos 8
  | succ k ih => exact Nat.xor_lt_two_pow (n := 8) (Nat.mod_lt _ (by decide)) (ih _)

theorem keepNewest_getLast? (l : List (BitVec 512)) (e : BitVec 512) : (keepNewest (l ++ [e])).getLast? = some e := by
  simp [keepNewest, List.getLast?_drop]

/-- The newest entry holds its head, its CHECK in one byte, and its data from byte 16 on. -/
theorem State.bbEvent_newest (s : State) (d k v : Nat) : ∃ time boots check, time < 2 ^ 64 ∧ boots < 2 ^ 32 ∧ check < 256 ∧
    ((s.bbEvent d k v).yard d).bbox.getLast? = some (BitVec.ofNat 512
      (time + boots * 2 ^ 64 + k % 65536 * 2 ^ 96 + d * 2 ^ 112 + check * 2 ^ 120 + v % 2 ^ 384 * 2 ^ 128)) := by
  have htime : (if s.dev.stage = 5 then s.cycle.toNat else 0) < 2 ^ 64 := by
    split
    · exact s.cycle.isLt
    · decide
  refine ⟨_, _, ?c, htime, s.dev.boots.isLt, ?check, ?entry⟩
  case entry =>
    simp only [State.bbEvent, State.yard_setYard_self, keepNewest_getLast?]
    rfl
  case check => exact Nat.xor_lt_two_pow (n := 8) (xorBytes_lt _ 15) (xorBytes_lt _ 48)

/-- A field of a word given as a number. -/
theorem extractLsb'_ofNat_of_le (N n lo w : Nat) (h : lo + w ≤ N) :
    (BitVec.ofNat N n).extractLsb' lo w = BitVec.ofNat w (n / 2 ^ lo) := by
  refine BitVec.eq_of_getLsbD_eq fun i hi => ?_
  have hlo : lo + i < N := by omega
  rw [BitVec.getLsbD_extractLsb', BitVec.getLsbD_ofNat, BitVec.getLsbD_ofNat, Nat.testBit_div_two_pow]
  simp only [hi, hlo, decide_true, Bool.true_and, Nat.add_comm]

/-- KIND of the newest entry, and the first fields of its DATA. -/
theorem State.bbEvent_fields (s : State) (d k v : Nat) (hd : d < 256) :
    (((s.bbEvent d k v).yard d).bbox.getLast?.map fun e =>
      (e.extractLsb' 96 16, e.extractLsb' 128 32, e.extractLsb' 160 64)) =
    some (BitVec.ofNat 16 k, BitVec.ofNat 32 v, BitVec.ofNat 64 (v / 2 ^ 32)) := by
  obtain ⟨time, boots, check, ht, hb, hc, he⟩ := s.bbEvent_newest d k v
  rw [he, Option.map_some, extractLsb'_ofNat_of_le _ _ _ _ (by decide), extractLsb'_ofNat_of_le _ _ _ _ (by decide),
    extractLsb'_ofNat_of_le _ _ _ _ (by decide)]
  simp only [Option.some.injEq, Prod.mk.injEq, ← BitVec.toNat_inj, BitVec.toNat_ofNat]
  refine ⟨?_, ?_, ?_⟩
  · omega
  · omega
  · omega

/-- A reset cuts off no entry, or the newest alone. -/
theorem State.cutEntry_cases (s : State) (d : Nat) : s.cutEntry d = (s.yard d).bbox ∨
    ∃ l e e', (s.yard d).bbox = l ++ [e] ∧ s.cutEntry d = l ++ [e'] := by
  unfold State.cutEntry
  simp only
  split
  · exact .inl rfl
  · rcases List.eq_nil_or_concat' (s.yard d).bbox with h | ⟨l, e, h⟩
    · exact .inl (by simp [h])
    · exact .inr ⟨l, e, _, h, by simp [h]; rfl⟩

theorem State.cutEntry_length (s : State) (d : Nat) : (s.cutEntry d).length = (s.yard d).bbox.length := by
  rcases s.cutEntry_cases d with h | ⟨l, e, e', hl, h⟩
  · rw [h]
  · simp [h, hl]

theorem State.cutEntry_dropLast (s : State) (d : Nat) : (s.cutEntry d).dropLast = (s.yard d).bbox.dropLast := by
  rcases s.cutEntry_cases d with h | ⟨l, e, e', hl, h⟩
  · rw [h]
  · simp [h, hl]

theorem State.cutEntry_of_unmarked (s : State) (d : Nat) (h : s.marks.get 0 (bbMark d) = 0) : s.cutEntry d = (s.yard d).bbox := by
  simp [State.cutEntry, h]

/-! ### Bring-up and resets (01 R32, R33) -/

/-- The stages of bring-up. -/
theorem stage_cases (b : BitVec 8) (h : b.toNat < 5) : b = 0 ∨ b = 1 ∨ b = 2 ∨ b = 3 ∨ b = 4 := by
  bv_omega

/-- The work of a stage writes no register of the PF or of a function, and no HALTCODE. -/
theorem State.stageWork_frame (s : State) : s.stageWork.pf = s.pf ∧ s.stageWork.funcs = s.funcs ∧
    s.stageWork.queues = s.queues ∧ s.stageWork.dev.haltcode = s.dev.haltcode := by
  unfold State.stageWork
  split <;> exact ⟨rfl, rfl, rfl, rfl⟩

/-- HBM is written zero in stage 2, and the vaults in stage 3. -/
theorem State.stageWork_memories (s : State) (h : s.dev.stage.toNat < 5) :
    s.stageWork.hbm = (if s.dev.stage = 2 then [] else s.hbm) ∧
    s.stageWork.vaults = (if s.dev.stage = 3 then [] else s.vaults) := by
  unfold State.stageWork
  rcases stage_cases _ h with h | h | h | h | h <;> rw [h] <;> exact ⟨rfl, rfl⟩

/-- The scheduler starts with the end of stage 4. -/
theorem State.stageWork_last (s : State) (h : s.dev.stage = 4) :
    s.stageWork.cycle = 0 ∧ s.stageWork.reserved = Config.bootReserved ∧ s.stageWork.dev.schedulerUp = true := by
  unfold State.stageWork
  rw [h]
  exact ⟨rfl, rfl, rfl⟩

theorem execBootStageComplete_of_passes (s : State) (c : Nat) (hs : s.dev.stage.toNat < 5) (hr : s.dev.railsOff = false)
    (hc : s.stageFails c = 0) : execBootStageComplete c s =
      .next { s.stageWork with dev := { s.stageWork.dev with stage := s.dev.stage + 1 } } := by
  simp [execBootStageComplete, Nat.not_le.mpr hs, hr, hc]

theorem execBootStageComplete_of_fails (s : State) (c : Nat) (hs : s.dev.stage.toNat < 5) (hr : s.dev.railsOff = false)
    (hc : s.stageFails c ≠ 0) : execBootStageComplete c s = .next (s.haltDevice (s.stageFails c)) := by
  simp [execBootStageComplete, Nat.not_le.mpr hs, hr, hc]

/-- A warm reset before it looks at the black boxes: a restart that counts itself and keeps HBM and the vaults. -/
def State.warmStart (s : State) : State :=
  { s.restart with hbm := s.hbm, vaults := s.vaults, dev := { s.restart.dev with boots := s.dev.boots + 1 } }

/-- A die that takes over its black box. -/
def State.keepBox (s : State) (d : Nat) (y : Yard) : Yard := { y with bbox := s.cutEntry d, bbhead := (s.yard d).bbhead }

/-- A warm reset keeps of the Yards the black boxes alone. -/
theorem execWarmReset_eq (s : State) : ∃ y, execWarmReset s = .next { s.warmStart with yards := y } ∧
    ∀ d, d < 4 → SMap.get y {} d = s.keepBox d {} := by
  obtain ⟨y, hy⟩ := State.foldl_setYard_eq s.keepBox (List.range 4) s.warmStart
  refine ⟨y, congrArg Host.Outcome.next hy, fun d hd => ?_⟩
  have hyard := State.yard_foldl_setYard s.keepBox s.warmStart hd
  rw [hy] at hyard
  exact hyard

/-! ### Clocks (01 R24) -/

theorem State.setClocks_dev (s : State) (core fabric : Nat) :
    (s.setClocks core fabric).dev = { s.dev with fabricMHz := fabric } :=
  foldl_keeps State.dev fun _ _ => rfl

theorem State.setClocks_coreMHz (s : State) (core fabric : Nat) {d : Nat} (hd : d < 4) :
    ((s.setClocks core fabric).yard d).coreMHz = core :=
  congrArg Yard.coreMHz (State.yard_foldl_setYard (fun _ y => { y with coreMHz := core }) _ hd)

/-- A change of the clocks, with its entry in the black box. -/
theorem State.thermalEvent_setClocks (s : State) (temps : List Nat) (core fabric clock : Nat) :
    ((s.setClocks core fabric).thermalEvent temps clock).dev = { s.dev with fabricMHz := fabric } ∧
    ∀ d, d < 4 → (((s.setClocks core fabric).thermalEvent temps clock).yard d).coreMHz = core := by
  unfold State.thermalEvent
  refine ⟨?_, fun d hd => ?_⟩
  · rw [State.bbEvent_dev, State.setClocks_dev]
  · rw [State.bbEvent_coreMHz, s.setClocks_coreMHz core fabric hd]

/-- A die above 100 °C lowers the clocks. -/
theorem execThermalStep_of_hot (s : State) (temps : List Nat) (hr : s.dev.railsOff = false) (h : ∃ x ∈ temps, 100 < x) :
    execThermalStep temps s = .next ((({ s with dev := { s.dev with throttling := true } } : State).setClocks
      ((s.yard 0).coreMHz - 100) (s.dev.fabricMHz - 100)).thermalEvent temps ((s.yard 0).coreMHz - 100)) := by
  have hot : temps.any (fun t => 100 < t) = true := by simpa using h
  simp only [execThermalStep, hr, hot, Bool.true_or, Bool.false_eq_true, if_false, if_true]

/-- Dies at or below 95 °C have the clocks restored. -/
theorem execThermalStep_of_cool (s : State) (temps : List Nat) (hr : s.dev.railsOff = false) (h : ∀ x ∈ temps, x ≤ 95)
    (hlow : (s.yard 0).coreMHz < 1200 ∨ s.dev.fabricMHz < 2400) :
    execThermalStep temps s = .next ((({ s with dev := { s.dev with throttling := false } } : State).setClocks
      (min 1200 ((s.yard 0).coreMHz + 100)) (min 2400 (s.dev.fabricMHz + 100))).thermalEvent temps
        (min 1200 ((s.yard 0).coreMHz + 100))) := by
  have hany (n : Nat) (hn : 95 ≤ n) : temps.any (fun t => n < t) = false := by
    simpa using fun x hx => (h x hx).trans hn
  have hlow' : (decide ((s.yard 0).coreMHz < 1200) || decide (s.dev.fabricMHz < 2400)) = true := by simpa using hlow
  simp only [execThermalStep, hr, hany 100 (by decide), hany 95 (by decide), hlow', Bool.and_false, Bool.or_false,
    Bool.false_eq_true, if_false, if_true]

theorem execThermalTrip_of_hot (s : State) (temps : List Nat) (h : ∃ x ∈ temps, 115 ≤ x) : execThermalTrip temps s =
    .next (({ s with dev := { s.dev with railsOff := true } } : State).thermalEvent temps (Config.freePick s.stamp 0)) :=
  if_pos (by simpa using h)

/-! ### The watchdog (03 R93) -/

@[simp] theorem State.schedulerDown_dev (s : State) : s.schedulerDown.dev = (s.setScheduler false).dev := rfl

theorem State.schedulerDown_bbhead (s : State) : (s.schedulerDown.yard 0).bbhead = (s.yard 0).bbhead + 1 := by
  rw [State.schedulerDown, State.bbEvent_bbhead]
  rfl

/-- A command that the reset cut off changes at most its queue. -/
theorem State.cutCommand_eq (s : State) (f : Nat) : s.cutCommand f = { s with queues := (s.cutCommand f).queues } := by
  unfold State.cutCommand
  simp only
  split
  · rfl
  · split
    · split <;> rfl
    · split <;> rfl
    · rfl

theorem State.cutCommand_funcs (s : State) (f : Nat) : (s.cutCommand f).funcs = s.funcs := by rw [State.cutCommand_eq]
theorem State.cutCommand_dev (s : State) (f : Nat) : (s.cutCommand f).dev = s.dev := by rw [State.cutCommand_eq]

/-- Only QCREATE and QDESTROY leave their effect. -/
theorem State.cutCommand_of_other (s : State) (f : Nat)
    (h : (s.func f).mbBusy = true → (s.func f).mbCmd ≠ 1 ∧ (s.func f).mbCmd ≠ 2) : s.cutCommand f = s := by
  unfold State.cutCommand
  simp only
  split
  · rfl
  · next hb =>
    have hbusy : (s.func f).mbBusy = true := by
      cases hm : (s.func f).mbBusy with
      | true => rfl
      | false => simp [hm] at hb
    split
    · next hc => exact absurd hc (h hbusy).1
    · next hc => exact absurd hc (h hbusy).2
    · rfl

/-- What RESTART leaves of a function's mailbox (03 R93): a command in progress returns 0x0008. -/
def Func.restarted (x : Func) : Func := if x.mbBusy then x.mbReturned 0x0008 else x

/-- RESTART of one function. -/
def State.restartMailbox (s : State) (f : Nat) : State := if (s.func f).mbBusy then s.mbDone f 0x0008 none else s

theorem State.func_restartMailbox (s : State) (f b : Nat) :
    (s.restartMailbox f).func b = if b = f then (s.func f).restarted else s.func b := by
  unfold State.restartMailbox Func.restarted
  split
  · rw [State.mbDone_none, State.func_setFunc]
  · split
    · next h => rw [h]
    · rfl

/-- Every queue is rebuilt from its control block. -/
def State.rebuildQueues (s : State) : State := { s with queues := s.queues.map fun q => (q.1, q.2.rebuild) }

@[simp] theorem State.rebuildQueues_dev (s : State) : s.rebuildQueues.dev = s.dev := rfl
@[simp] theorem State.rebuildQueues_func (s : State) (f : Nat) : s.rebuildQueues.func f = s.func f := rfl

/-- A restart: queues after the commands that the reset cut off, then mailboxes, then MBEVT. -/
theorem State.schedulerRestart_eq (s : State) : s.schedulerRestart = (allFunctions.foldl State.restartMailbox
    (allFunctions.foldl State.cutCommand (s.setScheduler true)).rebuildQueues).eventAll 2 := rfl

theorem State.restartMailbox_dev (s : State) (f : Nat) : (s.restartMailbox f).dev = s.dev := by
  unfold State.restartMailbox; split <;> rfl

theorem State.restartMailbox_queues (s : State) (f : Nat) : (s.restartMailbox f).queues = s.queues := by
  unfold State.restartMailbox; split <;> rfl

@[simp] theorem State.schedulerRestart_dev (s : State) : s.schedulerRestart.dev = (s.setScheduler true).dev := by
  rw [State.schedulerRestart_eq, State.eventAll_dev, foldl_keeps State.dev State.restartMailbox_dev, State.rebuildQueues_dev,
    foldl_keeps State.dev State.cutCommand_dev]

theorem State.schedulerRestart_func (s : State) {f : Nat} (hf : f < 193) :
    s.schedulerRestart.func f = { (s.func f).restarted with mbEvt := (s.func f).mbEvt ||| 2 } := by
  have hcut : (allFunctions.foldl State.cutCommand (s.setScheduler true)).func f = s.func f := by
    rw [State.func, foldl_keeps State.funcs State.cutCommand_funcs]
    rfl
  have hevt : (s.func f).restarted.mbEvt = (s.func f).mbEvt := by unfold Func.restarted; split <;> rfl
  rw [State.schedulerRestart_eq, State.func_eventAll _ _ hf,
    State.func_foldl_allFunctions Func.restarted _ State.func_restartMailbox _ hf, State.rebuildQueues_func, hcut, hevt]

/-- Where no QCREATE or QDESTROY was in progress, a restart rebuilds the queues and does no more to them. -/
theorem State.schedulerRestart_queues (s : State)
    (h : ∀ f, f < 193 → (s.func f).mbBusy = true → (s.func f).mbCmd ≠ 1 ∧ (s.func f).mbCmd ≠ 2) :
    s.schedulerRestart.queues = s.queues.map fun q => (q.1, q.2.rebuild) := by
  have hcut : allFunctions.foldl State.cutCommand (s.setScheduler true) = s.setScheduler true :=
    foldl_of_fixed _ _ _ fun f hf => State.cutCommand_of_other _ f (h f (List.mem_range.mp hf))
  rw [State.schedulerRestart_eq, State.eventAll_queues, foldl_keeps State.queues State.restartMailbox_queues, hcut]
  rfl

theorem Func.restarted_mbBusy (x : Func) : x.restarted.mbBusy = false := by
  unfold Func.restarted
  split
  · rfl
  · next h => simpa using h

theorem Func.restarted_mbResult (x : Func) (h : x.mbBusy = true) : x.restarted.mbResult = 0x0008 := by
  rw [Func.restarted, if_pos h]
  rfl

theorem execWatchdogRestart_of_stage (s : State) (h : s.dev.stage = 5) :
    execWatchdogRestart s = .next (if s.dev.schedulerUp then s.schedulerDown else s.schedulerRestart) := by
  rw [execWatchdogRestart, if_neg (not_not.mpr h), apply_ite Host.Outcome.next]

/-! ### Firmware and attestation (01 R37; 03 R94 to R96) -/

@[simp] theorem State.fwEvent_dev (s : State) (ver : Word) (result : Nat) : (s.fwEvent ver result).dev = s.dev := rfl
@[simp] theorem State.fwEvent_func (s : State) (ver : Word) (result f : Nat) : (s.fwEvent ver result).func f = s.func f := rfl

/-- An image that the PF has named and that can be read is refused for its signature or digest, or for its security version, or is
staged. -/
theorem execFwstage_of_read (s : State) (img : List Byte) (h : s.mbHas 0 0x10 = true)
    (hroom : s.devRoom 0 (s.func 0).mbArg0.toNat (s.func 0).mbArg1.toNat = true)
    (himg : (s.devReach 0 (s.func 0).mbArg0.toNat (s.func 0).mbArg1.toNat).devBytes 0 (s.func 0).mbArg0.toNat
      (s.func 0).mbArg1.toNat = some img) :
    let s1 := s.devReach 0 (s.func 0).mbArg0.toNat (s.func 0).mbArg1.toNat
    let f := Config.fwFields img
    execFwstage s =
      if !(Config.fwSigned img && Config.fwDigest img) then .next ((s1.fwEvent f.1 4).mbDone 0 4 none)
      else if f.2.2 < s.dev.fuse then .next ((s1.fwEvent f.1 5).mbDone 0 5 none)
      else .next (({ s1 with dev := { s1.dev with
        staged := some { ver := f.1, layout := f.2.1, sec := f.2.2, image := img } } } : State).mbDone 0 0 none) := by
  simp only [execFwstage, h, hroom, himg, Bool.not_true, Bool.false_eq_true, if_false]

theorem execFwfuse_of_command (s : State) (h : s.mbHas 0 0x12 = true) : execFwfuse s =
    .next (({ s with dev := { s.dev with fuse := max s.dev.fuse s.dev.secver } } : State).mbDone 0 0 none) := by
  simp only [execFwfuse, h, Bool.not_true, Bool.false_eq_true, if_false]

theorem execFwactivate_of_unstaged (s : State) (w : WatchdogMeet) (h : s.mbHas 0 0x11 = true) (hs : s.dev.staged = none) :
    execFwactivate w s = .next ((s.fwEvent 0 2).mbDone 0 2 none) := by
  simp only [execFwactivate, h, hs, Bool.not_true, Bool.false_eq_true, if_false]

/-- An activation that nothing refuses, by where the watchdog meets it. -/
theorem execFwactivate_of_staged (s : State) (w : WatchdogMeet) (im : FwImage) (h : s.mbHas 0 0x11 = true)
    (hs : s.dev.staged = some im) (hsave : s.saveInProgress = false) (hlay : s.saveBlocks im.layout.toNat = false) :
    let m := (s.measure 5 im.image).switchFirmware im
    execFwactivate w s = .next (match w with
      | .none => ((m.eventAll 4).fwEvent im.ver 0).mbDone 0 0 none
      | .beforeSwitch => State.schedulerRestart
          (if Config.freePick s.stamp 0 % 2 = 0 then s else s.measure 5 im.image).schedulerDown
      | .afterSwitch => (m.fwEvent im.ver 8).schedulerDown.schedulerRestart) := by
  simp only [execFwactivate, h, hs, hsave, hlay, Bool.not_true, Bool.false_eq_true, if_false]
  cases w <;> rfl

/-- ATTEST by the mailbox, of a nonce that can be read: the report is written, or the destination refuses it. -/
theorem execAttest_of_read (s : State) (b : List Byte) (h : s.mbHas 0 0x13 = true)
    (hroom : s.devRoom 0 (s.func 0).mbArg0.toNat 32 = true)
    (hb : (s.devReach 0 (s.func 0).mbArg0.toNat 32).devBytes 0 (s.func 0).mbArg0.toNat 32 = some b) :
    let s1 := s.devReach 0 (s.func 0).mbArg0.toNat 32
    let r := s1.report b
    execAttest none s =
      if s1.devPagesOk 0 .write (s.func 0).mbArg1.toNat r.length then
        .next ((s1.devWriteBytes 0 (s.func 0).mbArg1.toNat r r.length).mbDone 0 0 none)
      else .next (s1.mbDone 0 2 none) := by
  simp only [execAttest, h, hroom, hb, Bool.not_true, Bool.false_eq_true, if_false]

/-! ### Links and read-back (01 R28; 18 R417, R418) -/

theorem execLinkReset_of_allowed (s : State) (port : Nat) (up : Bool) (cause seqs : Nat) (hp : port < 16)
    (hup : up = true → s.dev.stage = 5 ∧ s.dev.portOn.getLsbD port = true) : execLinkReset port up cause seqs s =
      .next (({ s with ports := s.ports.set 0 port (if up then 1 else 0) } : State).bbEvent 0 0x03
        (port + cause % 2 ^ 32 * 2 ^ 32 + seqs % 2 ^ 64 * 2 ^ 64)) := by
  refine if_neg ?_
  cases up with
  | false => simpa using hp
  | true =>
    obtain ⟨hs, ho⟩ := hup rfl
    simpa [hs, ho] using hp

theorem execReadback_of_go (s : State) (h : s.pf.rbctl.getLsbD 31 = true) :
    let a := s.pf.rbaddr.toNat
    let r := s.readUnit (natBits a 63 56) (natBits a 55 40) (natBits a 39 6 * 64)
    execReadback s = .next { s with pf := { s.pf with rbctl := if r.isSome then 0 else 1, rbdata := r.getD 0 } } := by
  simp only [execReadback, h, Bool.not_true, Bool.false_eq_true, if_false]
  split <;> next hr => rw [hr]; rfl

/-! ### The statements -/

/-- Settles O48, event by event: each event's lemma says what state it leaves, and the passes over dies and functions and the
black-box entry say the fields of that state. -/
theorem deviceEvents : Obligations.DeviceEvents := by
  unfold Obligations.DeviceEvents
  refine ⟨?bringUp, ?cold, ?warm, ?clocks, ?trip, ?watchdog, ?fwstage, ?unstaged, ?activate, ?fuse, ?sideband, ?attest, ?link,
    ?corrected, ?uncorrected, ?dropped, ?readback⟩
  case bringUp =>
    intro s c hs hr
    refine ⟨fun hc => ?_, fun hc => ⟨_, execBootStageComplete_of_fails s c hs hr hc, rfl, rfl⟩⟩
    obtain ⟨hpf, hfuncs, hqueues, hhalt⟩ := s.stageWork_frame
    obtain ⟨hhbm, hvaults⟩ := s.stageWork_memories hs
    exact ⟨_, execBootStageComplete_of_passes s c hs hr hc, rfl, hhalt, hpf, hfuncs, hqueues, hhbm, hvaults, s.stageWork_last⟩
  case cold => exact fun s => ⟨s.restart, rfl, rfl, rfl, rfl, rfl, rfl, rfl, rfl, rfl, rfl, rfl, rfl, rfl, rfl, rfl, rfl⟩
  case warm =>
    intro s
    obtain ⟨y, he, hy⟩ := execWarmReset_eq s
    refine ⟨_, he, rfl, rfl, rfl, rfl, rfl, rfl, rfl, rfl, fun d hd => ?_⟩
    simp only [State.yard, hy d hd]
    exact ⟨rfl, s.cutEntry_of_unmarked d, s.cutEntry_length d, s.cutEntry_dropLast d, rfl, rfl⟩
  case clocks =>
    intro s temps hr core fabric clocks
    refine ⟨fun hot => ?_, fun cool low => ?_⟩
    · obtain ⟨hdev, hcore⟩ := State.thermalEvent_setClocks { s with dev := { s.dev with throttling := true } } temps
        (core - 100) (fabric - 100) (core - 100)
      exact ⟨_, execThermalStep_of_hot s temps hr hot, ⟨by rw [hdev], hcore⟩, by rw [hdev]⟩
    · obtain ⟨hdev, hcore⟩ := State.thermalEvent_setClocks { s with dev := { s.dev with throttling := false } } temps
        (min 1200 (core + 100)) (min 2400 (fabric + 100)) (min 1200 (core + 100))
      exact ⟨_, execThermalStep_of_cool s temps hr cool low, ⟨by rw [hdev], hcore⟩, by rw [hdev]⟩
  case trip =>
    exact fun s temps hot => ⟨_, execThermalTrip_of_hot s temps hot, rfl, State.bbEvent_bbhead _ _ _ _⟩
  case watchdog =>
    intro s hstage cores
    have he : exec .watchdogRestart s = _ := execWatchdogRestart_of_stage s hstage
    refine ⟨fun hup => ?_, fun hdown => ?_⟩
    · rw [if_pos hup] at he
      refine ⟨_, he, ⟨s.setScheduler_dev false, fun i h1 h7 => ?_⟩, rfl, rfl, s.schedulerDown_bbhead⟩
      rw [State.schedulerDown_dev, s.setScheduler_nolle false h1 h7]
    · rw [if_neg (ne_true_of_eq_false hdown)] at he
      refine ⟨_, he, ⟨?_, fun i h1 h7 => ?_⟩, s.schedulerRestart_queues, fun f hf => ?_⟩
      · rw [State.schedulerRestart_dev]
        exact s.setScheduler_dev true
      · rw [State.schedulerRestart_dev, s.setScheduler_nolle true h1 h7]
      · rw [s.schedulerRestart_func hf]
        exact ⟨rfl, Func.restarted_mbBusy _, Func.restarted_mbResult _⟩
  case fwstage =>
    intro s img h v s1 f hroom himg
    have he : exec .fwstage s = _ := execFwstage_of_read s img h hroom himg
    by_cases hsig : (!(Config.fwSigned img && Config.fwDigest img)) = true
    · rw [if_pos hsig] at he
      refine ⟨_, he, State.mbDone_mbBusy _ _ _, ?_⟩
      rw [if_pos hsig]
      exact ⟨rfl, State.mbDone_mbResult _ _ _⟩
    by_cases hsec : f.2.2 < s.dev.fuse
    · rw [if_neg hsig, if_pos hsec] at he
      refine ⟨_, he, State.mbDone_mbBusy _ _ _, ?_⟩
      rw [if_neg hsig, if_pos hsec]
      exact ⟨rfl, State.mbDone_mbResult _ _ _⟩
    · rw [if_neg hsig, if_neg hsec] at he
      refine ⟨_, he, State.mbDone_mbBusy _ _ _, ?_⟩
      rw [if_neg hsig, if_neg hsec]
      exact ⟨rfl, State.mbDone_mbResult _ _ _⟩
  case unstaged =>
    intro s w h hs
    exact ⟨_, execFwactivate_of_unstaged s w h hs, rfl, State.mbDone_mbBusy _ _ _, State.mbDone_mbResult _ _ _,
      State.bbEvent_bbhead _ _ _ _⟩
  case activate =>
    intro s w im h hs hsave hlay
    have he : exec (.fwactivate w) s = _ := execFwactivate_of_staged s w im h hs hsave hlay
    refine ⟨_, he, ?_⟩
    cases w with
    | none =>
      refine ⟨?_, nofun, fun _ => ?_, fun _ =>
        ⟨State.mbDone_mbBusy _ _ _, State.mbDone_mbResult _ _ _, fun f hf => ?_⟩⟩
      · rw [State.mbDone_dev, State.fwEvent_dev, State.eventAll_dev]
        exact State.schedulerUp_of_mbHas h
      · rw [State.mbDone_dev, State.fwEvent_dev, State.eventAll_dev]
        exact ⟨rfl, rfl, rfl, rfl⟩
      · rw [State.mbDone_mbEvt, State.fwEvent_func, State.func_eventAll _ _ hf]
        rfl
    | beforeSwitch =>
      refine ⟨?_, fun _ => ?_, fun hw => absurd rfl hw, nofun⟩
      · rw [State.schedulerRestart_dev, State.setScheduler_dev]
      · rw [State.schedulerRestart_dev, State.setScheduler_dev, State.schedulerDown_dev, State.setScheduler_dev]
        split <;> exact ⟨rfl, hs⟩
    | afterSwitch =>
      refine ⟨?_, nofun, fun _ => ?_, nofun⟩
      · rw [State.schedulerRestart_dev, State.setScheduler_dev]
      · rw [State.schedulerRestart_dev, State.setScheduler_dev, State.schedulerDown_dev, State.setScheduler_dev,
          State.fwEvent_dev]
        exact ⟨rfl, rfl, rfl, rfl⟩
  case fuse => exact execFwfuse_of_command
  case sideband => exact fun s b hb => if_pos hb
  case attest =>
    intro s b h v s1 r w hroom hb
    have he : exec (.attest none) s = _ := execAttest_of_read s b h hroom hb
    by_cases hd : s1.devPagesOk 0 .write v.mbArg1.toNat r.length = true
    · rw [if_pos hd] at he
      refine ⟨_, he, State.mbDone_mbBusy _ _ _, ?_⟩
      rw [if_pos hd, State.func_mbDone_none]
      exact ⟨rfl, rfl⟩
    · rw [if_neg hd] at he
      refine ⟨_, he, State.mbDone_mbBusy _ _ _, ?_⟩
      rw [if_neg hd, State.func_mbDone_none]
      exact ⟨rfl, rfl⟩
  case link =>
    exact fun s port up cause seqs hp hup =>
      ⟨_, execLinkReset_of_allowed s port up cause seqs hp hup, rfl, State.bbEvent_bbhead _ _ _ _⟩
  case corrected => exact fun s die struc addr => rfl
  case uncorrected =>
    intro s die struc addr hd
    have hstruc : BitVec.ofNat 32 (struc % 2 ^ 32 + addr.toNat * 2 ^ 32) = BitVec.ofNat 32 struc := by
      simp only [← BitVec.toNat_inj, BitVec.toNat_ofNat]
      omega
    have haddr : BitVec.ofNat 64 ((struc % 2 ^ 32 + addr.toNat * 2 ^ 32) / 2 ^ 32) = addr := by
      simp only [← BitVec.toNat_inj, BitVec.toNat_ofNat]
      omega
    refine ⟨_, rfl, s.bbEvent_eq die _ _, ?_⟩
    rw [s.bbEvent_fields die _ _ (by omega), hstruc, haddr]
    rfl
  case dropped => exact fun s port hp => congrArg Host.Outcome.next (if_pos hp)
  case readback => exact execReadback_of_go

/-- Settles O60: nothing is listed after reset, so every part reads as its default, which holds the values of its rules. -/
theorem resetState : Obligations.ResetState := by
  unfold Obligations.ResetState
  refine ⟨State.reset_memWf, rfl, rfl, rfl, fun _ => rfl, rfl, rfl, rfl, rfl, ?funcs, ?yards, ?cores, ?lanes, fun _ => rfl,
    fun _ => rfl, fun _ => rfl⟩
  case funcs => exact fun _ => ⟨rfl, rfl, rfl, rfl, rfl, rfl, rfl, rfl⟩
  case yards => exact fun _ => ⟨rfl, rfl, rfl, rfl, rfl, rfl, rfl, rfl⟩
  case cores => exact fun _ => ⟨rfl, rfl, rfl⟩
  case lanes => exact fun _ _ => ⟨rfl, rfl, rfl⟩
end Sys2Proof.Machine
end

section
/-! PROOFS of the statement of policy bytecode (O47): what each policy instruction leaves of a running event and of its
function. -/
namespace Sys2Proof.Machine
open Claims

/-! ### One instruction of a running event (03 R87, R90) -/

/-- A policy event goes to an instruction as the statements say it. -/
theorem PolicyRun.goto_eq_policyAt (p : PolicyRun) (pc : Nat) : p.goto pc = policyAt p pc := by
  unfold PolicyRun.goto policyAt
  cases p.loop with
  | none => rfl
  | some l =>
    dsimp only
    rw [ite_not]
    rfl

/-- Going on after a write of q_d. -/
theorem PolicyRun.advance_setReg (p : PolicyRun) (d : BitVec 4) (v : Dbl) : (p.setReg d v).advance = policySets p d v :=
  PolicyRun.goto_eq_policyAt _ _

section
variable {s : State} {p : PolicyRun} (hp : s.policy = some p ∧ p.ended = false)
include hp

/-- An instruction of an event that has not ended has its effect. -/
theorem npbInstr_of_runs (f : PolicyRun → State) : npbInstr s f = .next (f p) := by
  obtain ⟨hs, he⟩ := hp
  simp only [npbInstr, hs, he, Bool.false_eq_true, if_false]

/-- An arithmetic instruction writes q_d and goes on. -/
theorem npbAlu_of_runs (o : NpbOp) (f : Dbl → Dbl → Dbl) :
    npbAlu o s f = .next (withPolicy s (policySets p o.d (f (qOf p o.a) (qOf p o.b)))) := by
  rw [npbAlu, npbInstr_of_runs hp, PolicyRun.advance_setReg]
  rfl

/-- A branch goes forward by IMM where its condition holds, else on. -/
theorem npbBranch_of_runs (o : NpbOp) (c : Dbl → Dbl → Bool) :
    npbBranch o s c =
      .next (withPolicy s (policyAt p (if c (qOf p o.a) (qOf p o.b) then p.pc + o.imm.toNat else p.pc + 1))) := by
  rw [npbBranch, npbInstr_of_runs hp, apply_ite (policyAt p), ← PolicyRun.goto_eq_policyAt, ← PolicyRun.goto_eq_policyAt]
  rfl

theorem execNpbMovhi_of_runs (o : NpbOp) :
    execNpbMovhi o s = .next (withPolicy s (policySets p o.d (o.imm ++ (qOf p o.d).extractLsb' 0 32))) := by
  rw [execNpbMovhi, npbInstr_of_runs hp, PolicyRun.advance_setReg]
  rfl

/-- LDS reads the state area below index 512. -/
theorem execNpbLds_of_runs (o : NpbOp) :
    execNpbLds o s = .next (if NpbOp.index o p < 512 then
      withPolicy s (policySets p o.d ((s.func p.func).policyMem.get 0 (NpbOp.index o p))) else s.policyFault p) := by
  rw [execNpbLds, npbInstr_of_runs hp]
  simp only [PolicyRun.advance_setReg, ← Nat.not_lt, ite_not]
  rfl

/-- STS writes the state area below index 512. -/
theorem execNpbSts_of_runs (o : NpbOp) :
    execNpbSts o s = .next (if NpbOp.index o p < 512 then
      withPolicy (s.setFunc p.func { s.func p.func with
        policyMem := (s.func p.func).policyMem.set 0 (NpbOp.index o p) (qOf p o.b) }) (policyAt p (p.pc + 1))
      else s.policyFault p) := by
  rw [execNpbSts, npbInstr_of_runs hp]
  simp only [PolicyRun.advance, PolicyRun.goto_eq_policyAt, ← Nat.not_lt, ite_not]
  rfl

/-- LDV reads the event view below its length. -/
theorem execNpbLdv_of_runs (o : NpbOp) :
    execNpbLdv o s = .next (if h : NpbOp.index o p < p.view.length then
      withPolicy s (policySets p o.d p.view[NpbOp.index o p]) else s.policyFault p) := by
  rw [execNpbLdv, npbInstr_of_runs hp]
  by_cases h : NpbOp.index o p < p.view.length
  · simp only [h, Nat.not_le.mpr h, if_false, dif_pos, PolicyRun.advance_setReg, List.getD_eq_getElem _ _ h]
    rfl
  · simp only [h, Nat.not_lt.mp h, if_true, dif_neg, not_false_iff]

end

/-! ### The order of unsigned numbers -/

theorem toNat_lt_iff_le_of_ne {a b : Dbl} (h : a ≠ b) : a.toNat < b.toNat ↔ a ≤ b := by bv_omega

theorem execNpbMinu_eq (o : NpbOp) (s : State) : execNpbMinu o s = npbAlu o s fun a b => if a ≤ b then a else b := by
  refine congrArg (npbAlu o s) (funext₂ fun a b => ?_)
  by_cases h : a = b
  · simp [h]
  · simp only [toNat_lt_iff_le_of_ne h]

theorem execNpbMaxu_eq (o : NpbOp) (s : State) : execNpbMaxu o s = npbAlu o s fun a b => if a ≤ b then b else a := by
  refine congrArg (npbAlu o s) (funext₂ fun a b => ?_)
  by_cases h : a = b
  · simp [h]
  · simp only [toNat_lt_iff_le_of_ne h]

/-! ### The statement -/

/-- Settles O47, an instruction at a time: those that write q_d from q_a and q_b by `npbAlu_of_runs`, the branches by
`npbBranch_of_runs`, and the accesses to the state area and the view by a lemma each, which says when they are policy faults. -/
theorem policyInstructions : Obligations.PolicyInstructions := by
  unfold Obligations.PolicyInstructions
  intro runs alu branch imm index faults
  have halu (ins : NpbOp → Instr) (f : NpbOp → Dbl → Dbl → Dbl) (h : ∀ o s, exec (ins o) s = npbAlu o s (f o)) : alu ins f :=
    fun o s p hp => (h o s).trans (npbAlu_of_runs hp o (f o))
  have hbranch (ins : NpbOp → Instr) (c : Dbl → Dbl → Bool) (h : ∀ o s, exec (ins o) s = npbBranch o s c) : branch ins c :=
    fun o s p hp => (h o s).trans (npbBranch_of_runs hp o c)
  clear_value alu branch
  refine ⟨?movi, ?movhi, ?mov, ?add, ?sub, ?addi, ?and, ?or, ?xor, ?shl, ?shr, ?mul, ?divu, ?minu, ?maxu, ?sltu, ?lds, ?sts, ?ldv,
    ?beq, ?bne, ?bltu, ?loop, ?ret⟩
  case movhi => exact fun o s p hp => execNpbMovhi_of_runs hp o
  case minu => exact halu _ _ execNpbMinu_eq
  case maxu => exact halu _ _ execNpbMaxu_eq
  case lds => exact fun o s p hp => execNpbLds_of_runs hp o
  case sts => exact fun o s p hp => execNpbSts_of_runs hp o
  case ldv => exact fun o s p hp => execNpbLdv_of_runs hp o
  case loop => exact fun o s p hp => npbInstr_of_runs hp _
  case ret => exact fun s p hp => npbInstr_of_runs hp _
  case beq | bne | bltu => exact hbranch _ _ fun _ _ => rfl
  all_goals exact halu _ _ fun _ _ => rfl

end Sys2Proof.Machine
end

section
/-! PROOFS of the statement of queues, packets and policies (O50): what doorbells, examination, mailbox commands, policy events, the
take of each kind of packet, admission and entry records leave. -/
namespace Sys2Proof.Machine
open Claims

/-! ### Doorbells (03 R61, R63) -/

theorem State.created_of_doorLive {s : State} {f j : Nat} (h : s.doorLive f j = true) :
    (s.queue (s.queueNo f j)).created = true := by
  simp only [State.doorLive, Bool.and_eq_true] at h
  obtain ⟨⟨-, hc⟩, -⟩ := h
  exact hc

/-- A queue in ERROR ignores its doorbell. -/
theorem State.writeTail_of_err (s : State) (q : Nat) (v : Dbl) (he : (s.queue q).err = true) : s.writeTail q v = s := by
  simp [State.writeTail, he]

/-- A doorbell not above TAIL is stale, and one beyond the ring an overrun; then the queue is examined. -/
theorem State.writeTail_of_live (s : State) (q : Nat) (v : Dbl) (hc : (s.queue q).created = true) (he : (s.queue q).err = false) :
    s.writeTail q v = (s.setQueue q
      (if v.toNat ≤ (s.queue q).tail then { s.queue q with stale := true }
       else if (s.queue q).head + 2 ^ (s.queue q).log2 < v.toNat then { s.queue q with overrun := true }
       else { s.queue q with tail := v.toNat })).examine q := by
  have hring : (s.queue q).size < v.toNat - (s.queue q).head ↔ (s.queue q).head + 2 ^ (s.queue q).log2 < v.toNat := by
    rw [← Queue.size, Nat.lt_sub_iff_add_lt']
  simp only [State.writeTail, hc, he, hring, Bool.not_true, Bool.or_self, Bool.false_eq_true, if_false]

theorem execTailWrite_of_live (s : State) (f j : Nat) (v : Dbl) (h : s.doorLive f j = true) :
    execTailWrite f j v s = .next (s.writeTail (s.queueNo f j) v) := congrArg Host.Outcome.next (if_pos h)

theorem execDoorbellBadWrite_of_live (s : State) (f j : Nat) (h : s.doorLive f j = true) :
    execDoorbellBadWrite f j s = .next (s.badDoorbell (s.queueNo f j)) := congrArg Host.Outcome.next (if_pos h)

/-! ### Examination (03 R65, R72, R89) -/

/-- The state in which the entry at a queue's HEAD is read: pending pairs of its lines have been applied (10 R265). -/
def State.readHead (s : State) (q : Nat) : State :=
  (s.devReach (s.queue q).owner ((s.queue q).slot (s.queue q).head) 64).setQueue q { s.queue q with unread := false }

/-- An examination of queue `q`, which was `x`, finds a valid entry at HEAD. -/
def State.foundValid (v : State) (q : Nat) (x : Queue) (e : BitVec 512) : State :=
  let fresh := v.mayTake q e && !x.takeable
  let w := v.setQueue q { x with
    unread := false, waitvalid := false, blocked := true, takeable := v.mayTake q e,
    readySince := if fresh then v.cycle.toNat else x.readySince, ahead := mergeAhead x.ahead (v.readAhead q x.head 8) }
  if fresh then w.enqueueEvent q e else w

/-- What an examination of queue `q`, which was `x`, leaves of the state in which it reads the entry at HEAD. -/
def State.examined (v : State) (q : Nat) (x : Queue) (entry : Option (BitVec 512)) : State :=
  match entry with
  | none => v.queueError q
  | some e =>
    if e.getLsbD 31 then v.foundValid q x e
    else v.setQueue q { x with unread := false, waitvalid := true, blocked := false, takeable := false, ahead := [] }

section
variable {s : State} {q : Nat} (hc : (s.queue q).created = true) (he : (s.queue q).err = false)
include hc he

theorem State.not_inert : ¬ (!(s.queue q).created || (s.queue q).err) = true := by simp [hc, he]

theorem State.examine_of_empty (h : (s.queue q).tail ≤ (s.queue q).head) :
    s.examine q = s.setQueue q { s.queue q with
      waitvalid := false, blocked := false, takeable := false, unread := false, ahead := [] } :=
  (if_neg (State.not_inert hc he)).trans (if_pos h)

/-- The examination waits for room in the log (18 R415). -/
theorem State.examine_of_full (h : (s.queue q).head < (s.queue q).tail)
    (hr : s.devRoom (s.queue q).owner ((s.queue q).slot (s.queue q).head) 64 = false) :
    s.examine q = s.setQueue q { s.queue q with unread := true, takeable := false } :=
  (if_neg (State.not_inert hc he)).trans ((if_neg (Nat.not_le.mpr h)).trans (if_pos (by rw [hr]; rfl)))

/-- Once there is room the entry at HEAD decides. -/
theorem State.examine_of_room (h : (s.queue q).head < (s.queue q).tail)
    (hr : s.devRoom (s.queue q).owner ((s.queue q).slot (s.queue q).head) 64 = true) :
    s.examine q = (s.readHead q).examined q (s.queue q) ((s.readHead q).ringEntry q (s.queue q).head) := by
  refine (if_neg (State.not_inert hc he)).trans ((if_neg (Nat.not_le.mpr h)).trans ((if_neg (by simp [hr])).trans ?_))
  change (match (s.readHead q).ringEntry q (s.queue q).head with | none => _ | some e => _) = _
  cases (s.readHead q).ringEntry q (s.queue q).head with
  | none => rfl
  | some e =>
    cases hv : e.getLsbD 31 <;> simp only [State.examined, entryValid, hv] <;> rfl

end

theorem execQueueReexamine_of_due (s : State) (q : Nat) (hc : (s.queue q).created = true)
    (h : (s.queue q).waitvalid = true ∨ (s.queue q).blocked = true ∨ (s.queue q).unread = true) :
    execQueueReexamine q s = .next (s.examine q) := by
  refine congrArg Host.Outcome.next (if_pos ?_)
  simp only [hc, Bool.true_and, Bool.or_eq_true]
  exact or_assoc.mpr h

/-! ### Head mirrors (03 R66) -/

section
variable {s : State} {q : Nat} (hc : (s.queue q).created = true) (hd : (s.queue q).mirrorDue = true)
include hc hd

theorem State.mirrorHead_of_due : s.mirrorHead q =
    if (s.queue q).headmir = 0 then s.setQueue q { s.queue q with mirrorDue := false }
    else ((s.setQueue q { s.queue q with mirrorDue := false }).devWrite (s.queue q).owner (s.queue q).headmir.toNat 8
      (s.queue q).head).getD (s.setQueue q { s.queue q with mirrorDue := false }) :=
  if_neg (by simp [hc, hd])

end

/-! ### Mailbox commands (03 R84, R85, R88, R92) -/

/-- A command that returns changes nothing but its function's mailbox. -/
theorem State.mbDone_returned (u : State) (f n : Nat) (detail : Option Nat) :
    Returned u (u.mbDone f n detail) f (BitVec.ofNat 16 n) (detail.map (BitVec.ofNat 64)) := by
  cases detail <;> rfl

/-- An update of a control block writes one of its two copies. -/
theorem Queue.writeBlock_eq (x : Queue) (n : Nat) :
    x.writeBlock n = { x with copyA := (x.writeBlock n).copyA, copyB := (x.writeBlock n).copyB } := by
  unfold Queue.writeBlock
  dsimp only
  split <;> rfl

/-- The copy written holds the queue's state, and the other copy is kept. -/
theorem Queue.writeBlock_copies (x : Queue) (n : Nat) :
    (x.writeBlock n).copyA.qstate = BitVec.ofNat 32 n ∧ (x.writeBlock n).copyB = x.copyB ∨
      (x.writeBlock n).copyB.qstate = BitVec.ofNat 32 n ∧ (x.writeBlock n).copyA = x.copyA := by
  unfold Queue.writeBlock
  dsimp only
  split
  · exact .inl ⟨rfl, rfl⟩
  · exact .inr ⟨rfl, rfl⟩

/-- The queue that a QCREATE of function `f` makes, before its control block is written. -/
def State.newQueue (s : State) (f : Nat) : Queue :=
  let v := s.func f
  let x := s.queue (s.queueNo f v.mbArg0.toNat)
  { created := true, owner := f, ringbase := v.mbArg1, headmir := v.mbArg3, log2 := natBits v.mbArg2.toNat 4 0,
    vector := natBits v.mbArg2.toNat 15 8, copyA := x.copyA, copyB := x.copyB }

theorem execQcreate_of_fails (s : State) (f c : Nat) (h : s.mbHas f 0x01 = true) (hc : s.qcreateFails f = some c) :
    execQcreate f s = .next (s.mbDone f 2 (some c)) := by
  simp only [execQcreate, h, hc, Bool.not_true, Bool.false_eq_true, if_false]

theorem execQcreate_of_passes (s : State) (f : Nat) (h : s.mbHas f 0x01 = true) (hc : s.qcreateFails f = none) :
    execQcreate f s = .next ((if (s.queue (s.queueNo f (s.func f).mbArg0.toNat)).created then s
      else s.setQueue (s.queueNo f (s.func f).mbArg0.toNat) ((s.newQueue f).writeBlock 1)).mbDone f 0 none) := by
  simp only [execQcreate, h, hc, Bool.not_true, Bool.false_eq_true, if_false]
  rfl

theorem execQdestroy_of_none (s : State) (f : Nat) (h : s.mbHas f 0x02 = true)
    (hj : (s.func f).queues ≤ (s.func f).mbArg0.toNat) : execQdestroy f s = .next (s.mbDone f 2 (some 1)) := by
  simp only [execQdestroy, h, if_pos hj, Bool.not_true, Bool.false_eq_true, if_false]

theorem execQdestroy_of_queue (s : State) (f : Nat) (h : s.mbHas f 0x02 = true)
    (hj : (s.func f).mbArg0.toNat < (s.func f).queues) :
    let q := s.queueNo f (s.func f).mbArg0.toNat
    execQdestroy f s = .next ((if (s.queue q).created then (s.mirrorHead q).setQueue q ((s.mirrorHead q).queue q).freed
      else s).mbDone f 0 none) := by
  dsimp only
  simp only [execQdestroy, h, if_neg (Nat.not_le.mpr hj), Bool.not_true, Bool.false_eq_true, if_false]
  split <;> rfl

section
variable {s : State} {f : Nat} (h : s.mbHas f 0x03 = true) (h0 : (s.func f).mbArg1.toNat ≠ 0)
  (h4 : (s.func f).mbArg1.toNat ≤ 4096) (h8 : (s.func f).mbArg1.toNat % 8 = 0)
  (hr : s.devRoom f (s.func f).mbArg0.toNat (s.func f).mbArg1.toNat = true)
  (hp : s.devPagesOk f .read (s.func f).mbArg0.toNat (s.func f).mbArg1.toNat = true)
include h h0 h4 h8 hr hp

/-- POLICYLOAD of an image that passes its checks installs it. -/
theorem execPolicyload_of_passes :
    let u := s.devReach f (s.func f).mbArg0.toNat (s.func f).mbArg1.toNat
    let prog := u.readDoubles f (s.func f).mbArg0.toNat ((s.func f).mbArg1.toNat / 8)
    npbCheck prog = none →
    execPolicyload f s = .next ((u.setFunc f { u.func f with policy := some prog, policyMem := [], policyFaults := 0 }).mbDone
      f 0 none) := by
  intro u prog hn
  have h4' : ¬ 4096 < (s.func f).mbArg1.toNat := Nat.not_lt.mpr h4
  simp [execPolicyload, h, h0, h4', h8, hr, hp, u, prog, hn]

/-- POLICYLOAD of an image with an instruction that fails a check names both. -/
theorem execPolicyload_of_fails (c i : Nat) :
    let u := s.devReach f (s.func f).mbArg0.toNat (s.func f).mbArg1.toNat
    npbCheck (u.readDoubles f (s.func f).mbArg0.toNat ((s.func f).mbArg1.toNat / 8)) = some (c, some i) →
    execPolicyload f s = .next (u.mbDone f 7 (some (c + i * 2 ^ 16))) := by
  intro u hn
  have h4' : ¬ 4096 < (s.func f).mbArg1.toNat := Nat.not_lt.mpr h4
  simp [execPolicyload, h, h0, h4', h8, hr, hp, u, hn]

end

/-! ### Policy events (03 R89) -/

/-- A policy instruction changes nothing but the event and functions, so that the device, of which the lemmas about memories do not
speak, stays as it is. -/
theorem npbInstr_frame (s t : State) (f : PolicyRun → State)
    (hf : ∀ p, f p = { s with funcs := (f p).funcs, policy := (f p).policy }) (e : npbInstr s f = .next t) :
    t = { s with funcs := t.funcs, policy := t.policy } := by
  unfold npbInstr at e
  split at e <;> cases e
  split
  · rfl
  · exact hf _

theorem npbMeanings_frame : ∀ x ∈ npbMeanings, ∀ (o : NpbOp) (s t : State), x.2.2 o s = .next t →
    t = { s with funcs := t.funcs, policy := t.policy } := by
  simp only [npbMeanings, List.forall_mem_cons]
  refine ⟨?movi, ?movhi, ?mov, ?add, ?sub, ?addi, ?and, ?or, ?xor, ?shl, ?shr, ?mul, ?divu, ?minu, ?maxu, ?sltu, ?lds, ?sts, ?ldv,
    ?beq, ?bne, ?bltu, ?loop, ?ret, nofun⟩
  case lds | sts | ldv => exact fun o s t e => npbInstr_frame s t _ (fun p => by dsimp only; split <;> rfl) e
  all_goals exact fun o s t e => npbInstr_frame s t _ (fun p => by rfl) e

theorem State.policyStep_frame (s t : State) (e : s.policyStep = .next t) :
    t = { s with funcs := t.funcs, policy := t.policy } := by
  unfold State.policyStep at e
  split at e
  · cases e; rfl
  · split at e
    · cases e; rfl
    · split at e
      · rename_i hl
        obtain ⟨l, r, hm, -⟩ := List.lookup_eq_some_iff.mp hl
        exact npbMeanings_frame _ (by rw [hm]; exact List.mem_append_right _ List.mem_cons_self) _ _ _ e
      · cases e; rfl

@[simp] theorem State.policyRun_dev (s : State) (n : Nat) : (s.policyRun n).dev = s.dev := by
  induction n generalizing s with
  | zero => rfl
  | succ k ih =>
    unfold State.policyRun
    split
    · rfl
    · split
      · rfl
      · split
        · rename_i t e
          have ht := congrArg State.dev (s.policyStep_frame t e)
          exact (ih t).trans ht
        · rfl

/-- A policy event leaves the scheduler up or down, as it was. -/
theorem State.policyEvent_schedulerUp (s : State) (f code : Nat) (rest : List Dbl) :
    (s.policyEvent f code rest).1.dev.schedulerUp = s.dev.schedulerUp := by
  unfold State.policyEvent
  split
  · rfl
  · dsimp only
    split <;> simp [State.setPlugIn]

theorem State.policyEvent_of_none (s : State) (f code : Nat) (rest : List Dbl) (h : (s.func f).policy = none) :
    s.policyEvent f code rest = (s, none) := by
  simp [State.policyEvent, h]

/-- SLICE while the scheduler is up: the answer's low byte, or 0, is the override of the next slice. -/
theorem execSlice_of_up (s : State) (f : Nat) (h : s.dev.schedulerUp = true) :
    let n := (s.runs.filter fun r => r.2.func == f && r.2.stage == .admitted).length
    let r := s.policyEvent f 3 [BitVec.ofNat 64 n, BitVec.ofNat 64 (s.func f).useStall, BitVec.ofNat 64 (s.func f).takes]
    execSlice f s = .next (r.1.setFunc f { r.1.func f with
      override := (r.2.map fun d => natBits d.toNat 7 0).getD 0, takes := 0 }) := by
  intro n r
  have hup : ¬ (!r.1.dev.schedulerUp) = true := by
    rw [State.policyEvent_schedulerUp, h]
    decide
  refine congrArg Host.Outcome.next ((if_neg hup).trans ?_)
  change State.setFunc r.1 f { r.1.func f with override := (match r.2 with | some d => _ | none => _), takes := 0 } = _
  cases r.2 <;> rfl

/-! ### Takes (03 R65, R71, R72, R83) -/

theorem kind_of_taking {s u : State} {f q : Nat} {kind : Packet → Bool} {p : Packet} (h : Taking s f kind q p u) :
    kind p = true := by
  obtain ⟨left, s1, e, s2, -, -, -, -, hk, -⟩ := h
  exact hk

/-- A step that takes more kinds takes this packet too. -/
theorem taking_mono {s u : State} {f q : Nat} {kind kind' : Packet → Bool} {p : Packet} (h : Taking s f kind q p u)
    (hk : ∀ p, kind p = true → kind' p = true) : Taking s f kind' q p u := by
  obtain ⟨left, s1, e, s2, hwin, hpick, hhead, hp, hkind, hrest⟩ := h
  exact ⟨left, s1, e, s2, hwin, hpick, hhead, hp, hk p hkind, hrest⟩

section
variable {s u : State} {f q : Nat} {kind : Packet → Bool} {p : Packet} (h : Taking s f kind q p u)
include h

/-- The packet taken is checked, and its step's body acts on one that passes; then its queue is examined. -/
theorem takeStep_of_taking (body : State → Nat → Nat → Packet → State) :
    takeStep f s kind body = .next ((if u.packetOk f p then body u q ((u.queue q).head - 1) p
      else u.reject q ((u.queue q).head - 1) p).examine q) := by
  obtain ⟨left, s1, e, s2, hwin, hpick, hhead, rfl, hkind, hroom, hwrite, rfl⟩ := h
  simp only [takeStep, hwin, hpick, hhead, hkind, hroom, hwrite, ne_eq, not_true_eq_false, if_false, Bool.not_true,
    Bool.or_self, Bool.false_eq_true, State.queue_setQueue_self, Nat.add_sub_cancel]

theorem takeStep_of_ok (body : State → Nat → Nat → Packet → State) (hok : u.packetOk f p = true) :
    takeStep f s kind body = .next ((body u q ((u.queue q).head - 1) p).examine q) := by
  rw [takeStep_of_taking h, if_pos hok]

/-- A packet that fails a check completes REJECTED. -/
theorem takeStep_of_bad (body : State → Nat → Nat → Packet → State) (hok : u.packetOk f p = false) :
    takeStep f s kind body = .next ((u.reject q ((u.queue q).head - 1) p).examine q) := by
  rw [takeStep_of_taking h, if_neg (by rw [hok]; decide)]

end

/-! ### CANCEL packets (03 R75) -/

theorem State.level_of_cancelTaken {s : State} {f l : Nat} {p : Packet} (h : s.cancelTaken f l p = true) : p.level = l := by
  simp only [State.cancelTaken, Bool.and_eq_true, beq_iff_eq] at h
  obtain ⟨⟨-, hl⟩, -⟩ := h
  exact hl

section
variable (s : State) (f : Nat) (p : Packet)

theorem State.packetRuns_run (h : p.level = 0) :
    s.packetRuns f p = (s.cancelTarget f p).toList.filter fun r => !(s.run r).isDone := by
  simp only [State.packetRuns, h]

theorem State.packetRuns_phase (h : p.level = 1) :
    s.packetRuns f p = s.runsOf f (natBits p.job.toNat 15 0) (some (natBits p.phase.toNat 15 0)) := by
  simp only [State.packetRuns, h]

theorem State.packetRuns_job (h : p.level = 2) : s.packetRuns f p = s.runsOf f (natBits p.job.toNat 15 0) none := by
  simp only [State.packetRuns, h]

/-- The queue that a CANCEL of a run names. -/
def State.cancelQueue : Queue := s.queue (s.queueNo f (natBits p.ecount.toNat 14 0))

/-- Nothing is to be cancelled where no packet of that number started a run. -/
theorem State.cancelTarget_of_no_run (h : ∀ k ∈ (s.cancelQueue f p).taken, k.seq = p.graph.toNat → k.run = 0) :
    s.cancelTarget f p = none := by
  have hfind : ((s.cancelQueue f p).taken.find? fun k => k.seq == p.graph.toNat && k.run != 0) = none := by
    simpa using h
  unfold State.cancelQueue at hfind
  simp only [State.cancelTarget, hfind, Option.map_none, ite_self]

/-- The run to be cancelled is the one that the packet of that number started. -/
theorem State.cancelTarget_of_run (r : Nat) (hh : p.graph.toNat < (s.cancelQueue f p).head)
    (h : ((s.cancelQueue f p).taken.find? fun k => k.seq == p.graph.toNat && k.run != 0).map (·.run) = some (r + 1)) :
    s.cancelTarget f p = some r := by
  unfold State.cancelQueue at h hh
  obtain ⟨k, hk, hr⟩ := Option.map_eq_some_iff.mp h
  simp only [State.cancelTarget, if_neg (Nat.not_le.mpr hh), hk, Option.map_some, hr, Nat.add_sub_cancel]

end

theorem Run.isDone_eq_false {x : Run} (h : ∀ o, x.stage ≠ .done o) : x.isDone = false := by
  unfold Run.isDone
  split
  · next o ho => exact absurd ho (h o)
  · rfl

/-! ### RUN packets (03 R74, R78) -/

/-- At the take of a RUN packet of a job that is not in flight the caches of the function's clusters are invalidated. -/
def State.jobCaches (s : State) (f job : Nat) : State := if (s.liveJob f job).isSome then s else s.newJobCaches f

/-- An accepted RUN packet of function `f` becomes a run, which waits for admission or is admitted at once where none waits and its
whole charge is free. -/
def State.startRun (s : State) (f unit q seq : Nat) (p : Packet) (g : Graph) : State :=
  let r := s.take.1
  let w := s.take.2.setRun r
    { stage := .waiting, func := f, job := natBits p.job.toNat 15 0, phase := natBits p.phase.toNat 15 0, unit := unit,
      det := p.job.getLsbD 16, queue := q, seq := seq, packet := p, graph := g }
  let y := w.setQueue q { w.queue q with
    taken := (w.queue q).taken.map fun t => if t.seq = seq then { t with run := r + 1 } else t }
  if (s.firstWaiting f).isNone && y.chargeFree r then y.admitRun r else y

/-- A RUN packet whose job has its mode, whose graph is valid and within the quotas, and whose entry node takes records is
accepted. -/
theorem State.takeRun_of_accepted {s v : State} {q f job : Nat} {p : Packet} {g : Graph} {n : Node} (seq : Nat)
    (hf : (s.queue q).owner = f) (hjob : natBits p.job.toNat 15 0 = job)
    (hv : (s.jobCaches f job).graphReach f p.graph.toNat = v)
    (hdet : ∀ k, s.liveJob f job = some k → k.det = p.job.getLsbD 16) (hgraph : v.runGraph f p = .ok g)
    (hnode : g.nodes[natBits p.enode.toNat 11 0]? = some n) (hrec : n.depnode = false) (hquota : v.overQuota f g = false) :
    s.takeRun q seq p =
      let jp := (v.joinJob f job (p.job.getLsbD 16) p.graph.toNat g).joinPhase f job (natBits p.phase.toNat 15 0)
      jp.2.startRun f jp.1 q seq p g := by
  have hmode : ((s.liveJob f job).any fun j => j.det != p.job.getLsbD 16) = false := by
    cases hl : s.liveJob f job with
    | none => rfl
    | some k => simp [hdet k hl]
  have hcaches : (if (s.liveJob f job).isNone then s.newJobCaches f else s) = s.jobCaches f job := by
    unfold State.jobCaches
    cases s.liveJob f job <;> rfl
  simp only [State.takeRun, hf, hjob, hmode, hcaches, hv, hgraph, hnode, hrec, hquota, Option.all_some, Bool.false_eq_true,
    if_false, State.startRun]

/-! ### Admission and entry records (03 R74, R78; 04 R99) -/

theorem execRunAdmit_of_first (s : State) (f r : Nat) (h : s.firstWaiting f = some r) :
    execRunAdmit f s = .next (if s.chargeFree r && !(s.func f).cut then s.admitRun r else s) := by
  simp only [execRunAdmit, h]

/-- The next entry record of run `r`, which is `x`, may be read and appended to `node`: the run goes on, the node's stall has a
place and is not held up, and the log, a segment and the device read have room. -/
structure State.AppendsEntry (s : State) (r : Nat) (x : Run) (node : Nat) : Prop where
  admitted : x.stage = .admitted
  running : x.cancelled = false
  sound : x.entryFailed = false
  left : x.appended < natBits x.packet.ecount.toNat 23 0
  place : (s.stall r node).count < (s.nodeAt r node).cap
  alone : (s.stall r node).waiting = []
  ungrouped : (s.stall r node).group = 0
  uncut : (s.func x.func).cut = false
  logged : s.logHolds r (x.homeDie node) 1 = false
  segment : s.segRoom r node = true
  room : s.devRoom x.func (x.packet.entry.toNat + x.appended * (s.nodeAt r node).rsize) (s.nodeAt r node).rsize = true

/-- An entry record that has been read is appended to the stall of the run's entry node. -/
def State.appendRecord (u : State) (r node index rsize v count : Nat) : State :=
  let w := u.appendEntry r node (BitVec.ofNat 64 (index * 2 ^ 32 + 0xFFF * 2 ^ 16))
    ((List.range (rsize / 4)).map fun i => BitVec.ofNat 32 (v / 2 ^ (32 * i))) (appendWho 0x3FF 0)
  let t := w.setRun r { w.run r with appended := index + 1 }
  if index + 1 = count then t.evalInputs r else t

theorem execEntryRecordAppend_of_ready {s u : State} {r node a : Nat} {x : Run} {n : Node} (hx : x = s.run r)
    (hnode : node = natBits x.packet.enode.toNat 11 0) (hn : n = s.nodeAt r node)
    (ha : a = x.packet.entry.toNat + x.appended * n.rsize) (hu : u = s.devReach x.func a n.rsize) (h : s.AppendsEntry r x node) :
    execEntryRecordAppend r s = .next (
      ((if u.devPagesOk x.func .read a n.rsize then u.devRead x.func a n.rsize else none).map fun v =>
        u.appendRecord r node x.appended n.rsize v (natBits x.packet.ecount.toNat 23 0)).getD (u.failEntries r)) := by
  subst hx hnode hn ha hu
  obtain ⟨hst, hcan, hfail, hleft, hplace, halone, hgroup, hcut, hlog, hseg, hroom⟩ := h
  simp only [execEntryRecordAppend, hst, hcan, hfail, Nat.not_le.mpr hleft, Nat.not_le.mpr hplace, halone, hgroup, hcut, hlog,
    hseg, hroom, bne_self_eq_false, decide_false, Bool.or_self, Bool.not_true, Bool.false_eq_true, if_false]
  split <;> rename_i hv <;> rw [hv] <;> rfl

/-! ### The statement -/

/-- Settles O50, event by event: an examination by the entry that it reads at HEAD (`State.examined`), a mailbox command by
`State.mbDone_returned`, and every take by `takeStep_of_taking`, after which only what the step's body does with the packet remains. -/
theorem queueEvents : Obligations.QueueEvents := by
  unfold Obligations.QueueEvents
  intro takes job
  refine ⟨?doorbells, ?examination, ?mirror, ?qcreate, ?qdestroy, ?policyload, ?slice, ?run, ?runBad, ?setctr, ?nop, ?cancelPhase,
    ?cancelJob, ?cancelRun, ?admission, ?entry⟩
  case doorbells =>
    intro s f j v hl q x
    have hc := State.created_of_doorLive hl
    exact ⟨fun he => (execTailWrite_of_live s f j v hl).trans (congrArg _ (s.writeTail_of_err q v he)),
      fun he => (execTailWrite_of_live s f j v hl).trans (congrArg _ (s.writeTail_of_live q v hc he)),
      execDoorbellBadWrite_of_live s f j hl⟩
  case examination =>
    intro s q x hc hdue he room v
    have hx := execQueueReexamine_of_due s q hc hdue
    have hread (h : x.head < x.tail) (hr : room = true) (o : Option (BitVec 512)) (ho : v.ringEntry q x.head = o) :
        exec (.queueReexamine q) s = .next (v.examined q x o) :=
      hx.trans (congrArg _ ((State.examine_of_room hc he h hr).trans (congrArg (v.examined q x) ho)))
    refine ⟨fun h => ?empty, fun h hr => ?full, fun h hr hn => hread h hr _ hn, fun h hr e hn hv => ?invalid,
      fun h hr e hn hv => ?valid⟩
    case empty => exact hx.trans (congrArg _ (State.examine_of_empty hc he h))
    case full => exact hx.trans (congrArg _ (State.examine_of_full hc he h hr))
    case invalid => exact (hread h hr _ hn).trans (congrArg _ (if_neg (ne_true_of_eq_false hv)))
    case valid => exact (hread h hr _ hn).trans (congrArg _ (if_pos hv))
  case mirror =>
    intro s q x hc hd u
    have hm := State.mirrorHead_of_due hc hd
    refine ⟨fun h => congrArg _ (hm.trans (if_pos h)), fun h t ht => congrArg _ (hm.trans ((if_neg h).trans ?_))⟩
    exact congrArg (Option.getD · u) ht
  case qcreate =>
    intro s f h v q x
    have hpass (hn : s.qcreateFails f = none) := execQcreate_of_passes s f h hn
    refine ⟨fun c hc => ⟨_, execQcreate_of_fails s f c h hc, s.mbDone_returned f 2 (some c)⟩, fun hn hc => ?_, fun hn hc => ?_⟩
    · rw [if_pos hc] at hpass
      exact ⟨_, hpass hn, s.mbDone_returned f 0 none⟩
    · rw [if_neg (ne_true_of_eq_false hc)] at hpass
      refine ⟨_, _, hpass hn, State.mbDone_returned _ f 0 none, ?_⟩
      rw [State.queue_setQueue_self]
      exact ⟨rfl, Queue.writeBlock_eq _ 1, Queue.writeBlock_copies _ 1⟩
  case qdestroy =>
    intro s f h j q
    have hq := execQdestroy_of_queue s f h
    refine ⟨fun hj => ⟨_, execQdestroy_of_none s f h hj, s.mbDone_returned f 2 (some 1)⟩, fun hj hc => ?_, fun hj hc => ?_⟩
    · exact ⟨_, (hq hj).trans (by rw [if_neg (ne_true_of_eq_false hc)]), s.mbDone_returned f 0 none⟩
    · refine ⟨_, _, _, rfl, (hq hj).trans (by rw [if_pos hc]), State.mbDone_returned _ f 0 none, ?_⟩
      rw [State.queue_setQueue_self]
      exact ⟨rfl, rfl, rfl, rfl⟩
  case policyload =>
    intro s f h a n u prog h0 h4 h8 hr hp
    exact ⟨fun hn => ⟨_, execPolicyload_of_passes h h0 h4 h8 hr hp hn, State.mbDone_returned _ f 0 none⟩,
      fun c i hn => ⟨_, execPolicyload_of_fails h h0 h4 h8 hr hp c i hn, State.mbDone_returned _ f 7 (some _)⟩⟩
  case slice =>
    intro s f hup n r
    have hs := execSlice_of_up s f hup
    refine ⟨hs, fun hn => hs.trans ?_⟩
    rw [s.policyEvent_of_none f 3 _ hn]
    rfl
  case run =>
    intro s f q p u g ht hok seq own det phase c v hdet hgraph hnode hquota
    obtain ⟨n, hn, hrec⟩ := hnode
    have hr := State.takeRun_of_accepted seq rfl rfl rfl hdet hgraph hn hrec hquota
    exact (takeStep_of_ok ht _ hok).trans (congrArg (fun t => Host.Outcome.next (State.examine t q)) hr)
  case runBad => exact fun s f q p u ht hok => takeStep_of_bad ht _ hok
  case setctr =>
    intro s f q p u ht seq
    change (_ → execSetctr f s = _) ∧ (_ → execSetctr f s = _)
    exact ⟨takeStep_of_ok ht _, takeStep_of_bad ht _⟩
  case nop =>
    intro s f q p u ht seq
    change (_ → execNopPacket f s = _) ∧ (_ → execNopPacket f s = _)
    exact ⟨takeStep_of_ok ht _, takeStep_of_bad ht _⟩
  case cancelPhase =>
    intro s f q p u ht seq
    change (_ → execCancelPacketPhase f s = _) ∧ (_ → execCancelPacketPhase f s = _)
    refine ⟨fun hok => (takeStep_of_ok ht _ hok).trans ?_, takeStep_of_bad ht _⟩
    rw [u.packetRuns_phase f p (State.level_of_cancelTaken (kind_of_taking ht))]
    rfl
  case cancelJob =>
    intro s f q p u ht seq
    change (_ → execCancelPacketJob f s = _) ∧ (_ → execCancelPacketJob f s = _)
    refine ⟨fun hok => (takeStep_of_ok ht _ hok).trans ?_, takeStep_of_bad ht _⟩
    rw [u.packetRuns_job f p (State.level_of_cancelTaken (kind_of_taking ht))]
    rfl
  case cancelRun =>
    intro s f q p u ht hok seq j t
    have hlevel := State.level_of_cancelTaken (kind_of_taking ht)
    have hx : execCancelPacketRun f s = _ :=
      takeStep_of_ok (taking_mono ht fun p hp => by rw [hp, Bool.true_or]) _ hok
    have hgo (hj : j < (u.func f).queues) (hc : t.created = true) (ho : t.owner = f) :
        ¬ (decide ((u.func f).queues ≤ j) || !t.created || decide (t.owner ≠ f)) = true := by
      simp [hc, ho, hj]
    refine ⟨fun hbad => ?refused, fun hj hc ho hnone => ?nothing, fun hj hc ho hhead r hfind hdone => ?cancels⟩
    case refused => exact hx.trans (by rw [if_pos (by simpa [or_assoc] using hbad)])
    case nothing =>
      rw [if_neg (hgo hj hc ho), u.cancelTarget_of_no_run f p hnone] at hx
      exact hx
    case cancels =>
      have htarget := u.cancelTarget_of_run f p r hhead hfind
      have hruns : u.packetRuns f p = [r] := by
        rw [u.packetRuns_run f p hlevel, htarget]
        simp [Run.isDone_eq_false hdone]
      rw [if_neg (hgo hj hc ho), htarget, hruns] at hx
      exact hx
  case admission =>
    intro s f r h
    have ha := execRunAdmit_of_first s f r h
    refine ⟨fun hfree hcut => ha.trans ?_, fun hnot => ha.trans ?_⟩
    · rw [hfree, hcut]
      rfl
    · refine congrArg _ (if_neg ?_)
      rcases hnot with hn | hn <;> simp [hn]
  case entry =>
    intro s r x node n k count a u hst hcan hfail hleft hplace halone hgroup hcut hlog hseg hroom
    have hx := execEntryRecordAppend_of_ready (s := s) (r := r) rfl rfl rfl rfl rfl
      ⟨hst, hcan, hfail, hleft, hplace, halone, hgroup, hcut, hlog, hseg, hroom⟩
    refine ⟨fun hbad => hx.trans ?_, fun v hgood hv => hx.trans ?_⟩
    · rw [hbad]
      rfl
    · rw [hgood, if_pos rfl, hv]
      rfl

end Sys2Proof.Machine
end

section
/-! PROOFS of the statements of Yards, blocks and remote records (O51, O52): what records, musters, starts, parks, saves, stops and
retirements leave of blocks and teams, and why the statement of remote records fails. -/
namespace Sys2Proof.Machine
open Claims

/-! ### Records and musters (04 R99, R106, R107; 16 R373) -/

@[simp] theorem State.tellUnit_teams (s : State) (n u : Nat) : (s.tellUnit n u).teams = s.teams := by
  rw [State.tellUnit_eq]
@[simp] theorem State.tellCore_teams (s : State) (u n : Nat) : (s.tellCore u n).teams = s.teams := by
  rw [State.tellCore_eq]

theorem State.team_of_teams {s t : State} (h : t.teams = s.teams) (n : Nat) : t.team n = s.team n := by
  rw [State.team, h, State.team]

/-- The clocks that core and Yard exchange as an emission arrives (log 14). -/
def State.told (s : State) (e : Emission) : State :=
  (s.tellUnit e.core (yardUnit ((s.run e.run).homeDie e.node))).tellCore (yardUnit ((s.run e.run).homeDie e.node)) e.core

@[simp] theorem State.told_teams (s : State) (e : Emission) : (s.told e).teams = s.teams := by
  rw [State.told, State.tellCore_teams, State.tellUnit_teams]

section
variable {s : State} {em : Nat} {e : Emission} (he : (s.emissions.find? fun e => e.id == em) = some e)
  (hready : s.emissionReady e = true)
include he hready

/-- A record for a run that takes no more is discarded (02 R58, R59). -/
theorem execRecordAppend_of_discards (h : s.discards e.run e.node = true) :
    execRecordAppend em s = .next (((s.told e).ackEmission e.team 1).acceptEmission e) := by
  simp only [execRecordAppend, he, hready, h, Bool.not_true, Bool.false_eq_true, if_false, if_true]
  rfl

/-- A record that cannot be appended is listed, together with those of its issue (04 R113; 16 R373). -/
theorem execRecordAppend_of_full (h : s.discards e.run e.node = false)
    (hfull : (s.nodeAt e.run e.node).cap ≤ (s.stall e.run e.node).count ∨ (s.stall e.run e.node).waiting ≠ [] ∨
      (s.func (s.run e.run).func).cut = true) {ours : Waiting → Bool}
    (hem : ∀ id, ours (.emission id) = s.emissions.any fun o => o.id == id && o.ins == e.ins)
    (hrem : ∀ src token, ours (.remote src token) = false) :
    execRecordAppend em s =
      let x := s.stall e.run e.node
      let l := if x.group = 0 then x.waiting ++ [.emission em] else listAfter ours x.waiting (.emission em)
      let u := (s.told e).setStall e.run e.node { x with waiting := l, group := s.groupAfter e }
      .next (State.ackEmission { u with
        emissions := u.emissions.map fun o => if o.id = em then { o with listed := true } else o } e.team 1) := by
  have hours : ours = fun w => match w with
      | .emission id => s.emissions.any fun o => o.id == id && o.ins == e.ins
      | .remote _ _ => false := funext fun w => by
    cases w with
    | emission id => exact hem id
    | remote src token => exact hrem src token
  have hcond : (decide ((s.nodeAt e.run e.node).cap ≤ (s.stall e.run e.node).count) || (s.stall e.run e.node).waiting != [] ||
      (s.func (s.run e.run).func).cut) = true := by simpa [or_assoc] using hfull
  subst hours
  simp only [execRecordAppend, he, hready, h, hcond, Bool.not_true, Bool.false_eq_true, if_false, if_true]
  rfl

/-- Else it is appended (04 R99). -/
theorem execRecordAppend_of_room (h : s.discards e.run e.node = false)
    (hfull : ¬ ((s.nodeAt e.run e.node).cap ≤ (s.stall e.run e.node).count ∨ (s.stall e.run e.node).waiting ≠ [] ∨
      (s.func (s.run e.run).func).cut = true))
    (hlog : s.logHolds e.run ((s.run e.run).homeDie e.node) 1 = false) (hroom : s.segRoom e.run e.node = true) :
    execRecordAppend em s =
      let u := (s.told e).setStall e.run e.node { s.stall e.run e.node with group := s.groupAfter e }
      .next (((u.appendEntry e.run e.node e.entry.hdr e.entry.words (appendWho e.core (s.team e.team).index)).acceptEmission
        e).ackEmission e.team 1) := by
  have hcond : (decide ((s.nodeAt e.run e.node).cap ≤ (s.stall e.run e.node).count) || (s.stall e.run e.node).waiting != [] ||
      (s.func (s.run e.run).func).cut) = false := by simpa [not_or, and_assoc] using hfull
  have hteam : ((s.told e).setStall e.run e.node { s.stall e.run e.node with group := s.groupAfter e }).team e.team =
      s.team e.team := State.team_of_teams (s.told_teams e) _
  simp only [execRecordAppend, he, hready, h, hcond, hlog, hroom, Bool.not_true, Bool.or_self, Bool.false_eq_true, if_false]
  rw [← hteam]
  rfl

end

theorem execMuster_of_first {s : State} {r node k : Nat} (hsize : s.musterSize r node = some k)
    (hlog : s.logHolds r ((s.run r).homeDie node) 1 = false)
    (hfirst : ∀ e ∈ s.stallsOf ((s.run r).homeDie node), s.mustersNow (keyRun e.1) (keyNode e.1) = true →
      s.musterBefore (stallKey r node) e.1 = true) :
    execMuster r node s =
      let x := s.stall r node
      let y : Stall := { x with
        entries := x.entries.drop k, musters := x.musters + 1, expired := false, segs := segPop x.segs k }
      let u := s.setStall r node { y with timer := if y.count = 0 then 0 else s.timerLimit r node }
      let t := ((u.fetchHead r node).formBlock r node x.musters (x.entries.take k)).serveWaiting r node
      .next (if (t.stall r node).count = 0 then t.evalInputs r else t) := by
  have hrivals : (((s.stallsOf ((s.run r).homeDie node)).map (·.1)).filter fun a =>
      s.mustersNow (keyRun a) (keyNode a)).all (fun a => s.musterBefore (stallKey r node) a) = true := by
    refine List.all_eq_true.mpr fun a ha => ?_
    obtain ⟨hmem, hnow⟩ := List.mem_filter.mp ha
    obtain ⟨e, he, rfl⟩ := List.mem_map.mp hmem
    exact hfirst e he hnow
  simp only [execMuster, hsize, hlog, hrivals, Bool.not_true, Bool.or_self, Bool.false_eq_true, if_false]

theorem execMusterTimeout_of_gathering {s : State} {r node : Nat} (hstate : s.stallState r node = .gathering)
    (htimer : (s.stall r node).timer ≠ 0) :
    execMusterTimeout r node s = .next (s.setStall r node { s.stall r node with expired := true }) :=
  if_pos (by simp [hstate, htimer])

/-! ### Starting and stealing blocks (04 R111, R112) -/

theorem execBlockStart_of_best {s : State} {n b : Nat} (hbay : s.oldestBay n = some b) (hresume : s.resumesFirst n = false)
    (hsaved : s.savedFirst n = false) (hbest : s.bestCore b = some n) :
    execBlockStart n s = .next (s.startBlock b n false) := by
  simp only [execBlockStart, hbay, hresume, hsaved, hbest, bne_self_eq_false, Bool.or_self, Bool.false_eq_true, if_false]

theorem execStealable_of_bay {s : State} {b : Nat} (h : (s.block b).place = .bay false) :
    execStealable b s = .next ({ s with fresh := s.fresh + 1 }.setBlock b
      { s.block b with place := .bay true, stealAt := s.fresh + 1 }) := by
  simp only [execStealable, h]
  rfl

theorem execSteal_of_first {s : State} {die n b : Nat} (hdie : n / 160 = die) (hidle : s.coreIdle n = true)
    (hresume : s.resumesFirst n = false) (hsaved : s.savedFirst n = false)
    (hfirst : (s.stealQueue n).find? (fun b => s.fits n b) = some b)
    (hclaim : ∀ h, s.bestCore b = some h → s.oldestBay h ≠ some b) :
    execSteal die [n] s = .next (s.startBlock b n true) := by
  have hd : dieOfCore n = die := hdie
  have hclaimed : (s.bestCore b).any (fun h => s.oldestBay h == some b) = false := by
    cases hb : s.bestCore b with
    | none => rfl
    | some h => exact beq_eq_false_iff_ne.mpr (hclaim h hb)
  simp [execSteal, insertCore, State.stealLoop, hd, hidle, hresume, hsaved, hfirst, hclaimed]

/-! ### Probes, retirement and trap entries (04 R119; 17 R384; 18 R407, R408) -/

theorem execProbeQuiet_of_quiet {s : State} {r node : Nat} (hprobe : (s.stall r node).probe = true)
    (hasked : (s.stall r node).asked = 0) (htransit : s.inTransit r node = false)
    (hcut : (s.func (s.run r).func).cut = false) : execProbeQuiet r node s = .next (s.probeResult r node) :=
  if_pos (by simp [hprobe, hasked, htransit, hcut])

/-- The result of a probe that the PF was not asked for. -/
theorem State.probeResult_of_unasked {s : State} {r node : Nat} (hprobe : (s.stall r node).probe = true)
    (hasked : (s.stall r node).asked = 0) :
    s.probeResult r node =
      let k := s.stall r node
      let u := s.setStall r node { k with probe := false }
      if s.inputConds r node then (u.setStall r node { k with probe := false, closed := true }).checkRun r
      else u.evalInputs r := by
  simp only [State.probeResult, hprobe, hasked, Bool.not_true, Bool.false_eq_true, if_false]

theorem State.returns_of_unversioned {s : State} {b : Nat} (h : (s.nodeOf b).versioned = false) : s.returns b = false := by
  simp [State.returns, h]

theorem State.returnRecords_of_unversioned {s : State} {b : Nat} (h : (s.nodeOf b).versioned = false) :
    s.returnRecords b = s := if_pos (by rw [State.returns_of_unversioned h]; rfl)

theorem execBlockRetire_of_ready {s : State} {b : Nat} (hmay : s.mayRetire b = true) (hflight : s.nothingInFlight b = true)
    (hlogs : s.retireLogs b = true) (hroom : s.retireRoom b = true) (hcut : (s.func (s.block b).func).cut = false) :
    execBlockRetire b s = .next (s.retireBlock b) := by
  have hacts : s.yardActs b = true := by rw [State.yardActs, hcut]; rfl
  simp only [execBlockRetire, hmay, hflight, hlogs, hroom, hacts, Bool.and_self, if_true]

theorem State.retireBlock_of_unversioned {s : State} {b : Nat} (h : (s.nodeOf b).versioned = false) :
    s.retireBlock b =
      let k := s.block b
      let v := ((s.tellUnit k.core (yardUnit (dieOfCluster k.cluster))).leaveCore b).addEvents b
      let u := v.yardLog k.run (dieOfCluster k.cluster) 0x05 (v.rnm b) k.stop
      State.checkRun { u with
        answers := u.answers.filter fun a => (u.team a.who.team).block != b
        teams := u.teams.filter fun t => t.2.block != b, blocks := u.blocks.erase b } k.run := by
  simp only [State.retireBlock, h, Bool.and_false, Bool.false_eq_true, if_false, State.returnRecords_of_unversioned h]

theorem execTrapEntry_of_pending {s : State} {tn L : Nat} {p : Nat × Nat × FaultInfo}
    (hp : (s.pendingTraps.find? fun p => p.1 == tn && p.2.1 == L) = some p) (hres : (s.team tn).resident = true)
    (hrun : (s.block (s.team tn).block).place = .running) :
    execTrapEntry tn L s = .next (State.takeFault
      { s with pendingTraps := s.pendingTraps.filter fun q => !(q.1 == tn && q.2.1 == L) } tn L p.2.2
      ((s.team tn).lane L).pc ((s.team tn).lane L).tnext) := by
  simp only [execTrapEntry, hp, hres, hrun, beq_self_eq_true, Bool.and_self, if_true]

/-! ### Watches that are lost (10 R274) -/

/-- A read of storage whose values have all been mapped. -/
theorem SMap.get_map {α : Type} (m : SMap α) (d : α) (f : α → α) (k : Nat) :
    SMap.get (m.map fun p => (p.1, f p.2)) d k = f (SMap.get m d k) ∨
      SMap.get (m.map fun p => (p.1, f p.2)) d k = d ∧ SMap.get m d k = d := by
  induction m with
  | nil => exact .inr ⟨rfl, rfl⟩
  | cons p r ih =>
    simp only [List.map_cons, SMap.get]
    split
    · exact .inl rfl
    · exact ih

/-- A lane that waits on a watch goes on after its WAITW. -/
def Lane.loseWatch (l : Lane) : Lane :=
  match l.st with
  | .waiting (.watch _) => l.release 1
  | _ => l

/-- The same in its team: its destination register reads 2. -/
def Team.loseWatch (t : Team) (L : Nat) : Team :=
  match (t.lane L).st with
  | .waiting (.watch d) => ((t.setLane L ((t.lane L).release 1)).setV L d 2).refresh
  | _ => t

/-- Every lane is judged anew where it resumes (06 R152). -/
def Team.resumes (t : Team) : Team := { t with lanes := t.lanes.map fun p => (p.1, p.2.resumes) }

theorem Team.loseWatches_eq (t : Team) : t.loseWatches = (laneList.foldl Team.loseWatch t).resumes := rfl

@[simp] theorem Team.resumes_vreg (t : Team) (L n : Nat) : t.resumes.vreg L n = t.vreg L n := rfl

/-- A lane loses its watch; what it is to check where it resumes is left open. -/
theorem Team.resumes_lane (t : Team) (L : Nat) : ∃ a, t.resumes.lane L = { t.lane L with watch := .none, arrival := a } := by
  rcases SMap.get_map t.lanes {} Lane.resumes L with h | ⟨h, hd⟩
  · exact ⟨_, h⟩
  · exact ⟨.inLine, h.trans (by rw [Team.lane, hd])⟩

theorem Lane.loseWatch_of_watch {l : Lane} {d : Nat} (h : l.st = .waiting (.watch d)) : l.loseWatch = l.release 1 := by
  simp only [Lane.loseWatch, h]

theorem Lane.loseWatch_of_other {l : Lane} (h : ∀ d, l.st ≠ .waiting (.watch d)) : l.loseWatch = l := by
  unfold Lane.loseWatch
  split
  · next d hd => exact absurd hd (h d)
  · rfl

theorem Lane.loseWatch_st_ne (l : Lane) (d : Nat) : l.loseWatch.st ≠ .waiting (.watch d) := by
  by_cases h : ∃ e, l.st = .waiting (.watch e)
  · obtain ⟨e, he⟩ := h
    rw [Lane.loseWatch_of_watch he]
    exact nofun
  · rw [Lane.loseWatch_of_other (not_exists.mp h)]
    exact fun hd => h ⟨d, hd⟩

theorem Team.loseWatch_of_watch {t : Team} {L d : Nat} (h : (t.lane L).st = .waiting (.watch d)) :
    t.loseWatch L = ((t.setLane L ((t.lane L).release 1)).setV L d 2).refresh := by
  simp only [Team.loseWatch, h]

theorem Team.loseWatch_of_other {t : Team} {L : Nat} (h : ∀ d, (t.lane L).st ≠ .waiting (.watch d)) : t.loseWatch L = t := by
  unfold Team.loseWatch
  split
  · next d hd => exact absurd hd (h d)
  · rfl

/-- Of the team only lanes, vector registers, the zero map and the service list change. -/
theorem Team.loseWatch_eq (t : Team) (L : Nat) : t.loseWatch L = { t with
    lanes := (t.loseWatch L).lanes, v := (t.loseWatch L).v, nonzero := (t.loseWatch L).nonzero,
    service := (t.loseWatch L).service } := by
  unfold Team.loseWatch
  split <;> rfl

theorem Team.loseWatch_lane (t : Team) (L M : Nat) :
    (t.loseWatch L).lane M = if M = L then (t.lane L).loseWatch else t.lane M := by
  by_cases h : ∃ d, (t.lane L).st = .waiting (.watch d)
  · obtain ⟨d, hd⟩ := h
    rw [Team.loseWatch_of_watch hd, Lane.loseWatch_of_watch hd, Team.refresh_lane, Team.lane_setV, Team.lane_setLane]
  · have hd := not_exists.mp h
    rw [Team.loseWatch_of_other hd, Lane.loseWatch_of_other hd]
    split
    · next hM => rw [hM]
    · rfl

/-- What reads 2 goes on reading 2. -/
theorem Team.loseWatch_keeps_two {t : Team} {L n : Nat} (M : Nat) (h : t.vreg L n = 2) : (t.loseWatch M).vreg L n = 2 := by
  unfold Team.loseWatch
  split
  · rw [Team.refresh_vreg, Team.vreg, Team.setV, SMap.get_set]
    split
    · rfl
    · exact h
  · exact h

/-- A register that no lane waits to write is kept. -/
theorem Team.loseWatch_vreg {t : Team} {L n M : Nat} (hn : n < 512)
    (h : ∀ d, (t.lane M).st = .waiting (.watch d) → d < 512 ∧ (L ≠ M ∨ n ≠ d)) : (t.loseWatch M).vreg L n = t.vreg L n := by
  by_cases hw : ∃ d, (t.lane M).st = .waiting (.watch d)
  · obtain ⟨d, hd⟩ := hw
    obtain ⟨hlt, hne⟩ := h d hd
    rw [Team.loseWatch_of_watch hd, Team.refresh_vreg, Team.vreg_setV_ne _ _ hlt hn hne, Team.vreg_setLane]
  · rw [Team.loseWatch_of_other (not_exists.mp hw)]

theorem Team.foldl_loseWatch_eq (ls : List Nat) (t : Team) : ls.foldl Team.loseWatch t = { t with
    lanes := (ls.foldl Team.loseWatch t).lanes, v := (ls.foldl Team.loseWatch t).v,
    nonzero := (ls.foldl Team.loseWatch t).nonzero, service := (ls.foldl Team.loseWatch t).service } := by
  induction ls generalizing t with
  | nil => rfl
  | cons M r ih => rw [List.foldl_cons, ih, t.loseWatch_eq M]

theorem Team.foldl_loseWatch_lane {ls : List Nat} (hn : ls.Nodup) (t : Team) (L : Nat) :
    (ls.foldl Team.loseWatch t).lane L = if L ∈ ls then (t.lane L).loseWatch else t.lane L := by
  induction ls generalizing t with
  | nil => simp
  | cons M r ih =>
    obtain ⟨hM, hr⟩ := List.nodup_cons.mp hn
    rw [List.foldl_cons, ih hr, Team.loseWatch_lane]
    by_cases hL : L = M
    · subst hL
      simp [hM]
    · simp [hL]

theorem Team.foldl_loseWatch_keeps_two {t : Team} {L n : Nat} (ls : List Nat) (h : t.vreg L n = 2) :
    (ls.foldl Team.loseWatch t).vreg L n = 2 := by
  induction ls generalizing t with
  | nil => exact h
  | cons M r ih => exact ih (Team.loseWatch_keeps_two M h)

/-- A lane of the list that waits reads 2. -/
theorem Team.foldl_loseWatch_reads {ls : List Nat} (hn : ls.Nodup) {t : Team} {L d : Nat} (hL : L ∈ ls)
    (h : (t.lane L).st = .waiting (.watch d)) : (ls.foldl Team.loseWatch t).vreg L d = 2 := by
  induction ls generalizing t with
  | nil => exact absurd hL List.not_mem_nil
  | cons M r ih =>
    obtain ⟨hM, hr⟩ := List.nodup_cons.mp hn
    rcases List.mem_cons.mp hL with rfl | hLr
    · refine Team.foldl_loseWatch_keeps_two r ?_
      rw [Team.loseWatch_of_watch h, Team.refresh_vreg, Team.vreg_setV_self]
    · have hne : L ≠ M := fun e => hM (e ▸ hLr)
      exact ih hr hLr (by rw [Team.loseWatch_lane, if_neg hne, h])

theorem Team.foldl_loseWatch_vreg {ls : List Nat} (hls : ls.Nodup) {t : Team} {L n : Nat} (hn : n < 512)
    (h : ∀ M ∈ ls, ∀ d, (t.lane M).st = .waiting (.watch d) → d < 512 ∧ (L ≠ M ∨ n ≠ d)) :
    (ls.foldl Team.loseWatch t).vreg L n = t.vreg L n := by
  induction ls generalizing t with
  | nil => rfl
  | cons M r ih =>
    obtain ⟨hM, hr⟩ := List.nodup_cons.mp hls
    rw [List.foldl_cons, ih hr fun K hK d hd => ?_, Team.loseWatch_vreg hn (h M List.mem_cons_self)]
    have hne : K ≠ M := fun e => hM (e ▸ hK)
    rw [Team.loseWatch_lane, if_neg hne] at hd
    exact h K (List.mem_cons_of_mem _ hK) d hd

/-- Of a team that loses its watches only lanes, vector registers, the zero map and the service list change. -/
theorem Team.loseWatches_frame (t : Team) : t.loseWatches = { t with
    lanes := t.loseWatches.lanes, v := t.loseWatches.v, nonzero := t.loseWatches.nonzero,
    service := t.loseWatches.service } := by
  rw [Team.loseWatches_eq, Team.resumes, Team.foldl_loseWatch_eq]

theorem Team.loseWatches_k (t : Team) : t.loseWatches.k = t.k := by rw [Team.loseWatches_frame]

/-- No lane keeps a watch, one that waited on its watch goes on, and any other stands as it stood. -/
theorem Team.loseWatches_lane (t : Team) (L : Nat) :
    ∃ a, t.loseWatches.lane L = { (if L < 64 then (t.lane L).loseWatch else t.lane L) with watch := .none, arrival := a } := by
  have hfold := Team.foldl_loseWatch_lane laneList_nodup t L
  simp only [mem_laneList] at hfold
  rw [← hfold, Team.loseWatches_eq]
  exact Team.resumes_lane _ L

theorem Team.loseWatches_vreg (t : Team) (L n : Nat) :
    t.loseWatches.vreg L n = (laneList.foldl Team.loseWatch t).vreg L n := by
  rw [Team.loseWatches_eq, Team.resumes_vreg]

theorem Team.loseWatches_st (t : Team) {L : Nat} (hL : L < 64) (d : Nat) :
    (t.loseWatches.lane L).st ≠ .waiting (.watch d) := by
  obtain ⟨a, ha⟩ := t.loseWatches_lane L
  rw [ha, if_pos hL]
  exact Lane.loseWatch_st_ne _ d

/-- Lanes that waited on a watch read status 2, and every other register is kept. -/
theorem regsLosingWatches_of_vreg {t u : Team} (h : ∀ L n, u.vreg L n = t.loseWatches.vreg L n) : RegsLosingWatches t u := by
  refine ⟨fun L d hL hd => ?_, fun hlt L n hn hne => ?_⟩
  · rw [h, Team.loseWatches_vreg]
    exact (Team.foldl_loseWatch_reads laneList_nodup ((mem_laneList L).mpr hL) hd)
  · rw [h, Team.loseWatches_vreg]
    refine (Team.foldl_loseWatch_vreg laneList_nodup hn fun M hM d hd => ⟨hlt M d hd, ?_⟩)
    by_cases hLM : L = M
    · refine .inr fun hnd => ?_
      subst hLM hnd
      exact hne ((mem_laneList L).mp hM) hd
    · exact .inl hLM

/-- Without a waiting lane no register is written. -/
theorem Team.loseWatches_v {t : Team} (h : ∀ L < 64, ∀ d, (t.lane L).st ≠ .waiting (.watch d)) : t.loseWatches.v = t.v := by
  have hfold : laneList.foldl Team.loseWatch t = t :=
    foldl_of_fixed _ _ _ fun L hL => Team.loseWatch_of_other (h L ((mem_laneList L).mp hL))
  rw [Team.loseWatches_eq, hfold]
  rfl

/-! ### Parking (04 R114, R115; 05 R132, R134) -/

section
variable (s : State) (taken : List (Nat × Nat × Nat)) (limit n : Nat) (put : Team → Nat → Team)

/-- To make a place in an area changes teams alone. -/
theorem State.placeIn_keeps {β : Type} (p : State → β) (hp : ∀ s t T, p (State.setTeam s t T) = p s) :
    p (s.placeIn taken limit n put).1 = p s := by
  unfold State.placeIn
  split
  · rfl
  · exact foldl_keeps (fun x : State × Nat => p x.1) fun x t => hp x.1 t.1 _

end

theorem State.foldl_parkAt (taken : List (Nat × Nat × Nat)) (x : State × Nat) (m : Nat) :
    ∃ a, (taken.foldl (fun x t => (x.1.setTeam t.1 { x.1.team t.1 with parkAt := x.2 }, x.2 + t.2.2)) x).1.team m =
      { x.1.team m with parkAt := a } := by
  induction taken generalizing x with
  | nil => exact ⟨_, rfl⟩
  | cons t r ih =>
    obtain ⟨a, ha⟩ := ih (x.1.setTeam t.1 { x.1.team t.1 with parkAt := x.2 }, x.2 + t.2.2)
    refine ⟨a, ha.trans ?_⟩
    rw [State.team_setTeam]
    split
    · next h => rw [h]
    · rfl

/-- And of a team no more than the place of its record, where that is what is placed. -/
theorem State.placeIn_parkAt (s : State) (taken : List (Nat × Nat × Nat)) (limit n m : Nat) :
    ∃ a, (s.placeIn taken limit n fun T o => { T with parkAt := o }).1.team m = { s.team m with parkAt := a } := by
  unfold State.placeIn
  split
  · exact ⟨_, rfl⟩
  · exact State.foldl_parkAt taken (s, 0) m

/-- The cached register groups of a team are free. -/
def State.uncacheTeam (s : State) (tn : Nat) : State :=
  let c := s.core (s.team tn).core
  { s with fresh := s.fresh + 1 }.setCore (s.team tn).core { c with
    rcache := c.rcache.filter fun p => p.1 != tn, wbuf := c.wbuf.filter fun w => w.team != tn }

/-- The state in which the park area has a place for the record of a team, and the place. -/
def State.placeParked (s : State) (tn : Nat) : State × Nat :=
  let u := s.uncacheTeam tn
  u.placeIn (u.parkTaken (dieOfCore (s.team tn).core)) (2 ^ 32) (4096 + 131072 * (u.nodeOf (s.team tn).block).accs)
    fun T o => { T with parkAt := o }

/-- A team without its slot, its registers written back to its context, and its record at `a` in the park area. -/
def Team.park (t : Team) (n a : Nat) : Team :=
  { t with resident := false, parked := true, parking := false, parkedAt := n, parkAt := a, vback := t.v }

@[simp] theorem Team.park_lane (t : Team) (n a L : Nat) : (t.park n a).lane L = t.lane L := rfl
@[simp] theorem Team.park_vreg (t : Team) (n a L m : Nat) : (t.park n a).vreg L m = t.vreg L m := rfl

theorem Team.park_frame {t u : Team} (n a : Nat)
    (h : u = { t with lanes := u.lanes, v := u.v, nonzero := u.nonzero, service := u.service }) :
    u.park n a = { t with
      lanes := (u.park n a).lanes, service := (u.park n a).service, v := (u.park n a).v, nonzero := (u.park n a).nonzero,
      resident := false, parked := true, parking := false, parkedAt := n, parkAt := (u.park n a).parkAt,
      vback := (u.park n a).v } := by
  rw [h]
  rfl

theorem State.parkNow_eq (s : State) (tn : Nat) : s.parkNow tn =
    (s.placeParked tn).1.setTeam tn ((s.team tn).loseWatches.park s.fresh (s.placeParked tn).2) := rfl

/-- To park a team changes its teams and what `uncacheTeam` says. -/
theorem State.parkNow_keeps {β : Type} (p : State → β) (hp : ∀ s t T, p (State.setTeam s t T) = p s) (s : State) (tn : Nat) :
    p (s.parkNow tn) = p (s.uncacheTeam tn) := by
  rw [State.parkNow_eq, hp]
  exact State.placeIn_keeps _ _ _ _ _ p hp

theorem State.parkNow_team_self (s : State) (tn : Nat) :
    (s.parkNow tn).team tn = (s.team tn).loseWatches.park s.fresh (s.placeParked tn).2 := by
  rw [State.parkNow_eq, State.team_setTeam_self]

theorem State.parkNow_team_other (s : State) {tn m : Nat} (h : m ≠ tn) :
    (s.parkNow tn).team m = { s.team m with parkAt := ((s.parkNow tn).team m).parkAt } := by
  obtain ⟨a, ha⟩ : ∃ a, (s.placeParked tn).1.team m = { s.team m with parkAt := a } := State.placeIn_parkAt _ _ _ _ m
  rw [State.parkNow_eq, State.team_setTeam_ne _ _ h, ha]

/-- What a team that parks leaves of its lanes and registers (10 R274). -/
theorem State.parkNow_team (s : State) (tn : Nat) :
    let T := s.team tn
    let U := (s.parkNow tn).team tn
    let watched (L : Nat) : Prop := L < 64 ∧ ∃ d, (T.lane L).st = .waiting (.watch d)
    U = { T with lanes := U.lanes, service := U.service, v := U.v, nonzero := U.nonzero, resident := false, parked := true,
                 parking := false, parkedAt := s.fresh, parkAt := U.parkAt, vback := U.v } ∧
    (∀ L, (U.lane L).watch = .none) ∧
    (∀ L, ¬ watched L → U.lane L = { T.lane L with watch := .none, arrival := (U.lane L).arrival }) ∧
    (∀ L, watched L → (U.lane L).st = .ready) ∧ RegsLosingWatches T U := by
  intro T U watched
  have hU : U = T.loseWatches.park s.fresh (s.placeParked tn).2 := s.parkNow_team_self tn
  clear_value U
  subst hU
  refine ⟨Team.park_frame _ _ T.loseWatches_frame, fun L => ?_, fun L hL => ?_, fun L hL => ?_,
    regsLosingWatches_of_vreg fun L n => Team.park_vreg _ _ _ L n⟩
  all_goals
    rw [Team.park_lane]
    obtain ⟨a, ha⟩ := T.loseWatches_lane L
    rw [ha]
  · by_cases h64 : L < 64
    · rw [if_pos h64, Lane.loseWatch_of_other fun d hd => hL ⟨h64, d, hd⟩]
    · rw [if_neg h64]
  · obtain ⟨h64, d, hd⟩ := hL
    rw [if_pos h64, Lane.loseWatch_of_watch hd]
    rfl

/-- What waits before a save or a park is over (05 R146; 10 R245; 11 R295). -/
theorem State.saveReady_of_idle {s : State} {tn : Nat} (hld : (s.team tn).ldc = 0) (htl : (s.team tn).tlc = 0)
    (hsc : s.scPending tn = false) : s.saveReady tn = true := by
  simp [State.saveReady, hld, htl, hsc]

theorem execTeamPark_of_ready {s : State} {tn : Nat} (hres : (s.team tn).resident = true) (hstays : (s.team tn).stays = false)
    (hwaits : s.emitWaits tn = true) (hready : s.saveReady tn = true) (hcp : (s.team tn).cpc = 0)
    (hfill : (s.team tn).filling = []) (hroom : s.parkRoom tn = true) :
    execTeamPark tn s = .next (s.parkNow tn) := by
  have hpark : s.parkReady tn = true := by simp [State.parkReady, hready, hcp, hfill]
  simp only [execTeamPark, State.parkTeam, hres, hstays, hwaits, hroom, hpark, Bool.not_true, Bool.not_false, Bool.and_self,
    Bool.false_eq_true, if_false, if_true]

/-! ### Resumption of a parked team (04 R114; 05 R132) -/

/-- The pick among numbers of which there are some is one of them. -/
theorem getD_freePick_mem {l : List Nat} (h : 1 ≤ l.length) (stamp i : Nat) :
    l.getD (Config.freePick stamp i % l.length) 0 ∈ l := by
  have hlt := Nat.mod_lt (Config.freePick stamp i) h
  rw [List.getD_eq_getElem _ _ hlt]
  exact List.getElem_mem hlt

theorem State.freeTeamSlots_of_resumeFits {s : State} {tn : Nat} (h : s.resumeFits tn = true) :
    1 ≤ (s.freeTeamSlots (s.team tn).core).length := by
  simp only [State.resumeFits, State.slotsFree, Bool.and_eq_true, decide_eq_true_eq] at h
  obtain ⟨⟨⟨⟨hslots, -⟩, -⟩, -⟩, -⟩ := h
  exact hslots

theorem execTeamResume_of_oldest {s : State} {tn : Nat} (hres : s.resumable tn = true) (hfits : s.resumeFits tn = true)
    (hover : (s.team tn).overflowed = false)
    (hold : ∀ o ∈ s.teams, o.2.core = (s.team tn).core → o.2.parkedAt < (s.team tn).parkedAt → s.resumable o.1 = false) :
    let free := s.freeTeamSlots (s.team tn).core
    execTeamResume tn s = .next (((s.setTeam tn { s.team tn with
      parked := false, resident := true, slot := free.getD (Config.freePick s.stamp tn % free.length) 0 }).restoreWalk
      tn).reenter tn) := by
  have holder : (s.teams.any fun o => o.2.core == (s.team tn).core && o.2.parkedAt < (s.team tn).parkedAt && s.resumable o.1) =
      false := by
    refine List.any_eq_false.mpr fun o ho => ?_
    simpa using hold o ho
  simp only [execTeamResume, hres, hfits, hover, holder, Bool.not_false, Bool.and_self, Bool.false_eq_true, if_false, if_true]

/-! ### What memory leaves of blocks and teams -/

/-- Blocks and teams, apart from the rest of the state. -/
def State.work (s : State) : SMap Block × SMap Team := (s.blocks, s.teams)

theorem State.work_foldl {α : Type} {f : State → α → State} (hf : ∀ s a, (f s a).work = s.work) (l : List α) (s : State) :
    (l.foldl f s).work = s.work := foldl_keeps State.work hf

@[simp] theorem State.setFunc_work (s : State) (f : Nat) (v : Func) : (s.setFunc f v).work = s.work := Prod.ext rfl rfl
@[simp] theorem State.setYard_work (s : State) (d : Nat) (v : Yard) : (s.setYard d v).work = s.work := Prod.ext rfl rfl
@[simp] theorem State.bbEvent_work (s : State) (d k v : Nat) : (s.bbEvent d k v).work = s.work := Prod.ext rfl rfl
@[simp] theorem State.tellLead_work (s : State) (u l : Nat) : (s.tellLead u l).work = s.work := by rw [State.tellLead_eq]; rfl
@[simp] theorem State.tellUnits_work (s : State) (u v : Nat) : (s.tellUnits u v).work = s.work :=
  (State.tellLead_work _ _ _).trans (State.tellLead_work _ _ _)
@[simp] theorem State.callHome_work (s : State) (n : Nat) (t : Target) : (s.callHome n t).work = s.work := by
  rw [State.callHome_eq]; rfl
@[simp] theorem State.revoke_work (s : State) (who w : Nat) : (s.revoke who w).work = s.work := by
  unfold State.revoke
  dsimp only
  split
  · rfl
  · exact State.callHome_work _ _ _
@[simp] theorem State.l1Room_work (s : State) (core line : Nat) : (s.l1Room core line).work = s.work := by
  unfold State.l1Room
  dsimp only
  split <;> rfl
@[simp] theorem State.own_work (s : State) (who ts : Nat) (keep : Bool) (w : Nat) : (s.own who ts keep w).work = s.work := by
  unfold State.own
  dsimp only
  split
  · exact State.revoke_work _ _ _
  · exact (State.l1Room_work _ _ _).trans (State.revoke_work _ _ _)
@[simp] theorem State.hbmWrite_work (s : State) (p n v : Nat) : (s.hbmWrite p n v).work = s.work := by
  induction n generalizing s p v with
  | zero => rfl
  | succ k ih => exact ih _ _ _
@[simp] theorem State.rawWrite_work (s : State) (p n v : Nat) : (s.rawWrite p n v).work = s.work := by
  rw [← State.hbmWrite_work s p n v]
  exact Prod.ext rfl rfl
@[simp] theorem State.writeLog_work (s : State) (die : Nat) (k : LogKind) (kind func job unit ts a b : Nat) :
    (s.writeLog die k kind func job unit ts a b).work = s.work := by
  unfold State.writeLog
  dsimp only
  split
  · rfl
  · simp only [State.setYard_work, State.rawWrite_work]
@[simp] theorem State.logBatchCores_work (s : State) (die func job unit ts : Nat) (cs : List (Nat × Nat)) :
    (s.logBatchCores die func job unit ts cs).work = s.work := by
  fun_induction State.logBatchCores s die func job unit ts cs with
  | case1 s => rfl
  | case2 s c => exact State.writeLog_work _ _ _ _ _ _ _ _ _ _
  | case3 s c c' r enc ih => exact ih.trans (State.writeLog_work _ _ _ _ _ _ _ _ _ _)
@[simp] theorem State.logBatch_work (s : State) (line : Nat) (b : List Pair) : (s.logBatch line b).work = s.work := by
  unfold State.logBatch
  split
  · rfl
  · exact (State.logBatchCores_work _ _ _ _ _ _ _).trans (State.writeLog_work _ _ _ _ _ _ _ _ _ _)
@[simp] theorem State.raise_work (s : State) (f v : Nat) : (s.raise f v).work = s.work := by
  unfold State.raise
  generalize (if f = 0 then 256 else 32 : Nat) = k
  split <;> rfl
@[simp] theorem State.eventCrossing_work (s : State) (f node i old new : Nat) :
    (s.eventCrossing f node i old new).work = s.work := by
  unfold State.eventCrossing
  dsimp only
  split
  · rfl
  split
  · exact State.raise_work _ _ _
  split
  · split <;> rfl
  · rfl

/-- Every lane of a team is EXITED. -/
def Team.ended (t : Team) : Prop := ∀ L, (t.lane L).st = .exited

theorem Team.ended_setLane {t : Team} (h : t.ended) {L : Nat} {l : Lane} (hl : l.st = .exited) : (t.setLane L l).ended := by
  intro M
  rw [Team.lane_setLane]
  split
  · exact hl
  · exact h M

/-- A write to its watched line wakes a lane. -/
def Team.wake (t : Team) (L : Nat) : Team :=
  let l := t.lane L
  match l.st with
  | .waiting (.watch d) => (t.setLane L { l.release 1 with watch := .none }).setV L d 0
  | _ => t.setLane L { l with watch := .triggered }

theorem Team.trigger_eq (t : Team) (line : Nat) : t.trigger line =
    let hit := laneList.filter fun L => (t.lane L).watch == .armed line
    if hit = [] then t else (hit.foldl Team.wake t).refresh := rfl

theorem Team.wake_of_exited {t : Team} {L : Nat} (h : (t.lane L).st = .exited) :
    t.wake L = t.setLane L { t.lane L with watch := .triggered } := by
  simp only [Team.wake, h]

theorem Team.ended_foldl_wake {t : Team} (h : t.ended) (ls : List Nat) : (ls.foldl Team.wake t).ended := by
  induction ls generalizing t with
  | nil => exact h
  | cons L r ih =>
    refine ih ?_
    rw [Team.wake_of_exited (h L)]
    exact Team.ended_setLane h (h L)

/-- A team that has ended stays so whatever line is written. -/
theorem Team.ended_trigger {t : Team} (h : t.ended) (line : Nat) : (t.trigger line).ended := by
  rw [Team.trigger_eq]
  dsimp only
  split
  · exact h
  · exact fun L => Team.ended_foldl_wake h _ L

/-- From `s` to `t` no block has changed, and a team that had ended has stayed so: what a write of memory leaves, as it wakes lanes
that watch its line. -/
structure State.Wakes (s t : State) : Prop where
  blocks : t.blocks = s.blocks
  ended : ∀ n, (s.team n).ended → (t.team n).ended

theorem State.Wakes.of_work {s t : State} (h : t.work = s.work) : s.Wakes t := by
  obtain ⟨hb, ht⟩ := Prod.mk.inj h
  exact ⟨hb, fun n hn => by rwa [State.team_of_teams ht]⟩

theorem State.Wakes.refl (s : State) : s.Wakes s := .of_work rfl

theorem State.Wakes.trans {s t u : State} (h : s.Wakes t) (h' : t.Wakes u) : s.Wakes u :=
  ⟨h'.blocks.trans h.blocks, fun n hn => h'.ended n (h.ended n hn)⟩

theorem State.Wakes.foldl {α : Type} {f : State → α → State} (hf : ∀ (s : State) a, s.Wakes (f s a)) (l : List α) (s : State) :
    s.Wakes (l.foldl f s) := by
  induction l generalizing s with
  | nil => exact .refl s
  | cons a r ih => exact (hf s a).trans (ih _)

theorem State.wakes_trigger (s : State) (line : Nat) : s.Wakes (s.trigger line) := by
  refine ⟨rfl, fun n hn => ?_⟩
  rcases SMap.get_map s.teams {} (fun t => t.trigger line) n with h | ⟨h, hd⟩
  · exact (show (s.trigger line).team n = (s.team n).trigger line from h) ▸ Team.ended_trigger hn line
  · exact (show (s.trigger line).team n = s.team n from h.trans hd.symm) ▸ hn

theorem State.wakes_poke (s : State) (who ts : Nat) (keep : Bool) (t : Target) (n v : Nat) :
    s.Wakes (s.poke who ts keep t n v) := by
  cases t with
  | hbm p =>
    refine .trans (.of_work ?_) (State.wakes_trigger _ _)
    exact (State.work_foldl (fun s w => State.own_work s _ _ _ w) _ _).trans (State.rawWrite_work _ _ _ _)
  | vault c o =>
    let u : State := { s with vaults := Memory.write s.vaults (2 ^ 23 * c + o) n v }
    exact .trans (t := u.ownAt who ts (.vault c o) n) (.of_work rfl) (State.wakes_trigger _ _)
  | host p => exact .of_work rfl
  | remote a p => exact .of_work rfl
  | door p => exact .refl s

theorem State.wakes_applyLine (s : State) (line : Nat) : s.Wakes (s.applyLine line) := by
  unfold State.applyLine
  split
  · exact .refl s
  · refine .trans (t := List.foldl _ _ _) ?_ (.of_work rfl)
    refine .trans (.of_work ?_) (.foldl (fun s k => State.wakes_poke s _ _ _ _ _ _) _ _)
    exact (State.work_foldl (fun s q => State.hbmWrite_work s _ _ _) _ _).trans
      ((State.logBatch_work _ _ _).trans (State.tellUnits_work _ _ _))

theorem State.wakes_reach (s : State) (t : Target) : s.Wakes (s.reach t) := by
  cases t with
  | hbm p => exact State.wakes_applyLine s _
  | vault c o | host p | remote a p | door o => exact .refl s

theorem State.wakes_devWrite {s t : State} {f a n v : Nat} (h : s.devWrite f a n v = some t) : s.Wakes t := by
  unfold State.devWrite at h
  split at h
  · cases h
  · split at h
    · split at h <;> cases h
      · exact (State.wakes_reach _ _).trans (State.wakes_poke _ _ _ _ _ _ _)
      · exact .of_work rfl
    · cases h

theorem State.raiseAfter_work (s : State) (f v : Nat) : (s.raiseAfter f v).work = s.work := by
  unfold State.raiseAfter State.afterPosted
  split
  · rfl
  · exact State.raise_work _ _ _

theorem State.wakes_addEvent (s : State) (f node i n : Nat) : s.Wakes (s.addEvent f node i n) := by
  unfold State.addEvent
  dsimp only
  split
  · exact (State.wakes_reach _ _).trans ((State.wakes_poke _ _ _ _ _ _ _).trans (.of_work (State.eventCrossing_work _ _ _ _ _ _)))
  · exact .refl s

/-! ### Stopping a block (17 R391) -/

theorem State.wakes_stopReport (s : State) (b : Nat) (i : StopInfo) : s.Wakes (s.stopReport b i) := by
  unfold State.stopReport
  dsimp only
  refine .trans ?_ (.of_work (State.bbEvent_work _ _ _ _))
  split
  · exact .of_work rfl
  · split
    · exact .of_work rfl
    · next t ht =>
      have hw : s.Wakes t := .trans (.of_work (State.setFunc_work _ _ _)) (State.wakes_devWrite ht)
      split
      · exact hw.trans (.of_work (State.raiseAfter_work _ _ _))
      · exact hw

theorem Team.ended_exitAll (t : Team) : t.exitAll.ended := by
  intro L
  rcases SMap.get_map t.lanes {} (fun l => { l with st := .exited, hold := .none, watch := .none }) L with h | ⟨h, -⟩
  · exact congrArg Lane.st h
  · exact congrArg Lane.st h

/-- A team of a block that stops. -/
def State.endTeam (s : State) (tn : Nat) : State :=
  (s.dropWalk tn).setTeam tn { (s.team tn).exitAll with parked := false, saved := false }

theorem State.dropWalk_work (s : State) (tn : Nat) : (s.dropWalk tn).work = s.work := by
  unfold State.dropWalk
  dsimp only
  split <;> rfl

theorem State.endTeam_ended (s : State) (tn n : Nat) (h : n = tn ∨ (s.team n).ended) : ((s.endTeam tn).team n).ended := by
  rw [State.endTeam, State.team_setTeam]
  split
  · exact Team.ended_exitAll _
  · next hne =>
    rw [State.team_of_teams (congrArg Prod.snd (s.dropWalk_work tn))]
    exact h.resolve_left hne

theorem State.foldl_endTeam_ended (ts : List Nat) (s : State) (n : Nat) (h : n ∈ ts ∨ (s.team n).ended) :
    ((ts.foldl State.endTeam s).team n).ended := by
  induction ts generalizing s with
  | nil => exact h.resolve_left List.not_mem_nil
  | cons tn r ih =>
    refine ih _ ?_
    rcases h with h | h
    · rcases List.mem_cons.mp h with rfl | h
      · exact .inr (s.endTeam_ended _ _ (.inl rfl))
      · exact .inl h
    · exact .inr (s.endTeam_ended _ _ (.inr h))

theorem State.addEvents_ended {s : State} (b n : Nat) (h : (s.team n).ended) : ((s.addEvents b).team n).ended := by
  unfold State.addEvents
  dsimp only
  rw [State.team_setBlock]
  split
  · exact h
  · exact (State.Wakes.foldl (fun s e => State.wakes_addEvent s _ _ _ _) _ _).ended n h

/-- What a block that stops has in flight is aborted or dropped (17 R391 steps 1 to 3). -/
def State.dropWork (s : State) (b : Nat) (ts : List Nat) : State :=
  let n := (s.block b).core
  let u := s.setCore n ((s.core n).abortCopies b)
  let v : State := { u with
    engines := (u.engines.filter fun e => !(e.block == b && (match e.kind with | .fenceSc _ => true | _ => false))).map
      fun e => if e.block = b then { e with aborted := true } else e
    pendingTraps := u.pendingTraps.filter fun p => !ts.contains p.1
    answers := u.answers.filter fun w => !ts.contains w.who.team }
  (v.dropPending b).discardHeld b

theorem State.haltBlock_eq (s : State) (b reason : Nat) : s.haltBlock b reason =
    let u := ((s.block b).teams.foldl State.endTeam s).dropWork b (s.block b).teams
    let v := if u.eventRoom b then u.addEvents b else u
    let w := v.setRun (v.block b).run { v.run (v.block b).run with stopped := true }
    w.setBlock b { w.block b with place := .retired, stop := reason, preempt := false, savedVault := [], bars := [] } := rfl

theorem State.dropWork_teams (s : State) (b : Nat) (ts : List Nat) : (s.dropWork b ts).teams = s.teams := rfl

/-- A halted block has stopped with its reason, and every lane of its teams has ended. -/
theorem State.haltBlock_stops (s : State) (b reason : Nat) :
    let t := s.haltBlock b reason
    (t.block b).place = .retired ∧ (t.block b).stop = reason ∧ ∀ n ∈ (s.block b).teams, (t.team n).ended := by
  intro t
  unfold t
  rw [State.haltBlock_eq]
  dsimp only
  rw [State.block_setBlock_self]
  refine ⟨rfl, rfl, fun n hn => ?_⟩
  have hend := State.foldl_endTeam_ended (s.block b).teams s n (.inl hn)
  rw [← State.team_of_teams (State.dropWork_teams _ b (s.block b).teams)] at hend
  rw [State.team_setBlock, State.team_setRun]
  split
  · exact State.addEvents_ended b n hend
  · exact hend

/-- And so does one that is stopped. -/
theorem State.stopBlock_stops {s : State} {b : Nat} (i : StopInfo) (h : (s.block b).place ≠ .retired) :
    let t := s.stopBlock b i
    (t.block b).place = .retired ∧ (t.block b).stop = i.reason ∧ ∀ n ∈ (s.block b).teams, (t.team n).ended := by
  have hne : ¬ ((s.block b).place == .retired) = true := by simpa using h
  rw [State.stopBlock, if_neg hne]
  have hblock : (s.stopReport b i).block b = s.block b := by
    rw [State.block, (s.wakes_stopReport b i).blocks, State.block]
  rw [← hblock]
  exact State.haltBlock_stops _ b _

/-- The default handler gives up with reason DEFAULT (17 R390). -/
theorem State.defaultStop_stops (s : State) (tn L : Nat) (h : (s.block (s.team tn).block).place ≠ .retired) :
    let t := s.defaultStop tn L
    (t.block (s.team tn).block).place = .retired ∧ (t.block (s.team tn).block).stop = 1 ∧
      ∀ n ∈ (s.block (s.team tn).block).teams, (t.team n).ended := State.stopBlock_stops _ h

theorem execLogfullTimeout_of_waiting {s : State} {tn L k die : Nat}
    (h : ((s.team tn).lane L).st = .waiting (.logRoom k die)) :
    execLogfullTimeout tn L s = .next (if s.handlersRun tn then s.defaultStop tn L else s) := by
  simp only [execLogfullTimeout, h]

theorem State.running_of_handlersRun {s : State} {tn : Nat} (h : s.handlersRun tn = true) :
    (s.block (s.team tn).block).place = .running := by
  simp only [State.handlersRun, State.teamRuns, Bool.and_eq_true, beq_iff_eq] at h
  obtain ⟨⟨-, hrun⟩, -⟩ := h
  exact hrun

/-! ### Full saves (17 R400, R402) -/

/-- Team `u` stands saved, with the registers that `t` has once its watches are lost. -/
structure Team.SavedAs (t u : Team) : Prop where
  saved : u.saved = true
  seat : u.resident = false
  regs : u.v = t.loseWatches.v
  masks : u.k = t.k
  waits : ∀ L < 64, ∀ d, (u.lane L).st ≠ .waiting (.watch d)

/-- A team whose registers are in the save image, with the walk that goes there. -/
def Team.stow (t : Team) (w : Option Walker) : Team :=
  { t with saved := true, resident := false, parking := false, stays := false, walk := w }

@[simp] theorem Team.stow_v (t : Team) (w : Option Walker) : (t.stow w).v = t.v := rfl
@[simp] theorem Team.stow_k (t : Team) (w : Option Walker) : (t.stow w).k = t.k := rfl
@[simp] theorem Team.stow_lane (t : Team) (w : Option Walker) (L : Nat) : (t.stow w).lane L = t.lane L := rfl

@[simp] theorem State.dropWalk_hbm (s : State) (tn : Nat) : (s.dropWalk tn).hbm = s.hbm := by
  unfold State.dropWalk
  dsimp only
  split <;> rfl

theorem State.dropWalk_of_own {s : State} {tn : Nat} (h : (s.core (s.team tn).core).walker.owner = tn + 1) :
    s.dropWalk tn =
      let n := (s.team tn).core
      let u := s.unlock n (s.core n).walker.lockOp
      u.setCore n { u.core n with walker := {} } := if_pos h

theorem State.dropWalk_of_other {s : State} {tn : Nat} (h : (s.core (s.team tn).core).walker.owner ≠ tn + 1) :
    s.dropWalk tn = s := if_neg h

/-- A team that is saved whole takes its walk with it. -/
theorem State.saveTeam_none (s : State) (tn : Nat) :
    ∃ w, s.saveTeam tn none = (s.dropWalk tn).setTeam tn ((s.team tn).loseWatches.stow w) := by
  by_cases h : (s.core (s.team tn).core).walker.owner = tn + 1
  · refine ⟨some (s.core (s.team tn).core).walker, ?_⟩
    rw [State.dropWalk_of_own h]
    simp only [State.saveTeam, h, beq_self_eq_true, if_true, List.foldl_nil]
    rfl
  · refine ⟨(s.team tn).walk, ?_⟩
    rw [State.dropWalk_of_other h]
    simp only [State.saveTeam, beq_eq_false_iff_ne.mpr h, Bool.false_eq_true, if_false, List.foldl_nil]
    rfl

theorem Team.savedAs_stow (t : Team) (w : Option Walker) : t.SavedAs (t.loseWatches.stow w) where
  saved := rfl
  seat := rfl
  regs := t.loseWatches.stow_v w
  masks := by rw [Team.stow_k, Team.loseWatches_k]
  waits L hL d := by
    rw [Team.stow_lane]
    exact t.loseWatches_st hL d

/-- A saved team that is saved again stays as it is. -/
theorem Team.SavedAs.again {t u : Team} (h : t.SavedAs u) (w : Option Walker) : t.SavedAs (u.loseWatches.stow w) := by
  obtain ⟨hsaved, hseat, hregs, hmasks, hwaits⟩ := u.savedAs_stow w
  exact ⟨hsaved, hseat, hregs.trans ((Team.loseWatches_v h.waits).trans h.regs), hmasks.trans h.masks, hwaits⟩

/-- From `s` to `t` HBM and blocks stay, and so does a saved team `n`. -/
structure State.KeepsSaved (n : Nat) (s t : State) : Prop where
  hbm : t.hbm = s.hbm
  blocks : t.blocks = s.blocks
  team : ∀ T : Team, T.SavedAs (s.team n) → T.SavedAs (t.team n)

theorem State.KeepsSaved.trans {n : Nat} {s t u : State} (h : s.KeepsSaved n t) (h' : t.KeepsSaved n u) : s.KeepsSaved n u :=
  ⟨h'.hbm.trans h.hbm, h'.blocks.trans h.blocks, fun T hT => h'.team T (h.team T hT)⟩

theorem State.KeepsSaved.of_teams {n : Nat} {s t : State} (hm : t.hbm = s.hbm) (hb : t.blocks = s.blocks)
    (ht : t.teams = s.teams) : s.KeepsSaved n t := ⟨hm, hb, fun T hT => by rwa [State.team_of_teams ht]⟩

theorem State.KeepsSaved.of_work {n : Nat} {s t : State} (hm : t.hbm = s.hbm) (h : t.work = s.work) : s.KeepsSaved n t :=
  .of_teams hm (congrArg Prod.fst h) (congrArg Prod.snd h)

theorem State.KeepsSaved.foldl {α : Type} {n : Nat} {f : State → α → State} (hf : ∀ (s : State) a, s.KeepsSaved n (f s a))
    (l : List α) (s : State) : s.KeepsSaved n (l.foldl f s) := by
  induction l generalizing s with
  | nil => exact .of_teams rfl rfl rfl
  | cons a r ih => exact (hf s a).trans (ih _)

/-- A team is stored that keeps what a saved one keeps. -/
theorem State.KeepsSaved.setTeam {n : Nat} {s u : State} (h : s.KeepsSaved n u) {m : Nat} {v : Team}
    (hv : ∀ T : Team, T.SavedAs (u.team m) → T.SavedAs v) : s.KeepsSaved n (u.setTeam m v) := by
  refine h.trans ⟨rfl, rfl, fun T hT => ?_⟩
  rw [State.team_setTeam]
  split
  · next hm => exact hv T (hm ▸ hT)
  · exact hT

theorem State.keepsSaved_dropWalk (n : Nat) (s : State) (m : Nat) : s.KeepsSaved n (s.dropWalk m) :=
  .of_work (s.dropWalk_hbm m) (s.dropWalk_work m)

theorem State.keepsSaved_saveTeam (n : Nat) (s : State) (m : Nat) : s.KeepsSaved n (s.saveTeam m none) := by
  obtain ⟨w, h⟩ := s.saveTeam_none m
  rw [h]
  refine (s.keepsSaved_dropWalk n m).setTeam fun T hT => ?_
  rw [State.team_of_teams (congrArg Prod.snd (s.dropWalk_work m))] at hT
  exact hT.again w

theorem State.keepsSaved_savePark (n : Nat) (s : State) (m : Nat) : s.KeepsSaved n (s.savePark m) := by
  refine (s.keepsSaved_saveTeam n m).setTeam ?_
  generalize (s.saveTeam m none).team m = U
  exact fun T hT => ⟨hT.saved, hT.seat, hT.regs, hT.masks, hT.waits⟩

theorem State.keepsSaved_keepWalk (n : Nat) (s : State) (m : Nat) : s.KeepsSaved n (s.keepWalk m) := by
  by_cases h : (s.core (s.team m).core).walker.owner = m + 1
  · have hkeep : s.keepWalk m = (s.dropWalk m).setTeam m
        { (s.dropWalk m).team m with walk := some (s.core (s.team m).core).walker } := by
      rw [State.dropWalk_of_own h]
      exact if_pos h
    rw [hkeep]
    exact (s.keepsSaved_dropWalk n m).setTeam fun T hT => ⟨hT.saved, hT.seat, hT.regs, hT.masks, hT.waits⟩
  · rw [show s.keepWalk m = s from if_neg h]
    exact .of_teams rfl rfl rfl

theorem State.keepsSaved_leaveCore (n : Nat) (s : State) (b : Nat) : s.KeepsSaved n (s.leaveCore b) := by
  unfold State.leaveCore
  refine .trans (t := State.setCore s _ _) (.of_teams rfl rfl rfl) (.foldl (fun s tn => ?_) _ _)
  exact KeepsSaved.setTeam (.of_teams rfl rfl rfl) fun _ hT => ⟨hT.saved, rfl, hT.regs, hT.masks, hT.waits⟩

/-- A block whose teams are all saved or have ended is saved; until then it stays as it is. -/
theorem State.blockSaved_cases (n : Nat) (s : State) (b : Nat) : s.blockSaved b = s ∨
    ∃ t k, s.KeepsSaved n t ∧ k.fullSave = (s.block b).fullSave ∧ s.blockSaved b = t.setBlock b k := by
  unfold State.blockSaved
  dsimp only
  split
  · refine .inr ⟨_, _, .trans (.foldl (fun s tn => ?_) _ _) (State.keepsSaved_leaveCore n _ b), ?_, rfl⟩
    swap
    · rfl
    split
    · exact .of_teams rfl rfl rfl
    · split
      · exact State.keepsSaved_keepWalk n s tn
      · exact State.keepsSaved_savePark n s tn
  · exact .inl rfl

/-- What the full save of a team leaves. -/
theorem State.fullSaveTeam_saves (s : State) (tn kind : Nat) :
    let t := s.fullSaveTeam tn kind
    (s.team tn).SavedAs (t.team tn) ∧ (t.block (s.team tn).block).fullSave = true ∧ t.hbm = s.hbm := by
  intro t
  obtain ⟨w, h⟩ := s.saveTeam_none tn
  have hteam : (s.team tn).SavedAs ((s.saveTeam tn none).team tn) := by
    rw [h, State.team_setTeam_self]
    exact Team.savedAs_stow _ w
  have hmem : (s.saveTeam tn none).hbm = s.hbm := (s.keepsSaved_saveTeam tn tn).hbm
  unfold t State.fullSaveTeam
  dsimp only
  generalize s.saveTeam tn none = x at hteam hmem
  rcases State.blockSaved_cases tn (x.setBlock (s.team tn).block { x.block (s.team tn).block with
      fullSave := true, saveKind := max (x.block (s.team tn).block).saveKind kind }) (s.team tn).block with
    hsame | ⟨y, k, hkeeps, hfull, hblock⟩
  · rw [hsame, State.block_setBlock_self]
    exact ⟨hteam, rfl, hmem⟩
  · rw [hblock, State.block_setBlock_self]
    rw [State.block_setBlock_self] at hfull
    exact ⟨hkeeps.team _ hteam, hfull, hkeeps.hbm.trans hmem⟩

theorem execFullSave_of_ready {s : State} {tn : Nat} (hpre : (s.block (s.team tn).block).preempt = true)
    (hrun : (s.block (s.team tn).block).place = .running) (hres : (s.team tn).resident = true)
    (hsaved : (s.team tn).saved = false) (hready : s.saveReady tn = true) (hfill : (s.team tn).filling = [])
    (htraps : ∀ p ∈ s.pendingTraps, p.1 ≠ tn) :
    execFullSave tn s = .next (s.fullSaveTeam tn (if (s.func (s.block (s.team tn).block).func).cut then 2 else 1)) := by
  have hnone : (s.pendingTraps.any fun p => p.1 == tn) = false :=
    List.any_eq_false.mpr fun p hp => by simpa using htraps p hp
  exact if_pos (by simp [hpre, hrun, hres, hsaved, hready, hfill, hnone])

/-! ### Saved blocks and function reset (17 R401, R404) -/

theorem execSavedBlockResume_of_ready {s : State} {b n : Nat} (hready : s.savedReady b = true)
    (hfeat : (s.nodeOf b).featreq &&& 0x1FFF = (s.nodeOf b).featreq)
    (hlayout : (s.block b).saveLayout = s.dev.savelayout.toNat) (hbad : (s.block b).saveBad = false)
    (hcore : s.resumeCore b n = true) :
    let k := s.block b
    let u := (s.logStart b n (clusterOfCore n != k.cluster) true).seatBlock b n
    let p := (u.block b).vaultPlace
    let size := (s.nodeOf b).vaultb
    let v : State := { u with
      vaults := k.savedVault.foldl (fun m c => Memory.setByte m (p + c.1) c.2) u.vaults
      engines := u.engines.map fun e => if e.block = b then e.moved k.vaultPlace size p else e }
    let w := v.setBlock b { v.block b with
      savedVault := [], fullSave := false, vranges := [], saveKind := 0, stealAt := 0 }
    let x := k.teams.foldl (fun t tn => (t.setTeam tn { t.team tn with
      lanes := (t.team tn).lanes.map fun q => (q.1, q.2.moved k.vaultPlace size p) }).restoreTeam tn n) w
    let y := (x.acquire n).tellCore (yardUnit (dieOfCluster k.cluster)) n
    execSavedBlockResume b n s =
      .next (k.teams.foldl (fun t tn => if (t.team tn).resident then t.reenter tn else t) y) := by
  simp only [execSavedBlockResume, hready, hfeat, hlayout, hbad, hcore, ne_eq, not_true_eq_false, decide_false, Bool.not_true,
    Bool.false_and, Bool.or_self, Bool.false_eq_true, if_false]

theorem execVfReset_of_function {f : Nat} (s : State) (h1 : 1 ≤ f) (h2 : f ≤ 192) :
    let a := s.setFunc f { s.func f with cut := false, evtctl := 0 }
    let q := s.queues.map fun q => if q.2.owner = f && q.2.created then (q.1, q.2.freed) else q
    let r := s.runs.map fun r => if r.2.func = f then (r.1, { r.2 with packet := r.2.packet.mute }) else r
    let u : State := { a with
      queues := q, cutFlits := s.cutFlits.filter fun e => e.func != f, runs := r
      posted := s.posted.filter fun w => w.func != f || w.kind == PostedKind.run }
    let w := (s.jobs.filter fun j => j.func == f).foldl (fun u j => u.cancelUnits f j.job none) u
    let v := (w.cancelRuns ((r.filter fun r => r.2.func == f).map (·.1))).tearRegions f
    execVfReset f s = .next (v.setFunc f (v.func f).reset) := by
  have hf : ¬ (decide (f = 0) || decide (193 ≤ f)) = true := by simp; omega
  exact if_neg hf

/-- No pair of the function is left (17 R404 step 3). -/
theorem State.tearRegions_pairs (s : State) (f : Nat) : ∀ p ∈ (s.tearRegions f).pairs, p.func ≠ f := by
  intro p hp
  obtain ⟨-, hne⟩ := List.mem_filter.mp hp
  exact bne_iff_ne.mp hne

/-! ### The statement of Yards and blocks -/

/-- Settles O51, event by event: what a team loses with its watches by `Team.loseWatches_lane` and `regsLosingWatches_of_vreg`, a
stopped block by `State.stopBlock_stops`, a saved team by `State.fullSaveTeam_saves`. -/
theorem yardAndBlockEvents : Obligations.YardAndBlockEvents := by
  unfold Obligations.YardAndBlockEvents
  refine ⟨?append, ?muster, ?timeout, ?start, ?stealable, ?steal, ?park, ?resume, ?probe, ?retire, ?trap, ?logfull, ?save, ?saved,
    ?reset⟩
  case append =>
    intro s em e he hready x run d told full
    exact ⟨execRecordAppend_of_discards he hready,
      fun h hfull ours hem hrem => execRecordAppend_of_full he hready h hfull hem hrem,
      execRecordAppend_of_room he hready⟩
  case muster => exact fun s r node k hsize hlog hfirst => execMuster_of_first hsize hlog hfirst
  case timeout => exact fun s r node hstate htimer => execMusterTimeout_of_gathering hstate htimer
  case start => exact fun s n b hbay hresume hsaved hbest => execBlockStart_of_best hbay hresume hsaved hbest
  case stealable =>
    intro s b hbay
    exact ⟨_, execStealable_of_bay hbay, State.block_setBlock_self _ _ _, rfl, fun c hc => State.block_setBlock_ne _ _ hc, rfl⟩
  case steal => exact fun s die n b hdie hidle hresume hsaved hfirst hclaim =>
      execSteal_of_first hdie hidle hresume hsaved hfirst hclaim
  case park =>
    intro s tn T nd d hres hstays hwaits hld htl hcp hfill hsc hpark hover
    have hroom : s.parkRoom tn = true := by
      rw [State.parkRoom, Bool.and_eq_true, decide_eq_true_eq, decide_eq_true_eq]
      exact ⟨hpark, hover⟩
    refine ⟨s.parkNow tn, execTeamPark_of_ready hres hstays hwaits (State.saveReady_of_idle hld htl hsc) hcp hfill hroom, ?_,
      fun m hm => s.parkNow_team_other hm, s.parkNow_keeps State.blocks (fun _ _ _ => rfl) tn,
      s.parkNow_keeps State.hbm (fun _ _ _ => rfl) tn, ?_⟩
    · exact s.parkNow_team tn
    · exact (State.parkNow_keeps (fun u => u.core T.core) (fun _ _ _ => rfl) s tn).trans (State.core_setCore_self _ _ _)
  case resume =>
    intro s tn T hres hfits hover hold
    exact ⟨_, getD_freePick_mem (State.freeTeamSlots_of_resumeFits hfits) _ _, execTeamResume_of_oldest hres hfits hover hold⟩
  case probe =>
    intro s r node hprobe hasked htransit hcut k
    have hx := execProbeQuiet_of_quiet hprobe hasked htransit hcut
    rw [State.probeResult_of_unasked hprobe hasked] at hx
    refine ⟨fun h => hx.trans (congrArg _ (if_pos h)), fun h => hx.trans (congrArg _ (if_neg ?_))⟩
    exact ne_true_of_eq_false h
  case retire =>
    intro s b hmay hflight hlogs hroom hcut hver
    exact (execBlockRetire_of_ready hmay hflight hlogs hroom hcut).trans
      (congrArg Host.Outcome.next (State.retireBlock_of_unversioned hver))
  case trap => exact fun s tn L p hp hres hrun => execTrapEntry_of_pending hp hres hrun
  case logfull =>
    intro s tn L k die T l hst hmem _
    have hx := execLogfullTimeout_of_waiting hst
    refine ⟨fun h => ?stops, fun h => hx.trans (by rw [h]; rfl)⟩
    have hrun : (s.block T.block).place ≠ .retired := by
      rw [State.running_of_handlersRun h]
      exact nofun
    obtain ⟨hplace, hstop, hended⟩ := State.defaultStop_stops s tn L hrun
    exact ⟨_, hx.trans (by rw [h]; rfl), hplace, hstop, hended tn hmem L⟩
  case save =>
    intro s tn T k hpre hrun hres hsaved hld htl hfill hsc htraps
    have hready := State.saveReady_of_idle hld htl hsc
    obtain ⟨hteam, hfull, hmem⟩ := s.fullSaveTeam_saves tn (if (s.func k.func).cut then 2 else 1)
    refine ⟨_, execFullSave_of_ready hpre hrun hres hsaved hready hfill htraps, hteam.saved, hteam.seat,
      regsLosingWatches_of_vreg fun L n => ?_, fun n => ?_, hfull, hmem⟩
    · rw [Team.vreg, hteam.regs, Team.vreg]
    · rw [Team.kreg, hteam.masks, Team.kreg]
  case saved =>
    intro s b n k hready hfeat hlayout hbad hcore
    exact execSavedBlockResume_of_ready hready hfeat hlayout hbad hcore
  case reset => exact fun s f h1 h2 => ⟨execVfReset_of_function s h1 h2, State.tearRegions_pairs _ f⟩

/-! ### Reservations by a gate (04 R116, R117; 17 R403)

The port finds the function of a reservation by its gate, counts the message for that function, and then looks its gates up again.
The statement takes both looks to see the same gates. In a table of functions that is not in canonical form an earlier entry can hide
the one with the gate: the count is then stored in place of both entries, and the second look finds no gate. -/

/-- What a port does with a reservation that one gate lets in, to a function that is not cut. -/
theorem execReserve_of_gate {s : State} {m : ReserveMsg} {f job : Nat} (hgate : s.gatesFor m.srcAccel m.job = [(f, job)])
    (hcut : (s.func f).cut = false) :
    execReserve m s = .next ((received s f).takeReserve m
      (((received s f).gatesFor m.srcAccel m.job).find? fun g => g.1 == f)) := by
  have hfunc : State.flitFunc { s with flits := s.flits + 1 } (.reserve m) = some f := by
    have hsame : State.gatesFor { s with flits := s.flits + 1 } m.srcAccel m.job = [(f, job)] := hgate
    simp only [State.flitFunc, State.gateOf, hsame, List.length_singleton, Nat.mod_one, List.getElem?_cons_zero, Option.map_some]
  have huncut : ¬ (State.func { s with flits := s.flits + 1 } f).cut = true := ne_true_of_eq_false hcut
  simp only [execReserve, State.receive, hfunc, if_neg huncut]
  rfl

/-- Function 1 is listed twice, and a gate that lets accelerator 2 in to job 0 stands in its second entry only. -/
def State.hiddenGate : State := { State.reset with funcs := [(1, {}), (1, { gates := [(0, 0x8002000000000000)] })] }

/-- Accelerator 2 asks for one record at node 0 of job 0. -/
def gatedReserve : ReserveMsg := { srcAccel := 2, token := 5, job := 0, node := 0, count := 1, sizem1 := 0, depth := 1 }

theorem State.hiddenGate_gatesFor : State.hiddenGate.gatesFor gatedReserve.srcAccel gatedReserve.job = [(1, 0)] := by
  decide +kernel

theorem State.hiddenGate_uncut : (State.hiddenGate.func 1).cut = false := rfl

/-- Job 0 has no run: reason 1, says the statement. -/
theorem State.hiddenGate_remoteRun : State.hiddenGate.remoteRun 1 0 gatedReserve.node = none := rfl

/-- Once the message is counted no gate is found: the model refuses with reason 0. -/
theorem execReserve_hiddenGate : execReserve gatedReserve State.hiddenGate =
    .next ((received State.hiddenGate 1).send 0x03 gatedReserve.srcAccel gatedReserve.token (bodyWords 0)) := by
  have hgates : (received State.hiddenGate 1).gatesFor gatedReserve.srcAccel gatedReserve.job = [] := by decide +kernel
  rw [execReserve_of_gate State.hiddenGate_gatesFor State.hiddenGate_uncut, hgates]
  rfl

/-! ### The statement of remote records -/

/-- Refutes O52: its part on reservations has no premise that the table of functions is in canonical form, and where an entry hides
the one with the gate the model refuses a reservation to a job without a run with reason 0, not 1. -/
theorem not_remoteRecords : ¬ Obligations.RemoteRecords := by
  unfold Obligations.RemoteRecords
  intro h
  obtain ⟨hreserve, -⟩ := h
  obtain ⟨-, -, huncut⟩ := hreserve State.hiddenGate gatedReserve 1 0
  obtain ⟨hnorun, -⟩ := huncut State.hiddenGate_gatesFor State.hiddenGate_uncut
  have hsame := Host.Outcome.next.inj (execReserve_hiddenGate.symm.trans (hnorun State.hiddenGate_remoteRun))
  have hbody := congrArg (fun t : State => t.sent.map (·.body)) hsame
  exact absurd hbody (by decide +kernel)

end Sys2Proof.Machine
end

section
/-! PROOFS of the statement of LIVE and PHINT (O23): what an issue of the main set that only goes on leaves of its team, what zeroing
register groups leaves of the registers, and that a team which PHINT saves stands saved. -/
namespace Sys2Proof.Machine
open Sys2Proof.Claims

/-! ### Issues whose lanes go on (05 R128; 06 R150; 08 R203) -/

theorem actives_eq_activeLanes (s : State) (iss : Issue) : actives s iss = s.activeLanes iss := by
  simp only [actives, State.activeLanes, laneList, List.contains_eq_mem]

theorem passes_of_issued {s : State} {iss : Issue} {i : Instr} (h : Issued s iss i) : s.passes iss i := by
  obtain ⟨-, -, hrows⟩ := h
  exact fun L hL => hrows L (by rwa [Act, actives_eq_activeLanes])

/-- A lane that an effect names nowhere goes on. -/
theorem Lane.after_of_unnamed (l : Lane) (iss : Issue) (u : State) (L : Nat) :
    l.after iss.pc (nextPc iss.pc iss.len) { st := u } L = goneOn iss l := rfl

/-- An issue whose effect on its team is `T`, and whose lanes all go on, keeps the frame of the team. -/
theorem teamFrame_issuedBy {s u : State} {iss : Issue} {blank : Team → Team} {T : Team}
    (hbare : blank { T with lanes := [], insns := 0, service := [] } =
      blank { s.team iss.team with lanes := [], insns := 0, service := [] })
    (hinsns : T.insns = (s.team iss.team).insns) (hlane : ∀ L, T.lane L = (s.team iss.team).lane L) :
    TeamFrame s (s.setTeam iss.team (T.issuedBy iss { st := u })) iss blank fun _ => goneOn iss := by
  refine ⟨?only, ?bare, ?insns, fun L => ?lane⟩
  case only => rw [OnlyTeam, State.team_setTeam_self]
  case bare =>
    rw [State.team_setTeam_self, Team.issuedBy_eq]
    exact hbare
  case insns =>
    rw [State.team_setTeam_self, Team.issuedBy_eq, ← hinsns]
    rfl
  case lane =>
    rw [State.team_setTeam_self, Team.issuedBy_lane, hlane, Lane.after_of_unnamed]

/-- An issue whose effect is a store of its team. -/
theorem State.finish_setTeam (s w : State) (iss : Issue) (T : Team) :
    s.finish iss [] { st := w.setTeam iss.team T } = w.setTeam iss.team (T.issuedBy iss { st := s }) := by
  rw [State.finish_clean _ _ _ rfl rfl]
  simp only [State.checkMasks, List.foldl_nil, Bool.false_eq_true, if_false, State.team_setTeam_self, State.setTeam_setTeam]
  rfl

/-- An instruction that does nothing but go on. -/
theorem State.issueInstr_still {s : State} {iss : Issue} {i : Instr} (h : s.passes iss i) :
    s.issueInstr iss i (fun _ => { st := s }) =
      s.setTeam iss.team ((s.team iss.team).issuedBy iss { st := s }) := by
  rw [State.issueInstr_clean s iss i _ h, State.finish_clean _ _ _ rfl rfl]
  rfl

theorem teamFrame_still (s : State) (iss : Issue) :
    TeamFrame s (s.setTeam iss.team ((s.team iss.team).issuedBy iss { st := s })) iss id fun _ => goneOn iss :=
  teamFrame_issuedBy rfl rfl fun _ => rfl

/-! ### Zeroed register groups (05 R138) -/

/-- What a filter on keys keeps is read as before, the rest as the default. -/
theorem SMap.get_filter_key {α : Type} (m : SMap α) (d : α) (keep : Nat → Bool) (k : Nat) :
    SMap.get (m.filter fun e => keep e.1) d k = if keep k then SMap.get m d k else d := by
  induction m with
  | nil => simp [SMap.get]
  | cons e r ih =>
    obtain ⟨a, v⟩ := e
    by_cases hk : a = k
    · subst hk
      cases ha : keep a <;> simp [SMap.get, ha, ih]
    · cases ha : keep a <;> simp [SMap.get, ha, hk, ih]

theorem Team.zeroGroup_vreg (t : Team) (ls : List Nat) (g L : Nat) {n : Nat} (hn : n < 512) :
    (t.zeroGroup ls g).vreg L n = if L ∈ ls ∧ n / 16 = g then 0 else t.vreg L n := by
  have hlane : (512 * L + n) / 512 = L := by omega
  have hreg : (512 * L + n) % 512 = n := by omega
  have hget := SMap.get_filter_key t.v 0 (fun k => !(ls.contains (k / 512) && k % 512 / 16 == g)) (512 * L + n)
  rw [hlane, hreg] at hget
  refine hget.trans ?_
  by_cases h : L ∈ ls ∧ n / 16 = g
  · simp [h]
  · rw [if_neg h, if_pos (by simpa [imp_iff_not_or] using h)]
    rfl

/-- Only vector registers and the zero map change. -/
theorem Team.foldl_zeroGroup_eq (ls gs : List Nat) (t : Team) : gs.foldl (fun t g => t.zeroGroup ls g) t = { t with
    v := (gs.foldl (fun t g => t.zeroGroup ls g) t).v, nonzero := (gs.foldl (fun t g => t.zeroGroup ls g) t).nonzero } := by
  induction gs generalizing t with
  | nil => rfl
  | cons g r ih =>
    rw [List.foldl_cons, ih (t.zeroGroup ls g)]
    rfl

theorem Team.foldl_zeroGroup_vreg (ls gs : List Nat) (t : Team) (L : Nat) {n : Nat} (hn : n < 512) :
    (gs.foldl (fun t g => t.zeroGroup ls g) t).vreg L n = if L ∈ ls ∧ n / 16 ∈ gs then 0 else t.vreg L n := by
  induction gs generalizing t with
  | nil => simp
  | cons g r ih =>
    rw [List.foldl_cons, ih, Team.zeroGroup_vreg t ls g L hn]
    by_cases hL : L ∈ ls <;> by_cases hr : n / 16 ∈ r <;> simp [hL, hr]

theorem mem_clearGroups (regs : Nat) (mask : Word) (g : Nat) :
    g ∈ clearGroups regs mask ↔ g < regs / 16 ∧ mask.getLsbD g = false := by
  simp only [clearGroups, List.mem_filter, List.mem_range, Bool.not_eq_eq_eq_not, Bool.not_true]

/-! ### LIVE (05 R138) -/

/-- The issuing team once LIVE has zeroed its groups. -/
def State.liveTeam (s : State) (iss : Issue) (o : X96) : Team :=
  (clearGroups (Claims.nodeAt s iss).regs o.lit).foldl (fun t g => t.zeroGroup (s.activeLanes iss) g) (s.team iss.team)

/-- Where no result is outstanding in a group to zero, LIVE zeroes them, lets go of cached groups of its core, and goes on. -/
theorem execLive_of_idle {s : State} {iss : Issue} {o : X96} (hcur : s.cur = some iss) (hpass : s.passes iss (.live o))
    (hidle : ∀ L ∈ s.activeLanes iss, ∀ g ∈ clearGroups (Claims.nodeAt s iss).regs o.lit, s.groupBusy iss.team L g = false) :
    ∃ cached, execLive o s = .next ((s.setCore (s.team iss.team).core
      { s.core (s.team iss.team).core with rcache := cached }).setTeam iss.team
        ((s.liveTeam iss o).issuedBy iss { st := s })) := by
  have hstall : ¬ ((s.activeLanes iss).any fun L => (clearGroups (Claims.nodeAt s iss).regs o.lit).any fun g =>
      s.groupBusy iss.team L g) = true := by
    simpa using hidle
  have hcore : (s.liveTeam iss o).core = (s.team iss.team).core := by rw [State.liveTeam, Team.foldl_zeroGroup_eq]
  apply Exists.intro
  rw [execLive, runInstr_clean _ s _ iss hcur hpass, ← hcore]
  refine congrArg Host.Outcome.next ((congrArg (s.finish iss []) (if_neg hstall)).trans ?_)
  exact State.finish_setTeam s _ iss (s.liveTeam iss o)

/-! ### PHINT (17 R399, R400, R402) -/

/-- A saved team stays so when its block may be saved. -/
theorem State.blockSaved_keepsTeam {s : State} {n : Nat} {T : Team} (b : Nat) (h : T.SavedAs (s.team n)) :
    T.SavedAs ((s.blockSaved b).team n) := by
  rcases State.blockSaved_cases n s b with hsame | ⟨t, k, hkeeps, -, hblock⟩
  · rwa [hsame]
  · rw [hblock]
    exact hkeeps.team T h

/-- The team that PHINT saves stands saved. -/
theorem State.phintSave_saves (s : State) (tn : Nat) (mask : Word) (ranges : List (Nat × Nat)) (all : Bool) :
    ∃ T : Team, T.SavedAs ((s.phintSave tn mask ranges all).team tn) := by
  obtain ⟨u, T, w, hsave⟩ : ∃ u T w, s.saveTeam tn (some mask) = State.setTeam u tn ((Team.loseWatches T).stow w) :=
    ⟨_, _, _, rfl⟩
  refine ⟨T, State.blockSaved_keepsTeam _ ?_⟩
  rw [hsave, State.team_setBlock, State.team_setTeam_self]
  exact T.savedAs_stow w

/-- Without a pending request PHINT only goes on. -/
theorem execPhint_of_unrequested {s : State} {iss : Issue} {o : X96} (hcur : s.cur = some iss) (hpass : s.passes iss (.phint o))
    (hpre : (s.block (s.team iss.team).block).preempt = false) : execPhint o s =
      .next (s.setTeam iss.team ((s.team iss.team).issuedBy iss { st := s })) := by
  simp only [execPhint, hcur, hpre, Bool.false_and, Bool.false_eq_true, if_false, Bool.not_false, if_true,
    State.issueInstr_still hpass]

/-- With one, the team is saved where every live lane is in the group at user level and nothing is to wait for. -/
theorem execPhint_of_requested {s : State} {iss : Issue} {o : X96} (hcur : s.cur = some iss) (hpass : s.passes iss (.phint o))
    (hpre : (s.block (s.team iss.team).block).preempt = true) (hact : s.activeLanes iss ≠ [])
    (hready : s.saveReady iss.team = true) (hable : (s.team iss.team).phintAble iss.group = true) :
    let u := s.setTeam iss.team ((s.team iss.team).issuedBy iss { st := s })
    execPhint o s = .next (if (s.func (s.block (s.team iss.team).block).func).cut then u.fullSaveTeam iss.team 2
      else u.phintSave iss.team o.lit [(o.lo.d.toNat, o.lo.a.toNat), (o.lo.b.toNat, o.lo.c.toNat)] (o.lo.imm.getLsbD 0)) := by
  obtain ⟨L, hL⟩ := List.exists_mem_of_ne_nil _ hact
  have hrow := hpass L hL
  simp only [State.activeLanes, List.mem_filter, Bool.and_eq_true, List.contains_iff_mem] at hL
  obtain ⟨-, hgroup, hpend⟩ := hL
  have hactive : (iss.group.any fun L => ((s.team iss.team).lane L).pend &&
      (rowFault s (s.team iss.team) (s.nodeOf (s.team iss.team).block) (Instr.phint o).wf (Instr.phint o).form
        iss.word L).isNone) = true :=
    List.any_eq_true.mpr ⟨L, hgroup, by rw [hpend, hrow]; rfl⟩
  simp only [execPhint, hcur, hpre, hable, hactive, hready, Bool.and_self, Bool.not_true, Bool.and_false, Bool.false_eq_true,
    if_false, State.issueInstr_still hpass]

/-- Every live lane of the team is in the group, and at user level. -/
theorem Team.phintAble_of_live {t : Team} {group : List Nat}
    (h : ∀ L, L < 64 → (t.lane L).st ≠ .exited → L ∈ group ∧ (t.lane L).trap = false) : t.phintAble group = true := by
  refine List.all_eq_true.mpr fun L hL => ?_
  obtain ⟨hlt, hlive⟩ := List.mem_filter.mp hL
  obtain ⟨hgroup, htrap⟩ := h L ((mem_laneList L).mp hlt) (by simpa [Lane.isExited] using hlive)
  simp [hgroup, htrap]

/-! ### The statement of LIVE and PHINT -/

/-- Settles O23: LIVE by `execLive_of_idle`, whose zeroed groups `Team.foldl_zeroGroup_vreg` reads; PHINT by
`execPhint_of_unrequested` and `execPhint_of_requested`, after which the team stands saved by `State.phintSave_saves`, or at a cut by
`State.fullSaveTeam_saves`. -/
theorem liveAndPhint : Obligations.LiveAndPhint := by
  unfold Obligations.LiveAndPhint
  refine ⟨?live, ?phint⟩
  case live =>
    intro o s iss hiss dead hidle
    obtain ⟨hcur, hregs, -⟩ := id hiss
    have hbelow : ∀ g ∈ clearGroups (nodeAt s iss).regs o.lit, g < 32 ∧ dead (16 * g) := by
      intro g hg
      obtain ⟨hlt, hclear⟩ := (mem_clearGroups _ _ _).mp hg
      have hdiv : 16 * g / 16 = g := by omega
      exact ⟨by omega, by rw [hdiv]; exact hlt, by rw [hdiv]; exact hclear⟩
    obtain ⟨cached, hx⟩ := execLive_of_idle hcur (passes_of_issued hiss) fun L hL g hg =>
      hidle L g (by rwa [Act, actives_eq_activeLanes]) (hbelow g hg).1 (hbelow g hg).2
    have hteam := Team.foldl_zeroGroup_eq (s.activeLanes iss) (clearGroups (nodeAt s iss).regs o.lit) (s.team iss.team)
    refine ⟨_, hx, ⟨?core, ?frame⟩, fun L n hL hn => ?regs⟩
    case core => rw [State.core_setTeam, State.core_setCore_self]
    case frame =>
      rw [State.core_setTeam, State.core_setCore_self]
      refine teamFrame_issuedBy ?_ ?_ fun L => ?_
      · rw [State.liveTeam, hteam]
        rfl
      · rw [State.liveTeam, hteam]
        rfl
      · rw [State.liveTeam, hteam]
        rfl
    case regs =>
      rw [State.team_setTeam_self, Team.issuedBy_vreg, State.liveTeam, Team.foldl_zeroGroup_vreg _ _ _ _ hn]
      simp only [Act, actives_eq_activeLanes, mem_clearGroups]
  case phint =>
    intro o s iss hiss b
    obtain ⟨hcur, -, -⟩ := id hiss
    have hpass := passes_of_issued hiss
    refine ⟨fun hpre => ⟨_, execPhint_of_unrequested hcur hpass hpre, teamFrame_still s iss⟩, ?requested⟩
    intro hpre hact hready hlive
    rw [actives_eq_activeLanes] at hact
    refine ⟨_, _, execPhint_of_requested hcur hpass hpre hact hready (Team.phintAble_of_live hlive), teamFrame_still s iss, rfl, ?_⟩
    split
    · obtain ⟨hsaved, -⟩ := State.fullSaveTeam_saves
        (s.setTeam iss.team ((s.team iss.team).issuedBy iss { st := s })) iss.team 2
      exact ⟨hsaved.saved, hsaved.seat⟩
    · obtain ⟨T, hsaved⟩ := State.phintSave_saves
        (s.setTeam iss.team ((s.team iss.team).issuedBy iss { st := s })) iss.team o.lit
        [(o.lo.d.toNat, o.lo.a.toNat), (o.lo.b.toNat, o.lo.c.toNat)] (o.lo.imm.getLsbD 0)
      exact ⟨hsaved.saved, hsaved.seat⟩

end Sys2Proof.Machine
end

section
/-! PROOFS of the statement of the step (O58): what a turn runs, for a core's issue from the fetch of its path to the bookkeeping, and
for walk and policy words by the agreement of the decoder's table with the table of meanings. -/
namespace Sys2Proof.Machine
open Sys2Proof.Claims

/-! ### A turn of the agenda -/

/-- The state in which a turn begins: the stamp has advanced, and `r` is left of the agenda. -/
def State.turnStart (s : State) (r : List Turn) : State := { s with stamp := s.stamp + 1, agenda := r }

theorem State.inPlace_pendingTraps (s : State) (ps : List CyclePlace) : (s.inPlace ps).pendingTraps = s.pendingTraps := by
  unfold State.inPlace State.tick
  split
  · dsimp only [State.markPlaces]
    split <;> rfl
  · rfl

/-- A step with its rails on runs the first turn of its agenda in its place, and then what follows every turn. -/
theorem step_of_turn {s : State} {t : Turn} {r : List Turn} (hrails : s.dev.railsOff = false) (hagenda : s.agenda = t :: r) :
    step s = afterTurn (runTurn t ((s.turnStart r).inPlace ((s.turnStart r).turnPlace t))) := by
  have hturn : takeTurn t (s.turnStart r) = runTurn t ((s.turnStart r).inPlace ((s.turnStart r).turnPlace t)) :=
    if_neg (ne_true_of_eq_false hrails)
  rw [← hturn]
  simp only [step, hagenda]
  rfl

/-- With no trap entry due a core tries the paths of its teams. -/
theorem issueTurn_of_no_trap {n : Nat} {u : State}
    (h : ∀ p ∈ u.pendingTraps, (u.team p.1).core = n → u.teamRuns p.1 = false) :
    issueTurn n u =
      tryPaths ((u.issueOrder n).flatMap fun tn => ((u.serviceTurn tn).team tn).service.map fun pc => (tn, pc)) u := by
  have hnone : (u.pendingTraps.find? fun p => (u.team p.1).core == n && u.teamRuns p.1) = none := by
    rw [List.find?_eq_none]
    intro p hp
    simpa using h p hp
  simp only [issueTurn, hnone]

/-- The first path is free and something issues from it. -/
theorem tryPaths_of_issue {ps : List (Nat × Dbl)} {u : State} {tn : Nat} {pc : Dbl} {o : Host.Outcome State Fault Refusal}
    (hfirst : ps.head? = some (tn, pc)) (hfree : u.pathFree tn pc = true)
    (hissue : attempt (u.serviceTurn tn) tn pc = (o, true)) : tryPaths ps u = o := by
  obtain ⟨rest, rfl⟩ := List.head?_eq_some_iff.mp hfirst
  simp only [tryPaths, hfree, if_true, hissue]

/-! ### Fetching a path (06 R165) -/

/-- The issue of the lanes at `pc`, of what stands there in a line. -/
def issueAt (tn : Nat) (pc : Dbl) (group : List Nat) (ws : List Word) : Issue :=
  { team := tn, pc := pc, group := group, len := slotLength ws (slotOf pc), word := ws.getD (slotOf pc) 0 }

/-- The lanes of a path of team `T` are in the line that they have fetched. -/
def State.inLine (w : State) (tn : Nat) (T : Team) (group : List Nat) : State :=
  w.setTeam tn (T.mapLanes group fun _ l => { l with arrival := .inLine })

theorem filterMap_map_eq_nil {α β γ : Type} {g : α → β} {f : β → Option γ} {l : List α} (h : ∀ a ∈ l, f (g a) = none) :
    (l.map g).filterMap f = [] := by
  rw [List.filterMap_map, List.filterMap_eq_nil_iff]
  exact h

theorem filterMap_map_eq_map {α β γ : Type} {g : α → β} {f : β → Option γ} {k : α → γ} {l : List α}
    (h : ∀ a ∈ l, f (g a) = some (k a)) : (l.map g).filterMap f = l.map k := by
  rw [List.filterMap_map, ← List.filterMap_eq_map]
  exact List.filterMap_congr h

theorem State.takeFaults_nil (s : State) (tn : Nat) (pc next : Dbl) : s.takeFaults tn [] pc next = s := rfl

/-- No lane of the path meets a fault of rows 1 to 5, and an instruction stands at its slot: it runs for all of them. -/
theorem State.fetchPath_of_line {v w : State} {tn L p len : Nat} {rest : List Nat} {pc : Dbl} {ws : List Word} {i : Instr}
    (hgroup : (v.team tn).path pc = L :: rest)
    (htarget : ∀ M ∈ (v.team tn).path pc, ∃ q, v.fetchTarget tn M pc.toNat = .ok (.hbm q))
    (hfirst : v.fetchTarget tn L pc.toNat = .ok (.hbm p)) (hline : v.fetchWords tn pc p = (w, some ws))
    (hentry : ∀ M ∈ (v.team tn).path pc, entryFault ((v.team tn).lane M) pc ws = none)
    (hdecode : decodeAt ws (slotOf pc) = some (i, len))
    (hruns : (w.inLine tn (v.team tn) ((v.team tn).path pc)).teamRuns tn = true) :
    v.fetchPath tn pc = .run (w.inLine tn (v.team tn) ((v.team tn).path pc)) (issueAt tn pc ((v.team tn).path pc) ws) i := by
  choose! q hq using htarget
  have hp : q L = p := by
    have hL := hq L (by rw [hgroup]; exact List.mem_cons_self)
    rw [hfirst] at hL
    injection hL with hL
    injection hL with hL
    exact hL.symm
  have hlanes : (((v.team tn).path pc).map fun M => (M, q M)).map (·.1) = (v.team tn).path pc := by
    rw [List.map_map]
    exact List.map_id _
  have hpass : (((v.team tn).path pc).map fun M => (M, q M)).filterMap
      (fun x => (entryFault ((v.team tn).lane x.1) pc ws).map fun e => (x.1, e)) = [] :=
    filterMap_map_eq_nil fun M hM => by rw [hentry M hM]; rfl
  obtain ⟨tail, hok⟩ : ∃ tail, (((v.team tn).path pc).map fun M => (M, q M)) = (L, p) :: tail :=
    ⟨rest.map fun M => (M, q M), by rw [hgroup, List.map_cons, hp]⟩
  have hstay : ¬ ((v.team tn).path pc == [] ||
      !(w.inLine tn (v.team tn) ((v.team tn).path pc)).teamRuns tn) = true := by
    rw [hruns, hgroup]
    exact nofun
  unfold State.fetchPath
  dsimp only
  rw [filterMap_map_eq_nil (fun M hM => by rw [hq M hM]),
    filterMap_map_eq_map (k := fun M => (M, q M)) (fun M hM => by rw [hq M hM])]
  rw [hok] at hlanes hpass ⊢
  simp only [hline, hlanes, hpass, hdecode, List.lookup_nil, Option.isNone_none, List.filter_true, List.find?_nil,
    List.append_nil, List.foldl_nil, State.takeFaults_nil, beq_self_eq_true, if_true]
  exact if_neg hstay

/-! ### Issuing an instruction and its pair (05 R126; 06 R154) -/

/-- The state in which exec runs `i` for an issue: its register groups are the most recent of the cache. -/
def State.atExec (x : State) (iss : Issue) (i : Instr) : State :=
  { x.useGroups iss.team (x.namedGroups iss.team iss.group i) (x.namedGroups iss.team iss.group i) with cur := some iss }

/-- What an issue answers: its bookkeeping, where nothing has stopped it. -/
def issueBooked (v : State) (tn : Nat) (pc : Dbl) (group : List Nat) (o : Host.Outcome State Fault Refusal) :
    Host.Outcome State Fault Refusal :=
  match o with
  | .next t => .next (State.issued v t tn pc group)
  | o => o

/-- The end of an issue of one instruction, or of the second of a pair. -/
def issueEnded (o : Host.Outcome State Fault Refusal) : Host.Outcome State Fault Refusal :=
  match o with
  | .next t => .next { t with cur := none }
  | o => o

theorem issueSecond_of_none {q : State} {T : Team} {iss : Issue} {i : Instr} (h : q.pairNext T iss i = none) :
    issueSecond q T iss i = .next q := by
  simp only [issueSecond, h]

theorem issueSecond_of_pair {q : State} {T : Team} {iss iss' : Issue} {i k : Instr} (h : q.pairNext T iss i = some (iss', k)) :
    issueSecond q T iss i = issueEnded (exec k (q.atExec iss' k)) := by
  simp only [issueSecond, h]
  rfl

section
variable {v x : State} {tn : Nat} {pc : Dbl} {iss : Issue} {i : Instr}
  (hfetch : v.fetchPath tn pc = .run x iss i) (hteam : iss.team = tn) (hcached : x.missing tn (x.namedGroups tn iss.group i) = [])
include hfetch hteam hcached

/-- The fetched instruction issues, and its pair with it. -/
theorem attempt_of_next {t : State} (hexec : exec i (x.atExec iss i) = .next t) (hcur : t.cur ≠ none) :
    attempt v tn pc = (issueBooked v tn pc iss.group (issueSecond { t with cur := none } (x.team tn) iss i), true) := by
  subst hteam
  simp only [attempt, hfetch, hcached]
  rw [State.atExec] at hexec
  simp only [hexec, hcur, if_false]
  cases issueSecond { t with cur := none } (x.team iss.team) iss i <;> rfl

/-- What stops the fetched instruction stops the step. -/
theorem attempt_of_stop {o : Host.Outcome State Fault Refusal} (hexec : exec i (x.atExec iss i) = o) (hstop : ∀ t, o ≠ .next t) :
    attempt v tn pc = (o, true) := by
  subst hteam
  simp only [attempt, hfetch, hcached]
  rw [State.atExec] at hexec
  simp only [hexec]

end

/-! ### Words of walks and policies (03 R87; 15 R352) -/

/-- A decoder's row and a row of the meanings agree: the opcode is the same, and what the decoder accepts passes the meaning's check of
unused fields, and means exec. -/
structure RowAgrees {α : Type} (x : Nat × (α → Option Instr))
    (y : Nat × (α → Bool) × (α → State → Host.Outcome State Fault Refusal)) : Prop where
  opcode : x.1 = y.1
  means : ∀ o i, keepWf (x.2 o) = some i → y.2.1 o = true ∧ ∀ s, y.2.2 o s = exec i s

theorem eq_of_keepWf {i j : Instr} (h : keepWf (some i) = some j) : i = j ∧ i.wf = true := by
  obtain ⟨hmem, hwf⟩ := Option.filter_eq_some_iff.mp h
  cases hmem
  exact ⟨rfl, hwf⟩

/-- A row that takes every field. -/
theorem rowAgrees_all {α : Type} {n : Nat} {c : α → Instr} {ok : α → Bool} {run : α → State → Host.Outcome State Fault Refusal}
    (hok : ∀ o, (c o).wf = ok o) (hrun : ∀ o s, run o s = exec (c o) s) : RowAgrees (n, all c) (n, ok, run) where
  opcode := rfl
  means o i h := by
    obtain ⟨rfl, hwf⟩ := eq_of_keepWf h
    exact ⟨(hok o).symm.trans hwf, hrun o⟩

/-- A row whose fields are all zero. -/
theorem rowAgrees_bare {α : Type} [DecidableEq α] {n : Nat} {z : α} {c : Instr} {ok : α → Bool}
    {run : α → State → Host.Outcome State Fault Refusal} (hok : ok z = true) (hrun : ∀ o s, run o s = exec c s) :
    RowAgrees (n, bare z c) (n, ok, run) where
  opcode := rfl
  means o i h := by
    have h : keepWf (if o = z then some c else none) = some i := h
    by_cases hz : o = z
    · subst hz
      rw [if_pos rfl] at h
      obtain ⟨rfl, -⟩ := eq_of_keepWf h
      exact ⟨hok, hrun o⟩
    · rw [if_neg hz] at h
      cases h

/-- Where the tables agree, the meaning of a word that the decoder accepts is found, and is exec of what it decodes to. -/
theorem lookup_of_rowsAgree {α : Type} {rows : List (Nat × (α → Option Instr))}
    {meanings : List (Nat × (α → Bool) × (α → State → Host.Outcome State Fault Refusal))}
    (h : List.Forall₂ RowAgrees rows meanings) {n : Nat} {f : α → Option Instr} (hf : rows.lookup n = some f) {o : α} {i : Instr}
    (hi : keepWf (f o) = some i) :
    ∃ ok run, meanings.lookup n = some (ok, run) ∧ ok o = true ∧ ∀ s, run o s = exec i s := by
  induction h with
  | nil => cases hf
  | @cons x y rows meanings hrow _ ih =>
    obtain ⟨a, g⟩ := x
    obtain ⟨b, ok, run⟩ := y
    obtain ⟨rfl, hmeans⟩ := hrow
    by_cases hn : n = a
    · subst hn
      rw [List.lookup_cons_self] at hf ⊢
      cases hf
      exact ⟨ok, run, rfl, hmeans o i hi⟩
    · rw [List.lookup_cons, beq_false_of_ne hn] at hf ⊢
      exact ih hf

theorem walkTable_agrees : List.Forall₂ RowAgrees walkTable walkMeanings := by
  simp only [walkTable, walkTable0, walkTable1, walkMeanings, List.cons_append, List.nil_append, List.forall₂_cons]
  refine ⟨?stop, ?movi, ?add, ?sub, ?addi, ?mul, ?divu, ?remu, ?and, ?xor, ?shli, ?shri, ?hash, ?ldi, ?loop, ?lidx, ?brz, ?brnz, ?row,
    ?rowm, ?cset, ?cld, ?rowl, ?msk, ?flush, .nil⟩
  case stop | flush => exact rowAgrees_bare rfl fun _ _ => rfl
  all_goals exact rowAgrees_all (fun _ => rfl) fun _ _ => rfl

theorem npbTable_agrees : List.Forall₂ RowAgrees npbTable npbMeanings := by
  simp only [npbTable, npbMeanings, List.forall₂_cons]
  refine ⟨?movi, ?movhi, ?mov, ?add, ?sub, ?addi, ?and, ?or, ?xor, ?shl, ?shr, ?mul, ?divu, ?minu, ?maxu, ?sltu, ?lds, ?sts, ?ldv,
    ?beq, ?bne, ?bltu, ?loop, ?ret, .nil⟩
  case ret => exact rowAgrees_bare rfl fun _ _ => rfl
  all_goals exact rowAgrees_all (fun _ => rfl) fun _ _ => rfl

theorem walkRunWord_of_decodes {w : Word} {i : Instr} (s : State) (h : decodeWalk w = some i) :
    walkRunWord w s = some (exec i s) := by
  unfold decodeWalk at h
  split at h
  · next f hf =>
    obtain ⟨ok, run, hrow, hok, hrun⟩ := lookup_of_rowsAgree walkTable_agrees hf h
    simp only [walkRunWord, hrow, hok, if_true, hrun]
  · cases h

theorem npbOpcode_eq (w : Dbl) : npbOpcode w = (w.extractLsb' 56 8).toNat := by
  rw [npbOpcode, natBits, BitVec.extractLsb'_toNat]

theorem State.policyStep_of_decodes {s : State} {p : PolicyRun} {w : Dbl} {i : Instr} (hp : s.policy = some p)
    (hw : p.prog[p.pc]? = some w) (h : decodeNpb w = some i) : s.policyStep = exec i s := by
  unfold decodeNpb at h
  split at h
  · next f hf =>
    split at h
    · obtain ⟨ok, run, hrow, -, hrun⟩ := lookup_of_rowsAgree npbTable_agrees hf h
      rw [← npbOpcode_eq] at hrow
      simp only [State.policyStep, hp, hw, hrow, hrun]
    · cases h
  · cases h

/-- A walk's turn runs the word that it fetches. -/
theorem State.walkTurn_of_decodes {s x : State} {n word : Nat} {i : Instr} (hready : s.walkReady n = true)
    (hmore : (s.core n).walker.wpc < (s.core n).walker.len)
    (hfetch : State.walkFetch { s with
      cur := some { team := (s.core n).walker.owner - 1, pc := 0, group := [], len := 0, word := 0 } } n = .ok (x, word))
    (hdecode : decodeWalk (BitVec.ofNat 32 word) = some i) : s.walkTurn n = exec i x := by
  simp only [State.walkTurn, hready, Bool.not_true, Bool.false_eq_true, if_false, Nat.not_le.mpr hmore, hfetch,
    walkRunWord_of_decodes x hdecode, Option.getD_some]

theorem eventTurn_of_none {i : Instr} (s : State) (h : i.enc = .none) :
    eventTurn i s = if s.served i then exec i s else .next s := by
  simp only [eventTurn, h]

/-! ### The statement of the step -/

/-- A step whose turn is the issue of core `n`, where the first path is free and something issues from it. -/
theorem step_of_attempt {s u : State} {r : List Turn} {n tn : Nat} {pc : Dbl} {o : Host.Outcome State Fault Refusal}
    (hrails : s.dev.railsOff = false) (hagenda : s.agenda = .issue n :: r)
    (hu : u = (s.turnStart r).inPlace [issuePlace n])
    (htraps : ∀ p ∈ s.pendingTraps, (u.team p.1).core = n → u.teamRuns p.1 = false)
    (hfirst : ((u.issueOrder n).flatMap fun tn => ((u.serviceTurn tn).team tn).service.map fun pc => (tn, pc)).head? =
      some (tn, pc))
    (hfree : u.pathFree tn pc = true) (hissue : attempt (u.serviceTurn tn) tn pc = (o, true)) : step s = afterTurn o := by
  subst hu
  rw [step_of_turn hrails hagenda]
  refine congrArg afterTurn ((issueTurn_of_no_trap ?_).trans (tryPaths_of_issue hfirst hfree hissue))
  rwa [State.inPlace_pendingTraps]

/-- Settles O58: a core's issue by `step_of_attempt` and the lemmas on `attempt`, walk and policy words by
`State.walkTurn_of_decodes` and `State.policyStep_of_decodes`, events by `eventTurn_of_none`. -/
theorem stepRunsDecoded : Obligations.StepRunsDecoded := by
  unfold Obligations.StepRunsDecoded
  intro s r hrails u0
  refine ⟨?issue, ?walk, ?policy, ?event⟩
  case issue =>
    intro n tn pc ws w i len hagenda u htraps hfirst hfree v group at' htarget hline hentry hdecode iss x gs hruns hcached y
    obtain ⟨p, ⟨L, rest, hgroup, hp⟩, hwords⟩ := hline
    have hfetch : v.fetchPath tn pc = .run x iss i :=
      State.fetchPath_of_line hgroup htarget hp hwords hentry hdecode hruns
    have hstep {o} (h : attempt v tn pc = (o, true)) : step s = afterTurn o :=
      step_of_attempt hrails hagenda rfl htraps hfirst hfree h
    refine ⟨fun t hexec hcur => ?next, fun f hexec => ?fault, fun f hexec => ?refused⟩
    case fault | refused => exact hstep (attempt_of_stop hfetch rfl hcached hexec fun _ => by simp)
    have hbooked := hstep (attempt_of_next hfetch rfl hcached hexec hcur)
    intro q
    refine ⟨fun hnone => ?single, fun iss' k hpair => ?pair⟩
    case single =>
      rw [issueSecond_of_none hnone] at hbooked
      exact hbooked
    case pair =>
      intro gs' z
      have hsecond {o} (h : exec k z = o) : step s = afterTurn (issueBooked v tn pc group (issueEnded o)) := by
        rw [← h, hbooked, issueSecond_of_pair hpair]
        rfl
      exact ⟨fun _ => hsecond, fun _ => hsecond, fun _ => hsecond⟩
  case walk =>
    intro n x word i hagenda hready w u hmore hfetch hdecode
    rw [step_of_turn hrails hagenda]
    exact congrArg afterTurn (State.walkTurn_of_decodes hready hmore hfetch hdecode)
  case policy =>
    intro p w i hagenda hp hw hdecode
    rw [step_of_turn hrails hagenda]
    exact congrArg afterTurn (State.policyStep_of_decodes hp hw hdecode)
  case event =>
    intro i hagenda henc u
    rw [step_of_turn hrails hagenda]
    exact congrArg afterTurn (eventTurn_of_none u henc)

end Sys2Proof.Machine
end

section
/-! PROOFS of the statements of the encodings (O55, O56, O57): the fields of each format's words, what the tables read of an encoding,
that the decoder reads from an instruction's words what its table holds, and that an instruction decoded from a word has that word as
its encoding. -/
namespace Sys2Proof
open Laws

/-! ### Fields of a word, and a word of its fields (06 R157, R158, R162, R163; 15 R350; 03 R86) -/

@[simp] theorem S32.ofWord_word (o : S32) (op8 mod : Nat) : S32.ofWord (o.word op8 mod) = o := by
  simp (disch := decide) only [S32.ofWord, S32.word, BitVec.extractLsb'_append_eq_of_le,
    BitVec.extractLsb'_append_eq_of_add_le]
  simp

@[simp] theorem S32.word_op8 (o : S32) (op8 mod : Nat) : (o.word op8 mod).extractLsb' 2 8 = BitVec.ofNat 8 op8 := by
  simp (disch := decide) only [S32.word, BitVec.extractLsb'_append_eq_of_le,
    BitVec.extractLsb'_append_eq_of_add_le]
  simp

@[simp] theorem S32.word_mod (o : S32) (op8 mod : Nat) : (o.word op8 mod).extractLsb' 28 4 = BitVec.ofNat 4 mod := by
  simp (disch := decide) only [S32.word, BitVec.extractLsb'_append_eq_of_le]
  simp

@[simp] theorem L64.ofBits_bits (o : L64) (op : Nat) (len : BitVec 2) : L64.ofBits (o.bits op len) = o := by
  simp (disch := decide) only [L64.ofBits, L64.bits, BitVec.extractLsb'_append_eq_of_le,
    BitVec.extractLsb'_append_eq_of_add_le]
  simp

@[simp] theorem L64.bits_op (o : L64) (op : Nat) (len : BitVec 2) : (o.bits op len).extractLsb' 2 10 = BitVec.ofNat 10 op := by
  simp (disch := decide) only [L64.bits, BitVec.extractLsb'_append_eq_of_le,
    BitVec.extractLsb'_append_eq_of_add_le]
  simp

@[simp] theorem M64.ofBits_bits (o : M64) (op : Nat) : M64.ofBits (o.bits op) = o := by
  simp (disch := decide) only [M64.ofBits, M64.bits, BitVec.extractLsb'_append_eq_of_le,
    BitVec.extractLsb'_append_eq_of_add_le]
  simp

@[simp] theorem M64.bits_op (o : M64) (op : Nat) : (o.bits op).extractLsb' 2 10 = BitVec.ofNat 10 op := by
  simp (disch := decide) only [M64.bits, BitVec.extractLsb'_append_eq_of_le,
    BitVec.extractLsb'_append_eq_of_add_le]
  simp

@[simp] theorem M64.bits_reserved (o : M64) (op : Nat) : (o.bits op).extractLsb' 62 2 = 0 := by
  simp (disch := decide) only [M64.bits, BitVec.extractLsb'_append_eq_of_le]
  simp

@[simp] theorem X96.bits_lo (o : X96) (op : Nat) : (o.bits op).extractLsb' 0 64 = o.lo.bits op 2 := BitVec.extractLsb'_append_eq_right

@[simp] theorem X96.bits_lit (o : X96) (op : Nat) : (o.bits op).extractLsb' 64 32 = o.lit := BitVec.extractLsb'_append_eq_left

@[simp] theorem X96.bits_op (o : X96) (op : Nat) : (o.bits op).extractLsb' 2 10 = BitVec.ofNat 10 op :=
  (BitVec.extractLsb'_append_eq_of_add_le (by decide)).trans (L64.bits_op o.lo op 2)

/-- Three slots put together. -/
theorem append_slots (w : BitVec 96) :
    (w.extractLsb' 64 32 ++ (w.extractLsb' 32 32 ++ w.extractLsb' 0 32 : Dbl) : BitVec 96) = w := by
  rw [BitVec.extractLsb'_append_extractLsb'_eq_extractLsb' (by decide : 32 = 0 + 32)]
  exact BitVec.extractLsb'_append_extractLsb'

@[simp] theorem WalkOp.ofWord_word (o : WalkOp) (op : Nat) : WalkOp.ofWord (o.word op) = o := by
  simp (disch := decide) only [WalkOp.ofWord, WalkOp.word, BitVec.extractLsb'_append_eq_of_le,
    BitVec.extractLsb'_append_eq_of_add_le]
  simp

@[simp] theorem WalkOp.word_op (o : WalkOp) (op : Nat) : (o.word op).extractLsb' 26 6 = BitVec.ofNat 6 op := by
  simp (disch := decide) only [WalkOp.word, BitVec.extractLsb'_append_eq_of_le]
  simp

@[simp] theorem NpbOp.ofBits_bits (o : NpbOp) (op : Nat) : NpbOp.ofBits (o.bits op) = o := by
  simp (disch := decide) only [NpbOp.ofBits, NpbOp.bits, BitVec.extractLsb'_append_eq_of_le,
    BitVec.extractLsb'_append_eq_of_add_le]
  simp

@[simp] theorem NpbOp.bits_op (o : NpbOp) (op : Nat) : (o.bits op).extractLsb' 56 8 = BitVec.ofNat 8 op := by
  simp (disch := decide) only [NpbOp.bits, BitVec.extractLsb'_append_eq_of_le]
  simp

@[simp] theorem NpbOp.bits_reserved (o : NpbOp) (op : Nat) : (o.bits op).extractLsb' 32 12 = 0 := by
  simp (disch := decide) only [NpbOp.bits, BitVec.extractLsb'_append_eq_of_le,
    BitVec.extractLsb'_append_eq_of_add_le]
  simp

theorem S32.word_ofWord (w : Word) (hlen : w.extractLsb' 0 2 = 0) :
    (S32.ofWord w).word (w.extractLsb' 2 8).toNat (w.extractLsb' 28 4).toNat = w := by
  simp only [S32.word, S32.ofWord, BitVec.ofNat_toNat, BitVec.setWidth_eq, ← hlen]
  simp (disch := decide) only [BitVec.extractLsb'_append_extractLsb'_eq_extractLsb']
  exact BitVec.extractLsb'_eq_self

theorem L64.bits_ofBits (w : Dbl) {len : BitVec 2} (hlen : w.extractLsb' 0 2 = len) :
    (L64.ofBits w).bits (w.extractLsb' 2 10).toNat len = w := by
  simp only [L64.bits, L64.ofBits, BitVec.ofNat_toNat, BitVec.setWidth_eq, ← hlen]
  simp (disch := decide) only [BitVec.extractLsb'_append_extractLsb'_eq_extractLsb']
  exact BitVec.extractLsb'_eq_self

theorem M64.bits_ofBits (w : Dbl) (hlen : w.extractLsb' 0 2 = 1) (hres : w.extractLsb' 62 2 = 0) :
    (M64.ofBits w).bits (w.extractLsb' 2 10).toNat = w := by
  simp only [M64.bits, M64.ofBits, BitVec.ofNat_toNat, BitVec.setWidth_eq, ← hlen, ← hres]
  simp (disch := decide) only [BitVec.extractLsb'_append_extractLsb'_eq_extractLsb']
  exact BitVec.extractLsb'_eq_self

theorem X96.bits_ofBits (lit : Word) (w : Dbl) (hlen : w.extractLsb' 0 2 = 2) :
    (X96.mk (L64.ofBits w) lit).bits (w.extractLsb' 2 10).toNat = lit ++ w := by
  rw [X96.bits, L64.bits_ofBits w hlen]

/-! ### What the tables read of an encoding (06 R166 to R168; 15 R351; 03 R87) -/

/-- What the table of its format reads of an encoding: the entry of its opcode, applied to its fields. -/
noncomputable def Enc.read : Enc → Option Instr
  | .s32 op8 mod o => (s32Table.lookup (op8 % 256 * 16 + mod % 16)).bind (· o)
  | .l64 op o => (l64Table.lookup (op % 1024)).bind (· o)
  | .m64 op o => (m64Table.lookup (op % 1024)).bind (· o)
  | .x96 op o => (x96Table.lookup (op % 1024)).bind (· o)
  | .walk op o => (walkTable.lookup (op % 64)).bind (· o)
  | .npb op o => (npbTable.lookup (op % 256)).bind (· o)
  | .none => Option.none

theorem keepWf_of_wf {i : Instr} (h : i.wf = true) : keepWf (some i) = some i := by simp [keepWf, h]

/-- What a table answers is one of its entries. -/
theorem mem_of_lookup {α : Type} {t : List (Nat × α)} {k : Nat} {f : α} (h : t.lookup k = some f) : (k, f) ∈ t := by
  obtain ⟨l, r, rfl, -⟩ := List.lookup_eq_some_iff.mp h
  simp

/-- No opcode has an entry both in the L64 and in the M64 table. -/
theorem l64Table_lookup_of_m64 {op : Nat} {f : M64 → Option Instr} (h : m64Table.lookup op = some f) :
    l64Table.lookup op = none := by
  have hkeys : ∀ k ∈ m64Table.map Prod.fst, (l64Table.lookup k).isNone = true := by decide
  exact Option.isNone_iff_eq_none.mp (hkeys op (List.mem_map.mpr ⟨(op, f), mem_of_lookup h, rfl⟩))

theorem Form.immOk_of_ok {f : Form} (h : f.ok = true) : f.immOk = true := by
  simp only [Form.ok, Bool.and_eq_true] at h
  obtain ⟨⟨-, himm⟩, -⟩ := h
  exact himm

theorem getLsbD_top_of_immBits_zero {imm : BitVec 14} (h : immBits imm 13 12 = 0) : imm.getLsbD 13 = false := by
  rw [immBits, natBits, Nat.shiftRight_eq_div_pow] at h
  rw [BitVec.getLsbD, Nat.testBit_eq_decide_div_mod_eq, decide_eq_false_iff_not]
  omega

theorem getLsbD_top_of_immBits_one {imm : BitVec 14} (h : immBits imm 13 13 = 1) : imm.getLsbD 13 = true := by
  rw [immBits, natBits, Nat.shiftRight_eq_div_pow] at h
  rw [BitVec.getLsbD, Nat.testBit_eq_decide_div_mod_eq, decide_eq_true_iff]
  omega

/-- The entry of EMIT: bit 13 of IMM14 says whether a register holds the node (16 R372). -/
theorem Enc.read_emit (o : L64) :
    (Enc.l64 0x120 o).read = some (if o.imm.getLsbD 13 then .emitReg o else .emit o) := rfl

/-- Every encoded instruction stands in its table, at its opcode. -/
theorem Instr.enc_read (i : Instr) (hwf : i.wf = true) : i.enc.read = if i.enc = .none then none else some i := by
  cases i
  case emit o =>
    have hrole : (immBits o.imm 13 12 == 0) = true := Form.immOk_of_ok hwf
    exact (Enc.read_emit o).trans (by rw [getLsbD_top_of_immBits_zero (beq_iff_eq.mp hrole)]; rfl)
  case emitReg o =>
    have hrole : (immBits o.imm 13 13 == 1 && immBits o.imm 12 0 == 0) = true := Form.immOk_of_ok hwf
    obtain ⟨htop, -⟩ := Bool.and_eq_true_iff.mp hrole
    exact (Enc.read_emit o).trans (by rw [getLsbD_top_of_immBits_one (beq_iff_eq.mp htop)]; rfl)
  case fcmp f _ | fcmpX96 f _ =>
    cases f
    case f16x2 => exact absurd hwf (by simp [Instr.wf])
    all_goals rfl
  case fabs f _ | fneg f _ | fclass f _ | frcp f _ | fsqrt f _ | frsq f _ | fexp2 f _ | flog2 f _ | fsin f _ | fcos f _ |
    ftanh f _ | fadd f _ | fsub f _ | fmul f _ | ffma f _ | fmin f _ | fmax f _ | faddX96 f _ | fsubX96 f _ | fmulX96 f _ |
    ffmaX96 f _ | fminX96 f _ | fmaxX96 f _ => cases f <;> rfl
  all_goals rfl

/-! ### Decoding what an encoding writes -/

theorem decodeS32_word {op8 mod : Nat} {o : S32} {i : Instr} (hread : (Enc.s32 op8 mod o).read = some i) :
    decodeS32 (o.word op8 mod) = keepWf (some i) := by
  obtain ⟨f, hf, hi⟩ := Option.bind_eq_some_iff.mp hread
  simp only [decodeS32, S32.word_op8, S32.word_mod, BitVec.toNat_ofNat, Nat.reducePow, hf, S32.ofWord_word, hi]

theorem decodeL64_bits {op : Nat} {o : L64} {i : Instr} (hread : (Enc.l64 op o).read = some i) :
    decodeL64 (o.bits op 1) = keepWf (some i) := by
  obtain ⟨f, hf, hi⟩ := Option.bind_eq_some_iff.mp hread
  simp only [decodeL64, L64.bits_op, BitVec.toNat_ofNat, Nat.reducePow, hf, L64.ofBits_bits, hi]

theorem decodeL64_m64Bits {op : Nat} {o : M64} {i : Instr} (hread : (Enc.m64 op o).read = some i) :
    decodeL64 (o.bits op) = keepWf (some i) := by
  obtain ⟨f, hf, hi⟩ := Option.bind_eq_some_iff.mp hread
  simp only [decodeL64, M64.bits_op, BitVec.toNat_ofNat, Nat.reducePow, l64Table_lookup_of_m64 hf, hf, M64.bits_reserved,
    M64.ofBits_bits, hi, if_true]

theorem decodeX96_bits {op : Nat} {o : X96} {i : Instr} (hread : (Enc.x96 op o).read = some i) :
    decodeX96 (o.bits op) = keepWf (some i) := by
  obtain ⟨f, hf, hi⟩ := Option.bind_eq_some_iff.mp hread
  simp only [decodeX96, X96.bits_op, BitVec.toNat_ofNat, Nat.reducePow, hf, X96.bits_lo, X96.bits_lit, L64.ofBits_bits, hi]

theorem decodeWalk_word {op : Nat} {o : WalkOp} {i : Instr} (hread : (Enc.walk op o).read = some i) :
    decodeWalk (o.word op) = keepWf (some i) := by
  obtain ⟨f, hf, hi⟩ := Option.bind_eq_some_iff.mp hread
  simp only [decodeWalk, WalkOp.word_op, BitVec.toNat_ofNat, Nat.reducePow, hf, WalkOp.ofWord_word, hi]

theorem decodeNpb_bits {op : Nat} {o : NpbOp} {i : Instr} (hread : (Enc.npb op o).read = some i) :
    decodeNpb (o.bits op) = keepWf (some i) := by
  obtain ⟨f, hf, hi⟩ := Option.bind_eq_some_iff.mp hread
  simp only [decodeNpb, NpbOp.bits_op, BitVec.toNat_ofNat, Nat.reducePow, hf, NpbOp.bits_reserved, NpbOp.ofBits_bits, hi, if_true]

/-- The decoder reads from the slots of an encoding what the encoding's table holds. -/
theorem decodeWords_slots {e : Enc} {i : Instr} (hread : e.read = some i) : decodeWords e.set e.slots = keepWf (some i) := by
  cases e with
  | s32 op8 mod o =>
    simp only [Enc.set, Enc.slots, decodeWords, decodeSlots, slotLen, Length.s32_len, if_true]
    exact decodeS32_word hread
  | l64 op o =>
    simp only [Enc.set, Enc.slots, decodeWords, decodeSlots, slotLen, Length.l64_len, BitVec.extractLsb'_append_extractLsb']
    exact decodeL64_bits hread
  | m64 op o =>
    simp only [Enc.set, Enc.slots, decodeWords, decodeSlots, slotLen, Length.m64_len, BitVec.extractLsb'_append_extractLsb']
    exact decodeL64_m64Bits hread
  | x96 op o =>
    simp only [Enc.set, Enc.slots, decodeWords, decodeSlots, slotLen, Length.x96_len, append_slots]
    exact decodeX96_bits hread
  | walk op o => exact decodeWalk_word hread
  | npb op o => exact (congrArg decodeNpb BitVec.extractLsb'_append_extractLsb').trans (decodeNpb_bits hread)
  | none => contradiction

/-! ### Encoding what the decoder reads (06 R149, R157 to R168) -/

theorem wf_of_keepWf {x : Option Instr} {i : Instr} (h : keepWf x = some i) : x = some i ∧ i.wf = true :=
  Option.filter_eq_some_iff.mp h

/-- What an S32 entry answers is encoded at the entry's opcode, with the fields that the entry was given. -/
theorem s32Table_enc : ∀ p ∈ s32Table, ∀ o i, p.2 o = some i → i.enc = .s32 (p.1 / 16) (p.1 % 16) o := by
  rw [← List.forall_iff_forall_mem]
  simp only [s32Table, s32Table0, s32Table1, s32Table2, s32Table3, s32Table4, List.forall_append, List.Forall, all, bare,
    Option.ite_none_right_eq_some, Option.some.injEq]
  and_intros
  all_goals
    intro o i h
    cases h
    subst_vars
    rfl

theorem l64Table_enc : ∀ p ∈ l64Table, ∀ o i, p.2 o = some i → i.enc = .l64 p.1 o := by
  rw [← List.forall_iff_forall_mem]
  simp only [l64Table, l64Table0, l64Table1, l64Table2, l64Table3, l64Table4, l64Table5, List.forall_append, List.Forall,
    all, bare, Option.ite_none_right_eq_some, Option.some.injEq]
  and_intros
  all_goals
    intro o i h
    cases h
    subst_vars
  any_goals rfl
  split <;> rfl

theorem m64Table_enc : ∀ p ∈ m64Table, ∀ o i, p.2 o = some i → i.enc = .m64 p.1 o := by
  rw [← List.forall_iff_forall_mem]
  simp only [m64Table, List.Forall, all, Option.some.injEq]
  and_intros
  all_goals
    rintro o i rfl
    rfl

theorem x96Table_enc : ∀ p ∈ x96Table, ∀ o i, p.2 o = some i → i.enc = .x96 p.1 o := by
  rw [← List.forall_iff_forall_mem]
  simp only [x96Table, x96Table0, x96Table1, x96Table2, x96Table3, List.forall_append, List.Forall, all, Option.some.injEq]
  and_intros
  all_goals
    rintro o i rfl
    rfl

theorem encode_of_decodeS32 {w : Word} {i : Instr} (hlen : w.extractLsb' 0 2 = 0) (h : decodeS32 w = some i) :
    i.wf = true ∧ encode i = [w] := by
  unfold decodeS32 at h
  split at h
  case h_2 => contradiction
  case h_1 f hf =>
    obtain ⟨hi, hwf⟩ := wf_of_keepWf h
    have hmod : (w.extractLsb' 28 4).toNat < 16 := (w.extractLsb' 28 4).isLt
    have hop : ((w.extractLsb' 2 8).toNat * 16 + (w.extractLsb' 28 4).toNat) / 16 = (w.extractLsb' 2 8).toNat := by omega
    have hrest : ((w.extractLsb' 2 8).toNat * 16 + (w.extractLsb' 28 4).toNat) % 16 = (w.extractLsb' 28 4).toNat := by omega
    have henc := s32Table_enc _ (mem_of_lookup hf) _ _ hi
    simp only [hop, hrest] at henc
    exact ⟨hwf, by rw [encode, henc, Enc.slots, S32.word_ofWord w hlen]⟩

theorem encode_of_decodeL64 {w : Dbl} {i : Instr} (hlen : w.extractLsb' 0 2 = 1) (h : decodeL64 w = some i) :
    i.wf = true ∧ encode i = [w.extractLsb' 0 32, w.extractLsb' 32 32] := by
  unfold decodeL64 at h
  split at h
  case h_1 f hf =>
    obtain ⟨hi, hwf⟩ := wf_of_keepWf h
    have henc := l64Table_enc _ (mem_of_lookup hf) _ _ hi
    exact ⟨hwf, by rw [encode, henc, Enc.slots, L64.bits_ofBits w hlen]⟩
  case h_2 =>
    split at h
    case h_2 => contradiction
    case h_1 f hf =>
      obtain ⟨hres, hi⟩ := Option.ite_none_right_eq_some.mp h
      obtain ⟨hi, hwf⟩ := wf_of_keepWf hi
      have henc := m64Table_enc _ (mem_of_lookup hf) _ _ hi
      exact ⟨hwf, by rw [encode, henc, Enc.slots, M64.bits_ofBits w hlen hres]⟩

theorem encode_of_decodeX96 {lit : Word} {w : Dbl} {i : Instr} (hlen : w.extractLsb' 0 2 = 2)
    (h : decodeX96 (lit ++ w : BitVec 96) = some i) :
    i.wf = true ∧ encode i = [w.extractLsb' 0 32, w.extractLsb' 32 32, lit] := by
  have hop : (lit ++ w : BitVec 96).extractLsb' 2 10 = w.extractLsb' 2 10 := BitVec.extractLsb'_append_eq_of_add_le (by decide)
  have hlo : (lit ++ w : BitVec 96).extractLsb' 0 64 = w := BitVec.extractLsb'_append_eq_right
  have hlit : (lit ++ w : BitVec 96).extractLsb' 64 32 = lit := BitVec.extractLsb'_append_eq_left
  unfold decodeX96 at h
  rw [hop, hlo, hlit] at h
  split at h
  case h_2 => contradiction
  case h_1 f hf =>
    obtain ⟨hi, hwf⟩ := wf_of_keepWf h
    refine ⟨hwf, ?_⟩
    rw [encode, x96Table_enc _ (mem_of_lookup hf) _ _ hi, Enc.slots, X96.bits_ofBits lit w hlen, hlit,
      BitVec.extractLsb'_append_eq_of_add_le (by decide), BitVec.extractLsb'_append_eq_of_add_le (by decide)]

/-- LEN, bits 1:0 of the first slot (06 R149). -/
theorem len_of_slotLen {w : Word} {n : Nat} (h : slotLen w = some n) : w.extractLsb' 0 2 = BitVec.ofNat 2 (n - 1) := by
  unfold slotLen at h
  split_ifs at h with h1 h2 h3 <;> cases h <;> assumption

theorem len_of_append (w1 : Word) {w0 : Word} {n : Nat} (h : slotLen w0 = some n) :
    (w1 ++ w0 : Dbl).extractLsb' 0 2 = BitVec.ofNat 2 (n - 1) :=
  (BitVec.extractLsb'_append_eq_of_add_le (by decide)).trans (len_of_slotLen h)

/-! ### The statements -/

/-- Settles O55: the table of its format holds the instruction (`Instr.enc_read`), and the decoder reads the table's entry from
the words (`decodeWords_slots`). -/
theorem decodeOfEncode : Obligations.DecodeOfEncode := by
  unfold Obligations.DecodeOfEncode
  intro i henc hwf
  have hread := (Instr.enc_read i hwf).trans (if_neg henc)
  exact (decodeWords_slots hread).trans (keepWf_of_wf hwf)

/-- Settles O56, by the format that LEN of the first slot names. -/
theorem encodeOfDecode : Obligations.EncodeOfDecode := by
  unfold Obligations.EncodeOfDecode
  intro w0 w1 w2 i h
  unfold decodeSlots at h
  split at h
  case h_1 hlen =>
    obtain ⟨hwf, henc⟩ := encode_of_decodeS32 (len_of_slotLen hlen) h
    exact ⟨hwf, 1, hlen, henc⟩
  case h_2 hlen =>
    obtain ⟨hwf, henc⟩ := encode_of_decodeL64 (len_of_append w1 hlen) h
    exact ⟨hwf, 2, hlen, by rw [henc, BitVec.extractLsb'_append_eq_right, BitVec.extractLsb'_append_eq_left]; rfl⟩
  case h_3 hlen =>
    obtain ⟨hwf, henc⟩ := encode_of_decodeX96 (len_of_append w1 hlen) h
    exact ⟨hwf, 3, hlen, by rw [henc, BitVec.extractLsb'_append_eq_right, BitVec.extractLsb'_append_eq_left]; rfl⟩
  case h_4 => contradiction

/-- Settles O57: each word decodes by evaluation. -/
theorem decodedWords : Obligations.DecodedWords :=
  ⟨rfl, rfl, rfl, rfl, rfl, rfl, rfl, rfl, rfl, rfl, rfl, rfl, rfl, rfl, rfl⟩

end Sys2Proof
end

section

/-! PROOFS of the statement of rows 6 to 10 (O22): what an issue does whose one lane a row stops, a lemma for each family of
meanings, and the order of the rows. -/

namespace Sys2Proof.Machine
open Sys2Proof.Claims

/-! ### Which fault a lane takes -/

theorem allotFault_code_ne {t : Team} {L : Nat} {f : Form} {nd : Node} {x : FaultInfo} (h : allotFault t L f nd = some x) :
    x.code ≠ 0 := by
  unfold allotFault at h
  repeat' split at h
  all_goals cases h
  all_goals simp [codeRegbound, codeBarbound]

/-- A row of R165 raises a fault, never a wait. -/
theorem rowFault_code_ne {s : State} {t : Team} {nd : Node} {wf : Bool} {f : Form} {w : Word} {L : Nat} {x : FaultInfo}
    (h : rowFault s t nd wf f w L = some x) : x.code ≠ 0 := by
  unfold rowFault at h
  split at h
  · cases h; simp [codeIllegal]
  split at h
  · cases h; simp [codeFeature]
  split at h
  · cases h; simp
  split at h
  case h_1 hallot => cases h; exact allotFault_code_ne hallot
  obtain ⟨-, hx⟩ := Option.ite_none_right_eq_some.mp h
  cases hx
  simp [codeAlign]

/-! ### An issue whose lane a row stops -/

/-- What a meaning sees when rows of R165 stop every lane whose predicate is 1. -/
def State.idleCtx (s : State) (iss : Issue) (i : Instr) : Ctx := { s.ctxOf iss i with act := [] }

/-- The checks that follow an issue. -/
def Effect.checks (e : Effect) (tn b : Nat) (s : State) : State :=
  let u := s.checkMasks tn e.masks
  let v := if e.bars then u.checkBars b else u
  if e.check then v.checkDead tn else v

/-- The lanes of the issue group after an issue in which the lanes `fs` fault. -/
def Team.movedBut (t : Team) (iss : Issue) (e : Effect) (fs : List (Nat × FaultInfo)) : Team :=
  t.mapLanes (laneList.filter iss.group.contains) fun M l =>
    if (fs.lookup M).isSome then { l with pend := true } else l.after iss.pc (nextPc iss.pc iss.len) e M

/-- The team after such an issue, before the faults are taken. -/
def Team.issuedBut (t : Team) (iss : Issue) (e : Effect) (fs : List (Nat × FaultInfo)) : Team :=
  let u := t.movedBut iss e fs
  u.countIssue.split iss.pc
    ((if e.order = [] then [nextPc iss.pc iss.len] else e.order).filter fun p =>
      iss.group.any fun M => (u.lane M).isReady && (u.lane M).pc == p)

theorem Team.issuedBut_eq (T : Team) (iss : Issue) (e : Effect) (fs : List (Nat × FaultInfo)) :
    T.issuedBut iss e fs = { T with
      lanes := (T.movedBut iss e fs).lanes
      insns := counted T.insns
      service := (T.issuedBut iss e fs).service } := by
  unfold Team.issuedBut
  generalize hu : T.movedBut iss e fs = u
  obtain ⟨ls, rfl⟩ : ∃ ls, u = { T with lanes := ls } := ⟨_, by rw [← hu]; exact Team.mapLanes_eq _ _ _⟩
  rfl

theorem Team.issuedBut_lane (T : Team) (iss : Issue) (e : Effect) (fs : List (Nat × FaultInfo)) (M : Nat) :
    (T.issuedBut iss e fs).lane M = if M < 64 ∧ M ∈ iss.group then
      if (fs.lookup M).isSome then { T.lane M with pend := true }
      else (T.lane M).after iss.pc (nextPc iss.pc iss.len) e M
    else T.lane M := by
  simp only [Team.issuedBut, Team.movedBut, Team.split_lane, Team.countIssue_lane]
  rw [Team.mapLanes_lane _ _ _ (laneList_nodup.filter _)]
  simp only [List.mem_filter, mem_laneList, List.contains_iff_mem]

/-- An issue in which a row stops lane `L`, and the meaning adds no fault. -/
theorem State.finish_stopped (s : State) (iss : Issue) (L : Nat) (x : FaultInfo) (e : Effect) (hx : x.code ≠ 0)
    (hf : e.faults = []) (hs : e.stall = false) :
    s.finish iss [(L, x)] e = e.checks iss.team (e.st.team iss.team).block
      (((e.st.setTeam iss.team ((e.st.team iss.team).issuedBut iss e [(L, x)])).dropAnswers iss.team [L]).takeFaults
        iss.team [(L, x)] iss.pc (nextPc iss.pc iss.len)) := by
  have hb : (Team.movedBut (e.st.team iss.team) iss e [(L, x)]).block = (e.st.team iss.team).block :=
    Team.mapLanes_other (fun u => u.block) (fun _ _ _ => rfl) _ _ _
  have hcode : (x.code == 0) = false := by simpa using hx
  unfold State.finish
  simp only [hf, hs, List.append_nil, List.foldl_cons, List.foldl_nil, insertFault, List.find?_cons, hcode, List.find?_nil,
    Bool.false_eq_true, if_false, Effect.checks, ← hb]
  rfl

/-- The effect of a meaning that is given no lane: it leaves the state as `u`, but for a store of the issuing team as it stands
there, and names no lane. -/
structure Effect.Idle (e : Effect) (u : State) (tn : Nat) : Prop where
  st : e.st = u ∨ e.st = u.setTeam tn (u.team tn)
  bare : e = { st := e.st, off := e.off, order := e.order, masks := e.masks, check := e.check, bars := e.bars }

section
variable {e : Effect} {u : State} {tn : Nat} (h : e.Idle u tn)
include h

theorem Effect.Idle.setTeam (T : Team) : e.st.setTeam tn T = u.setTeam tn T := by
  rcases h.st with hst | hst <;> rw [hst]
  exact State.setTeam_setTeam u tn _ T

theorem Effect.Idle.team : e.st.team tn = u.team tn := by
  rcases h.st with hst | hst <;> rw [hst]
  exact State.team_setTeam_self u tn _

theorem Effect.Idle.after (l : Lane) (iss : Issue) (M : Nat) :
    l.after iss.pc (nextPc iss.pc iss.len) e M = { goneOn iss l with pend := !e.off.contains M } := by
  rw [h.bare]
  rfl

end

section
variable {i : Instr} {s : State} {iss : Issue} {L : Nat} {x : FaultInfo}

/-- A row stops the one lane whose predicate is 1: the meaning is given no lane. -/
theorem State.issueInstr_stopped (body : Ctx → Effect) (hact : actives s iss = [L])
    (hrow : rowFault s (s.team iss.team) (Claims.nodeAt s iss) i.wf i.form iss.word L = some x) :
    s.issueInstr iss i body = s.finish iss [(L, x)] (body (s.idleCtx iss i)) := by
  have hcand : (laneList.filter fun M => iss.group.contains M && ((s.team iss.team).lane M).pend) = [L] := by
    rw [← hact, actives_eq_activeLanes, State.activeLanes]
  have hrows : ([L].filterMap fun M => (rowFault s (s.team iss.team) (s.nodeOf (s.team iss.team).block) i.wf i.form
      iss.word M).map fun e => (M, e)) = [(L, x)] := by
    rw [Claims.nodeAt] at hrow
    simp [hrow]
  have hleft : ([L].filter fun M => ([(L, x)].lookup M).isNone) = [] := by simp
  unfold State.issueInstr
  simp only [hcand, hrows, hleft]
  rfl

theorem exec_stopped {body : Ctx → Effect} (hcur : s.cur = some iss) (hact : actives s iss = [L])
    (hrow : rowFault s (s.team iss.team) (nodeAt s iss) i.wf i.form iss.word L = some x)
    (hexec : exec i s = runInstr i s body) : exec i s = .next (s.finish iss [(L, x)] (body (s.idleCtx iss i))) := by
  rw [hexec, runInstr, hcur]
  exact congrArg Host.Outcome.next (State.issueInstr_stopped body hact hrow)

/-- Where the meaning, given no lane, leaves the state as `u`, the lane faults, the others go on, and the checks follow that the
meaning asks for. -/
theorem does_of_idle {u : State} {e : Effect} {lane : Lane → Lane}
    (hexec : exec i s = .next (s.finish iss [(L, x)] e)) (hcode : x.code ≠ 0) (hidle : e.Idle u iss.team)
    (hlane : ∀ M ∈ iss.group, ∀ l, { goneOn iss l with pend := !e.off.contains M } = lane l) :
    Does i s iss u [(L, x)] id (fun _ => lane) (fun _ => True) (e.checks iss.team (u.team iss.team).block) := by
  refine ⟨u.setTeam iss.team ((u.team iss.team).issuedBut iss e [(L, x)]), ?exec, ⟨?only, ?bare, ?insns, fun M => ?lane⟩, trivial⟩
  case exec =>
    have hf : e.faults = [] := by rw [hidle.bare]
    have hs : e.stall = false := by rw [hidle.bare]
    rw [hexec, State.finish_stopped s iss L x e hcode hf hs, hidle.team, hidle.setTeam]
    rfl
  case only => rw [OnlyTeam, State.team_setTeam_self]
  case bare | insns => rw [State.team_setTeam_self, Team.issuedBut_eq]
  case lane =>
    rw [State.team_setTeam_self, Team.issuedBut_lane]
    split
    case isTrue hM =>
      obtain ⟨-, hgroup⟩ := hM
      rw [hidle.after, hlane M hgroup]
    case isFalse => rfl

end

/-- Where a row stops the one lane of the group whose predicate is 1, `i` takes that row's fault and does nothing else. -/
def Stops (i : Instr) : Prop :=
  ∀ s iss L x, s.cur = some iss → actives s iss = [L] →
    rowFault s (s.team iss.team) (nodeAt s iss) i.wf i.form iss.word L = some x → FaultsWith i s iss [(L, x)]

/-- The effect of a meaning that, given no lane, asks for no check either. -/
structure Effect.Still (e : Effect) (s : State) (tn : Nat) : Prop where
  st : e.st = s ∨ e.st = s.setTeam tn (s.team tn)
  bare : e = { st := e.st, order := e.order }

theorem Effect.still_of_eq {e : Effect} {s w : State} {tn : Nat} {order : List Dbl} (h : e = { st := w, order := order })
    (hst : w = s ∨ w = s.setTeam tn (s.team tn)) : e.Still s tn := by
  rw [h]
  exact ⟨hst, rfl⟩

theorem Effect.Still.idle {e : Effect} {s : State} {tn : Nat} (h : e.Still s tn) : e.Idle s tn where
  st := h.st
  bare := by rw [h.bare]

theorem faultsWith_of_still {i : Instr} {s : State} {iss : Issue} {L : Nat} {x : FaultInfo} {e : Effect}
    (hexec : exec i s = .next (s.finish iss [(L, x)] e)) (hcode : x.code ≠ 0) (hstill : e.Still s iss.team) :
    FaultsWith i s iss [(L, x)] := by
  have hoff : e.off = [] := by rw [hstill.bare]
  obtain ⟨t, ht, hframe, -⟩ := does_of_idle (lane := goneOn iss) hexec hcode hstill.idle fun M _ l => by rw [hoff]; rfl
  refine ⟨t, ht.trans ?_, hframe⟩
  rw [hstill.bare]
  rfl

theorem stops_of_meaning {i : Instr} {body : State → Ctx → Effect} (hexec : ∀ s, exec i s = runInstr i s (body s))
    (hstill : ∀ s iss, (body s (s.idleCtx iss i)).Still s iss.team) : Stops i :=
  fun s iss _ _ hcur hact hrow =>
    faultsWith_of_still (exec_stopped hcur hact hrow (hexec s)) (rowFault_code_ne hrow) (hstill s iss)

/-! ### Meanings that act for their lanes only -/

theorem stops_of_laneInstr {i : Instr} {f : State → Ctx → Nat → Team → Team} (h : ∀ s, exec i s = laneInstr i s (f s)) : Stops i :=
  stops_of_meaning h fun _ _ => ⟨.inr rfl, rfl⟩

theorem stops_of_teamEffect {i : Instr} {f : State → Ctx → Nat → Effect}
    (h : ∀ s, exec i s = runInstr i s fun c => teamEffect s c (f s c)) : Stops i :=
  stops_of_meaning h fun _ _ => ⟨.inl rfl, rfl⟩

theorem stops_of_floatInstr {i : Instr} {g : State → Ctx → Nat → Word × List Nat}
    (h : ∀ s, exec i s = floatInstr i s (g s)) : Stops i :=
  stops_of_meaning h fun _ _ => ⟨.inr rfl, rfl⟩

theorem stops_of_branch {i : Instr} {lit : Option Word} {take : Ctx → Nat → Bool}
    (h : ∀ s, exec i s = branch i lit s take) : Stops i :=
  stops_of_meaning h fun _ _ => ⟨.inl rfl, rfl⟩

theorem stops_of_callInstr {i : Instr} {lit : Option Word} (h : ∀ s, exec i s = callInstr i lit s) : Stops i :=
  stops_of_meaning h fun _ _ => ⟨.inr rfl, rfl⟩

theorem stops_of_indirectJump {i : Instr} {link : Bool} {target : Ctx → Nat → Dbl}
    (h : ∀ s, exec i s = indirectJump i link s target) : Stops i :=
  stops_of_meaning h fun _ _ => by
    cases link
    · exact ⟨.inl rfl, rfl⟩
    · exact ⟨.inr rfl, rfl⟩

/-! ### Meanings that look at a log, a table or a watch first -/

theorem State.logFaults_nil (s : State) (c : Ctx) : s.logFaults c [] = [] := by simp [State.logFaults]

theorem stops_of_memInstr {i : Instr} {o : M64} {m : MemOp} (h : ∀ s, exec i s = memInstr i o m s) : Stops i :=
  stops_of_meaning h fun s iss => Effect.still_of_eq (w := s) (order := [])
    (by simp [State.idleCtx, State.laneLogs, State.logFaults_nil, State.overLanes]) (.inl rfl)

theorem stops_of_updInstr {i : Instr} {op : Nat} (h : ∀ s, exec i s = updInstr i op s) : Stops i :=
  stops_of_meaning h fun _ _ => ⟨.inl rfl, rfl⟩

theorem stops_of_emitInstr {i : Instr} {self : Bool} {target : Ctx → Nat → Nat}
    (h : ∀ s, exec i s = emitInstr i s self target) : Stops i :=
  stops_of_meaning h fun s iss => Effect.still_of_eq (w := s) (order := [])
    (by simp [State.idleCtx, State.emitLogs, State.emitOver]) (.inl rfl)

theorem stops_jtab (o : L64) : Stops (.jtab o) :=
  stops_of_meaning (fun _ => rfl) fun s iss => Effect.still_of_eq (w := s)
    (order := jumpOrder [] (nextPc iss.pc iss.len) iss.group.length)
    (by simp [State.idleCtx, State.logFaults_nil, jtabReads, State.ctxOf]) (.inl rfl)

theorem stops_waitw (o : S32) : Stops (.waitw o) :=
  stops_of_meaning (fun _ => rfl) fun s iss => Effect.still_of_eq (w := s.setTeam iss.team (s.team iss.team)) (order := [])
    (by simp [State.idleCtx, State.watchDue, State.ctxOf]) (.inr rfl)

/-! ### PHINT and CANCEL

Both look at the rows themselves, and where no lane passes they issue with a meaning that does nothing. -/

theorem faultsWith_of_issueInstr {i : Instr} {s : State} {iss : Issue} {L : Nat} {x : FaultInfo} (hact : actives s iss = [L])
    (hrow : rowFault s (s.team iss.team) (nodeAt s iss) i.wf i.form iss.word L = some x)
    (hexec : exec i s = .next (s.issueInstr iss i fun _ => { st := s })) : FaultsWith i s iss [(L, x)] := by
  rw [State.issueInstr_stopped _ hact hrow] at hexec
  exact faultsWith_of_still hexec (rowFault_code_ne hrow) ⟨.inl rfl, rfl⟩

/-- Rows 6 to 10 stop either every lane or none, where the form names no register and no system register. -/
theorem rowFault_lane {s : State} {t : Team} {nd : Node} {wf : Bool} {f : Form} {w : Word}
    (hcount : ∀ slot, (f.opnd slot).kind.count = 0) (hpriv : privNumber f = none) (hind : formIndirect f = false) (L M : Nat) :
    rowFault s t nd wf f w L = rowFault s t nd wf f w M := by
  have hnone : ∀ K, (List.range 4).flatMap (opIndices t K f) = [] := fun K =>
    List.flatMap_eq_nil_iff.mpr fun slot _ => by simp [opIndices, hcount]
  have hreg : ∀ K, regBeyond t K f nd.regs = none := fun K => by
    rw [regBeyond, hnone]
    rfl
  have hodd : ∀ K, oddPair t K f = false := by simp [oddPair, hind]
  simp only [rowFault, allotFault, hpriv, ite_self, hreg, hodd]
  rfl

theorem stops_phint (o : X96) : Stops (.phint o) := by
  intro s iss L x hcur hact hrow
  have hrows : ∀ M, rowFault s (s.team iss.team) (s.nodeOf (s.team iss.team).block) (Instr.phint o).wf (Instr.phint o).form
      iss.word M = some x := by
    intro M
    refine (rowFault_lane (fun slot => ?_) rfl rfl M L).trans hrow
    unfold Form.opnd
    split_ifs <;> rfl
  exact faultsWith_of_issueInstr hact hrow (by simp [exec, execPhint, hcur, hrows])

/-- A row stops the one lane whose predicate is 1: no lane is left to cancel for. -/
theorem State.activeOf_stopped {s : State} {iss : Issue} {i : Instr} {L : Nat} {x : FaultInfo} (hact : actives s iss = [L])
    (hrow : rowFault s (s.team iss.team) (Claims.nodeAt s iss) i.wf i.form iss.word L = some x) : s.activeOf iss i = [] := by
  have hleft : s.activeOf iss i = (s.activeLanes iss).filter fun M =>
      (rowFault s (s.team iss.team) (Claims.nodeAt s iss) i.wf i.form iss.word M).isNone := by
    rw [State.activeLanes, List.filter_filter, State.activeOf]
    simp only [Bool.and_comm]
    rfl
  rw [hleft, ← actives_eq_activeLanes, hact]
  simp [hrow]

theorem stops_of_cancelInstr {i : Instr} {level : Nat} {target : State → Nat → Nat} {rs : State → Nat → List Nat}
    {act : State → State → Nat → List Nat → State}
    (h : ∀ s, exec i s = cancelInstr i s level (target s) (rs s) (act s)) : Stops i := by
  intro s iss L x hcur hact hrow
  refine faultsWith_of_issueInstr hact hrow ?_
  rw [h, cancelInstr, hcur]
  simp only [State.activeOf_stopped hact hrow, if_true]

/-! ### Instructions that a row's fault leaves nothing else of -/

/-- An encoded instruction of the main set. -/
def inMainSet (i : Instr) : Bool := i.enc.set == .main && i.enc != .none

/-- An instruction of the main set whose meaning, given no lane, does nothing: not EXIT nor LIVE, and none after which a
release or a deadlock is checked, tags are looked at or predicates are written. -/
def takesRowOnly (i : Instr) : Bool :=
  match i with
  | .exit | .live _ | .enrol _ | .leave _ | .kset _ | .cmpS32 _ | .cmpN32 _ | .cmpS64 _ | .cmpN64 _ | .cmpS32X96 _ | .cmpN32X96 _
  | .cmpS64X96 _ | .cmpN64X96 _ | .cmpiS32 _ | .cmpiN32 _ | .fcmp _ _ | .fcmpX96 _ _ | .strike _ | .join _ | .waitk _ | .bar _
  | .barArv _ | .barWait _ | .drain _ | .waitc _ | .twaitAny _ | .twaitAll _ | .tfind _ | .pred _ | .predNot _ => false
  | i => inMainSet i

theorem stops_of_takesRowOnly (i : Instr) (h : takesRowOnly i = true) : Stops i := by
  cases i
  case sread | wget | xset | xget | mov | movB64 | notV | negS32 | absS32 | popc | clz | ctz | brev | kpop | kget | addS32 |
    addN32 | subS32 | subN32 | mul | mulhiS32 | mulhiN32 | mad | divS32 | divN32 | remS32 | remN32 | minS32 | minN32 |
    maxS32 | maxN32 | andV | orV | xorV | andn | shl | shr | sar | rot | bfxS32 | bfxN32 | bfi | sel | addS64 | addN64 |
    subS64 | subN64 | mulB64 | adda | shla | divS64 | divN64 | remS64 | remN64 | minS64 | minN64 | maxS64 | maxN64 |
    addS32X96 | addN32X96 | subS32X96 | subN32X96 | mulX96 | mulhiS32X96 | mulhiN32X96 | madX96 | divS32X96 | divN32X96 |
    remS32X96 | remN32X96 | minS32X96 | minN32X96 | maxS32X96 | maxN32X96 | andX96 | orX96 | xorX96 | andnX96 | shlX96 |
    shrX96 | sarX96 | rotX96 | bfxS32X96 | bfxN32X96 | bfiX96 | selX96 | addS64X96 | addN64X96 | subS64X96 | subN64X96 |
    mulB64X96 | addaX96 | shlaX96 | divS64X96 | divN64X96 | remS64X96 | remN64X96 | minS64X96 | minN64X96 | maxS64X96 |
    maxN64X96 | addi | andi | ori | xori | shli | shri | sari | addai | movi | lit | litB64 | shflIdx | shflUp | shflDown |
    shflXor | voteAny | voteAll | matchLanes | redstep | scanstep | walkQuery =>
    exact stops_of_laneInstr fun _ => rfl
  case fabs | fneg | fclass | frcp | fsqrt | frsq | fexp2 | flog2 | fsin | fcos | ftanh | fadd | fsub | fmul | ffma | fmin |
    fmax | faddX96 | fsubX96 | fmulX96 | ffmaX96 | fminX96 | fmaxX96 =>
    exact stops_of_floatInstr fun _ => rfl
  case swrite | wset | kmov | knot | kand | kor | kxor | kandn | kact | bcast | voteBal | cpy | cpy2d | updclr | zscan |
    mxmF8 | mxmS2p8 | mxmH16 | mxmW | mxzero | mxrd | mxst | mxskip | nmv | walkStart | fenceAcq | fenceRel | fenceSc |
    fenceTbl | updflush | walkStop =>
    exact stops_of_teamEffect fun _ => rfl
  case bra | brnz | brz | brk | braLong | brnzLong | brzLong | brkLong =>
    exact stops_of_branch fun _ => rfl
  case call | callLong =>
    exact stops_of_callInstr fun _ => rfl
  case ret | jmp | callr =>
    exact stops_of_indirectJump fun _ => rfl
  case ld | st | tld | watch | atomAdd | atomFadd | atomMin | atomMax | atomAnd | atomOr | atomXor | atomXchg | atomCas =>
    exact stops_of_memInstr fun _ => rfl
  case updAdd | updMin | updMax =>
    exact stops_of_updInstr fun _ => rfl
  case emit | emitReg | emitSelf =>
    exact stops_of_emitInstr fun _ => rfl
  case cancelRun => exact stops_of_cancelInstr execCancelRun.eq_1
  case cancelPhase => exact stops_of_cancelInstr execCancelPhase.eq_1
  case cancelJob => exact stops_of_cancelInstr execCancelJob.eq_1
  case trap | nop | tret | emitRemote => exact stops_of_meaning (fun _ => rfl) fun _ _ => ⟨.inl rfl, rfl⟩
  case cvt | waitb => exact stops_of_meaning (fun _ => rfl) fun _ _ => ⟨.inr rfl, rfl⟩
  case waitw o => exact stops_waitw o
  case jtab o => exact stops_jtab o
  case phint o => exact stops_phint o
  all_goals exact absurd h Bool.false_ne_true

/-- Of a list of instructions with the same fields. -/
theorem stops_of_list {α : Type} {l : List (α → Instr)} (h : l.Forall fun c => ∀ o, takesRowOnly (c o) = true) :
    ∀ c ∈ l, ∀ o, Stops (c o) :=
  fun c hc o => stops_of_takesRowOnly (c o) (List.forall_iff_forall_mem.mp h c hc o)

/-- Of a list of float instructions with the same fields. -/
theorem stops_of_fmtList {α : Type} {l : List (FFmt → α → Instr)} (h : l.Forall fun c => ∀ f o, takesRowOnly (c f o) = true) :
    ∀ f, ∀ c ∈ l, ∀ o, Stops (c f o) :=
  fun f c hc o => stops_of_takesRowOnly (c f o) (List.forall_iff_forall_mem.mp h c hc f o)

/-! ### Instructions after which a check runs -/

/-- Where a row stops the one lane of the group whose predicate is 1, `i` takes that row's fault, the other lanes go on as `lane`
says, and `after` says what the checks that follow leave. -/
def StopsThen (i : Instr) (base : State → Issue → State) (lane : Issue → Lane → Lane)
    (after : State → Issue → State → State → Prop) : Prop :=
  ∀ s iss L x, s.cur = some iss → actives s iss = [L] →
    rowFault s (s.team iss.team) (nodeAt s iss) i.wf i.form iss.word L = some x →
    ∃ f, (∀ t, after s iss t (f t)) ∧ Does i s iss (base s iss) [(L, x)] id (fun _ l => lane iss l) (fun _ => True) f

theorem stopsThen_of_meaning {i : Instr} {body : State → Ctx → Effect} {base : State → Issue → State} {lane : Issue → Lane → Lane}
    {after : State → Issue → State → State → Prop} (hexec : ∀ s, exec i s = runInstr i s (body s))
    (hidle : ∀ s iss, (body s (s.idleCtx iss i)).Idle (base s iss) iss.team)
    (hlane : ∀ s iss, ∀ M ∈ iss.group, ∀ l, { goneOn iss l with pend := !(body s (s.idleCtx iss i)).off.contains M } = lane iss l)
    (hafter : ∀ s iss b t, after s iss t ((body s (s.idleCtx iss i)).checks iss.team b t)) : StopsThen i base lane after :=
  fun s iss _ _ hcur hact hrow => ⟨_, hafter s iss _,
    does_of_idle (exec_stopped hcur hact hrow (hexec s)) (rowFault_code_ne hrow) (hidle s iss) (hlane s iss)⟩

/-- The release check of mask `d` follows. -/
def ChecksMask (i : Instr) (d : Nat) : Prop :=
  StopsThen i (fun s _ => s) goneOn fun _ iss t u => u = t.checkMask iss.team d

/-- The check for deadlock may follow. -/
def ChecksDead (i : Instr) : Prop :=
  StopsThen i (fun s _ => s) goneOn fun _ iss t u => u = t ∨ u = t.checkDead iss.team

theorem checksMask_of_cmpInstr {i : Instr} {d : Nat} {f : State → Ctx → Nat → Bool} (h : ∀ s, exec i s = cmpInstr i s (f s))
    (hd : i.form.d.field.toNat = d) : ChecksMask i d :=
  stopsThen_of_meaning h (fun _ _ => ⟨.inr rfl, rfl⟩) (fun _ _ _ _ _ => rfl) fun _ _ _ _ => by rw [← hd]; rfl

theorem checksDead_of_arriveInstr {i : Instr} {w : List Nat → Nat → Wait} (h : ∀ s, exec i s = arriveInstr i s w) :
    ChecksDead i :=
  stopsThen_of_meaning h (fun _ _ => ⟨.inl rfl, rfl⟩) (fun _ _ _ _ _ => rfl) fun _ _ _ _ => .inr rfl

theorem checksDead_bar (o : S32) : ChecksDead (.bar o) := checksDead_of_arriveInstr fun s => execBar.eq_1 o s
theorem checksDead_barArv (o : S32) : ChecksDead (.barArv o) := checksDead_of_arriveInstr fun s => execBarArv.eq_1 o s
theorem checksDead_drain (o : S32) : ChecksDead (.drain o) := checksDead_of_arriveInstr fun s => execDrain.eq_1 o s

theorem checksDead_barWait (o : S32) : ChecksDead (.barWait o) :=
  stopsThen_of_meaning (fun _ => rfl) (fun _ _ => ⟨.inl rfl, rfl⟩) (fun _ _ _ _ _ => rfl) fun _ _ _ _ => .inr rfl

theorem checksDead_waitc (o : X96) : ChecksDead (.waitc o) := by
  refine stopsThen_of_meaning (fun _ => rfl) (fun s iss => ?idle) (fun s iss _ _ l => ?lane) fun s iss b t => ?after
  all_goals dsimp only
  case idle => split <;> exact ⟨.inl rfl, rfl⟩
  case lane => split <;> rfl
  case after =>
    split
    · exact .inl rfl
    · exact .inr rfl

theorem stopsThen_of_waitMask {i : Instr} {d : Nat} {w : List Nat → Wait} (h : ∀ s, exec i s = waitMask i w s)
    (hd : i.form.d.field.toNat = d) :
    StopsThen i (fun s _ => s) goneOn fun _ iss t u => u = (t.checkMask iss.team d).checkDead iss.team :=
  stopsThen_of_meaning h (fun _ _ => ⟨.inl rfl, rfl⟩) (fun _ _ _ _ _ => rfl) fun _ _ _ _ => by rw [← hd]; rfl

theorem stopsThen_strike (o : S32) : StopsThen (.strike o) (fun s _ => s) goneOn fun _ iss t u =>
    u = t.checkMasks iss.team ((List.range 12).filter fun n => o.d.toNat ≤ n) :=
  stopsThen_of_meaning (fun _ => rfl) (fun s iss => ⟨.inr (congrArg (s.setTeam iss.team) (foldl_of_fixed _ _ _ fun _ _ => rfl)), rfl⟩)
    (fun _ _ _ _ _ => rfl) fun _ _ _ _ => rfl

/-- The core is written as it stands. -/
def Tagged (i : Instr) : Prop :=
  StopsThen i (fun s iss => let n := (s.team iss.team).core; s.setCore n (s.core n)) goneOn fun _ _ t u => u = t

theorem State.observe_nil (s : State) (tn : Nat) (m : Nat → Dbl) : s.observe tn [] m = s := ite_self _

theorem tagged_of_twait {i : Instr} {all : Bool} (h : ∀ s, exec i s = twait i all s) : Tagged i :=
  stopsThen_of_meaning h (fun _ _ => ⟨.inl (State.observe_nil _ _ _), rfl⟩) (fun _ _ _ _ _ => rfl) fun _ _ _ _ => rfl

theorem tagged_tfind (o : S32) : Tagged (.tfind o) :=
  stopsThen_of_meaning (fun _ => rfl) (fun _ _ => ⟨.inr (State.observe_nil _ _ _), rfl⟩) (fun _ _ _ _ _ => rfl) fun _ _ _ _ => rfl

/-- The other lanes' predicates become 0. -/
theorem stopsThen_of_predInstr {i : Instr} {inv : Bool} (h : ∀ s, exec i s = predInstr i inv s) :
    StopsThen i (fun s _ => s) (fun iss l => { goneOn iss l with pend := false }) fun _ _ t u => u = t :=
  stopsThen_of_meaning h (fun _ _ => ⟨.inl rfl, rfl⟩) (fun s iss M hM l => by simp [State.idleCtx, State.ctxOf, hM]) fun _ _ _ _ => rfl

/-! ### The order of rows 6 to 10 (06 R165; 05 R140) -/

theorem lowest_eq_min? (l : List Int) : lowest l = l.min? := by
  have hfold : ∀ (r : List Int) (a : Int), r.foldl (fun m i => match m with | none => some i | some j => some (min i j)) (some a) =
      some (r.foldl min a) := by
    intro r
    induction r with
    | nil => exact fun _ => rfl
    | cons b r ih =>
      intro a
      rw [List.foldl_cons, List.foldl_cons, ih, min_comm]
  cases l with
  | nil => rfl
  | cons a r => exact hfold r a

/-- The lowest feature bit that FEATREQ lacks. -/
theorem featMissing_of_lowest {f : Form} {req : Dbl} {b : Nat} (hb : b ∈ f.feats) (hlacks : req.getLsbD b = false)
    (hleast : ∀ c ∈ f.feats, req.getLsbD c = false → b ≤ c) : featMissing f req = some (b : Int) := by
  rw [featMissing, lowest_eq_min?, List.min?_eq_some_iff]
  simp only [List.mem_map, List.mem_filter, Bool.not_eq_true', Nat.cast_inj, exists_eq_right]
  refine ⟨⟨hb, hlacks⟩, ?_⟩
  rintro c ⟨n, ⟨hn, hlack⟩, rfl⟩
  exact Int.ofNat_le.mpr (hleast n hn hlack)

theorem featMissing_of_all {f : Form} {req : Dbl} (h : ∀ c ∈ f.feats, req.getLsbD c = true) : featMissing f req = none := by
  have hnone : (f.feats.filter fun b => !req.getLsbD b) = [] := by simpa using h
  rw [featMissing, hnone]
  rfl

section
variable {s : State} {t : Team} {nd : Node} {f : Form} {w : Word} {L : Nat}

theorem rowFault_of_feature {i : Int} (h : featMissing f nd.featreq = some i) :
    rowFault s t nd true f w L = some { code := 0x02, info := .ofInt 32 i } := by
  simp [rowFault, h, codeFeature]

theorem rowFault_of_supervisor {n : Nat} (hfeat : featMissing f nd.featreq = none) (hpriv : privNumber f = some n)
    (htrap : (t.lane L).trap = false) : rowFault s t nd true f w L = some { code := 0x17, info := .ofNat 32 n } := by
  simp [rowFault, hfeat, hpriv, htrap]

/-- Past rows 6 to 8, the allotments decide, and then the index of an indirect pair. -/
theorem rowFault_of_level (hfeat : featMissing f nd.featreq = none) (hlevel : privNumber f = none ∨ (t.lane L).trap = true) :
    rowFault s t nd true f w L = (allotFault t L f nd).or
      (if oddPair t L f then some { code := codeAlign, addr := Config.freeDbl s.stamp L } else none) := by
  have hpriv : (if (t.lane L).trap then none else privNumber f) = none := by
    rcases hlevel with h | h <;> simp [h]
  simp only [rowFault, hfeat, hpriv]
  cases allotFault t L f nd <;> rfl

end

/-! ### The statement -/

/-- Settles O22. A row that stops the one lane with predicate 1 leaves the instruction's meaning no lane (`exec_stopped`); what a
meaning does then is said once for each family (`stops_of_takesRowOnly`, `StopsThen`). The order of the rows is `rowFault`'s. -/
theorem rowsStopLanes : Obligations.RowsStopLanes := by
  unfold Obligations.RowsStopLanes
  refine ⟨?stops, ?rows⟩
  case stops =>
    intro stopped stops checksMask checksDead meets tagged predicates
    refine ⟨stops_of_list ?_, stops_of_list ?_, stops_of_list ?_, stops_of_list ?_, stops_of_fmtList ?_, stops_of_fmtList ?_,
      stops_of_fmtList ?_, ?bare, fun o => ?cmp, fun o => ?cmpX96, fun o => ?masks, fun f o => ?fcmp, fun f o => ?fcmpX96,
      fun o => ?arrive, checksDead_waitc, fun o => stopsThen_of_waitMask (fun _ => rfl) rfl,
      fun o => stopsThen_of_waitMask (fun _ => rfl) rfl, stopsThen_strike, fun o => ?tags,
      fun o => stopsThen_of_predInstr fun _ => rfl, fun o => stopsThen_of_predInstr fun _ => rfl⟩
    case bare =>
      refine List.forall_iff_forall_mem.mp ?_
      simp only [List.Forall]
      and_intros
      all_goals exact stops_of_takesRowOnly _ rfl
    case cmp | cmpX96 | masks =>
      refine List.forall_iff_forall_mem.mp ?_
      simp only [List.Forall]
      and_intros
      all_goals exact checksMask_of_cmpInstr (fun _ => rfl) rfl
    case fcmp | fcmpX96 => exact checksMask_of_cmpInstr (fun _ => rfl) (by cases f <;> rfl)
    case arrive => exact List.forall_iff_forall_mem.mp ⟨checksDead_bar o, checksDead_barArv o, checksDead_barWait o, checksDead_drain o⟩
    case tags =>
      exact List.forall_iff_forall_mem.mp ⟨tagged_of_twait fun _ => rfl, tagged_of_twait fun _ => rfl, tagged_tfind o⟩
    all_goals
      simp only [List.Forall]
      and_intros
      all_goals
        intros
        rfl
  case rows =>
    intro s t nd f w L
    refine ⟨rfl, fun b hb hlacks hleast => ?feature, fun hall => ?_⟩
    case feature =>
      rw [rowFault_of_feature (featMissing_of_lowest hb hlacks hleast), BitVec.ofInt_natCast]
    have hfeat := featMissing_of_all hall
    refine ⟨fun n hpriv htrap => rowFault_of_supervisor hfeat hpriv htrap, fun hlevel => ?_⟩
    simp only [rowFault_of_level hfeat hlevel, allotFault]
    refine ⟨fun n hreg => ?reg, fun hreg n hacc => ?acc, fun hreg hacc => ⟨fun n hk => ?mask, fun hk => ⟨fun n hbar => ?bar,
      fun hbar => ⟨fun hodd => ?even, fun hodd => ?odd⟩⟩⟩⟩
    case reg => rw [hreg]; rfl
    case acc => rw [hreg, hacc]; rfl
    case mask => rw [hreg, hacc, hk]; rfl
    case bar => rw [hreg, hacc, hk, hbar]; rfl
    case even => rw [hreg, hacc, hk, hbar, hodd]; rfl
    case odd =>
      rw [hreg, hacc, hk, hbar, hodd]
      exact ⟨_, rfl, rfl⟩

end Sys2Proof.Machine
end

section
/-! PROOFS shared by the statements of the integer lane (O1 to O11): an instruction that writes vector registers leaves each Active lane's
destination with its value and keeps the frame of such an instruction. -/
namespace Sys2Proof.Machine
open Sys2Proof.Claims

/-! ### Destinations lie within the allotment (02 R43, R45; 06 R165) -/

theorem lowest_eq_none_iff (l : List Int) : lowest l = none ↔ l = [] := by
  rw [lowest_eq_min?, List.min?_eq_none_iff]

/-- Rows 6 to 10 let through only lanes whose registers all lie within the allotment. -/
theorem regBeyond_of_passed {s : State} {t : Team} {nd : Node} {wf : Bool} {f : Form} {w : Word} {L : Nat}
    (h : rowFault s t nd wf f w L = none) : regBeyond t L f nd.regs = none := by
  cases hreg : regBeyond t L f nd.regs with
  | none => rfl
  | some i =>
    simp only [rowFault, allotFault, hreg] at h
    split at h
    · contradiction
    · split at h
      · contradiction
      · split at h <;> contradiction

/-- Every register that an operand names lies within the allotment. -/
theorem opIndex_within {t : Team} {L : Nat} {f : Form} {regs slot n : Nat} (h : regBeyond t L f regs = none) (hs : slot < 4)
    (hn : n < (f.opnd slot).kind.count) : 0 ≤ opIndex t L f slot + n ∧ opIndex t L f slot + n < regs := by
  rw [regBeyond, lowest_eq_none_iff, List.filter_eq_nil_iff] at h
  have hmem : opIndex t L f slot + n ∈ (List.range 4).flatMap (opIndices t L f) :=
    List.mem_flatMap.mpr ⟨slot, List.mem_range.mpr hs, List.mem_map.mpr ⟨n, List.mem_range.mpr hn, rfl⟩⟩
  have := h _ hmem
  simp only [Bool.or_eq_true, decide_eq_true_eq] at this
  omega

/-- The registers of an Active lane's destination have numbers below 512. -/
theorem destReg_lt {s : State} {iss : Issue} {i : Instr} {L n : Nat} (h : Issued s iss i) (hL : Act s iss L)
    (hn : n < i.form.d.kind.count) : destReg s iss i L + n < 512 := by
  obtain ⟨-, hregs, hrows⟩ := h
  have hreg := regBeyond_of_passed (hrows L hL)
  have hwithin : ∀ m, m < i.form.d.kind.count → 0 ≤ opIndex (s.team iss.team) L i.form 0 + m ∧
      opIndex (s.team iss.team) L i.form 0 + m < (nodeAt s iss).regs := fun m hm => opIndex_within hreg (by omega) hm
  have hlow := hwithin 0 (by omega)
  have hhigh := hwithin n hn
  rw [destReg, opReg]
  omega

/-! ### Writes of vector registers -/

theorem actives_nodup (s : State) (iss : Issue) : (actives s iss).Nodup := List.nodup_range.filter _

/-- The team `W` differs from `T` in vector registers and the zero map only. -/
def VectorsOnly (T W : Team) : Prop := ∃ v z, W = { T with v := v, nonzero := z }

theorem vectorsOnly_wr32 (old : Team) (L : Nat) (f : Form) (w : Word) (t : Team) : VectorsOnly t (wr32 old L f w t) := ⟨_, _, rfl⟩
theorem vectorsOnly_wr64 (old : Team) (L : Nat) (f : Form) (w : Dbl) (t : Team) : VectorsOnly t (wr64 old L f w t) := ⟨_, _, rfl⟩

/-- Writes of lanes in turn. -/
theorem VectorsOnly.foldl {T : Team} {f : Nat → Team → Team} (hf : ∀ L W, VectorsOnly W (f L W)) (ls : List Nat) :
    VectorsOnly T (ls.foldl (fun t L => f L t) T) := by
  induction ls generalizing T with
  | nil => exact ⟨_, _, rfl⟩
  | cons a r ih =>
    obtain ⟨v, z, hW⟩ := ih (T := f a T)
    obtain ⟨v', z', ha⟩ := hf a T
    rw [List.foldl_cons, hW, ha]
    exact ⟨v, z, rfl⟩

theorem Team.vreg_setVpair (t : Team) {L n M m : Nat} (w : Dbl) (hn : n + 1 < 512) (hm : m < 512) :
    (t.setVpair L n w).vreg M m =
      if M = L ∧ m = n + 1 then w.extractLsb' 32 32 else if M = L ∧ m = n then w.extractLsb' 0 32 else t.vreg M m := by
  rw [Team.setVpair, Team.vreg_setV _ _ hn hm, Team.vreg_setV _ _ (by omega) hm]

/-- Each lane of a list writes a pair of its own: the others stay. -/
theorem Team.fold_setVpair (d : Nat → Nat) (g : Nat → Dbl) (ls : List Nat) (t : Team) (hn : ls.Nodup)
    (hd : ∀ L ∈ ls, d L + 1 < 512) (M m : Nat) (hm : m < 512) :
    (ls.foldl (fun t L => t.setVpair L (d L) (g L)) t).vreg M m =
      if M ∈ ls ∧ m = d M + 1 then (g M).extractLsb' 32 32 else if M ∈ ls ∧ m = d M then (g M).extractLsb' 0 32
      else t.vreg M m := by
  induction ls generalizing t with
  | nil => simp
  | cons a r ih =>
    obtain ⟨ha, hr⟩ := List.nodup_cons.mp hn
    rw [List.foldl_cons, ih _ hr fun L hL => hd L (List.mem_cons_of_mem _ hL),
      Team.vreg_setVpair _ _ (hd a List.mem_cons_self) hm]
    by_cases hMa : M = a
    · subst hMa
      simp [ha]
    · simp [hMa]

/-- Writes of vector registers by an issue that goes on keep the frame of such an instruction. -/
theorem vectorFrame_issuedBy {s : State} {iss : Issue} {W : Team} {dest : Nat → Nat → Prop} (hW : VectorsOnly (s.team iss.team) W)
    (hstay : ∀ L n, n < 512 → ¬ dest L n → W.vreg L n = (s.team iss.team).vreg L n) :
    VectorFrame s (s.setTeam iss.team (W.issuedBy iss { st := s })) iss dest := by
  refine ⟨?only, ?team, fun L => ?lane, fun L n _ hn hd => ?vreg⟩
  case only => rw [OnlyTeam, State.team_setTeam_self]
  case team =>
    obtain ⟨v, z, rfl⟩ := hW
    rw [State.team_setTeam_self, Team.issuedBy_eq]
    rfl
  case lane =>
    obtain ⟨v, z, rfl⟩ := hW
    rw [State.team_setTeam_self, Team.issuedBy_lane]
    rfl
  case vreg => rw [State.team_setTeam_self, Team.issuedBy_vreg, hstay L n hn hd]

/-- What a meaning is told of an issue, in the words of the statements. -/
theorem ctxOf_eq_seen (s : State) (iss : Issue) (i : Instr) : s.ctxOf iss i = seen s iss i := by
  rw [State.ctxOf, seen, actives_eq_activeLanes]
  rfl

/-- An instruction of the main set that is issued has the effect of its meaning. -/
theorem runInstr_of_issued {s : State} {iss : Issue} {i : Instr} (h : Issued s iss i) (body : Ctx → Effect) :
    runInstr i s body = .next (s.finish iss [] (body (seen s iss i))) := by
  rw [runInstr_clean i s body iss h.1 (passes_of_issued h), ctxOf_eq_seen]

/-- A register instruction that is issued: the lanes' writes in turn. -/
theorem laneInstr_of_issued {s : State} {iss : Issue} {i : Instr} (h : Issued s iss i) (f : Ctx → Nat → Team → Team) :
    laneInstr i s f = .next (s.setTeam iss.team
      (((actives s iss).foldl (fun t L => f (seen s iss i) L t) (s.team iss.team)).issuedBy iss { st := s })) := by
  rw [laneInstr_clean i s f iss h.1 (passes_of_issued h), ctxOf_eq_seen, actives_eq_activeLanes]

/-- The team once each Active lane's 32-bit destination holds its value. -/
def written32 (s : State) (iss : Issue) (i : Instr) (val : Nat → Word) : Team :=
  (actives s iss).foldl (fun t L => wr32 (s.team iss.team) L i.form (val L) t) (s.team iss.team)
/-- The same for pairs. -/
def written64 (s : State) (iss : Issue) (i : Instr) (val : Nat → Dbl) : Team :=
  (actives s iss).foldl (fun t L => wr64 (s.team iss.team) L i.form (val L) t) (s.team iss.team)

section
variable {s : State} {iss : Issue} {i : Instr} (h : Issued s iss i)
include h

theorem written32_vreg (hd : i.form.d.kind = .v) (val : Nat → Word) (M : Nat) {m : Nat} (hm : m < 512) :
    (written32 s iss i val).vreg M m =
      if Act s iss M ∧ m = destReg s iss i M then val M else (s.team iss.team).vreg M m :=
  Team.fold_setV (destReg s iss i) val _ _ (actives_nodup s iss)
    (fun _ hL => destReg_lt h hL (n := 0) (by rw [hd]; decide)) M m hm

theorem written64_vreg (hd : i.form.d.kind = .pair) (val : Nat → Dbl) (M : Nat) {m : Nat} (hm : m < 512) :
    (written64 s iss i val).vreg M m =
      if Act s iss M ∧ m = destReg s iss i M + 1 then (val M).extractLsb' 32 32
      else if Act s iss M ∧ m = destReg s iss i M then (val M).extractLsb' 0 32 else (s.team iss.team).vreg M m :=
  Team.fold_setVpair (destReg s iss i) val _ _ (actives_nodup s iss)
    (fun _ hL => destReg_lt h hL (n := 1) (by rw [hd]; decide)) M m hm

theorem written64_vpair (hd : i.form.d.kind = .pair) (val : Nat → Dbl) {M : Nat} (hM : Act s iss M) :
    (written64 s iss i val).vpair M (destReg s iss i M) = val M := by
  have hlt : destReg s iss i M + 1 < 512 := destReg_lt h hM (by rw [hd]; decide)
  rw [Team.vpair, written64_vreg h hd val M hlt, written64_vreg h hd val M (by omega), if_pos ⟨hM, rfl⟩, if_neg (by omega),
    if_pos ⟨hM, rfl⟩]
  exact BitVec.extractLsb'_append_extractLsb' (w := 32) (len := 32)

end

section
variable {i : Instr}

/-- An instruction that writes 32-bit destinations and goes on gives each Active lane the value written. -/
theorem gives32_of_written {ok : State → Issue → Nat → Word → Prop} {val : State → Issue → Nat → Word}
    (hd : i.form.d.kind = .v)
    (hx : ∀ s iss, Issued s iss i →
      exec i s = .next (s.setTeam iss.team ((written32 s iss i (val s iss)).issuedBy iss { st := s })))
    (hok : ∀ s iss L, Issued s iss i → Act s iss L → ok s iss L (val s iss L)) : Gives32 i ok := by
  intro s iss h
  refine ⟨_, hx s iss h, vectorFrame_issuedBy ?frame fun L n hn hnot => ?stay, fun L hL => ?value⟩
  case frame => exact VectorsOnly.foldl (fun _ _ => vectorsOnly_wr32 _ _ _ _ _) _
  case stay => rw [written32_vreg h hd _ _ hn, if_neg hnot]
  case value =>
    have hlt : destReg s iss i L < 512 := destReg_lt (n := 0) h hL (by rw [hd]; decide)
    rw [State.team_setTeam_self, Team.issuedBy_vreg, written32_vreg h hd _ _ hlt, if_pos ⟨hL, rfl⟩]
    exact hok s iss L h hL

/-- The same for pairs. -/
theorem gives64_of_written {ok : State → Issue → Nat → Dbl → Prop} {val : State → Issue → Nat → Dbl}
    (hd : i.form.d.kind = .pair)
    (hx : ∀ s iss, Issued s iss i →
      exec i s = .next (s.setTeam iss.team ((written64 s iss i (val s iss)).issuedBy iss { st := s })))
    (hok : ∀ s iss L, Issued s iss i → Act s iss L → ok s iss L (val s iss L)) : Gives64 i ok := by
  intro s iss h
  refine ⟨_, hx s iss h, vectorFrame_issuedBy ?frame fun L n hn hnot => ?stay, fun L hL => ?value⟩
  case frame => exact VectorsOnly.foldl (fun _ _ => vectorsOnly_wr64 _ _ _ _ _) _
  case stay => rw [written64_vreg h hd _ _ hn, if_neg (by tauto), if_neg (by tauto)]
  case value =>
    rw [State.team_setTeam_self, Team.issuedBy_vpair, written64_vpair h hd _ hL]
    exact hok s iss L h hL

/-- A register instruction gives each Active lane the value that its meaning computes for it. -/
theorem gives32_of_laneInstr {ok : State → Issue → Nat → Word → Prop} {val : State → Ctx → Nat → Word}
    (hx : ∀ s, exec i s = laneInstr i s fun c L t => wr32 c.team L c.form (val s c L) t) (hd : i.form.d.kind = .v)
    (hok : ∀ s iss L, Act s iss L → ok s iss L (val s (seen s iss i) L)) : Gives32 i ok :=
  gives32_of_written hd (fun s _ h => (hx s).trans (laneInstr_of_issued h _)) fun s iss L _ => hok s iss L

theorem gives64_of_laneInstr {ok : State → Issue → Nat → Dbl → Prop} {val : State → Ctx → Nat → Dbl}
    (hx : ∀ s, exec i s = laneInstr i s fun c L t => wr64 c.team L c.form (val s c L) t) (hd : i.form.d.kind = .pair)
    (hok : ∀ s iss L, Act s iss L → ok s iss L (val s (seen s iss i) L)) : Gives64 i ok :=
  gives64_of_written hd (fun s _ h => (hx s).trans (laneInstr_of_issued h _)) fun s iss L _ => hok s iss L

end

/-! ### Operations of two operands (07 R177) -/

/-- `i` is the 32-bit operation `g` of its immediate and operands A and B. -/
structure IsAlu32 (i : Instr) (lit : Option Word) (imm : BitVec 14) (g : BitVec 14 → Word → Word → Word) : Prop where
  exec_eq : ∀ s, exec i s = alu32 i lit (fun f => g f.imm) s
  dest : i.form.d.kind = .v
  imm_eq : i.form.imm = imm

/-- The same at 64 bits; `uns` says how LIT32 is widened. -/
structure IsAlu64 (i : Instr) (lit : Option Word) (uns : Bool) (imm : BitVec 14) (g : BitVec 14 → Dbl → Dbl → Dbl) : Prop where
  exec_eq : ∀ s, exec i s = alu64 i lit uns (fun f => g f.imm) s
  dest : i.form.d.kind = .pair
  imm_eq : i.form.imm = imm

/-- Both forms of an operation are `g`, which is `f`. -/
theorem alu32_of_isAlu32 {reg : L64 → Instr} {lit : X96 → Instr} {f g : BitVec 14 → Word → Word → Word}
    (hg : ∀ imm a b, g imm a b = f imm a b)
    (h : (∀ o, IsAlu32 (reg o) none o.imm g) ∧ ∀ o, IsAlu32 (lit o) (some o.lit) o.lo.imm g) : Alu32 reg lit f := by
  obtain ⟨hreg, hlit⟩ := h
  refine ⟨fun o => gives32_of_laneInstr (hreg o).exec_eq (hreg o).dest fun s iss L _ => ?reg,
    fun o => gives32_of_laneInstr (hlit o).exec_eq (hlit o).dest fun s iss L _ => ?lit⟩
  case reg => rw [← hg, ← (hreg o).imm_eq]; rfl
  case lit => rw [← hg, ← (hlit o).imm_eq]; rfl

theorem alu64_of_isAlu64 {reg : L64 → Instr} {lit : X96 → Instr} {uns : Bool} {f g : BitVec 14 → Dbl → Dbl → Dbl}
    (hg : ∀ imm a b, g imm a b = f imm a b)
    (h : (∀ o, IsAlu64 (reg o) none uns o.imm g) ∧ ∀ o, IsAlu64 (lit o) (some o.lit) uns o.lo.imm g) :
    Alu64 reg lit (fun w => if uns then zx w else sx w) f := by
  obtain ⟨hreg, hlit⟩ := h
  refine ⟨fun o => gives64_of_laneInstr (hreg o).exec_eq (hreg o).dest fun s iss L _ => ?reg,
    fun o => gives64_of_laneInstr (hlit o).exec_eq (hlit o).dest fun s iss L _ => ?lit⟩
  case reg => rw [← hg, ← (hreg o).imm_eq]; rfl
  case lit => rw [← hg, ← (hlit o).imm_eq]; rfl

end Sys2Proof.Machine
end

section
/-! PROOFS of the statements of integer arithmetic (O1 to O4): each operation of two operands computes what its rule says. -/
namespace Sys2Proof.Machine
open Sys2Proof.Claims

/-! ### Addition and subtraction (07 R184) -/

/-- ADD.S and SUB.S: the exact result, clamped to the signed range under SAT. -/
theorem addSub_signed {w : Nat} (sub : Bool) (imm : BitVec 14) (a b : BitVec w) :
    addSub sub true (indSAT imm) a b = .ofInt w (satIn imm (-2 ^ (w - 1)) (2 ^ (w - 1) - 1)
      (if sub then a.toInt - b.toInt else a.toInt + b.toInt)) := by
  simp only [addSub, asInt, clampInt, satIn, indSAT, if_true, Nat.cast_pow, Nat.cast_ofNat]
  rw [min_comm]

/-- ADD.N and SUB.N: the same in the unsigned range. -/
theorem addSub_unsigned {w : Nat} (sub : Bool) (imm : BitVec 14) (a b : BitVec w) :
    addSub sub false (indSAT imm) a b = .ofInt w (satIn imm 0 (2 ^ w - 1)
      (if sub then (a.toNat : Int) - b.toNat else a.toNat + b.toNat)) := by
  simp only [addSub, asInt, clampInt, satIn, indSAT, Bool.false_eq_true, if_false, Nat.cast_pow, Nat.cast_ofNat]
  rw [min_comm]

/-- Settles O1: every form is `addSub` of its operands, which is the exact result, clamped under SAT and narrowed. -/
theorem addAndSubResults : Obligations.AddAndSubResults := by
  unfold Obligations.AddAndSubResults
  refine ⟨alu32_of_isAlu32 (addSub_signed false) ?_, alu32_of_isAlu32 (addSub_unsigned false) ?_,
    alu32_of_isAlu32 (addSub_signed true) ?_, alu32_of_isAlu32 (addSub_unsigned true) ?_,
    alu64_of_isAlu64 (uns := false) (addSub_signed false) ?_, alu64_of_isAlu64 (uns := true) (addSub_unsigned false) ?_,
    alu64_of_isAlu64 (uns := false) (addSub_signed true) ?_, alu64_of_isAlu64 (uns := true) (addSub_unsigned true) ?_⟩
  all_goals exact ⟨fun _ => ⟨fun _ => rfl, rfl, rfl⟩, fun _ => ⟨fun _ => rfl, rfl, rfl⟩⟩

/-! ### Multiplication (07 R185) -/

/-- MUL takes the low bits of the exact product. -/
theorem mul_eq_ofNat {w : Nat} (a b : BitVec w) : a * b = .ofNat w (a.toNat * b.toNat) := by
  simp [BitVec.ofNat_mul]

theorem mulHi_signed (a b : Word) : mulHi true a b = .ofInt 32 (a.toInt * b.toInt / 2 ^ 32) := rfl
theorem mulHi_unsigned (a b : Word) : mulHi false a b = .ofNat 32 (a.toNat * b.toNat / 2 ^ 32) := by
  rw [← BitVec.ofInt_natCast]
  simp [mulHi, asInt]

/-- MAD takes bits 31:0 of the exact result. -/
theorem mul_add_eq_ofNat (a b c : Word) : a * b + c = .ofNat 32 (a.toNat * b.toNat + c.toNat) := by
  simp [BitVec.ofNat_add, BitVec.ofNat_mul]

/-- A 32-bit operation of three operands. -/
theorem gives32_of_alu32c {i : Instr} {lit : Option Word} {f : Word → Word → Word → Word}
    {ok : State → Issue → Nat → Word → Prop}
    (hx : ∀ s, exec i s = alu32c i lit f s) (hd : i.form.d.kind = .v)
    (hok : ∀ s iss L, Act s iss L →
      ok s iss L (f (op32 s iss i 1 L) (opB32 lit (s.team iss.team) L i.form) (op32 s iss i 3 L))) : Gives32 i ok :=
  gives32_of_laneInstr (val := fun _ c L => f (rd32 c.team L c.form 1) (opB32 lit c.team L c.form) (rd32 c.team L c.form 3))
    hx hd hok

/-- Settles O2: the products are those of bit vectors, whose value is the exact one narrowed. -/
theorem multiplyResults : Obligations.MultiplyResults := by
  unfold Obligations.MultiplyResults
  refine ⟨alu32_of_isAlu32 (fun _ => mul_eq_ofNat) ?_, alu32_of_isAlu32 (fun _ => mulHi_signed) ?_,
    alu32_of_isAlu32 (fun _ => mulHi_unsigned) ?_, alu64_of_isAlu64 (uns := false) (fun _ => mul_eq_ofNat) ?_,
    fun _ => gives32_of_alu32c (lit := none) (f := fun a b c => a * b + c) (fun _ => rfl) rfl fun _ _ _ _ => mul_add_eq_ofNat _ _ _,
    fun o => gives32_of_alu32c (lit := some o.lit) (f := fun a b c => a * b + c) (fun _ => rfl) rfl fun _ _ _ _ => mul_add_eq_ofNat _ _ _⟩
  all_goals exact ⟨fun _ => ⟨fun _ => rfl, rfl, rfl⟩, fun _ => ⟨fun _ => rfl, rfl, rfl⟩⟩

/-! ### Division (07 R186) -/

/-- The least value over -1 wraps in the exact quotient as well. -/
theorem sdiv_eq_ofInt {w : Nat} (a b : BitVec w) : a.sdiv b = .ofInt w (a.toInt.tdiv b.toInt) := by
  rw [← BitVec.toInt_inj, BitVec.toInt_sdiv, BitVec.toInt_ofInt]

theorem srem_eq_ofInt {w : Nat} (a b : BitVec w) : a.srem b = .ofInt w (a.toInt.tmod b.toInt) := by
  rw [← BitVec.toInt_srem, BitVec.ofInt_toInt]

theorem asInt_eq_zero {w : Nat} (signed : Bool) (a : BitVec w) : asInt signed a = 0 ↔ a = 0 := by
  cases signed
  · simp [asInt, ← BitVec.toNat_inj]
  · simp [asInt, ← BitVec.toInt_inj]

theorem ofInt_two_pow_sub_one (w : Nat) : BitVec.ofInt w ((2 ^ w : Nat) - 1) = .allOnes w := by
  have hpos : 1 ≤ 2 ^ w := Nat.one_le_two_pow
  rw [← Nat.cast_one, ← Nat.cast_sub hpos, BitVec.ofInt_natCast]
  exact BitVec.eq_of_toNat_eq (by simp)

theorem ofInt_neg_least (w : Nat) : BitVec.ofInt w (-((2 ^ (w - 1) : Nat) : Int)) = .ofInt w ((2 ^ (w - 1) : Nat) : Int) := by
  have hleast : BitVec.ofInt w ((2 ^ (w - 1) : Nat) : Int) = BitVec.intMin w := by
    rw [BitVec.ofInt_natCast]
    exact BitVec.eq_of_toNat_eq (by rw [BitVec.toNat_ofNat, BitVec.toNat_intMin])
  rw [BitVec.ofInt_neg, hleast, BitVec.neg_intMin]

/-- DIV: a divisor of 0 gives all ones, the least value over -1 itself. -/
theorem div_eq {w : Nat} (signed : Bool) (a b : BitVec w) : divRem false signed a b =
    if b = 0 then .allOnes w else .ofInt w ((asInt signed a).tdiv (asInt signed b)) := by
  by_cases hb : b = 0
  · simp only [divRem, (asInt_eq_zero signed b).mpr hb, if_pos hb, if_true, Bool.false_eq_true, if_false]
    exact ofInt_two_pow_sub_one w
  · simp only [divRem, mt (asInt_eq_zero signed b).mp hb, hb, Bool.false_eq_true, if_false]
    split
    · next h =>
      simp only [Bool.and_eq_true, beq_iff_eq] at h
      obtain ⟨⟨-, ha⟩, hm⟩ := h
      rw [ha, hm, ofInt_neg_least]
      simp
    · rfl

/-- REM: a divisor of 0 gives the dividend. -/
theorem rem_eq {w : Nat} (signed : Bool) (a b : BitVec w) : divRem true signed a b =
    if b = 0 then a else .ofInt w ((asInt signed a).tmod (asInt signed b)) := by
  by_cases hb : b = 0
  · simp only [divRem, (asInt_eq_zero signed b).mpr hb, if_pos hb, if_true]
    cases signed
    · simp [asInt]
    · exact BitVec.ofInt_toInt
  · simp only [divRem, mt (asInt_eq_zero signed b).mp hb, hb, if_true, if_false]
    split
    · next h =>
      simp only [Bool.and_eq_true, beq_iff_eq] at h
      obtain ⟨-, hm⟩ := h
      simp [hm]
    · rw [Int.tmod_def, mul_comm]

theorem div_signed {w : Nat} (a b : BitVec w) :
    divRem false true a b = if b = 0 then .allOnes w else a.sdiv b := by rw [div_eq, sdiv_eq_ofInt]; rfl
theorem div_unsigned {w : Nat} (a b : BitVec w) :
    divRem false false a b = if b = 0 then .allOnes w else a / b := by
  have hdiv : BitVec.ofInt w ((asInt false a).tdiv (asInt false b)) = a / b := by
    change BitVec.ofInt w ((a.toNat / b.toNat : Nat) : Int) = a / b
    rw [BitVec.ofInt_natCast, ← BitVec.toNat_udiv, BitVec.ofNat_toNat, BitVec.setWidth_eq]
  rw [div_eq, hdiv]
theorem rem_signed {w : Nat} (a b : BitVec w) : divRem true true a b = if b = 0 then a else a.srem b := by
  rw [rem_eq, srem_eq_ofInt]; rfl
theorem rem_unsigned {w : Nat} (a b : BitVec w) : divRem true false a b = if b = 0 then a else a % b := by
  have hmod : BitVec.ofInt w ((asInt false a).tmod (asInt false b)) = a % b := by
    change BitVec.ofInt w ((a.toNat % b.toNat : Nat) : Int) = a % b
    rw [BitVec.ofInt_natCast, ← BitVec.toNat_umod, BitVec.ofNat_toNat, BitVec.setWidth_eq]
  rw [rem_eq, hmod]

/-- Settles O3: every form is `divRem`, which is truncating division away from a divisor of 0. -/
theorem divisionResults : Obligations.DivisionResults := by
  unfold Obligations.DivisionResults
  refine ⟨alu32_of_isAlu32 (fun _ => div_signed) ?_, alu32_of_isAlu32 (fun _ => div_unsigned) ?_,
    alu32_of_isAlu32 (fun _ => rem_signed) ?_, alu32_of_isAlu32 (fun _ => rem_unsigned) ?_,
    alu64_of_isAlu64 (uns := false) (fun _ => div_signed) ?_, alu64_of_isAlu64 (uns := true) (fun _ => div_unsigned) ?_,
    alu64_of_isAlu64 (uns := false) (fun _ => rem_signed) ?_, alu64_of_isAlu64 (uns := true) (fun _ => rem_unsigned) ?_⟩
  all_goals exact ⟨fun _ => ⟨fun _ => rfl, rfl, rfl⟩, fun _ => ⟨fun _ => rfl, rfl, rfl⟩⟩

/-! ### The lesser and the greater operand, and shifts (07 R187, R188) -/

theorem asInt_injective {w : Nat} (signed : Bool) {a b : BitVec w} (h : asInt signed a = asInt signed b) : a = b := by
  cases signed
  · exact BitVec.toNat_inj.mp (Int.ofNat_inj.mp h)
  · exact BitVec.toInt_inj.mp h

theorem min_eq {w : Nat} (signed : Bool) (a b : BitVec w) :
    minMax false signed a b = if asInt signed a ≤ asInt signed b then a else b := by
  rcases lt_trichotomy (asInt signed a) (asInt signed b) with h | h | h
  · simp [minMax, h, h.le]
  · simp [asInt_injective signed h, minMax]
  · simp [minMax, not_lt_of_gt h, not_le_of_gt h]

theorem max_eq {w : Nat} (signed : Bool) (a b : BitVec w) :
    minMax true signed a b = if asInt signed a ≤ asInt signed b then b else a := by
  rcases lt_trichotomy (asInt signed a) (asInt signed b) with h | h | h
  · simp [minMax, h, h.le]
  · simp [asInt_injective signed h, minMax]
  · simp [minMax, not_lt_of_gt h, not_le_of_gt h]

theorem asInt_unsigned_le {w : Nat} (a b : BitVec w) : asInt false a ≤ asInt false b ↔ a ≤ b := by
  simp [asInt, BitVec.le_def]

theorem min_unsigned {w : Nat} (a b : BitVec w) : minMax false false a b = if a ≤ b then a else b := by
  simp only [min_eq, asInt_unsigned_le]
theorem max_unsigned {w : Nat} (a b : BitVec w) : minMax true false a b = if a ≤ b then b else a := by
  simp only [max_eq, asInt_unsigned_le]

theorem rot32_eq (a b : Word) : rot32 a b = (a <<< (b.toNat % 32)) ||| (a >>> (32 - b.toNat % 32)) := by
  rw [rot32, BitVec.rotateLeft_def, Nat.mod_mod]

/-- Settles O4: the bitwise operations and shifts are those of the meanings as they stand. -/
theorem logicAndShiftResults : Obligations.LogicAndShiftResults := by
  unfold Obligations.LogicAndShiftResults
  refine ⟨⟨alu32_of_isAlu32 (fun _ => min_eq true) ?_, alu32_of_isAlu32 (fun _ => min_unsigned) ?_,
    alu32_of_isAlu32 (fun _ => max_eq true) ?_, alu32_of_isAlu32 (fun _ => max_unsigned) ?_,
    alu64_of_isAlu64 (uns := false) (fun _ => min_eq true) ?_, alu64_of_isAlu64 (uns := true) (fun _ => min_unsigned) ?_,
    alu64_of_isAlu64 (uns := false) (fun _ => max_eq true) ?_, alu64_of_isAlu64 (uns := true) (fun _ => max_unsigned) ?_,
    alu32_of_isAlu32 (fun _ _ _ => rfl) ?_, alu32_of_isAlu32 (fun _ _ _ => rfl) ?_, alu32_of_isAlu32 (fun _ _ _ => rfl) ?_,
    alu32_of_isAlu32 (fun _ _ _ => rfl) ?_⟩,
    ⟨alu32_of_isAlu32 (fun _ _ _ => rfl) ?_, alu32_of_isAlu32 (fun _ _ _ => rfl) ?_, alu32_of_isAlu32 (fun _ _ _ => rfl) ?_,
    alu32_of_isAlu32 (fun _ => rot32_eq) ?_⟩⟩
  all_goals exact ⟨fun _ => ⟨fun _ => rfl, rfl, rfl⟩, fun _ => ⟨fun _ => rfl, rfl, rfl⟩⟩

end Sys2Proof.Machine
end

section
/-! PROOFS of the statements of fields, selects, addresses, immediates, moves and unary forms (O5 to O7). -/
namespace Sys2Proof.Machine
open Sys2Proof.Claims

/-! ### Fields (07 R189) -/

theorem hasField_iff (b : Word) : hasField b = true ↔ (b.extractLsb' 8 8).toNat ≠ 0 ∧ fieldPos b < 32 := by
  rw [hasField, Bool.and_eq_true, bne_iff_ne, decide_eq_true_eq]
  exact and_congr_left fun _ => not_congr (BitVec.toNat_inj (y := 0)).symm

theorem fieldOf_eq (b : Word) : fieldOf b = if hasField b then some (fieldPos b, fieldLen b) else none := by
  have hpos : natBits b.toNat 7 0 = fieldPos b := (BitVec.extractLsb'_toNat 0 8 b).symm
  have hlen : natBits b.toNat 15 8 = (b.extractLsb' 8 8).toNat := (BitVec.extractLsb'_toNat 8 8 b).symm
  have hnone : (decide ((b.extractLsb' 8 8).toNat = 0) || decide (32 ≤ fieldPos b)) = true ↔ ¬ hasField b = true := by
    rw [hasField_iff, Bool.or_eq_true, decide_eq_true_eq, decide_eq_true_eq]
    omega
  simp only [fieldOf, hpos, hlen, hnone, ite_not]
  rfl

/-- Where operand B gives a field, it is not empty and lies within the word. -/
theorem field_within {b : Word} (h : hasField b = true) : 0 < fieldLen b ∧ fieldPos b + fieldLen b ≤ 32 := by
  obtain ⟨hlen, hpos⟩ := (hasField_iff b).mp h
  rw [fieldLen]
  omega

/-- A field read as a signed number. -/
theorem toInt_eq_testBit {w : Nat} (x : BitVec w) :
    x.toInt = if x.toNat / 2 ^ (w - 1) % 2 = 1 then (x.toNat : Int) - (2 ^ w : Nat) else x.toNat := by
  have hmsb : x.msb = decide (x.toNat / 2 ^ (w - 1) % 2 = 1) := by
    rw [BitVec.msb_eq_getLsbD_last, BitVec.getLsbD, Nat.testBit_eq_decide_div_mod_eq]
  rw [BitVec.toInt_eq_msb_cond, hmsb]
  simp

/-- BFX takes the bits of the field and widens them, by zeros or by copies of the top bit. -/
theorem bfx_eq (signed : Bool) (a b : Word) : bfx signed a b = if hasField b then
    let x := a.extractLsb' (fieldPos b) (fieldLen b)
    if signed then x.signExtend 32 else x.setWidth 32 else 0 := by
  cases hb : hasField b with
  | false => simp [bfx, fieldOf_eq, hb]
  | true =>
    have hx : (a.extractLsb' (fieldPos b) (fieldLen b)).toNat = a.toNat / 2 ^ fieldPos b % 2 ^ fieldLen b := by
      rw [BitVec.extractLsb'_toNat, Nat.shiftRight_eq_div_pow]
    simp only [bfx, fieldOf_eq, hb, if_true, ← hx]
    cases signed with
    | false => simp only [Bool.false_and, Bool.false_eq_true, if_false, BitVec.ofNat_toNat]
    | true =>
      rw [if_pos rfl, BitVec.signExtend, toInt_eq_testBit]
      simp only [Bool.true_and, beq_iff_eq]
      split
      · rfl
      · rw [BitVec.ofInt_natCast]

/-- Shifting a field up to the top and down again, by zeros. -/
theorem shiftLeft_ushiftRight_eq_field (a : Word) {p l : Nat} (hl : 0 < l) (hp : p + l ≤ 32) :
    (a <<< (32 - p - l)) >>> (32 - l) = (a.extractLsb' p l).setWidth 32 := by
  refine BitVec.eq_of_getLsbD_eq fun i hi => ?_
  rw [BitVec.getLsbD_ushiftRight, BitVec.getLsbD_shiftLeft, BitVec.getLsbD_setWidth, BitVec.getLsbD_extractLsb']
  by_cases hil : i < l
  · have hsum : 32 - l + i - (32 - p - l) = p + i := by omega
    have hlt : 32 - l + i < 32 := by omega
    have hge : ¬ 32 - l + i < 32 - p - l := by omega
    simp [hi, hil, hsum, hlt, hge]
  · have hge : ¬ 32 - l + i < 32 := by omega
    simp [hil, hge]

/-- The same by copies of the top bit. -/
theorem shiftLeft_sshiftRight_eq_field (a : Word) {p l : Nat} (hl : 0 < l) (hp : p + l ≤ 32) :
    (a <<< (32 - p - l)).sshiftRight (32 - l) = (a.extractLsb' p l).signExtend 32 := by
  refine BitVec.eq_of_getLsbD_eq fun i hi => ?_
  rw [BitVec.getLsbD_sshiftRight, BitVec.getLsbD_signExtend, BitVec.msb_eq_getLsbD_last, BitVec.msb_eq_getLsbD_last]
  simp only [BitVec.getLsbD_shiftLeft, BitVec.getLsbD_extractLsb']
  by_cases hil : i < l
  · have hsum : 32 - l + i - (32 - p - l) = p + i := by omega
    have hlt : 32 - l + i < 32 := by omega
    have hge : ¬ 32 - l + i < 32 - p - l := by omega
    simp [hi, hil, hsum, hlt, hge]
  · have hge : ¬ 32 - l + i < 32 := by omega
    have htop : 31 - (32 - p - l) = p + (l - 1) := by omega
    have hbelow : ¬ 31 < 32 - p - l := by omega
    simp [hi, hil, hge, htop, hbelow, hl]

theorem bfx_unsigned (a b : Word) : bfx false a b =
    if hasField b then (a <<< (32 - fieldPos b - fieldLen b)) >>> (32 - fieldLen b) else 0 := by
  rw [bfx_eq]
  split
  · next h =>
    obtain ⟨hlen, hin⟩ := field_within h
    rw [shiftLeft_ushiftRight_eq_field a hlen hin]
    rfl
  · rfl

theorem bfx_signed (a b : Word) : bfx true a b =
    if hasField b then (a <<< (32 - fieldPos b - fieldLen b)).sshiftRight (32 - fieldLen b) else 0 := by
  rw [bfx_eq]
  split
  · next h =>
    obtain ⟨hlen, hin⟩ := field_within h
    rw [shiftLeft_sshiftRight_eq_field a hlen hin]
    rfl
  · rfl

/-- BFI, bit by bit: the field comes from the low bits of the third operand, the rest from the first. -/
theorem getLsbD_bfi (a b c : Word) {i : Nat} (hi : i < 32) : (bfi a b c).getLsbD i =
    if hasField b = true ∧ fieldPos b ≤ i ∧ i < fieldPos b + fieldLen b then c.getLsbD (i - fieldPos b) else a.getLsbD i := by
  cases hb : hasField b with
  | false => simp [bfi, fieldOf_eq, hb]
  | true =>
    have hmask : (BitVec.ofNat 32 ((2 ^ fieldLen b - 1) * 2 ^ fieldPos b)).getLsbD i =
        decide (fieldPos b ≤ i ∧ i < fieldPos b + fieldLen b) := by
      rw [BitVec.getLsbD_ofNat, Nat.testBit_mul_two_pow, Nat.testBit_two_pow_sub_one]
      by_cases hp : fieldPos b ≤ i
      · simp only [hi, hp, decide_true, Bool.true_and, true_and, decide_eq_decide]
        omega
      · simp [hp]
    simp only [bfi, fieldOf_eq, hb, if_true, true_and, BitVec.getLsbD_or, BitVec.getLsbD_and, BitVec.getLsbD_not, hmask,
      BitVec.getLsbD_shiftLeft, hi, decide_true, Bool.true_and]
    by_cases hin : fieldPos b ≤ i ∧ i < fieldPos b + fieldLen b
    · have hge : ¬ i < fieldPos b := by omega
      simp [hin, hge]
    · simp [hin]

/-- Settles O5: BFX takes the bits of the field and widens them, BFI replaces them. -/
theorem fieldResults : Obligations.FieldResults := by
  unfold Obligations.FieldResults
  refine ⟨alu32_of_isAlu32 (fun _ => bfx_unsigned) ?_, alu32_of_isAlu32 (fun _ => bfx_signed) ?_,
    fun _ => gives32_of_alu32c (lit := none) (f := bfi) (fun _ => rfl) rfl fun _ _ _ _ _ hi => getLsbD_bfi _ _ _ hi,
    fun o => gives32_of_alu32c (lit := some o.lit) (f := bfi) (fun _ => rfl) rfl fun _ _ _ _ _ hi => getLsbD_bfi _ _ _ hi⟩
  all_goals exact ⟨fun _ => ⟨fun _ => rfl, rfl, rfl⟩, fun _ => ⟨fun _ => rfl, rfl, rfl⟩⟩

/-! ### Selects, addresses and immediates (07 R180, R191 to R193) -/

theorem gives32_of_immInstr {i : Instr} {f : Form → Word → Word} {ok : State → Issue → Nat → Word → Prop}
    (hx : ∀ s, exec i s = immInstr i f s) (hd : i.form.d.kind = .v)
    (hok : ∀ s iss L, ok s iss L (f i.form (op32 s iss i 1 L))) : Gives32 i ok :=
  gives32_of_laneInstr (val := fun _ c L => f c.form (rd32 c.team L c.form 1)) hx hd fun s iss L _ => hok s iss L

theorem gives32_of_selInstr {i : Instr} {lit : Option Word} (hx : ∀ s, exec i s = selInstr i lit s) (hd : i.form.d.kind = .v) :
    Gives32 i fun s iss L w => w = if kbit s iss i.form.c.field.toNat L then op32 s iss i 1 L
      else opB32 lit (s.team iss.team) L i.form :=
  gives32_of_laneInstr (val := fun _ c L =>
    if c.team.kbit c.form.c.field.toNat L then rd32 c.team L c.form 1 else opB32 lit c.team L c.form) hx hd fun _ _ _ _ => rfl

theorem gives64_of_addaInstr {i : Instr} {lit : Option Word} (hx : ∀ s, exec i s = addaInstr i lit s) (hd : i.form.d.kind = .pair) :
    Gives64 i fun s iss L w => w = op64 s iss i 1 L + sx (opB32 lit (s.team iss.team) L i.form) :=
  gives64_of_laneInstr (val := fun _ c L => rd64 c.team L c.form 1 + (opB32 lit c.team L c.form).signExtend 64) hx hd
    fun _ _ _ _ => rfl

theorem gives64_of_shlaInstr {i : Instr} {lit : Option Word} (hx : ∀ s, exec i s = shlaInstr i lit s) (hd : i.form.d.kind = .pair) :
    Gives64 i fun s iss L w =>
      w = op64 s iss i 1 L + (zx (opB32 lit (s.team iss.team) L i.form) <<< i.form.c.field.toNat) :=
  gives64_of_laneInstr (val := fun _ c L =>
    rd64 c.team L c.form 1 + ((opB32 lit c.team L c.form).setWidth 64 <<< c.form.c.field.toNat)) hx hd fun _ _ _ _ => rfl

theorem toNat_imm (imm : BitVec 14) : (imm.setWidth 32).toNat = imm.toNat := BitVec.toNat_setWidth_of_le (by decide)

/-- Counts of 32 and more push everything out, for an immediate as well. -/
theorem shl32_imm (a : Word) (imm : BitVec 14) : shl32 a (imm.setWidth 32) = a <<< imm.toNat := by
  rw [shl32, toNat_imm]
  split
  · next h => exact (BitVec.shiftLeft_eq_zero h).symm
  · rfl

theorem shr32_imm (a : Word) (imm : BitVec 14) : shr32 a (imm.setWidth 32) = a >>> imm.toNat := by
  rw [shr32, toNat_imm]
  split
  · next h => exact (BitVec.ushiftRight_eq_zero h).symm
  · rfl

theorem sar32_imm (a : Word) (imm : BitVec 14) : sar32 a (imm.setWidth 32) = a.sshiftRight imm.toNat := by
  rw [sar32, toNat_imm]
  refine BitVec.eq_of_getLsbD_eq fun i hi => ?_
  rw [BitVec.getLsbD_sshiftRight, BitVec.getLsbD_sshiftRight, BitVec.msb_eq_getLsbD_last]
  by_cases hn : imm.toNat ≤ 31
  · rw [min_eq_left hn]
  · have hout : ¬ imm.toNat + i < 32 := by omega
    rw [min_eq_right (by omega), if_neg hout]
    split
    · next h => rw [show 31 + i = 32 - 1 by omega]
    · rfl

/-- Settles O6: each form by what its shape computes; immediate shifts by 32 and more agree with the bit vector's. -/
theorem selectAddressAndImmediateResults : Obligations.SelectAddressAndImmediateResults := by
  unfold Obligations.SelectAddressAndImmediateResults
  refine ⟨⟨fun _ => gives32_of_selInstr (lit := none) (fun _ => rfl) rfl,
    fun o => gives32_of_selInstr (lit := some o.lit) (fun _ => rfl) rfl,
    fun _ => gives64_of_addaInstr (lit := none) (fun _ => rfl) rfl,
    fun o => gives64_of_addaInstr (lit := some o.lit) (fun _ => rfl) rfl,
    fun _ => gives64_of_shlaInstr (lit := none) (fun _ => rfl) rfl,
    fun o => gives64_of_shlaInstr (lit := some o.lit) (fun _ => rfl) rfl, fun o => ?addai⟩, ?imm, ?shift, fun o => ?movi,
    fun o => ?lit, fun o => ?litB64⟩
  case addai =>
    exact gives64_of_laneInstr (val := fun _ c L => rd64 c.team L c.form 1 + immS64 c.form) (fun _ => rfl) rfl fun _ _ _ _ => rfl
  case imm =>
    simp only [List.forall_mem_cons, List.not_mem_nil, false_imp_iff, implies_true, and_true]
    refine ⟨fun _ => ?add, fun _ => ?and, fun _ => ?or, fun _ => ?xor⟩
    case add => exact gives32_of_immInstr (f := fun f a => a + immS32 f) (fun _ => rfl) rfl fun _ _ _ => rfl
    case and => exact gives32_of_immInstr (f := fun f a => a &&& immS32 f) (fun _ => rfl) rfl fun _ _ _ => rfl
    case or => exact gives32_of_immInstr (f := fun f a => a ||| immS32 f) (fun _ => rfl) rfl fun _ _ _ => rfl
    case xor => exact gives32_of_immInstr (f := fun f a => a ^^^ immS32 f) (fun _ => rfl) rfl fun _ _ _ => rfl
  case shift =>
    simp only [List.forall_mem_cons, List.not_mem_nil, false_imp_iff, implies_true, and_true]
    refine ⟨fun _ => ?shl, fun _ => ?shr, fun _ => ?sar⟩
    case shl => exact gives32_of_immInstr (f := fun f a => shl32 a (f.imm.setWidth 32)) (fun _ => rfl) rfl fun _ _ _ => shl32_imm _ _
    case shr => exact gives32_of_immInstr (f := fun f a => shr32 a (f.imm.setWidth 32)) (fun _ => rfl) rfl fun _ _ _ => shr32_imm _ _
    case sar => exact gives32_of_immInstr (f := fun f a => sar32 a (f.imm.setWidth 32)) (fun _ => rfl) rfl fun _ _ _ => sar32_imm _ _
  case movi => exact gives32_of_laneInstr (val := fun _ c _ => immS32 c.form) (fun _ => rfl) rfl fun _ _ _ _ => rfl
  case lit => exact gives32_of_laneInstr (val := fun _ _ _ => o.lit) (fun _ => rfl) rfl fun _ _ _ _ => rfl
  case litB64 => exact gives64_of_laneInstr (val := fun _ _ _ => o.lit.signExtend 64) (fun _ => rfl) rfl fun _ _ _ _ => rfl

/-! ### Moves and unary forms (07 R179, R194) -/

theorem gives32_of_unary {i : Instr} {f : Word → Word} {ok : State → Issue → Nat → Word → Prop}
    (hx : ∀ s, exec i s = unary i f s) (hd : i.form.d.kind = .v) (hok : ∀ s iss L, ok s iss L (f (op32 s iss i 1 L))) : Gives32 i ok :=
  gives32_of_laneInstr (val := fun _ c L => f (rd32 c.team L c.form 1)) hx hd fun s iss L _ => hok s iss L

theorem abs_eq_ofInt (a : Word) : (if a.msb then -a else a) = .ofInt 32 |a.toInt| := by
  by_cases h : a.toInt < 0
  · rw [if_pos (BitVec.msb_eq_toInt.trans (decide_eq_true h)), abs_of_neg h, BitVec.ofInt_neg, BitVec.ofInt_toInt]
  · rw [if_neg (by simpa [BitVec.msb_eq_toInt] using h), abs_of_nonneg (by omega), BitVec.ofInt_toInt]

theorem popCount_eq {w : Nat} (a : BitVec w) : popCount a = (List.range w).countP fun i => a.getLsbD i :=
  List.countP_eq_length_filter.symm

theorem clz32_eq (a : Word) : .ofNat 32 (clz32 a) = a.clz := by
  by_cases ha : a = 0
  · subst ha
    decide
  · have hlow := BitVec.two_pow_sub_clz_le_toNat_of_ne_zero (by decide) ha
    have hhigh := BitVec.toNat_lt_two_pow_sub_clz (x := a)
    have hclz : a.clz.toNat < 32 := BitVec.clz_lt_iff_ne_zero.mpr ha
    have hne : a.toNat ≠ 0 := fun h => ha (BitVec.toNat_inj.mp h)
    have hlog : Nat.log2 a.toNat = 31 - a.clz.toNat := by
      refine (Nat.log2_eq_iff hne).mpr ⟨hlow, ?_⟩
      rwa [show 31 - a.clz.toNat + 1 = 32 - a.clz.toNat by omega]
    rw [clz32, if_neg ha, hlog, show 31 - (31 - a.clz.toNat) = a.clz.toNat by omega, BitVec.ofNat_toNat, BitVec.setWidth_eq]

theorem ctz32_eq (a : Word) : .ofNat 32 (ctz32 a) = a.ctz := by
  by_cases ha : a = 0
  · have hrev : (0 : Word).reverse = 0 := BitVec.eq_of_getLsbD_eq fun i _ => by simp [BitVec.getLsbD_reverse, BitVec.getMsbD]
    have hzero : (0 : Word).ctz = .ofNat 32 32 := by
      rw [BitVec.ctz_eq_reverse_clz, hrev]
      exact BitVec.clz_eq_iff_eq_zero.mpr rfl
    subst ha
    rw [hzero]
    rfl
  · have hctz : a.ctz.toNat < 32 := BitVec.ctz_lt_iff_ne_zero.mpr ha
    have hfind : ((List.range 32).find? fun i => a.getLsbD i) = some a.ctz.toNat := by
      refine List.find?_range_eq_some.mpr ⟨BitVec.getLsbD_true_ctz_of_ne_zero ha, List.mem_range.mpr hctz, fun j hj => ?_⟩
      rw [BitVec.getLsbD_false_of_lt_ctz hj]
      rfl
    rw [ctz32, hfind, Option.getD_some, BitVec.ofNat_toNat, BitVec.setWidth_eq]

/-- Settles O7: each form by its operation; counts of bits and zeros agree with the library's. -/
theorem moveAndUnaryResults : Obligations.MoveAndUnaryResults := by
  unfold Obligations.MoveAndUnaryResults
  simp only [List.forall_mem_cons, List.not_mem_nil, false_imp_iff, implies_true, and_true]
  refine ⟨⟨fun _ => ?mov, fun _ => ?not, fun _ => ?neg, fun _ => ?abs, fun _ => ?popc, fun _ => ?clz, fun _ => ?ctz⟩,
    fun _ => ?brev, fun _ => ?movB64⟩
  case mov => exact gives32_of_unary (f := fun a => a) (fun _ => rfl) rfl fun _ _ _ => rfl
  case not => exact gives32_of_unary (f := fun a => ~~~a) (fun _ => rfl) rfl fun _ _ _ => rfl
  case neg => exact gives32_of_unary (f := fun a => -a) (fun _ => rfl) rfl fun _ _ _ => (BitVec.zero_sub _).symm
  case abs => exact gives32_of_unary (f := fun a => if a.msb then -a else a) (fun _ => rfl) rfl fun _ _ _ => abs_eq_ofInt _
  case popc =>
    exact gives32_of_unary (f := fun a => .ofNat 32 (popCount a)) (fun _ => rfl) rfl fun _ _ _ => congrArg _ (popCount_eq _)
  case clz => exact gives32_of_unary (f := fun a => .ofNat 32 (clz32 a)) (fun _ => rfl) rfl fun _ _ _ => clz32_eq _
  case ctz => exact gives32_of_unary (f := fun a => .ofNat 32 (ctz32 a)) (fun _ => rfl) rfl fun _ _ _ => ctz32_eq _
  case brev =>
    refine gives32_of_unary (f := fun a => a.reverse) (fun _ => rfl) rfl fun _ _ _ i hi => ?_
    rw [BitVec.getLsbD_reverse, BitVec.getMsbD, decide_eq_true hi, Bool.true_and]
  case movB64 => exact gives64_of_laneInstr (val := fun _ c L => rd64 c.team L c.form 1) (fun _ => rfl) rfl fun _ _ _ _ => rfl

end Sys2Proof.Machine
end

section
/-! PROOFS of the statements of compares (O8) and of reads and writes of registers other than vector registers (O9). -/
namespace Sys2Proof.Machine
open Sys2Proof.Claims

/-! ### Bits of masks (05 R142; 07 R190) -/

theorem getLsbD_setBit (w : Dbl) (L : Nat) (b : Bool) {M : Nat} (hM : M < 64) :
    (setBit w L b).getLsbD M = if M = L then b else w.getLsbD M := by
  have hset : ((1 <<< L : Nat) : Dbl).getLsbD M = decide (M = L) := by
    rw [BitVec.natCast_eq_ofNat, BitVec.getLsbD_ofNat, Nat.one_shiftLeft, Nat.testBit_two_pow, decide_eq_true hM, Bool.true_and]
    exact decide_eq_decide.mpr eq_comm
  have hone : ((1 : Dbl) <<< L).getLsbD M = decide (M = L) := by
    change (BitVec.twoPow 64 L).getLsbD M = _
    rw [BitVec.getLsbD_twoPow]
    by_cases h : M = L
    · simp [← h, hM]
    · simp [h, Ne.symm h]
  cases b with
  | false =>
    simp only [setBit, Bool.false_eq_true, if_false, BitVec.getLsbD_and, BitVec.getLsbD_not, hM, decide_true, hone, Bool.true_and]
    by_cases h : M = L <;> simp [h]
  | true =>
    simp only [setBit, if_true, BitVec.getLsbD_or, hset]
    by_cases h : M = L <;> simp [h]

/-- Lanes of a list write their bits of a mask: the other bits stay. -/
theorem Team.getLsbD_fold_setKbit (d : Nat) (f : Nat → Bool) (ls : List Nat) (t : Team) {M : Nat} (hM : M < 64) :
    ((ls.foldl (fun t L => t.setKbit d L (f L)) t).kreg d).getLsbD M = if M ∈ ls then f M else (t.kreg d).getLsbD M := by
  induction ls generalizing t with
  | nil => simp
  | cons a r ih =>
    rw [List.foldl_cons, ih, Team.setKbit, Team.kreg_setK_self, getLsbD_setBit _ _ _ hM]
    by_cases hr : M ∈ r
    · simp [hr]
    · by_cases ha : M = a
      · simp [ha]
      · simp [hr, ha]

theorem getLsbD_maskOf (ls : List Nat) {M : Nat} (hM : M < 64) : (maskOf ls).getLsbD M = decide (M ∈ ls) := by
  have hfold : ∀ w : Dbl, (ls.foldl (fun m L => setBit m L true) w).getLsbD M = (decide (M ∈ ls) || w.getLsbD M) := by
    induction ls with
    | nil => simp
    | cons a r ih =>
      intro w
      rw [List.foldl_cons, ih, getLsbD_setBit _ _ _ hM]
      by_cases ha : M = a <;> simp [ha]
  rw [maskOf, hfold]
  simp

/-! ### Writes of masks (08 R213, R216) -/

/-- The team `W` differs from `T` in masks only. -/
def MasksOnly (T W : Team) : Prop := ∃ k, W = { T with k := k }

theorem masksOnly_setK (T : Team) (n : Nat) (w : Dbl) : MasksOnly T (T.setK n w) := ⟨_, rfl⟩

theorem masksOnly_fold_setKbit (d : Nat) (f : Nat → Bool) (ls : List Nat) (T : Team) :
    MasksOnly T (ls.foldl (fun t L => t.setKbit d L (f L)) T) := by
  have h := Team.fold_other (fun u : Team => { u with k := T.k }) (fun L (t : Team) => t.setKbit d L (f L)) (fun _ _ => rfl) ls T
  exact ⟨_, congrArg (fun u : Team => { u with k := (ls.foldl (fun (t : Team) L => t.setKbit d L (f L)) T).k }) h⟩

/-- Writes of masks by an issue that goes on keep the frame of such an instruction. -/
theorem maskFrame_issuedBy {s : State} {iss : Issue} {W : Team} {dest : Nat → Prop} (hW : MasksOnly (s.team iss.team) W)
    (hstay : ∀ n, ¬ dest n → W.kreg n = (s.team iss.team).kreg n) :
    MaskFrame s (s.setTeam iss.team (W.issuedBy iss { st := s })) iss dest := by
  refine ⟨?only, ?team, fun L => ?lane, fun n hn => ?kreg⟩
  case only => rw [OnlyTeam, State.team_setTeam_self]
  case team =>
    obtain ⟨k, rfl⟩ := hW
    rw [State.team_setTeam_self, Team.issuedBy_eq]
    rfl
  case lane =>
    obtain ⟨k, rfl⟩ := hW
    rw [State.team_setTeam_self, Team.issuedBy_lane]
    rfl
  case kreg => rw [State.team_setTeam_self, Team.issuedBy_kreg, hstay n hn]

/-- An issue that writes its team and then runs the release check of one mask. -/
theorem State.finish_mask (s : State) (iss : Issue) (T : Team) (d : Nat) :
    s.finish iss [] { st := s.setTeam iss.team T, masks := [d] } =
      (s.setTeam iss.team (T.issuedBy iss { st := s })).checkMask iss.team d := by
  rw [State.finish_clean _ _ _ rfl rfl]
  simp only [State.checkMasks, List.foldl_cons, List.foldl_nil, Bool.false_eq_true, if_false, State.team_setTeam_self,
    State.setTeam_setTeam]
  rfl

/-- A comparison writes its condition to the bits of Active lanes. -/
theorem givesMask_of_cmpInstr {i : Instr} {d : Nat} {f : Ctx → Nat → Bool} {bit : State → Issue → Nat → Bool}
    (hx : ∀ s, exec i s = cmpInstr i s f) (hd : i.form.d.field.toNat = d)
    (hbit : ∀ s iss L, bit s iss L = if Act s iss L then f (seen s iss i) L else kbit s iss d L) : GivesMask i d bit := by
  subst hd
  intro s iss h
  refine ⟨_, ((hx s).trans (runInstr_of_issued h _)).trans (congrArg Host.Outcome.next (State.finish_mask s iss _ _)),
    maskFrame_issuedBy (masksOnly_fold_setKbit _ (f (seen s iss i)) _ _) fun n hn => ?stay, fun L hL => ?bit⟩
  case stay =>
    exact Team.fold_other (fun u => u.kreg n) (fun L (t : Team) => t.setKbit _ L (f (seen s iss i) L))
      (fun L t => (Team.kreg_setK _ _ _ _).trans (if_neg hn)) _ _
  case bit =>
    rw [State.team_setTeam_self, Team.issuedBy_kreg, hbit]
    exact Team.getLsbD_fold_setKbit _ (f (seen s iss i)) _ _ hL

/-! ### Compares (07 R190, R193) -/

theorem compare_signed {w : Nat} (c : Nat) (a b : BitVec w) : compare true c a b = cond c (a == b) (a.slt b) := rfl
theorem compare_unsigned {w : Nat} (c : Nat) (a b : BitVec w) : compare false c a b = cond c (a == b) (a.ult b) := by
  simp only [compare, asInt, Bool.false_eq_true, if_false, Int.ofNat_lt]
  rfl

/-- Settles O8: every form is a `cmpInstr`; the condition that its code names is `cond`'s. -/
theorem compareResults : Obligations.CompareResults := by
  unfold Obligations.CompareResults
  intro cc gives
  have hcc : ∀ c eq lt, cc c eq lt = cond c.toNat eq lt := by
    intro c eq lt
    simp only [cc, cond]
    split <;> simp_all
  have hgives : ∀ {i : Instr} {d c : BitVec 9} {eq lt : State → Issue → Nat → Bool} {f : Ctx → Nat → Bool},
      (∀ s, exec i s = cmpInstr i s f) → i.form.d.field = d →
      (∀ s iss L, f (seen s iss i) L = cond c.toNat (eq s iss L) (lt s iss L)) → gives i d c eq lt := by
    intro i d c eq lt f hx hd hf
    refine givesMask_of_cmpInstr hx (congrArg BitVec.toNat hd) fun s iss L => ?_
    rw [hcc, hf]
  clear_value gives
  refine ⟨fun _ => ?s32, fun _ => ?n32, fun _ => ?s64, fun _ => ?n64, fun _ => ?s32x, fun _ => ?n32x, fun _ => ?s64x,
    fun _ => ?n64x, fun _ => ?is32, fun _ => ?in32⟩
  case s32 | s64 | s32x | s64x | is32 => exact hgives (fun _ => rfl) rfl fun _ _ _ => compare_signed _ _ _
  case n32 | n64 | n32x | n64x | in32 => exact hgives (fun _ => rfl) rfl fun _ _ _ => compare_unsigned _ _ _

end Sys2Proof.Machine
end

section
/-! PROOFS of the statement of reads and writes of index, team, mask and system registers (O9). -/
namespace Sys2Proof.Machine
open Sys2Proof.Claims

/-! ### Reads of system registers (05 R143; 12 R309; 17 R382) -/

/-- The numbers of system registers, in the order of the statement's table. -/
def sysNumbers : List Nat :=
  [0x000, 0x001, 0x002, 0x003, 0x004, 0x005, 0x006, 0x007, 0x008, 0x009, 0x00A, 0x010, 0x012, 0x013, 0x018, 0x01C, 0x01D, 0x01E,
   0x020, 0x100, 0x102, 0x104, 0x105, 0x106, 0x108, 0x10A] ++ (List.range 20).map fun e => 0x140 + e

theorem sysRead_event (s : State) (tn L : Nat) {e : Nat} (he : e < 20) :
    s.sysRead tn L (0x140 + e) = (s.block (s.team tn).block).events.get 0 e := by
  have hlast : 0x140 + e ≤ 0x153 := by omega
  simp (disch := omega) only [State.sysRead, if_neg]
  simp [hlast]

/-- The statement's table holds what the model reads. -/
theorem sysTable_eq (s : State) (iss : Issue) (L : Nat) :
    sysTable s iss L = sysNumbers.map fun n => (n, .ofNat 64 (s.sysRead iss.team L n)) := by
  rw [sysTable, sysNumbers, List.map_append, List.map_map]
  refine congrArg₂ (· ++ ·) ?fixed (List.map_congr_left fun e he => ?event)
  case event =>
    rw [Function.comp_apply, sysRead_event s iss.team L (List.mem_range.mp he)]
  case fixed =>
    have dbl : ∀ x : Dbl, x = .ofNat 64 x.toNat := fun x => by rw [BitVec.ofNat_toNat, BitVec.setWidth_eq]
    have narrow : ∀ {w : Nat} (x : BitVec w), x.setWidth 64 = .ofNat 64 x.toNat := fun x => (BitVec.ofNat_toNat 64 x).symm
    simp only [List.map_cons, List.map_nil, List.cons.injEq, Prod.mk.injEq, true_and, and_true]
    exact ⟨rfl, rfl, rfl, rfl, rfl, (apply_ite (BitVec.ofNat 64) _ _ _).symm, narrow _, rfl, narrow _, narrow _, narrow _, dbl _,
      rfl, rfl, dbl _, narrow _, narrow _, dbl _, rfl, dbl _, dbl _, narrow _, narrow _, dbl _, dbl _, dbl _⟩

theorem mem_sysNumbers {n : Nat} (h : (sysSize n).isSome) : n ∈ sysNumbers := by
  unfold sysSize at h
  split at h
  · next hm => fin_cases hm <;> decide
  · split at h
    · next hm => fin_cases hm <;> decide
    · split at h
      · next hm => exact List.mem_append_right _ (List.mem_map.mpr ⟨n - 0x140, List.mem_range.mpr (by omega), by omega⟩)
      · contradiction

theorem lookup_sysTable (s : State) (iss : Issue) (L : Nat) {n : Nat} (h : (sysSize n).isSome) :
    (sysTable s iss L).lookup n = some (.ofNat 64 (s.sysRead iss.team L n)) := by
  rw [sysTable_eq, List.lookup_graph _ (mem_sysNumbers h)]

/-- SREAD of a register of 4 bytes writes a vector register. -/
theorem gives32_sread {o : S32} (h4 : sysSize o.a.toNat = some 4) :
    Gives32 (.sread o) fun s iss L w => ((sysTable s iss L).lookup o.a.toNat).map (·.setWidth 32) = some w := by
  have hsize : ¬ sysSize o.a.toNat = some 8 := by rw [h4]; decide
  refine gives32_of_written (val := fun s iss L => .ofNat 32 (s.sysRead iss.team L o.a.toNat)) (if_neg hsize)
    (fun s iss h => (laneInstr_of_issued h _).trans ?writes) fun s iss L _ _ => ?value
  case writes =>
    exact congrArg (fun f => Host.Outcome.next (s.setTeam iss.team
      (((actives s iss).foldl f (s.team iss.team)).issuedBy iss { st := s }))) (funext₂ fun _ _ => if_neg hsize)
  case value =>
    rw [lookup_sysTable s iss L (by rw [h4]; rfl), Option.map_some, BitVec.setWidth_ofNat_of_le (by decide)]

/-- SREAD of a register of 8 bytes writes a pair. -/
theorem gives64_sread {o : S32} (h8 : sysSize o.a.toNat = some 8) :
    Gives64 (.sread o) fun s iss L w => (sysTable s iss L).lookup o.a.toNat = some w := by
  refine gives64_of_written (val := fun s iss L => .ofNat 64 (s.sysRead iss.team L o.a.toNat)) (if_pos h8)
    (fun s iss h => (laneInstr_of_issued h _).trans ?writes) fun s iss L _ _ => lookup_sysTable s iss L (by rw [h8]; rfl)
  case writes =>
    exact congrArg (fun f => Host.Outcome.next (s.setTeam iss.team
      (((actives s iss).foldl f (s.team iss.team)).issuedBy iss { st := s }))) (funext₂ fun _ _ => if_pos h8)

/-! ### Writes of index, team and system registers (07 R179, R181, R182) -/

/-- Each lane of a list writes one index register: the others stay. -/
theorem Team.fold_setX (d : Nat) (f : Nat → Word) (ls : List Nat) (t : Team) (hd : d < 4) (M : Nat) {n : Nat} (hn : n < 4) :
    (ls.foldl (fun t L => t.setX L d (f L)) t).xreg M n = if M ∈ ls ∧ n = d then f M else t.xreg M n := by
  induction ls generalizing t with
  | nil => simp
  | cons a r ih =>
    rw [List.foldl_cons, ih]
    by_cases hM : M = a ∧ n = d
    · obtain ⟨rfl, rfl⟩ := hM
      simp
    · rw [Team.xreg_setX_ne t (f a) hd hn (by tauto)]
      by_cases hnd : n = d
      · have hMa : M ≠ a := by tauto
        simp [hnd, hMa]
      · simp [hnd]

/-- An instruction that acts once for its team writes what the lowest Active lane gives, or nothing. -/
theorem State.finish_teamEffect (s : State) (iss : Issue) (i : Instr) (g : Nat → Team) :
    s.finish iss [] (teamEffect s (seen s iss i) fun m => { st := s.setTeam iss.team (g m) }) =
      s.setTeam iss.team (((actives s iss).head?.elim (s.team iss.team) g).issuedBy iss { st := s }) := by
  simp only [teamEffect, seen]
  cases actives s iss with
  | nil =>
    rw [State.finish_clean _ _ _ rfl rfl]
    rfl
  | cons m r => exact State.finish_setTeam s s iss (g m)

/-- An issue that changes Active lanes and then goes on. -/
theorem teamFrame_mapLanes (s : State) (iss : Issue) (f : Nat → Lane → Lane) :
    TeamFrame s (s.setTeam iss.team (((s.team iss.team).mapLanes (actives s iss) f).issuedBy iss { st := s })) iss id
      fun L l => goneOn iss (if Act s iss L then f L l else l) := by
  refine ⟨?only, ?bare, ?insns, fun L => ?lane⟩
  case only => rw [OnlyTeam, State.team_setTeam_self]
  case bare => rw [State.team_setTeam_self, Team.issuedBy_eq, Team.mapLanes_eq]
  case insns =>
    rw [State.team_setTeam_self, Team.issuedBy_eq, Team.mapLanes_eq]
    rfl
  case lane =>
    rw [State.team_setTeam_self, Team.issuedBy_lane, Team.mapLanes_lane _ _ _ (actives_nodup s iss), Lane.after_of_unnamed]
    by_cases hL : L < 64 ∧ L ∈ iss.group
    · rw [if_pos hL, if_pos hL]
    · have hidle : L ∉ actives s iss := by
        intro hact
        simp only [actives, List.mem_filter, List.mem_range, Bool.and_eq_true, decide_eq_true_eq] at hact
        exact hL ⟨hact.1, hact.2.1⟩
      rw [if_neg hL, if_neg hL, if_neg hidle]

/-- A write of system registers of Active lanes. -/
theorem State.finish_lanesEffect (s : State) (iss : Issue) (i : Instr) (f : Nat → Lane → Lane) :
    s.finish iss [] (teamEffect s (seen s iss i) fun _ =>
        { st := s.setTeam iss.team ((s.team iss.team).mapLanes (actives s iss) f) }) =
      s.setTeam iss.team (((s.team iss.team).mapLanes (actives s iss) f).issuedBy iss { st := s }) := by
  have helim : (actives s iss).head?.elim (s.team iss.team) (fun _ => (s.team iss.team).mapLanes (actives s iss) f) =
      (s.team iss.team).mapLanes (actives s iss) f := by
    cases actives s iss <;> rfl
  rw [State.finish_teamEffect, helim]

/-- The issuing team once FAIR holds the value of lane `m`. -/
def fairWritten (s : State) (iss : Issue) (o : S32) (m : Nat) : Team :=
  { s.team iss.team with fair := (op32 s iss (.swrite o) 1 m).setWidth 16 }
/-- Lane `L` once TPC holds its value, with the two low bits 0 (05 R144). -/
def tpcWritten (s : State) (iss : Issue) (o : S32) (L : Nat) (l : Lane) : Lane :=
  { l with tpc := op64 s iss (.swrite o) 1 L &&& ~~~(3 : Dbl) }
/-- Lane `L` once TSTATUS holds its value. -/
def tstatusWritten (s : State) (iss : Issue) (o : S32) (L : Nat) (l : Lane) : Lane :=
  { l with tstatus := op32 s iss (.swrite o) 1 L }
/-- The issuing team after SWRITE, by the register that it names. -/
def swritten (s : State) (iss : Issue) (o : S32) (m : Nat) : Team :=
  if o.d.toNat = 0x01D then fairWritten s iss o m
  else if o.d.toNat = 0x100 then (s.team iss.team).mapLanes (actives s iss) (tpcWritten s iss o)
  else (s.team iss.team).mapLanes (actives s iss) (tstatusWritten s iss o)

section
variable {s : State} {iss : Issue} {o : S32} (h : Issued s iss (.swrite o))
include h

theorem execSwrite_of_issued : exec (.swrite o) s = .next (s.finish iss [] (teamEffect s (seen s iss (.swrite o)) fun m =>
    { st := s.setTeam iss.team (swritten s iss o m) })) := runInstr_of_issued h _

theorem execSwrite_fair (hd : o.d.toNat = 0x01D) : exec (.swrite o) s = .next
    (s.setTeam iss.team (((actives s iss).head?.elim (s.team iss.team) (fairWritten s iss o)).issuedBy iss { st := s })) := by
  have hw : swritten s iss o = fairWritten s iss o := funext fun _ => if_pos hd
  rw [execSwrite_of_issued h, hw, State.finish_teamEffect]

theorem execSwrite_tpc (hd : o.d.toNat = 0x100) : exec (.swrite o) s = .next (s.setTeam iss.team
    (((s.team iss.team).mapLanes (actives s iss) (tpcWritten s iss o)).issuedBy iss { st := s })) := by
  have hw : swritten s iss o = fun _ => (s.team iss.team).mapLanes (actives s iss) (tpcWritten s iss o) :=
    funext fun _ => (if_neg (by omega)).trans (if_pos hd)
  rw [execSwrite_of_issued h, hw, State.finish_lanesEffect]

theorem execSwrite_tstatus (hd : o.d.toNat = 0x104) : exec (.swrite o) s = .next (s.setTeam iss.team
    (((s.team iss.team).mapLanes (actives s iss) (tstatusWritten s iss o)).issuedBy iss { st := s })) := by
  have hw : swritten s iss o = fun _ => (s.team iss.team).mapLanes (actives s iss) (tstatusWritten s iss o) :=
    funext fun _ => (if_neg (by omega)).trans (if_neg (by omega))
  rw [execSwrite_of_issued h, hw, State.finish_lanesEffect]

end

/-! ### The statement -/

/-- Settles O9: reads by the value that each meaning takes, SREAD's by the table of `lookup_sysTable`; writes by the frame of an issue
that goes on, with the lowest Active lane's value for the team's registers. -/
theorem registerReadsAndWrites : Obligations.RegisterReadsAndWrites := by
  unfold Obligations.RegisterReadsAndWrites
  refine ⟨⟨fun _ => ?xget, fun _ => ?wget, fun _ => ?kpop, fun _ => ?kget, fun _ => gives32_sread, fun _ => gives64_sread⟩,
    fun o s iss h => ?xset, fun o s iss h => ?wset, fun o s iss h hd => ?fair,
    fun o s iss h hd => ⟨_, execSwrite_tpc h hd, teamFrame_mapLanes s iss _⟩,
    fun o s iss h hd => ⟨_, execSwrite_tstatus h hd, teamFrame_mapLanes s iss _⟩⟩
  case xget =>
    exact gives32_of_laneInstr (val := fun _ c L => c.team.xreg L c.form.a.field.toNat) (fun _ => rfl) rfl fun _ _ _ _ => rfl
  case wget =>
    exact gives32_of_laneInstr (val := fun _ c _ => c.team.wreg c.form.a.field.toNat) (fun _ => rfl) rfl fun _ _ _ _ => rfl
  case kpop =>
    exact gives32_of_laneInstr (val := fun _ c _ => .ofNat 32 (popCount (maskA c))) (fun _ => rfl) rfl
      fun _ _ _ _ => congrArg _ (popCount_eq _)
  case kget =>
    exact gives32_of_laneInstr (val := fun _ c L => if c.team.kbit c.form.a.field.toNat L then 1 else 0) (fun _ => rfl) rfl
      fun _ _ _ _ => rfl
  case xset =>
    refine ⟨_, laneInstr_of_issued h _, teamFrame_issuedBy ?bare ?insns fun L => ?lane, fun L n _ hn hd => ?value⟩
    case bare =>
      exact Team.fold_other (fun u => { u with lanes := [], insns := 0, service := [], x := [] })
        (fun L (t : Team) => t.setX L o.d.toNat (op32 s iss (.xset o) 1 L)) (fun _ _ => rfl) _ _
    case insns =>
      exact Team.fold_other (fun u => u.insns) (fun L (t : Team) => t.setX L o.d.toNat (op32 s iss (.xset o) 1 L))
        (fun _ _ => rfl) _ _
    case lane =>
      exact Team.fold_other (fun u => u.lane L) (fun L (t : Team) => t.setX L o.d.toNat (op32 s iss (.xset o) 1 L))
        (fun _ _ => rfl) _ _
    case value =>
      rw [State.team_setTeam_self, Team.issuedBy_xreg]
      exact Team.fold_setX _ (op32 s iss (.xset o) 1) _ _ hd L hn
  case wset =>
    refine ⟨_, (runInstr_of_issued h _).trans (congrArg _ (State.finish_teamEffect s iss (.wset o) fun m =>
      (s.team iss.team).setW o.d.toNat (op32 s iss (.wset o) 1 m))), ?_⟩
    rw [State.team_setTeam_self]
    cases actives s iss with
    | nil => exact ⟨teamFrame_issuedBy rfl rfl fun _ => rfl, fun n => Team.issuedBy_wreg _ _ _ _⟩
    | cons m r =>
      exact ⟨teamFrame_issuedBy rfl rfl fun _ => rfl, fun n => (Team.issuedBy_wreg _ _ _ _).trans (Team.wreg_setW _ _ _ _)⟩
  case fair =>
    refine ⟨_, execSwrite_fair h hd, ?_⟩
    rw [State.team_setTeam_self]
    cases actives s iss with
    | nil => exact ⟨teamFrame_issuedBy rfl rfl fun _ => rfl, by rw [Team.issuedBy_eq]; rfl⟩
    | cons m r => exact ⟨teamFrame_issuedBy rfl rfl fun _ => rfl, by rw [Team.issuedBy_eq]; rfl⟩

end Sys2Proof.Machine
end

section
/-! PROOFS of the statements of cross-lane instructions (O10, O11): shuffles and broadcasts by the lane that each Active lane reads, votes,
matches and steps of reductions and scans by the Active lanes in ascending order. -/
namespace Sys2Proof.Machine
open Sys2Proof.Claims

/-! ### Shuffles (07 R196, R197) -/

/-- A SHFL gives each Active lane the operand of its source, or its own where the source is not Active. -/
theorem gives32_of_shfl {i : Instr} {k : Shfl} {src : State → Issue → Nat → Nat} (hx : ∀ s, exec i s = shfl i k s)
    (hd : i.form.d.kind = .v)
    (hsrc : ∀ s iss L, src s iss L = shflSource k (shflSeg i.form.c.field.toNat) L (op32 s iss i 2 L).toNat) :
    Gives32 i fun s iss L w => w = if Act s iss (src s iss L) then op32 s iss i 1 (src s iss L) else op32 s iss i 1 L := by
  refine gives32_of_laneInstr (val := fun _ c L =>
    let j := shflSource k (shflSeg c.form.c.field.toNat) L (rd32 c.team L c.form 2).toNat
    rd32 c.team (if c.act.contains j then j else L) c.form 1) hx hd fun s iss L _ => ?_
  simp only [List.contains_iff_mem, hsrc]
  exact apply_ite (op32 s iss i 1) _ _ _

theorem shflSeg_toNat (c : BitVec 9) : shflSeg c.toNat = if c = 0 then 64 else min (2 ^ c.toNat) 64 := by
  simp only [shflSeg, ← BitVec.toNat_inj (y := 0)]
  rfl

/-- What BCAST gives where `m` is the lowest Active lane: the operand of the lane that `m` names, or of `m` itself. -/
def bcastValue (s : State) (iss : Issue) (o : L64) (m : Nat) : Word :=
  let j := (op32 s iss (.bcast o) 2 m).toNat % 64
  op32 s iss (.bcast o) 1 (if (actives s iss).contains j then j else m)

/-- BCAST gives every Active lane the same value. -/
theorem execBcast_of_issued {s : State} {iss : Issue} {o : L64} (h : Issued s iss (.bcast o)) :
    exec (.bcast o) s = .next (s.setTeam iss.team ((written32 s iss (.bcast o) fun _ =>
      (actives s iss).head?.elim 0 (bcastValue s iss o)).issuedBy iss { st := s })) := by
  have helim : (actives s iss).head?.elim (s.team iss.team) (fun m => written32 s iss (.bcast o) fun _ => bcastValue s iss o m) =
      written32 s iss (.bcast o) fun _ => (actives s iss).head?.elim 0 (bcastValue s iss o) := by
    unfold written32
    cases actives s iss <;> rfl
  rw [← helim]
  exact (runInstr_of_issued h _).trans (congrArg _ (State.finish_teamEffect s iss (.bcast o) fun m =>
    written32 s iss (.bcast o) fun _ => bcastValue s iss o m))

/-- Settles O10: the four SHFL forms differ in the source lane alone; BCAST's is the lowest Active lane's. -/
theorem shuffleResults : Obligations.ShuffleResults := by
  unfold Obligations.ShuffleResults
  intro from_ seg n
  have hseg : ∀ o, seg o = shflSeg o.c.toNat := fun o => (shflSeg_toNat o.c).symm
  refine ⟨fun o => ?idx, fun o => ?up, fun o => ?down, fun o => ?xor, fun o => ?bcast⟩
  case idx => exact gives32_of_shfl (k := .idx) (fun _ => rfl) rfl fun _ _ _ => by rw [hseg]; rfl
  case up => exact gives32_of_shfl (k := .up) (fun _ => rfl) rfl fun _ _ _ => by rw [hseg]; rfl
  case down => exact gives32_of_shfl (k := .down) (fun _ => rfl) rfl fun _ _ _ => by rw [hseg]; rfl
  case xor => exact gives32_of_shfl (k := .xor) (fun _ => rfl) rfl fun _ _ _ => by rw [hseg]; rfl
  case bcast =>
    refine gives32_of_written (val := fun s iss _ => (actives s iss).head?.elim 0 (bcastValue s iss o)) rfl
      (fun _ _ => execBcast_of_issued) fun s iss _ _ _ m hm => ?_
    rw [hm, Option.elim_some, bcastValue]
    simp only [List.contains_iff_mem]
    exact apply_ite (op32 s iss (.bcast o) 1) _ _ _

/-! ### Votes and matches (07 R198, R199) -/

theorem teamEffect_of_idle {s : State} {c : Ctx} (h : c.act = []) (f : Nat → Effect) : teamEffect s c f = { st := s } := by
  rw [teamEffect, h]

theorem teamEffect_of_lowest {s : State} {c : Ctx} {m : Nat} {r : List Nat} (h : c.act = m :: r) (f : Nat → Effect) :
    teamEffect s c f = f m := by
  rw [teamEffect, h]

/-- An instruction of whole masks writes its mask where a lane is Active, and nothing otherwise. -/
theorem givesWholeMask_of_wholeMask {i : Instr} {d : Nat} {val : Ctx → Dbl} {bit : State → Issue → Nat → Bool}
    (hx : ∀ s, exec i s = wholeMask i s val) (hd : i.form.d.field.toNat = d)
    (hbit : ∀ s iss L, L < 64 → (val (seen s iss i)).getLsbD L = bit s iss L) : GivesWholeMask i d bit := by
  subst hd
  intro s iss h
  have hrun := (hx s).trans (runInstr_of_issued h _)
  refine ⟨fun hact => ?some, fun hidle => ?none⟩
  case some =>
    obtain ⟨m, r, hcons⟩ := List.exists_cons_of_ne_nil hact
    rw [teamEffect_of_lowest (c := seen s iss i) hcons] at hrun
    refine ⟨_, hrun.trans (congrArg _ (State.finish_mask s iss _ _)), maskFrame_issuedBy (masksOnly_setK _ _ _) fun n hn => ?stay,
      fun L hL => ?bit⟩
    case stay => exact (Team.kreg_setK _ _ _ _).trans (if_neg hn)
    case bit =>
      rw [State.team_setTeam_self, Team.issuedBy_kreg, ← hbit s iss L hL]
      exact congrArg (·.getLsbD L) (Team.kreg_setK_self _ _ _)
  case none =>
    rw [teamEffect_of_idle (c := seen s iss i) hidle, State.finish_clean _ _ _ rfl rfl] at hrun
    exact ⟨_, hrun, maskFrame_issuedBy ⟨_, rfl⟩ fun _ _ => rfl⟩

/-- The Active lanes ascend. -/
theorem actives_pairwise_lt (s : State) (iss : Issue) : (actives s iss).Pairwise (· < ·) := List.pairwise_lt_range.filter _

/-- The head of an ascending list is its least member. -/
theorem head_le_of_pairwise {a : Nat} {r : List Nat} (h : (a :: r).Pairwise (· < ·)) {x : Nat} (hx : x ∈ a :: r) : a ≤ x := by
  rcases List.mem_cons.mp hx with rfl | hr
  · exact le_rfl
  · exact (List.rel_of_pairwise_cons h hr).le

/-- The last member of an ascending list is its greatest. -/
theorem getLast?_of_greatest {l : List Nat} (h : l.Pairwise (· < ·)) {x : Nat} (hx : x ∈ l) (hmax : ∀ y ∈ l, y ≤ x) :
    l.getLast? = some x := by
  rcases List.eq_nil_or_concat l with rfl | ⟨r, z, rfl⟩
  · contradiction
  · rw [List.concat_eq_append] at h hx hmax ⊢
    obtain ⟨-, -, hlast⟩ := List.pairwise_append.mp h
    have hzx : z ≤ x := hmax z (by simp)
    rcases List.mem_append.mp hx with hr | hz
    · exact absurd (hlast x hr z (by simp)) (not_lt_of_ge hzx)
    · rw [List.getLast?_append, List.mem_singleton.mp hz]
      rfl

/-- MATCH gives the count of the lanes with an equal value above the lowest of them. -/
theorem gives32_matchLanes (o : L64) : Gives32 (.matchLanes o) fun s iss L w =>
    let e := (actives s iss).filter fun J => op32 s iss (.matchLanes o) 1 J == op32 s iss (.matchLanes o) 1 L
    ∃ m ∈ e, (∀ J ∈ e, m ≤ J) ∧ w = .ofNat 32 (e.length * 2 ^ 16 + m) := by
  refine gives32_of_laneInstr (val := fun _ c L =>
    let e := c.act.filter fun j => rd32 c.team j c.form 1 == rd32 c.team L c.form 1
    .ofNat 32 (e.length * 65536 + e.headD 0)) (fun _ => rfl) rfl fun s iss L hL => ?_
  intro e
  have hmem : L ∈ e := List.mem_filter.mpr ⟨hL, beq_self_eq_true _⟩
  have hasc : e.Pairwise (· < ·) := (actives_pairwise_lt s iss).filter _
  change ∃ m ∈ e, (∀ J ∈ e, m ≤ J) ∧ BitVec.ofNat 32 (e.length * 65536 + e.headD 0) = _
  obtain ⟨m, r, he⟩ := List.exists_cons_of_ne_nil (List.ne_nil_of_mem hmem)
  clear_value e
  subst he
  exact ⟨m, List.mem_cons_self, fun _ => head_le_of_pairwise hasc, rfl⟩

/-! ### Steps of reductions and scans (07 R200) -/

/-- The span of a step: halves of 2 to the power of bits 2 to 0 of IMM14. -/
theorem immBits_span (imm : BitVec 14) : immBits imm 2 0 = (imm.extractLsb' 0 3).toNat := (BitVec.extractLsb'_toNat 0 3 imm).symm
theorem immBits_operator (imm : BitVec 14) : immBits imm 6 3 = (imm.extractLsb' 3 4).toNat :=
  (BitVec.extractLsb'_toNat 3 4 imm).symm

theorem mem_partnerHalf (act : List Nat) (d L P : Nat) :
    P ∈ partnerHalf act d L ↔ P ∈ act ∧ P / (2 * d) = L / (2 * d) ∧ P / d ≠ L / d := by
  simp only [partnerHalf, List.mem_filter, Bool.and_eq_true, beq_iff_eq, bne_iff_ne]

theorem partnerHalf_pairwise_lt (s : State) (iss : Issue) (d L : Nat) : (partnerHalf (actives s iss) d L).Pairwise (· < ·) :=
  (actives_pairwise_lt s iss).filter _

/-- What REDSTEP computes for a lane. -/
def redValue (c : Ctx) (L : Nat) : Word :=
  let d := 2 ^ immBits c.form.imm 2 0
  let op := stepOp (immBits c.form.imm 6 3)
  let a := rd32 c.team L c.form 1
  match partnerHalf c.act d L with
  | [] => a
  | p :: _ => if upperHalf d L then op (rd32 c.team p c.form 1) a else op a (rd32 c.team p c.form 1)

/-- What SCANSTEP computes for a lane. -/
def scanValue (c : Ctx) (L : Nat) : Word :=
  let d := 2 ^ immBits c.form.imm 2 0
  let op := stepOp (immBits c.form.imm 6 3)
  let a := rd32 c.team L c.form 1
  match (if upperHalf d L then (partnerHalf c.act d L).getLast? else none) with
  | none => a
  | some p => op (rd32 c.team p c.form 1) a

/-- Operand A of lane `L` as a meaning reads it. -/
def Ctx.opA (c : Ctx) (L : Nat) : Word := rd32 c.team L c.form 1
/-- The partner half of lane `L` as a step reads it. -/
def Ctx.partners (c : Ctx) (L : Nat) : List Nat := partnerHalf c.act (2 ^ immBits c.form.imm 2 0) L

section
variable {c : Ctx} {L p : Nat} {r : List Nat}

theorem redValue_of_alone (h : c.partners L = []) : redValue c L = c.opA L := by
  rw [Ctx.partners] at h
  simp only [redValue, h]
  rfl

/-- The operand of the lower half comes first. -/
theorem redValue_of_partner (h : c.partners L = p :: r) : redValue c L =
    if L / 2 ^ immBits c.form.imm 2 0 % 2 = 0 then stepOp (immBits c.form.imm 6 3) (c.opA L) (c.opA p)
    else stepOp (immBits c.form.imm 6 3) (c.opA p) (c.opA L) := by
  rw [Ctx.partners] at h
  rcases Nat.mod_two_eq_zero_or_one (L / 2 ^ immBits c.form.imm 2 0) with hlow | hup
  · simp [redValue, h, upperHalf, hlow, Ctx.opA]
  · simp [redValue, h, upperHalf, hup, Ctx.opA]

theorem scanValue_of_alone (h : c.partners L = []) : scanValue c L = c.opA L := by
  rw [Ctx.partners] at h
  simp only [scanValue, h, List.getLast?_nil, ite_self]
  rfl

/-- A lane of the upper half takes the last lane of the lower one; a lane of the lower half stays. -/
theorem scanValue_of_partner (h : (c.partners L).getLast? = some p) : scanValue c L =
    if L / 2 ^ immBits c.form.imm 2 0 % 2 = 1 then stepOp (immBits c.form.imm 6 3) (c.opA p) (c.opA L) else c.opA L := by
  rw [Ctx.partners] at h
  rcases Nat.mod_two_eq_zero_or_one (L / 2 ^ immBits c.form.imm 2 0) with hlow | hup
  · simp [scanValue, upperHalf, hlow, Ctx.opA]
  · simp [scanValue, h, upperHalf, hup, Ctx.opA]

end

/-- Settles O11: a step's partner half is the list of the lanes that the statement quantifies over, in ascending order, so that its
first member is the lowest of them and its last the highest. -/
theorem voteAndReduceResults : Obligations.VoteAndReduceResults := by
  unfold Obligations.VoteAndReduceResults
  intro nz op d partner
  have hop : ∀ o x y, op o x y = stepOp (immBits o.imm 6 3) x y := by
    intro o x y
    simp only [op, stepOp, immBits_operator, min_unsigned, max_unsigned, min_eq true, max_eq true]
    split <;> simp_all [asInt]
  have hpartner : ∀ (i : L64 → Instr) (o : L64) (s : State) (iss : Issue) (L P : Nat), (i o).form.imm = o.imm →
      (P ∈ (seen s iss (i o)).partners L ↔ partner s iss o L P) := by
    intro i o s iss L P himm
    rw [Ctx.partners, mem_partnerHalf]
    change Act s iss P ∧ _ ↔ _
    simp only [partner, d, ← immBits_span, ← himm]
    rfl
  have hspan : ∀ o, d o = 2 ^ immBits o.imm 2 0 := fun o => by simp only [d, immBits_span]
  clear_value op d partner
  refine ⟨fun o => ?any, fun o => ?all, fun o => ?ballot, fun o => gives32_matchLanes o, fun o => ?red, fun o => ?scan⟩
  case any =>
    exact gives32_of_laneInstr (val := fun _ c _ => if c.act.any (voteBit c) then 1 else 0) (fun _ => rfl) rfl
      fun _ _ _ _ => if_congr List.any_eq_true rfl rfl
  case all =>
    exact gives32_of_laneInstr (val := fun _ c _ => if c.act.all (voteBit c) then 1 else 0) (fun _ => rfl) rfl
      fun _ _ _ _ => if_congr List.all_eq_true rfl rfl
  case ballot =>
    refine givesWholeMask_of_wholeMask (val := fun c => maskOf (c.act.filter (voteBit c))) (fun _ => rfl) rfl fun s iss L hL => ?_
    rw [getLsbD_maskOf _ hL]
    simp only [List.mem_filter, Bool.decide_and, Bool.decide_eq_true]
    rfl
  case red =>
    refine gives32_of_laneInstr (val := fun _ => redValue) (fun _ => rfl) rfl fun s iss L _ => ?_
    have hmem : ∀ P, P ∈ (seen s iss (.redstep o)).partners L ↔ partner s iss o L P := fun P => hpartner .redstep o s iss L P rfl
    refine ⟨fun P hP hmin => ?_, fun halone => redValue_of_alone ?_⟩
    swap
    · exact List.eq_nil_iff_forall_not_mem.mpr fun P hP => halone P ((hmem P).mp hP)
    have hasc : ((seen s iss (.redstep o)).partners L).Pairwise (· < ·) := partnerHalf_pairwise_lt s iss _ L
    obtain ⟨p, r, hcons⟩ := List.exists_cons_of_ne_nil (List.ne_nil_of_mem ((hmem P).mpr hP))
    have hp : p = P := by
      refine le_antisymm (head_le_of_pairwise (hcons ▸ hasc) (hcons ▸ (hmem P).mpr hP)) (hmin p ((hmem p).mp ?_))
      rw [hcons]
      exact List.mem_cons_self
    subst hp
    rw [redValue_of_partner hcons, hspan, hop, hop]
    rfl
  case scan =>
    refine gives32_of_laneInstr (val := fun _ => scanValue) (fun _ => rfl) rfl fun s iss L _ => ?_
    have hmem : ∀ P, P ∈ (seen s iss (.scanstep o)).partners L ↔ partner s iss o L P := fun P => hpartner .scanstep o s iss L P rfl
    refine ⟨fun P hP hmax => ?_, fun halone => scanValue_of_alone ?_⟩
    swap
    · exact List.eq_nil_iff_forall_not_mem.mpr fun P hP => halone P ((hmem P).mp hP)
    have hlast := getLast?_of_greatest (partnerHalf_pairwise_lt s iss _ L) ((hmem P).mpr hP) fun Q hQ => hmax Q ((hmem Q).mp hQ)
    rw [scanValue_of_partner hlast, hspan, hop]
    rfl

end Sys2Proof.Machine
end

section
/-! PROOFS of the statements of branches, calls and jumps (O14, O16): where an issue leaves the lanes that transfer, what it keeps of the
team, and the links. -/
namespace Sys2Proof.Machine
open Sys2Proof.Claims

/-! ### Issues in which lanes transfer (06 R151; 08 R205) -/

/-- The lookup of a lane among lanes of a list, each with its own value. -/
theorem lookup_map_lane {α : Type} (ls : List Nat) (f : Nat → α) (L : Nat) :
    (ls.map fun M => (M, f M)).lookup L = if L ∈ ls then some (f L) else none := by
  split
  case isTrue hL => exact List.lookup_graph f hL
  case isFalse hL =>
    refine List.lookup_eq_none_iff.mpr fun p hp => ?_
    obtain ⟨M, hM, rfl⟩ := List.mem_map.mp hp
    simpa using fun h : L = M => hL (h ▸ hM)

/-- The effect by which the lanes `ls` transfer, each to its target. -/
def transfers (st : State) (ls : List Nat) (target : Nat → Dbl) (order : List Dbl) : Effect :=
  { st := st, jumps := ls.map fun L => (L, target L), order := order }

/-- A lane that has transferred. -/
def transferred (iss : Issue) (target : Dbl) (l : Lane) : Lane :=
  { goneOn iss l with pc := target, arrival := .transfer iss.pc }

theorem Lane.after_transfers (l : Lane) (iss : Issue) (st : State) (ls : List Nat) (target : Nat → Dbl) (order : List Dbl) (L : Nat) :
    l.after iss.pc (nextPc iss.pc iss.len) (transfers st ls target order) L =
      if L ∈ ls then transferred iss (target L) l else goneOn iss l := by
  have hlookup : (transfers st ls target order).jumps.lookup L = if L ∈ ls then some (target L) else none :=
    lookup_map_lane ls target L
  by_cases hL : L ∈ ls
  · rw [if_pos hL] at hlookup ⊢
    simp only [Lane.after, hlookup]
    rfl
  · rw [if_neg hL] at hlookup ⊢
    simp only [Lane.after, hlookup]
    rfl

/-- An issue keeps the frame of the team where its effect keeps it, and its lanes are as its effect says. -/
theorem teamFrame_of_after {s : State} {iss : Issue} {blank : Team → Team} {T : Team} {e : Effect} {lane : Nat → Lane → Lane}
    (hbare : blank { T with lanes := [], insns := 0, service := [] } =
      blank { s.team iss.team with lanes := [], insns := 0, service := [] })
    (hinsns : T.insns = (s.team iss.team).insns) (hlane : ∀ L, T.lane L = (s.team iss.team).lane L)
    (hafter : ∀ L ∈ iss.group, ∀ l, l.after iss.pc (nextPc iss.pc iss.len) e L = lane L l) :
    TeamFrame s (s.setTeam iss.team (T.issuedBy iss e)) iss blank lane := by
  refine ⟨?only, ?bare, ?insns, fun L => ?lane⟩
  case only => rw [OnlyTeam, State.team_setTeam_self]
  case bare =>
    rw [State.team_setTeam_self, Team.issuedBy_eq]
    exact hbare
  case insns =>
    rw [State.team_setTeam_self, Team.issuedBy_eq, ← hinsns]
    rfl
  case lane =>
    rw [State.team_setTeam_self, Team.issuedBy_lane, hlane]
    split
    case isTrue hL => exact hafter L hL.2 _
    case isFalse => rfl

/-- An issue in which lanes transfer keeps the frame of the team. -/
theorem teamFrame_transfers {s u : State} {iss : Issue} {blank : Team → Team} {T : Team} {ls : List Nat} {target : Nat → Dbl}
    {order : List Dbl} {p : Nat → Prop} [DecidablePred p] (hp : ∀ L, p L ↔ L ∈ ls)
    (hbare : blank { T with lanes := [], insns := 0, service := [] } =
      blank { s.team iss.team with lanes := [], insns := 0, service := [] })
    (hinsns : T.insns = (s.team iss.team).insns) (hlane : ∀ L, T.lane L = (s.team iss.team).lane L) :
    TeamFrame s (s.setTeam iss.team (T.issuedBy iss (transfers u ls target order))) iss blank fun L l =>
      if p L then transferred iss (target L) l else goneOn iss l :=
  teamFrame_of_after hbare hinsns hlane fun L _ l => by simp only [Lane.after_transfers, hp]

/-- An issue without faults and checks leaves its team moved on. -/
theorem State.finish_transfers (s w : State) (iss : Issue) (ls : List Nat) (target : Nat → Dbl) (order : List Dbl) :
    s.finish iss [] (transfers w ls target order) =
      w.setTeam iss.team ((w.team iss.team).issuedBy iss (transfers s ls target order)) := by
  rw [State.finish_clean _ _ _ rfl rfl]
  rfl

/-- The same where the effect stores the team. -/
theorem State.finish_setTeam_transfers (s w : State) (iss : Issue) (T : Team) (ls : List Nat) (target : Nat → Dbl)
    (order : List Dbl) : s.finish iss [] (transfers (w.setTeam iss.team T) ls target order) =
      w.setTeam iss.team (T.issuedBy iss (transfers s ls target order)) := by
  rw [State.finish_transfers, State.team_setTeam_self, State.setTeam_setTeam]

/-! ### Branches -/

/-- Where a branch goes. -/
def branchDisp (i : Instr) (lit : Option Word) : Dbl := lit.elim (i.form.imm.signExtend 64) sx

theorem branchTarget_eq (s : State) (iss : Issue) (i : Instr) (lit : Option Word) :
    branchTarget (seen s iss i) lit = iss.pc + 4 * branchDisp i lit := by
  rw [mul_comm]
  cases lit <;> rfl

/-- The order in which a branch serves its sides. -/
def branchSides (iss : Issue) (i : Instr) (taken : List Nat) (target : Dbl) : List Dbl :=
  branchOrder i.form.hintv taken.length (iss.group.length - taken.length) target (nextPc iss.pc iss.len)

theorem branch_of_issued {s : State} {iss : Issue} {i : Instr} {lit : Option Word} {take : Ctx → Nat → Bool}
    (h : Issued s iss i) :
    let taken := (actives s iss).filter (take (seen s iss i))
    let target := iss.pc + 4 * branchDisp i lit
    branch i lit s take = .next (s.setTeam iss.team ((s.team iss.team).issuedBy iss
      (transfers s taken (fun _ => target) (branchSides iss i taken target)))) := by
  intro taken target
  rw [branch, runInstr_of_issued h, branchTarget_eq]
  exact congrArg Host.Outcome.next (State.finish_transfers s s iss taken (fun _ => target) _)

/-- A branch moves the Active lanes for which its condition holds. -/
theorem branch_moves {i : Instr} {lit : Option Word} {take : Ctx → Nat → Bool} {cond : State → Issue → Nat → Bool}
    (hx : ∀ s, exec i s = branch i lit s take) (hcond : ∀ s iss L, take (seen s iss i) L = cond s iss L) (s : State)
    (iss : Issue) (h : Issued s iss i) : ∃ t, exec i s = .next t ∧ TeamFrame s t iss id fun L l =>
      if Act s iss L ∧ cond s iss L then transferred iss (iss.pc + 4 * branchDisp i lit) l else goneOn iss l :=
  ⟨_, (hx s).trans (branch_of_issued h), teamFrame_transfers (fun L => by rw [List.mem_filter, hcond]) rfl rfl fun _ => rfl⟩

/-- Settles O14: every form is a `branch`, whose Active lanes transfer where its condition holds. -/
theorem branchesMoveLanes : Obligations.BranchesMoveLanes := by
  unfold Obligations.BranchesMoveLanes
  intro gives nz
  exact ⟨fun _ => branch_moves (lit := none) (fun _ => rfl) fun _ _ _ => rfl,
    fun _ => branch_moves (lit := none) (fun _ => rfl) fun _ _ _ => rfl,
    fun _ => branch_moves (lit := none) (fun _ => rfl) fun _ _ _ => rfl,
    fun _ => branch_moves (lit := none) (fun _ => rfl) fun _ _ _ => rfl,
    fun o => branch_moves (lit := some o.lit) (fun _ => rfl) fun _ _ _ => rfl,
    fun o => branch_moves (lit := some o.lit) (fun _ => rfl) fun _ _ _ => rfl,
    fun o => branch_moves (lit := some o.lit) (fun _ => rfl) fun _ _ _ => rfl,
    fun o => branch_moves (lit := some o.lit) (fun _ => rfl) fun _ _ _ => rfl⟩

/-! ### Calls and indirect jumps (08 R205) -/

/-- The links of the Active lanes are written to their destination pairs. -/
theorem writeLinks_eq (s : State) (iss : Issue) (i : Instr) :
    writeLinks (seen s iss i) (actives s iss) = written64 s iss i fun _ => nextPc iss.pc iss.len := rfl

theorem vectorsOnly_written64 (s : State) (iss : Issue) (i : Instr) (val : Nat → Dbl) :
    VectorsOnly (s.team iss.team) (written64 s iss i val) :=
  VectorsOnly.foldl (fun _ _ => vectorsOnly_wr64 _ _ _ _ _) _

/-- What the statement says of the links once the team is `T`. -/
def LinksWritten (s : State) (iss : Issue) (i : Instr) (T : Team) : Prop :=
  (∀ L, Act s iss L → T.vpair L (destReg s iss i L) = nextPc iss.pc iss.len) ∧
    ∀ L n, L < 64 → n < 512 → ¬ (Act s iss L ∧ (n = destReg s iss i L ∨ n = destReg s iss i L + 1)) →
      T.vreg L n = (s.team iss.team).vreg L n

theorem linksWritten_written64 {s : State} {iss : Issue} {i : Instr} (h : Issued s iss i) (hd : i.form.d.kind = .pair)
    (e : Effect) : LinksWritten s iss i ((written64 s iss i fun _ => nextPc iss.pc iss.len).issuedBy iss e) := by
  refine ⟨fun L hL => ?value, fun L n _ hn hnot => ?stay⟩
  case value => rw [Team.issuedBy_vpair, written64_vpair h hd _ hL]
  case stay => rw [Team.issuedBy_vreg, written64_vreg h hd _ _ hn, if_neg (by tauto), if_neg (by tauto)]

/-- What the statement says of a transfer of every Active lane. -/
def MovesActive (i : Instr) (link : Bool) (target : State → Issue → Nat → Dbl) (s : State) (iss : Issue) : Prop :=
  ∃ t, exec i s = .next t ∧
    TeamFrame s t iss (fun u => if link then { u with v := [], nonzero := [] } else u) (fun L l =>
      if Act s iss L then transferred iss (target s iss L) l else goneOn iss l) ∧
    (link = true → LinksWritten s iss i (t.team iss.team))

/-- Where links are written and then every Active lane transfers. -/
theorem movesActive_of_links {i : Instr} {target : State → Issue → Nat → Dbl} {s : State} {iss : Issue} (h : Issued s iss i)
    (hd : i.form.d.kind = .pair) (hx : ∃ order, exec i s = .next (s.finish iss [] (transfers
      (s.setTeam iss.team (writeLinks (seen s iss i) (actives s iss))) (actives s iss) (target s iss) order))) :
    MovesActive i true target s iss := by
  obtain ⟨order, hx⟩ := hx
  rw [writeLinks_eq, State.finish_setTeam_transfers] at hx
  refine ⟨_, hx, ?frame, fun _ => ?links⟩
  case frame =>
    obtain ⟨v, z, hW⟩ := vectorsOnly_written64 s iss i fun _ => nextPc iss.pc iss.len
    rw [hW]
    exact teamFrame_transfers (fun _ => Iff.rfl) rfl rfl fun _ => rfl
  case links =>
    rw [State.team_setTeam_self]
    exact linksWritten_written64 h hd _

/-- CALL transfers every Active lane to PC + 4 · disp and writes their links. -/
theorem movesActive_of_callInstr {i : Instr} {lit : Option Word} (hx : ∀ s, exec i s = callInstr i lit s)
    (hd : i.form.d.kind = .pair) (s : State) (iss : Issue) (h : Issued s iss i) :
    MovesActive i true (fun _ iss _ => iss.pc + 4 * branchDisp i lit) s iss := by
  refine movesActive_of_links h hd ?_
  rw [hx, callInstr, runInstr_of_issued h, branchTarget_eq]
  exact ⟨_, rfl⟩

/-- The effect of JMP, CALLR or RET where every target is a multiple of 4. -/
theorem indirectJump_of_aligned {i : Instr} {link : Bool} {s : State} {iss : Issue} {target : Ctx → Nat → Dbl}
    (h : Issued s iss i) (halign : ∀ L, Act s iss L → (target (seen s iss i) L).toNat % 4 = 0) :
    ∃ order, indirectJump i link s target = .next (s.finish iss [] (transfers
      (if link then s.setTeam iss.team (writeLinks (seen s iss i) (actives s iss)) else s)
      (actives s iss) (target (seen s iss i)) order)) := by
  have hgood : ((seen s iss i).act.filter fun L => (target (seen s iss i) L).toNat % 4 == 0) = actives s iss :=
    List.filter_eq_self.mpr fun L hL => beq_iff_eq.mpr (halign L hL)
  have hbad : ((seen s iss i).act.filter fun L => (target (seen s iss i) L).toNat % 4 != 0) = [] :=
    List.filter_eq_nil_iff.mpr fun L hL => by simp [halign L hL]
  rw [indirectJump, runInstr_of_issued h]
  simp only [hgood, hbad]
  exact ⟨_, rfl⟩

/-- JMP, CALLR and RET transfer every Active lane to its own target, read before the link is written. -/
theorem movesActive_of_indirectJump {i : Instr} {link : Bool} {target : Ctx → Nat → Dbl} {goal : State → Issue → Nat → Dbl}
    (hx : ∀ s, exec i s = indirectJump i link s target) (hd : link = true → i.form.d.kind = .pair)
    (htarget : ∀ s iss, target (seen s iss i) = goal s iss) (s : State) (iss : Issue) (h : Issued s iss i)
    (halign : ∀ L, Act s iss L → (goal s iss L).toNat % 4 = 0) : MovesActive i link goal s iss := by
  obtain ⟨order, hjump⟩ := indirectJump_of_aligned (link := link) h (target := target) (by rwa [htarget])
  rw [← hx, htarget] at hjump
  cases link with
  | true => exact movesActive_of_links h (hd rfl) ⟨order, hjump⟩
  | false =>
    exact ⟨_, hjump.trans (congrArg _ (State.finish_transfers s s iss _ _ order)),
      teamFrame_transfers (fun _ => Iff.rfl) rfl rfl fun _ => rfl, fun hlink => absurd hlink Bool.false_ne_true⟩

/-- The target of JMP and CALLR. -/
theorem slotTarget_eq (s : State) (iss : Issue) (i : Instr) :
    slotTarget (seen s iss i) = fun L => op64 s iss i 1 L + 4 * i.form.imm.signExtend 64 := by
  funext L
  rw [mul_comm]
  rfl

/-- Settles O16: CALL by `movesActive_of_callInstr`, JMP, CALLR and RET by `movesActive_of_indirectJump`. -/
theorem callsAndJumps : Obligations.CallsAndJumps := by
  unfold Obligations.CallsAndJumps
  intro moves
  refine ⟨fun o s iss h _ => ?call, fun o s iss h _ => ?callLong, fun o s iss h halign => ?jmp, fun o s iss h halign => ?callr,
    fun o s iss h halign => ?ret⟩
  case call => exact movesActive_of_callInstr (lit := none) (fun _ => rfl) rfl s iss h
  case callLong => exact movesActive_of_callInstr (lit := some o.lit) (fun _ => rfl) rfl s iss h
  case jmp =>
    exact movesActive_of_indirectJump (fun _ => rfl) (fun hlink => absurd hlink Bool.false_ne_true)
      (fun s iss => slotTarget_eq s iss (.jmp o)) s iss h (halign rfl)
  case callr =>
    exact movesActive_of_indirectJump (fun _ => rfl) (fun _ => rfl) (fun s iss => slotTarget_eq s iss (.callr o)) s iss h
      (halign rfl)
  case ret =>
    exact movesActive_of_indirectJump (fun _ => rfl) (fun hlink => absurd hlink Bool.false_ne_true) (fun _ _ => rfl) s iss h
      (halign rfl)

end Sys2Proof.Machine
end

section
/-! PROOFS of the statement of divergent branches (O15): the service list of a team whose one path an issue splits. -/
namespace Sys2Proof.Machine
open Sys2Proof.Claims

/-! ### Service lists (08 R209) -/

/-- The READY PCs are those at which a READY lane stands. -/
theorem Team.mem_readyPcs (t : Team) (p : Dbl) :
    p ∈ t.readyPcs ↔ ∃ L, L < 64 ∧ (t.lane L).isReady = true ∧ (t.lane L).pc = p := by
  have hfold : ∀ (ls : List Nat) (acc : List Dbl), p ∈ ls.foldl (fun ps L =>
      if (t.lane L).isReady && !ps.contains (t.lane L).pc then ps ++ [(t.lane L).pc] else ps) acc ↔
        p ∈ acc ∨ ∃ L ∈ ls, (t.lane L).isReady = true ∧ (t.lane L).pc = p := by
    intro ls
    induction ls with
    | nil => simp
    | cons a r ih =>
      intro acc
      rw [List.foldl_cons, ih, List.exists_mem_cons_iff, ← or_assoc]
      refine or_congr_left ?_
      by_cases hready : (t.lane a).isReady = true
      · by_cases hin : (t.lane a).pc ∈ acc
        · simp only [hready, List.contains_iff_mem.mpr hin, Bool.not_true, Bool.and_false, Bool.false_eq_true, if_false, true_and]
          exact ⟨.inl, fun h => h.elim id fun heq => heq ▸ hin⟩
        · simp [hready, hin, eq_comm]
      · simp [hready]
  simpa [Team.readyPcs] using hfold laneList []

/-- A list without repeats has none to remove. -/
theorem dedupPcs_of_nodup {ps : List Dbl} (h : ps.Nodup) : dedupPcs ps = ps := by
  have hfold : ∀ (ps acc : List Dbl), (acc ++ ps).Nodup →
      ps.foldl (fun acc p => if acc.contains p then acc else acc ++ [p]) acc = acc ++ ps := by
    intro ps
    induction ps with
    | nil => simp
    | cons a r ih =>
      intro acc hacc
      have ha : a ∉ acc := fun hin => (List.nodup_append.mp hacc).2.2 a hin a List.mem_cons_self rfl
      rw [List.append_cons] at hacc ⊢
      rw [List.foldl_cons, List.contains_eq_mem, decide_eq_false ha, if_neg Bool.false_ne_true, ih _ hacc]
  exact hfold ps [] h

/-- A service list that names each READY PC once, and no other, is up to date. -/
theorem Team.refresh_service_of_complete {t : Team} (hnodup : t.service.Nodup) (hmem : ∀ p, p ∈ t.service ↔ p ∈ t.readyPcs) :
    t.refresh.service = t.service := by
  have hkept : (dedupPcs t.service).filter t.readyPcs.contains = t.service := by
    rw [dedupPcs_of_nodup hnodup]
    exact List.filter_eq_self.mpr fun p hp => List.contains_iff_mem.mpr ((hmem p).mp hp)
  have hnew : (t.readyPcs.filter fun p => !t.service.contains p) = [] :=
    List.filter_eq_nil_iff.mpr fun p hp => by simp [(hmem p).mpr hp]
  simp only [Team.refresh, hkept, hnew, List.append_nil]

/-- Where the one path of a team is split, the service list is the order that the effect gives, if that names the PCs at which lanes
of the group stand, and no other lane is READY. -/
theorem Team.issuedBy_service {T : Team} {iss : Issue} {e : Effect} (hserv : T.service = [iss.pc]) (hne : e.order ≠ [])
    (hnodup : e.order.Nodup) (hgroup : ∀ L ∈ iss.group, L < 64)
    (hout : ∀ L, L ∉ iss.group → (T.lane L).isReady = false)
    (hmem : ∀ p, p ∈ e.order ↔ ∃ L ∈ iss.group, ((T.issuedBy iss e).lane L).isReady = true ∧ ((T.issuedBy iss e).lane L).pc = p) :
    (T.issuedBy iss e).service = e.order := by
  have hlane : ∀ L, (T.moved iss e).lane L = (T.issuedBy iss e).lane L := fun L => by
    rw [Team.issuedBy, Team.split_lane, Team.countIssue_lane]
  have hthere : (e.order.filter fun p =>
      iss.group.any fun L => ((T.moved iss e).lane L).isReady && ((T.moved iss e).lane L).pc == p) = e.order :=
    List.filter_eq_self.mpr fun p hp => by simpa [hlane] using (hmem p).mp hp
  have hsplit : (T.moved iss e).service.foldr (fun p acc => if p == iss.pc then e.order ++ acc else p :: acc) [] = e.order := by
    rw [Team.moved, Team.mapLanes_eq, hserv]
    simp
  have hcomplete : ∀ p, p ∈ e.order ↔ p ∈ (T.issuedBy iss e).readyPcs := by
    intro p
    rw [hmem, Team.mem_readyPcs]
    constructor
    · rintro ⟨L, hL, hat⟩
      exact ⟨L, hgroup L hL, hat⟩
    · rintro ⟨L, hlt, hready, hpc⟩
      refine ⟨L, ?_, hready, hpc⟩
      by_contra hL
      rw [Team.issuedBy_lane, if_neg (by tauto), hout L hL] at hready
      contradiction
  have hservice : (T.issuedBy iss e).service = ({ (T.moved iss e).countIssue with service := e.order } : Team).refresh.service := by
    simp only [Team.issuedBy, Team.split, if_neg hne, hthere]
    exact congrArg (fun ps => ({ (T.moved iss e).countIssue with service := ps } : Team).refresh.service) hsplit
  exact hservice.trans (Team.refresh_service_of_complete hnodup hcomplete)

/-! ### The two sides of a branch (08 R210) -/

/-- The lanes of a group that do not transfer. -/
def fallLanes (iss : Issue) (taken : List Nat) : List Nat :=
  ((List.range 64).filter fun L => decide (L ∈ iss.group)).filter fun L => !taken.contains L

theorem mem_fallLanes {iss : Issue} {taken : List Nat} (hgroup : ∀ L ∈ iss.group, L < 64) (L : Nat) :
    L ∈ fallLanes iss taken ↔ L ∈ iss.group ∧ L ∉ taken := by
  simp only [fallLanes, List.mem_filter, List.mem_range, decide_eq_true_eq, List.contains_eq_mem, Bool.not_eq_eq_eq_not, Bool.not_true,
    decide_eq_false_iff_not]
  exact and_congr_left fun _ => and_iff_right_of_imp (hgroup L)

/-- The lanes that fall through are the group's others. -/
theorem length_fallLanes {iss : Issue} {taken : List Nat} (hnodup : iss.group.Nodup) (hgroup : ∀ L ∈ iss.group, L < 64)
    (htaken : taken.Nodup) (hsub : ∀ L ∈ taken, L ∈ iss.group) :
    (fallLanes iss taken).length = iss.group.length - taken.length := by
  have hfall : (fallLanes iss taken).Nodup := (List.nodup_range.filter _).filter _
  have hperm : iss.group.Perm (taken ++ fallLanes iss taken) := by
    refine (List.perm_ext_iff_of_nodup hnodup (htaken.append hfall ?_)).mpr fun L => ?_
    · exact fun L hL hL' => ((mem_fallLanes hgroup L).mp hL').2 hL
    · rw [List.mem_append, mem_fallLanes hgroup]
      have := hsub L
      tauto
  have hlen := hperm.length_eq
  rw [List.length_append] at hlen
  omega

/-- Which side a branch serves first. -/
theorem branchOrder_eq (hint : BitVec 2) (taken fall : Nat) (target next : Dbl) : branchOrder hint taken fall target next =
    if hint = 1 ∨ (hint ≠ 2 ∧ fall < taken) then [target, next] else [next, target] := by
  unfold branchOrder
  by_cases h1 : hint = 1
  · rw [if_pos h1, if_pos (.inl h1)]
  · by_cases h2 : hint = 2
    · rw [if_neg h1, if_pos h2, if_neg (by tauto)]
    · rw [if_neg h1, if_neg h2]
      simp only [h1, h2, ne_eq, not_false_eq_true, true_and, false_or]

theorem mem_branchOrder (hint : BitVec 2) (taken fall : Nat) (target next p : Dbl) :
    p ∈ branchOrder hint taken fall target next ↔ p = target ∨ p = next := by
  rw [branchOrder_eq]
  split_ifs <;> simp [or_comm]

theorem branchOrder_nodup (hint : BitVec 2) (taken fall : Nat) {target next : Dbl} (h : target ≠ next) :
    (branchOrder hint taken fall target next).Nodup := by
  rw [branchOrder_eq]
  split_ifs <;> simp [h, h.symm]

theorem actives_subset_group {s : State} {iss : Issue} {L : Nat} (h : Act s iss L) : L ∈ iss.group := by
  simp only [Act, actives, List.mem_filter, Bool.and_eq_true, decide_eq_true_eq] at h
  exact h.2.1

/-- Where some lanes of a group that is READY transfer to one target and some do not, the group stands at two PCs. -/
theorem reached_iff_side {T : Team} {iss : Issue} {u : State} {ls : List Nat} {target : Dbl} {order : List Dbl}
    (hlt : ∀ L ∈ iss.group, L < 64) (hready : ∀ L ∈ iss.group, (T.lane L).isReady = true) (hsub : ∀ L ∈ ls, L ∈ iss.group)
    (hls : ls ≠ []) (hfall : fallLanes iss ls ≠ []) (p : Dbl) :
    (∃ L ∈ iss.group, ((T.issuedBy iss (transfers u ls (fun _ => target) order)).lane L).isReady = true ∧
      ((T.issuedBy iss (transfers u ls (fun _ => target) order)).lane L).pc = p) ↔ p = target ∨ p = nextPc iss.pc iss.len := by
  have hafter : ∀ L ∈ iss.group, (T.issuedBy iss (transfers u ls (fun _ => target) order)).lane L =
      if L ∈ ls then transferred iss target (T.lane L) else goneOn iss (T.lane L) := fun L hL => by
    rw [Team.issuedBy_lane, if_pos ⟨hlt L hL, hL⟩, Lane.after_transfers]
  constructor
  · rintro ⟨L, hL, -, hpc⟩
    rw [hafter L hL] at hpc
    split at hpc
    · exact .inl hpc.symm
    · exact .inr hpc.symm
  · rintro (rfl | rfl)
    · obtain ⟨L, hL⟩ := List.exists_mem_of_ne_nil _ hls
      refine ⟨L, hsub L hL, ?_⟩
      rw [hafter L (hsub L hL), if_pos hL]
      exact ⟨hready L (hsub L hL), rfl⟩
    · obtain ⟨L, hL⟩ := List.exists_mem_of_ne_nil _ hfall
      obtain ⟨hin, hnot⟩ := (mem_fallLanes hlt L).mp hL
      refine ⟨L, hin, ?_⟩
      rw [hafter L hin, if_neg hnot]
      exact ⟨hready L hin, rfl⟩

/-- Where a branch splits the one path of a team, its service list is the order of the two sides. -/
theorem branch_serves {i : Instr} {lit : Option Word} {take : Ctx → Nat → Bool} {cond : State → Issue → Nat → Bool}
    (hx : ∀ s, exec i s = branch i lit s take) (hcond : ∀ s iss, take (seen s iss i) = cond s iss) (s : State) (iss : Issue)
    (h : Issued s iss i) :
    let T := s.team iss.team
    let taken := (actives s iss).filter (cond s iss)
    let fall := fallLanes iss taken
    let target := iss.pc + 4 * branchDisp i lit
    let next := nextPc iss.pc iss.len
    T.service = [iss.pc] → iss.group.Nodup → (∀ L ∈ iss.group, L < 64 ∧ (T.lane L).st = .ready) →
    (∀ L, L ∉ iss.group → (T.lane L).st ≠ .ready) → target ≠ next → taken ≠ [] → fall ≠ [] →
    ∃ t, exec i s = .next t ∧ (t.team iss.team).service =
      if i.form.hintv = 1 ∨ (i.form.hintv ≠ 2 ∧ fall.length < taken.length) then [target, next] else [next, target] := by
  intro T taken fall target next hserv hnodup hgroup hout hne htaken hfall
  have hlt : ∀ L ∈ iss.group, L < 64 := fun L hL => (hgroup L hL).1
  have hsub : ∀ L ∈ taken, L ∈ iss.group := fun L hL => actives_subset_group (List.mem_of_mem_filter hL)
  have hlen : fall.length = iss.group.length - taken.length :=
    length_fallLanes hnodup hlt ((actives_nodup s iss).filter _) hsub
  have hrun := (hx s).trans (branch_of_issued (lit := lit) (take := take) h)
  rw [hcond] at hrun
  refine ⟨_, hrun, ?_⟩
  rw [State.team_setTeam_self, hlen, ← branchOrder_eq]
  have hsides : ∀ p, p ∈ branchSides iss i taken target ↔ p = target ∨ p = next := mem_branchOrder _ _ _ _ _
  have hready : ∀ L ∈ iss.group, (T.lane L).isReady = true := fun L hL => beq_iff_eq.mpr (hgroup L hL).2
  exact Team.issuedBy_service hserv (List.ne_nil_of_mem ((hsides target).mpr (.inl rfl))) (branchOrder_nodup _ _ _ hne) hlt
    (fun L hL => beq_eq_false_iff_ne.mpr (hout L hL))
    fun p => (hsides p).trans (reached_iff_side hlt hready hsub htaken hfall p).symm

/-- Settles O15: a `branch` that splits the path lists its two sides in the order of `branchOrder`. -/
theorem branchServesHintedSideFirst : Obligations.BranchServesHintedSideFirst := by
  unfold Obligations.BranchServesHintedSideFirst
  intro serves nz
  exact ⟨fun _ => branch_serves (lit := none) (fun _ => rfl) fun _ _ => rfl,
    fun _ => branch_serves (lit := none) (fun _ => rfl) fun _ _ => rfl,
    fun _ => branch_serves (lit := none) (fun _ => rfl) fun _ _ => rfl,
    fun o => branch_serves (lit := some o.lit) (fun _ => rfl) fun _ _ => rfl,
    fun o => branch_serves (lit := some o.lit) (fun _ => rfl) fun _ _ => rfl,
    fun o => branch_serves (lit := some o.lit) (fun _ => rfl) fun _ _ => rfl⟩

end Sys2Proof.Machine
end

section
/-! PROOFS of the statement of jump tables and faults of transfers (O17): what JTAB does with the entry that it reads, and that a lane
whose target, index or base is wrong takes its fault with nothing else done. -/
namespace Sys2Proof.Machine
open Sys2Proof.Claims

/-! ### Issues whose one lane faults (06 R165; 08 R205) -/

/-- A fault that a meaning raises is taken as one that a row raises. -/
theorem State.finish_faults (s : State) (iss : Issue) (e : Effect) :
    s.finish iss [] e = s.finish iss e.faults { e with faults := [] } := by
  unfold State.finish
  rw [List.nil_append, List.append_nil]
  rfl

/-- A meaning that only raises the fault of one lane. -/
theorem faultsWith_of_fault {i : Instr} {s w : State} {iss : Issue} {L : Nat} {x : FaultInfo} {order : List Dbl}
    (hexec : exec i s = .next (s.finish iss [] { st := w, faults := [(L, x)], order := order })) (hcode : x.code ≠ 0)
    (hst : w = s ∨ w = s.setTeam iss.team (s.team iss.team)) : FaultsWith i s iss [(L, x)] := by
  rw [State.finish_faults] at hexec
  exact faultsWith_of_still hexec hcode ⟨hst, rfl⟩

/-- JMP, CALLR or RET of one lane whose target is no multiple of 4 faults ALIGN, with no link written. -/
theorem faultsWith_of_indirectJump {i : Instr} {link : Bool} {target : Ctx → Nat → Dbl}
    (hx : ∀ s, exec i s = indirectJump i link s target) {s : State} {iss : Issue} {L : Nat} (h : Issued s iss i)
    (hact : actives s iss = [L]) (hbad : (target (seen s iss i) L).toNat % 4 ≠ 0) :
    FaultsWith i s iss [(L, { code := 0x06, addr := target (seen s iss i) L })] := by
  have hrun := (hx s).trans (runInstr_of_issued h _)
  have hone : (seen s iss i).act = [L] := hact
  have hodd : ((target (seen s iss i) L).toNat % 4 != 0) = true := bne_iff_ne.mpr hbad
  have heven : ((target (seen s iss i) L).toNat % 4 == 0) = false := beq_eq_false_iff_ne.mpr hbad
  simp only [hone, List.filter_cons, List.filter_nil, hodd, heven, if_true, Bool.false_eq_true, if_false] at hrun
  refine faultsWith_of_fault hrun (Nat.succ_ne_zero 5) ?_
  cases link with
  | true => exact .inr rfl
  | false => exact .inl rfl

/-! ### Jump tables (08 R206) -/

/-- A fault at an address that a word holds. -/
theorem FaultInfo.at_toNat (code cause : Nat) (a : Dbl) :
    FaultInfo.at code cause a.toNat = { code := code, cause := cause, addr := a } := by
  rw [FaultInfo.at, BitVec.ofNat_toNat, BitVec.setWidth_eq]

/-- Where the entry of a lane's index stands in its table. -/
def entryAt (s : State) (iss : Issue) (o : L64) (L : Nat) : Nat :=
  ((op64 s iss (.jtab o) 2 L).toNat + 8 * (op32 s iss (.jtab o) 1 L).toNat) % 2 ^ 64

section
variable {o : L64} {s : State} {iss : Issue} {L : Nat}

/-- An index at or above COUNT. -/
theorem jtabLane_of_beyond (hindex : o.imm.toNat + 1 ≤ (op32 s iss (.jtab o) 1 L).toNat) :
    jtabLane s (seen s iss (.jtab o)) L = .error { code := 0x0C, info := op32 s iss (.jtab o) 1 L } := by
  refine (if_pos hindex).trans ?_
  rw [BitVec.ofNat_toNat, BitVec.setWidth_eq]
  rfl

section
variable (hindex : ¬ o.imm.toNat + 1 ≤ (op32 s iss (.jtab o) 1 L).toNat)
include hindex

/-- A base that is no multiple of 8, away from the doorbell pages that are no queue's of the function. -/
theorem jtabLane_of_misaligned (hbase : (op64 s iss (.jtab o) 2 L).toNat % 8 ≠ 0)
    (hdoor : s.strangeDoor (s.agentOf iss.team L) .read (entryAt s iss o L) = .ok none) :
    jtabLane s (seen s iss (.jtab o)) L = .error { code := 0x06, addr := op64 s iss (.jtab o) 2 L } := by
  refine (if_neg hindex).trans ((if_pos hbase).trans ?_)
  split
  case h_1 heq => cases heq.symm.trans hdoor
  case h_2 => exact congrArg Except.error (FaultInfo.at_toNat codeAlign 0 _)
  case h_3 heq => cases heq.symm.trans hdoor

/-- An entry that passes the checks of an 8-byte load from HBM. -/
theorem jtabLane_of_entry {p : Nat} (hbase : (op64 s iss (.jtab o) 2 L).toNat % 8 = 0)
    (hcheck : s.checkThread iss.team L .read (entryAt s iss o L) 8 8 = .ok (.hbm p)) :
    jtabLane s (seen s iss (.jtab o)) L = .ok (entryAt s iss o L, .hbm p) := by
  refine (if_neg hindex).trans ((if_neg (not_not.mpr hbase)).trans ?_)
  split
  case h_1 heq => cases heq.symm.trans hcheck
  case h_2 t heq =>
    obtain rfl : t = .hbm p := Except.ok.inj (heq.symm.trans hcheck)
    rfl

end

end

section
variable {o : L64} {s : State} {iss : Issue} {L : Nat} (h : Issued s iss (.jtab o)) (hact : actives s iss = [L])
include h hact

/-- JTAB of one lane that finds a fault raises it. -/
theorem faultsWith_of_jtabLane {x : FaultInfo} (hfound : jtabLane s (seen s iss (.jtab o)) L = .error x) (hcode : x.code ≠ 0) :
    FaultsWith (.jtab o) s iss [(L, x)] := by
  have hrun := (execJtab.eq_1 o s).trans (runInstr_of_issued h _)
  have hone : (seen s iss (.jtab o)).act = [L] := hact
  simp only [hone, List.map_cons, List.map_nil, hfound, List.filterMap_cons, List.filterMap_nil, State.logFaults_nil,
    List.filter_nil, List.any_nil, Bool.false_eq_true, if_false, jtabReads, List.append_nil] at hrun
  exact faultsWith_of_fault hrun hcode (.inl rfl)

/-- JTAB of one lane that finds its entry, has room in the log and waits for nothing transfers to the entry it reads. -/
theorem execJtab_of_entry {a : Nat} {t : Target} (hfound : jtabLane s (seen s iss (.jtab o)) L = .ok (a, t))
    (hlog : s.logFaults (seen s iss (.jtab o)) [(L, [], t)] = []) (hready : s.readReady iss.team L t 8 = true)
    (halign : (s.readNow iss.team L t 8).2 % 4 = 0) (hlt : (s.readNow iss.team L t 8).2 < 2 ^ 56) :
    ∃ order, exec (.jtab o) s = .next (s.finish iss [] (transfers (s.readNow iss.team L t 8).1 [L]
      (fun _ => .ofNat 64 (s.readNow iss.team L t 8).2) order)) := by
  have hrun := (execJtab.eq_1 o s).trans (runInstr_of_issued h _)
  have hone : (seen s iss (.jtab o)).act = [L] := hact
  have hgood : ((s.readNow iss.team L t 8).2 % 4 != 0 || decide (2 ^ 56 ≤ (s.readNow iss.team L t 8).2)) = false :=
    Bool.or_eq_false_iff.mpr ⟨by rw [halign]; rfl, decide_eq_false (Nat.not_le.mpr hlt)⟩
  have hteam : (seen s iss (.jtab o)).iss.team = iss.team := rfl
  simp only [hone, List.map_cons, List.map_nil, hfound, List.filterMap_cons, List.filterMap_nil, hlog, List.lookup_nil,
    Option.isNone_none, List.filter_cons, List.filter_nil, if_true, List.any_cons, List.any_nil, hteam, hready, Bool.not_true,
    Bool.or_false, Bool.false_eq_true, if_false, jtabReads, hgood, Bool.not_false, List.append_nil] at hrun
  exact ⟨_, hrun⟩

end

/-! ### The statement -/

/-- Settles O17: JTAB by `execJtab_of_entry` and `faultsWith_of_jtabLane`, the other faults by `faultsWith_of_indirectJump`. -/
theorem jumpTablesAndTransferFaults : Obligations.JumpTablesAndTransferFaults := by
  unfold Obligations.JumpTablesAndTransferFaults
  refine ⟨?transfer, ?faults⟩
  case transfer =>
    intro o s iss L p h hact i base a hindex hbase hcheck hlog hready e r halign hlt
    obtain ⟨order, hrun⟩ := execJtab_of_entry h hact (jtabLane_of_entry (Nat.not_le.mpr hindex) hbase hcheck) hlog hready halign hlt
    exact ⟨_, hrun.trans (congrArg _ (State.finish_transfers s r iss [L] _ order)),
      teamFrame_transfers (fun M => List.mem_singleton.symm) rfl rfl fun _ => rfl⟩
  case faults =>
    intro faults mis
    have hmis : ∀ {a : Dbl} {e : FaultInfo}, mis a = some e → a.toNat % 4 ≠ 0 ∧ e = { code := 0x06, addr := a } := by
      intro a e ha
      obtain ⟨hbad, he⟩ := Option.ite_none_left_eq_some.mp ha
      exact ⟨hbad, (Option.some.inj he).symm⟩
    have hjump : ∀ {i : Instr} {link : Bool} {target : Ctx → Nat → Dbl} {goal : State → Issue → Nat → Dbl},
        (∀ s, exec i s = indirectJump i link s target) → (∀ s iss, target (seen s iss i) = goal s iss) →
        faults i fun s iss L => mis (goal s iss L) := by
      intro i link target goal hx htarget s iss L e h hact ha
      obtain ⟨hbad, rfl⟩ := hmis ha
      rw [← htarget] at hbad ⊢
      exact faultsWith_of_indirectJump hx h hact hbad
    refine ⟨fun o => hjump (fun _ => rfl) fun s iss => slotTarget_eq s iss (.jmp o),
      fun o => hjump (fun _ => rfl) fun s iss => slotTarget_eq s iss (.callr o), fun o => hjump (fun _ => rfl) fun _ _ => rfl,
      fun o s iss L e h hact ha => ?jtab⟩
    dsimp only at ha
    split at ha
    case isTrue hindex =>
      cases ha
      exact faultsWith_of_jtabLane h hact (jtabLane_of_beyond hindex) (Nat.succ_ne_zero 11)
    case isFalse hindex =>
      obtain ⟨hbase, hdoor⟩ := Option.ite_none_left_eq_some.mp ha
      split at hdoor
      case h_1 hnone =>
        cases hdoor
        exact faultsWith_of_jtabLane h hact (jtabLane_of_misaligned hindex hbase hnone) (Nat.succ_ne_zero 5)
      case h_2 => contradiction

end Sys2Proof.Machine
end

section
/-! PROOFS of the statements of masks, predicates and joins (O12, O13). -/
namespace Sys2Proof.Machine
open Sys2Proof.Claims

/-! ### Writes of masks (08 R211, R216) -/

theorem MasksOnly.trans {T U W : Team} (hTU : MasksOnly T U) (hUW : MasksOnly U W) : MasksOnly T W := by
  obtain ⟨k, rfl⟩ := hTU
  obtain ⟨k', rfl⟩ := hUW
  exact ⟨k', rfl⟩

/-- Lanes `ls` are cleared in the masks `ns`. -/
def Team.strike (t : Team) (ls ns : List Nat) : Team := ns.foldl (fun t n => ls.foldl (fun t L => t.setKbit n L false) t) t

theorem Team.strike_masksOnly (t : Team) (ls ns : List Nat) : MasksOnly t (t.strike ls ns) := by
  unfold Team.strike
  induction ns generalizing t with
  | nil => exact ⟨_, rfl⟩
  | cons a r ih => exact (masksOnly_fold_setKbit a (fun _ => false) ls t).trans (ih _)

/-- A lane that is struck loses its bit in each of the masks; every other bit stays. -/
theorem Team.getLsbD_strike (t : Team) (ls ns : List Nat) (n : Nat) {L : Nat} (hL : L < 64) :
    ((t.strike ls ns).kreg n).getLsbD L = if n ∈ ns ∧ L ∈ ls then false else (t.kreg n).getLsbD L := by
  unfold Team.strike
  induction ns generalizing t with
  | nil => simp
  | cons a r ih =>
    rw [List.foldl_cons, ih]
    have hother : n ≠ a → (ls.foldl (fun t L => t.setKbit a L false) t).kreg n = t.kreg n := fun hn =>
      Team.fold_other (fun u => u.kreg n) (fun L (t : Team) => t.setKbit a L false)
        (fun _ _ => (Team.kreg_setK _ _ _ _).trans (if_neg hn)) ls t
    by_cases ha : n = a
    · subst ha
      rw [Team.getLsbD_fold_setKbit n (fun _ => false) ls t hL]
      by_cases hls : L ∈ ls <;> simp [hls]
    · simp [hother ha, ha]

theorem Team.kreg_strike_of_not_mem (t : Team) (ls ns : List Nat) {n : Nat} (h : n ∉ ns) : (t.strike ls ns).kreg n = t.kreg n :=
  BitVec.eq_of_getLsbD_eq fun L hL => by rw [Team.getLsbD_strike t ls ns n hL, if_neg (by tauto)]

/-- An issue that writes its team and then runs the release checks of masks. -/
theorem State.finish_masks (s : State) (iss : Issue) (T : Team) (ns : List Nat) :
    s.finish iss [] { st := s.setTeam iss.team T, masks := ns } =
      (s.setTeam iss.team (T.issuedBy iss { st := s })).checkMasks iss.team ns := by
  rw [State.finish_clean _ _ _ rfl rfl]
  simp only [Bool.false_eq_true, if_false, State.team_setTeam_self, State.setTeam_setTeam]
  rfl

/-- The masks from `d` to 11. -/
def masksFrom (d : Nat) : List Nat := (List.range 12).filter fun n => d ≤ n

theorem mem_masksFrom (d n : Nat) : n ∈ masksFrom d ↔ d ≤ n ∧ n ≤ 11 := by
  simp only [masksFrom, List.mem_filter, List.mem_range, decide_eq_true_eq]
  omega

theorem execStrike_of_issued {s : State} {iss : Issue} {o : S32} (h : Issued s iss (.strike o)) :
    exec (.strike o) s = .next ((s.setTeam iss.team (((s.team iss.team).strike (actives s iss) (masksFrom o.d.toNat)).issuedBy iss
      { st := s })).checkMasks iss.team (masksFrom o.d.toNat)) :=
  (runInstr_of_issued h _).trans (congrArg _ (State.finish_masks s iss _ _))

/-- Settles O12: the forms by lane are `cmpInstr`s and the whole-mask forms `wholeMask`s; STRIKE by `Team.getLsbD_strike`. -/
theorem maskWrites : Obligations.MaskWrites := by
  unfold Obligations.MaskWrites
  refine ⟨fun o => ?enrol, fun o => ?leave, fun o => ?kset, ?whole, fun o => ?kact, fun o s iss h => ?strike⟩
  case enrol =>
    exact givesMask_of_cmpInstr (f := fun _ _ => true) (fun _ => rfl) rfl fun s iss L => by by_cases hL : Act s iss L <;> simp [hL]
  case leave =>
    exact givesMask_of_cmpInstr (f := fun _ _ => false) (fun _ => rfl) rfl fun s iss L => by by_cases hL : Act s iss L <;> simp [hL]
  case kset => exact givesMask_of_cmpInstr (f := fun c L => rd32 c.team L c.form 1 != 0) (fun _ => rfl) rfl fun _ _ _ => rfl
  case whole =>
    simp only [List.forall_mem_cons, List.not_mem_nil, false_imp_iff, implies_true, and_true]
    refine ⟨fun _ => givesWholeMask_of_wholeMask (fun _ => rfl) rfl fun _ _ _ _ => rfl,
      fun _ => givesWholeMask_of_wholeMask (fun _ => rfl) rfl fun s iss L hL => ?not,
      fun _ => givesWholeMask_of_wholeMask (fun _ => rfl) rfl fun _ _ _ _ => BitVec.getLsbD_and,
      fun _ => givesWholeMask_of_wholeMask (fun _ => rfl) rfl fun _ _ _ _ => BitVec.getLsbD_or,
      fun _ => givesWholeMask_of_wholeMask (fun _ => rfl) rfl fun _ _ _ _ => BitVec.getLsbD_xor,
      fun _ => givesWholeMask_of_wholeMask (fun _ => rfl) rfl fun s iss L hL => ?andn⟩
    case not =>
      rw [BitVec.getLsbD_not, decide_eq_true hL, Bool.true_and]
      rfl
    case andn =>
      rw [BitVec.getLsbD_and, BitVec.getLsbD_not, decide_eq_true hL, Bool.true_and]
      rfl
  case kact => exact givesWholeMask_of_wholeMask (fun _ => rfl) rfl fun s iss L hL => getLsbD_maskOf _ hL
  case strike =>
    refine ⟨_, execStrike_of_issued h, maskFrame_issuedBy (Team.strike_masksOnly _ _ _) fun n hn => ?stay,
      fun n L hlow hhigh hL => ?bits⟩
    case stay => exact Team.kreg_strike_of_not_mem _ _ _ fun hin => hn ((mem_masksFrom _ _).mp hin)
    case bits =>
      rw [State.team_setTeam_self, Team.issuedBy_kreg, Team.getLsbD_strike _ _ _ _ hL]
      by_cases hact : Act s iss L <;> simp [mem_masksFrom, hlow, hhigh, hact, kbit]

/-! ### Predicates (08 R203) -/

/-- PRED and PRED.NOT set each lane's predicate, and every lane goes on. -/
theorem predInstr_of_issued {i : Instr} {inv : Bool} (hx : ∀ s, exec i s = predInstr i inv s) {s : State} {iss : Issue}
    (h : Issued s iss i) : ∃ t, exec i s = .next t ∧ TeamFrame s t iss id fun L l =>
      { goneOn iss l with pend := decide (Act s iss L) && (kbit s iss i.form.a.field.toNat L != inv) } := by
  refine ⟨_, (hx s).trans ((runInstr_of_issued h _).trans (congrArg _ (State.finish_clean _ _ _ rfl rfl))),
    teamFrame_of_after rfl rfl (fun _ => rfl) fun L hL l => ?_⟩
  have hidle : Effect.Idle
      { st := s, off := iss.group.filter fun M => !((actives s iss).contains M && (kbit s iss i.form.a.field.toNat M != inv)) }
      s iss.team := ⟨.inl rfl, rfl⟩
  refine (hidle.after l iss L).trans ?_
  simp only [List.contains_eq_mem, List.mem_filter, hL, true_and, Bool.decide_eq_true, Bool.not_not]

/-! ### Joins (08 R212) -/

/-- A lane that waits where it stands. -/
def waitsHere (w : Wait) (l : Lane) : Lane := { l with st := .waiting w, pend := true }

/-- The effect of an arrival of lanes `ls` at mask `d`. -/
def arrives (st : State) (ls : List Nat) (w : Wait) (d : Nat) : Effect :=
  { st := st, waits := ls.map fun L => (L, w), masks := [d], check := true }

theorem Lane.after_arrives (l : Lane) (iss : Issue) (st : State) (ls : List Nat) (w : Wait) (d L : Nat) :
    l.after iss.pc (nextPc iss.pc iss.len) (arrives st ls w d) L = if L ∈ ls then waitsHere w l else goneOn iss l := by
  have hlookup : (arrives st ls w d).waits.lookup L = if L ∈ ls then some w else none := lookup_map_lane ls (fun _ => w) L
  by_cases hL : L ∈ ls
  · rw [if_pos hL] at hlookup ⊢
    simp only [Lane.after, hlookup]
    rfl
  · rw [if_neg hL] at hlookup ⊢
    simp only [Lane.after, hlookup]
    rfl

theorem State.finish_arrives (s w : State) (iss : Issue) (ls : List Nat) (wt : Wait) (d : Nat) :
    s.finish iss [] (arrives w ls wt d) =
      ((w.setTeam iss.team ((w.team iss.team).issuedBy iss (arrives w ls wt d))).checkMask iss.team d).checkDead iss.team := by
  rw [State.finish_clean _ _ _ rfl rfl]
  rfl

/-- The same where of the enrolled lanes some find no room in the log and take a fault. -/
def arrivesBut (s : State) (tn : Nat) (enrolled : List Nat) (faults : List (Nat × FaultInfo)) (w : Wait) (d : Nat) : Effect :=
  let ls := enrolled.filter fun L => (faults.lookup L).isNone
  { arrives (s.gives tn ls) ls w d with faults := faults }

theorem arrivesBut_nil (s : State) (tn : Nat) (ls : List Nat) (w : Wait) (d : Nat) :
    arrivesBut s tn ls [] w d = arrives (s.gives tn ls) ls w d := by
  have hall : ls.filter (fun L => (([] : List (Nat × FaultInfo)).lookup L).isNone) = ls := List.filter_eq_self.mpr fun _ _ => rfl
  rw [arrivesBut, hall]
  rfl

/-- The fault of a lane that finds no room for the entry of the release of mask `d`. -/
def roomFault (s : State) (iss : Issue) (d L : Nat) : Option FaultInfo :=
  s.logNeed iss.team L (dieOfCore (s.team iss.team).core) .order (if (s.team iss.team).atMask d = [] then 1 else 0)

theorem waitMask_of_issued {i : Instr} (w : List Nat → Wait) {s : State} {iss : Issue} (h : Issued s iss i) :
    let d := i.form.d.field.toNat
    let ls := (actives s iss).filter fun L => kbit s iss d L
    waitMask i w s = .next (s.finish iss [] (arrivesBut s iss.team ls
      (ls.filterMap fun L => (roomFault s iss d L).map fun e => (L, e)) (w (s.unacked iss.team)) d)) :=
  runInstr_of_issued h _

/-- JOIN and WAITK where the release has room in the log: the enrolled Active lanes wait, and the others go on. -/
theorem waitMask_waits {i : Instr} {w : List Nat → Wait} (hx : ∀ s, exec i s = waitMask i w s) {s : State} {iss : Issue}
    (h : Issued s iss i) {d : Nat} (hd : i.form.d.field.toNat = d)
    (hroom : ∀ L, Act s iss L → kbit s iss d L = true → roomFault s iss d L = none) :
    ∃ t, exec i s = .next ((t.checkMask iss.team d).checkDead iss.team) ∧
      TeamFrame (s.gives iss.team ((actives s iss).filter fun L => kbit s iss d L)) t iss id fun L l =>
        if Act s iss L ∧ kbit s iss d L then waitsHere (w (s.unacked iss.team)) l else goneOn iss l := by
  subst hd
  have hnone : ((actives s iss).filter fun L => kbit s iss i.form.d.field.toNat L).filterMap
      (fun L => (roomFault s iss i.form.d.field.toNat L).map fun e => (L, e)) = [] := by
    refine List.filterMap_eq_nil_iff.mpr fun L hL => ?_
    obtain ⟨hact, hbit⟩ := List.mem_filter.mp hL
    rw [hroom L hact hbit]
    rfl
  have hrun := (hx s).trans (waitMask_of_issued w h)
  rw [hnone, arrivesBut_nil, State.finish_arrives] at hrun
  refine ⟨_, hrun, teamFrame_of_after rfl rfl (fun _ => rfl) fun L _ l => ?_⟩
  simp only [Lane.after_arrives, List.mem_filter]

/-! ### The statement -/

/-- Settles O13: PRED and PRED.NOT by `predInstr_of_issued`, JOIN and WAITK by `waitMask_waits`. -/
theorem predicationAndJoins : Obligations.PredicationAndJoins := by
  unfold Obligations.PredicationAndJoins
  refine ⟨⟨fun o s iss h => ?pred, fun o s iss h => ?predNot, fun s iss h => ?nop⟩, ?joins⟩
  case pred =>
    obtain ⟨t, hrun, hframe⟩ := predInstr_of_issued (inv := false) (fun _ => rfl) h
    simp only [Bool.bne_false] at hframe
    exact ⟨t, hrun, hframe⟩
  case predNot =>
    obtain ⟨t, hrun, hframe⟩ := predInstr_of_issued (inv := true) (fun _ => rfl) h
    simp only [Bool.bne_true] at hframe
    exact ⟨t, hrun, hframe⟩
  case nop =>
    exact ⟨_, (runInstr_of_issued h _).trans (congrArg _ (State.finish_clean _ _ _ rfl rfl)), teamFrame_still s iss⟩
  case joins =>
    intro room waits
    exact ⟨fun o s iss h hroom => waitMask_waits (fun _ => rfl) h rfl hroom,
      fun o s iss h hroom => waitMask_waits (fun _ => rfl) h rfl hroom⟩

end Sys2Proof.Machine
end

section
/-! PROOFS of the statement of EXIT (O18): lanes that end and leave every mask, and the walk that ends with a team. -/
namespace Sys2Proof.Machine
open Sys2Proof.Claims

/-! ### Lanes that leave every mask (08 R207) -/

/-- Masks that a list of distinct numbers names lose the bits of `w`, the others stay. -/
theorem Team.kreg_fold_clear (w : Dbl) (ns : List Nat) (t : Team) (hn : ns.Nodup) (m : Nat) :
    (ns.foldl (fun t n => t.setK n (t.kreg n &&& ~~~w)) t).kreg m = if m ∈ ns then t.kreg m &&& ~~~w else t.kreg m := by
  induction ns generalizing t with
  | nil => simp
  | cons a r ih =>
    obtain ⟨ha, hr⟩ := List.nodup_cons.mp hn
    rw [List.foldl_cons, ih _ hr, Team.kreg_setK]
    by_cases hm : m = a
    · subst hm
      simp [ha]
    · simp [hm]

theorem masksOnly_fold_clear (w : Dbl) (ns : List Nat) (t : Team) :
    MasksOnly t (ns.foldl (fun t n => t.setK n (t.kreg n &&& ~~~w)) t) := by
  induction ns generalizing t with
  | nil => exact ⟨_, rfl⟩
  | cons a r ih => exact (masksOnly_setK t a _).trans (ih _)

theorem Team.strikeAll_masksOnly (t : Team) (ls : List Nat) : MasksOnly t (t.strikeAll ls) := masksOnly_fold_clear _ _ _

theorem Team.kreg_strikeAll (t : Team) (ls : List Nat) {n : Nat} (hn : n < 12) :
    (t.strikeAll ls).kreg n = t.kreg n &&& ~~~(maskOf ls) :=
  (Team.kreg_fold_clear _ _ _ List.nodup_range _).trans (if_pos (List.mem_range.mpr hn))

theorem Team.getLsbD_strikeAll (t : Team) (ls : List Nat) {n L : Nat} (hn : n < 12) (hL : L < 64) :
    ((t.strikeAll ls).kreg n).getLsbD L = ((t.kreg n).getLsbD L && !decide (L ∈ ls)) := by
  rw [Team.kreg_strikeAll t ls hn, BitVec.getLsbD_and, BitVec.getLsbD_not, getLsbD_maskOf _ hL, decide_eq_true hL, Bool.true_and]

/-- A mask changes where a lane that leaves is enrolled. -/
theorem Team.kreg_strikeAll_ne_iff (t : Team) (ls : List Nat) {n : Nat} (hn : n < 12) :
    (t.strikeAll ls).kreg n ≠ t.kreg n ↔ ∃ L, L < 64 ∧ (t.kreg n).getLsbD L = true ∧ L ∈ ls := by
  rw [← not_iff_not, not_not, BitVec.eq_of_getLsbD_eq_iff]
  simp only [not_exists, not_and]
  refine forall₂_congr fun L hL => ?_
  rw [Team.getLsbD_strikeAll t ls hn hL]
  by_cases hls : L ∈ ls <;> cases (t.kreg n).getLsbD L <;> simp [hls]

/-! ### EXIT -/

/-- The end of a team's walk and a store of the team do not touch each other. -/
theorem State.dropWalk_setTeam (s : State) (tn : Nat) (T : Team) (hcore : T.core = (s.team tn).core) :
    (s.setTeam tn T).dropWalk tn = (s.dropWalk tn).setTeam tn T := by
  have hsame : ((s.setTeam tn T).team tn).core = (s.team tn).core := by rw [State.team_setTeam_self, hcore]
  by_cases hown : (s.core (s.team tn).core).walker.owner = tn + 1
  · rw [State.dropWalk_of_own hown, State.dropWalk_of_own (by rw [hsame]; exact hown), hsame]
    rfl
  · rw [State.dropWalk_of_other hown, State.dropWalk_of_other (by rw [hsame]; exact hown)]

/-- The effect by which the lanes `ls` end. -/
def exits (st : State) (ls masks : List Nat) : Effect := { st := st, exits := ls, masks := masks, bars := true, check := true }

/-- A lane that has ended. -/
def ended (l : Lane) : Lane := { l with st := .exited, watch := .none, trap := false, pend := true }

theorem Lane.after_exits (l : Lane) (iss : Issue) (st : State) (ls masks : List Nat) (L : Nat) :
    l.after iss.pc (nextPc iss.pc iss.len) (exits st ls masks) L = if L ∈ ls then ended l else goneOn iss l := by
  have hcontains : (exits st ls masks).exits.contains L = decide (L ∈ ls) := List.contains_eq_mem _ _
  by_cases hL : L ∈ ls
  · rw [decide_eq_true hL] at hcontains
    simp only [Lane.after, hcontains, if_pos hL]
    rfl
  · rw [decide_eq_false hL] at hcontains
    simp only [Lane.after, hcontains, if_neg hL]
    rfl

theorem State.finish_exits (s w : State) (iss : Issue) (T : Team) (ls masks : List Nat) :
    s.finish iss [] (exits (w.setTeam iss.team T) ls masks) =
      (((w.setTeam iss.team (T.issuedBy iss (exits w ls masks))).checkMasks iss.team masks).checkBars T.block).checkDead iss.team := by
  rw [State.finish_clean _ _ _ rfl rfl]
  simp only [exits, State.team_setTeam_self, State.setTeam_setTeam, if_true]
  rfl

/-- No lane of the team is left once the Active lanes have ended. -/
def lastEnds (s : State) (iss : Issue) : Bool :=
  (List.range 64).all fun L => ((s.team iss.team).lane L).isExited || decide (Act s iss L)

/-- The masks that the end of the Active lanes changes. -/
def masksLeft (s : State) (iss : Issue) : List Nat :=
  (List.range 12).filter fun n => (List.range 64).any fun L => kbit s iss n L && decide (Act s iss L)

theorem live_all_contains (s : State) (iss : Issue) :
    (s.team iss.team).live.all (actives s iss).contains = lastEnds s iss := by
  rw [Bool.eq_iff_iff]
  simp only [lastEnds, Team.live, laneList, List.all_eq_true, List.mem_filter, Bool.not_eq_true', List.contains_iff_mem,
    Bool.or_eq_true, decide_eq_true_eq, and_imp]
  refine forall₂_congr fun L _ => ?_
  cases ((s.team iss.team).lane L).isExited <;> simp

theorem masksLeft_eq (s : State) (iss : Issue) : (List.range 12).filter (fun n =>
    ((s.team iss.team).strikeAll (actives s iss)).kreg n != (s.team iss.team).kreg n) = masksLeft s iss := by
  refine List.filter_congr fun n hn => ?_
  rw [Bool.eq_iff_iff, bne_iff_ne, Team.kreg_strikeAll_ne_iff _ _ (List.mem_range.mp hn)]
  simp only [List.any_eq_true, List.mem_range, Bool.and_eq_true, decide_eq_true_eq, kbit]

theorem execExit_of_issued {s : State} {iss : Issue} (h : Issued s iss .exit) (hact : actives s iss ≠ []) :
    exec .exit s = .next (s.finish iss [] (exits ((if lastEnds s iss then s.dropWalk iss.team else s).setTeam iss.team
      ((s.team iss.team).strikeAll (actives s iss))) (actives s iss) (masksLeft s iss))) := by
  have hbars : ∀ st masks, exits st (actives s iss) masks = { exits st (actives s iss) masks with bars := actives s iss != [] } :=
    fun _ _ => by
      rw [bne_iff_ne.mpr hact]
      rfl
  have hcore : ((s.team iss.team).strikeAll (actives s iss)).core = (s.team iss.team).core := by
    obtain ⟨k, hk⟩ := Team.strikeAll_masksOnly (s.team iss.team) (actives s iss)
    rw [hk]
  rw [apply_ite (State.setTeam · iss.team _), ← State.dropWalk_setTeam s iss.team _ hcore, ← live_all_contains, ← masksLeft_eq,
    hbars]
  exact runInstr_of_issued h _

/-- Settles O18: the effect of EXIT is `execExit_of_issued`'s, whose lanes end and leave every mask. -/
theorem exitEndsLanes : Obligations.ExitEndsLanes := by
  unfold Obligations.ExitEndsLanes
  intro s iss h hact T last changed
  obtain ⟨k, hk⟩ := Team.strikeAll_masksOnly T (actives s iss)
  have hblock : (T.strikeAll (actives s iss)).block = T.block := by rw [hk]
  have hrun := execExit_of_issued h hact
  rw [State.finish_exits, hblock] at hrun
  refine ⟨_, hrun, ?only, fun L => ?lane, fun n L hn hL => ?bits, fun L n => ?vreg⟩
  case only => rw [State.team_setTeam_self]; rfl
  case lane =>
    have hlane : (T.strikeAll (actives s iss)).lane L = T.lane L := by rw [hk]; rfl
    rw [State.team_setTeam_self, Team.issuedBy_lane, Lane.after_exits, hlane]
    by_cases hL : Act s iss L
    · have hgroup : L < 64 ∧ L ∈ iss.group := ⟨List.mem_range.mp (List.mem_of_mem_filter hL), actives_subset_group hL⟩
      rw [if_pos hgroup, if_pos hL, if_pos hL]
      rfl
    · rw [if_neg hL, if_neg hL]
  case bits =>
    rw [State.team_setTeam_self, Team.issuedBy_kreg, Team.getLsbD_strikeAll _ _ hn hL]
    rfl
  case vreg =>
    rw [State.team_setTeam_self, Team.issuedBy_vreg, hk]
    rfl

end Sys2Proof.Machine
end

section
/-! PROOFS of the statement of the release check of a mask (O29): which lanes it frees, and what of their team it changes. -/
namespace Sys2Proof.Machine
open Sys2Proof.Claims

/-! ### The lanes at a mask (08 R211, R213) -/

/-- The lane waits at a JOIN of mask `n`. -/
def Lane.joins (l : Lane) (n : Nat) : Prop := ∃ a, l.st = .waiting (.join n a)
/-- The lane waits at a WAITK of mask `n`. -/
def Lane.waitsK (l : Lane) (n : Nat) : Prop := ∃ a, l.st = .waiting (.waitk n a)

/-- The wait is a JOIN's, of whatever mask. -/
def Wait.isJoin (w : Wait) : Bool := match w with | .join _ _ => true | _ => false

theorem Team.mem_atMask (t : Team) (n L : Nat) : L ∈ t.atMask n ↔ L < 64 ∧ ((t.lane L).joins n ∨ (t.lane L).waitsK n) := by
  rw [Team.atMask, List.mem_filter, mem_laneList, Lane.waitsAt, Lane.joins, Lane.waitsK]
  refine and_congr_right fun _ => ?_
  cases (t.lane L).st with
  | ready | exited => simp
  | waiting w => cases w <;> simp

/-- Of the lanes at a mask, those that wait at a JOIN are those whose wait is a JOIN's. -/
theorem Lane.joins_iff_waitsAt {l : Lane} {n : Nat} (h : l.joins n ∨ l.waitsK n) : l.joins n ↔ l.waitsAt Wait.isJoin = true := by
  rcases h with ⟨a, ha⟩ | ⟨a, ha⟩ <;> simp [Lane.joins, Lane.waitsAt, Wait.isJoin, ha]

/-- The lanes that a release check frees: all at the mask where every enrolled lane is there, else those not enrolled. -/
theorem Team.mem_maskFrees (t : Team) (n L : Nat) : L ∈ t.maskFrees n ↔
    L ∈ t.atMask n ∧ ((∀ M, M < 64 → (t.kreg n).getLsbD M = true → M ∈ t.atMask n) ∨ (t.kreg n).getLsbD L = false) := by
  have hall : (laneList.all fun M => !t.kbit n M || (t.atMask n).contains M) = true ↔
      ∀ M, M < 64 → (t.kreg n).getLsbD M = true → M ∈ t.atMask n := by
    simp only [List.all_eq_true, mem_laneList, Bool.or_eq_true, Bool.not_eq_true', List.contains_iff_mem, Team.kbit]
    refine forall₂_congr fun M _ => ?_
    cases (t.kreg n).getLsbD M <;> simp
  by_cases hthere : ∀ M, M < 64 → (t.kreg n).getLsbD M = true → M ∈ t.atMask n
  · rw [Team.maskFrees, if_pos (hall.mpr hthere)]
    tauto
  · rw [Team.maskFrees, if_neg (mt hall.mp hthere), List.mem_filter, Bool.not_eq_true', Team.kbit]
    tauto

theorem Team.maskFrees_nodup (t : Team) (n : Nat) : (t.maskFrees n).Nodup := by
  have hat : (t.atMask n).Nodup := laneList_nodup.filter _
  simp only [Team.maskFrees]
  split
  · exact hat
  · exact hat.filter _

/-- A lane that a release check frees waits at a JOIN of this mask, if it waits at a JOIN. -/
theorem Team.joins_iff_of_freed {t : Team} {n L : Nat} (h : L ∈ t.maskFrees n) :
    (t.lane L).joins n ↔ (t.lane L).waitsAt Wait.isJoin = true := by
  obtain ⟨hat, -⟩ := (t.mem_maskFrees n L).mp h
  obtain ⟨-, hwaits⟩ := (t.mem_atMask n L).mp hat
  exact Lane.joins_iff_waitsAt hwaits

/-! ### Releasing lanes -/

/-- The release of one lane. -/
def Team.freeLane (n : Nat) (t : Team) (L : Nat) : Team :=
  (if (t.lane L).waitsAt Wait.isJoin then t.setKbit n L false else t).setLane L ((t.lane L).release 1)

theorem Team.freeMask_eq_foldl (t : Team) (n : Nat) (ls : List Nat) : t.freeMask n ls = (ls.foldl (Team.freeLane n) t).refresh := rfl

/-- The team `W` differs from `T` in masks, lanes and the service list only. -/
def ReleaseOnly (T W : Team) : Prop := W = { T with k := W.k, lanes := W.lanes, service := W.service }

theorem ReleaseOnly.trans {T U W : Team} (hTU : ReleaseOnly T U) (hUW : ReleaseOnly U W) : ReleaseOnly T W := by
  rw [ReleaseOnly] at hTU hUW ⊢
  rw [hTU] at hUW
  exact hUW

theorem Team.freeLane_releaseOnly (n : Nat) (t : Team) (L : Nat) : ReleaseOnly t (t.freeLane n L) := by
  unfold Team.freeLane ReleaseOnly
  split <;> rfl

theorem Team.lane_freeLane (n : Nat) (t : Team) (L M : Nat) :
    (t.freeLane n L).lane M = if M = L then (t.lane L).release 1 else t.lane M := by
  have hmask : (if (t.lane L).waitsAt Wait.isJoin then t.setKbit n L false else t).lane M = t.lane M := by split <;> rfl
  rw [Team.freeLane, Team.lane_setLane, hmask]

theorem Team.kreg_freeLane_ne (n : Nat) (t : Team) (L : Nat) {m : Nat} (h : m ≠ n) : (t.freeLane n L).kreg m = t.kreg m := by
  rw [Team.freeLane, Team.kreg_setLane]
  split
  · exact (Team.kreg_setK _ _ _ _).trans (if_neg h)
  · rfl

theorem Team.getLsbD_freeLane (n : Nat) (t : Team) (L : Nat) {M : Nat} (hM : M < 64) : ((t.freeLane n L).kreg n).getLsbD M =
    if M = L ∧ (t.lane M).waitsAt Wait.isJoin = true then false else (t.kreg n).getLsbD M := by
  rw [Team.freeLane, Team.kreg_setLane]
  by_cases hjoin : (t.lane L).waitsAt Wait.isJoin = true
  · rw [if_pos hjoin, Team.setKbit, Team.kreg_setK_self, getLsbD_setBit _ _ _ hM]
    by_cases hML : M = L
    · subst hML
      simp [hjoin]
    · simp [hML]
  · rw [if_neg hjoin, if_neg]
    rintro ⟨rfl, h⟩
    exact hjoin h

section
variable (n : Nat) (ls : List Nat) (t : Team)

theorem Team.foldl_freeLane_releaseOnly : ReleaseOnly t (ls.foldl (Team.freeLane n) t) := by
  induction ls generalizing t with
  | nil => rfl
  | cons a r ih => exact (Team.freeLane_releaseOnly n t a).trans (ih _)

theorem Team.kreg_foldl_freeLane_ne {m : Nat} (h : m ≠ n) : (ls.foldl (Team.freeLane n) t).kreg m = t.kreg m := by
  induction ls generalizing t with
  | nil => rfl
  | cons a r ih => rw [List.foldl_cons, ih, Team.kreg_freeLane_ne n t a h]

variable {ls} (hn : ls.Nodup)
include hn

theorem Team.lane_foldl_freeLane (M : Nat) :
    (ls.foldl (Team.freeLane n) t).lane M = if M ∈ ls then (t.lane M).release 1 else t.lane M := by
  induction ls generalizing t with
  | nil => simp
  | cons a r ih =>
    obtain ⟨ha, hr⟩ := List.nodup_cons.mp hn
    rw [List.foldl_cons, ih _ hr, Team.lane_freeLane]
    by_cases hM : M = a
    · subst hM
      simp [ha]
    · simp [hM]

/-- Each lane of the list that waits at a JOIN loses its bit of the mask; the other bits stay. -/
theorem Team.getLsbD_foldl_freeLane {M : Nat} (hM : M < 64) : ((ls.foldl (Team.freeLane n) t).kreg n).getLsbD M =
    if M ∈ ls ∧ (t.lane M).waitsAt Wait.isJoin = true then false else (t.kreg n).getLsbD M := by
  induction ls generalizing t with
  | nil => simp
  | cons a r ih =>
    obtain ⟨ha, hr⟩ := List.nodup_cons.mp hn
    rw [List.foldl_cons, ih _ hr, Team.lane_freeLane, Team.getLsbD_freeLane n t a hM]
    by_cases hMa : M = a
    · subst hMa
      simp [ha]
    · simp [hMa]

end

/-- The hold of lanes whose arrivals wait for `ids`. -/
def Lane.heldFor (l : Lane) (ids : List Nat) : Lane := { l with hold := if ids = [] then l.hold else .freed ids }

theorem Team.holdFreed_releaseOnly (t : Team) (ls ids : List Nat) : ReleaseOnly t (t.holdFreed ls ids) := by
  unfold Team.holdFreed ReleaseOnly
  split
  · rfl
  · rw [Team.mapLanes_eq]

theorem Team.holdFreed_lane (t : Team) {ls : List Nat} (ids : List Nat) (hn : ls.Nodup) (M : Nat) :
    (t.holdFreed ls ids).lane M = if M ∈ ls then (t.lane M).heldFor ids else t.lane M := by
  by_cases hids : ids = []
  · rw [Team.holdFreed, if_pos hids, Lane.heldFor, if_pos hids, ite_self]
  · rw [Team.holdFreed, if_neg hids, Team.mapLanes_lane _ _ _ hn, Lane.heldFor, if_neg hids]

theorem Team.holdFreed_kreg (t : Team) (ls ids : List Nat) (m : Nat) : (t.holdFreed ls ids).kreg m = t.kreg m := by
  unfold Team.holdFreed
  split
  · rfl
  · exact Team.mapLanes_kreg _ _ _ _

/-! ### The release check -/

/-- The team once the release check of mask `n` has freed its lanes, whose arrivals wait for `due`. -/
def Team.released (t : Team) (n : Nat) (due : List Nat) : Team := (t.freeMask n (t.maskFrees n)).holdFreed (t.maskFrees n) due

section
variable (t : Team) (n : Nat) (due : List Nat)

theorem Team.released_releaseOnly : ReleaseOnly t (t.released n due) :=
  (Team.foldl_freeLane_releaseOnly n (t.maskFrees n) t).trans
    (.trans (Team.refresh_eq _) (Team.holdFreed_releaseOnly _ _ _))

theorem Team.released_lane (M : Nat) : (t.released n due).lane M =
    if M ∈ t.maskFrees n then ((t.lane M).release 1).heldFor due else t.lane M := by
  have hn := t.maskFrees_nodup n
  rw [Team.released, Team.holdFreed_lane _ _ hn, Team.freeMask_eq_foldl, Team.refresh_lane, Team.lane_foldl_freeLane n t hn]
  split <;> rfl

theorem Team.released_kreg_ne {m : Nat} (h : m ≠ n) : (t.released n due).kreg m = t.kreg m := by
  rw [Team.released, Team.holdFreed_kreg, Team.freeMask_eq_foldl, Team.refresh_kreg, Team.kreg_foldl_freeLane_ne n _ t h]

theorem Team.getLsbD_released {M : Nat} (hM : M < 64) : ((t.released n due).kreg n).getLsbD M =
    if M ∈ t.maskFrees n ∧ (t.lane M).waitsAt Wait.isJoin = true then false else (t.kreg n).getLsbD M := by
  rw [Team.released, Team.holdFreed_kreg, Team.freeMask_eq_foldl, Team.refresh_kreg,
    Team.getLsbD_foldl_freeLane n t (t.maskFrees_nodup n) hM]

end

section
variable {s : State} {tn n : Nat}

theorem State.checkMask_of_none_freed (h : (s.team tn).maskFrees n = []) : s.checkMask tn n = s := by
  simp [State.checkMask, h]

/-- Outside deterministic mode the check releases the lanes that it frees, which is an acquire of their core. -/
theorem State.checkMask_of_freed (hdet : s.det (s.team tn).block = false) (h : (s.team tn).maskFrees n ≠ []) :
    s.checkMask tn n = ((({ s with l1 := s.l1.filter fun e => e.core != (s.team tn).core || e.owned } : State).setTeam tn
      ((s.team tn).released n (s.arrivalsDue (s.team tn) ((s.team tn).maskFrees n)))).learnNow tn ((s.team tn).maskFrees n)
      (((s.team tn).maskFrees n).foldl (fun m L => SMap.join m ((s.team tn).lane L).gave) ([] : SMap Nat))) := by
  simp only [State.checkMask, hdet, h, Bool.false_and, Bool.false_eq_true, if_false]
  rfl

end

/-- Settles O29: the lanes freed are `Team.mem_maskFrees`'s, and the team is left as `Team.released`. -/
theorem maskRelease : Obligations.MaskRelease := by
  unfold Obligations.MaskRelease
  intro s tn n _ T k joins waits all freed hdet t
  have hwaits : ∀ L, waits L ↔ L ∈ T.atMask n := fun L => (T.mem_atMask n L).symm
  have hfreed : ∀ L, freed L ↔ L ∈ T.maskFrees n := fun L => by
    simp only [freed, all, hwaits]
    exact (T.mem_maskFrees n L).symm
  refine ⟨fun hnone => ?none, fun hsome => ?some⟩
  case none => exact State.checkMask_of_none_freed (List.eq_nil_iff_forall_not_mem.mpr fun L => mt (hfreed L).mpr (hnone L))
  case some =>
    intro u clock due
    obtain ⟨L₀, hL₀⟩ := hsome
    refine ⟨T.released n due, State.checkMask_of_freed hdet (List.ne_nil_of_mem ((hfreed L₀).mp hL₀)),
      T.released_releaseOnly n due, fun L hL => ?lane, fun L hL => ?other, fun L hlt => ⟨fun hjoin => ?cleared, fun hkeep => ?kept⟩,
      fun m hm => T.released_kreg_ne n due hm⟩
    case lane =>
      rw [T.released_lane, if_pos ((hfreed L).mp hL)]
      rfl
    case other => rw [T.released_lane, if_neg (mt (hfreed L).mpr hL)]
    case cleared =>
      obtain ⟨hfree, hjoins⟩ := hjoin
      rw [hfreed] at hfree
      exact (T.getLsbD_released n due hlt).trans (if_pos ⟨hfree, (Team.joins_iff_of_freed hfree).mp hjoins⟩)
    case kept =>
      rw [hfreed] at hkeep
      refine (T.getLsbD_released n due hlt).trans (if_neg fun ⟨hfree, hwait⟩ => hkeep ⟨hfree, ?_⟩)
      exact (Team.joins_iff_of_freed hfree).mpr hwait

end Sys2Proof.Machine
end

section
/-! PROOFS of the statement of the memories' canonical form (O59): the rules. A function that writes no memory leaves
`State.memWf` as it is (an equation, for `simp`); one that writes memory, through the stores of Laws/Memory, takes a state in
canonical form to one. -/
namespace Sys2Proof.Machine

/-- The canonical form speaks of the four memories alone. -/
theorem State.memWf_congr {s t : State} (e : t.mems = s.mems) : t.memWf = s.memWf := by
  simp only [State.mems, Prod.mk.injEq] at e
  obtain ⟨hhbm, hvaults, hhost, hremote⟩ := e
  simp only [State.memWf, hhbm, hvaults, hhost, hremote]

/-- With `State.wf_and_wf`: a record update that writes no memory keeps the canonical form. -/
@[simp] theorem State.memWf_mk {agenda stamp fresh marks crossings cycle floor dev pf funcs queues yards arbiter jobs
    phases ended runs nextRun stalls blocks teams cores hbm vaults host remote arenas unsettled gens owners units l1
    ilines tlines tlb walks answers reserved accesses pairs engines emissions remoteOut remoteIn sent flits cutFlits
    pendingTraps referrals nextReferral policy ports dropped posted raised cur} :
    (State.mk agenda stamp fresh marks crossings cycle floor dev pf funcs queues yards arbiter jobs phases ended runs
      nextRun stalls blocks teams cores hbm vaults host remote arenas unsettled gens owners units l1 ilines tlines tlb
      walks answers reserved accesses pairs engines emissions remoteOut remoteIn sent flits cutFlits pendingTraps
      referrals nextReferral policy ports dropped posted raised cur).memWf =
      (Memory.wf hbm && Memory.wf vaults && Memory.wf host && Memory.wf remote) := rfl

@[simp] theorem State.wf_and_wf (s : State) :
    (Memory.wf s.hbm && Memory.wf s.vaults && Memory.wf s.host && Memory.wf s.remote) = s.memWf := rfl

@[simp] theorem State.memWf_ite (c : Prop) [Decidable c] (s t : State) :
    (if c then s else t).memWf = if c then s.memWf else t.memWf := apply_ite State.memWf c s t

@[simp] theorem State.memWf_foldl_of_eq {α : Type} {f : State → α → State} (hf : ∀ s a, (f s a).memWf = s.memWf)
    (l : List α) (s : State) :
    (l.foldl f s).memWf = s.memWf := by
  induction l generalizing s with
  | nil => rfl
  | cons a r ih => rw [List.foldl_cons, ih, hf]

/-- A fold that carries a value beside the state. -/
theorem State.memWf_foldl_fst {α β : Type} (f : State × β → α → State × β)
    (hf : ∀ x a, x.1.memWf = true → (f x a).1.memWf = true) (l : List α) (x : State × β) (h : x.1.memWf = true) :
    (l.foldl f x).1.memWf = true := by
  induction l generalizing x with
  | nil => exact h
  | cons a r ih => exact ih _ (hf x a h)

theorem State.memWf_foldl_fst_of_eq {α β : Type} {f : State × β → α → State × β}
    (hf : ∀ x a, (f x a).1.memWf = x.1.memWf) (l : List α) (x : State × β) :
    (l.foldl f x).1.memWf = x.1.memWf := by
  induction l generalizing x with
  | nil => rfl
  | cons a r ih => exact (ih _).trans (hf x a)

theorem State.memWf_if {c : Prop} [Decidable c] {s t : State} (hs : s.memWf = true) (ht : t.memWf = true) :
    (if c then s else t).memWf = true := by split <;> assumption

/-- The next state that an outcome has, if any, has its memories in canonical form. -/
def KeepsMemWf (o : Host.Outcome State Fault Refusal) : Prop := ∀ t, o = .next t → t.memWf = true

@[simp] theorem keepsMemWf_next (s : State) : KeepsMemWf (.next s) ↔ s.memWf = true := by simp [KeepsMemWf]

@[simp] theorem keepsMemWf_fault (f : Fault) : KeepsMemWf (.fault f) := by simp [KeepsMemWf]

@[simp] theorem keepsMemWf_ite (c : Prop) [Decidable c] (a b : Host.Outcome State Fault Refusal) :
    KeepsMemWf (if c then a else b) ↔ if c then KeepsMemWf a else KeepsMemWf b := by split <;> rfl

@[simp] theorem State.setFunc_memWf (s : State) (f : Nat) (v : Func) : (s.setFunc f v).memWf = s.memWf :=
  State.memWf_congr (State.setFunc_mems _ _ _)

@[simp] theorem State.setQueue_memWf (s : State) (q : Nat) (v : Queue) : (s.setQueue q v).memWf = s.memWf :=
  State.memWf_congr (State.setQueue_mems _ _ _)

@[simp] theorem State.setYard_memWf (s : State) (d : Nat) (v : Yard) : (s.setYard d v).memWf = s.memWf :=
  State.memWf_congr (State.setYard_mems _ _ _)

@[simp] theorem State.setRun_memWf (s : State) (r : Nat) (v : Run) : (s.setRun r v).memWf = s.memWf :=
  State.memWf_congr (State.setRun_mems _ _ _)

@[simp] theorem State.setStall_memWf (s : State) (r node : Nat) (v : Stall) :
    (s.setStall r node v).memWf = s.memWf := State.memWf_congr (State.setStall_mems _ _ _ _)

@[simp] theorem State.setBlock_memWf (s : State) (b : Nat) (v : Block) : (s.setBlock b v).memWf = s.memWf :=
  State.memWf_congr (State.setBlock_mems _ _ _)

@[simp] theorem State.setTeam_memWf (s : State) (t : Nat) (v : Team) : (s.setTeam t v).memWf = s.memWf :=
  State.memWf_congr (State.setTeam_mems _ _ _)

@[simp] theorem State.setCore_memWf (s : State) (n : Nat) (v : Core) : (s.setCore n v).memWf = s.memWf :=
  State.memWf_congr (State.setCore_mems _ _ _)

@[simp] theorem State.tellUnit_memWf (s : State) (n u : Nat) : (s.tellUnit n u).memWf = s.memWf :=
  State.memWf_congr (State.tellUnit_mems _ _ _)

@[simp] theorem State.tellCore_memWf (s : State) (u n : Nat) : (s.tellCore u n).memWf = s.memWf :=
  State.memWf_congr (State.tellCore_mems _ _ _)

@[simp] theorem State.raise_memWf (s : State) (f v : Nat) : (s.raise f v).memWf = s.memWf :=
  State.memWf_congr (State.raise_mems _ _ _)

@[simp] theorem State.callHome_memWf (s : State) (core : Nat) (t : Target) : (s.callHome core t).memWf = s.memWf :=
  State.memWf_congr (State.callHome_mems _ _ _)

@[simp] theorem State.trigger_memWf (s : State) (line : Nat) : (s.trigger line).memWf = s.memWf :=
  State.memWf_congr (State.trigger_mems _ _)

@[simp] theorem State.l1Room_memWf (s : State) (core line : Nat) : (s.l1Room core line).memWf = s.memWf :=
  State.memWf_congr (State.l1Room_mems _ _ _)

@[simp] theorem State.own_memWf (s : State) (who ts : Nat) (keep : Bool) (w : Nat) :
    (s.own who ts keep w).memWf = s.memWf := State.memWf_congr (State.own_mems _ _ _ _ _)

@[simp] theorem State.acquire_memWf (s : State) (core : Nat) : (s.acquire core).memWf = s.memWf :=
  State.memWf_congr (State.acquire_mems _ _)

@[simp] theorem State.dropSector_memWf (s : State) (core sector : Nat) :
    (s.dropSector core sector).memWf = s.memWf := State.memWf_congr (State.dropSector_mems _ _ _)

@[simp] theorem State.raiseAfter_memWf (s : State) (f v : Nat) : (s.raiseAfter f v).memWf = s.memWf :=
  State.memWf_congr (State.raiseAfter_mems _ _ _)

@[simp] theorem State.policyFault_memWf (s : State) (p : PolicyRun) : (s.policyFault p).memWf = s.memWf :=
  State.memWf_congr (State.policyFault_mems _ _)

@[simp] theorem State.closeUnits_memWf (s : State) (unit : Nat) : (s.closeUnits unit).memWf = s.memWf :=
  State.memWf_congr (State.closeUnits_mems _ _)

/-- `State.bbEvent_memWf` as an equation. -/
@[simp] theorem State.bbEvent_memWf_eq (s : State) (d k v : Nat) : (s.bbEvent d k v).memWf = s.memWf :=
  State.memWf_congr (State.bbEvent_mems _ _ _ _)

end Sys2Proof.Machine
end

section
/-! PROOFS of the statement of the memories' canonical form (O59): every function of the state and
every instruction that a turn runs, in the order of the model. -/
namespace Sys2Proof.Machine

/-! ### Free values -/

@[simp] theorem State.take_memWf (s : State) : s.take.2.memWf = s.memWf := rfl

/-! ### Numeric events -/

@[simp] theorem State.countEvents_memWf (s : State) (b : Nat) (es : List Nat) :
    (s.countEvents b es).memWf = s.memWf := by
  unfold State.countEvents
  split <;> simp

/-! ### Memory blocks -/

@[simp] theorem State.dropRegions_memWf (s : State) : s.dropRegions.memWf = s.memWf := rfl

/-! ### Blocks, faults, masks and barriers; the frame of an instruction -/

@[simp] theorem State.noteArena_memWf (s : State) (ag : Agent) (a n v : Nat) :
    (s.noteArena ag a n v).memWf = s.memWf := by simp [State.noteArena]

@[simp] theorem State.releasePoint_memWf (s : State) (tn : Nat) (ls : List Nat) :
    (s.releasePoint tn ls).memWf = s.memWf := by simp [State.releasePoint]

@[simp] theorem State.gives_memWf (s : State) (tn : Nat) (ls : List Nat) : (s.gives tn ls).memWf = s.memWf := by
  simp [State.gives]

@[simp] theorem State.learn_memWf (s : State) (tn : Nat) (ls : List Nat) (ins : Nat) (clock : SMap Nat) :
    (s.learn tn ls ins clock).memWf = s.memWf := by simp [State.learn]

@[simp] theorem State.learnNow_memWf (s : State) (tn : Nat) (ls : List Nat) (clock : SMap Nat) :
    (s.learnNow tn ls clock).memWf = s.memWf := by simp [State.learnNow]

@[simp] theorem State.learnHeard_memWf (s : State) (tn : Nat) (ls : List Nat) :
    (s.learnHeard tn ls).memWf = s.memWf := by simp [State.learnHeard]

@[simp] theorem State.stopReport_memWf (s : State) (b : Nat) (i : StopInfo) (h : s.memWf = true) :
    (s.stopReport b i).memWf = true := by
  unfold State.stopReport
  simp only [State.bbEvent_memWf_eq, State.memWf_ite]
  split
  · simp [h]
  · split
    · simp [h]
    · next e => simp [State.devWrite_memWf _ _ _ _ _ _ (by simpa using h) e]

@[simp] theorem State.unlock_memWf (s : State) (core op : Nat) : (s.unlock core op).memWf = s.memWf := rfl

@[simp] theorem State.dropWalk_memWf (s : State) (tn : Nat) : (s.dropWalk tn).memWf = s.memWf := by
  simp [State.dropWalk]

@[simp] theorem State.discardHeld_memWf (s : State) (b : Nat) : (s.discardHeld b).memWf = s.memWf := rfl

@[simp] theorem State.latchCrossing_memWf (s : State) (f x : Nat) : (s.latchCrossing f x).memWf = s.memWf := rfl

@[simp] theorem State.raiseCrossing_memWf (s : State) (f : Nat) : (s.raiseCrossing f).memWf = s.memWf := by
  simp [State.raiseCrossing]

@[simp] theorem State.eventCrossing_memWf (s : State) (f node i old new : Nat) :
    (s.eventCrossing f node i old new).memWf = s.memWf := by simp [State.eventCrossing]

@[simp] theorem State.clearCrossing_memWf (s : State) (f : Nat) : (s.clearCrossing f).memWf = s.memWf := by
  simp [State.clearCrossing]

@[simp] theorem State.addEvent_memWf (s : State) (f node i n : Nat) (h : s.memWf = true) :
    (s.addEvent f node i n).memWf = true := by
  unfold State.addEvent
  dsimp only
  split <;> simp [State.reach_memWf, State.poke_memWf, h]

@[simp] theorem State.addEvents_memWf (s : State) (b : Nat) (h : s.memWf = true) : (s.addEvents b).memWf = true := by
  simp +contextual [State.addEvents, State.memWf_foldl, h]

@[simp] theorem State.dropPending_memWf (s : State) (b : Nat) : (s.dropPending b).memWf = s.memWf := rfl

@[simp] theorem State.haltBlock_memWf (s : State) (b reason : Nat) (h : s.memWf = true) :
    (s.haltBlock b reason).memWf = true := by simp [State.haltBlock, h]

@[simp] theorem State.stopBlock_memWf (s : State) (b : Nat) (i : StopInfo) (h : s.memWf = true) :
    (s.stopBlock b i).memWf = true := by simp [State.stopBlock, h]

@[simp] theorem State.heard_memWf (s : State) (tn L : Nat) (t : Target) (n : Nat) :
    (s.heard tn L t n).memWf = s.memWf := by simp [State.heard]

@[simp] theorem State.readNow_memWf (s : State) (tn L : Nat) (t : Target) (n : Nat) (h : s.memWf = true) :
    (s.readNow tn L t n).1.memWf = true := by
  unfold State.readNow
  cases t <;> dsimp only
  case hbm => split <;> simp [h, State.reach_memWf]
  all_goals simp [h]

@[simp] theorem State.doubleFault_memWf (s : State) (tn L : Nat) (sub cause : Nat) (hpc tpc taddr : Dbl)
    (tinfo : Word) (h : s.memWf = true) :
    (s.doubleFault tn L sub cause hpc tpc taddr tinfo).memWf = true := by simp [State.doubleFault, h]

@[simp] theorem State.refer_memWf (s : State) (mode die func : Nat) (a0 a1 : Dbl) (cont : List (BitVec 256))
    (obj obj2 : Nat) :
    (s.refer mode die func a0 a1 cont obj obj2).memWf = s.memWf := rfl

@[simp] theorem State.postReferral_memWf (s : State) (r : Referral) (h : s.memWf = true) :
    (s.postReferral r).memWf = true := by
  simp [State.postReferral, State.assistEntry_memWf, State.assistCont_memWf, h]

@[simp] theorem State.postAll_memWf (s : State) (rs : List Referral) (h : s.memWf = true) :
    (s.postAll rs).memWf = true := by
  induction rs generalizing s with
  | nil => exact h
  | cons r rest ih => exact State.memWf_if (ih _ (State.postReferral_memWf s r h)) (State.postReferral_memWf s r h)

@[simp] theorem State.postWaiting_memWf (s : State) (h : s.memWf = true) : s.postWaiting.memWf = true := by
  simp [State.postWaiting, h]

@[simp] theorem State.referWalk_memWf (s : State) (ag : Agent) (e : FaultInfo) (h : s.memWf = true) :
    (s.referWalk ag e).memWf = true := by simp [State.referWalk, h]

@[simp] theorem State.waitFor_memWf (s : State) (ag : Agent) (e : FaultInfo) (h : s.memWf = true) :
    (s.waitFor ag e).memWf = true := by simp [State.waitFor, h]

@[simp] theorem State.waitAll_memWf (s : State) (tn : Nat) (fs : List (Nat × FaultInfo)) (h : s.memWf = true) :
    (s.waitAll tn fs).memWf = true := by simp +contextual [State.waitAll, State.memWf_foldl, h]

@[simp] theorem State.dropAnswers_memWf (s : State) (tn : Nat) (asked : List Nat) :
    (s.dropAnswers tn asked).memWf = s.memWf := rfl

@[simp] theorem State.pruneAnswers_memWf (s : State) : s.pruneAnswers.memWf = s.memWf := rfl

@[simp] theorem State.defaultHandler_memWf (s : State) (tn L : Nat) (e : FaultInfo) (h : s.memWf = true) :
    (s.defaultHandler tn L e).memWf = true := by simp [State.defaultHandler, h]

@[simp] theorem State.saveTrap_memWf (s : State) (tn L : Nat) (e : FaultInfo) (pc next : Dbl) :
    (s.saveTrap tn L e pc next).memWf = s.memWf := rfl

@[simp] theorem State.enterTrap_memWf (s : State) (tn L : Nat) (e : FaultInfo) (pc : Dbl) (back : Lane)
    (h : s.memWf = true) :
    (s.enterTrap tn L e pc back).memWf = true := by
  unfold State.enterTrap
  dsimp only
  refine State.memWf_if (State.defaultHandler_memWf _ _ _ _ h) ?_
  split
  · exact State.memWf_if (State.waitFor_memWf _ _ _ h) (State.doubleFault_memWf _ _ _ _ _ _ _ _ _ h)
  · next target _ =>
    have hs := State.readNow_memWf s tn L target 8 h
    exact State.memWf_if h (State.memWf_if (State.defaultHandler_memWf _ _ _ _ hs)
      (State.memWf_if (State.doubleFault_memWf _ _ _ _ _ _ _ _ _ hs) hs))

@[simp] theorem State.takeFault_memWf (s : State) (tn L : Nat) (e : FaultInfo) (pc next : Dbl) (h : s.memWf = true) :
    (s.takeFault tn L e pc next).memWf = true := by simp [State.takeFault, h]

@[simp] theorem State.takeAll_memWf (s : State) (tn : Nat) (fs : List (Nat × FaultInfo × Dbl × Dbl))
    (h : s.memWf = true) :
    (s.takeAll tn fs).memWf = true := by simp +contextual [State.takeAll, State.memWf_foldl, h]

@[simp] theorem State.takeFaults_memWf (s : State) (tn : Nat) (fs : List (Nat × FaultInfo)) (pc next : Dbl)
    (h : s.memWf = true) :
    (s.takeFaults tn fs pc next).memWf = true := by simp [State.takeFaults, h]

@[simp] theorem State.checkMask_memWf (s : State) (tn n : Nat) (h : s.memWf = true) :
    (s.checkMask tn n).memWf = true := by simp [State.checkMask, State.orderLog_memWf, h]

@[simp] theorem State.endFreed_memWf (s : State) (tn : Nat) : (s.endFreed tn).memWf = s.memWf := by
  unfold State.endFreed
  dsimp only
  split <;> simp

@[simp] theorem State.endAllFreed_memWf (s : State) : s.endAllFreed.memWf = s.memWf := by simp [State.endAllFreed]

@[simp] theorem State.checkMasks_memWf (s : State) (tn : Nat) (ns : List Nat) (h : s.memWf = true) :
    (s.checkMasks tn ns).memWf = true := by simp +contextual [State.checkMasks, State.memWf_foldl, h]

@[simp] theorem State.checkBar_memWf (s : State) (b bar : Nat) (h : s.memWf = true) :
    (s.checkBar b bar).memWf = true := by
  unfold State.checkBar
  dsimp only
  refine State.memWf_if h (State.memWf_if (State.orderLog_memWf _ _ _ _ _ _ _ ?_) ?_)
  all_goals
    rw [State.acquire_memWf, State.memWf_foldl_of_eq
      (fun _ _ => (State.learnNow_memWf _ _ _ _).trans (State.setTeam_memWf _ _ _)), State.setBlock_memWf, h]

@[simp] theorem State.checkBars_memWf (s : State) (b : Nat) (h : s.memWf = true) : (s.checkBars b).memWf = true := by
  simp +contextual [State.checkBars, State.memWf_foldl, h]

@[simp] theorem State.checkDead_memWf (s : State) (tn : Nat) (h : s.memWf = true) :
    (s.checkDead tn).memWf = true := by simp [State.checkDead, h]

@[simp] theorem State.recheck_memWf (s : State) (tn : Nat) (h : s.memWf = true) : (s.recheck tn).memWf = true :=
  State.checkDead_memWf _ _ (State.checkBars_memWf _ _ (State.checkMasks_memWf _ _ _ h))

@[simp] theorem State.finish_memWf (s0 : State) (iss : Issue) (rows : List (Nat × FaultInfo)) (e : Effect)
    (h : s0.memWf = true) (he : e.st.memWf = true) :
    (s0.finish iss rows e).memWf = true := by
  unfold State.finish
  extract_lets faults
  split
  · exact State.waitAll_memWf _ _ _ h
  · refine State.memWf_if h ?_
    refine State.memWf_if (State.checkDead_memWf _ _ ?_) ?_
    all_goals
      refine State.memWf_if (State.checkBars_memWf _ _ ?_) ?_
    all_goals
      refine State.checkMasks_memWf _ _ _ (State.takeFaults_memWf _ _ _ _ _ ?_)
      exact State.memWf_if he ((State.dropAnswers_memWf _ _ _).trans he)

@[simp] theorem State.issueInstr_memWf (s : State) (iss : Issue) (i : Instr) (body : Ctx → Effect)
    (hb : ∀ c, (body c).st.memWf = true) (h : s.memWf = true) :
    (s.issueInstr iss i body).memWf = true := State.finish_memWf _ _ _ _ h (hb _)

theorem runInstr_keepsMemWf (i : Instr) (s : State) (body : Ctx → Effect) (hb : ∀ c, (body c).st.memWf = true)
    (h : s.memWf = true) :
    KeepsMemWf (runInstr i s body) := by
  unfold runInstr
  split
  · exact keepsMemWf_fault _
  · exact (keepsMemWf_next _).mpr (State.issueInstr_memWf _ _ _ _ hb h)

theorem teamEffect_memWf (s : State) (c : Ctx) (f : Nat → Effect) (hf : ∀ m, (f m).st.memWf = true)
    (h : s.memWf = true) :
    (teamEffect s c f).st.memWf = true := by
  unfold teamEffect
  split
  · exact h
  · exact hf _

theorem laneInstr_keepsMemWf (i : Instr) (s : State) (f : Ctx → Nat → Team → Team) (h : s.memWf = true) :
    KeepsMemWf (laneInstr i s f) := runInstr_keepsMemWf _ _ _ (fun _ => h) h

/-! ### Policies -/

theorem npbInstr_keepsMemWf (s : State) (f : PolicyRun → State) (hf : ∀ p, (f p).memWf = true) (h : s.memWf = true) :
    KeepsMemWf (npbInstr s f) := by
  intro t e
  unfold npbInstr at e
  split at e <;> cases e
  exact State.memWf_if h (hf _)

theorem npbAlu_keepsMemWf (o : NpbOp) (s : State) (f : Dbl → Dbl → Dbl) (h : s.memWf = true) :
    KeepsMemWf (npbAlu o s f) := npbInstr_keepsMemWf s _ (fun _ => h) h

theorem execNpbLds_keepsMemWf (o : NpbOp) (s : State) (h : s.memWf = true) : KeepsMemWf (execNpbLds o s) :=
  npbInstr_keepsMemWf _ _ (fun _ => State.memWf_if ((State.policyFault_memWf _ _).trans h) h) h

theorem execNpbSts_keepsMemWf (o : NpbOp) (s : State) (h : s.memWf = true) : KeepsMemWf (execNpbSts o s) :=
  npbInstr_keepsMemWf _ _ (fun _ => State.memWf_if ((State.policyFault_memWf _ _).trans h) h) h

theorem execNpbLdv_keepsMemWf (o : NpbOp) (s : State) (h : s.memWf = true) : KeepsMemWf (execNpbLdv o s) :=
  npbInstr_keepsMemWf _ _ (fun _ => State.memWf_if ((State.policyFault_memWf _ _).trans h) h) h

theorem npbBranch_keepsMemWf (o : NpbOp) (s : State) (c : Dbl → Dbl → Bool) (h : s.memWf = true) :
    KeepsMemWf (npbBranch o s c) := npbInstr_keepsMemWf s _ (fun _ => h) h

theorem State.policyStep_keepsMemWf (s : State) (h : s.memWf = true) : KeepsMemWf s.policyStep :=
  fun t e =>
  (State.memWf_congr (s.policyStep_mems t e)).trans h

theorem execSlice_keepsMemWf (f : Nat) (s : State) (h : s.memWf = true) : KeepsMemWf (execSlice f s) := by
  refine (keepsMemWf_next _).mpr (State.memWf_if ?_ ?_)
  all_goals exact (State.memWf_congr (State.policyEvent_mems _ _ _ _)).trans h

/-! ### Queues -/

@[simp] theorem State.queueError_memWf (s : State) (q : Nat) : (s.queueError q).memWf = s.memWf := rfl

theorem execQueueReexamine_keepsMemWf (q : Nat) (s : State) (h : s.memWf = true) :
    KeepsMemWf (execQueueReexamine q s) := by simp [execQueueReexamine, h, State.examine_memWf]

@[simp] theorem State.writeTail_memWf (s : State) (q : Nat) (v : Dbl) (h : s.memWf = true) :
    (s.writeTail q v).memWf = true := by simp [State.writeTail, State.examine_memWf, h]

@[simp] theorem State.writeQstat_memWf (s : State) (q v : Nat) : (s.writeQstat q v).memWf = s.memWf := rfl

@[simp] theorem State.badDoorbell_memWf (s : State) (q : Nat) : (s.badDoorbell q).memWf = s.memWf := rfl

@[simp] theorem State.doorWrite_memWf (s : State) (q o n : Nat) (v : Nat) (h : s.memWf = true) :
    (s.doorWrite q o n v).memWf = true := by simp [State.doorWrite, h]

theorem execTailWrite_keepsMemWf (f j : Nat) (v : Dbl) (s : State) (h : s.memWf = true) :
    KeepsMemWf (execTailWrite f j v s) := by simp [execTailWrite, h]

theorem execDoorbellBadWrite_keepsMemWf (f j : Nat) (s : State) (h : s.memWf = true) :
    KeepsMemWf (execDoorbellBadWrite f j s) := by simp [execDoorbellBadWrite, h]

@[simp] theorem State.mirrorHead_memWf (s : State) (q : Nat) (h : s.memWf = true) :
    (s.mirrorHead q).memWf = true := by simp [State.mirrorHead, h, State.devWrite_getD_memWf]

theorem execHeadMirrorWrite_keepsMemWf (q : Nat) (s : State) (h : s.memWf = true) :
    KeepsMemWf (execHeadMirrorWrite q s) := by simp [execHeadMirrorWrite, h]

@[simp] theorem State.completionRecord_memWf (s : State) (f : Nat) (p : Packet) (seq outcome gstatus vector : Nat)
    (h : s.memWf = true) :
    (s.completionRecord f p seq outcome gstatus vector).memWf = true := by
  simp [State.completionRecord, h, State.devWrite_getD_memWf]

/-! ### Cuts -/

@[simp] theorem State.leaveCore_memWf (s : State) (b : Nat) : (s.leaveCore b).memWf = s.memWf := by
  simp [State.leaveCore]

@[simp] theorem State.saveTeam_memWf (s : State) (tn : Nat) (mask : Option Word) :
    (s.saveTeam tn mask).memWf = s.memWf := by simp [State.saveTeam]

@[simp] theorem State.savePark_memWf (s : State) (tn : Nat) : (s.savePark tn).memWf = s.memWf := by
  simp [State.savePark]

@[simp] theorem State.keepWalk_memWf (s : State) (tn : Nat) : (s.keepWalk tn).memWf = s.memWf := by
  simp [State.keepWalk]

@[simp] theorem State.blockSaved_memWf (s : State) (b : Nat) : (s.blockSaved b).memWf = s.memWf := by
  simp [State.blockSaved]

@[simp] theorem State.phintSave_memWf (s : State) (tn : Nat) (mask : Word) (ranges : List (Nat × Nat)) (all : Bool) :
    (s.phintSave tn mask ranges all).memWf = s.memWf := by simp [State.phintSave]

@[simp] theorem State.fullSaveTeam_memWf (s : State) (tn kind : Nat) : (s.fullSaveTeam tn kind).memWf = s.memWf := by
  simp [State.fullSaveTeam]

theorem execPhint_keepsMemWf (o : X96) (s : State) (h : s.memWf = true) : KeepsMemWf (execPhint o s) := by
  unfold execPhint
  dsimp only
  split <;> simp [h]

theorem execFullSave_keepsMemWf (t : Nat) (s : State) (h : s.memWf = true) : KeepsMemWf (execFullSave t s) := by
  simp [execFullSave, h]

/-! ### Memory instructions -/

@[simp] theorem State.stampSc_memWf (s : State) (core b : Nat) (a lane : Nat) (h : s.memWf = true) :
    (s.stampSc core b a lane).1.memWf = true := by simp [State.stampSc, State.orderLog_memWf, h]

@[simp] theorem State.stampAll_memWf (s : State) (h : s.memWf = true) : s.stampAll.memWf = true := by
  unfold State.stampAll
  refine State.memWf_foldl _ (fun s e hs => ?_) _ _ (State.memWf_foldl _ (fun s x hs => ?_) _ _ h)
  all_goals exact State.memWf_if (State.stampSc_memWf _ _ _ _ _ hs) hs

theorem Effect.memWf_if {c : Prop} [Decidable c] {a b : Effect} (ha : a.st.memWf = true) (hb : b.st.memWf = true) :
    (if c then a else b).st.memWf = true := by split <;> assumption

theorem memInstr_keepsMemWf (i : Instr) (o : M64) (m : MemOp) (s : State) (h : s.memWf = true) :
    KeepsMemWf (memInstr i o m s) := by
  refine runInstr_keepsMemWf _ _ _ (fun c => Effect.memWf_if h (Effect.memWf_if h (State.stampAll_memWf _ ?_))) h
  exact State.memWf_if ((State.releasePoint_memWf _ _ _).trans h) h

theorem execWaitc_keepsMemWf (o : X96) (s : State) (h : s.memWf = true) : KeepsMemWf (execWaitc o s) :=
  runInstr_keepsMemWf _ _ _ (fun _ => Effect.memWf_if h h) h

theorem execWaitw_keepsMemWf (o : S32) (s : State) (h : s.memWf = true) : KeepsMemWf (execWaitw o s) :=
  runInstr_keepsMemWf _ _ _ (fun _ => Effect.memWf_if h h) h

theorem execWaitwTimeout_keepsMemWf (t lane : Nat) (s : State) (h : s.memWf = true) :
    KeepsMemWf (execWaitwTimeout t lane s) := by
  unfold execWaitwTimeout
  dsimp only
  split <;> simp [h]

theorem execFenceAcq_keepsMemWf (s : State) (h : s.memWf = true) : KeepsMemWf (execFenceAcq s) :=
  runInstr_keepsMemWf _ _ _ (fun _ => teamEffect_memWf _ _ _
    (fun _ => Effect.memWf_if h ((State.learnHeard_memWf _ _ _).trans h)) h) h

theorem execFenceSc_keepsMemWf (s : State) (h : s.memWf = true) : KeepsMemWf (execFenceSc s) := by
  refine runInstr_keepsMemWf _ _ _ (fun _ => teamEffect_memWf _ _ _ (fun _ => ?_) h) h
  exact Effect.memWf_if h (Effect.memWf_if h (State.stampAll_memWf _ h))

theorem execFenceTbl_keepsMemWf (s : State) (h : s.memWf = true) : KeepsMemWf (execFenceTbl s) :=
  runInstr_keepsMemWf _ _ _ (fun _ => teamEffect_memWf _ _ _
    (fun _ => Effect.memWf_if h ((State.learnHeard_memWf _ _ _).trans h)) h) h

/-! ### Tiles and range locks -/

theorem State.engineRead_memWf {s : State} {b : Nat} {ag : Agent} {a n : Nat} {t : State} {v : Nat}
    (e : s.engineRead b ag a n = .ok (t, v)) (h : s.memWf = true) :
    t.memWf = true := by
  unfold State.engineRead at e
  split at e
  · cases e
  · next target _ =>
    have hs := State.reach_memWf _ target ((State.callHome_memWf s (s.team ag.who.team).core target).trans h)
    dsimp only at e
    split at e <;> cases e <;> exact hs

@[simp] theorem State.engineWrite_memWf (s : State) (b : Nat) (core : Nat) (ag : Agent) (a : Nat) (t : Target)
    (n v : Nat) (h : s.memWf = true) :
    (s.engineWrite b core ag a t n v).memWf = true := by
  unfold State.engineWrite
  split <;> simp [State.poke_memWf, State.reach_memWf, h]

theorem State.readElem_memWf {s : State} {b : Nat} {ag : Agent} {m : Handle} {i j : Nat} {t : State} {v : Nat}
    (e : s.readElem b ag m i j = .ok (t, v)) (h : s.memWf = true) :
    t.memWf = true := by
  unfold State.readElem at e
  cases hr : s.engineRead b ag (m.addr i j) ((fmtBits m.fmt + 7) / 8) with
  | error y => simp only [hr, reduceCtorEq] at e
  | ok y =>
    simp only [hr, Except.ok.injEq, Prod.mk.injEq] at e
    exact e.1 ▸ State.engineRead_memWf (v := y.2) hr h

@[simp] theorem State.lockRange_memWf (s : State) (core : Nat) (ag : Agent) (op first last : Nat) (dst : Bool) :
    (s.lockRange core ag op first last dst).memWf = s.memWf := rfl

/-! ### Copies -/

theorem copyInstr_keepsMemWf (i : Instr) (s : State) (shape : Ctx → Nat → Nat × Nat × Int × Int) (h : s.memWf = true) :
    KeepsMemWf (copyInstr i s shape) := by
  refine runInstr_keepsMemWf _ _ _ (fun c => teamEffect_memWf _ _ _ (fun m => Effect.memWf_if h ?_) h) h
  split
  · exact h
  · refine Effect.memWf_if h ?_
    dsimp only
    split
    · exact h
    · exact Effect.memWf_if h (by simp [h])

theorem State.copySource_memWf (s : State) (c : Copy) (ag : Agent) (i n : Nat) (h : s.memWf = true) :
    (s.copySource c ag i n).1.memWf = true := by
  induction n generalizing s i with
  | zero => exact h
  | succ k ih =>
    unfold State.copySource
    split
    · exact h
    · next hr => exact ih _ _ (State.engineRead_memWf hr h)

theorem execCopyStart_keepsMemWf (core tag : Nat) (s : State) (h : s.memWf = true) :
    KeepsMemWf (execCopyStart core tag s) := by
  unfold execCopyStart
  dsimp only
  split
  · exact (keepsMemWf_next _).mpr h
  · split
    · exact (keepsMemWf_next _).mpr (State.waitFor_memWf _ _ _ h)
    · refine (keepsMemWf_next _).mpr ((State.setCore_memWf _ _ _).trans ?_)
      split
      · exact State.copySource_memWf _ _ _ _ _ h
      · exact h

theorem State.copyByte_memWf (s : State) (core tag : Nat) (c : Copy) (h : s.memWf = true) :
    (s.copyByte core tag c).1.memWf = true := by
  unfold State.copyByte
  dsimp only
  split
  · split
    · exact State.waitFor_memWf _ _ _ h
    · exact (State.dropAnswers_memWf _ _ _).trans h
  · next t v hr =>
    have ht : t.memWf = true := by
      split at hr
      · split at hr
        · cases hr; exact h
        · cases hr
        · exact State.engineRead_memWf hr h
      · exact State.engineRead_memWf hr h
    split
    · split
      · exact State.waitFor_memWf _ _ _ ht
      · exact (State.dropAnswers_memWf _ _ _).trans ht
    · split
      · exact ht
      · exact State.engineWrite_memWf _ _ _ _ _ _ _ _ ht

theorem State.copyBytes_memWf (s : State) (core tag : Nat) (c : Copy) (n : Nat) (h : s.memWf = true) :
    (s.copyBytes core tag c n).1.memWf = true := by
  induction n generalizing s c with
  | zero => exact h
  | succ k ih =>
    unfold State.copyBytes
    split
    · exact h
    · exact ih _ _ (State.copyByte_memWf s core tag c h)

@[simp] theorem State.copyMove_memWf (s : State) (core tag n : Nat) (h : s.memWf = true) :
    (s.copyMove core tag n).memWf = true := State.memWf_if h (State.copyBytes_memWf s core tag _ n h)

@[simp] theorem State.observe_memWf (s : State) (tn : Nat) (ls : List Nat) (m : Nat → Dbl) :
    (s.observe tn ls m).memWf = s.memWf := by simp [State.observe]

@[simp] theorem State.wakeTags_memWf (s : State) (tn : Nat) (h : s.memWf = true) :
    (s.wakeTags tn).1.memWf = true := by
  unfold State.wakeTags
  dsimp only
  split <;> simp [h]

@[simp] theorem State.wakeCore_memWf (s : State) (core : Nat) (h : s.memWf = true) :
    (s.wakeCore core).memWf = true := by
  simp only [State.wakeCore, State.memWf_ite, State.setCore_memWf, ite_self]
  refine State.memWf_foldl_fst _ (fun x tn hx => ?_) _ _ h
  exact State.wakeTags_memWf _ _ hx

theorem execCopyComplete_keepsMemWf (core tag : Nat) (s : State) (h : s.memWf = true) :
    KeepsMemWf (execCopyComplete core tag s) := by simp [execCopyComplete, h]

theorem twait_keepsMemWf (i : Instr) (all : Bool) (s : State) (h : s.memWf = true) : KeepsMemWf (twait i all s) :=
  runInstr_keepsMemWf _ _ _ (fun _ => (State.observe_memWf _ _ _ _).trans h) h

theorem execTfind_keepsMemWf (o : S32) (s : State) (h : s.memWf = true) : KeepsMemWf (execTfind o s) :=
  runInstr_keepsMemWf _ _ _ (fun _ => (State.observe_memWf _ _ _ _).trans h) h

/-! ### Floating point -/

theorem floatInstr_keepsMemWf (i : Instr) (s : State) (g : Ctx → Nat → Word × List Nat) (h : s.memWf = true) :
    KeepsMemWf (floatInstr i s g) := runInstr_keepsMemWf _ _ _ (fun _ => (State.countEvents_memWf _ _ _).trans h) h

theorem execCvt_keepsMemWf (o : L64) (s : State) (h : s.memWf = true) : KeepsMemWf (execCvt o s) :=
  runInstr_keepsMemWf _ _ _ (fun _ => (State.countEvents_memWf _ _ _).trans h) h

/-! ### Commutative updates -/

@[simp] theorem State.afterAck_memWf (s : State) (tn : Nat) (h : s.memWf = true) : (s.afterAck tn).memWf = true := by
  simp [State.afterAck, h]

theorem updInstr_keepsMemWf (i : Instr) (op : Nat) (s : State) (h : s.memWf = true) : KeepsMemWf (updInstr i op s) := by
  refine runInstr_keepsMemWf _ _ _ (fun c => ?_) h
  dsimp only
  exact Effect.memWf_if h (Effect.memWf_if h (State.memWf_if h h))

theorem execPairAccept_keepsMemWf (p : Nat) (s : State) (h : s.memWf = true) : KeepsMemWf (execPairAccept p s) := by
  unfold execPairAccept
  dsimp only
  split <;> simp [h]

@[simp] theorem State.penApply_memWf (s : State) (line : Nat) (h : s.memWf = true) :
    (s.penApply line).memWf = true := by simp [State.penApply, State.applyLine_memWf, h]

@[simp] theorem State.penEmpties_memWf (s : State) (pen : Nat) (h : s.memWf = true) :
    (s.penEmpties pen).memWf = true := by
  unfold State.penEmpties
  split <;> simp [h]

@[simp] theorem State.penFull_memWf (s : State) (pen : Nat) (h : s.memWf = true) : (s.penFull pen).memWf = true := by
  unfold State.penFull
  split <;> simp [h]

theorem execUpdflush_keepsMemWf (s : State) (h : s.memWf = true) : KeepsMemWf (execUpdflush s) :=
  runInstr_keepsMemWf _ _ _ (fun _ => teamEffect_memWf _ _ _ (fun _ => Effect.memWf_if h h) h) h

@[simp] theorem State.flushDone_memWf (s : State) (h : s.memWf = true) : s.flushDone.memWf = true := by
  simp +contextual [State.flushDone, State.memWf_foldl, h]

theorem execUpdclr_keepsMemWf (o : L64) (s : State) (h : s.memWf = true) : KeepsMemWf (execUpdclr o s) := by
  refine runInstr_keepsMemWf _ _ _ (fun _ => teamEffect_memWf _ _ _ (fun _ => ?_) h) h
  dsimp only
  split
  · exact h
  · exact h
  · exact Effect.memWf_if h h

/-! ### ZSCAN -/

@[simp] theorem State.startEngine_memWf (s : State) (c : Ctx) (kind : EngineKind) (op m : Nat) :
    (s.startEngine c kind op m).memWf = s.memWf := rfl

theorem execZscan_keepsMemWf (o : L64) (s : State) (h : s.memWf = true) : KeepsMemWf (execZscan o s) := by
  refine runInstr_keepsMemWf _ _ _ (fun _ => teamEffect_memWf _ _ _ (fun _ => ?_) h) h
  dsimp only
  split
  · exact h
  · refine Effect.memWf_if h ?_
    split
    · exact h
    · simp [h]
    · split
      · exact h
      · exact Effect.memWf_if h (by simp [h])

theorem State.recordWrite_memWf {s t : State} {e : Engine} {ag : Agent} {a n v : Nat}
    (he : s.recordWrite e ag a n v = .ok t) (h : s.memWf = true) :
    t.memWf = true := by
  have hw := fun (x : Target) => State.engineWrite_memWf s e.block e.core ag a x n v h
  unfold State.recordWrite at he
  split at he
  · cases he
  · split at he
    · cases he
    · split at he
      · split at he <;> cases he
        exact hw _
      · cases he
        exact hw _

theorem State.recordWrites_memWf (s : State) (e : Engine) (ag : Agent) (ws : List (Nat × Nat × Nat))
    (h : s.memWf = true) :
    (s.recordWrites e ag ws).1.memWf = true := by
  induction ws generalizing s with
  | nil => exact h
  | cons w r ih =>
    unfold State.recordWrites
    split
    · exact h
    · next hr => exact ih _ (State.recordWrite_memWf hr h)

theorem State.allZero_memWf {s : State} {b : Nat} {ag : Agent} {m : Handle} {es : List (Nat × Nat)} {t : State}
    {v : Bool} (e : s.allZero b ag m es = .ok (t, v)) (h : s.memWf = true) :
    t.memWf = true := by
  induction es generalizing s t v with
  | nil => cases e; exact h
  | cons p r ih =>
    unfold State.allZero at e
    split at e
    · cases e
    · next hr =>
      split at e
      · cases e
      · next hz => cases e; exact ih hz (State.readElem_memWf hr h)

theorem State.scanBlocks_memWf (s : State) (e : Engine) (ag : Agent) (m : Handle) (zr blk n : Nat)
    (h : s.memWf = true) :
    (s.scanBlocks e ag m zr blk n).1.memWf = true := by
  induction n generalizing s blk with
  | zero => exact h
  | succ k ih =>
    unfold State.scanBlocks
    dsimp only
    split
    · exact h
    · next hz =>
      have hs := State.allZero_memWf hz h
      split
      · exact hs
      · next hw => exact ih _ _ (State.recordWrite_memWf hw hs)

theorem State.scanRecord_memWf (s : State) (e : Engine) (ag : Agent) (m : Handle) (zr : Nat) (h : s.memWf = true) :
    (s.scanRecord e ag m zr).1.memWf = true := by
  have hb := State.scanBlocks_memWf s e ag m zr 0 m.blocks h
  unfold State.scanRecord
  split
  · next he => rwa [he] at hb
  · next he =>
    rw [he] at hb
    exact State.recordWrites_memWf _ _ _ _ hb

@[simp] theorem State.endEngine_memWf (s : State) (e : Engine) : (s.endEngine e).memWf = s.memWf := rfl

@[simp] theorem State.zscanEnd_memWf (s : State) (e : Engine) (ag : Agent) (d status : Nat) :
    (s.zscanEnd e ag d status).memWf = s.memWf := by simp [State.zscanEnd]

theorem execZscanComplete_keepsMemWf (id : Nat) (s : State) (h : s.memWf = true) :
    KeepsMemWf (execZscanComplete id s) := by
  unfold execZscanComplete
  split
  · exact (keepsMemWf_next _).mpr h
  · next e _ =>
    split
    · next m d early _ =>
      dsimp only
      have hw := State.recordWrites_memWf s e (e.agent s) [((s.func e.func).zflagAddr m.zfi + 0x10, 4, 0)] h
      have hs := State.scanRecord_memWf s e (e.agent s) m ((s.func e.func).zflagAddr m.zfi) h
      split
      · refine (keepsMemWf_next _).mpr ?_
        rw [State.blockSaved_memWf, State.endEngine_memWf]
        exact State.memWf_if h hw
      · split
        · simp [h]
        · split
          · exact (keepsMemWf_next _).mpr h
          · have hr : (if e.begun = true then s.scanRecord e (e.agent s) m ((s.func e.func).zflagAddr m.zfi) else
              s.recordWrites e (e.agent s) [((s.func e.func).zflagAddr m.zfi + 0x10, 4, 0)]).1.memWf = true := by
              split <;> assumption
            split
            · next heq => rw [heq] at hr; simp [h, hr]
            · next heq => rw [heq] at hr; simp [hr]
    · exact (keepsMemWf_next _).mpr h

/-! ### The matrix unit -/

@[simp] theorem State.product_memWf (s : State) (c : Ctx) (shape : Nat) (z : Bool) (f : Nat) (b : Nat → Nat → Num) :
    (s.product c shape z f b).memWf = s.memWf := by simp [State.product]

theorem mxmInstr_keepsMemWf (i : Instr) (shape : Nat) (s : State) (h : s.memWf = true) :
    KeepsMemWf (mxmInstr i shape s) := by
  refine runInstr_keepsMemWf _ _ _ (fun c => teamEffect_memWf _ _ _ (fun m => ?_) h) h
  dsimp only
  split
  · exact h
  · simp [h]

theorem execMxrd_keepsMemWf (o : L64) (s : State) (h : s.memWf = true) : KeepsMemWf (execMxrd o s) :=
  runInstr_keepsMemWf _ _ _ (fun _ => teamEffect_memWf _ _ _ (fun _ => (State.countEvents_memWf _ _ _).trans h) h) h

theorem execMxst_keepsMemWf (o : L64) (s : State) (h : s.memWf = true) : KeepsMemWf (execMxst o s) := by
  refine runInstr_keepsMemWf _ _ _ (fun _ => teamEffect_memWf _ _ _ (fun _ => Effect.memWf_if h ?_) h) h
  dsimp only
  split
  · exact h
  · exact Effect.memWf_if h (Effect.memWf_if h (by simp [h]))

theorem execMxstComplete_keepsMemWf (id : Nat) (s : State) (h : s.memWf = true) : KeepsMemWf (execMxstComplete id s) := by
  unfold execMxstComplete
  dsimp only
  split <;> simp [h]

theorem execMxskip_keepsMemWf (o : L64) (s : State) (h : s.memWf = true) : KeepsMemWf (execMxskip o s) := by
  refine runInstr_keepsMemWf _ _ _ (fun _ => teamEffect_memWf _ _ _ (fun _ => ?_) h) h
  dsimp only
  split
  · exact h
  · exact Effect.memWf_if h h

theorem State.nmvIssue_memWf (s : State) (core c o : Nat) (h : s.memWf = true) :
    (s.nmvIssue core c o).memWf = true := by
  refine State.setBfield_memWf _ _ _ _ _ _ (State.memWf_if ?_ h)
  exact State.setBfield_memWf _ _ _ _ _ _ (State.setBfield_memWf _ _ _ _ _ _ (State.setBfield_memWf _ _ _ _ _ _ h))

theorem execNmv_keepsMemWf (o : L64) (s : State) (h : s.memWf = true) : KeepsMemWf (execNmv o s) := by
  refine runInstr_keepsMemWf _ _ _ (fun _ => teamEffect_memWf _ _ _ (fun _ => Effect.memWf_if h ?_) h) h
  dsimp only
  split
  · exact h
  · refine Effect.memWf_if h ?_
    simp only [State.memWf_mk, State.wf_and_wf]
    exact State.nmvIssue_memWf _ _ _ _ (by simp [h])

theorem State.nmvBytes_memWf {s : State} {e : Engine} {ag : Agent} {opnd a n : Nat} {t : State} {v : Nat}
    (he : s.nmvBytes e ag opnd a n = .ok (t, v)) (h : s.memWf = true) :
    t.memWf = true := by
  induction n generalizing s a t v with
  | zero => cases he; exact h
  | succ k ih =>
    unfold State.nmvBytes at he
    split at he
    · cases he
    · split at he
      · cases he
      · split at he
        · cases he
        · cases he
        · dsimp only at he
          split at he
          · cases he
          · next hr =>
            cases he
            exact ih hr (State.reach_memWf _ _ (by simp [h]))

theorem State.nmvVector_memWf {s : State} {e : Engine} {ag : Agent} {xf size a n : Nat} {t : State} {v : List Num}
    (he : s.nmvVector e ag xf size a n = .ok (t, v)) (h : s.memWf = true) :
    t.memWf = true := by
  induction n generalizing s a t v with
  | zero => cases he; exact h
  | succ k ih =>
    unfold State.nmvVector at he
    split at he
    · cases he
    · next hb =>
      split at he
      · cases he
      · next hr => cases he; exact ih hr (State.nmvBytes_memWf hb h)

theorem State.nmvRow_memWf {s : State} {e : Engine} {ag : Agent} {m : Handle} {i j n : Nat} {t : State} {v : List Num}
    (he : s.nmvRow e ag m i j n = .ok (t, v)) (h : s.memWf = true) :
    t.memWf = true := by
  induction n generalizing s j t v with
  | zero => cases he; exact h
  | succ k ih =>
    unfold State.nmvRow at he
    split at he
    · cases he
    · next hb =>
      split at he
      · cases he
      · next hr => cases he; exact ih hr (State.readElem_memWf hb h)

theorem State.nmvRows_memWf (s : State) (e : Engine) (ag : Agent) (m : Handle) (y : Nat) (xs : List Num) (yf : Nat)
    (mode : Mode) (sat : Bool) (i n : Nat) (h : s.memWf = true) :
    (s.nmvRows e ag m y xs yf mode sat i n).1.memWf = true := by
  induction n generalizing s i with
  | zero => exact h
  | succ k ih =>
    unfold State.nmvRows
    dsimp only
    split
    · exact h
    · next hr =>
      have hs := State.nmvRow_memWf hr h
      split
      · exact hs
      · exact ih _ _ (State.memWf_foldl _ (fun t p ht => State.engineWrite_memWf t _ _ _ _ _ _ _ ht) _ _ hs)

@[simp] theorem State.setNmvField_memWf (s : State) (who b c o off v : Nat) (h : s.memWf = true) :
    (s.setNmvField who b c o off v).memWf = true := by simp [State.setNmvField, State.setBfield_memWf, h]

theorem State.wakeTroughs_memWf (s : State) (tn : Nat) (h : s.memWf = true) : (s.wakeTroughs tn).memWf = true := by
  refine State.takeAll_memWf _ _ _ (State.memWf_foldl_fst _ (fun x L hx => ?_) _ _ h)
  dsimp only
  split
  · split
    · exact hx
    · split <;> exact hx
  · exact hx

@[simp] theorem State.nmvFinish_memWf (s : State) (e : Engine) (c o : Nat) (err : Option NmvError)
    (h : s.memWf = true) :
    (s.nmvFinish e c o err).memWf = true := by
  have field (t : State) (off v : Nat) (ht : t.memWf = true) := State.setNmvField_memWf t (e.core + 1) e.block c o off
    v ht
  refine State.memWf_foldl _ (fun t tn ht => State.wakeTroughs_memWf t tn ht) _ _
    ((State.unlock_memWf _ _ _).trans ?_)
  refine State.memWf_if (field _ _ _ (field _ _ _ ?_)) (field _ _ _ ?_)
  all_goals
    split
    · exact State.memWf_if (field _ _ _ (field _ _ _ h)) h
    · exact h

theorem execNmvComplete_keepsMemWf (id : Nat) (s : State) (h : s.memWf = true) : KeepsMemWf (execNmvComplete id s) := by
  unfold execNmvComplete
  split
  · exact (keepsMemWf_next _).mpr h
  · split
    · dsimp only
      split
      · exact (keepsMemWf_next _).mpr h
      · split
        · exact (keepsMemWf_next _).mpr (State.memWf_if (State.waitFor_memWf _ _ _ h) (State.nmvFinish_memWf _ _ _ _ _ h))
        · split
          · simp [h]
          · next hv =>
            have hs := State.nmvVector_memWf hv h
            split <;> simp [h, State.nmvRows_memWf _ _ _ _ _ _ _ _ _ _ _ hs]
    · exact (keepsMemWf_next _).mpr h

theorem execWaitb_keepsMemWf (o : S32) (s : State) (h : s.memWf = true) : KeepsMemWf (execWaitb o s) :=
  runInstr_keepsMemWf _ _ _ (fun _ => State.memWf_if h h) h

/-! ### The Yards -/

@[simp] theorem State.spillLoop_memWf (s : State) (d c : Nat) : (s.spillLoop d c).memWf = s.memWf := by
  induction c generalizing s with
  | zero => rfl
  | succ c ih =>
    unfold State.spillLoop
    split
    · rfl
    · split
      · rfl
      · exact ih _

@[simp] theorem State.spill_memWf (s : State) (d : Nat) : (s.spill d).memWf = s.memWf := by simp [State.spill]

@[simp] theorem State.fetchHead_memWf (s : State) (r node : Nat) : (s.fetchHead r node).memWf = s.memWf := by
  simp [State.fetchHead]

@[simp] theorem State.fetchDue_memWf (s : State) : s.fetchDue.memWf = s.memWf := by simp [State.fetchDue]

@[simp] theorem State.putStall_memWf (s : State) (r node : Nat) (x : Stall) :
    (s.putStall r node x).memWf = s.memWf := rfl

@[simp] theorem State.yardLog_memWf (s : State) (r d kind a b : Nat) (h : s.memWf = true) :
    (s.yardLog r d kind a b).memWf = true := by simp [State.yardLog, State.writeLog_memWf, h]

@[simp] theorem State.appendEntry_memWf (s : State) (r node : Nat) (hdr : Dbl) (words : List Word) (who : Nat)
    (h : s.memWf = true) :
    (s.appendEntry r node hdr words who).memWf = true := by simp [State.appendEntry, h]

@[simp] theorem State.acceptEmission_memWf (s : State) (e : Emission) : (s.acceptEmission e).memWf = s.memWf := by
  simp [State.acceptEmission]

@[simp] theorem State.ackEmission_memWf (s : State) (tn n : Nat) : (s.ackEmission tn n).memWf = s.memWf := by
  simp [State.ackEmission]

@[simp] theorem State.send_memWf (s : State) (mtype a token : Nat) (body : List Word) :
    (s.send mtype a token body).memWf = s.memWf := rfl

@[simp] theorem State.grantReserve_memWf (s : State) (r node src token : Nat) :
    (s.grantReserve r node src token).memWf = s.memWf := by
  unfold State.grantReserve
  split <;> simp

@[simp] theorem State.serveLoop_memWf (s : State) (r node c : Nat) (h : s.memWf = true) :
    (s.serveLoop r node c).memWf = true := by
  induction c generalizing s with
  | zero => exact h
  | succ c ih =>
    unfold State.serveLoop
    dsimp only
    split
    · exact h
    · split
      · exact h
      · split
        · split
          · exact h
          · split
            · exact ih _ h
            · exact ih _ (by simp [h])
        · exact ih _ (by simp [h])

@[simp] theorem State.serveWaiting_memWf (s : State) (r node : Nat) (h : s.memWf = true) :
    (s.serveWaiting r node).memWf = true := by simp [State.serveWaiting, h]

@[simp] theorem State.sendEmissions_memWf (s : State) : s.sendEmissions.memWf = s.memWf := by
  simp [State.sendEmissions]

theorem execRecordAppend_keepsMemWf (em : Nat) (s : State) (h : s.memWf = true) : KeepsMemWf (execRecordAppend em s) := by
  unfold execRecordAppend
  dsimp only
  split <;> simp [h]

@[simp] theorem State.startProbe_memWf (s : State) (r node : Nat) (h : s.memWf = true) :
    (s.startProbe r node).memWf = true := by simp [State.startProbe, h]

@[simp] theorem State.evalInputs_memWf (s : State) (r : Nat) (h : s.memWf = true) :
    (s.evalInputs r).memWf = true := by simp +contextual [State.evalInputs, State.memWf_foldl, h]

@[simp] theorem State.dropProbes_memWf (s : State) (r node : Nat) : (s.dropProbes r node).memWf = s.memWf := by
  simp [State.dropProbes]

@[simp] theorem State.markEligible_memWf (s : State) : s.markEligible.memWf = s.memWf := rfl

@[simp] theorem State.placeBlock_memWf (s : State) (b cluster : Nat) (byPf : Bool) (h : s.memWf = true) :
    (s.placeBlock b cluster byPf).memWf = true := by simp [State.placeBlock, h]

@[simp] theorem State.decidePlace_memWf (s : State) (b cluster : Nat) (byPf : Bool) (h : s.memWf = true) :
    (s.decidePlace b cluster byPf).memWf = true := by simp [State.decidePlace, h]

@[simp] theorem State.formBlock_memWf (s : State) (r node musterNo : Nat) (records : List Entry) (h : s.memWf = true) :
    (s.formBlock r node musterNo records).memWf = true := by simp [State.formBlock, h]

theorem execMuster_keepsMemWf (r node : Nat) (s : State) (h : s.memWf = true) : KeepsMemWf (execMuster r node s) := by
  unfold execMuster
  dsimp only
  split
  · exact (keepsMemWf_next _).mpr h
  · split
    · exact (keepsMemWf_next _).mpr h
    · refine (keepsMemWf_next _).mpr ?_
      have hs (y : Stall) (no : Nat) (l : List Entry) := State.serveWaiting_memWf _ r node (State.formBlock_memWf _ r node no l
        (((State.fetchHead_memWf (s.setStall r node y) r node).trans (State.setStall_memWf _ _ _ _)).trans h))
      exact State.memWf_if (State.evalInputs_memWf _ _ (hs _ _ _)) (hs _ _ _)

theorem execMusterTimeout_keepsMemWf (r node : Nat) (s : State) (h : s.memWf = true) :
    KeepsMemWf (execMusterTimeout r node s) := by simp [execMusterTimeout, h]

/-! ### Blocks that start, park and resume -/

@[simp] theorem State.placeIn_memWf (s : State) (taken : List (Nat × Nat × Nat)) (limit n : Nat)
    (put : Team → Nat → Team) :
    (s.placeIn taken limit n put).1.memWf = s.memWf := by
  unfold State.placeIn
  split
  · rfl
  · refine State.memWf_foldl_fst_of_eq (fun _ _ => ?_) _ _
    rfl

@[simp] theorem State.placeContext_memWf (s : State) (c n : Nat) : (s.placeContext c n).1.memWf = s.memWf := by
  simp [State.placeContext]

theorem State.contextRoom_memWf {s t : State} {c need k : Nat} (e : s.contextRoom c need k = some t) :
    t.memWf = s.memWf := by
  induction k generalizing s with
  | zero =>
    unfold State.contextRoom at e
    split at e <;> cases e
    rfl
  | succ j ih =>
    unfold State.contextRoom at e
    split at e
    · cases e; rfl
    · dsimp only at e
      split at e
      · cases e
      · split at e
        · cases e
        · exact (ih e).trans (by simp)

@[simp] theorem State.restoreWalk_memWf (s : State) (tn : Nat) : (s.restoreWalk tn).memWf = s.memWf := by
  unfold State.restoreWalk
  dsimp only
  split <;> simp

@[simp] theorem State.contextRoom_getD_memWf (s : State) (c need k : Nat) :
    ((s.contextRoom c need k).getD s).memWf = s.memWf := by
  cases e : s.contextRoom c need k with
  | none => rfl
  | some t => exact State.contextRoom_memWf e

@[simp] theorem State.launchTeams_memWf (s : State) (b j c : Nat) : (s.launchTeams b j c).memWf = s.memWf := by
  induction c generalizing s j with
  | zero => rfl
  | succ c ih =>
    unfold State.launchTeams
    dsimp only
    exact (ih _ _).trans (by simp)

@[simp] theorem State.seatBlock_memWf (s : State) (b n : Nat) (h : s.memWf = true) :
    (s.seatBlock b n).memWf = true := by
  unfold State.seatBlock
  dsimp only
  have hs := State.clearVault_memWf _ (2 ^ 23 * (s.block b).cluster + (s.vaultFit b).getD 0) (s.nodeOf b).vaultb
    ((s.contextRoom_getD_memWf (clusterOfCore n) (s.startTeams b * (s.nodeOf b).contextSize) s.teams.length).trans h)
  exact State.memWf_if (State.settleArena_memWf _ _ _ _ hs) hs

@[simp] theorem State.logStart_memWf (s : State) (b n : Nat) (steal resume : Bool) (h : s.memWf = true) :
    (s.logStart b n steal resume).memWf = true := by simp [State.logStart, h]

@[simp] theorem State.startBlock_memWf (s : State) (b n : Nat) (steal : Bool) (h : s.memWf = true) :
    (s.startBlock b n steal).memWf = true := by simp [State.startBlock, h]

theorem execBlockStart_keepsMemWf (core : Nat) (s : State) (h : s.memWf = true) : KeepsMemWf (execBlockStart core s) := by
  unfold execBlockStart
  split <;> simp [h]

theorem execStealable_keepsMemWf (b : Nat) (s : State) (h : s.memWf = true) : KeepsMemWf (execStealable b s) := by
  unfold execStealable
  dsimp only
  split <;> simp [h]

@[simp] theorem State.stealLoop_memWf (s : State) (d : Nat) (cores given : List Nat) (h : s.memWf = true) :
    (s.stealLoop d cores given).memWf = true := by
  induction cores generalizing s given with
  | nil => exact h
  | cons n r ih =>
    unfold State.stealLoop
    split
    · exact ih _ _ h
    · split
      · exact ih _ _ h
      · exact ih _ _ (State.memWf_if h (State.startBlock_memWf _ _ _ _ h))

theorem execSteal_keepsMemWf (die : Nat) (cores : List Nat) (s : State) (h : s.memWf = true) :
    KeepsMemWf (execSteal die cores s) := by simp [execSteal, h]

@[simp] theorem State.reenter_memWf (s : State) (tn : Nat) (h : s.memWf = true) : (s.reenter tn).memWf = true :=
  State.wakeTroughs_memWf _ _ (State.wakeCore_memWf _ _ (State.recheck_memWf _ _ h))

@[simp] theorem State.parkNow_memWf (s : State) (t : Nat) : (s.parkNow t).memWf = s.memWf := by simp [State.parkNow]

@[simp] theorem State.parkTeam_memWf (s : State) (t : Nat) : (s.parkTeam t).memWf = s.memWf := by
  simp [State.parkTeam]

theorem execTeamPark_keepsMemWf (t : Nat) (s : State) (h : s.memWf = true) : KeepsMemWf (execTeamPark t s) := by
  simp [execTeamPark, h]

@[simp] theorem State.parkWaiting_memWf (s : State) : s.parkWaiting.memWf = s.memWf := by simp [State.parkWaiting]

theorem execTeamResume_keepsMemWf (t : Nat) (s : State) (h : s.memWf = true) : KeepsMemWf (execTeamResume t s) := by
  unfold execTeamResume
  dsimp only
  split
  · refine (keepsMemWf_next _).mpr (State.reenter_memWf _ _ ?_)
    rw [State.restoreWalk_memWf, State.setTeam_memWf]
    split <;> simp [h]
  · exact (keepsMemWf_next _).mpr h

@[simp] theorem State.moveParked_memWf (s : State) (tn n : Nat) : (s.moveParked tn n).memWf = s.memWf := by
  simp [State.moveParked]

@[simp] theorem State.restoreTeam_memWf (s : State) (tn n : Nat) : (s.restoreTeam tn n).memWf = s.memWf := by
  simp [State.restoreTeam]

@[simp] theorem State.resumeWalk_memWf (s : State) (tn : Nat) (h : s.memWf = true) :
    (s.resumeWalk tn).memWf = true := by
  refine State.memWf_if ?_ h
  split
  · next e =>
    exact State.reenter_memWf _ _ ((State.restoreTeam_memWf _ _ _).trans ((State.contextRoom_memWf e).trans h))
  · exact h

@[simp] theorem State.resumeWalks_memWf (s : State) (h : s.memWf = true) : s.resumeWalks.memWf = true := by
  simp +contextual [State.resumeWalks, State.memWf_foldl, h]

theorem execSavedBlockResume_keepsMemWf (b core : Nat) (s : State) (h : s.memWf = true) :
    KeepsMemWf (execSavedBlockResume b core s) := by
  unfold execSavedBlockResume
  dsimp only
  split
  · exact (keepsMemWf_next _).mpr h
  · split
    · exact (keepsMemWf_next _).mpr (State.stopBlock_memWf _ _ _ h)
    · split
      · exact (keepsMemWf_next _).mpr (State.stopBlock_memWf _ _ _ h)
      · split
        · exact (keepsMemWf_next _).mpr h
        · refine (keepsMemWf_next _).mpr
            (State.memWf_foldl _ (fun t tn ht => State.memWf_if (State.reenter_memWf t tn ht) ht) _ _ ?_)
          rw [State.tellCore_memWf, State.acquire_memWf,
            State.memWf_foldl_of_eq (fun _ _ => (State.restoreTeam_memWf _ _ _).trans (State.setTeam_memWf _ _ _))]
          exact State.restoreVault_memWf _ _ _ (State.seatBlock_memWf _ _ _ (State.logStart_memWf _ _ _ _ _ h))

/-! ### Retirement and CANCEL -/

@[simp] theorem State.runEvent_memWf (s : State) (r outcome : Nat) : (s.runEvent r outcome).memWf = s.memWf := rfl

@[simp] theorem State.returnCharge_memWf (s : State) (r : Nat) : (s.returnCharge r).memWf = s.memWf := by
  simp [State.returnCharge]

@[simp] theorem State.endRun_memWf (s : State) (r outcome gstatus : Nat) (h : s.memWf = true) :
    (s.endRun r outcome gstatus).memWf = true := by
  unfold State.endRun
  dsimp only
  refine State.afterPosted_memWf _ _ _ _ _ (State.finishRun_memWf _ _ ?_) ?_
  all_goals exact State.completionRecord_memWf _ _ _ _ _ _ _ (by simp [h])

@[simp] theorem State.launchDep_memWf (s : State) (r node : Nat) (h : s.memWf = true) :
    (s.launchDep r node).memWf = true := by simp [State.launchDep, h]

@[simp] theorem State.launchDeps_memWf (s : State) (r : Nat) (h : s.memWf = true) :
    (s.launchDeps r).memWf = true := by simp +contextual [State.launchDeps, State.memWf_foldl, h]

@[simp] theorem State.completeNode_memWf (s : State) (r node : Nat) : (s.completeNode r node).memWf = s.memWf := rfl

@[simp] theorem State.checkRun_memWf (s : State) (r : Nat) (h : s.memWf = true) : (s.checkRun r).memWf = true := by
  unfold State.checkRun
  dsimp only
  refine State.memWf_if h (State.memWf_if (State.memWf_if h (State.endRun_memWf _ _ _ _ h)) ?_)
  have hs := fun l => (State.memWf_foldl_of_eq (f := fun s i => if s.nodeDone r i then s.completeNode r i else s)
    (fun t i => by simp) l s).trans h
  exact State.memWf_if (State.endRun_memWf _ _ _ _ (hs _))
    (State.evalInputs_memWf _ _ (State.launchDeps_memWf _ _ (hs _)))

@[simp] theorem State.probeResult_memWf (s : State) (r node : Nat) (h : s.memWf = true) :
    (s.probeResult r node).memWf = true := by simp [State.probeResult, h]

theorem execProbeQuiet_keepsMemWf (r node : Nat) (s : State) (h : s.memWf = true) :
    KeepsMemWf (execProbeQuiet r node s) := by simp [execProbeQuiet, h]

@[simp] theorem State.commitLine_memWf (s : State) (b line : Nat) (h : s.memWf = true) :
    (s.commitLine b line).memWf = true := by
  have ha := State.applyLine_memWf _ line ((State.callHome_memWf s (s.block b).core (.hbm (64 * line))).trans h)
  unfold State.commitLine
  dsimp only
  split
  · exact ha
  · rw [State.trigger_memWf, State.memWf_foldl_of_eq (fun _ _ => State.own_memWf _ _ _ _ _)]
    exact State.memWf_foldl _ (fun t e ht => State.setHbmByte_memWf t _ _ ht) _ _ ha

@[simp] theorem State.commit_memWf (s : State) (b : Nat) (h : s.memWf = true) : (s.commit b).memWf = true := by
  refine State.memWf_foldl _ (fun t r ht => State.memWf_if ht (State.appendEntry_memWf _ _ _ _ _ _ ht)) _ _ ?_
  exact State.memWf_foldl _ (fun t l ht => State.commitLine_memWf t b l ht) _ _ h

@[simp] theorem State.returnRecords_memWf (s : State) (b : Nat) (h : s.memWf = true) :
    (s.returnRecords b).memWf = true := by simp [State.returnRecords, h]

@[simp] theorem State.retireBlock_memWf (s : State) (b : Nat) (h : s.memWf = true) :
    (s.retireBlock b).memWf = true := by
  unfold State.retireBlock
  dsimp only
  refine State.checkRun_memWf _ _ ?_
  rw [State.memWf_mk, State.wf_and_wf]
  refine State.yardLog_memWf _ _ _ _ _ _ (State.addEvents_memWf _ _ ?_)
  rw [State.leaveCore_memWf, State.tellUnit_memWf]
  exact State.returnRecords_memWf _ _ (State.memWf_if (State.commit_memWf _ _ h) h)

theorem execBlockRetire_keepsMemWf (b : Nat) (s : State) (h : s.memWf = true) : KeepsMemWf (execBlockRetire b s) := by
  simp [execBlockRetire, h]

@[simp] theorem State.releaseEmitters_memWf (s : State) (r : Nat) : (s.releaseEmitters r).memWf = s.memWf := by
  refine (State.memWf_foldl_of_eq (fun _ _ => State.send_memWf _ _ _ _ _) _ _).trans ?_
  exact State.memWf_foldl_of_eq (fun _ _ => State.acceptEmission_memWf _ _) _ _

@[simp] theorem State.retireNow_memWf (s : State) (b : Nat) (h : s.memWf = true) : (s.retireNow b).memWf = true := by
  simp [State.retireNow, h]

@[simp] theorem State.cancelRun_memWf (s : State) (r : Nat) (h : s.memWf = true) : (s.cancelRun r).memWf = true := by
  unfold State.cancelRun
  dsimp only
  split
  · exact State.endRun_memWf _ _ _ _ h
  · exact h
  · refine State.memWf_if h (State.checkRun_memWf _ _ (State.memWf_foldl _ (fun t b ht => ?_) _ _ ?_))
    · exact State.memWf_if (State.retireNow_memWf _ _ ht) ht
    · refine (State.releaseEmitters_memWf _ _).trans (State.memWf_foldl _ (fun t b ht => ?_) _ _ h)
      exact State.memWf_if (State.retireNow_memWf _ _ ht) (State.memWf_if ht (State.haltBlock_memWf _ _ _ ht))

@[simp] theorem State.cancelRuns_memWf (s : State) (rs : List Nat) (h : s.memWf = true) :
    (s.cancelRuns rs).memWf = true := by simp +contextual [State.cancelRuns, State.memWf_foldl, h]

@[simp] theorem State.cancelUnits_memWf (s : State) (f job : Nat) (phase : Option Nat) :
    (s.cancelUnits f job phase).memWf = s.memWf := by
  unfold State.cancelUnits
  split <;> simp

@[simp] theorem State.cancelPhaseOrJob_memWf (s : State) (f job : Nat) (phase : Option Nat) (rs : List Nat)
    (h : s.memWf = true) :
    (s.cancelPhaseOrJob f job phase rs).memWf = true := by simp [State.cancelPhaseOrJob, h]

@[simp] theorem State.cancelLog_memWf (s : State) (rs : List Nat) (level target core : Nat) (h : s.memWf = true) :
    (s.cancelLog rs level target core).memWf = true := by
  unfold State.cancelLog
  split
  · exact State.yardLog_memWf _ _ _ _ _ _ h
  · exact h

/-! ### Packets and the arbiter -/

@[simp] theorem State.visitFirst_memWf (s : State) (l : List Nat) : (s.visitFirst l).memWf = s.memWf := rfl

@[simp] theorem State.newRound_memWf (s : State) : s.newRound.memWf = s.memWf := by simp [State.newRound]

@[simp] theorem State.moveRound_memWf (s : State) : s.moveRound.memWf = s.memWf := by
  unfold State.moveRound
  split <;> simp

@[simp] theorem State.pickQueue_memWf (s : State) (f : Nat) (h : s.memWf = true) :
    (s.pickQueue f).1.memWf = true := by
  unfold State.pickQueue
  dsimp only
  split
  · exact h
  · split
    · exact h
    · split
      · exact State.postWaiting_memWf _ (by simp [h])
      · exact (State.memWf_congr (State.policyEvent_mems _ _ _ _)).trans h

@[simp] theorem State.packetEnds_memWf (s : State) (q seq : Nat) (p : Packet) (outcome gstatus : Nat)
    (h : s.memWf = true) :
    (s.packetEnds q seq p outcome gstatus).memWf = true := by simp [State.packetEnds, h]

@[simp] theorem State.reject_memWf (s : State) (q seq : Nat) (p : Packet) (h : s.memWf = true) :
    (s.reject q seq p).memWf = true := by simp [State.reject, h]

theorem takeStep_keepsMemWf (f : Nat) (s : State) (kind : Packet → Bool) (body : State → Nat → Nat → Packet → State)
    (hb : ∀ t q seq p, t.memWf = true → (body t q seq p).memWf = true) (h : s.memWf = true) :
    KeepsMemWf (takeStep f s kind body) := by
  unfold takeStep
  split
  · exact (keepsMemWf_next _).mpr h
  · split
    · exact (keepsMemWf_next _).mpr h
    · have hp := State.pickQueue_memWf s f h
      split
      · next e => rw [e] at hp; exact (keepsMemWf_next _).mpr hp
      · next q e =>
        rw [e] at hp
        split
        · exact (keepsMemWf_next _).mpr ((State.queueError_memWf _ _).trans hp)
        · dsimp only
          split
          · exact (keepsMemWf_next _).mpr h
          · split
            · exact (keepsMemWf_next _).mpr ((State.queueError_memWf _ _).trans hp)
            · next hw =>
              have hs := State.devWrite_memWf _ _ _ _ _ _ hp hw
              refine (keepsMemWf_next _).mpr (State.examine_memWf _ _ (State.memWf_if (hb _ _ _ _ hs) ?_))
              exact State.reject_memWf _ _ _ _ hs

@[simp] theorem State.admitRun_memWf (s : State) (r : Nat) (h : s.memWf = true) : (s.admitRun r).memWf = true := by
  simp [State.admitRun, h]

theorem execRunAdmit_keepsMemWf (f : Nat) (s : State) (h : s.memWf = true) : KeepsMemWf (execRunAdmit f s) := by
  unfold execRunAdmit
  split <;> simp [h]

@[simp] theorem State.newJobCaches_memWf (s : State) (f : Nat) : (s.newJobCaches f).memWf = s.memWf := rfl

@[simp] theorem State.joinJob_memWf (s : State) (f job : Nat) (det : Bool) (a : Nat) (g : Graph) :
    (s.joinJob f job det a g).memWf = s.memWf := by
  unfold State.joinJob
  split <;> simp

@[simp] theorem State.joinPhase_memWf (s : State) (f job phase : Nat) :
    (s.joinPhase f job phase).2.memWf = s.memWf := by
  unfold State.joinPhase
  dsimp only
  split <;> simp

@[simp] theorem State.runInvalid_memWf (s : State) (q seq : Nat) (p : Packet) (status : Nat) (h : s.memWf = true) :
    (s.runInvalid q seq p status).memWf = true := by
  have hs := State.packetEnds_memWf s q seq p 2 status h
  exact State.afterPosted_memWf _ _ _ _ _ (State.decrementCounter_memWf _ _ _ hs) hs

@[simp] theorem State.graphReach_memWf (s : State) (f a : Nat) (h : s.memWf = true) :
    (s.graphReach f a).memWf = true := by simp [State.graphReach, State.devReach_memWf, h]

@[simp] theorem State.takeRun_memWf (s : State) (q seq : Nat) (p : Packet) (h : s.memWf = true) :
    (s.takeRun q seq p).memWf = true := by
  unfold State.takeRun
  dsimp only
  refine State.memWf_if (State.reject_memWf _ _ _ _ h) ?_
  have hg := State.graphReach_memWf _ (s.queue q).owner p.graph.toNat
    (State.memWf_if (c := (s.liveJob (s.queue q).owner (natBits p.job.toNat 15 0)).isNone = true)
      ((State.newJobCaches_memWf s (s.queue q).owner).trans h) h)
  generalize State.graphReach _ _ _ = u at hg ⊢
  split
  · exact State.runInvalid_memWf _ _ _ _ _ hg
  · refine State.memWf_if (State.runInvalid_memWf _ _ _ _ _ hg) (State.memWf_if ?_ ?_)
    · rw [State.closeUnits_memWf]
      exact State.runInvalid_memWf _ _ _ _ _ (by simp [hg])
    · exact State.memWf_if (State.admitRun_memWf _ _ (by simp [hg])) (by simp [hg])

theorem execRun_keepsMemWf (f : Nat) (s : State) (h : s.memWf = true) : KeepsMemWf (execRun f s) :=
  takeStep_keepsMemWf _ _ _ _ (fun t _ _ _ ht => State.takeRun_memWf t _ _ _ ht) h

@[simp] theorem State.failEntries_memWf (s : State) (run : Nat) (h : s.memWf = true) :
    (s.failEntries run).memWf = true := by simp [State.failEntries, h]

theorem execEntryRecordAppend_keepsMemWf (run : Nat) (s : State) (h : s.memWf = true) :
    KeepsMemWf (execEntryRecordAppend run s) := by
  unfold execEntryRecordAppend
  dsimp only
  split
  · exact (keepsMemWf_next _).mpr h
  · have hs := State.devReach_memWf s (s.run run).func
      ((s.run run).packet.entry.toNat + (s.run run).appended *
        (s.nodeAt run (natBits (s.run run).packet.enode.toNat 11 0)).rsize)
      (s.nodeAt run (natBits (s.run run).packet.enode.toNat 11 0)).rsize h
    generalize State.devReach _ _ _ _ = u at hs ⊢
    split
    · simp [hs]
    · simp [hs]

theorem execCancelPacketRun_keepsMemWf (f : Nat) (s : State) (h : s.memWf = true) :
    KeepsMemWf (execCancelPacketRun f s) := by
  refine takeStep_keepsMemWf _ _ _ _ (fun t q seq p ht => State.memWf_if (State.reject_memWf _ _ _ _ ht) ?_) h
  split
  · exact State.packetEnds_memWf _ _ _ _ _ _ ht
  · exact State.packetEnds_memWf _ _ _ _ _ _ (State.cancelRuns_memWf _ _ (State.cancelLog_memWf _ _ _ _ _ ht))

theorem execCancelPacketPhase_keepsMemWf (f : Nat) (s : State) (h : s.memWf = true) :
    KeepsMemWf (execCancelPacketPhase f s) :=
  takeStep_keepsMemWf _ _ _ _ (fun _ _ _ _ ht =>
    State.packetEnds_memWf _ _ _ _ _ _ (State.cancelPhaseOrJob_memWf _ _ _ _ _ (State.cancelLog_memWf _ _ _ _ _ ht))) h

theorem execCancelPacketJob_keepsMemWf (f : Nat) (s : State) (h : s.memWf = true) :
    KeepsMemWf (execCancelPacketJob f s) :=
  takeStep_keepsMemWf _ _ _ _ (fun _ _ _ _ ht =>
    State.packetEnds_memWf _ _ _ _ _ _ (State.cancelPhaseOrJob_memWf _ _ _ _ _ (State.cancelLog_memWf _ _ _ _ _ ht))) h

theorem execSetctr_keepsMemWf (f : Nat) (s : State) (h : s.memWf = true) : KeepsMemWf (execSetctr f s) :=
  takeStep_keepsMemWf _ _ _ _ (fun t q seq p ht => State.examineAll_memWf _ _
    (State.packetEnds_memWf (t.setFunc f _) q seq p 0 0 ((State.setFunc_memWf _ _ _).trans ht))) h

theorem execNopPacket_keepsMemWf (f : Nat) (s : State) (h : s.memWf = true) : KeepsMemWf (execNopPacket f s) :=
  takeStep_keepsMemWf _ _ _ _ (fun _ _ _ _ ht => State.packetEnds_memWf _ _ _ _ _ _ ht) h

@[simp] theorem State.mbDone_memWf (s : State) (f : Nat) (result : Nat) (detail : Option Nat) :
    (s.mbDone f result detail).memWf = s.memWf := rfl

theorem execQcreate_keepsMemWf (f : Nat) (s : State) (h : s.memWf = true) : KeepsMemWf (execQcreate f s) := by
  unfold execQcreate
  split
  · exact (keepsMemWf_next _).mpr h
  · split <;> simp [h]

theorem execQdestroy_keepsMemWf (f : Nat) (s : State) (h : s.memWf = true) : KeepsMemWf (execQdestroy f s) := by
  simp [execQdestroy, h]

theorem execPolicyload_keepsMemWf (f : Nat) (s : State) (h : s.memWf = true) : KeepsMemWf (execPolicyload f s) := by
  unfold execPolicyload
  dsimp only
  split
  · exact (keepsMemWf_next _).mpr h
  · split
    · exact (keepsMemWf_next _).mpr h
    · split
      · simp [h]
      · split <;> simp [h, State.devReach_memWf]

/-! ### Emitted records -/

theorem emitInstr_keepsMemWf (i : Instr) (s : State) (self : Bool) (target : Ctx → Nat → Nat) (h : s.memWf = true) :
    KeepsMemWf (emitInstr i s self target) := by
  refine runInstr_keepsMemWf _ _ _ (fun c => Effect.memWf_if h (Effect.memWf_if ?_ (Effect.memWf_if h h))) h
  exact Effect.memWf_if h ((State.releasePoint_memWf _ _ _).trans h)

@[simp] theorem State.sendReserve_memWf (s : State) (func : Nat) (m : RemoteOut) (h : s.memWf = true) :
    (s.sendReserve func m).memWf = true := by simp [State.sendReserve, h]

theorem execEmitRemote_keepsMemWf (o : L64) (s : State) (h : s.memWf = true) : KeepsMemWf (execEmitRemote o s) :=
  runInstr_keepsMemWf _ _ _ (fun _ => Effect.memWf_if h (Effect.memWf_if h
    (State.memWf_foldl _ (fun t m ht => State.sendReserve_memWf t _ m ht) _ _ h))) h

@[simp] theorem State.sendGranted_memWf (s : State) (m : RemoteOut) : (s.sendGranted m).memWf = s.memWf := by
  unfold State.sendGranted
  dsimp only
  split
  · rfl
  · rw [State.memWf_mk, State.wf_and_wf, State.setTeam_memWf]
    exact State.memWf_foldl_of_eq (fun _ _ => State.send_memWf _ _ _ _ _) _ _

theorem cancelInstr_keepsMemWf (i : Instr) (s : State) (level : Nat) (target : Nat → Nat) (rs : Nat → List Nat)
    (act : State → Nat → List Nat → State) (ha : ∀ t b l, t.memWf = true → (act t b l).memWf = true) (h : s.memWf = true) :
    KeepsMemWf (cancelInstr i s level target rs act) := by
  have hi (iss : Issue) (faults : List (Nat × FaultInfo)) := State.issueInstr_memWf s iss i
    (fun _ => { st := s, faults := faults })
    (fun _ => h) h
  unfold cancelInstr
  dsimp only
  split
  · exact keepsMemWf_fault _
  · split
    · exact (keepsMemWf_next _).mpr (hi _ _)
    · split
      · exact (keepsMemWf_next _).mpr h
      · split
        · exact (keepsMemWf_next _).mpr (hi _ _)
        · exact (keepsMemWf_next _).mpr (ha _ _ _ (State.cancelLog_memWf _ _ _ _ _ (hi _ _)))

theorem execCancelRun_keepsMemWf (s : State) (h : s.memWf = true) : KeepsMemWf (execCancelRun s) :=
  cancelInstr_keepsMemWf _ _ _ _ _ _ (fun t _ l ht => State.cancelRuns_memWf t l ht) h

theorem execCancelPhase_keepsMemWf (s : State) (h : s.memWf = true) : KeepsMemWf (execCancelPhase s) :=
  cancelInstr_keepsMemWf _ _ _ _ _ _ (fun t _ l ht => State.cancelPhaseOrJob_memWf t _ _ _ l ht) h

theorem execCancelJob_keepsMemWf (s : State) (h : s.memWf = true) : KeepsMemWf (execCancelJob s) :=
  cancelInstr_keepsMemWf _ _ _ _ _ _ (fun t _ l ht => State.cancelPhaseOrJob_memWf t _ _ _ l ht) h

/-! ### Remote records -/

@[simp] theorem State.refuse_memWf (s : State) (m : ReserveMsg) (reason : Nat) :
    (s.refuse m reason).memWf = s.memWf := rfl

@[simp] theorem State.reserveAt_memWf (s : State) (m : ReserveMsg) (r : Nat) (h : s.memWf = true) :
    (s.reserveAt m r).memWf = true := by simp [State.reserveAt, h]

@[simp] theorem State.takeReserve_memWf (s : State) (m : ReserveMsg) (gate : Option (Nat × Nat)) (h : s.memWf = true) :
    (s.takeReserve m gate).memWf = true := by
  unfold State.takeReserve
  split
  · simp [h]
  · split
    · simp [h]
    · simp [h]

@[simp] theorem State.appendRemote_memWf (s : State) (src token c : Nat) (h : s.memWf = true) :
    (s.appendRemote src token c).memWf = true := by
  induction c generalizing s with
  | zero => exact h
  | succ c ih =>
    unfold State.appendRemote
    dsimp only
    split
    · exact h
    · split
      · exact h
      · refine State.memWf_if h (ih _ (State.memWf_if h ?_))
        rw [State.setStall_memWf]
        exact State.appendEntry_memWf _ _ _ _ _ _ h

@[simp] theorem State.arrivedAll_memWf (s : State) (src token : Nat) : (s.arrivedAll src token).memWf = s.memWf := by
  unfold State.arrivedAll
  split <;> simp

@[simp] theorem State.drainRemote_memWf (s : State) (h : s.memWf = true) : s.drainRemote.memWf = true := by
  simp +contextual [State.drainRemote, State.memWf_foldl, h]

@[simp] theorem State.takeRecord_memWf (s : State) (m : RecordMsg) (h : s.memWf = true) :
    (s.takeRecord m).memWf = true := by
  unfold State.takeRecord
  split <;> simp [h]

theorem execHoldTimer_keepsMemWf (s : State) (h : s.memWf = true) : KeepsMemWf (execHoldTimer s) := by
  refine (keepsMemWf_next _).mpr (State.memWf_foldl _ (fun t e ht => ?_) _ _ ?_)
  · split
    · exact (State.send_memWf _ _ _ _ _).trans ht
    · exact ht
  · exact State.memWf_foldl _ (fun t m ht => (State.send_memWf _ _ _ _ _).trans ht) _ _ h

theorem execYardMessageDropped_keepsMemWf (port : Nat) (s : State) (h : s.memWf = true) :
    KeepsMemWf (execYardMessageDropped port s) := by simp [execYardMessageDropped, h]

@[simp] theorem State.dropOutgoing_memWf (s : State) (token : Nat) : (s.dropOutgoing token).memWf = s.memWf := rfl

@[simp] theorem State.granted_memWf (s : State) (token : Nat) : (s.granted token).memWf = s.memWf := by
  unfold State.granted
  split <;> simp

@[simp] theorem State.refused_memWf (s : State) (token reason : Nat) : (s.refused token reason).memWf = s.memWf := by
  unfold State.refused
  split <;> simp

@[simp] theorem State.arrived_memWf (s : State) (token count : Nat) : (s.arrived token count).memWf = s.memWf := by
  unfold State.arrived
  split <;> simp

@[simp] theorem State.deliver_memWf (s : State) (f : Option Nat) (x : Flit) (h : s.memWf = true) :
    (s.deliver f x).memWf = true := by
  unfold State.deliver
  split <;> simp [h]

@[simp] theorem State.receive_memWf (s : State) (x : Flit) (h : s.memWf = true) : (s.receive x).memWf = true := by
  unfold State.receive
  dsimp only
  split <;> simp [h]

theorem execReserve_keepsMemWf (m : ReserveMsg) (s : State) (h : s.memWf = true) : KeepsMemWf (execReserve m s) := by
  simp [execReserve, h]

theorem execRecord_keepsMemWf (m : RecordMsg) (s : State) (h : s.memWf = true) : KeepsMemWf (execRecord m s) := by
  simp [execRecord, h]

theorem execGrant_keepsMemWf (token : Nat) (s : State) (h : s.memWf = true) : KeepsMemWf (execGrant token s) := by
  simp [execGrant, h]

theorem execRefuse_keepsMemWf (token reason : Nat) (s : State) (h : s.memWf = true) :
    KeepsMemWf (execRefuse token reason s) := by simp [execRefuse, h]

theorem execHold_keepsMemWf (token : Nat) (s : State) (h : s.memWf = true) : KeepsMemWf (execHold token s) := by
  simp [execHold, h]

theorem execArrived_keepsMemWf (token count : Nat) (s : State) (h : s.memWf = true) :
    KeepsMemWf (execArrived token count s) := by simp [execArrived, h]

theorem execRemoteTimeout_keepsMemWf (token : Nat) (s : State) (h : s.memWf = true) :
    KeepsMemWf (execRemoteTimeout token s) := by
  unfold execRemoteTimeout
  split <;> simp [h]

@[simp] theorem State.serveOutgoing_memWf (s : State) : s.serveOutgoing.memWf = s.memWf := by
  simp [State.serveOutgoing]

/-! ### Assistance -/

@[simp] theorem State.placeWaiting_memWf (s : State) (h : s.memWf = true) : s.placeWaiting.memWf = true := by
  simp +contextual [State.placeWaiting, State.memWf_foldl, h]

@[simp] theorem State.placeAnswer_memWf (s : State) (b : Nat) (answer : Option Nat) (h : s.memWf = true) :
    (s.placeAnswer b answer).memWf = true := by
  unfold State.placeAnswer
  split <;> simp [h]

@[simp] theorem State.emuReturn_memWf (s : State) (tn ins : Nat) : (s.emuReturn tn ins).memWf = s.memWf := by
  simp [State.emuReturn]

@[simp] theorem State.atomDone_memWf (s : State) (tn L old : Nat) : (s.atomDone tn L old).memWf = s.memWf := by
  unfold State.atomDone
  dsimp only
  split <;> simp

@[simp] theorem State.defaultStop_memWf (s : State) (tn L : Nat) (h : s.memWf = true) :
    (s.defaultStop tn L).memWf = true := by simp [State.defaultStop, h]

@[simp] theorem State.emuAt_memWf (s : State) (tn L : Nat) (e : EmuStep) : (s.emuAt tn L e).memWf = s.memWf := by
  unfold State.emuAt
  dsimp only
  split <;> simp

@[simp] theorem State.emuLog_memWf (s : State) (tn L : Nat) (h : s.memWf = true) : (s.emuLog tn L).memWf = true := by
  simp [State.emuLog, State.orderLog_memWf, h]

@[simp] theorem State.atomAnswer_memWf (s : State) (tn L old : Nat) (h : s.memWf = true) :
    (s.atomAnswer tn L old).memWf = true := by simp [State.atomAnswer, h]

@[simp] theorem State.atomTimeout_memWf (s : State) (tn L : Nat) (h : s.memWf = true) :
    (s.atomTimeout tn L).memWf = true := by simp [State.atomTimeout, h]

@[simp] theorem State.pickAnswer_memWf (s : State) (r : Referral) (i : Nat) : (s.pickAnswer r i).memWf = s.memWf :=
  rfl

@[simp] theorem State.l2Fill_memWf (s : State) (e : TlbEntry) : (s.l2Fill e).memWf = s.memWf := rfl

@[simp] theorem State.walkAnswer_memWf (s : State) (r : Referral) (pte : Dbl) (level : Nat) :
    (s.walkAnswer r pte level).memWf = s.memWf := by
  unfold State.walkAnswer
  dsimp only
  split
  · split
    · rfl
    · exact State.memWf_foldl_of_eq (fun _ _ => State.l2Fill_memWf _ _) _ _
  · split <;> rfl

@[simp] theorem State.quietAnswer_memWf (s : State) (r : Referral) (quiet : Bool) (h : s.memWf = true) :
    (s.quietAnswer r quiet).memWf = true := by simp [State.quietAnswer, h]

@[simp] theorem State.answer_memWf (s : State) (r : Referral) (v : Dbl) (h : s.memWf = true) :
    (s.answer r v).memWf = true := by
  unfold State.answer
  split <;> simp [h]

theorem execAssistReply_keepsMemWf (v : Dbl) (s : State) (h : s.memWf = true) : KeepsMemWf (execAssistReply v s) := by
  unfold execAssistReply
  dsimp only
  split <;> simp [h]

theorem execAssistTimeout_keepsMemWf (rseq : Nat) (s : State) (h : s.memWf = true) :
    KeepsMemWf (execAssistTimeout rseq s) := by
  unfold execAssistTimeout
  split
  · exact (keepsMemWf_next _).mpr h
  · split
    · exact (keepsMemWf_next _).mpr h
    · dsimp only
      split <;> simp [h, execRemoteTimeout_keepsMemWf]

/-! ### Branches and EXIT -/

@[simp] theorem jtabReads_memWf (s : State) (c : Ctx) (ls : List (Nat × Nat × Target)) (h : s.memWf = true) :
    (jtabReads s c ls).1.memWf = true := by
  induction ls generalizing s with
  | nil => exact h
  | cons x r ih => exact ih _ (State.readNow_memWf s c.iss.team x.1 x.2.2 8 h)

theorem execJtab_keepsMemWf (o : L64) (s : State) (h : s.memWf = true) : KeepsMemWf (execJtab o s) :=
  runInstr_keepsMemWf _ _ _ (fun _ => Effect.memWf_if h (jtabReads_memWf _ _ _ h)) h

theorem execExit_keepsMemWf (s : State) (h : s.memWf = true) : KeepsMemWf (execExit s) :=
  runInstr_keepsMemWf _ _ _ (fun _ => State.memWf_if ((State.dropWalk_memWf _ _).trans h) h) h

/-! ### Bring-up, resets, clocks and firmware -/

@[simp] theorem State.eventAll_memWf (s : State) (bits : Word) : (s.eventAll bits).memWf = s.memWf := by
  simp [State.eventAll]

@[simp] theorem State.measure_memWf (s : State) (i : Nat) (image : List Byte) :
    (s.measure i image).memWf = s.memWf := rfl

@[simp] theorem State.haltDevice_memWf (s : State) (code : Nat) : (s.haltDevice code).memWf = s.memWf := rfl

@[simp] theorem State.setScheduler_memWf (s : State) (up : Bool) : (s.setScheduler up).memWf = s.memWf := rfl

theorem execBootStageComplete_keepsMemWf (haltcode : Nat) (s : State) (h : s.memWf = true) :
    KeepsMemWf (execBootStageComplete haltcode s) := by simp [execBootStageComplete, h, State.stageWork_memWf]

theorem execColdReset_keepsMemWf (s : State) (h : s.memWf = true) : KeepsMemWf (execColdReset s) := by
  simp [execColdReset, h, State.restart_memWf]

@[simp] theorem State.setClocks_memWf (s : State) (core fabric : Nat) :
    (s.setClocks core fabric).memWf = s.memWf := rfl

@[simp] theorem State.thermalEvent_memWf (s : State) (temps : List Nat) (clock : Nat) :
    (s.thermalEvent temps clock).memWf = s.memWf := rfl

theorem execThermalStep_keepsMemWf (temps : List Nat) (s : State) (h : s.memWf = true) :
    KeepsMemWf (execThermalStep temps s) := by simp [execThermalStep, h]

theorem execThermalTrip_keepsMemWf (temps : List Nat) (s : State) (h : s.memWf = true) :
    KeepsMemWf (execThermalTrip temps s) := by simp [execThermalTrip, h]

@[simp] theorem State.schedulerDown_memWf (s : State) : s.schedulerDown.memWf = s.memWf := rfl

@[simp] theorem State.cutCommand_memWf (s : State) (f : Nat) : (s.cutCommand f).memWf = s.memWf := by
  unfold State.cutCommand
  dsimp only
  split
  · rfl
  · split
    · split <;> rfl
    · split <;> rfl
    · rfl

@[simp] theorem State.schedulerRestart_memWf (s : State) (h : s.memWf = true) : s.schedulerRestart.memWf = true := by
  simp +contextual [State.schedulerRestart, h]

theorem execWatchdogRestart_keepsMemWf (s : State) (h : s.memWf = true) : KeepsMemWf (execWatchdogRestart s) := by
  simp [execWatchdogRestart, h]

@[simp] theorem State.fwEvent_memWf (s : State) (ver : Word) (result : Nat) :
    (s.fwEvent ver result).memWf = s.memWf := rfl

theorem execFwstage_keepsMemWf (s : State) (h : s.memWf = true) : KeepsMemWf (execFwstage s) := by
  unfold execFwstage
  dsimp only
  split
  · exact (keepsMemWf_next _).mpr h
  · split
    · exact (keepsMemWf_next _).mpr h
    · split <;> simp [h, State.devReach_memWf]

theorem execFwfuse_keepsMemWf (s : State) (h : s.memWf = true) : KeepsMemWf (execFwfuse s) := by simp [execFwfuse, h]

@[simp] theorem State.switchFirmware_memWf (s : State) (im : FwImage) : (s.switchFirmware im).memWf = s.memWf := rfl

theorem execFwactivate_keepsMemWf (w : WatchdogMeet) (s : State) (h : s.memWf = true) :
    KeepsMemWf (execFwactivate w s) := by
  unfold execFwactivate
  split
  · exact (keepsMemWf_next _).mpr h
  · split
    · simp [h]
    · split
      · exact (keepsMemWf_next _).mpr h
      · split
        · simp [h]
        · cases w <;> simp [h]

theorem execAttest_keepsMemWf (nonce : Option (List Byte)) (s : State) (h : s.memWf = true) :
    KeepsMemWf (execAttest nonce s) := by
  unfold execAttest
  split
  · split <;> exact (keepsMemWf_next _).mpr h
  · dsimp only
    split
    · exact (keepsMemWf_next _).mpr h
    · split
      · exact (keepsMemWf_next _).mpr h
      · split <;> simp [h, State.devReach_memWf, State.devWriteBytes_memWf]

theorem execUncorrectedEcc_keepsMemWf (die struc : Nat) (addr : Dbl) (corrected : Bool) (s : State) (h : s.memWf = true) :
    KeepsMemWf (execUncorrectedEcc die struc addr corrected s) := by simp [execUncorrectedEcc, h]

@[simp] theorem State.portEnable_memWf (s : State) (port : Nat) (on sec : Bool) :
    (s.portEnable port on sec).memWf = s.memWf := by simp [State.portEnable]

theorem execLinkReset_keepsMemWf (port : Nat) (up : Bool) (cause seqs : Nat) (s : State) (h : s.memWf = true) :
    KeepsMemWf (execLinkReset port up cause seqs s) := by simp [execLinkReset, h]

/-! ### Preemption -/

@[simp] theorem State.requestSave_memWf (s : State) (f : Nat) (job : Option Nat) :
    (s.requestSave f job).memWf = s.memWf := by simp [State.requestSave]

theorem execPreemptSaveFunction_keepsMemWf (f : Nat) (s : State) (h : s.memWf = true) :
    KeepsMemWf (execPreemptSaveFunction f s) := by simp [execPreemptSaveFunction, h]

theorem execPreemptSaveJob_keepsMemWf (f job : Nat) (s : State) (h : s.memWf = true) :
    KeepsMemWf (execPreemptSaveJob f job s) := by simp [execPreemptSaveJob, h]

theorem execCut_keepsMemWf (f : Nat) (s : State) (h : s.memWf = true) : KeepsMemWf (execCut f s) := by simp [execCut, h]

@[simp] theorem State.deliverSaved_memWf (s : State) (f : Nat) (l : List CutFlit) (h : s.memWf = true) :
    (s.deliverSaved f l).memWf = true := by simp +contextual [State.deliverSaved, State.memWf_foldl, h]

theorem execCutResume_keepsMemWf (f : Nat) (s : State) (h : s.memWf = true) : KeepsMemWf (execCutResume f s) := by
  unfold execCutResume
  split
  · exact (keepsMemWf_next _).mpr h
  · refine (keepsMemWf_next _).mpr (State.examineAll_memWf _ _ ?_)
    refine State.memWf_foldl _ (fun t r ht => State.checkRun_memWf t _ ht) _ _ ?_
    refine State.memWf_foldl _ (fun t k ht => State.serveWaiting_memWf t _ _ ht) _ _ ?_
    exact State.deliverSaved_memWf _ _ _ h

@[simp] theorem State.preemptDone_memWf (s : State) : s.preemptDone.memWf = s.memWf := by simp [State.preemptDone]

@[simp] theorem State.tearRegions_memWf (s : State) (f : Nat) : (s.tearRegions f).memWf = s.memWf := rfl

theorem execVfReset_keepsMemWf (f : Nat) (s : State) (h : s.memWf = true) : KeepsMemWf (execVfReset f s) := by
  simp [execVfReset, h]

/-! ### Joins and barriers -/

theorem arriveInstr_keepsMemWf (i : Instr) (s : State) (w : List Nat → Nat → Wait) (h : s.memWf = true) :
    KeepsMemWf (arriveInstr i s w) := runInstr_keepsMemWf _ _ _ (fun _ => (State.gives_memWf _ _ _).trans h) h

theorem execBarWait_keepsMemWf (o : S32) (s : State) (h : s.memWf = true) : KeepsMemWf (execBarWait o s) :=
  runInstr_keepsMemWf _ _ _ (fun _ => State.memWf_if h ((State.learnNow_memWf _ _ _ _).trans h)) h

@[simp] theorem State.recordArrival_memWf (s : State) (tn L : Nat) (kind : BarKind) (b : Nat) (h : s.memWf = true) :
    (s.recordArrival tn L kind b).memWf = true := by
  unfold State.recordArrival
  split <;> simp [h]

theorem execBarrierArrival_keepsMemWf (tn L : Nat) (s : State) (h : s.memWf = true) :
    KeepsMemWf (execBarrierArrival tn L s) := by
  unfold execBarrierArrival
  dsimp only
  split <;> simp [h]

@[simp] theorem State.drainPass_memWf (s : State) (tn : Nat) (h : s.memWf = true) :
    (s.drainPass tn).memWf = true := by simp [State.drainPass, h]

@[simp] theorem State.drainAllTeams_memWf (s : State) (h : s.memWf = true) : s.drainAllTeams.memWf = true := by
  simp +contextual [State.drainAllTeams, State.memWf_foldl, h]

/-! ### Readback and save areas -/

theorem execReadback_keepsMemWf (s : State) (h : s.memWf = true) : KeepsMemWf (execReadback s) := by
  unfold execReadback
  dsimp only
  split
  · exact (keepsMemWf_next _).mpr h
  · split <;> exact (keepsMemWf_next _).mpr h

/-! ### Accesses as they are performed -/

@[simp] theorem State.tableFill_memWf (s : State) (cluster line : Nat) :
    (s.tableFill cluster line).memWf = s.memWf := rfl

@[simp] theorem State.tableRead_memWf (s : State) (a : Access) (p : Nat) (h : s.memWf = true) :
    (s.tableRead a p).1.memWf = true := by
  unfold State.tableRead
  dsimp only
  split <;> simp [State.reach_memWf, h]

@[simp] theorem State.logAcquire_memWf (s : State) (a : Access) (os : List Owner) (h : s.memWf = true) :
    (s.logAcquire a os).memWf = true := by
  simp +contextual [State.logAcquire, State.memWf_foldl, State.orderLog_memWf, h]

@[simp] theorem State.arriveAt_memWf (s : State) (a : Access) (h : s.memWf = true) : (s.arriveAt a).memWf = true := by
  simp [State.arriveAt, State.reach_memWf, h]

@[simp] theorem State.performed_memWf (s : State) (id v : Nat) : (s.performed id v).memWf = s.memWf := rfl

@[simp] theorem State.performedWith_memWf (s : State) (id v : Nat) (es : List Nat) :
    (s.performedWith id v es).memWf = s.memWf := rfl

@[simp] theorem State.armWatch_memWf (s : State) (a : Access) : (s.armWatch a).memWf = s.memWf := rfl

@[simp] theorem State.hears_memWf (s : State) (a : Access) : (s.hears a).memWf = s.memWf := by simp [State.hears]

@[simp] theorem State.performRead_memWf (s : State) (a : Access) (h : s.memWf = true) :
    (s.performRead a).memWf = true := by
  have ha := State.arriveAt_memWf s a h
  unfold State.performRead
  split
  · dsimp only
    rw [State.hears_memWf, State.performed_memWf]
    exact State.tableRead_memWf _ _ _ ((State.dropSector_memWf _ _ _).trans h)
  · dsimp only
    refine State.memWf_if ((State.acquire_memWf _ _).trans (State.logAcquire_memWf _ _ _ ?_)) ?_
    all_goals refine State.memWf_if ((State.armWatch_memWf _ _).trans ?_) ?_
    all_goals
      rw [State.hears_memWf, State.performed_memWf]
      split <;> simp [ha]

@[simp] theorem State.homeWrite_memWf (s : State) (a : Access) (keep : Bool) (v : Nat) (h : s.memWf = true) :
    (s.homeWrite a keep v).memWf = true := by
  unfold State.homeWrite
  dsimp only
  split
  · exact h
  · split
    · exact State.memWf_if (State.doorWrite_memWf _ _ _ _ _ h) h
    · exact State.poke_memWf _ _ _ _ _ _ _ ((State.noteArena_memWf _ _ _ _ _).trans h)

@[simp] theorem State.coWrite_memWf (s : State) (a : Access) (g : List Access) : (s.coWrite a g).memWf = s.memWf := by
  unfold State.coWrite
  split <;> simp

@[simp] theorem State.performStore_memWf (s : State) (a : Access) (h : s.memWf = true) :
    (s.performStore a).memWf = true := by simp [State.performStore, h]

@[simp] theorem State.performAtomic_memWf (s : State) (a : Access) (op : Nat) (h : s.memWf = true) :
    (s.performAtomic a op).memWf = true := by
  have ha := State.arriveAt_memWf s a h
  unfold State.performAtomic
  dsimp only
  refine State.memWf_if ((State.acquire_memWf _ _).trans (State.logAcquire_memWf _ _ _ ?_)) ?_
  all_goals refine State.memWf_if (State.writeLog_memWf _ _ _ _ _ _ _ _ _ _ ?_) ?_
  all_goals
    rw [State.countEvents_memWf, State.memWf_foldl_of_eq (fun _ _ => State.performedWith_memWf _ _ _ _), State.coWrite_memWf]
    refine State.homeWrite_memWf _ _ _ _ ?_
    rw [State.memWf_foldl_of_eq (fun _ _ => State.hears_memWf _ _)]
    split <;> simp [ha]

theorem execHomeAccess_keepsMemWf (id : Nat) (s : State) (h : s.memWf = true) : KeepsMemWf (execHomeAccess id s) := by
  unfold execHomeAccess
  split
  · exact (keepsMemWf_next _).mpr h
  · split <;> simp [h]

@[simp] theorem State.dropAccess_memWf (s : State) (a : Access) : (s.dropAccess a).1.memWf = s.memWf := rfl

theorem execAcknowledgement_keepsMemWf (id : Nat) (s : State) (h : s.memWf = true) :
    KeepsMemWf (execAcknowledgement id s) := by
  unfold execAcknowledgement
  dsimp only
  split <;> simp [h]

theorem execLoadResult_keepsMemWf (id : Nat) (s : State) (h : s.memWf = true) : KeepsMemWf (execLoadResult id s) := by
  unfold execLoadResult
  split
  · exact (keepsMemWf_next _).mpr h
  · split
    · exact (keepsMemWf_next _).mpr h
    · exact (keepsMemWf_next _).mpr h
    · simp [h]

theorem execScFloorReached_keepsMemWf (e : Nat) (s : State) (h : s.memWf = true) :
    KeepsMemWf (execScFloorReached e s) := by
  unfold execScFloorReached
  split
  · exact (keepsMemWf_next _).mpr h
  · split
    · exact (keepsMemWf_next _).mpr h
    · dsimp only
      split <;> simp [h]

@[simp] theorem State.l1Hit_memWf (s : State) (id : Nat) : (s.l1Hit id).memWf = s.memWf := by
  unfold State.l1Hit
  split
  · rfl
  · split
    · split
      · rfl
      · split
        · simp
        · rfl
    · rfl

@[simp] theorem State.l1Fill_memWf (s : State) (core word : Nat) : (s.l1Fill core word).memWf = s.memWf := by
  simp [State.l1Fill]

@[simp] theorem State.l1Evict_memWf (s : State) (core word : Nat) : (s.l1Evict core word).memWf = s.memWf := rfl

@[simp] theorem State.tlbFill_memWf (s : State) (cluster : Nat) (core : Option Nat) (func page : Nat) :
    (s.tlbFill cluster core func page).memWf = s.memWf := by
  unfold State.tlbFill
  dsimp only
  split
  · split <;> rfl
  · rfl

@[simp] theorem State.tlbEvict_memWf (s : State) (cluster : Nat) (core : Option Nat) (func page : Nat) :
    (s.tlbEvict cluster core func page).memWf = s.memWf := rfl

@[simp] theorem State.walkFill_memWf (s : State) (die func level va : Nat) :
    (s.walkFill die func level va).memWf = s.memWf := by
  unfold State.walkFill
  dsimp only
  split <;> simp

@[simp] theorem State.walkEvict_memWf (s : State) (die func level va : Nat) :
    (s.walkEvict die func level va).memWf = s.memWf := rfl

@[simp] theorem State.lineEvict_memWf (s : State) (core func va : Nat) :
    (s.lineEvict core func va).memWf = s.memWf := rfl

/-! ### Trap entry -/

@[simp] theorem State.logReturn_memWf (s : State) (tn L : Nat) : (s.logReturn tn L).memWf = s.memWf := by
  unfold State.logReturn
  dsimp only
  split <;> simp

@[simp] theorem State.logReturns_memWf (s : State) : s.logReturns.memWf = s.memWf := by simp [State.logReturns]

theorem execLogfullTimeout_keepsMemWf (tn L : Nat) (s : State) (h : s.memWf = true) :
    KeepsMemWf (execLogfullTimeout tn L s) := by
  unfold execLogfullTimeout
  split <;> simp [h]

@[simp] theorem State.handlerFault_memWf (s : State) (tn L : Nat) (e : FaultInfo) (h : s.memWf = true) :
    (s.handlerFault tn L e).memWf = true := by simp [State.handlerFault, h]

@[simp] theorem State.emuLock_memWf (s : State) (tn L : Nat) (h : s.memWf = true) :
    (s.emuLock tn L).memWf = true := by
  unfold State.emuLock
  split <;> simp [h]

@[simp] theorem State.emuRefer_memWf (s : State) (tn L d : Nat) (h : s.memWf = true) :
    (s.emuRefer tn L d).memWf = true := by simp [State.emuRefer, h]

@[simp] theorem State.emuPerform_memWf (s : State) (tn L d : Nat) (h : s.memWf = true) :
    (s.emuPerform tn L d).memWf = true := by
  unfold State.emuPerform
  dsimp only
  refine State.memWf_if h ?_
  split
  · exact State.handlerFault_memWf _ _ _ _ h
  · exact State.handlerFault_memWf _ _ _ _ h
  · refine State.memWf_if h ?_
    rw [State.atomDone_memWf]
    refine State.poke_memWf _ _ _ _ _ _ _ (State.reach_memWf _ _ ?_)
    rw [State.callHome_memWf, State.countEvents_memWf]
    exact State.performAtomic_memWf _ _ _ h

@[simp] theorem State.emuStep_memWf (s : State) (tn L d ins : Nat) (e : EmuStep) (h : s.memWf = true) :
    (s.emuStep tn L d ins e).memWf = true := by
  refine State.memWf_if h ?_
  cases e <;> simp [h]

theorem execTrapEntry_keepsMemWf (tn L : Nat) (s : State) (h : s.memWf = true) : KeepsMemWf (execTrapEntry tn L s) := by
  unfold execTrapEntry
  dsimp only
  split
  · split
    · exact (keepsMemWf_next _).mpr (State.takeFault_memWf _ _ _ _ _ _ h)
    · exact (keepsMemWf_next _).mpr h
  · split
    · exact (keepsMemWf_next _).mpr h
    · split <;> simp [h]

/-! ### Fetch, the register cache and what follows a turn -/

@[simp] theorem State.machineCheck_memWf (s : State) (tn lane va stored computed : Nat) (h : s.memWf = true) :
    (s.machineCheck tn lane va stored computed).memWf = true := by simp [State.machineCheck, h]

@[simp] theorem State.cacheLine_memWf (s : State) (core func va : Nat) (ws : List Word) :
    (s.cacheLine core func va ws).memWf = s.memWf := rfl

@[simp] theorem State.lineArrives_memWf (s : State) (tn lane va p : Nat) (damage : LineDamage) (h : s.memWf = true) :
    (s.lineArrives tn lane va p damage).1.memWf = true := by
  have hp := State.penApply_memWf _ (p / 64) ((State.callHome_memWf s (s.team tn).core (.hbm p)).trans h)
  unfold State.lineArrives
  dsimp only
  generalize State.penApply _ _ = u at hp ⊢
  cases damage <;> dsimp only
  case bothCopies => simp [hp]
  all_goals split <;> simp [hp]

@[simp] theorem State.fetchWords_memWf (s : State) (tn : Nat) (pc : Dbl) (p : Nat) (h : s.memWf = true) :
    (s.fetchWords tn pc p).1.memWf = true := by
  unfold State.fetchWords
  dsimp only
  split <;> simp [h]

@[simp] theorem State.issueIllegal_memWf (s : State) (iss : Issue) (h : s.memWf = true) :
    (s.issueIllegal iss).memWf = true := by simp [State.issueIllegal, h]

@[simp] theorem State.drainGroup_memWf (s : State) (core : Nat) : (s.drainGroup core).memWf = s.memWf := by
  unfold State.drainGroup
  dsimp only
  split <;> simp

@[simp] theorem State.drainAll_memWf (s : State) (core n : Nat) : (s.drainAll core n).memWf = s.memWf := by
  induction n generalizing s with
  | zero => rfl
  | succ k ih => exact (ih _).trans (State.drainGroup_memWf _ _)

@[simp] theorem State.cacheGroup_memWf (s : State) (core : Nat) (named : List (Nat × Nat)) (p : Nat × Nat) :
    (s.cacheGroup core named p).memWf = s.memWf := by
  unfold State.cacheGroup
  dsimp only
  split
  · rfl
  · split <;> rfl

@[simp] theorem State.useGroups_memWf (s : State) (tn : Nat) (gs named : List Nat) :
    (s.useGroups tn gs named).memWf = s.memWf := by simp [State.useGroups]

theorem execRegisterFill_keepsMemWf (tn : Nat) (s : State) (h : s.memWf = true) : KeepsMemWf (execRegisterFill tn s) := by
  simp [execRegisterFill, h]

theorem execLineFill_keepsMemWf (tn : Nat) (va : Dbl) (damage : LineDamage) (s : State) (h : s.memWf = true) :
    KeepsMemWf (execLineFill tn va damage s) := by
  unfold execLineFill
  dsimp only
  split
  · exact (keepsMemWf_next _).mpr h
  · split <;> simp [h]

@[simp] theorem State.settle_memWf (s : State) (h : s.memWf = true) : s.settle.memWf = true := by
  unfold State.settle
  dsimp only
  rw [State.preemptDone_memWf, State.moveRound_memWf, State.markEligible_memWf, State.fetchDue_memWf]
  refine State.settlePages_memWf _ (State.resumeWalks_memWf _ ?_)
  rw [State.parkWaiting_memWf]
  refine State.postWaiting_memWf _ (State.drainRemote_memWf _ ?_)
  rw [State.serveOutgoing_memWf, State.sendEmissions_memWf]
  refine State.placeWaiting_memWf _ ?_
  rw [State.logReturns_memWf]
  refine State.drainAllTeams_memWf _ (State.flushPosted_memWf _ ?_)
  rw [State.endAllFreed_memWf]
  refine State.stampAll_memWf _ (State.flushDone_memWf _ ?_)
  rw [State.pruneAnswers_memWf, h]

@[simp] theorem State.tick_memWf (s : State) : s.tick.memWf = s.memWf := by simp [State.tick]

/-! ### Mask instructions -/

theorem wholeMask_keepsMemWf (i : Instr) (s : State) (f : Ctx → Dbl) (h : s.memWf = true) :
    KeepsMemWf (wholeMask i s f) := runInstr_keepsMemWf _ _ _ (fun _ => teamEffect_memWf _ _ _ (fun _ => h) h) h

theorem waitMask_keepsMemWf (i : Instr) (w : List Nat → Wait) (s : State) (h : s.memWf = true) :
    KeepsMemWf (waitMask i w s) := runInstr_keepsMemWf _ _ _ (fun _ => (State.gives_memWf _ _ _).trans h) h

/-! ### Registers that the host writes -/

@[simp] theorem State.writePartown_memWf (s : State) (p : Nat) (v : Word) : (s.writePartown p v).memWf = s.memWf := by
  simp [State.writePartown]

theorem execPartownWrite_keepsMemWf (who p : Nat) (v : Word) (s : State) (h : s.memWf = true) :
    KeepsMemWf (execPartownWrite who p v s) := by simp [execPartownWrite, h]

@[simp] theorem State.writeQuota_memWf (s : State) (f o : Nat) (v : Word) (h : s.memWf = true) :
    (s.writeQuota f o v).memWf = true := by
  unfold State.writeQuota
  split <;> simp [State.examineAll_memWf, h]

theorem execQuotaWrite_keepsMemWf (who off : Nat) (v : Word) (s : State) (h : s.memWf = true) :
    KeepsMemWf (execQuotaWrite who off v s) := by simp [execQuotaWrite, h]

@[simp] theorem State.dropReserved_memWf (s : State) : s.dropReserved.memWf = s.memWf := rfl

@[simp] theorem State.writeLofthbm_memWf (s : State) (d : Nat) (v : Word) : (s.writeLofthbm d v).memWf = s.memWf := by
  simp [State.writeLofthbm]

theorem execLofthbmWrite_keepsMemWf (who d : Nat) (v : Word) (s : State) (h : s.memWf = true) :
    KeepsMemWf (execLofthbmWrite who d v s) := by simp [execLofthbmWrite, h]

@[simp] theorem State.writeYard_memWf (s : State) (d o : Nat) (v : Word) : (s.writeYard d o v).memWf = s.memWf := by
  unfold State.writeYard
  split <;> simp

@[simp] theorem State.dropTlb_memWf (s : State) (f : Nat) (all : Bool) (first count : Nat) :
    (s.dropTlb f all first count).memWf = s.memWf := rfl

@[simp] theorem State.staleWalks_memWf (s : State) (f : Nat) (hit : Nat → Bool) :
    (s.staleWalks f hit).memWf = s.memWf := rfl

@[simp] theorem State.installRoot_memWf (s : State) (f : Nat) : (s.installRoot f).memWf = s.memWf := by
  unfold State.installRoot
  split <;> simp

@[simp] theorem State.writePtroot_memWf (s : State) (f : Nat) (v : Dbl) : (s.writePtroot f v).memWf = s.memWf := by
  simp [State.writePtroot]

@[simp] theorem State.installRoots_memWf (s : State) : s.installRoots.memWf = s.memWf := by simp [State.installRoots]

theorem execPtrootWrite_keepsMemWf (who f : Nat) (v : Dbl) (s : State) (h : s.memWf = true) :
    KeepsMemWf (execPtrootWrite who f v s) := by simp [execPtrootWrite, h]

@[simp] theorem State.writeMemory_memWf (s : State) (f o : Nat) (v : Dbl) :
    (s.writeMemory f o v).memWf = s.memWf := by
  unfold State.writeMemory
  split <;> simp

@[simp] theorem State.writeInvctl_memWf (s : State) (v : Word) : (s.writeInvctl v).memWf = s.memWf := by
  simp [State.writeInvctl]

theorem execInvalidate_keepsMemWf (who : Nat) (v : Word) (s : State) (h : s.memWf = true) :
    KeepsMemWf (execInvalidate who v s) := by simp [execInvalidate, h]

theorem execInvalidationComplete_keepsMemWf (s : State) (h : s.memWf = true) :
    KeepsMemWf (execInvalidationComplete s) := by simp [execInvalidationComplete, h]

@[simp] theorem State.writeRegion_memWf (s : State) (f o : Nat) (v : Dbl) :
    (s.writeRegion f o v).memWf = s.memWf := by simp [State.writeRegion]

theorem execRegionWrite_keepsMemWf (who f off : Nat) (v : Dbl) (s : State) (h : s.memWf = true) :
    KeepsMemWf (execRegionWrite who f off v s) := by simp [execRegionWrite, h]

@[simp] theorem State.applyIfRoom_memWf (s : State) (line : Nat) (h : s.memWf = true) :
    (s.applyIfRoom line).memWf = true := by simp [State.applyIfRoom, State.applyLine_memWf, h]

theorem execRegionClearDone_keepsMemWf (f i : Nat) (s : State) (h : s.memWf = true) :
    KeepsMemWf (execRegionClearDone f i s) := by
  have hs := State.memWf_foldl State.applyIfRoom (fun t l ht => State.applyIfRoom_memWf t l ht) (s.regionLines f i) s
    h
  unfold execRegionClearDone
  dsimp only
  split
  · exact (keepsMemWf_next _).mpr h
  · split
    · exact (keepsMemWf_next _).mpr hs
    · exact (keepsMemWf_next _).mpr ((State.setFunc_memWf _ _ _).trans hs)

@[simp] theorem State.logMoved_memWf (s : State) (h : s.memWf = true) : s.logMoved.memWf = true := by
  refine State.memWf_foldl _ (fun t r ht => State.memWf_if (State.checkRun_memWf _ _ ht) ht) _ _ ?_
  refine State.drainRemote_memWf _ (State.placeWaiting_memWf _ ?_)
  refine State.memWf_foldl _ (fun t k ht => State.serveWaiting_memWf t _ _ ht) _ _ ?_
  exact State.memWf_foldl _ (fun t tn ht => State.memWf_if (State.recheck_memWf _ _ ht) ht) _ _ h

@[simp] theorem State.reserveRing_memWf (s : State) (d kind : Nat) (base : Dbl) (size : Word) :
    (s.reserveRing d kind base size).memWf = s.memWf := rfl

@[simp] theorem State.writeLogReg_memWf (s : State) (d o : Nat) (v : Dbl) (h : s.memWf = true) :
    (s.writeLogReg d o v).memWf = true := by
  unfold State.writeLogReg
  split <;> simp [h]

theorem orKeep_memWf (s : State) (o : Host.Outcome State Fault Refusal) (ho : KeepsMemWf o) (h : s.memWf = true) :
    (orKeep s o).memWf = true := by
  unfold orKeep
  split
  · exact ho _ rfl
  · exact h

@[simp] theorem State.writePreempt_memWf (s : State) (v : Word) (h : s.memWf = true) :
    (s.writePreempt v).memWf = true := by
  refine State.memWf_if h (State.memWf_if ((State.preemptDone_memWf _).trans h)
    ((State.preemptDone_memWf _).trans (orKeep_memWf _ _ ?_ h)))
  split
  · exact execPreemptSaveFunction_keepsMemWf _ _ h
  · exact execPreemptSaveJob_keepsMemWf _ _ _ h
  · exact (keepsMemWf_next _).mpr h
  · exact (keepsMemWf_next _).mpr h
  · exact execCut_keepsMemWf _ _ h
  · exact execCutResume_keepsMemWf _ _ h

@[simp] theorem State.writeMbcmd_memWf (s : State) (f : Nat) (v : Dbl) : (s.writeMbcmd f v).memWf = s.memWf := by
  simp [State.writeMbcmd]

@[simp] theorem State.gateChanged_memWf (s : State) (f : Nat) (h : s.memWf = true) :
    (s.gateChanged f).memWf = true := by simp +contextual [State.gateChanged, State.memWf_foldl, h]

@[simp] theorem State.writeOwn8_memWf (s : State) (f o : Nat) (v : Dbl) (h : s.memWf = true) :
    (s.writeOwn8 f o v).memWf = true := by simp [State.writeOwn8, h]

@[simp] theorem State.writeOwn4_memWf (s : State) (f o : Nat) (v : Dbl) : (s.writeOwn4 f o v).memWf = s.memWf := by
  simp [State.writeOwn4]

@[simp] theorem State.writePf8_memWf (s : State) (o : Nat) (v : Dbl) (h : s.memWf = true) :
    (s.writePf8 o v).memWf = true := by
  unfold State.writePf8
  dsimp only
  refine State.memWf_if ((State.writeMemory_memWf _ _ _ _).trans h)
    (State.memWf_if (State.writeLogReg_memWf _ _ _ _ h) ?_)
  split <;> simp [h, orKeep_memWf, execAssistReply_keepsMemWf]

@[simp] theorem State.writePf4_memWf (s : State) (o : Nat) (v : Dbl) (h : s.memWf = true) :
    (s.writePf4 o v).memWf = true := by
  unfold State.writePf4
  dsimp only
  refine State.memWf_if (State.writeQuota_memWf _ _ _ _ h) (State.memWf_if (by simp [h]) (State.memWf_if (by simp [h])
    (State.memWf_if h (State.memWf_if (by simp [h]) (State.memWf_if (by simp [h]) ?_)))))
  split <;> simp [h]

@[simp] theorem State.writeBar0_memWf (s : State) (who o size : Nat) (v : Dbl) (h : s.memWf = true) :
    (s.writeBar0 who o size v).memWf = true := by simp [State.writeBar0, h]

theorem execRegisterWrite_keepsMemWf (who bar off size : Nat) (v : Dbl) (s : State) (h : s.memWf = true) :
    KeepsMemWf (execRegisterWrite who bar off size v s) := by simp [execRegisterWrite, h]

@[simp] theorem State.setReply_memWf (s : State) (r : Reply) : (s.setReply r).memWf = s.memWf := rfl

@[simp] theorem State.hostRead_memWf (s : State) (who bar off n : Nat) :
    (s.hostRead who bar off n).memWf = s.memWf := by simp [State.hostRead]

@[simp] theorem State.configRead_memWf (s : State) (who : Nat) (item : ConfigItem) :
    (s.configRead who item).memWf = s.memWf := by simp [State.configRead]

@[simp] theorem State.sidebandRead_memWf (s : State) (item : SidebandItem) :
    (s.sidebandRead item).memWf = s.memWf := by
  unfold State.sidebandRead
  split
  · rfl
  · split <;> rfl
  · dsimp only
    split <;> rfl

@[simp] theorem State.windowRead_memWf (s : State) (off n : Nat) : (s.windowRead off n).memWf = s.memWf := by
  simp [State.windowRead]

/-! ### Traps -/

theorem execTret_keepsMemWf (s : State) (h : s.memWf = true) : KeepsMemWf (execTret s) := by
  refine runInstr_keepsMemWf _ _ _ (fun c => ?_) h
  dsimp only
  split
  · exact State.doubleFault_memWf _ _ _ _ _ _ _ _ _ h
  · exact h

theorem execLive_keepsMemWf (o : X96) (s : State) (h : s.memWf = true) : KeepsMemWf (execLive o s) :=
  runInstr_keepsMemWf _ _ _
    (fun _ => Effect.memWf_if h ((State.setTeam_memWf _ _ _).trans ((State.setCore_memWf _ _ _).trans h))) h

/-! ### Walks -/

@[simp] theorem State.setWalker_memWf (s : State) (n : Nat) (w : Walker) : (s.setWalker n w).memWf = s.memWf := rfl

@[simp] theorem State.walkStep_memWf (s : State) (n : Nat) (f : WalkFn) (hf : ∀ b ag w, (f s b ag w).1.memWf = true)
    (h : s.memWf = true) :
    (s.walkStep n f).memWf = true := by
  unfold State.walkStep
  dsimp only
  split
  case h_5 => exact State.memWf_if (State.waitFor_memWf _ _ _ h) (by simp [h])
  all_goals simp [hf]

theorem walkInstr_keepsMemWf (s : State) (f : WalkFn) (hf : ∀ b ag w, (f s b ag w).1.memWf = true) (h : s.memWf = true) :
    KeepsMemWf (walkInstr s f) := by
  unfold walkInstr
  split
  · exact keepsMemWf_fault _
  · dsimp only
    split
    · exact (keepsMemWf_next _).mpr (State.walkStep_memWf _ _ _ hf h)
    · exact (keepsMemWf_next _).mpr h

theorem walkReg_keepsMemWf (d : BitVec 4) (f : Walker → Dbl) (s : State) (h : s.memWf = true) :
    KeepsMemWf (walkInstr s (walkReg d f)) := walkInstr_keepsMemWf s _ (fun _ _ _ => h) h

theorem State.walkWord_memWf {s t : State} {b : Nat} {ag : Agent} {a : Dbl} {v : Nat}
    (e : s.walkWord b ag a = .ok (t, v)) (h : s.memWf = true) :
    t.memWf = true := by
  unfold State.walkWord at e
  split at e
  · exact State.engineRead_memWf e h
  · split at e <;> cases e
    exact h

theorem walkFnLdi_memWf (o : WalkOp) (s : State) (b : Nat) (ag : Agent) (w : Walker) (h : s.memWf = true) :
    (walkFnLdi o s b ag w).1.memWf = true := by
  unfold walkFnLdi
  split
  · exact h
  · next e => exact State.walkWord_memWf e h

theorem walkFnLoop_fst (o : WalkOp) (s : State) (b : Nat) (ag : Agent) (w : Walker) :
    (walkFnLoop o s b ag w).1 = s := by
  unfold walkFnLoop
  dsimp only
  split
  · rfl
  · split
    · rfl
    · split <;> rfl

theorem walkFnLidx_fst (o : WalkOp) (s : State) (b : Nat) (ag : Agent) (w : Walker) :
    (walkFnLidx o s b ag w).1 = s := by
  unfold walkFnLidx
  split <;> rfl

theorem walkBranch_fst (o : WalkOp) (zero : Bool) (s : State) (b : Nat) (ag : Agent) (w : Walker) :
    (walkBranch o zero s b ag w).1 = s := by
  unfold walkBranch
  dsimp only
  split
  · rfl
  · split
    · rfl
    · split
      · rfl
      · split <;> rfl
      · split
        · rfl
        · split
          · rfl
          · split <;> rfl

theorem State.walkCols_memWf {s t : State} {b : Nat} {ag : Agent} {a : Dbl} {j n : Nat} {cols v : SMap Dbl}
    (e : s.walkCols b ag a j n cols = .ok (t, v)) (h : s.memWf = true) :
    t.memWf = true := by
  induction n generalizing s j cols with
  | zero => cases e; exact h
  | succ k ih =>
    unfold State.walkCols at e
    split at e
    · cases e
    · next hw => exact ih e (State.walkWord_memWf hw h)

theorem walkFnCld_memWf (o : WalkOp) (s : State) (b : Nat) (ag : Agent) (w : Walker) (h : s.memWf = true) :
    (walkFnCld o s b ag w).1.memWf = true := by
  unfold walkFnCld
  split
  · exact h
  · next e => exact State.walkCols_memWf e h

theorem State.viewElem_memWf {s t : State} {b : Nat} {ag : Agent} {w : Walker} {r c : Int} {v : Nat}
    (e : s.viewElem b ag w r c = .ok (t, v)) (h : s.memWf = true) :
    t.memWf = true := by
  unfold State.viewElem at e
  dsimp only at e
  rcases ite_eq_iff.mp e with ⟨-, e⟩ | ⟨-, e⟩
  · cases e; exact h
  · rcases ite_eq_iff.mp e with ⟨-, e⟩ | ⟨-, e⟩
    · cases e; exact h
    · exact State.readElem_memWf e h

theorem State.rowElems_memWf {s t : State} {b : Nat} {ag : Agent} {w : Walker} {r : Int} {col : Nat → Dbl}
    {on : Nat → Bool} {j n : Nat} {l : List Half} (e : s.rowElems b ag w r col on j n = .ok (t, l)) (h : s.memWf = true) :
    t.memWf = true := by
  induction n generalizing s j t l with
  | zero => cases e; exact h
  | succ k ih =>
    unfold State.rowElems at e
    split at e
    · cases e
    · next hv =>
      split at e
      · cases e
      · next hr =>
        cases e
        refine ih hr ?_
        split at hv
        · exact State.viewElem_memWf hv h
        · cases hv; exact h

theorem walkAppend_memWf (row : Walker → Dbl) (col : Walker → Nat → Dbl) (on : Walker → Nat → Bool) (s : State)
    (b : Nat) (ag : Agent) (w : Walker) (h : s.memWf = true) :
    (walkAppend row col on s b ag w).1.memWf = true := by
  unfold walkAppend
  split
  · exact h
  · next e => exact State.rowElems_memWf e h

theorem execWalkEnd_keepsMemWf (s : State) (h : s.memWf = true) : KeepsMemWf (execWalkEnd s) :=
  walkInstr_keepsMemWf s _ (fun _ _ _ => h) h

theorem execWalkLdi_keepsMemWf (o : WalkOp) (s : State) (h : s.memWf = true) : KeepsMemWf (execWalkLdi o s) :=
  walkInstr_keepsMemWf s _ (fun b ag w => walkFnLdi_memWf o s b ag w h) h

theorem execWalkLoop_keepsMemWf (o : WalkOp) (s : State) (h : s.memWf = true) : KeepsMemWf (execWalkLoop o s) :=
  walkInstr_keepsMemWf s _ (fun b ag w => by rw [walkFnLoop_fst, h]) h

theorem execWalkLidx_keepsMemWf (o : WalkOp) (s : State) (h : s.memWf = true) : KeepsMemWf (execWalkLidx o s) :=
  walkInstr_keepsMemWf s _ (fun b ag w => by rw [walkFnLidx_fst, h]) h

theorem execWalkBrz_keepsMemWf (o : WalkOp) (s : State) (h : s.memWf = true) : KeepsMemWf (execWalkBrz o s) :=
  walkInstr_keepsMemWf s _ (fun b ag w => by rw [walkBranch_fst, h]) h

theorem execWalkBrnz_keepsMemWf (o : WalkOp) (s : State) (h : s.memWf = true) : KeepsMemWf (execWalkBrnz o s) :=
  walkInstr_keepsMemWf s _ (fun b ag w => by rw [walkBranch_fst, h]) h

theorem execWalkRow_keepsMemWf (o : WalkOp) (s : State) (h : s.memWf = true) : KeepsMemWf (execWalkRow o s) :=
  walkInstr_keepsMemWf s _ (fun b ag w => walkAppend_memWf _ _ _ s b ag w h) h

theorem execWalkRowm_keepsMemWf (o : WalkOp) (s : State) (h : s.memWf = true) : KeepsMemWf (execWalkRowm o s) :=
  walkInstr_keepsMemWf s _ (fun b ag w => walkAppend_memWf _ _ _ s b ag w h) h

theorem execWalkCset_keepsMemWf (o : WalkOp) (s : State) (h : s.memWf = true) : KeepsMemWf (execWalkCset o s) :=
  walkInstr_keepsMemWf s _ (fun _ _ _ => h) h

theorem execWalkCld_keepsMemWf (o : WalkOp) (s : State) (h : s.memWf = true) : KeepsMemWf (execWalkCld o s) :=
  walkInstr_keepsMemWf s _ (fun b ag w => walkFnCld_memWf o s b ag w h) h

theorem execWalkRowl_keepsMemWf (o : WalkOp) (s : State) (h : s.memWf = true) : KeepsMemWf (execWalkRowl o s) :=
  walkInstr_keepsMemWf s _ (fun b ag w => walkAppend_memWf _ _ _ s b ag w h) h

theorem execWalkFlush_keepsMemWf (s : State) (h : s.memWf = true) : KeepsMemWf (execWalkFlush s) :=
  walkInstr_keepsMemWf s _ (fun _ _ _ => h) h

/-- The instructions that only write a register are `walkReg`'s. -/
theorem walkMeanings_keepsMemWf :
    ∀ x ∈ walkMeanings, ∀ (o : WalkOp) (s : State), s.memWf = true → KeepsMemWf (x.2.2 o s) := by
  simp only [walkMeanings, List.forall_mem_cons]
  refine ⟨fun _ => execWalkEnd_keepsMemWf, ?_, ?_, ?_, ?_, ?_, ?_, ?_, ?_, ?_, ?_, ?_, ?_, execWalkLdi_keepsMemWf,
    execWalkLoop_keepsMemWf,
    execWalkLidx_keepsMemWf, execWalkBrz_keepsMemWf, execWalkBrnz_keepsMemWf, execWalkRow_keepsMemWf, execWalkRowm_keepsMemWf,
    execWalkCset_keepsMemWf, execWalkCld_keepsMemWf, execWalkRowl_keepsMemWf, ?_, fun _ => execWalkFlush_keepsMemWf, nofun⟩
  all_goals exact fun _ s h => walkReg_keepsMemWf _ _ s h

theorem walkRunWord_keepsMemWf {w : Word} {s : State} {o : Host.Outcome State Fault Refusal} (e : walkRunWord w s = some o)
    (h : s.memWf = true) :
    KeepsMemWf o := by
  unfold walkRunWord at e
  split at e
  · next hl =>
    obtain ⟨l, r, hm, -⟩ := List.lookup_eq_some_iff.mp hl
    split at e <;> cases e
    exact walkMeanings_keepsMemWf _ (by rw [hm]; exact List.mem_append_right _ List.mem_cons_self) _ _ h
  · cases e

theorem State.walkTurn_keepsMemWf (s : State) (n : Nat) (h : s.memWf = true) : KeepsMemWf (s.walkTurn n) := by
  unfold State.walkTurn
  dsimp only
  split
  · exact (keepsMemWf_next _).mpr h
  · split
    · exact walkInstr_keepsMemWf _ _ (fun _ _ _ => h) h
    · split
      · exact (keepsMemWf_next _).mpr (State.walkStep_memWf _ _ _ (fun _ _ _ => h) h)
      · next hf =>
        have hs := State.walkWord_memWf hf h
        cases hw : walkRunWord _ _ with
        | none => exact (keepsMemWf_next _).mpr (State.walkStep_memWf _ _ _ (fun _ _ _ => hs) hs)
        | some o => exact walkRunWord_keepsMemWf hw hs

theorem execWalkStart_keepsMemWf (o : L64) (s : State) (h : s.memWf = true) : KeepsMemWf (execWalkStart o s) := by
  refine runInstr_keepsMemWf _ _ _ (fun c => teamEffect_memWf _ _ _ (fun m => Effect.memWf_if h ?_) h) h
  have h1 := (State.dropWalk_memWf s c.iss.team).trans h
  dsimp only
  split
  · exact h1
  · split
    · exact h1
    · next t _ =>
      have h2 := State.readNow_memWf (s.dropWalk c.iss.team) c.iss.team m t 8 h1
      refine Effect.memWf_if h ?_
      split
      · exact h2
      · exact (State.setCore_memWf _ _ _).trans ((State.lockRange_memWf _ _ _ _ _ _ _).trans h2)

theorem execWalkStop_keepsMemWf (s : State) (h : s.memWf = true) : KeepsMemWf (execWalkStop s) :=
  runInstr_keepsMemWf _ _ _ (fun _ => teamEffect_memWf _ _ _ (fun _ => (State.dropWalk_memWf _ _).trans h) h) h

theorem execMxmW_keepsMemWf (o : L64) (s : State) (h : s.memWf = true) : KeepsMemWf (execMxmW o s) := by
  refine runInstr_keepsMemWf _ _ _ (fun c => teamEffect_memWf _ _ _ (fun m => Effect.memWf_if h (Effect.memWf_if h ?_)) h)
    h
  split
  · exact h
  · split
    · exact h
    · exact h
    · refine Effect.memWf_if h ?_
      dsimp only
      rw [State.product_memWf, State.setWalker_memWf, h]

end Sys2Proof.Machine
end

section
/-! PROOFS of the statement of the memories' canonical form (O59): every instruction, every turn, and the step. -/
namespace Sys2Proof.Machine

/-! ### Every instruction -/

/-- By the form of the instruction, where many share one: the effect of most touches no memory when they issue. For a few forms
`delta` stops the unifier at the form, which it would unfold with the instruction. -/
theorem exec_keepsMemWf (i : Instr) (s : State) (h : s.memWf = true) : KeepsMemWf (exec i s) := by
  cases i with
  | sread o | wget o | xset o | xget o | mov o | movB64 o | notV o | negS32 o | absS32 o | popc o | clz o | ctz o
  | brev o | kpop o | kget o | addS32 o | addN32 o | subS32 o | subN32 o | mul o | mulhiS32 o | mulhiN32 o | mad o
  | divS32 o | divN32 o | remS32 o | remN32 o | minS32 o | minN32 o | maxS32 o | maxN32 o | andV o | orV o
  | xorV o | andn o | shl o | shr o | sar o | rot o | bfxS32 o | bfxN32 o | bfi o | sel o | addS64 o | addN64 o
  | subS64 o | subN64 o | mulB64 o | adda o | shla o | divS64 o | divN64 o | remS64 o | remN64 o | minS64 o
  | minN64 o | maxS64 o | maxN64 o | addS32X96 o | addN32X96 o | subS32X96 o | subN32X96 o | mulX96 o
  | mulhiS32X96 o | mulhiN32X96 o | madX96 o | divS32X96 o | divN32X96 o | remS32X96 o | remN32X96 o | minS32X96 o
  | minN32X96 o | maxS32X96 o | maxN32X96 o | andX96 o | orX96 o | xorX96 o | andnX96 o | shlX96 o | shrX96 o
  | sarX96 o | rotX96 o | bfxS32X96 o | bfxN32X96 o | bfiX96 o | selX96 o | addS64X96 o | addN64X96 o
  | subS64X96 o | subN64X96 o | mulB64X96 o | addaX96 o | shlaX96 o | divS64X96 o | divN64X96 o | remS64X96 o
  | remN64X96 o | minS64X96 o | minN64X96 o | maxS64X96 o | maxN64X96 o | addi o | andi o | ori o | xori o
  | shli o | shri o | sari o | addai o | movi o | lit o | litB64 o | shflIdx o | shflUp o | shflDown o | shflXor o
  | voteAny o | voteAll o | matchLanes o | redstep o | scanstep o | walkQuery o =>
    exact laneInstr_keepsMemWf _ _ _ h
  | ret o | trap o | pred o | predNot o | enrol o | leave o | strike o | kset o | cmpS32 o | cmpN32 o | cmpS64 o
  | cmpN64 o | cmpS32X96 o | cmpN32X96 o | cmpS64X96 o | cmpN64X96 o | cmpiS32 o | cmpiN32 o | fcmp f o
  | fcmpX96 f o | bra o | brnz o | brz o | brk o | call o | braLong o | brnzLong o | brzLong o | brkLong o
  | callLong o | jmp o | callr o | nop =>
    exact runInstr_keepsMemWf _ _ _ (fun _ => h) h
  | fabs f o | fneg f o | fclass f o | frcp f o | fsqrt f o | frsq f o | fexp2 f o | flog2 f o | fsin f o
  | fcos f o | ftanh f o | fadd f o | fsub f o | fmul f o | ffma f o | fmin f o | fmax f o | faddX96 f o
  | fsubX96 f o | fmulX96 f o | ffmaX96 f o | fminX96 f o | fmaxX96 f o =>
    exact floatInstr_keepsMemWf _ _ _ h
  | ld o | st o | tld o | watch o | atomAdd o | atomFadd o | atomMin o | atomMax o | atomAnd o | atomOr o
  | atomXor o | atomXchg o | atomCas o =>
    exact memInstr_keepsMemWf _ _ _ _ h
  | bar o | barArv o | drain o =>
    delta exec
    exact arriveInstr_keepsMemWf _ _ _ h
  | join o | waitk o =>
    exact waitMask_keepsMemWf _ _ _ h
  | kmov o | knot o | kand o | kor o | kxor o | kandn o | kact o =>
    exact wholeMask_keepsMemWf _ _ _ h
  | cpy o | cpy2d o =>
    delta exec
    exact copyInstr_keepsMemWf _ _ _ h
  | updAdd o | updMin o | updMax o =>
    exact updInstr_keepsMemWf _ _ _ h
  | twaitAny o | twaitAll o =>
    exact twait_keepsMemWf _ _ _ h
  | mxmF8 o | mxmS2p8 o | mxmH16 o =>
    exact mxmInstr_keepsMemWf _ _ _ h
  | emit o | emitReg o | emitSelf o =>
    exact emitInstr_keepsMemWf _ _ _ _ h
  | npbMovi o | npbMov o | npbAdd o | npbSub o | npbAddi o | npbAnd o | npbOr o | npbXor o | npbShl o | npbShr o
  | npbMul o | npbDivu o | npbMinu o | npbMaxu o | npbSltu o =>
    delta exec
    exact npbAlu_keepsMemWf _ _ _ h
  | npbBeq o | npbBne o | npbBltu o =>
    delta exec
    exact npbBranch_keepsMemWf _ _ _ h
  | npbMovhi o | npbLoop o | npbRet =>
    exact npbInstr_keepsMemWf _ _ (fun _ => h) h
  | warmReset | preemptResumeFunction f | preemptResumeJob f job | floorBroadcast =>
    exact (keepsMemWf_next _).mpr h
  | swrite o | wset o | bcast o | voteBal o | mxzero o | fenceRel =>
    exact runInstr_keepsMemWf _ _ _ (fun _ => teamEffect_memWf _ _ _ (fun _ => h) h) h
  | barWait o => exact execBarWait_keepsMemWf o s h
  | waitw o => exact execWaitw_keepsMemWf o s h
  | tfind o => exact execTfind_keepsMemWf o s h
  | waitb o => exact execWaitb_keepsMemWf o s h
  | cvt o => exact execCvt_keepsMemWf o s h
  | jtab o => exact execJtab_keepsMemWf o s h
  | live o => exact execLive_keepsMemWf o s h
  | phint o => exact execPhint_keepsMemWf o s h
  | waitc o => exact execWaitc_keepsMemWf o s h
  | updclr o => exact execUpdclr_keepsMemWf o s h
  | zscan o => exact execZscan_keepsMemWf o s h
  | mxmW o => exact execMxmW_keepsMemWf o s h
  | mxrd o => exact execMxrd_keepsMemWf o s h
  | mxst o => exact execMxst_keepsMemWf o s h
  | mxskip o => exact execMxskip_keepsMemWf o s h
  | nmv o => exact execNmv_keepsMemWf o s h
  | walkStart o => exact execWalkStart_keepsMemWf o s h
  | emitRemote o => exact execEmitRemote_keepsMemWf o s h
  | bootStageComplete haltcode => exact execBootStageComplete_keepsMemWf haltcode s h
  | barrierArrival t lane => exact execBarrierArrival_keepsMemWf t lane s h
  | homeAccess a => exact execHomeAccess_keepsMemWf a s h
  | acknowledgement a => exact execAcknowledgement_keepsMemWf a s h
  | loadResult a => exact execLoadResult_keepsMemWf a s h
  | pairAccept p => exact execPairAccept_keepsMemWf p s h
  | scFloorReached e => exact execScFloorReached_keepsMemWf e s h
  | exit => exact execExit_keepsMemWf s h
  | tret => exact execTret_keepsMemWf s h
  | fenceAcq => exact execFenceAcq_keepsMemWf s h
  | fenceSc => exact execFenceSc_keepsMemWf s h
  | fenceTbl => exact execFenceTbl_keepsMemWf s h
  | updflush => exact execUpdflush_keepsMemWf s h
  | cancelRun => exact execCancelRun_keepsMemWf s h
  | cancelPhase => exact execCancelPhase_keepsMemWf s h
  | cancelJob => exact execCancelJob_keepsMemWf s h
  | walkStop => exact execWalkStop_keepsMemWf s h
  | coldReset => exact execColdReset_keepsMemWf s h
  | vfReset f => exact execVfReset_keepsMemWf f s h
  | thermalStep temps => exact execThermalStep_keepsMemWf temps s h
  | thermalTrip temps => exact execThermalTrip_keepsMemWf temps s h
  | watchdogRestart => exact execWatchdogRestart_keepsMemWf s h
  | qcreate f => exact execQcreate_keepsMemWf f s h
  | qdestroy f => exact execQdestroy_keepsMemWf f s h
  | policyload f => exact execPolicyload_keepsMemWf f s h
  | fwstage => exact execFwstage_keepsMemWf s h
  | fwactivate w => exact execFwactivate_keepsMemWf w s h
  | fwfuse => exact execFwfuse_keepsMemWf s h
  | attest nonce => exact execAttest_keepsMemWf nonce s h
  | tailWrite f j v => exact execTailWrite_keepsMemWf f j v s h
  | doorbellBadWrite f j => exact execDoorbellBadWrite_keepsMemWf f j s h
  | queueReexamine q => exact execQueueReexamine_keepsMemWf q s h
  | headMirrorWrite q => exact execHeadMirrorWrite_keepsMemWf q s h
  | slice f => exact execSlice_keepsMemWf f s h
  | run f => exact execRun_keepsMemWf f s h
  | cancelPacketRun f => exact execCancelPacketRun_keepsMemWf f s h
  | cancelPacketPhase f => exact execCancelPacketPhase_keepsMemWf f s h
  | cancelPacketJob f => exact execCancelPacketJob_keepsMemWf f s h
  | setctr f => exact execSetctr_keepsMemWf f s h
  | nopPacket f => exact execNopPacket_keepsMemWf f s h
  | runAdmit f => exact execRunAdmit_keepsMemWf f s h
  | entryRecordAppend run => exact execEntryRecordAppend_keepsMemWf run s h
  | partownWrite who p v => exact execPartownWrite_keepsMemWf who p v s h
  | quotaWrite who off v => exact execQuotaWrite_keepsMemWf who off v s h
  | lofthbmWrite who d v => exact execLofthbmWrite_keepsMemWf who d v s h
  | ptrootWrite who f v => exact execPtrootWrite_keepsMemWf who f v s h
  | invalidate who v => exact execInvalidate_keepsMemWf who v s h
  | invalidationComplete => exact execInvalidationComplete_keepsMemWf s h
  | regionWrite who f off v => exact execRegionWrite_keepsMemWf who f off v s h
  | regionClearDone f r => exact execRegionClearDone_keepsMemWf f r s h
  | preemptSaveFunction f => exact execPreemptSaveFunction_keepsMemWf f s h
  | preemptSaveJob f job => exact execPreemptSaveJob_keepsMemWf f job s h
  | cut f => exact execCut_keepsMemWf f s h
  | cutResume f => exact execCutResume_keepsMemWf f s h
  | readback => exact execReadback_keepsMemWf s h
  | assistReply v => exact execAssistReply_keepsMemWf v s h
  | assistTimeout rseq => exact execAssistTimeout_keepsMemWf rseq s h
  | registerWrite who bar off size v => exact execRegisterWrite_keepsMemWf who bar off size v s h
  | recordAppend em => exact execRecordAppend_keepsMemWf em s h
  | muster r node => exact execMuster_keepsMemWf r node s h
  | musterTimeout r node => exact execMusterTimeout_keepsMemWf r node s h
  | blockStart core => exact execBlockStart_keepsMemWf core s h
  | stealable b => exact execStealable_keepsMemWf b s h
  | steal die cores => exact execSteal_keepsMemWf die cores s h
  | teamPark t => exact execTeamPark_keepsMemWf t s h
  | teamResume t => exact execTeamResume_keepsMemWf t s h
  | probeQuiet r node => exact execProbeQuiet_keepsMemWf r node s h
  | blockRetire b => exact execBlockRetire_keepsMemWf b s h
  | trapEntry t lane => exact execTrapEntry_keepsMemWf t lane s h
  | logfullTimeout t lane => exact execLogfullTimeout_keepsMemWf t lane s h
  | lineFill t va damage => exact execLineFill_keepsMemWf t va damage s h
  | registerFill t => exact execRegisterFill_keepsMemWf t s h
  | fullSave t => exact execFullSave_keepsMemWf t s h
  | savedBlockResume b core => exact execSavedBlockResume_keepsMemWf b core s h
  | copyStart core tag => exact execCopyStart_keepsMemWf core tag s h
  | copyComplete core tag => exact execCopyComplete_keepsMemWf core tag s h
  | waitwTimeout t lane => exact execWaitwTimeout_keepsMemWf t lane s h
  | zscanComplete e => exact execZscanComplete_keepsMemWf e s h
  | nmvComplete e => exact execNmvComplete_keepsMemWf e s h
  | mxstComplete e => exact execMxstComplete_keepsMemWf e s h
  | reserve m => exact execReserve_keepsMemWf m s h
  | grant token => exact execGrant_keepsMemWf token s h
  | refuse token reason => exact execRefuse_keepsMemWf token reason s h
  | hold token => exact execHold_keepsMemWf token s h
  | record m => exact execRecord_keepsMemWf m s h
  | arrived token count => exact execArrived_keepsMemWf token count s h
  | holdTimer => exact execHoldTimer_keepsMemWf s h
  | remoteTimeout token => exact execRemoteTimeout_keepsMemWf token s h
  | linkReset port up cause seqs => exact execLinkReset_keepsMemWf port up cause seqs s h
  | uncorrectedEcc die struc addr corrected => exact execUncorrectedEcc_keepsMemWf die struc addr corrected s h
  | yardMessageDropped port => exact execYardMessageDropped_keepsMemWf port s h
  | walkEnd => exact execWalkEnd_keepsMemWf s h
  | walkLdi o => exact execWalkLdi_keepsMemWf o s h
  | walkLoop o => exact execWalkLoop_keepsMemWf o s h
  | walkLidx o => exact execWalkLidx_keepsMemWf o s h
  | walkBrz o => exact execWalkBrz_keepsMemWf o s h
  | walkBrnz o => exact execWalkBrnz_keepsMemWf o s h
  | walkRow o => exact execWalkRow_keepsMemWf o s h
  | walkRowm o => exact execWalkRowm_keepsMemWf o s h
  | walkCset o => exact execWalkCset_keepsMemWf o s h
  | walkCld o => exact execWalkCld_keepsMemWf o s h
  | walkRowl o => exact execWalkRowl_keepsMemWf o s h
  | walkFlush => exact execWalkFlush_keepsMemWf s h
  | npbLds o => exact execNpbLds_keepsMemWf o s h
  | npbSts o => exact execNpbSts_keepsMemWf o s h
  | npbLdv o => exact execNpbLdv_keepsMemWf o s h
  | walkMovi o | walkAdd o | walkSub o | walkAddi o | walkMul o | walkDivu o | walkRemu o | walkAnd o | walkXor o
  | walkShli o | walkShri o | walkHash o | walkMsk o =>
    exact walkReg_keepsMemWf _ _ _ h

/-! ### Turns -/

/-- The state that a fetch leaves has its memories in canonical form. -/
def Fetched.MemWf (r : Fetched) : Prop :=
  match r with
  | .none s _ => s.memWf = true
  | .illegal s _ => s.memWf = true
  | .run s _ _ => s.memWf = true

theorem Fetched.memWf_if {c : Prop} [Decidable c] {a b : Fetched} (ha : a.MemWf) (hb : b.MemWf) :
    (if c then a else b).MemWf := by split <;> assumption

theorem State.fetchPath_memWf (s : State) (tn : Nat) (pc : Dbl) (h : s.memWf = true) : (s.fetchPath tn pc).MemWf := by
  unfold State.fetchPath
  dsimp only
  split
  · exact State.waitAll_memWf _ _ _ h
  · split
    · exact State.takeFaults_memWf _ _ _ _ _ h
    · next p _ _ =>
      have hw := State.fetchWords_memWf s tn pc p h
      split
      · next e => rw [e] at hw; exact hw
      · next u ws e =>
        rw [e] at hw
        have hu (v : Team) (c : Prop) [Decidable c] (asked : List Nat) (fs : List (Nat × FaultInfo)) :
            ((if c then u.setTeam tn v else (u.setTeam tn v).dropAnswers tn asked).takeFaults tn fs pc pc).memWf = true :=
          State.takeFaults_memWf _ _ _ _ _ (State.memWf_if hw hw)
        refine Fetched.memWf_if (hu _ _ _ _) ?_
        cases decodeAt ws (slotOf pc) with
        | none => exact hu _ _ _ _
        | some d => exact hu _ _ _ _

theorem exec_useGroups_keepsMemWf (i : Instr) (s : State) (tn : Nat) (gs : List Nat) (iss : Issue) (h : s.memWf = true) :
    KeepsMemWf (exec i { s.useGroups tn gs gs with cur := some iss }) :=
  exec_keepsMemWf i _ ((State.useGroups_memWf s tn gs gs).trans h)

theorem issueSecond_keepsMemWf (s : State) (t : Team) (iss : Issue) (i : Instr) (h : s.memWf = true) :
    KeepsMemWf (issueSecond s t iss i) := by
  unfold issueSecond
  split
  · exact (keepsMemWf_next _).mpr h
  · next iss' k _ =>
    have hx := exec_useGroups_keepsMemWf k s iss'.team (s.namedGroups iss'.team iss'.group k) iss' h
    dsimp only
    split
    · next s' e => exact (keepsMemWf_next _).mpr (hx s' e)
    · exact hx

@[simp] theorem State.serviceTurn_memWf (s : State) (tn : Nat) : (s.serviceTurn tn).memWf = s.memWf := by
  unfold State.serviceTurn
  split
  · dsimp only
    split <;> simp
  · rfl

theorem State.issued_memWf (s0 s : State) (tn : Nat) (pc : Dbl) (group : List Nat) :
    (s0.issued s tn pc group).memWf = s.memWf := (State.setCore_memWf _ _ _).trans (State.setTeam_memWf _ _ _)

theorem attempt_keepsMemWf (s : State) (tn : Nat) (pc : Dbl) (h : s.memWf = true) : KeepsMemWf (attempt s tn pc).1 := by
  have hf := State.fetchPath_memWf s tn pc h
  unfold attempt
  split <;> rename_i e <;> rw [e] at hf
  · exact (keepsMemWf_next _).mpr hf
  · exact (keepsMemWf_next _).mpr ((State.issued_memWf _ _ _ _ _).trans (State.issueIllegal_memWf _ _ hf))
  · next u iss i =>
    dsimp only
    split
    · have hx := exec_useGroups_keepsMemWf i u tn (u.namedGroups tn iss.group i) iss hf
      split
      · next s2 e2 =>
        have h2 := hx s2 e2
        split
        · exact (keepsMemWf_next _).mpr h2
        · have hs := issueSecond_keepsMemWf { s2 with cur := none } (u.team tn) iss i h2
          split
          · next s3 e3 => exact (keepsMemWf_next _).mpr ((State.issued_memWf _ _ _ _ _).trans (hs s3 e3))
          · exact hs
      · exact hx
    · exact (keepsMemWf_next _).mpr hf

theorem tryPaths_keepsMemWf (ps : List (Nat × Dbl)) (s : State) (h : s.memWf = true) : KeepsMemWf (tryPaths ps s) := by
  induction ps generalizing s with
  | nil => exact (keepsMemWf_next _).mpr h
  | cons p r ih =>
    obtain ⟨tn, pc⟩ := p
    have ha := attempt_keepsMemWf (s.serviceTurn tn) tn pc ((State.serviceTurn_memWf _ _).trans h)
    unfold tryPaths
    split
    · split
      · next s' e => exact ih _ (ha s' (by rw [e]))
      · next o b e => rw [e] at ha; exact ha
    · exact ih s h

theorem issueTurn_keepsMemWf (n : Nat) (s : State) (h : s.memWf = true) : KeepsMemWf (issueTurn n s) := by
  unfold issueTurn
  split
  · exact execTrapEntry_keepsMemWf _ _ _ h
  · exact tryPaths_keepsMemWf _ _ h

theorem eventTurn_keepsMemWf (i : Instr) (s : State) (h : s.memWf = true) : KeepsMemWf (eventTurn i s) := by
  unfold eventTurn
  split
  · split
    · exact exec_keepsMemWf i s h
    · exact (keepsMemWf_next _).mpr h
  · exact (keepsMemWf_next _).mpr h

theorem darkTurn_keepsMemWf (t : Turn) (s : State) (h : s.memWf = true) : KeepsMemWf (darkTurn t s) := by
  unfold darkTurn
  split
  · exact execColdReset_keepsMemWf _ h
  · exact execAttest_keepsMemWf _ _ h
  · exact (keepsMemWf_next _).mpr ((State.hostRead_memWf _ _ _ _ _).trans h)
  · exact (keepsMemWf_next _).mpr ((State.sidebandRead_memWf _ _).trans h)
  · exact (keepsMemWf_next _).mpr h

@[simp] theorem State.inPlace_memWf (s : State) (ps : List CyclePlace) : (s.inPlace ps).memWf = s.memWf := by
  unfold State.inPlace
  split
  · exact State.tick_memWf s
  · rfl

theorem runTurn_keepsMemWf (t : Turn) (s : State) (h : s.memWf = true) : KeepsMemWf (runTurn t s) := by
  cases t with
  | issue n => exact issueTurn_keepsMemWf n s h
  | walk n => exact State.walkTurn_keepsMemWf s n h
  | policy => exact State.policyStep_keepsMemWf s h
  | event i => exact eventTurn_keepsMemWf i s h
  | outsideWrite t n v => exact (keepsMemWf_next _).mpr (State.outsideWrite_memWf s t n v.toNat h)
  | _ => simp [runTurn, h]

theorem takeTurn_keepsMemWf (t : Turn) (s : State) (h : s.memWf = true) : KeepsMemWf (takeTurn t s) := by
  unfold takeTurn
  split
  · exact darkTurn_keepsMemWf t s h
  · exact runTurn_keepsMemWf t _ ((State.inPlace_memWf s _).trans h)

/-- A turn that keeps the canonical form of the memories. -/
def KeepsTurn (f : TurnFn) : Prop := ∀ s : State, s.memWf = true → KeepsMemWf (f s)

theorem placed_keepsMemWf {p : State → List CyclePlace} {f : TurnFn} (hf : KeepsTurn f) : KeepsTurn (placed p f) :=
  fun s h => hf _ ((State.inPlace_memWf s _).trans h)

/-- Every turn of a list keeps the canonical form of the memories. -/
def KeepsTurns (l : List TurnFn) : Prop := ∀ f ∈ l, KeepsTurn f

theorem keepsTurns_nil : KeepsTurns [] := nofun

theorem KeepsTurns.cons {f : TurnFn} {l : List TurnFn} (hf : KeepsTurn f) (hl : KeepsTurns l) :
    KeepsTurns (f :: l) := List.forall_mem_cons.mpr ⟨hf, hl⟩

theorem KeepsTurns.single {f : TurnFn} (hf : KeepsTurn f) : KeepsTurns [f] := .cons hf keepsTurns_nil

theorem KeepsTurns.append {k l : List TurnFn} (hk : KeepsTurns k) (hl : KeepsTurns l) : KeepsTurns (k ++ l) :=
  List.forall_mem_append.mpr ⟨hk, hl⟩

theorem keepsTurns_ite {c : Prop} [Decidable c] {k l : List TurnFn} (hk : KeepsTurns k) (hl : KeepsTurns l) :
    KeepsTurns (if c then k else l) := by split <;> assumption

theorem keepsTurns_map {α : Type} (l : List α) {g : α → TurnFn} (hg : ∀ a, KeepsTurn (g a)) :
    KeepsTurns (l.map g) := List.forall_mem_map.mpr fun a _ => hg a

theorem keepsTurns_flatMap {α : Type} (l : List α) {g : α → List TurnFn} (hg : ∀ a, KeepsTurns (g a)) :
    KeepsTurns (l.flatMap g) := List.forall_mem_flatMap.mpr fun a _ => hg a

theorem floorTurns_keepsMemWf (id : Nat) : KeepsTurns [execFloorBroadcast, execScFloorReached id] :=
  .cons (exec_keepsMemWf .floorBroadcast) (.single (execScFloorReached_keepsMemWf id))

theorem memoryTurns_keepsMemWf (s : State) : KeepsTurns (memoryTurns s) := by
  unfold memoryTurns
  refine .append (.append (.append (keepsTurns_flatMap _ fun a => .append ?_ ?_) ?_) ?_) ?_
  · split
    · exact .single (placed_keepsMemWf (execHomeAccess_keepsMemWf a.id))
    · exact keepsTurns_ite (.single (execAcknowledgement_keepsMemWf a.id))
        (.single (placed_keepsMemWf (execLoadResult_keepsMemWf a.id)))
  · exact keepsTurns_ite (floorTurns_keepsMemWf _) keepsTurns_nil
  · exact keepsTurns_map _ fun p => execPairAccept_keepsMemWf p.id
  · exact keepsTurns_flatMap _ fun e => .cons (execZscanComplete_keepsMemWf e.id)
      (.cons (placed_keepsMemWf (execNmvComplete_keepsMemWf e.id))
      (.cons (execMxstComplete_keepsMemWf e.id) (floorTurns_keepsMemWf e.id)))
  · exact keepsTurns_flatMap _ fun c => keepsTurns_flatMap _ fun k => .cons (execCopyStart_keepsMemWf c.1 k.1)
      (.cons (fun s h => (keepsMemWf_next _).mpr (State.copyMove_memWf s c.1 k.1 k.2.total h))
        (.single (placed_keepsMemWf (execCopyComplete_keepsMemWf c.1 k.1))))

theorem teamTurns_keepsMemWf (t : Nat × Team) :
    KeepsTurns ((if t.2.filling = [] then [] else [execRegisterFill t.1]) ++ if t.2.parked then [execTeamResume t.1]
      else []) :=
  .append (keepsTurns_ite keepsTurns_nil (.single (execRegisterFill_keepsMemWf t.1)))
    (keepsTurns_ite (.single (execTeamResume_keepsMemWf t.1)) keepsTurns_nil)

theorem coreTurns_keepsMemWf (s : State) : KeepsTurns (coreTurns s) := by
  unfold coreTurns
  refine .append (.append ?_ ?_) ?_
  · exact keepsTurns_map _ fun p => placed_keepsMemWf (execTrapEntry_keepsMemWf p.1 p.2.1)
  · refine keepsTurns_flatMap _ fun t => .append (teamTurns_keepsMemWf t) (keepsTurns_flatMap _ fun L => ?_)
    split
    · exact .single (placed_keepsMemWf (execBarrierArrival_keepsMemWf t.1 L))
    · exact .single (placed_keepsMemWf (execBarrierArrival_keepsMemWf t.1 L))
    · exact .single (placed_keepsMemWf (execTrapEntry_keepsMemWf t.1 L))
    · exact keepsTurns_nil
  · refine keepsTurns_flatMap _ fun c => .append (.append ?_ ?_) ?_
    · exact keepsTurns_ite keepsTurns_nil (.single (placed_keepsMemWf (issueTurn_keepsMemWf c.1)))
    · exact keepsTurns_ite (.single fun s h => State.walkTurn_keepsMemWf s c.1 h) keepsTurns_nil
    · exact keepsTurns_ite keepsTurns_nil
        (.single fun s h => (keepsMemWf_next _).mpr ((State.drainGroup_memWf s c.1).trans h))

theorem takeTurns_keepsMemWf (f : Nat) :
    KeepsTurns [execRun f, execNopPacket f, execSetctr f, execCancelPacketRun f, execCancelPacketPhase f,
      execCancelPacketJob f] :=
  .cons (execRun_keepsMemWf f) (.cons (execNopPacket_keepsMemWf f) (.cons (execSetctr_keepsMemWf f)
    (.cons (execCancelPacketRun_keepsMemWf f)
    (.cons (execCancelPacketPhase_keepsMemWf f) (.single (execCancelPacketJob_keepsMemWf f))))))

theorem yardTurns_keepsMemWf (s : State) : KeepsTurns (yardTurns s) := by
  unfold yardTurns
  refine .append (.append (.append (.append (.append (.append ?_ ?_) ?_) ?_) ?_) ?_) ?_
  · exact keepsTurns_map _ fun e => placed_keepsMemWf (execRecordAppend_keepsMemWf e.id)
  · exact keepsTurns_flatMap _ fun k => .cons (placed_keepsMemWf (execMuster_keepsMemWf _ _))
      (.single (execProbeQuiet_keepsMemWf _ _))
  · exact keepsTurns_flatMap _ fun b => .cons (placed_keepsMemWf (execBlockRetire_keepsMemWf b.1))
      (keepsTurns_map _ fun i => placed_keepsMemWf (execBlockStart_keepsMemWf _))
  · exact keepsTurns_map _ fun r => placed_keepsMemWf (execEntryRecordAppend_keepsMemWf r.1)
  · refine keepsTurns_flatMap _ fun f => .append ?_ ?_
    · exact List.forall_mem_map.mpr fun g hg => placed_keepsMemWf (takeTurns_keepsMemWf f.1 g hg)
    · exact .cons (execRunAdmit_keepsMemWf f.1) (.cons (execQcreate_keepsMemWf f.1) (.cons (execQdestroy_keepsMemWf f.1)
        (.single (execPolicyload_keepsMemWf f.1))))
  · exact keepsTurns_flatMap _ fun q => .cons (execQueueReexamine_keepsMemWf q.1)
      (.single (execHeadMirrorWrite_keepsMemWf q.1))
  · exact .single execInvalidationComplete_keepsMemWf

theorem defaultTurn_keepsMemWf (s : State) (h : s.memWf = true) : KeepsMemWf (defaultTurn s) := by
  have hall : KeepsTurns ((fun s => .next s.tick) :: (memoryTurns s ++ coreTurns s ++ yardTurns s)) :=
    .cons (fun u hu => (keepsMemWf_next _).mpr ((State.tick_memWf u).trans hu))
      (.append (.append (memoryTurns_keepsMemWf s) (coreTurns_keepsMemWf s)) (yardTurns_keepsMemWf s))
  unfold defaultTurn
  split
  · exact (keepsMemWf_next _).mpr h
  · split
    · exact execBootStageComplete_keepsMemWf _ _ h
    · dsimp only
      split
      · next f e => exact hall f (List.mem_of_getElem? e) s h
      · exact (keepsMemWf_next _).mpr h

/-! ### The step -/

/-- The turn that a step takes: the next of the agenda, or a default one. -/
def stepTurn (s : State) : Host.Outcome State Fault Refusal :=
  match s.agenda with
  | t :: r => takeTurn t { s with agenda := r }
  | [] => defaultTurn s

theorem stepTurn_keepsMemWf (s : State) (h : s.memWf = true) : KeepsMemWf (stepTurn s) := by
  unfold stepTurn
  split
  · exact takeTurn_keepsMemWf _ _ h
  · exact defaultTurn_keepsMemWf s h

theorem step_keepsMemWf (s : State) (h : s.memWf = true) : KeepsMemWf (step s) := by
  have ht := stepTurn_keepsMemWf { s with stamp := s.stamp + 1 } h
  unfold step
  dsimp only
  split
  · next s' e => exact (keepsMemWf_next _).mpr (State.settle_memWf s' (ht s' e))
  · exact ht

/-- Settles O59: whatever the turn is, it keeps the form (`stepTurn_keepsMemWf`), and so does what follows it at once. -/
theorem stepsKeepMemoryForm : Obligations.StepsKeepMemoryForm := fun s t h e => step_keepsMemWf s h t e

end Sys2Proof.Machine
end

section
/-! PROOFS of the statement of address and page checks (O26): the window, bound and alignment tests of an access, its checks in the
vault window, and the rows of 09 R231. -/
namespace Sys2Proof.Machine

/-! ### The tests before an address is resolved (09 R218, R219) -/

theorem windowOf_of_ge {a : Nat} (h : 3 * 2 ^ 56 ≤ a) : windowOf a = 3 := if_neg (by omega)

theorem windowOf_of_lt {a : Nat} (h : a < 3 * 2 ^ 56) : windowOf a = a / 2 ^ 56 := if_pos h

theorem State.checkAccess_of_nowin (s : State) (ag : Agent) (kind : AccessKind) {a : Nat} (n align : Nat)
    (h : 3 * 2 ^ 56 ≤ a) : s.checkAccess ag kind a n align = .error (.at codeNowin 0 a) :=
  if_pos (windowOf_of_ge h)

/-- An access whose last byte lies in another window than its first, or past the end of the address space. -/
theorem State.checkAccess_of_straddle (s : State) (ag : Agent) (kind : AccessKind) {a n : Nat} (align : Nat)
    (h : a < 3 * 2 ^ 56) (hw : a / 2 ^ 56 ≠ (a + n - 1) / 2 ^ 56) :
    s.checkAccess ag kind a n align = .error (.at codeStraddle 0 a) := by
  have hlast : windowOf (a + n - 1) ≠ a / 2 ^ 56 := by
    unfold windowOf
    split <;> omega
  unfold State.checkAccess
  rw [windowOf_of_lt h, if_neg (by omega), if_pos ((Bool.or_eq_true _ _).mpr (.inr (decide_eq_true hlast)))]

theorem State.checkAccess_of_window (s : State) (ag : Agent) (kind : AccessKind) {a n : Nat} (align : Nat)
    (h : a < 3 * 2 ^ 56) (hw : a / 2 ^ 56 = (a + n - 1) / 2 ^ 56) :
    s.checkAccess ag kind a n align = if a % align ≠ 0 then s.misaligned ag kind a else s.resolve ag kind a n := by
  have hlast : a + n - 1 < 3 * 2 ^ 56 := by omega
  have hin : (decide (2 ^ 64 ≤ a + n - 1) || decide (windowOf (a + n - 1) ≠ windowOf a)) = false := by
    rw [windowOf_of_lt h, windowOf_of_lt hlast, hw]
    simp
    omega
  unfold State.checkAccess
  rw [if_neg (by rw [windowOf_of_lt h]; omega), hin, if_neg Bool.false_ne_true]

/-! ### Misaligned accesses (03 R62) -/

theorem State.misaligned_of_door {s : State} {ag : Agent} {kind : AccessKind} {a o : Nat}
    (h : s.resolve ag kind a 1 = .ok (.door o)) :
    s.misaligned ag kind a =
      if kind = .fetch ∨ s.doorOwned ag.func o = true then .error (.at codeAlign 0 a) else .ok (.door o) := by
  simp only [State.misaligned, h]
  cases kind <;> cases s.doorOwned ag.func o <;> rfl

theorem State.misaligned_of_not_door {s : State} {ag : Agent} {kind : AccessKind} {a : Nat}
    (hdoor : ∀ o, s.resolve ag kind a 1 ≠ .ok (.door o)) (hwait : ∀ e, s.resolve ag kind a 1 = .error e → e.code ≠ 0) :
    s.misaligned ag kind a = .error (.at codeAlign 0 a) := by
  unfold State.misaligned
  split
  · next o ho => exact absurd ho (hdoor o)
  · next e he => exact if_neg (hwait e he)
  · rfl

/-! ### The vault window (09 R222) -/

theorem firstBad_eq_none {p : Nat → Bool} {a n : Nat} (h : ∀ b, a ≤ b → b < a + n → p b = false) : firstBad p a n = none := by
  induction n generalizing a with
  | zero => rfl
  | succ k ih =>
    rw [firstBad, h a (Nat.le_refl a) (by omega), if_neg Bool.false_ne_true]
    exact ih fun b hb hlt => h b (by omega) (by omega)

theorem firstBad_of_first {p : Nat → Bool} {a n : Nat} (hn : 0 < n) (h : p a = true) : firstBad p a n = some a := by
  obtain ⟨k, rfl⟩ := Nat.exists_eq_succ_of_ne_zero hn.ne'
  exact if_pos h

theorem State.vaultBad_eq_false {s : State} {ag : Agent} {b : Nat} (hsup : ag.sup = false)
    (h : natBits b 55 32 = 0 ∧ natBits b 31 24 < 160 ∧ natBits b 23 0 < 0x400000 ∧ ag.vbase ≤ b ∧ b < ag.vbase + ag.vaultb) :
    s.vaultBad ag b = false := by
  obtain ⟨hhigh, hcluster, hbyte, hlo, hhi⟩ := h
  simp [State.vaultBad, hhigh, hcluster, hbyte, hsup, hlo, hhi]

theorem State.vaultBad_of_outside {s : State} {ag : Agent} {b : Nat} (hsup : ag.sup = false)
    (h : b < ag.vbase ∨ ag.vbase + ag.vaultb ≤ b) : s.vaultBad ag b = true := by
  simp [State.vaultBad, hsup, h]

/-- An access in the vault window none of whose bytes the agent may not touch. -/
theorem State.resolve_of_vault (s : State) {ag : Agent} {kind : AccessKind} {a n : Nat} (h : a / 2 ^ 56 = 1)
    (hkind : kind ≠ .fetch) (hbad : firstBad (s.vaultBad ag) a n = none) :
    s.resolve ag kind a n = .ok (.vault (natBits a 31 24) (natBits a 23 0)) := by
  have hwin : windowOf a = 1 := (windowOf_of_lt (by omega)).trans h
  simp only [State.resolve, hwin, hkind, if_false, hbad]

/-- The lowest byte that the agent may not touch takes the fault. -/
theorem State.resolve_of_vaultbound (s : State) {ag : Agent} {kind : AccessKind} {a n b : Nat} (h : a / 2 ^ 56 = 1)
    (hkind : kind ≠ .fetch) (hbad : firstBad (s.vaultBad ag) a n = some b) :
    s.resolve ag kind a n = .error (.at codeVaultbound 0 b) := by
  have hwin : windowOf a = 1 := (windowOf_of_lt (by omega)).trans h
  simp only [State.resolve, hwin, hkind, if_false, hbad]

/-! ### The permissions of a page (09 R231) -/

theorem natBits_self (e i : Nat) : natBits e i i = (e.testBit i).toNat := by
  rw [Nat.toNat_testBit, natBits, Nat.shiftRight_eq_div_pow, Nat.add_sub_cancel_left, pow_one]

theorem leafPermits_eq (e : Nat) (kind : AccessKind) (user door : Bool) :
    leafPermits e kind user door =
      if kind = .fetch ∧ (e.testBit 2 = false ∨ natBits e 9 8 ≠ 0 ∨ door = true) then some 7
      else if kind = .write ∧ e.testBit 4 = true then some 6
      else if kind = .write ∧ e.testBit 1 = false then some 5
      else if user = true ∧ e.testBit 3 = false then some 8
      else none := by
  simp [leafPermits, natBits_self, or_assoc]

/-- Settles O26: each clause is the test of 09 R219 that decides there, and the page's rows are `leafPermits_eq`. -/
theorem addressAndPageChecks : Obligations.AddressAndPageChecks := by
  unfold Obligations.AddressAndPageChecks
  refine ⟨fun s ag kind a n align hn _ _ => ⟨fun h => ?nowin, fun h hw => ?straddle, fun h hw hal hdoor hwait => ?misaligned,
    fun h hw hal o ho => ?door, fun h hlast hal hkind hsup hin => ?vault, fun h hlast hal hkind hsup hout => ?vaultbound⟩,
    leafPermits_eq⟩
  case nowin => exact s.checkAccess_of_nowin ag kind n align h
  case straddle => exact s.checkAccess_of_straddle ag kind align h hw
  case misaligned =>
    rw [s.checkAccess_of_window ag kind align h hw, if_pos hal, State.misaligned_of_not_door hdoor hwait]
    rfl
  case door =>
    rw [s.checkAccess_of_window ag kind align h hw, if_pos hal, State.misaligned_of_door ho]
    rfl
  case vault =>
    rw [s.checkAccess_of_window ag kind align (by omega) (h.trans hlast.symm), if_neg (not_not_intro hal)]
    exact s.resolve_of_vault h hkind (firstBad_eq_none fun b hlo hhi => State.vaultBad_eq_false hsup (hin b hlo hhi))
  case vaultbound =>
    rw [s.checkAccess_of_window ag kind align (by omega) (h.trans hlast.symm), if_neg (not_not_intro hal)]
    exact s.resolve_of_vaultbound h hkind (firstBad_of_first hn (State.vaultBad_of_outside hsup hout))

end Sys2Proof.Machine
end

section
/-! PROOFS shared by the statements of memory instructions (O24, O25, O27, O28, O33, O36, O37, O38): what an issue leaves whose meaning
faults some of its lanes, in lane order, and what one leaves whose lanes all go on. -/
namespace Sys2Proof.Machine
open Sys2Proof.Claims

/-! ### Faults in lane order -/

/-- Each lane of the list is below the lanes that follow it. -/
def Ascending {α : Type} (fs : List (Nat × α)) : Prop := fs.Pairwise fun x y => x.1 < y.1

theorem insertFault_of_above {x : Nat × FaultInfo} {fs : List (Nat × FaultInfo)} (h : ∀ y ∈ fs, y.1 < x.1) :
    insertFault x fs = fs ++ [x] := by
  induction fs with
  | nil => rfl
  | cons y r ih =>
    have hy : ¬ x.1 < y.1 := Nat.lt_asymm (h y List.mem_cons_self)
    rw [insertFault, if_neg hy, ih fun z hz => h z (List.mem_cons_of_mem _ hz)]
    rfl

/-- Faults that come in lane order stay in it. -/
theorem foldl_insertFault {fs : List (Nat × FaultInfo)} (h : Ascending fs) :
    fs.foldl (fun l x => insertFault x l) [] = fs := by
  suffices hgen : ∀ gs : List (Nat × FaultInfo), Ascending (gs ++ fs) →
      fs.foldl (fun l x => insertFault x l) gs = gs ++ fs from hgen [] h
  induction fs with
  | nil => exact fun gs _ => (List.append_nil gs).symm
  | cons x r ih =>
    intro gs hgs
    have hlow : ∀ y ∈ gs, y.1 < x.1 := fun y hy => (List.pairwise_append.mp hgs).2.2 y hy x List.mem_cons_self
    rw [List.foldl_cons, insertFault_of_above hlow, ih (List.pairwise_cons.mp h).2 _ (by simpa using hgs)]
    simp

theorem actives_ascending (s : State) (iss : Issue) : (actives s iss).Pairwise (· < ·) :=
  List.pairwise_lt_range.filter _

/-- Answers of ascending lanes, each lane with at most one, are in lane order. -/
theorem ascending_filterMap {α : Type} {ls : List Nat} (h : ls.Pairwise (· < ·)) (f : Nat → Option α) :
    Ascending (ls.filterMap fun L => (f L).map fun e => (L, e)) := by
  rw [Ascending, List.pairwise_filterMap]
  refine h.imp fun {L M} hlt x hx y hy => ?_
  obtain ⟨-, -, rfl⟩ := Option.map_eq_some_iff.mp hx
  obtain ⟨-, -, rfl⟩ := Option.map_eq_some_iff.mp hy
  exact hlt

theorem Ascending.map {α β : Type} {fs : List (Nat × α)} (h : Ascending fs) (g : α → β) :
    Ascending (fs.map fun x => (x.1, g x.2)) := List.pairwise_map.mpr h

theorem ascending_map (s : State) (iss : Issue) (f : Nat → FaultInfo) : Ascending ((actives s iss).map fun L => (L, f L)) :=
  List.pairwise_map.mpr (actives_ascending s iss)

/-! ### What an issue leaves (06 R165) -/

/-- Where an effect does nothing to lanes but make some wait, those stay where they are, and the others go on. -/
theorem Lane.after_waits (l : Lane) (iss : Issue) {e : Effect} {L : Nat} {w : Wait} {p : Prop} [Decidable p]
    (he : e = { st := e.st, faults := e.faults, waits := e.waits, check := e.check })
    (hw : e.waits.lookup L = if p then some w else none) :
    l.after iss.pc (nextPc iss.pc iss.len) e L = if p then waitsFor w l else goneOn iss l := by
  rw [he]
  split_ifs at hw ⊢ <;> simp only [Lane.after, hw] <;> rfl

/-- The issuing state once the lanes of `fs` have taken their faults. -/
def State.faulted (s : State) (iss : Issue) (fs : List (Nat × FaultInfo)) : State :=
  if fs = [] then s else (s.dropAnswers iss.team (fs.map (·.1))).takeFaults iss.team fs iss.pc (nextPc iss.pc iss.len)

/-- An issue whose faults come in lane order, and none of which waits for a page walk. -/
theorem State.finish_of_ascending (s : State) (iss : Issue) (e : Effect) (hfs : Ascending e.faults)
    (hcode : ∀ x ∈ e.faults, x.2.code ≠ 0) (hs : e.stall = false) :
    s.finish iss [] e = e.checks iss.team (e.st.team iss.team).block
      ((e.st.setTeam iss.team ((e.st.team iss.team).issuedBut iss e e.faults)).faulted iss e.faults) := by
  have hb : (Team.movedBut (e.st.team iss.team) iss e e.faults).block = (e.st.team iss.team).block :=
    Team.mapLanes_other (fun u => u.block) (fun _ _ _ => rfl) _ _ _
  have hfind : e.faults.find? (fun x => x.2.code == 0) = none :=
    List.find?_eq_none.mpr fun x hx => by simpa using hcode x hx
  have hnil : (s : State) → s.takeFaults iss.team [] iss.pc (nextPc iss.pc iss.len) = s := fun _ => rfl
  unfold State.finish
  simp only [List.nil_append, foldl_insertFault hfs, hfind, hs, Bool.false_eq_true, if_false, Effect.checks, State.faulted, ← hb]
  by_cases he : e.faults = []
  · simp only [he, hnil, beq_self_eq_true, if_true]
    rfl
  · simp only [he, beq_eq_false_iff_ne.mpr he, Bool.false_eq_true, if_false]
    rfl

section
variable {i : Instr} {s u : State} {iss : Issue} {e : Effect} {blank : Team → Team} {lane : Nat → Lane → Lane}

/-- The effect has, outside the issuing team, what `u` has, and in it what `blank` leaves. -/
structure Effect.Frame (e : Effect) (u : State) (tn : Nat) (blank : Team → Team) : Prop where
  outside : ∀ W, e.st.setTeam tn W = u.setTeam tn W
  bare : blank { e.st.team tn with lanes := [], insns := 0, service := [] } =
    blank { u.team tn with lanes := [], insns := 0, service := [] }
  insns : (e.st.team tn).insns = (u.team tn).insns

/-- The lanes also are as in `u`. -/
structure Effect.From (e : Effect) (u : State) (tn : Nat) (blank : Team → Team) : Prop extends e.Frame u tn blank where
  lane : ∀ L, (e.st.team tn).lane L = (u.team tn).lane L

/-- A meaning whose effect is as `u` but for lanes that it moves: its lanes fault or are as the effect says, and the checks follow
that it asks for. -/
theorem does_of_frame {also : State → Prop} (hexec : exec i s = .next (s.finish iss [] e)) (hfs : Ascending e.faults)
    (hcode : ∀ x ∈ e.faults, x.2.code ≠ 0) (hs : e.stall = false) (hframe : e.Frame u iss.team blank)
    (hgone : ∀ L ∈ iss.group, L < 64 → e.faults.lookup L = none →
      ((e.st.team iss.team).lane L).after iss.pc (nextPc iss.pc iss.len) e L = lane L ((u.team iss.team).lane L))
    (hstay : ∀ L, ¬ (L < 64 ∧ L ∈ iss.group ∧ e.faults.lookup L = none) → (e.st.team iss.team).lane L = (u.team iss.team).lane L)
    (halso : also (u.setTeam iss.team ((e.st.team iss.team).issuedBut iss e e.faults))) :
    Does i s iss u e.faults blank lane also (e.checks iss.team (e.st.team iss.team).block) := by
  obtain ⟨houtside, hbare, hinsns⟩ := hframe
  refine ⟨_, ?exec, ⟨?only, ?bare, ?insns, fun M => ?lane⟩, halso⟩
  case exec => rw [hexec, State.finish_of_ascending s iss e hfs hcode hs, houtside, State.faulted]
  case only => rw [OnlyTeam, State.team_setTeam_self]
  case bare => rw [State.team_setTeam_self, Team.issuedBut_eq]; exact hbare
  case insns => rw [State.team_setTeam_self, Team.issuedBut_eq, ← hinsns]
  case lane =>
    rw [State.team_setTeam_self, Team.issuedBut_lane]
    by_cases hM : M < 64 ∧ M ∈ iss.group
    · simp only [if_pos hM]
      cases hl : e.faults.lookup M with
      | none => exact hgone M hM.2 hM.1 hl
      | some x => simp only [Option.isSome_some, if_true, hstay M (by simp [hl])]
    · simp only [if_neg hM, hstay M fun h => hM ⟨h.1, h.2.1⟩]

/-- A meaning whose effect is as `u`. -/
theorem does_of_from {also : State → Prop} (hexec : exec i s = .next (s.finish iss [] e)) (hfs : Ascending e.faults)
    (hcode : ∀ x ∈ e.faults, x.2.code ≠ 0) (hs : e.stall = false) (hfrom : e.From u iss.team blank)
    (hgone : ∀ L ∈ iss.group, e.faults.lookup L = none → ∀ l, l.after iss.pc (nextPc iss.pc iss.len) e L = lane L l)
    (halso : also (u.setTeam iss.team ((e.st.team iss.team).issuedBut iss e e.faults))) :
    Does i s iss u e.faults blank lane also (e.checks iss.team (e.st.team iss.team).block) :=
  does_of_frame hexec hfs hcode hs hfrom.toFrame
    (fun L hL _ hnone => by rw [hfrom.lane, hgone L hL hnone]) (fun L _ => hfrom.lane L) halso

/-- An effect that is `u` itself. -/
theorem Effect.from_self (hst : e.st = u) : e.From u iss.team blank := by
  subst hst
  exact ⟨⟨fun _ => rfl, rfl, rfl⟩, fun _ => rfl⟩

/-- An effect that stores in `u` a team whose lanes are `u`'s. -/
theorem Effect.from_setTeam {T : Team} (hst : e.st = u.setTeam iss.team T)
    (hbare : blank { T with lanes := [], insns := 0, service := [] } =
      blank { u.team iss.team with lanes := [], insns := 0, service := [] })
    (hinsns : T.insns = (u.team iss.team).insns) (hlane : ∀ L, T.lane L = (u.team iss.team).lane L) :
    e.From u iss.team blank := by
  have hT : e.st.team iss.team = T := by rw [hst, State.team_setTeam_self]
  exact ⟨⟨fun W => by rw [hst, State.setTeam_setTeam], by rw [hT]; exact hbare, by rw [hT]; exact hinsns⟩,
    fun L => by rw [hT]; exact hlane L⟩

/-- A meaning without a fault whose effect is as `u`. -/
theorem does_of_clean {also : State → Prop} (hexec : exec i s = .next (s.finish iss [] e)) (hfs : e.faults = []) (hs : e.stall = false)
    (hfrom : e.From u iss.team blank)
    (hgone : ∀ L ∈ iss.group, ∀ l, l.after iss.pc (nextPc iss.pc iss.len) e L = lane L l)
    (halso : also (u.setTeam iss.team ((e.st.team iss.team).issuedBut iss e []))) :
    Does i s iss u [] blank lane also (e.checks iss.team (e.st.team iss.team).block) := by
  have hdoes := does_of_from (also := also) hexec (by rw [hfs]; exact List.Pairwise.nil)
    (fun x hx => by rw [hfs] at hx; exact absurd hx List.not_mem_nil) hs hfrom (fun L hL _ => hgone L hL) (by rwa [hfs])
  rwa [hfs] at hdoes

/-- A meaning without a fault or a wait, whose lanes all go on. -/
theorem goesOn_of_finish (hexec : exec i s = .next (s.finish iss [] { st := u })) : GoesOn i s iss u :=
  does_of_clean hexec rfl rfl (Effect.from_self rfl) (fun _ _ _ => rfl) trivial

/-- A meaning that only raises faults. -/
theorem faultsWith_of_finish {fs : List (Nat × FaultInfo)} (hexec : exec i s = .next (s.finish iss [] { st := s, faults := fs }))
    (hne : fs ≠ []) (hfs : Ascending fs) (hcode : ∀ x ∈ fs, x.2.code ≠ 0) : FaultsWith i s iss fs := by
  obtain ⟨t, hrun, hframe, -⟩ := does_of_from (u := s) (blank := id) (lane := fun _ => goneOn iss) (also := fun _ => True)
    hexec hfs hcode rfl (Effect.from_self rfl) (fun _ _ _ _ => rfl) trivial
  refine ⟨t, hrun.trans ?_, hframe⟩
  simp only [hne, if_false]
  rfl

/-- A meaning that acts once for its team only goes on where no lane is Active. -/
theorem goesOn_of_idle {f : Ctx → Nat → Effect} (hx : exec i s = runInstr i s fun c => teamEffect s c (f c)) (h : Issued s iss i)
    (hact : actives s iss = []) : GoesOn i s iss s := by
  have hnone : (seen s iss i).act = [] := hact
  refine goesOn_of_finish (hx.trans ((runInstr_of_issued h _).trans ?_))
  rw [teamEffect, hnone]

/-- Where lanes are Active, it acts for the lowest. -/
theorem exec_of_teamEffect {f : Ctx → Nat → Effect} (hx : exec i s = runInstr i s fun c => teamEffect s c (f c)) (h : Issued s iss i)
    {L : Nat} {r : List Nat} (hact : actives s iss = L :: r) : exec i s = .next (s.finish iss [] (f (seen s iss i) L)) := by
  have hcons : (seen s iss i).act = L :: r := hact
  refine hx.trans ((runInstr_of_issued h _).trans ?_)
  rw [teamEffect, hcons]

theorem cannotIssue_of_finish {w : State} (hexec : exec i s = .next (s.finish iss [] { st := w, stall := true })) :
    CannotIssue i s := hexec.trans (congrArg _ (State.finish_stall s iss _ rfl rfl))

end

end Sys2Proof.Machine
end

section
/-! PROOFS of the statement of failing accesses (O25): where no lane passes its checks, each takes its own fault. -/
namespace Sys2Proof.Machine
open Sys2Proof.Claims

/-- Where no lane passes its checks, the meaning only raises the lanes' faults. -/
theorem memInstr_of_error {s : State} {iss : Issue} {i : Instr} {o : M64} {m : MemOp} {e : Nat → FaultInfo} (hi : Issued s iss i)
    (h : ∀ L, Act s iss L → s.checkMem (seen s iss i) L (laneAddr s iss o L) (2 ^ o.wid.toNat) m = .error (e L)) :
    memInstr i o m s = .next (s.finish iss [] { st := s, faults := (actives s iss).map fun L => (L, e L) }) := by
  refine (runInstr_of_issued hi _).trans (congrArg (fun x => Host.Outcome.next (s.finish iss [] x)) ?_)
  have hfound : ((seen s iss i).act.map fun L => (L, effAddr (seen s iss i).team L o,
      s.checkMem (seen s iss i) L (effAddr (seen s iss i).team L o) (memBytes o) m)) =
      (actives s iss).map fun L => (L, laneAddr s iss o L, .error (e L)) :=
    List.map_congr_left fun L hL => by rw [← h L hL]; rfl
  simp only [hfound, List.filterMap_map, Function.comp_def, List.filterMap_none, List.filterMap_eq_map', State.laneLogs,
    List.map_nil, State.logFaults_nil, List.filter_nil, State.overLanes, ite_self, List.filterMap_nil, List.append_nil,
    beq_self_eq_true, if_true]

/-- Settles O25: the faults of an issue whose lanes all fail are in lane order. -/
theorem accessFaultsAreTaken : Obligations.AccessFaultsAreTaken := by
  unfold Obligations.AccessFaultsAreTaken
  intro p hp o s iss e hi hact herr
  have hexec : exec (p.1 o) s = memInstr (p.1 o) o p.2 s := by
    simp only [List.mem_cons, List.not_mem_nil, or_false] at hp
    rcases hp with rfl | rfl | rfl | rfl | rfl | rfl | rfl | rfl | rfl | rfl | rfl | rfl | rfl <;> rfl
  refine faultsWith_of_finish (hexec.trans (memInstr_of_error hi fun L hL => (herr L hL).2)) (by simpa using hact)
    (ascending_map s iss e) fun x hx => ?_
  obtain ⟨L, hL, rfl⟩ := List.mem_map.mp hx
  exact (herr L hL).1

end Sys2Proof.Machine
end

section
/-! PROOFS of the statement of WAITC and WAITW (O27): when the four counters let an issue go on, and what a wait on a watch leaves of its
lanes and registers. -/
namespace Sys2Proof.Machine
open Sys2Proof.Claims

/-! ### The limits of LIT32 (10 R246) -/

theorem natBits_byte (n k : Nat) : natBits n (8 * k + 7) (8 * k) = n / 2 ^ (8 * k) % 256 := by
  have hwidth : 8 * k + 7 + 1 - 8 * k = 8 := by omega
  rw [natBits, Nat.shiftRight_eq_div_pow, hwidth]
  rfl

/-- Limit `k` of WAITC. -/
def waitLimit (o : X96) (k : Nat) : Nat := o.lit.toNat / 2 ^ (8 * k) % 256

/-- What a lane waits for at WAITC. -/
def waitLimits (o : X96) : Wait := .counters (waitLimit o 0) (waitLimit o 1) (waitLimit o 2) (waitLimit o 3)

/-- The counters of a team let WAITC go on. -/
def Team.withinLimits (T : Team) (o : X96) : Bool := T.countersOk (waitLimit o 0) (waitLimit o 1) (waitLimit o 2) (waitLimit o 3)

/-- The effect by which the lanes `ls` wait for the counters. -/
def waitsOn (s : State) (ls : List Nat) (w : Wait) : Effect := { st := s, waits := ls.map fun L => (L, w), check := true }

theorem execWaitc_of_issued {o : X96} {s : State} {iss : Issue} (h : Issued s iss (.waitc o)) :
    exec (.waitc o) s = .next (s.finish iss [] (if (s.team iss.team).withinLimits o then { st := s }
      else waitsOn s (actives s iss) (waitLimits o))) := by
  refine (runInstr_of_issued h _).trans (congrArg (fun x => Host.Outcome.next (s.finish iss [] x)) ?_)
  simp only [natBits_byte o.lit.toNat 0, natBits_byte o.lit.toNat 1, natBits_byte o.lit.toNat 2, natBits_byte o.lit.toNat 3]
  rfl

theorem Lane.after_waitsOn (l : Lane) (iss : Issue) (s : State) (ls : List Nat) (w : Wait) (L : Nat) :
    l.after iss.pc (nextPc iss.pc iss.len) (waitsOn s ls w) L = if L ∈ ls then waitsFor w l else goneOn iss l :=
  Lane.after_waits l iss rfl (lookup_map_lane ls (fun _ => w) L)

/-! ### Watches (10 R274) -/

/-- The lane waits for its watch. -/
def Lane.isArmed (l : Lane) : Bool := match l.watch with | .armed _ => true | _ => false

/-- What WAITW reads of a lane whose watch is not armed. -/
def Lane.watchStatus (l : Lane) : Word := if l.watch == .triggered then 0 else 2

/-- The lanes `ls`, whose watches are not armed, have read their status in register `d`. -/
def Team.endWatches (T : Team) (d : Nat) (status : Nat → Word) (ls : List Nat) : Team :=
  ls.foldl (fun t L => (t.setLane L { t.lane L with watch := .none }).setV L d (status L)) T

section
variable (T : Team) (d : Nat) (status : Nat → Word) (ls : List Nat)

theorem Team.endWatches_other {β : Type} (g : Team → β) (hg : ∀ (t : Team) (ls : SMap Lane) (v : SMap Word) (z : SMap Bool),
    g { t with lanes := ls, v := v, nonzero := z } = g t) : g (T.endWatches d status ls) = g T :=
  Team.fold_other g (fun L t => (t.setLane L { t.lane L with watch := .none }).setV L d (status L)) (fun _ t => hg t _ _ _) ls T

theorem Team.endWatches_lane (M : Nat) :
    (T.endWatches d status ls).lane M = if M ∈ ls then { T.lane M with watch := .none } else T.lane M := by
  induction ls generalizing T with
  | nil => rfl
  | cons L r ih =>
    rw [Team.endWatches, List.foldl_cons]
    refine (ih _).trans ?_
    rw [Team.lane_setV, Team.lane_setLane]
    by_cases hM : M = L
    · subst hM; simp
    · simp [hM]

theorem Team.endWatches_vreg (hd : d < 512) (M m : Nat) (hm : m < 512) :
    (T.endWatches d status ls).vreg M m = if M ∈ ls ∧ m = d then status M else T.vreg M m := by
  induction ls generalizing T with
  | nil => simp [Team.endWatches]
  | cons L r ih =>
    rw [Team.endWatches, List.foldl_cons]
    refine (ih _).trans ?_
    rw [Team.vreg_setV _ _ hd hm, Team.vreg_setLane]
    by_cases hM : M = L
    · subst hM
      by_cases hmd : m = d <;> simp [hmd]
    · simp [hM]

end

/-- The Active lanes whose watch is armed, and those whose watch is not. -/
def armedLanes (s : State) (iss : Issue) : List Nat := (actives s iss).filter fun L => ((s.team iss.team).lane L).isArmed
def unarmedLanes (s : State) (iss : Issue) : List Nat := (actives s iss).filter fun L => !(armedLanes s iss).contains L

theorem mem_armedLanes {s : State} {iss : Issue} {L : Nat} :
    L ∈ armedLanes s iss ↔ Act s iss L ∧ ((s.team iss.team).lane L).isArmed = true := List.mem_filter

theorem mem_unarmedLanes {s : State} {iss : Issue} {L : Nat} :
    L ∈ unarmedLanes s iss ↔ Act s iss L ∧ ((s.team iss.team).lane L).isArmed = false := by
  rw [unarmedLanes, List.mem_filter, List.contains_eq_mem, Bool.not_eq_true', decide_eq_false_iff_not, mem_armedLanes, not_and,
    Bool.not_eq_true]
  exact ⟨fun ⟨ha, hu⟩ => ⟨ha, hu ha⟩, fun ⟨ha, hu⟩ => ⟨ha, fun _ => hu⟩⟩

/-- The team once the unarmed lanes have read their status. -/
def State.watchesEnded (s : State) (iss : Issue) (d : Nat) : Team :=
  (s.team iss.team).endWatches d (fun L => ((s.team iss.team).lane L).watchStatus) (unarmedLanes s iss)

/-- The effect of WAITW. -/
def waitsOnWatch (s : State) (iss : Issue) (d : Nat) : Effect :=
  { st := s.setTeam iss.team (s.watchesEnded iss d), waits := (armedLanes s iss).map fun L => (L, .watch d) }

theorem Lane.after_waitsOnWatch (l : Lane) (s : State) (iss : Issue) (d L : Nat) :
    l.after iss.pc (nextPc iss.pc iss.len) (waitsOnWatch s iss d) L =
      if L ∈ armedLanes s iss then waitsFor (.watch d) l else goneOn iss l :=
  Lane.after_waits l iss rfl (lookup_map_lane _ (fun _ => Wait.watch d) L)

theorem execWaitw_of_issued {o : S32} {s : State} {iss : Issue} (h : Issued s iss (.waitw o)) :
    exec (.waitw o) s = .next (s.finish iss [] (if s.watchDue iss.team (actives s iss) then { st := s, stall := true }
      else waitsOnWatch s iss o.d.toNat)) :=
  runInstr_of_issued h _

theorem watchDue_iff (s : State) (tn : Nat) (ls : List Nat) :
    s.watchDue tn ls = true ↔ ∃ x ∈ s.accesses, x.team = tn ∧ x.lane ∈ ls ∧ x.stage = .issued ∧ x.kind = .watch := by
  simp [State.watchDue, and_assoc]

/-- WAITW with no WATCH on its way: armed lanes wait, the others have read their status. -/
theorem waitw_of_notDue {o : S32} {s : State} {iss : Issue} (h : Issued s iss (.waitw o))
    (hdue : s.watchDue iss.team (actives s iss) = false) :
    let w (L : Nat) : Lane := (s.team iss.team).lane L
    Does (.waitw o) s iss s [] exceptRegs
      (fun L l => if Act s iss L then (if (w L).isArmed then waitsFor (.watch o.d.toNat) l else goneOn iss { l with watch := .none })
        else goneOn iss l)
      (fun t => (∀ L, Act s iss L → (w L).isArmed = false → (t.team iss.team).vreg L o.d.toNat = (w L).watchStatus) ∧
        RegsKept s t iss fun L n => Act s iss L ∧ (w L).isArmed = false ∧ n = o.d.toNat) id := by
  intro w
  have hexec := execWaitw_of_issued h
  rw [hdue, if_neg Bool.false_ne_true] at hexec
  have hteam : (waitsOnWatch s iss o.d.toNat).st.team iss.team = s.watchesEnded iss o.d.toNat := State.team_setTeam_self _ _ _
  have hlane : ∀ L, (s.watchesEnded iss o.d.toNat).lane L = if L ∈ unarmedLanes s iss then { w L with watch := .none } else w L :=
    Team.endWatches_lane _ _ _ _
  have hvreg : ∀ L n, n < 512 → (s.watchesEnded iss o.d.toNat).vreg L n =
      if L ∈ unarmedLanes s iss ∧ n = o.d.toNat then (w L).watchStatus else (s.team iss.team).vreg L n :=
    Team.endWatches_vreg _ _ _ _ o.d.isLt
  refine does_of_frame hexec List.Pairwise.nil (fun _ hx => absurd hx List.not_mem_nil) rfl ⟨fun W => ?outside, ?bare, ?insns⟩
    (fun L _ _ _ => ?gone) (fun L hL => ?stay) ⟨fun L hL hu => ?status, fun L n _ hn hd => ?kept⟩
  case outside => exact State.setTeam_setTeam _ _ _ _
  case bare =>
    rw [hteam]
    exact Team.endWatches_other _ _ _ _ (fun t => exceptRegs { t with lanes := [], insns := 0, service := [] }) fun _ _ _ _ => rfl
  case insns =>
    rw [hteam]
    exact Team.endWatches_other _ _ _ _ (fun t => t.insns) fun _ _ _ _ => rfl
  case gone =>
    rw [hteam, Lane.after_waitsOnWatch, hlane]
    simp only [mem_armedLanes, mem_unarmedLanes]
    by_cases hact : Act s iss L
    · cases hu : ((s.team iss.team).lane L).isArmed <;> simp [hact, w]
    · simp [hact, w]
  case stay =>
    rw [hteam, hlane, if_neg]
    intro hmem
    have hact := (mem_unarmedLanes.mp hmem).1
    exact hL ⟨List.mem_range.mp (List.mem_of_mem_filter hact), actives_subset_group hact, rfl⟩
  case status => rw [State.team_setTeam_self, Team.issuedBut_eq, hteam]; exact (hvreg L _ o.d.isLt).trans (if_pos ⟨mem_unarmedLanes.mpr ⟨hL, hu⟩, rfl⟩)
  case kept =>
    rw [State.team_setTeam_self, Team.issuedBut_eq, hteam]
    exact (hvreg L n hn).trans (if_neg fun ⟨hmem, hnd⟩ => hd ⟨(mem_unarmedLanes.mp hmem).1, (mem_unarmedLanes.mp hmem).2, hnd⟩)

/-- Settles O27: WAITC by its limits, WAITW by `waitw_of_notDue`. -/
theorem waitsForCountersAndWatches : Obligations.WaitsForCountersAndWatches := by
  unfold Obligations.WaitsForCountersAndWatches
  refine ⟨fun o s iss h => ?waitc, fun o s iss h => ?waitw⟩
  case waitc =>
    intro T lim ok
    have hok : T.withinLimits o = true ↔ ok := by
      simp only [Team.withinLimits, Team.countersOk, Bool.and_eq_true, decide_eq_true_eq, and_assoc]
      rfl
    have hexec := execWaitc_of_issued h
    refine ⟨fun hyes => ?goesOn, fun hno => ?waits⟩
    case goesOn =>
      rw [if_pos (hok.mpr hyes)] at hexec
      exact goesOn_of_finish hexec
    case waits =>
      rw [if_neg (mt hok.mp hno)] at hexec
      exact does_of_clean hexec rfl rfl (Effect.from_self rfl) (fun L _ l => Lane.after_waitsOn l iss s _ _ L) trivial
  case waitw =>
    intro d w armed due
    have hdue : s.watchDue iss.team (actives s iss) = true ↔ due := watchDue_iff _ _ _
    refine ⟨fun hyes => ?cannot, fun hno => ?waits⟩
    case cannot =>
      have hexec := execWaitw_of_issued h
      rw [if_pos (hdue.mpr hyes)] at hexec
      exact cannotIssue_of_finish hexec
    case waits =>
      have hstatus : ∀ L, ((s.team iss.team).lane L).watchStatus = if w L = .triggered then 0 else 2 := fun L => by
        simp only [Lane.watchStatus, beq_iff_eq]
        rfl
      have hdoes := waitw_of_notDue h (Bool.eq_false_iff.mpr (mt hdue.mp hno))
      simp only [hstatus] at hdoes
      exact hdoes

end Sys2Proof.Machine
end

section
/-! PROOFS of the statement of fences and UPDFLUSH (O28): the conditions on accesses and pairs on their way, and the effect of each
fence. -/
namespace Sys2Proof.Machine
open Sys2Proof.Claims

/-! ### Reads and writes on their way (10 R247) -/

theorem readsDue_iff (s : State) (tn : Nat) (ls : List Nat) :
    s.readsDue tn ls = true ↔ ∃ x ∈ s.accesses, x.team = tn ∧ x.lane ∈ ls ∧ x.stage = .issued ∧ x.kind ≠ .store := by
  simp [State.readsDue, and_assoc]

theorem writesDue_iff (s : State) (tn : Nat) (ls : List Nat) :
    s.writesDue tn ls = true ↔ (∃ x ∈ s.accesses, x.team = tn ∧ x.lane ∈ ls ∧ x.stage = .issued ∧ x.kind = .store) ∨
      ∃ p ∈ s.pairs, p.team = tn ∧ p.lane ∈ ls ∧ p.accepted = false := by
  simp [State.writesDue, and_assoc]

/-- What a table fence waits for: reads and writes of its lanes. -/
theorem tableDue_iff (s : State) (tn : Nat) (ls : List Nat) :
    (s.readsDue tn ls || s.writesDue tn ls) = true ↔ (∃ x ∈ s.accesses, x.team = tn ∧ x.lane ∈ ls ∧ x.stage = .issued) ∨
      ∃ p ∈ s.pairs, p.team = tn ∧ p.lane ∈ ls ∧ p.accepted = false := by
  rw [Bool.or_eq_true, readsDue_iff, writesDue_iff, ← or_assoc]
  refine or_congr_left ⟨?some, fun ⟨x, hx, ht, hl, hs⟩ => ?all⟩
  case some => rintro (⟨x, hx, ht, hl, hs, -⟩ | ⟨x, hx, ht, hl, hs, -⟩) <;> exact ⟨x, hx, ht, hl, hs⟩
  case all =>
    by_cases hk : x.kind = .store
    · exact .inr ⟨x, hx, ht, hl, hs, hk⟩
    · exact .inl ⟨x, hx, ht, hl, hs, hk⟩

/-! ### Acquires (11 R280, R281) -/

theorem State.learnNow_tlines (s : State) (tn : Nat) (ls : List Nat) (clock : SMap Nat) :
    (s.learnNow tn ls clock).tlines = s.tlines := by
  unfold State.learnNow
  split <;> rfl

theorem State.learnHeard_tlines (s : State) (tn : Nat) (ls : List Nat) : (s.learnHeard tn ls).tlines = s.tlines := by
  unfold State.learnHeard
  induction ls generalizing s with
  | nil => rfl
  | cons L r ih => rw [List.foldl_cons, ih, State.learnNow_tlines]

/-- What an acquire fence of the Active lanes leaves. -/
def State.acquired (s : State) (iss : Issue) : State := (s.acquire (s.team iss.team).core).learnHeard iss.team (actives s iss)

theorem State.acquired_tlines (s : State) (iss : Issue) : (s.acquired iss).tlines = s.tlines := State.learnHeard_tlines _ _ _

theorem State.acquired_of_filter (s : State) (iss : Issue) :
    ({ s with l1 := s.l1.filter fun e => e.core != (s.team iss.team).core || e.owned } : State).learnHeard iss.team (actives s iss) =
      s.acquired iss := rfl

/-! ### The fences where lanes are Active -/

/-- The engine of an SC fence, or of an UPDFLUSH. -/
def opStarted (s : State) (iss : Issue) (kind : EngineKind) (L : Nat) : Engine :=
  { id := s.fresh, ins := s.fresh, kind := kind, team := iss.team, block := (s.team iss.team).block,
    core := (s.team iss.team).core, func := (s.block (s.team iss.team).block).func, lane := L, lanes := actives s iss,
    supervisor := false, aborted := false }

/-- The state once such an engine stands in it. -/
def State.withOp (s : State) (iss : Issue) (kind : EngineKind) (L : Nat) : State :=
  { s with engines := s.engines ++ [opStarted s iss kind L], fresh := s.fresh + 1 }

/-- The effect of FENCE.REL. -/
def relFence (s : State) (iss : Issue) : Effect :=
  { st := s.setTeam iss.team ((s.team iss.team).mapLanes (actives s iss) fun _ l =>
      { l with rel := s.coreClock (s.team iss.team).core, fenced := s.covers iss.team, know := l.know.join (s.covers iss.team) })
    hold := if s.unacked iss.team = [] then .none else .acks (s.unacked iss.team) }

section
variable {s : State} {iss : Issue} {L : Nat} {r : List Nat} (hact : actives s iss = L :: r)
include hact

theorem execFenceAcq_of_active (h : Issued s iss .fenceAcq) : exec .fenceAcq s = .next (s.finish iss []
    (if s.readsDue iss.team (actives s iss) then { st := s, stall := true } else { st := s.acquired iss })) :=
  exec_of_teamEffect rfl h hact

theorem execFenceTbl_of_active (h : Issued s iss .fenceTbl) : exec .fenceTbl s = .next (s.finish iss []
    (if s.readsDue iss.team (actives s iss) || s.writesDue iss.team (actives s iss) then { st := s, stall := true }
      else { st := { s.acquired iss with
        tlines := (s.acquired iss).tlines.filter fun l => l.cluster != clusterOfCore (s.team iss.team).core } })) :=
  exec_of_teamEffect rfl h hact

theorem execFenceRel_of_active (h : Issued s iss .fenceRel) : exec .fenceRel s = .next (s.finish iss [] (relFence s iss)) :=
  exec_of_teamEffect rfl h hact

theorem execFenceSc_of_active (h : Issued s iss .fenceSc)
    (hroom : ∀ M, Act s iss M → s.logNeed iss.team M (dieOfCore (s.team iss.team).core) .order 1 = none) :
    exec .fenceSc s = .next (s.finish iss []
      (if s.readsDue iss.team (actives s iss) then { st := s, stall := true }
        else { st := (s.withOp iss (.fenceSc 0) L).stampAll, hold := .sc s.fresh })) := by
  have hnone : (actives s iss).filterMap (fun M =>
      (s.logNeed iss.team M (dieOfCore (s.team iss.team).core) .order 1).map fun e => (M, e)) = [] :=
    List.filterMap_eq_nil_iff.mpr fun M hM => by rw [hroom M hM]; rfl
  refine (exec_of_teamEffect rfl h hact).trans (congrArg (fun x => Host.Outcome.next (s.finish iss [] x)) ?_)
  simp only [seen, hnone, bne_self_eq_false, Bool.false_eq_true, if_false]
  rfl

theorem execUpdflush_of_active (h : Issued s iss .updflush) (hroom : (s.team iss.team).stc ≠ 255) :
    exec .updflush s = .next (s.finish iss []
      { st := (s.withOp iss (.updflush s.fresh) L).setTeam iss.team { s.team iss.team with stc := (s.team iss.team).stc + 1 } }) := by
  refine (exec_of_teamEffect rfl h hact).trans (congrArg (fun x => Host.Outcome.next (s.finish iss [] x)) ?_)
  exact if_neg hroom

/-- FENCE.ACQ and FENCE.TBL wait for the accesses that `due` speaks of, and then acquire. -/
theorem acquireFence_of_active {i : Instr} (hi : i ∈ [Instr.fenceAcq, .fenceTbl]) (h : Issued s iss i) :
    let due := (∃ x ∈ s.accesses, x.team = iss.team ∧ Act s iss x.lane ∧ x.stage = .issued ∧ (x.kind ≠ .store ∨ i = .fenceTbl)) ∨
      (i = .fenceTbl ∧ ∃ p ∈ s.pairs, p.team = iss.team ∧ Act s iss p.lane ∧ p.accepted = false)
    (due → CannotIssue i s) ∧
    (¬ due → GoesOn i s iss (if i = .fenceAcq then s.acquired iss else
      { s.acquired iss with tlines := s.tlines.filter fun l => l.cluster != clusterOfCore (s.team iss.team).core })) := by
  intro due
  simp only [List.mem_cons, List.not_mem_nil, or_false] at hi
  rcases hi with rfl | rfl
  case inl =>
    have hdue : s.readsDue iss.team (actives s iss) = true ↔ due := by
      rw [readsDue_iff]
      simp [due]
    have hexec := execFenceAcq_of_active hact h
    refine ⟨fun hyes => ?_, fun hno => ?_⟩
    · rw [if_pos (hdue.mpr hyes)] at hexec
      exact cannotIssue_of_finish hexec
    · rw [if_neg (mt hdue.mp hno)] at hexec
      rw [if_pos rfl]
      exact goesOn_of_finish hexec
  case inr =>
    have hdue : (s.readsDue iss.team (actives s iss) || s.writesDue iss.team (actives s iss)) = true ↔ due := by
      rw [tableDue_iff]
      simp [due]
    have hexec := execFenceTbl_of_active hact h
    refine ⟨fun hyes => ?_, fun hno => ?_⟩
    · rw [if_pos (hdue.mpr hyes)] at hexec
      exact cannotIssue_of_finish hexec
    · rw [if_neg (mt hdue.mp hno), State.acquired_tlines] at hexec
      rw [if_neg (by simp)]
      exact goesOn_of_finish hexec

/-- FENCE.REL gives its lanes the core's clock and holds the path while accesses are on their way. -/
theorem fenceRel_of_active (h : Issued s iss .fenceRel) :
    Does .fenceRel s iss s [] id (fun M l =>
      { goneOn iss (if Act s iss M then
          { l with rel := s.coreClock (s.team iss.team).core, fenced := s.covers iss.team, know := l.know.join (s.covers iss.team) }
          else l) with
        hold := if s.unacked iss.team = [] then .none else .acks (s.unacked iss.team) }) (fun _ => True) id := by
  have hteam := State.team_setTeam_self s iss.team ((s.team iss.team).mapLanes (actives s iss) fun _ l =>
    { l with rel := s.coreClock (s.team iss.team).core, fenced := s.covers iss.team, know := l.know.join (s.covers iss.team) })
  refine does_of_frame (e := relFence s iss) (execFenceRel_of_active hact h) List.Pairwise.nil
    (fun _ hx => absurd hx List.not_mem_nil) rfl
    ⟨fun W => State.setTeam_setTeam _ _ _ _, ?bare, ?insns⟩ (fun M _ _ _ => ?gone) (fun M hM => ?stay) trivial
  case bare => rw [relFence, hteam, Team.mapLanes_eq]
  case insns => rw [relFence, hteam, Team.mapLanes_eq]
  case gone =>
    rw [relFence, hteam, Team.mapLanes_lane _ _ _ (actives_nodup s iss)]
    rfl
  case stay =>
    rw [relFence, hteam, Team.mapLanes_lane _ _ _ (actives_nodup s iss), if_neg]
    exact fun hact => hM ⟨List.mem_range.mp (List.mem_of_mem_filter hact), actives_subset_group hact, rfl⟩

end

/-- Settles O28: each fence by what it waits for and what it leaves. -/
theorem fencesAndFlushes : Obligations.FencesAndFlushes := by
  unfold Obligations.FencesAndFlushes
  refine ⟨⟨fun i hi s iss h hnil => ?idle, fun i hi s iss h hact => ?acquires, fun s iss h hact => ?release⟩,
    fun s iss L r h hact hroom hdue => ?fenceSc, fun s iss L r h hact hroom => ?updflush⟩
  case idle =>
    simp only [List.mem_cons, List.not_mem_nil, or_false] at hi
    rcases hi with rfl | rfl | rfl | rfl | rfl <;> exact goesOn_of_idle rfl h hnil
  case acquires =>
    obtain ⟨L, r, hcons⟩ := List.exists_cons_of_ne_nil hact
    exact acquireFence_of_active hcons hi h
  case release =>
    obtain ⟨L, r, hcons⟩ := List.exists_cons_of_ne_nil hact
    exact fenceRel_of_active hcons h
  case fenceSc =>
    have hexec := execFenceSc_of_active hact h hroom
    rw [if_neg (mt (readsDue_iff _ _ _).mp hdue)] at hexec
    exact does_of_clean hexec rfl rfl (Effect.from_self rfl) (fun _ _ _ => rfl) trivial
  case updflush => exact goesOn_of_finish (execUpdflush_of_active hact h hroom)

end Sys2Proof.Machine
end

section
/-! PROOFS of the statement of TWAIT and TFIND (O33): the errors that lanes report are cleared, the others wait, go on or read a tag. -/
namespace Sys2Proof.Machine
open Sys2Proof.Claims

/-! ### Errors of tags (10 R254) -/

theorem clearErrs_eq (c : Core) (es : List TagError) :
    c.clearErrs es = { c with tagErrs := c.tagErrs.filter fun e => es.all fun x => e.tag != x.tag } := by
  unfold Core.clearErrs
  induction es generalizing c with
  | nil => simp
  | cons x r ih =>
    rw [List.foldl_cons, ih]
    simp only [Core.clearErr, List.filter_filter, List.all_cons, Bool.and_comm]

theorem Core.tagError_mem {c : Core} {m : Dbl} {e : TagError} (h : c.tagError m = some e) : e ∈ c.tagErrs :=
  List.mem_of_find?_eq_some h

/-- The errors that lanes with masks `m` report, each with its lane. -/
def reported (c : Core) (m : Nat → Dbl) (ls : List Nat) : List (Nat × TagError) :=
  ls.filterMap fun L => (c.tagError (m L)).map fun e => (L, e)

/-- The faults that they take with them. -/
def reportFaults (c : Core) (m : Nat → Dbl) (ls : List Nat) : List (Nat × FaultInfo) :=
  (reported c m ls).map fun x => (x.1, x.2.fault)

section
variable {c : Core} {m : Nat → Dbl} {ls : List Nat}

theorem reportFaults_ascending (h : ls.Pairwise (· < ·)) : Ascending (reportFaults c m ls) := (ascending_filterMap h _).map _

theorem reportFaults_code_ne (h : ∀ e ∈ c.tagErrs, e.code ≠ 0) : ∀ x ∈ reportFaults c m ls, x.2.code ≠ 0 := by
  intro x hx
  obtain ⟨y, hy, rfl⟩ := List.mem_map.mp hx
  obtain ⟨L, -, hL⟩ := List.mem_filterMap.mp hy
  obtain ⟨e, he, rfl⟩ := Option.map_eq_some_iff.mp hL
  exact h e (Core.tagError_mem he)

end

/-- The state in which the reported errors are cleared. -/
def State.errorsCleared (s : State) (iss : Issue) (es : List TagError) : State :=
  let n := (s.team iss.team).core
  s.setCore n { s.core n with tagErrs := (s.core n).tagErrs.filter fun e => es.all fun x => e.tag != x.tag }

/-! ### TWAIT -/

/-- The effect of a TWAIT of the lanes' masks `m`. -/
def tagWaits (s : State) (iss : Issue) (all : Bool) (m : Nat → Dbl) : Effect :=
  let core := s.core (s.team iss.team).core
  let now := (actives s iss).filter fun L => tagsOk core.tags all (m L)
  { st := (s.errorsCleared iss ((reported core m now).map (·.2))).observe iss.team now m
    faults := reportFaults core m now
    waits := ((actives s iss).filter fun L => !now.contains L).map fun L => (L, .tags all (m L)) }

theorem twait_of_issued {i : Instr} {all : Bool} {s : State} {iss : Issue} (h : Issued s iss i) :
    twait i all s = .next (s.finish iss [] (tagWaits s iss all (op64 s iss i 1))) := by
  refine (runInstr_of_issued h _).trans (congrArg (fun x => Host.Outcome.next (s.finish iss [] x)) ?_)
  simp only [clearErrs_eq]
  rfl

/-- TWAIT lets lanes go on whose condition holds, or faults them; the others wait. -/
theorem does_of_twait {i : Instr} {all : Bool} (hx : ∀ s, exec i s = twait i all s) {s : State} {iss : Issue} (h : Issued s iss i)
    (hcodes : ∀ e ∈ (s.core (s.team iss.team).core).tagErrs, e.code ≠ 0) :
    let core := s.core (s.team iss.team).core
    let m := op64 s iss i 1
    let now := (actives s iss).filter fun L => tagsOk core.tags all (m L)
    Does i s iss ((s.errorsCleared iss ((reported core m now).map (·.2))).observe iss.team now m) (reportFaults core m now) id
      (fun L l => if Act s iss L ∧ tagsOk core.tags all (m L) = false then waitsFor (.tags all (m L)) l else goneOn iss l)
      (fun _ => True) id := by
  intro core m now
  refine does_of_from (e := tagWaits s iss all m) ((hx s).trans (twait_of_issued h))
    (reportFaults_ascending ((actives_ascending s iss).filter _)) (reportFaults_code_ne hcodes) rfl (Effect.from_self rfl)
    (fun L _ _ l => Lane.after_waits l iss rfl ?waits) trivial
  refine (lookup_map_lane _ (fun M => Wait.tags all (m M)) L).trans (if_congr ?_ rfl rfl)
  rw [List.mem_filter, List.contains_eq_mem, Bool.not_eq_true', decide_eq_false_iff_not, List.mem_filter, not_and, Bool.not_eq_true]
  exact ⟨fun ⟨ha, hn⟩ => ⟨ha, hn ha⟩, fun ⟨ha, hn⟩ => ⟨ha, fun _ => hn⟩⟩

/-! ### TFIND

A version's lanes learn what they observe where the registers are written already; it is the same to write them after. -/

/-- Vector registers and the zero map of team `tn` are these. -/
def State.withRegs (s : State) (tn : Nat) (v : SMap Word) (z : SMap Bool) : State :=
  s.setTeam tn { s.team tn with v := v, nonzero := z }

theorem Team.mapLanes_withRegs (T : Team) (v : SMap Word) (z : SMap Bool) (ls : List Nat) (f : Nat → Lane → Lane) :
    ({ T with v := v, nonzero := z } : Team).mapLanes ls f = { T.mapLanes ls f with v := v, nonzero := z } := by
  unfold Team.mapLanes
  induction ls generalizing T with
  | nil => rfl
  | cons L r ih => exact ih (T.setLane L (f L (T.lane L)))

section
variable (s : State) (tn : Nat) (v : SMap Word) (z : SMap Bool)

theorem State.learnNow_withRegs (ls : List Nat) (clock : SMap Nat) :
    (s.withRegs tn v z).learnNow tn ls clock = (s.learnNow tn ls clock).withRegs tn v z := by
  unfold State.learnNow
  by_cases hc : clock = []
  · rw [if_pos hc, if_pos hc]
  · rw [if_neg hc, if_neg hc]
    simp only [State.withRegs, State.team_setTeam_self, State.setTeam_setTeam, Team.mapLanes_withRegs]

theorem State.observe_withRegs (ls : List Nat) (m : Nat → Dbl) :
    (s.withRegs tn v z).observe tn ls m = (s.observe tn ls m).withRegs tn v z := by
  unfold State.observe
  rw [show ((s.withRegs tn v z).team tn).core = (s.team tn).core by simp [State.withRegs],
    show ((s.withRegs tn v z).team tn).block = (s.team tn).block by simp [State.withRegs],
    show (s.withRegs tn v z).nodeOf (s.team tn).block = s.nodeOf (s.team tn).block from rfl]
  split
  case isTrue => rfl
  case isFalse hversioned =>
    clear hversioned
    generalize (s.team tn).core = n
    induction ls generalizing s with
    | nil => rfl
    | cons L r ih =>
      simp only [List.foldl_cons]
      rw [← ih, ← State.learnNow_withRegs]
      rfl

end

/-- The Active lanes with masks `m` whose tag holds no error. -/
def foundLanes (s : State) (iss : Issue) (m : Nat → Dbl) : List Nat :=
  (actives s iss).filter fun L => ((s.core (s.team iss.team).core).tagError (m L)).isNone

/-- The team once these lanes have read their tags. -/
def tagsFound (s : State) (iss : Issue) (i : Instr) (m : Nat → Dbl) : Team :=
  (foundLanes s iss m).foldl (fun t L => t.setV L (destReg s iss i L)
    (BitVec.ofNat 32 (lowestTag ((s.core (s.team iss.team).core).tags &&& m L)))) (s.team iss.team)

theorem reported_lookup (c : Core) (m : Nat → Dbl) {ls : List Nat} {L : Nat} (hL : L ∈ ls) :
    ((reported c m ls).lookup L).isNone = (c.tagError (m L)).isNone := by
  cases he : c.tagError (m L) with
  | none =>
    refine Option.isNone_iff_eq_none.mpr (List.lookup_eq_none_iff.mpr fun x hx => ?_)
    obtain ⟨M, hM, hx⟩ := List.mem_filterMap.mp hx
    obtain ⟨e, he', rfl⟩ := Option.map_eq_some_iff.mp hx
    refine bne_iff_ne.mpr fun hLM => ?_
    rw [hLM, he'] at he
    cases he
  | some e =>
    refine Bool.eq_false_iff.mpr fun hnone => ?_
    have hmem : (L, e) ∈ reported c m ls := List.mem_filterMap.mpr ⟨L, hL, by rw [he]; rfl⟩
    have := List.lookup_eq_none_iff.mp (Option.isNone_iff_eq_none.mp hnone) _ hmem
    simp at this

/-- The effect of TFIND. -/
def tagFinds (s : State) (iss : Issue) (i : Instr) (m : Nat → Dbl) : Effect :=
  let core := s.core (s.team iss.team).core
  { st := ((s.errorsCleared iss ((reported core m (actives s iss)).map (·.2))).setTeam iss.team (tagsFound s iss i m)).observe iss.team
      (foundLanes s iss m) m
    faults := reportFaults core m (actives s iss) }

theorem execTfind_of_issued {o : S32} {s : State} {iss : Issue} (h : Issued s iss (.tfind o)) :
    exec (.tfind o) s = .next (s.finish iss [] (tagFinds s iss (.tfind o) (op64 s iss (.tfind o) 1))) := by
  refine (runInstr_of_issued h _).trans (congrArg (fun x => Host.Outcome.next (s.finish iss [] x)) ?_)
  have hfound : (actives s iss).filter (fun L =>
      ((reported (s.core (s.team iss.team).core) (op64 s iss (.tfind o) 1) (actives s iss)).lookup L).isNone) =
      foundLanes s iss (op64 s iss (.tfind o) 1) :=
    List.filter_congr fun L hL => reported_lookup _ _ hL
  simp only [clearErrs_eq, tagFinds, tagsFound, ← hfound]
  rfl

/-- TFIND writes registers only, of lanes whose tag holds no error. -/
theorem tagsFound_regs (s : State) (iss : Issue) (i : Instr) (m : Nat → Dbl) :
    VectorsOnly (s.team iss.team) (tagsFound s iss i m) :=
  VectorsOnly.foldl (fun _ _ => ⟨_, _, rfl⟩) _

theorem tagsFound_vreg {s : State} {iss : Issue} {o : S32} (h : Issued s iss (.tfind o)) (m : Nat → Dbl) (L : Nat) {n : Nat}
    (hn : n < 512) : (tagsFound s iss (.tfind o) m).vreg L n =
      if L ∈ foundLanes s iss m ∧ n = destReg s iss (.tfind o) L then
        BitVec.ofNat 32 (lowestTag ((s.core (s.team iss.team).core).tags &&& m L)) else (s.team iss.team).vreg L n :=
  Team.fold_setV _ (fun L => BitVec.ofNat 32 (lowestTag ((s.core (s.team iss.team).core).tags &&& m L))) _ _
    ((actives_nodup s iss).filter _) (fun _ hL => destReg_lt h (List.mem_of_mem_filter hL) (n := 0) Nat.zero_lt_one) L n hn

/-- TFIND gives lanes their tags, and faults those whose tag holds an error. -/
theorem does_of_tfind {o : S32} {s : State} {iss : Issue} (h : Issued s iss (.tfind o))
    (hcodes : ∀ e ∈ (s.core (s.team iss.team).core).tagErrs, e.code ≠ 0) :
    let core := s.core (s.team iss.team).core
    let m := op64 s iss (.tfind o) 1
    Does (.tfind o) s iss ((s.errorsCleared iss ((reported core m (actives s iss)).map (·.2))).observe iss.team (foundLanes s iss m) m)
      (reportFaults core m (actives s iss)) exceptRegs (fun _ l => goneOn iss l)
      (fun t => (∀ L, L ∈ foundLanes s iss m → (t.team iss.team).vreg L (destReg s iss (.tfind o) L) =
          BitVec.ofNat 32 (lowestTag (core.tags &&& m L))) ∧
        RegsKept s t iss fun L n => L ∈ foundLanes s iss m ∧ n = destReg s iss (.tfind o) L) id := by
  intro core m
  obtain ⟨v, z, hvz⟩ := tagsFound_regs s iss (.tfind o) m
  have hst : (tagFinds s iss (.tfind o) m).st =
      ((s.errorsCleared iss ((reported core m (actives s iss)).map (·.2))).observe iss.team (foundLanes s iss m) m).withRegs
        iss.team v z := by
    rw [← State.observe_withRegs, tagFinds, hvz]
    rfl
  have hvreg : ∀ L n, (((tagFinds s iss (.tfind o) m).st.team iss.team).issuedBut iss (tagFinds s iss (.tfind o) m)
      (reportFaults core m (actives s iss))).vreg L n = (tagsFound s iss (.tfind o) m).vreg L n := fun L n => by
    rw [Team.issuedBut_eq, hst, State.withRegs, State.team_setTeam_self, hvz]
    rfl
  refine does_of_from (e := tagFinds s iss (.tfind o) m) (execTfind_of_issued h) (reportFaults_ascending (actives_ascending s iss))
    (reportFaults_code_ne hcodes) rfl (Effect.from_setTeam hst rfl rfl fun _ => rfl) (fun _ _ _ _ => rfl)
    ⟨fun L hL => ?found, fun L n _ hn hd => ?kept⟩
  case found =>
    rw [State.team_setTeam_self]
    refine (hvreg L _).trans ?_
    have hlt : destReg s iss (.tfind o) L < 512 := destReg_lt h (List.mem_of_mem_filter hL) (n := 0) Nat.zero_lt_one
    rw [tagsFound_vreg h m L hlt, if_pos ⟨hL, rfl⟩]
  case kept =>
    rw [State.team_setTeam_self]
    refine (hvreg L n).trans ?_
    rw [tagsFound_vreg h m L hn, if_neg hd]

/-- Settles O33: TWAIT by `does_of_twait`, TFIND by `does_of_tfind`. -/
theorem tagInstructions : Obligations.TagInstructions := by
  unfold Obligations.TagInstructions
  intro core low err fault clear codes mask waits
  refine ⟨fun o s iss h hc => ?any, fun o s iss h hc => ?all, fun o s iss h hc => ?find⟩
  case any => exact does_of_twait (fun _ => rfl) h hc
  case all => exact does_of_twait (fun _ => rfl) h hc
  case find =>
    have hwrites : ∀ L, L ∈ foundLanes s iss (op64 s iss (.tfind o) 1) ↔
        Act s iss L ∧ err s iss (mask (.tfind o) s iss L) = none := fun L => by
      rw [foundLanes, List.mem_filter, Option.isNone_iff_eq_none]
      rfl
    have hdoes := does_of_tfind h hc
    simp only [hwrites] at hdoes
    exact hdoes

end Sys2Proof.Machine
end

section
/-! PROOFS of the statement of copies (O36), with what range locks leave of a core's table (10 R249), which the statement of the engines
(O37) also uses. -/
namespace Sys2Proof.Machine
open Sys2Proof.Claims

/-! ### Range locks (10 R249) -/

theorem mem_freeSlots {c : Core} {slot : Nat} : slot ∈ c.freeSlots ↔ slot < 64 ∧ ∀ l ∈ c.locks, l.slot ≠ slot := by
  simp [Core.freeSlots]

theorem freeSlots_nodup (c : Core) : c.freeSlots.Nodup := List.nodup_range.filter _

/-- The free entries of a core of `s` are those that `lockIn` names. -/
theorem mem_freeSlots_iff_lockIn {s : State} {n slot : Nat} : slot ∈ (s.core n).freeSlots ↔ lockIn s n slot := mem_freeSlots

theorem withLocks_core (s : State) (n : Nat) (ls : List RangeLock) :
    (withLocks s n ls).core n = { s.core n with locks := (s.core n).locks ++ ls } := State.core_setCore_self _ _ _

theorem withLocks_withLocks (s : State) (n : Nat) (ls ms : List RangeLock) :
    withLocks (withLocks s n ls) n ms = withLocks s n (ls ++ ms) := by
  rw [withLocks, withLocks_core, withLocks, State.setCore_setCore, List.append_assoc]
  rfl

/-- A slot that is free after a lock was free before it, and is not the lock's. -/
theorem lockIn_withLocks {s : State} {n slot : Nat} {l : RangeLock} (h : lockIn (withLocks s n [l]) n slot) :
    lockIn s n slot ∧ l.slot ≠ slot := by
  obtain ⟨hlt, hfree⟩ := h
  rw [withLocks_core] at hfree
  exact ⟨⟨hlt, fun x hx => hfree x (List.mem_append_left _ hx)⟩, hfree l (List.mem_append_right _ List.mem_cons_self)⟩

/-- A lock in a free slot leaves one free slot fewer. -/
theorem freeLocks_withLocks {s : State} {n : Nat} {l : RangeLock} (h : lockIn s n l.slot) :
    freeLocks (withLocks s n [l]) n = freeLocks s n - 1 := by
  have hslots : ((withLocks s n [l]).core n).freeSlots = (s.core n).freeSlots.erase l.slot := by
    rw [(freeSlots_nodup _).erase_eq_filter, withLocks_core, Core.freeSlots, Core.freeSlots, List.filter_filter]
    refine List.filter_congr fun i _ => ?_
    rw [List.any_append, Bool.not_or, Bool.and_comm]
    simp [bne, BEq.comm]
  exact (congrArg List.length hslots).trans (List.length_erase_of_mem (mem_freeSlots_iff_lockIn.mpr h))

/-- A range takes some free entry. -/
theorem lockRange_takes {s : State} {n : Nat} (h : 1 ≤ freeLocks s n) (ag : Agent) (op first last : Nat) (dst : Bool) :
    ∃ slot, lockIn s n slot ∧ s.lockRange n ag op first last dst = withLocks s n [lockOf ag op slot first last dst] := by
  have hpick : Config.freePick s.stamp first % (s.core n).freeSlots.length < (s.core n).freeSlots.length := Nat.mod_lt _ h
  refine ⟨_, mem_freeSlots_iff_lockIn.mp (List.getElem_mem hpick), ?_⟩
  rw [← List.getD_eq_getElem _ 0 hpick]
  rfl

/-- Two ranges take two free entries. -/
theorem lockRange_takes_two {s : State} {n : Nat} (h : 2 ≤ freeLocks s n) (ag : Agent) (op a b c d : Nat) (dst dst' : Bool) :
    ∃ s1 s2, lockIn s n s1 ∧ lockIn s n s2 ∧ s1 ≠ s2 ∧ (s.lockRange n ag op a b dst).lockRange n ag op c d dst' =
      withLocks s n [lockOf ag op s1 a b dst, lockOf ag op s2 c d dst'] := by
  obtain ⟨s1, h1, he1⟩ := lockRange_takes (show 1 ≤ freeLocks s n by omega) ag op a b dst
  have hfree := freeLocks_withLocks (l := lockOf ag op s1 a b dst) h1
  obtain ⟨s2, h2, he2⟩ := lockRange_takes (s := withLocks s n [lockOf ag op s1 a b dst]) (n := n) (by omega) ag op c d dst'
  obtain ⟨h2, hne⟩ := lockIn_withLocks h2
  exact ⟨s1, s2, h1, h2, hne, by rw [he1, he2, withLocks_withLocks]; rfl⟩

/-- Three ranges take three. -/
theorem lockRange_takes_three {s : State} {n : Nat} (h : 3 ≤ freeLocks s n) (ag : Agent) (op a b c d e f : Nat)
    (dst dst' dst'' : Bool) :
    ∃ s1 s2 s3, lockIn s n s1 ∧ lockIn s n s2 ∧ lockIn s n s3 ∧ s1 ≠ s2 ∧ s1 ≠ s3 ∧ s2 ≠ s3 ∧
      ((s.lockRange n ag op a b dst).lockRange n ag op c d dst').lockRange n ag op e f dst'' =
        withLocks s n [lockOf ag op s1 a b dst, lockOf ag op s2 c d dst', lockOf ag op s3 e f dst''] := by
  obtain ⟨s1, h1, he1⟩ := lockRange_takes (show 1 ≤ freeLocks s n by omega) ag op a b dst
  have hfree := freeLocks_withLocks (l := lockOf ag op s1 a b dst) h1
  obtain ⟨s2, s3, h2, h3, hne, he⟩ := lockRange_takes_two (s := withLocks s n [lockOf ag op s1 a b dst]) (n := n) (by omega)
    ag op c d e f dst' dst''
  obtain ⟨h2, hne2⟩ := lockIn_withLocks h2
  obtain ⟨h3, hne3⟩ := lockIn_withLocks h3
  exact ⟨s1, s2, s3, h1, h2, h3, hne2, hne3, hne, by rw [he1, he, withLocks_withLocks]; rfl⟩

/-! ### Copies (10 R250 to R252) -/

section
variable {s : State} {iss : Issue} {i : Instr} {m : Nat} {r : List Nat} {shape : Ctx → Nat → Nat × Nat × Int × Int}
  (hx : exec i s = copyInstr i s shape) (h : Issued s iss i) (hact : actives s iss = m :: r)

/-- The tag that a copy names. -/
def tagOf (i : Instr) : Nat := natBits i.form.imm.toNat 13 8

/-- The unreported error of its tag. -/
def State.tagErrorAt (s : State) (iss : Issue) (i : Instr) : Option TagError :=
  (s.core (s.team iss.team).core).tagErrs.find? fun e => e.tag == tagOf i

/-- The tag of a copy is free, and so are two range locks. -/
def State.copyFree (s : State) (iss : Issue) (i : Instr) : Prop :=
  (s.core (s.team iss.team).core).tags.getLsbD (tagOf i) = true ∧ 2 ≤ freeLocks s (s.team iss.team).core

theorem copyFree_iff : s.copyFree iss i ↔ ¬ (!(s.core (s.team iss.team).core).tags.getLsbD (copyTag i.form.imm) ||
    decide ((s.core (s.team iss.team).core).freeSlots.length < 2)) = true := by
  rw [Bool.or_eq_true, not_or, Bool.not_eq_true', Bool.not_eq_false, decide_eq_true_eq, not_lt]
  rfl

/-- What the elected lane's copy moves: its row count, row size and strides are `shape`'s. -/
def copyOf (s : State) (iss : Issue) (i : Instr) (m : Nat) (dims : Nat × Nat × Int × Int) : Copy :=
  { op := s.fresh, func := (s.block (s.team iss.team).block).func, team := iss.team, block := (s.team iss.team).block, lane := m,
    supervisor := ((s.team iss.team).lane m).trap, dst := op64 s iss i 0 m, src := op64 s iss i 1 m, rows := dims.1,
    rowBytes := dims.2.1, dstStride := dims.2.2.1, srcStride := dims.2.2.2, knows := ((s.team iss.team).lane m).know,
    rel := ((s.team iss.team).lane m).rel, carries := ((s.team iss.team).lane m).fenced }

/-- The state once copy `cp` stands on its tag, in which `locks` are the core's locks. -/
def State.withCopy (s : State) (iss : Issue) (i : Instr) (locks : List RangeLock) (cp : Copy) : State :=
  let n := (s.team iss.team).core
  (({ s with fresh := s.fresh + 1 }).setCore n { s.core n with
    tags := setBit (s.core n).tags (tagOf i) false, locks := locks, copies := (s.core n).copies.set {} (tagOf i) cp }).setTeam iss.team
    { s.team iss.team with cpc := (s.team iss.team).cpc + 1 }

include hx h hact

theorem copyInstr_of_busy (hfree : ¬ s.copyFree iss i) : CannotIssue i s := by
  have hexec := exec_of_teamEffect hx h hact
  exact cannotIssue_of_finish (hexec.trans (congrArg (fun x => Host.Outcome.next (s.finish iss [] x))
    (if_pos (not_not.mp (mt copyFree_iff.mpr hfree)))))

variable (hfree : s.copyFree iss i)
include hfree

/-- An unreported error of the tag faults every Active lane. -/
theorem copyInstr_of_tagError {e : TagError} (herror : s.tagErrorAt iss i = some e) (hcode : e.code ≠ 0) :
    let n := (s.team iss.team).core
    Does i s iss (s.setCore n { s.core n with tagErrs := (s.core n).tagErrs.filter fun x => x.tag != tagOf i })
      ((actives s iss).map fun L => (L, e.fault)) id (fun _ l => goneOn iss l) (fun _ => True) id := by
  intro n
  have htag : e.tag = tagOf i := by simpa using List.find?_some herror
  have hexec : exec i s = .next (s.finish iss []
      { st := s.setCore n { s.core n with tagErrs := (s.core n).tagErrs.filter fun x => x.tag != tagOf i }
        faults := (actives s iss).map fun L => (L, e.fault) }) := by
    refine (exec_of_teamEffect hx h hact).trans (congrArg (fun x => Host.Outcome.next (s.finish iss [] x)) ?_)
    refine (if_neg (copyFree_iff.mp hfree)).trans ?_
    simp only [State.tagErrorAt, tagOf] at herror
    simp only [seen, copyTag, immBits, herror]
    rfl
  refine does_of_from hexec (ascending_map s iss _) (fun x hx => ?_) rfl (Effect.from_self rfl) (fun _ _ _ _ => rfl) trivial
  obtain ⟨L, -, rfl⟩ := List.mem_map.mp hx
  exact hcode

variable (herror : s.tagErrorAt iss i = none)
include herror

/-- A copy of no bytes sets its tag. -/
theorem copyInstr_of_empty {dims : Nat × Nat × Int × Int} (hdims : shape (seen s iss i) m = dims) (hzero : dims.1 * dims.2.1 = 0) :
    let n := (s.team iss.team).core
    GoesOn i s iss (s.setCore n { s.core n with tags := setBit (s.core n).tags (tagOf i) true }) := by
  intro n
  refine goesOn_of_finish ((exec_of_teamEffect hx h hact).trans (congrArg (fun x => Host.Outcome.next (s.finish iss [] x)) ?_))
  refine (if_neg (copyFree_iff.mp hfree)).trans ?_
  simp only [State.tagErrorAt, tagOf] at herror
  simp only [seen] at hdims
  simp only [seen, copyTag, immBits, herror, hdims]
  exact if_pos hzero

/-- Any other copy whose ranges pass takes two range locks and stands on its tag. -/
theorem copyInstr_of_ranges {rows rb : Nat} {ds ss : Int} (hdims : shape (seen s iss i) m = (rows, rb, ds, ss))
    (hbytes : rows * rb ≠ 0) (hcpc : (s.team iss.team).cpc ≠ 255) :
    let ag := s.agentOf iss.team m
    let n := (s.team iss.team).core
    let dr := boundRange (op64 s iss i 0 m).toNat rows rb ds
    let sr := boundRange (op64 s iss i 1 m).toNat rows rb ss
    0 ≤ dr.1 → 0 ≤ sr.1 → s.copyRange ag dr.1.toNat dr.2.toNat = none → s.copyRange ag sr.1.toNat sr.2.toNat = none →
    ∃ s1 s2, lockIn s n s1 ∧ lockIn s n s2 ∧ s1 ≠ s2 ∧
      GoesOn i s iss (s.withCopy iss i ((s.core n).locks ++ [lockOf ag s.fresh s1 sr.1.toNat sr.2.toNat false,
        lockOf ag s.fresh s2 dr.1.toNat dr.2.toNat true]) (copyOf s iss i m (rows, rb, ds, ss))) := by
  intro ag n dr sr hd hs hdpass hspass
  obtain ⟨s1, s2, h1, h2, hne, hlocks⟩ := lockRange_takes_two (s := { s with fresh := s.fresh + 1 }) (n := n) hfree.2 ag s.fresh
    sr.1.toNat sr.2.toNat dr.1.toNat dr.2.toNat false true
  refine ⟨s1, s2, h1, h2, hne, goesOn_of_finish ((exec_of_teamEffect hx h hact).trans
    (congrArg (fun x => Host.Outcome.next (s.finish iss [] x)) ?_))⟩
  refine (if_neg (copyFree_iff.mp hfree)).trans ?_
  simp only [State.tagErrorAt, tagOf] at herror
  simp only [seen] at hdims
  simp only [ag, n, dr, sr, op64] at hd hs hdpass hspass hlocks ⊢
  simp only [seen, copyTag, immBits, herror, hdims, if_neg hbytes, if_neg hcpc, if_neg (not_lt.mpr hd), if_neg (not_lt.mpr hs),
    hdpass, hspass, Option.or_none, ite_self, hlocks, withLocks, State.core_setCore_self, State.setCore_setCore, BitVec.ofNat_toNat,
    BitVec.setWidth_eq]
  rfl

end

/-- Rows, row size and strides of a CPY, and of a CPY2D. -/
def cpyDims (c : Ctx) (m : Nat) : Nat × Nat × Int × Int := (1, natBits (rd32 c.team m c.form 2).toNat 23 0, 0, 0)
def cpy2dDims (o : X96) (c : Ctx) (m : Nat) : Nat × Nat × Int × Int :=
  let b := (rd32 c.team m c.form 2).toNat
  (natBits b 31 20 + 1, natBits b 19 0, (rd32 c.team m c.form 3).toInt, o.lit.toInt)

/-- Settles O36: a busy tag, its error, a copy of no bytes, and a copy that takes its locks. -/
theorem copiesStart : Obligations.CopiesStart := by
  unfold Obligations.CopiesStart
  intro starts
  have hstarts : ∀ (i : Instr) (shape : State → Issue → Nat → Nat × Nat × Int × Int) (f : Ctx → Nat → Nat × Nat × Int × Int),
      (∀ s, exec i s = copyInstr i s f) → (∀ s iss m, f (seen s iss i) m = shape s iss m) → starts i shape := by
    intro i shape f hx hshape s iss m r h hact T n tag dst src
    have hdims := hshape s iss m
    generalize shape s iss m = dims at hdims ⊢
    obtain ⟨rows, rb, ds, ss⟩ := dims
    refine ⟨copyInstr_of_busy (hx s) h hact, fun hfree => ⟨fun e he hcode => ?error, fun hnone hzero => ?empty,
      fun hnone hbytes hd hs hdpass hspass hcpc => ?ranges⟩⟩
    case error => exact copyInstr_of_tagError (hx s) h hact hfree he hcode
    case empty => exact copyInstr_of_empty (hx s) h hact hfree hnone hdims hzero
    case ranges =>
      obtain ⟨s1, s2, h1, h2, hne, hgoes⟩ := copyInstr_of_ranges (hx s) h hact hfree hnone hdims hbytes hcpc hd hs hdpass hspass
      exact ⟨s1, s2, h1, h2, hne, hgoes⟩
  exact ⟨fun o => hstarts (.cpy o) _ cpyDims (fun _ => rfl) fun _ _ _ => rfl,
    fun o => hstarts (.cpy2d o) _ (cpy2dDims o) (fun _ => rfl) fun _ _ _ => rfl⟩

end Sys2Proof.Machine
end

section
/-! PROOFS of the statement of engines (O37): a ZSCAN with and without a record to write, and an NMV. -/
namespace Sys2Proof.Machine
open Sys2Proof.Claims

/-! ### ZSCAN (10 R271) -/

/-- A range within one window that holds anything passes the checks of a one-byte alignment. -/
theorem frontChecks_of_within {a n : Nat} (hwin : windowOf a ≠ 3) (hend : a + n ≤ 2 ^ 64) (hsame : windowOf (a + n - 1) = windowOf a) :
    frontChecks a n 1 = none := by
  have hlast : ¬ 2 ^ 64 ≤ a + n - 1 := by omega
  simp only [frontChecks, hwin, hlast, hsame, Nat.mod_one, decide_false, Bool.false_or, ne_eq, not_true_eq_false,
    Bool.false_eq_true, if_false]

theorem Handle.recordBytes_end (h : Handle) (zr : Nat) : zr + h.recordBytes = zr + 0x40 + 4 * h.blocks := by
  rw [Handle.recordBytes, ← Nat.add_assoc]

section
variable {o : L64} {s : State} {iss : Issue} {m : Nat} {r : List Nat} (hi : Issued s iss (.zscan o))
  (hact : actives s iss = m :: r)

/-- A scan that a lane starts: `early` says that it has no record to write. -/
def scanStarted (s : State) (iss : Issue) (o : L64) (m : Nat) (early : Option Nat) : Engine :=
  engineOf s iss (.zscan (handleIn s iss (.zscan o) 1 m) o.d.toNat early) m

/-- What a ZSCAN finds of its handle: it has no record to write, it has one, or a walk is referred. -/
def State.scanAway (s : State) (ag : Agent) (h : Handle) : Except FaultInfo Bool :=
  if h.zfi = 0 || windowOf h.base.toNat = 1 then .ok true else s.tileOutside ag h.pages

include hi hact

theorem zscan_of_away (hfault : (handleIn s iss (.zscan o) 1 m).fault iss.word = none) (htlc : (s.team iss.team).tlc ≠ 255)
    (haway : s.scanAway (s.agentOf iss.team m) (handleIn s iss (.zscan o) 1 m) = .ok true) :
    GoesOn (.zscan o) s iss (withEngine s iss (scanStarted s iss o m (some 0x100))) := by
  refine goesOn_of_finish ((exec_of_teamEffect rfl hi hact).trans (congrArg (fun x => Host.Outcome.next (s.finish iss [] x)) ?_))
  simp only [handleIn] at hfault
  unfold handleIn State.scanAway at haway
  unfold seen
  simp only [hfault, htlc, if_false, haway]
  rfl

theorem zscan_of_record (hfault : (handleIn s iss (.zscan o) 1 m).fault iss.word = none) (htlc : (s.team iss.team).tlc ≠ 255)
    (haway : s.scanAway (s.agentOf iss.team m) (handleIn s iss (.zscan o) 1 m) = .ok false)
    (hfree : 2 ≤ freeLocks s (s.team iss.team).core) :
    let h := handleIn s iss (.zscan o) 1 m
    let zr := (s.func (s.block (s.team iss.team).block).func).zflagAddr h.zfi
    let n := (s.team iss.team).core
    let ag := s.agentOf iss.team m
    frontChecks zr h.recordBytes 1 = none →
    ∃ s1 s2, lockIn s n s1 ∧ lockIn s n s2 ∧ s1 ≠ s2 ∧
      GoesOn (.zscan o) s iss (withEngine (withLocks s n [lockOf ag s.fresh s1 h.base.toNat h.lastByte false,
        lockOf ag s.fresh s2 zr (zr + 0x40 + 4 * h.blocks - 1) true]) iss (scanStarted s iss o m none)) := by
  intro h zr n ag hfront
  obtain ⟨s1, s2, h1, h2, hne, hlocks⟩ := lockRange_takes_two (s := { s with fresh := s.fresh + 1 }) (n := n) hfree ag s.fresh
    h.base.toNat h.lastByte zr (zr + 0x40 + 4 * h.blocks - 1) false true
  refine ⟨s1, s2, h1, h2, hne, goesOn_of_finish ((exec_of_teamEffect rfl hi hact).trans
    (congrArg (fun x => Host.Outcome.next (s.finish iss [] x)) ?_))⟩
  have hroom : ¬ (s.core (s.team iss.team).core).freeSlots.length < 2 := not_lt.mpr hfree
  simp only [handleIn] at hfault
  unfold handleIn State.scanAway at haway
  simp only [h, zr, n, ag, handleIn] at hfront hlocks
  unfold seen
  simp only [hfault, htlc, if_false, haway, hfront, hroom, Handle.recordBytes_end, hlocks]
  rfl

end

/-! ### NMV (14 R339 to R341) -/

theorem nmv_of_barrier {o : L64} {s : State} {iss : Issue} {m : Nat} {r : List Nat} {bc bo : Nat} (hi : Issued s iss (.nmv o))
    (hact : actives s iss = m :: r) (hfree : 3 ≤ freeLocks s (s.team iss.team).core)
    (hbar : s.nmvBarrier (s.agentOf iss.team m) (op64 s iss (.nmv o) 3 m).toNat = .ok (bc, bo))
    (hmark : s.marks.get 0 (barrierMark bc bo) = 0) :
    let n := (s.team iss.team).core
    let ag := s.agentOf iss.team m
    let h := handleIn s iss (.nmv o) 2 m
    let y := op64 s iss (.nmv o) 0 m
    let x := op64 s iss (.nmv o) 1 m
    let yf := natBits o.imm.toNat 4 3
    let xf := natBits o.imm.toNat 2 0
    let size (f : Nat) : Nat := (floatFmt f).width / 8
    ∃ s1 s2 s3, lockIn s n s1 ∧ lockIn s n s2 ∧ lockIn s n s3 ∧ s1 ≠ s2 ∧ s1 ≠ s3 ∧ s2 ≠ s3 ∧
      let u := (withLocks { s with fresh := s.fresh + 1 } n
        [lockOf ag s.fresh s1 x.toNat (x.toNat + h.cols * size xf - 1) false,
         lockOf ag s.fresh s2 h.base.toNat h.lastByte false,
         lockOf ag s.fresh s3 y.toNat (y.toNat + h.rows * size yf - 1) true]).nmvIssue n bc bo
      GoesOn (.nmv o) s iss { u with engines := u.engines ++
        [engineOf s iss (.nmv y x h bc bo yf xf o.hint.toNat (o.imm.getLsbD 5)) m] } := by
  intro n ag h y x yf xf size
  obtain ⟨s1, s2, s3, h1, h2, h3, hne12, hne13, hne23, hlocks⟩ := lockRange_takes_three (s := { s with fresh := s.fresh + 1 }) (n := n)
    hfree ag s.fresh x.toNat (x.toNat + h.cols * size xf - 1) h.base.toNat h.lastByte y.toNat (y.toNat + h.rows * size yf - 1)
    false false true
  refine ⟨s1, s2, s3, h1, h2, h3, hne12, hne13, hne23, goesOn_of_finish ((exec_of_teamEffect rfl hi hact).trans
    (congrArg (fun x => Host.Outcome.next (s.finish iss [] x)) ?_))⟩
  have hroom : ¬ (s.core (s.team iss.team).core).freeSlots.length < 3 := not_lt.mpr hfree
  have hpass : ¬ (s.marks.get 0 (barrierMark bc bo) != 0) = true := by rw [hmark]; decide
  simp only [op64] at hbar
  simp only [seen, if_neg hroom, hbar, if_neg hpass]
  rw [← hlocks]
  rfl

/-- Settles O37: ZSCAN by `zscan_of_away` and `zscan_of_record`, NMV by `nmv_of_barrier`. -/
theorem enginesStart : Obligations.EnginesStart := by
  unfold Obligations.EnginesStart
  refine ⟨fun o s iss m r hi hact => ?zscan, fun o s iss m r bc bo hi hact => nmv_of_barrier hi hact⟩
  intro i T h ag d zr last' none' hfault htlc
  refine ⟨fun hnone => ?away, fun hnone htile hwin hend hsame hfree => ?record⟩
  case away =>
    refine zscan_of_away hi hact hfault htlc ?_
    rw [State.scanAway]
    split
    case isTrue => rfl
    case isFalse hzero =>
      rw [Bool.or_eq_true, decide_eq_true_eq, decide_eq_true_eq] at hzero
      exact (hnone.resolve_left fun hzfi => hzero (.inl hzfi)).resolve_left fun hwin => hzero (.inr hwin)
  case record =>
    have haway : s.scanAway ag h = .ok false := by
      rw [State.scanAway, if_neg, htile]
      rw [Bool.or_eq_true, decide_eq_true_eq, decide_eq_true_eq]
      exact fun hzero => hnone (hzero.elim .inl fun hwin => .inr (.inl hwin))
    have hlast : zr + h.recordBytes = last' := h.recordBytes_end zr
    have hfront : frontChecks zr h.recordBytes 1 = none := frontChecks_of_within hwin (by omega) (by rw [hlast]; exact hsame)
    obtain ⟨s1, s2, h1, h2, hne, hgoes⟩ := zscan_of_record hi hact hfault htlc haway hfree hfront
    exact ⟨s1, s2, h1, h2, hne, hgoes⟩

end Sys2Proof.Machine
end

section
/-! PROOFS of the statement of updates (O38): the pairs that an update puts in flight, one for each lane, and UPDCLR. -/
namespace Sys2Proof.Machine
open Sys2Proof.Claims

/-! ### Pairs of an update (10 R262) -/

/-- The pair of a lane: `key` holds the lane, its region and its key, and `k` counts the pairs before it. -/
def pairOf (s : State) (c : Ctx) (ty op ins id q : Nat) (key : Nat × Nat × Nat) (k : Nat) : Pair :=
  { id := id + k, ins := ins, team := c.iss.team, block := c.team.block, core := c.team.core, lane := key.1, q := q + k,
    func := c.block.func, region := key.2.1, p := key.2.2, va := rd64 c.team key.1 c.form 1,
    value := if 3 ≤ ty then rd64 c.team key.1 c.form 2 else (rd32 c.team key.1 c.form 2).setWidth 64, ty := ty, op := op,
    accepted := false, held := c.node.versioned, job := c.block.job, det := s.det c.team.block }

/-- Outside a version every key makes a pair, in order. -/
theorem updPairs_of_unversioned (s : State) (c : Ctx) (ty op ins : Nat) (hv : c.node.versioned = false)
    (ls : List (Nat × Nat × Nat)) (id q k held : Nat) :
    s.updPairs c ty op ins ls (id + k) (q + k) held = ((ls.zipIdx k).map fun x => pairOf s c ty op ins id q x.1 x.2, []) := by
  induction ls generalizing k held with
  | nil => rfl
  | cons x r ih =>
    obtain ⟨L, i, p⟩ := x
    have hrest := ih (k + 1) (held + 1)
    simp only [← Nat.add_assoc] at hrest
    simp only [State.updPairs, hv, Bool.false_and, Bool.false_eq_true, if_false, hrest, List.zipIdx_cons, List.map_cons, pairOf]

section
variable {i : Instr} {op : Nat} {s : State} {iss : Issue} {reg p : Nat → Nat} {ent : Nat → Region}

/-- The pairs of the Active lanes, with the core's next sequence numbers. -/
def updPairsOf (s : State) (iss : Issue) (i : Instr) (op : Nat) (reg p : Nat → Nat) : List Pair :=
  (actives s iss).zipIdx.map fun x => pairOf s (seen s iss i) (natBits i.form.imm.toNat 2 0) op s.fresh (s.fresh + 1)
    (s.core (s.team iss.team).core).q (x.1, reg x.1, p x.1) x.2

theorem updPairs_keys (hv : (nodeAt s iss).versioned = false) :
    s.updPairs (seen s iss i) (natBits i.form.imm.toNat 2 0) op s.fresh ((actives s iss).map fun L => (L, reg L, p L)) (s.fresh + 1)
      (s.core (s.team iss.team).core).q 0 = (updPairsOf s iss i op reg p, []) := by
  refine (updPairs_of_unversioned s (seen s iss i) _ op s.fresh hv _ (s.fresh + 1) _ 0 0).trans ?_
  rw [List.zipIdx_map, List.map_map]
  rfl

/-- The state once these pairs are in flight. -/
def State.withPairs (s : State) (iss : Issue) (ps : List Pair) : State :=
  let n := (s.team iss.team).core
  (({ s with pairs := s.pairs ++ ps, fresh := s.fresh + 1 + ps.length }).setCore n
    { s.core n with q := (s.core n).q + ps.length }).setTeam iss.team { s.team iss.team with stc := (s.team iss.team).stc + 1 }

/-- An update whose Active lanes all pass their steps. -/
theorem updInstr_of_passing (hx : ∀ s, exec i s = updInstr i op s) (h : Issued s iss i) (hact : actives s iss ≠ [])
    (hv : (nodeAt s iss).versioned = false) (hstc : (s.team iss.team).stc ≠ 255)
    (hpass : let c := seen s iss i
      let ty := immBits c.form.imm 2 0
      let a (L : Nat) : Nat := (rd64 c.team L c.form 1).toNat
      ∀ L, Act s iss L → s.updCheck c L (a L) (regionBytes ty) (regionBytes ty) (some (ty, op)) = .ok (reg L, ent L, .hbm (p L)) ∧
        s.updTorn c L (a L) (reg L, ent L, .hbm (p L)) = none)
    (hroom : s.requestRoom (s.team iss.team).core ((updPairsOf s iss i op reg p).map Pair.request) = true) :
    GoesOn i s iss (s.withPairs iss (updPairsOf s iss i op reg p)) := by
  refine goesOn_of_finish ((hx s).trans ((runInstr_of_issued h _).trans
    (congrArg (fun x => Host.Outcome.next (s.finish iss [] x)) ?_)))
  have hne : (updPairsOf s iss i op reg p == []) = false := by
    rw [beq_eq_false_iff_ne, updPairsOf, ne_eq, List.map_eq_nil_iff, List.zipIdx_eq_nil_iff]
    exact hact
  have hkeys : s.updPairs (seen s iss i) (immBits (seen s iss i).form.imm 2 0) op s.fresh
      ((actives s iss).map fun L => (L, reg L, p L)) (s.fresh + 1) (s.core (seen s iss i).team.core).q 0 =
        (updPairsOf s iss i op reg p, []) := updPairs_keys hv
  have hversioned : (seen s iss i).node.versioned = false := hv
  have hfull : ((seen s iss i).team.stc = 255) = False := eq_false hstc
  have hroom' : s.requestRoom (seen s iss i).team.core ((updPairsOf s iss i op reg p).map Pair.request) = true := hroom
  have hactive : (seen s iss i).act = actives s iss := rfl
  simp only [hactive]
  rw [List.map_congr_left (g := fun L => (L, Except.ok (reg L, ent L, Target.hbm (p L)))) fun L hL => ?found]
  case found =>
    obtain ⟨hcheck, htorn⟩ := hpass L hL
    simp only [hcheck, htorn]
  simp only [List.filterMap_map, Function.comp_def, List.filterMap_none, List.filterMap_eq_map', hkeys, hne, hversioned, hfull,
    hroom', Bool.not_true, Bool.or_false, decide_false, Bool.false_eq_true, if_false, List.append_nil]
  rfl

end

/-! ### UPDCLR (10 R268) -/

section
variable {o : L64} {s : State} {iss : Issue} {m : Nat} {r : List Nat} {reg : Nat} {ent : Region} {tgt : Target}
  (h : Issued s iss (.updclr o)) (hact : actives s iss = m :: r)
  (hcheck : s.updCheck (seen s iss (.updclr o)) m (rd64 (seen s iss (.updclr o)).team m (seen s iss (.updclr o)).form 1).toNat 1 1
    none = .ok (reg, ent, tgt))
include h hact hcheck

theorem updclr_of_door {p : Nat} (hdoor : tgt = .door p) : GoesOn (.updclr o) s iss s := by
  refine goesOn_of_finish ((exec_of_teamEffect rfl h hact).trans (congrArg (fun x => Host.Outcome.next (s.finish iss [] x)) ?_))
  subst hdoor
  simp only [hcheck]

theorem updclr_of_region (hdoor : ∀ p, tgt ≠ .door p) (hstc : (s.team iss.team).stc ≠ 255) :
    let f := (s.block (s.team iss.team).block).func
    GoesOn (.updclr o) s iss (({ s with pairs := s.pairs.filter fun p => !(p.accepted && p.func == f && p.region == reg) }).setFunc f
      { s.func f with regions := (s.func f).regions.set {} reg { ent with rctl := ent.rctl &&& ~~~((1 : Dbl) <<< 62) } }) := by
  refine goesOn_of_finish ((exec_of_teamEffect rfl h hact).trans (congrArg (fun x => Host.Outcome.next (s.finish iss [] x)) ?_))
  simp only [hcheck]
  cases tgt with
  | door p => exact absurd rfl (hdoor p)
  | hbm p => exact if_neg hstc
  | vault c o => exact if_neg hstc
  | host p => exact if_neg hstc
  | remote g p => exact if_neg hstc

end

/-- Settles O38: updates by `updInstr_of_passing`, UPDCLR by where its key stands. -/
theorem updatesAreIssued : Obligations.UpdatesAreIssued := by
  unfold Obligations.UpdatesAreIssued
  intro issues
  have hissues : ∀ (i : Instr) (op : Nat), (∀ s, exec i s = updInstr i op s) → issues i op := by
    intro i op hx s iss reg p ent h T c ty a hact hv hstc hpass ps hroom
    have hps : ps = updPairsOf s iss i op reg p := List.map_congr_left fun x _ => by
      have hheld : (seen s iss i).node.versioned = false := hv
      rw [pairOf, hheld]
      rfl
    rw [hps] at hroom ⊢
    exact updInstr_of_passing (ent := ent) hx h hact hv hstc hpass hroom
  exact ⟨fun o => hissues _ _ fun _ => rfl, fun o => hissues _ _ fun _ => rfl, fun o => hissues _ _ fun _ => rfl,
    fun o s iss m r reg ent tgt h hact hstc hcheck => ⟨fun p hp => updclr_of_door h hact hcheck hp,
      fun hdoor => updclr_of_region h hact hcheck hdoor hstc⟩⟩

end Sys2Proof.Machine
end

section
/-! PROOFS of the statement of accesses (O24): the accesses that an M64 instruction puts in flight for each lane, in order, and the issue
of an instruction whose lanes all pass their checks. -/
namespace Sys2Proof.Machine
open Sys2Proof.Claims

/-! ### Accesses in two halves (10 R242) -/

/-- Where the second half of a 16-byte access stands that is performed in two. -/
def secondHalf (m : MemOp) (t : Target) : Option Target :=
  match m, t with
  | .atomic _, _ => none
  | _, .host p => some (.host (p + 8))
  | _, .remote g p => some (.remote g (p + 8))
  | _, _ => none

theorem secondHalf_host {m : MemOp} (h : ∀ op, m = .atomic op → False) (p : Nat) : secondHalf m (.host p) = some (.host (p + 8)) := by
  cases m with
  | atomic op => exact (h op rfl).elim
  | _ => rfl

theorem secondHalf_remote {m : MemOp} (h : ∀ op, m = .atomic op → False) (g p : Nat) :
    secondHalf m (.remote g p) = some (.remote g (p + 8)) := by
  cases m with
  | atomic op => exact (h op rfl).elim
  | _ => rfl

/-- The data of an access. -/
def memData (T : Team) (o : M64) (m : MemOp) (L : Nat) : Nat :=
  if m = .load ∨ m = .tload ∨ m = .watch then 0
  else T.vregs L o.d.toNat ((2 ^ o.wid.toNat + 3) / 4) % 2 ^ (8 * 2 ^ o.wid.toNat)

/-- Its number of result registers. -/
def memResults (o : M64) (m : MemOp) : Nat := if m = .store then 0 else (2 ^ o.wid.toNat + 3) / 4

theorem laneAccesses_of_whole {T : Team} {o : M64} {m : MemOp} {t : Target} (a L : Nat)
    (h : secondHalf m t = none ∨ 2 ^ o.wid.toNat ≠ 16) :
    laneAccesses T o m t a L = [(t, a, 2 ^ o.wid.toNat, o.d.toNat, memResults o m, memData T o m L)] := by
  unfold laneAccesses
  dsimp only
  split
  · rfl
  · next p hm hn => cases (h.resolve_right (not_not_intro hn)).symm.trans (secondHalf_host hm p)
  · next g p hm hn => cases (h.resolve_right (not_not_intro hn)).symm.trans (secondHalf_remote hm g p)
  · rfl

theorem laneAccesses_of_halves {T : Team} {o : M64} {m : MemOp} {t u : Target} (a L : Nat) (h : secondHalf m t = some u)
    (hn : 2 ^ o.wid.toNat = 16) :
    laneAccesses T o m t a L = [(t, a, 8, o.d.toNat, if m = .store then 0 else 2, memData T o m L % 2 ^ 64),
      (u, a + 8, 8, o.d.toNat + 2, if m = .store then 0 else 2, memData T o m L / 2 ^ 64)] := by
  unfold laneAccesses memData
  rw [hn]
  cases m <;> cases t <;> cases h <;> rfl

/-- An access in its two halves. -/
def Access.lowHalf (x : Access) : Access := { x with
  size := 8, ndest := if x.ndest = 0 then 0 else 2, data := x.data &&& 0xFFFFFFFFFFFFFFFF }
def Access.highHalf (x : Access) (u : Target) : Access := { x with
  id := x.id + 1, va := x.va + 8, target := u, size := 8, dest := x.dest + 2, ndest := if x.ndest = 0 then 0 else 2,
  data := x.data >>> 64 }

theorem halves_of_whole {m : MemOp} {t : Target} {x : Access} (h : secondHalf m t = none ∨ x.size ≠ 16) : halves m t x = none := by
  unfold halves
  dsimp only
  split
  · rfl
  · next p hm => exact if_neg fun hn => nomatch (h.resolve_right (not_not_intro hn)).symm.trans (secondHalf_host hm p)
  · next g p hm => exact if_neg fun hn => nomatch (h.resolve_right (not_not_intro hn)).symm.trans (secondHalf_remote hm g p)
  · rfl

theorem halves_of_second {m : MemOp} {t u : Target} {x : Access} (h : secondHalf m t = some u) (hn : x.size = 16) :
    halves m t x = some (x.lowHalf, x.highHalf u) := by
  cases m <;> cases t <;> cases h <;> exact if_pos hn

/-! ### Data of the two halves -/

theorem ofNat_lowHalf (v : Nat) : BitVec.ofNat 128 v &&& 0xFFFFFFFFFFFFFFFF = BitVec.ofNat 128 (v % 2 ^ 64) := by
  refine BitVec.eq_of_toNat_eq ?_
  have hmask : (0xFFFFFFFFFFFFFFFF : BitVec 128).toNat = 2 ^ 64 - 1 := rfl
  rw [BitVec.toNat_and, hmask, Nat.and_two_pow_sub_one_eq_mod, BitVec.toNat_ofNat, BitVec.toNat_ofNat]
  omega

theorem ofNat_highHalf {v : Nat} (h : v < 2 ^ 128) : BitVec.ofNat 128 v >>> 64 = BitVec.ofNat 128 (v / 2 ^ 64) := by
  refine BitVec.eq_of_toNat_eq ?_
  rw [BitVec.toNat_ushiftRight, BitVec.toNat_ofNat, BitVec.toNat_ofNat, Nat.shiftRight_eq_div_pow]
  omega

theorem memData_lt (T : Team) {o : M64} (m : MemOp) (L : Nat) (hn : 2 ^ o.wid.toNat = 16) : memData T o m L < 2 ^ 128 := by
  rw [memData, hn]
  split
  · exact Nat.two_pow_pos _
  · exact Nat.mod_lt _ (Nat.two_pow_pos _)

theorem memResults_half {o : M64} (m : MemOp) (hn : 2 ^ o.wid.toNat = 16) :
    (if memResults o m = 0 then 0 else 2) = if m = .store then 0 else 2 := by
  rw [memResults, hn]
  split <;> rfl

/-! ### The accesses of one lane -/

/-- What the statement tells of an access. -/
def Access.told (x : Access) : Target × Dbl × Nat × Nat × Nat × BitVec 128 := (x.target, x.va, x.size, x.dest, x.ndest, x.data)

/-- The same of a line of `laneAccesses`. -/
def toldOf (y : Target × Nat × Nat × Nat × Nat × Nat) : Target × Dbl × Nat × Nat × Nat × BitVec 128 :=
  (y.1, BitVec.ofNat 64 y.2.1, y.2.2.1, y.2.2.2.1, y.2.2.2.2.1, BitVec.ofNat 128 y.2.2.2.2.2)

/-- The accesses of one lane of an instruction, from number `id`. -/
def laneIssues (c : Ctx) (o : M64) (m : MemOp) (covers : SMap Nat) (ins id : Nat) (y : Nat × Nat × Target) : List Access :=
  let x := mkAccess c o m covers ins id y.1 y.2.1 y.2.2
  match secondHalf m y.2.2 with
  | some u => if 2 ^ o.wid.toNat = 16 then [x.lowHalf, x.highHalf u] else [x]
  | none => [x]

section
variable (c : Ctx) (o : M64) (m : MemOp) (covers : SMap Nat) (ins id : Nat)

/-- The instruction's accesses are its lanes', numbered on. -/
theorem mkAccesses_cons (y : Nat × Nat × Target) (r : List (Nat × Nat × Target)) :
    mkAccesses c o m covers ins id (y :: r) = laneIssues c o m covers ins id y ++
      mkAccesses c o m covers ins (id + (laneIssues c o m covers ins id y).length) r := by
  obtain ⟨L, a, t⟩ := y
  have hsize : (mkAccess c o m covers ins id L a t).size = 2 ^ o.wid.toNat := rfl
  rw [mkAccesses]
  cases hsecond : secondHalf m t with
  | none => simp only [halves_of_whole (.inl hsecond), laneIssues, hsecond]; rfl
  | some u =>
    by_cases hn : 2 ^ o.wid.toNat = 16
    · simp only [halves_of_second hsecond (hsize.trans hn), laneIssues, hsecond, if_pos hn]; rfl
    · simp only [halves_of_whole (.inr (hsize ▸ hn)), laneIssues, hsecond, if_neg hn]; rfl

theorem mkAccess_data (L a : Nat) (t : Target) :
    (mkAccess c o m covers ins id L a t).data = BitVec.ofNat 128 (memData c.team o m L) := by
  cases m <;> rfl

theorem mkAccess_ndest (L a : Nat) (t : Target) : (mkAccess c o m covers ins id L a t).ndest = memResults o m := by
  cases m <;> rfl

/-- What the accesses of a lane tell. -/
theorem laneIssues_told (y : Nat × Nat × Target) :
    (laneIssues c o m covers ins id y).map Access.told = (laneAccesses c.team o m y.2.2 y.2.1 y.1).map toldOf := by
  obtain ⟨L, a, t⟩ := y
  have hwhole : (mkAccess c o m covers ins id L a t).told =
      toldOf (t, a, 2 ^ o.wid.toNat, o.d.toNat, memResults o m, memData c.team o m L) := by
    rw [Access.told, mkAccess_data, mkAccess_ndest]
    rfl
  cases hsecond : secondHalf m t with
  | none => simp only [laneIssues, hsecond, laneAccesses_of_whole a L (.inl hsecond), List.map_cons, List.map_nil, hwhole]
  | some u =>
    by_cases hn : 2 ^ o.wid.toNat = 16
    · simp only [laneIssues, hsecond, if_pos hn, laneAccesses_of_halves a L hsecond hn, List.map_cons, List.map_nil, Access.told,
        Access.lowHalf, Access.highHalf, mkAccess_data, mkAccess_ndest, toldOf, ofNat_lowHalf,
        ofNat_highHalf (memData_lt c.team m L hn), memResults_half m hn, BitVec.ofNat_add]
      rfl
    · simp only [laneIssues, hsecond, if_neg hn, laneAccesses_of_whole a L (.inr hn), List.map_cons, List.map_nil, hwhole]

/-- The access `x` is lane `y.1`'s: it is `mkAccess`'s but for what a half of it has of its own. -/
def ofLane (y : Nat × Nat × Target) (x : Access) : Prop :=
  x = { mkAccess c o m covers ins 0 y.1 y.2.1 y.2.2 with
    id := x.id, va := x.va, target := x.target, size := x.size, dest := x.dest, ndest := x.ndest, data := x.data }

theorem laneIssues_ofLane (y : Nat × Nat × Target) : ∀ x ∈ laneIssues c o m covers ins id y, ofLane c o m covers ins y x := by
  unfold laneIssues
  intro x hx
  split at hx
  · split at hx
    · simp only [List.mem_cons, List.not_mem_nil, or_false] at hx
      rcases hx with rfl | rfl <;> rfl
    · rw [List.mem_singleton.mp hx]; rfl
  · rw [List.mem_singleton.mp hx]; rfl

theorem laneIssues_ids (y : Nat × Nat × Target) :
    (laneIssues c o m covers ins id y).map (·.id) = List.range' id (laneIssues c o m covers ins id y).length := by
  unfold laneIssues
  split
  · split <;> rfl
  · rfl

variable {c o m covers ins} in
theorem ofLane.lane {y : Nat × Nat × Target} {x : Access} (h : ofLane c o m covers ins y x) : x.lane = y.1 := by rw [h]; rfl

variable {c o m covers ins} in
theorem ofLane.ins_eq {y : Nat × Nat × Target} {x : Access} (h : ofLane c o m covers ins y x) : x.ins = ins := by rw [h]; rfl

/-! ### The accesses of an instruction -/

theorem mkAccesses_ids (ls : List (Nat × Nat × Target)) :
    (mkAccesses c o m covers ins id ls).map (·.id) = List.range' id (mkAccesses c o m covers ins id ls).length := by
  induction ls generalizing id with
  | nil => rfl
  | cons y r ih =>
    rw [mkAccesses_cons, List.map_append, ih, laneIssues_ids, List.length_append, List.range'_append_1]

theorem mkAccesses_ofLane (ls : List (Nat × Nat × Target)) :
    ∀ x ∈ mkAccesses c o m covers ins id ls, ∃ y ∈ ls, ofLane c o m covers ins y x := by
  induction ls generalizing id with
  | nil => exact fun x hx => absurd hx List.not_mem_nil
  | cons y r ih =>
    intro x hx
    rw [mkAccesses_cons] at hx
    rcases List.mem_append.mp hx with hx | hx
    · exact ⟨y, List.mem_cons_self, laneIssues_ofLane c o m covers ins id y x hx⟩
    · obtain ⟨z, hz, hlike⟩ := ih _ x hx
      exact ⟨z, List.mem_cons_of_mem _ hz, hlike⟩

/-- What the accesses of one lane tell, of those of the instruction. -/
theorem mkAccesses_told {ls : List (Nat × Nat × Target)} (hnodup : (ls.map (·.1)).Nodup) {y : Nat × Nat × Target} (hy : y ∈ ls) :
    ((mkAccesses c o m covers ins id ls).filter (·.lane == y.1)).map Access.told =
      (laneAccesses c.team o m y.2.2 y.2.1 y.1).map toldOf := by
  induction ls generalizing id with
  | nil => exact absurd hy List.not_mem_nil
  | cons z r ih =>
    obtain ⟨hz, hr⟩ := List.nodup_cons.mp hnodup
    rw [mkAccesses_cons, List.filter_append, List.map_append]
    rcases List.mem_cons.mp hy with rfl | hyr
    · rw [List.filter_eq_self.mpr fun x hx => beq_iff_eq.mpr (laneIssues_ofLane c o m covers ins id y x hx).lane,
        List.filter_eq_nil_iff.mpr fun x hx => ?other, laneIssues_told, List.map_nil, List.append_nil]
      obtain ⟨w, hw, hlike⟩ := mkAccesses_ofLane c o m covers ins _ r x hx
      rw [hlike.lane, beq_iff_eq]
      exact fun heq => hz (List.mem_map.mpr ⟨w, hw, heq⟩)
    · rw [List.filter_eq_nil_iff.mpr fun x hx => ?first, List.map_nil, List.nil_append, ih _ hr hyr]
      rw [(laneIssues_ofLane c o m covers ins id z x hx).lane, beq_iff_eq]
      exact fun heq => hz (List.mem_map.mpr ⟨y, hyr, heq.symm⟩)

/-- The requests of an instruction's accesses. -/
theorem mkAccesses_requests (ls : List (Nat × Nat × Target)) : (mkAccesses c o m covers ins id ls).map Access.request =
    ls.flatMap fun y => (laneAccesses c.team o m y.2.2 y.2.1 y.1).map fun z => (ins, z.1.sector) := by
  induction ls generalizing id with
  | nil => rfl
  | cons y r ih =>
    have hlane : (laneIssues c o m covers ins id y).map Access.request =
        ((laneIssues c o m covers ins id y).map Access.told).map fun z => (ins, z.1.sector) := by
      rw [List.map_map]
      exact List.map_congr_left fun x hx => by rw [Access.request, (laneIssues_ofLane c o m covers ins id y x hx).ins_eq]; rfl
    rw [mkAccesses_cons, List.map_append, ih, hlane, laneIssues_told, List.map_map, List.flatMap_cons]
    rfl

end

/-! ### The issue (10 R239 to R245) -/

section
variable {s : State} {iss : Issue} {i : Instr} {o : M64} {m : MemOp} {tgt : Nat → Target}

/-- The Active lanes with their addresses and targets. -/
def memLanes (s : State) (iss : Issue) (o : M64) (tgt : Nat → Target) : List (Nat × Nat × Target) :=
  (actives s iss).map fun L => (L, laneAddr s iss o L, tgt L)

/-- The accesses that the instruction puts in flight. -/
def memAccesses (s : State) (iss : Issue) (i : Instr) (o : M64) (m : MemOp) (tgt : Nat → Target) : List Access :=
  (mkAccesses (seen s iss i) o m (s.covers iss.team) s.fresh (s.fresh + 1) (memLanes s iss o tgt)).map fun (a : Access) =>
    { a with missed := s.tableMisses a }

/-- The team with the instruction counted in LDC, or in STC for a store. -/
def memCounted (T : Team) (m : MemOp) : Team := if m.counts then { T with ldc := T.ldc + 1 } else { T with stc := T.stc + 1 }

theorem memCounted_eq (T : Team) (m : MemOp) :
    memCounted T m = if m = .store then { T with stc := T.stc + 1 } else { T with ldc := T.ldc + 1 } := by
  cases m <;> rfl

/-- The counter that counts it. -/
def memCounter (T : Team) (m : MemOp) : Nat := if m = .store then T.stc else T.ldc

/-- The state in which it is counted and its release point has been passed. -/
def State.memReleased (s : State) (iss : Issue) (o : M64) (m : MemOp) : State :=
  let u := s.setTeam iss.team (memCounted (s.team iss.team) m)
  if m.kind == .write && 2 ≤ o.ord.toNat then u.releasePoint iss.team (actives s iss) else u

theorem State.releasePoint_accesses (s : State) (tn : Nat) (ls : List Nat) : (s.releasePoint tn ls).accesses = s.accesses := by
  simp only [State.releasePoint]
  split <;> rfl

theorem State.releasePoint_fresh (s : State) (tn : Nat) (ls : List Nat) : (s.releasePoint tn ls).fresh = s.fresh := by
  simp only [State.releasePoint]
  split <;> rfl

theorem State.memReleased_accesses (s : State) (iss : Issue) (o : M64) (m : MemOp) :
    (s.memReleased iss o m).accesses = s.accesses := by
  unfold State.memReleased
  split
  · exact State.releasePoint_accesses _ _ _
  · rfl

theorem State.memReleased_fresh (s : State) (iss : Issue) (o : M64) (m : MemOp) : (s.memReleased iss o m).fresh = s.fresh := by
  unfold State.memReleased
  split
  · exact State.releasePoint_fresh _ _ _
  · rfl

/-- The lanes of the instruction are the Active lanes. -/
theorem memLanes_lanes (s : State) (iss : Issue) (o : M64) (tgt : Nat → Target) : (memLanes s iss o tgt).map (·.1) = actives s iss := by
  rw [memLanes, List.map_map]
  exact List.map_id _

theorem memInstr_of_passing (hi : Issued s iss i) (hact : actives s iss ≠ [])
    (hcheck : ∀ L, Act s iss L → s.checkMem (seen s iss i) L (laneAddr s iss o L) (2 ^ o.wid.toNat) m = .ok (tgt L))
    (hlog : s.logFaults (seen s iss i) (s.laneLogs (seen s iss i) (memBytes o) m o.ord.toNat (memLanes s iss o tgt)) = [])
    (hover : m.kind = .write → s.overLanes (seen s iss i).team.block (seen s iss i).node (memLanes s iss o tgt)
      (s.pendingLines (seen s iss i).team.block) = [])
    (hnative : ∀ op, m = .atomic op → ∀ L, Act s iss L → atomNative (tgt L) op o.wid.toNat = true)
    (hcounter : memCounter (s.team iss.team) m ≠ 255)
    (hroom : s.requestRoom (seen s iss i).team.core ((memAccesses s iss i o m tgt).map Access.request) = true) :
    memInstr i o m s = .next (s.finish iss [] { st := ({ s.memReleased iss o m with
      accesses := (s.memReleased iss o m).accesses ++ memAccesses s iss i o m tgt,
      fresh := (s.memReleased iss o m).fresh + 1 + (memAccesses s iss i o m tgt).length }).stampAll }) := by
  refine (runInstr_of_issued hi _).trans (congrArg (fun x => Host.Outcome.next (s.finish iss [] x)) ?_)
  have hfound : ((seen s iss i).act.map fun L => (L, effAddr (seen s iss i).team L o,
      s.checkMem (seen s iss i) L (effAddr (seen s iss i).team L o) (memBytes o) m)) =
      (actives s iss).map fun L => (L, laneAddr s iss o L, .ok (tgt L)) :=
    List.map_congr_left fun L hL => by rw [← hcheck L hL]; rfl
  have hlanes : ((actives s iss).map fun L => (L, laneAddr s iss o L, tgt L)) = memLanes s iss o tgt := rfl
  have hover' : (if (m.kind == .write) = true then s.overLanes (seen s iss i).team.block (seen s iss i).node (memLanes s iss o tgt)
      (s.pendingLines (seen s iss i).team.block) else []) = [] := by
    split
    case isTrue hw => exact hover (beq_iff_eq.mp hw)
    case isFalse => rfl
  have hemu : (memLanes s iss o tgt).filterMap (fun x => (atomEmu m o s.stamp x.2.1 x.2.2).map fun e => (x.1, e)) = [] := by
    refine List.filterMap_eq_nil_iff.mpr fun x hx => ?_
    obtain ⟨L, hL, rfl⟩ := List.mem_map.mp hx
    cases m with
    | atomic op => simp only [atomEmu, hnative op rfl L hL, if_true, Option.map_none]
    | _ => rfl
  have hne : (memLanes s iss o tgt == []) = false :=
    beq_eq_false_iff_ne.mpr fun hnil => hact (List.map_eq_nil_iff.mp hnil)
  have hfull : (if m.counts = true then (seen s iss i).team.ldc == 255 else (seen s iss i).team.stc == 255) = false := by
    cases m <;> exact beq_eq_false_iff_ne.mpr hcounter
  simp only [hfound, List.filterMap_map, Function.comp_def, List.filterMap_none, List.filterMap_eq_map', hlanes, hlog, hover', hemu,
    List.lookup_nil, Option.isNone_none, List.filter_true, List.contains_nil, Bool.not_false, List.map_nil, List.append_nil, hne,
    Bool.false_eq_true, if_false, hfull, memLanes_lanes]
  refine (if_neg ?room).trans ?_
  case room => rw [Bool.false_or, Bool.not_eq_true', Bool.not_eq_false]; exact hroom
  rfl

/-- Each access in flight is one of a lane, with its own answer about the table cache. -/
theorem mem_memAccesses {x : Access} (hx : x ∈ memAccesses s iss i o m tgt) :
    ∃ L a, Act s iss L ∧ ofLane (seen s iss i) o m (s.covers iss.team) s.fresh (L, laneAddr s iss o L, tgt L) a ∧
      x = { a with missed := s.tableMisses a } := by
  obtain ⟨a, ha, rfl⟩ := List.mem_map.mp hx
  obtain ⟨y, hy, hlike⟩ := mkAccesses_ofLane _ _ _ _ _ _ _ a ha
  obtain ⟨L, hL, rfl⟩ := List.mem_map.mp hy
  exact ⟨L, a, hL, hlike, rfl⟩

theorem memAccesses_told (L : Nat) (hL : Act s iss L) :
    ((memAccesses s iss i o m tgt).filter (·.lane == L)).map Access.told =
      (laneAccesses (s.team iss.team) o m (tgt L) (laneAddr s iss o L) L).map toldOf := by
  have hnodup : ((memLanes s iss o tgt).map (·.1)).Nodup := by
    rw [memLanes_lanes]
    exact actives_nodup s iss
  have hmem : (L, laneAddr s iss o L, tgt L) ∈ memLanes s iss o tgt := List.mem_map_of_mem hL
  rw [memAccesses, List.filter_map, List.map_map]
  exact mkAccesses_told (seen s iss i) o m (s.covers iss.team) s.fresh (s.fresh + 1) hnodup hmem

theorem memAccesses_requests : (memAccesses s iss i o m tgt).map Access.request = (actives s iss).flatMap fun L =>
    (laneAccesses (s.team iss.team) o m (tgt L) (laneAddr s iss o L) L).map fun y => (s.fresh, y.1.sector) := by
  rw [memAccesses, List.map_map]
  refine (mkAccesses_requests (seen s iss i) o m (s.covers iss.team) s.fresh (s.fresh + 1) _).trans ?_
  rw [memLanes, List.flatMap_map]
  rfl

theorem memAccesses_accessesOf : AccessesOf s iss o m tgt (memAccesses s iss i o m tgt) := by
  refine ⟨?ids, fun x hx => ?fields, fun L hL => memAccesses_told L hL⟩
  case ids =>
    rw [memAccesses, List.map_map, List.length_map]
    exact mkAccesses_ids _ _ _ _ _ _ _
  case fields =>
    obtain ⟨L, a, hL, hlike, rfl⟩ := mem_memAccesses hx
    rw [hlike]
    refine ⟨hL, rfl, rfl, rfl, rfl, rfl, rfl, rfl, rfl, rfl, rfl, rfl, ?nol1, ?ts, ?knows, rfl, ?carries, ?data2⟩
    case nol1 => exact Bool.or_comm _ _
    case ts => simp only [mkAccess, Bool.and_eq_true, beq_iff_eq, decide_eq_true_eq]; rfl
    case knows => simp only [mkAccess, Bool.and_eq_true, beq_iff_eq, decide_eq_true_eq]; rfl
    case carries => simp only [mkAccess, bne_iff_ne]; rfl
    case data2 => simp only [mkAccess, beq_iff_eq]; rfl

end

/-- Settles O24: the accesses by `memAccesses_accessesOf`, the issue by `memInstr_of_passing`. -/
theorem accessesAreIssued : Obligations.AccessesAreIssued := by
  unfold Obligations.AccessesAreIssued
  intro issues
  have hissues : ∀ (ins : M64 → Instr) (m : MemOp), (∀ o s, exec (ins o) s = memInstr (ins o) o m s) → issues ins m := by
    intro ins m hx o s iss tgt T c ls hi hact hcheck hlog hover hnative hcounter counted u requests hroom
    have hrequests : (memAccesses s iss (ins o) o m tgt).map Access.request = requests := memAccesses_requests
    have hcount : memCounter T m ≠ 255 := hcounter
    have hu : s.memReleased iss o m = u := by
      have hcounted : s.setTeam iss.team (memCounted (s.team iss.team) m) = counted := congrArg _ (memCounted_eq _ _)
      simp only [State.memReleased, hcounted, Bool.and_eq_true, beq_iff_eq, decide_eq_true_eq]
      rfl
    have hrun := memInstr_of_passing hi hact hcheck hlog hover hnative hcount (by rw [hrequests]; exact hroom)
    rw [State.memReleased_accesses, State.memReleased_fresh, hu] at hrun
    exact ⟨memAccesses s iss (ins o) o m tgt, memAccesses_accessesOf, goesOn_of_finish ((hx o s).trans hrun)⟩
  exact ⟨hissues _ _ fun _ _ => rfl, hissues _ _ fun _ _ => rfl, hissues _ _ fun _ _ => rfl, hissues _ _ fun _ _ => rfl,
    hissues _ _ fun _ _ => rfl, hissues _ _ fun _ _ => rfl, hissues _ _ fun _ _ => rfl, hissues _ _ fun _ _ => rfl,
    hissues _ _ fun _ _ => rfl, hissues _ _ fun _ _ => rfl, hissues _ _ fun _ _ => rfl, hissues _ _ fun _ _ => rfl,
    hissues _ _ fun _ _ => rfl⟩

end Sys2Proof.Machine
end

section
/-! PROOFS of the statement of engines, lines and register fills (O54): what the start and the end of a copy, the completion of each
engine, the end of a watch's wait, the arrival of a line and the completion of register fills leave. -/
namespace Sys2Proof.Machine
open Sys2Proof.Claims

/-! ### Copies (10 R250 to R253) -/

/-- What a copy that is due reads before it writes: its source bytes where source and destination overlap. -/
def State.copyReads (s : State) (c : Copy) (lap : Bool) : State × List Byte × Option FaultInfo :=
  if lap then s.copySource c (s.copyAgent c) 0 c.total else (s, [], none)

/-- Its ranges overlap. -/
def State.copyLaps (s : State) (c : Copy) : Bool :=
  let ag := s.copyAgent c
  let d := boundRange c.dst.toNat c.rows c.rowBytes c.dstStride
  let r := boundRange c.src.toNat c.rows c.rowBytes c.srcStride
  (lockPlace ag d.1.toNat).1 == (lockPlace ag r.1.toNat).1 &&
    overlaps (lockPlace ag d.1.toNat).2 (d.2 + 1 - d.1).toNat (lockPlace ag r.1.toNat).2 (r.2 + 1 - r.1).toNat

/-- The copy once it has begun, with what it has read. -/
def Copy.begun (c : Copy) (lap : Bool) (x : State × List Byte × Option FaultInfo) : Copy :=
  { c with started := true, overlap := lap, buffer := x.2.1, bufferEnd := x.2.2 }

/-- The state once copy `c` stands on tag `tag` of core `n`. -/
def State.setCopy (s : State) (n tag : Nat) (c : Copy) : State :=
  s.setCore n { s.core n with copies := (s.core n).copies.set {} tag c }

section
variable {s : State} {n tag : Nat} {c : Copy} (hc : (s.core n).copies.get {} tag = c) (htotal : c.total ≠ 0)
include hc htotal

section
variable (hstarted : c.started = false) (hclear : s.lockClear n c.op = true) (hacq : s.acquireOpen c.team c.lane c.op = false)
include hstarted hclear hacq

theorem execCopyStart_of_due : exec (.copyStart n tag) s =
    match (s.copyReads c (s.copyLaps c)).2.2.filter fun e => e.code == 0 with
    | some e => .next (s.waitFor (s.copyAgent c) e)
    | none => .next ((s.copyReads c (s.copyLaps c)).1.setCopy n tag (c.begun (s.copyLaps c) (s.copyReads c (s.copyLaps c)))) := by
  subst hc
  refine (if_neg (c := (_ || _) = true) ?due).trans ?_
  case due => simp only [htotal, hstarted, hclear, hacq]; decide
  rfl

theorem copyStart_waits {e : FaultInfo} (he : (s.copyReads c (s.copyLaps c)).2.2 = some e) (hcode : e.code = 0) :
    exec (.copyStart n tag) s = .next (s.waitFor (s.copyAgent c) e) := by
  rw [execCopyStart_of_due hc htotal hstarted hclear hacq, he, Option.filter_some, if_pos (beq_iff_eq.mpr hcode)]

theorem copyStart_starts (he : ∀ e, (s.copyReads c (s.copyLaps c)).2.2 = some e → e.code ≠ 0) :
    let x := s.copyReads c (s.copyLaps c)
    exec (.copyStart n tag) s = .next (x.1.setCopy n tag (c.begun (s.copyLaps c) x)) := by
  have hnone : (s.copyReads c (s.copyLaps c)).2.2.filter (fun e => e.code == 0) = none :=
    Option.filter_eq_none_iff.mpr fun e hm => by simpa using he e hm
  rw [execCopyStart_of_due hc htotal hstarted hclear hacq, hnone]

end

/-- A copy that has moved its bytes, or failed, sets its tag and leaves its error. -/
theorem copyComplete_of_done (hstarted : c.started = true) (haborted : c.aborted = false)
    (hdone : c.done = c.total ∨ c.failed.isSome = true) :
    let k := s.core n
    let u := s.setCore n { k with
      locks := k.locks.filter fun l => l.op != c.op, tags := setBit k.tags tag true, copies := k.copies.erase tag,
      tagErrs := k.tagErrs ++ c.failed.toList.map fun e => { tag := tag, code := e.code, cause := e.cause, addr := e.addr } }
    exec (.copyComplete n tag) s = .next (((u.setTeam c.team
      ({ s.team c.team with cpc := (s.team c.team).cpc - 1 } : Team).wakeCounters).wakeCore n).blockSaved c.block) := by
  intro k u
  have hover : (c.total != 0 && ((c.started && (c.done == c.total || c.failed.isSome)) || (c.aborted && c.done % 4096 == 0))) =
      true := by
    have hmoved : (c.done == c.total || c.failed.isSome) = true := by simpa using hdone
    simp only [bne_iff_ne.mpr htotal, hstarted, hmoved, Bool.true_or, Bool.and_self]
  subst hc
  refine (if_neg (c := (!_) = true) (by rw [hover]; decide)).trans ?_
  have herr : ∀ f : Option FaultInfo, (match f with
      | some e => [({ tag := tag, code := e.code, cause := e.cause, addr := e.addr } : TagError)]
      | none => []) = f.toList.map fun e => { tag := tag, code := e.code, cause := e.cause, addr := e.addr } :=
    fun f => by cases f <;> rfl
  simp only [haborted, Bool.false_eq_true, if_false, State.unlock, State.core_setCore_self, State.setCore_setCore,
    State.team_setCore, u, k, ← herr] <;> rfl

end

/-! ### The wait for a watch ends (10 R274) -/

/-- The team once lane `L` has waited long enough. -/
def Team.watchTimedOut (T : Team) (L d : Nat) : Team :=
  ((T.setLane L { (T.lane L).release 1 with watch := .none }).setV L d 1).refresh

theorem execWaitwTimeout_of_waiting {s : State} {tn L d : Nat} (h : ((s.team tn).lane L).st = .waiting (.watch d)) :
    exec (.waitwTimeout tn L) s = .next (s.setTeam tn ((s.team tn).watchTimedOut L d)) := by
  have hrun : exec (.waitwTimeout tn L) s = execWaitwTimeout tn L s := rfl
  rw [hrun, execWaitwTimeout]
  simp only [h]
  rfl

theorem Team.watchTimedOut_lane (T : Team) (L d M : Nat) :
    (T.watchTimedOut L d).lane M = if M = L then { (T.lane L).release 1 with watch := .none } else T.lane M := by
  rw [Team.watchTimedOut, Team.refresh_lane, Team.lane_setV, Team.lane_setLane]

theorem Team.watchTimedOut_vreg (T : Team) {L d M n : Nat} (hd : d < 512) (hn : n < 512) :
    (T.watchTimedOut L d).vreg M n = if M = L ∧ n = d then 1 else T.vreg M n := by
  rw [Team.watchTimedOut, Team.refresh_vreg, Team.vreg_setV _ _ hd hn, Team.vreg_setLane]

/-! ### Engines (10 R271; 14 R335, R341) -/

section
variable {s : State} {id : Nat} {e : Engine} (hfind : (s.engines.find? fun x => x.id == id) = some e)
include hfind

section
variable {h : Handle} {d : Nat} {early : Option Nat} (hkind : e.kind = .zscan h d early) (haborted : e.aborted = false)
include hkind haborted

/-- A scan with nothing to do reports it. -/
theorem zscanComplete_of_early (hearly : early.isSome = true) :
    exec (.zscanComplete id) s = .next (s.zscanEnd e (e.agent s) d 0x100) := by
  have hrun : exec (.zscanComplete id) s = execZscanComplete id s := rfl
  rw [hrun, execZscanComplete]
  simp only [hfind, hkind, haborted, hearly, Bool.false_eq_true, if_false, if_true]

/-- What a turn of a scan makes of its record. -/
def State.scanTurn (s : State) (e : Engine) (h : Handle) : State × Option FaultInfo :=
  let zr := (s.func e.func).zflagAddr h.zfi
  if e.begun then s.scanRecord e (e.agent s) h zr else s.recordWrites e (e.agent s) [(zr + 0x10, 4, 0)]

variable (hearly : early = none) (hclear : s.lockClear e.core e.id = true) (hacq : s.acquireOpen e.team e.lane e.ins = false)
include hearly hclear hacq

theorem zscanComplete_of_fault {u : State} {x : FaultInfo} (hturn : s.scanTurn e h = (u, some x)) : exec (.zscanComplete id) s =
    .next (if x.code = 0 then s.waitFor (e.agent s) x else u.zscanEnd e (e.agent s) d x.code) := by
  have hrun : exec (.zscanComplete id) s = execZscanComplete id s := rfl
  rw [hrun, execZscanComplete]
  simp only [State.scanTurn] at hturn
  simp only [hfind, hkind, haborted, hearly, hclear, hacq, hturn, Option.isSome_none, Bool.not_true, Bool.or_self, Bool.false_eq_true,
    if_false]

theorem zscanComplete_of_turn {u : State} (hturn : s.scanTurn e h = (u, none)) : exec (.zscanComplete id) s =
    .next (if e.begun then u.zscanEnd e (e.agent s) d 0
      else { u with engines := u.engines.map fun (y : Engine) => if y.id = id then { y with begun := true } else y }) := by
  have hrun : exec (.zscanComplete id) s = execZscanComplete id s := rfl
  rw [hrun, execZscanComplete]
  simp only [State.scanTurn] at hturn
  simp only [hfind, hkind, haborted, hearly, hclear, hacq, hturn, Option.isSome_none, Bool.not_true, Bool.or_self, Bool.false_eq_true,
    if_false]
  split <;> rfl

end

section
variable {y x : Dbl} {h : Handle} {bc bo yf xf mode : Nat} {sat : Bool} (hkind : e.kind = .nmv y x h bc bo yf xf mode sat)
  (hclear : s.lockClear e.core e.id = true) (hacq : s.acquireOpen e.team e.lane e.ins = false)
include hkind hclear hacq

/-- What stops an NMV before it reads its vector. -/
def State.nmvStopped (s : State) (e : Engine) (y x : Dbl) (h : Handle) (xf : Nat) : Option NmvError :=
  ((s.nmvAway e x y).or (s.nmvFront e (e.agent s) h)).or (nmvRange 1 0 x.toNat (h.cols * ((floatFmt xf).width / 8)))

theorem nmvComplete_of_stopped {er : NmvError} (hfront : s.nmvStopped e y x h xf = some er) :
    exec (.nmvComplete id) s = .next (if er.code = 0 then s.waitFor (e.agent s) er.src else s.nmvFinish e bc bo (some er)) := by
  have hrun : exec (.nmvComplete id) s = execNmvComplete id s := rfl
  rw [hrun, execNmvComplete]
  simp only [State.nmvStopped] at hfront
  simp only [hfind, hkind, hclear, hacq, hfront, Bool.not_true, Bool.or_self, Bool.false_eq_true, if_false]

variable (hfront : s.nmvStopped e y x h xf = none)
include hfront

theorem nmvComplete_of_vectorError {er : NmvError}
    (hvec : s.nmvVector e (e.agent s) xf ((floatFmt xf).width / 8) x.toNat h.cols = .error er) :
    exec (.nmvComplete id) s = if er.code = 0 then .next (s.waitFor (e.agent s) er.src)
      else .next ((s.nmvFinish e bc bo (some er)).dropAnswers (e.agent s).who.team [(e.agent s).asks]) := by
  have hrun : exec (.nmvComplete id) s = execNmvComplete id s := rfl
  rw [hrun, execNmvComplete]
  simp only [State.nmvStopped] at hfront
  simp only [hfind, hkind, hclear, hacq, hfront, hvec, Bool.not_true, Bool.or_self, Bool.false_eq_true, if_false]

theorem nmvComplete_of_rows {s1 s2 : State} {xs : List Machine.Num} {evs : List Nat} {err : Option NmvError}
    (hvec : s.nmvVector e (e.agent s) xf ((floatFmt xf).width / 8) x.toNat h.cols = .ok (s1, xs))
    (hrows : s1.nmvRows e (e.agent s) h y.toNat xs yf (.ofHint (BitVec.ofNat 2 mode)) sat 0 h.rows = (s2, evs, err)) :
    exec (.nmvComplete id) s = match err with
      | some er =>
        if er.code = 0 then .next (s.waitFor (e.agent s) er.src)
        else .next (((s2.countEvents e.block evs).nmvFinish e bc bo (some er)).dropAnswers (e.agent s).who.team [(e.agent s).asks])
      | none => .next ((s2.countEvents e.block evs).nmvFinish e bc bo none) := by
  have hrun : exec (.nmvComplete id) s = execNmvComplete id s := rfl
  rw [hrun, execNmvComplete]
  simp only [State.nmvStopped] at hfront
  simp only [hfind, hkind, hclear, hacq, hfront, hvec, hrows, Bool.not_true, Bool.or_self, Bool.false_eq_true, if_false]
  cases err <;> rfl

end

theorem mxstComplete_of_stored (hkind : e.kind = .mxst) (hstored : ∀ a ∈ s.accesses, a.ins ≠ id) :
    exec (.mxstComplete id) s = .next ((((s.endEngine e).setTeam e.team ((s.endEngine e).team e.team).wakeCounters)).blockSaved
      e.block) := by
  have hrun : exec (.mxstComplete id) s = execMxstComplete id s := rfl
  have hnone : (s.accesses.any fun a => a.ins == id) = false := List.any_eq_false.mpr fun a ha => by simpa using hstored a ha
  rw [hrun, execMxstComplete]
  simp only [hfind, hkind, hnone, bne_self_eq_false, Bool.or_self, Bool.false_eq_true, if_false]

end

/-! ### Lines (06 R153) -/

/-- A line without committed pairs takes none. -/
theorem State.penApply_of_noBatch {s : State} {line : Nat} (h : s.batch line = []) : s.penApply line = s := by
  have hnone : (if s.cutLine line then [] else s.batch line) = [] := by rw [h, ite_self]
  simp only [State.penApply, State.applyLine, hnone, ite_self]

theorem State.batch_callHome (s : State) (n : Nat) (t : Target) (line : Nat) : (s.callHome n t).batch line = s.batch line := by
  rw [State.callHome_eq]
  rfl

theorem State.lineAt_callHome (s : State) (n : Nat) (t : Target) (p : Nat) : (s.callHome n t).lineAt p = s.lineAt p := by
  rw [State.callHome_eq]
  rfl

theorem State.block_callHome (s : State) (n : Nat) (t : Target) (b : Nat) : (s.callHome n t).block b = s.block b := by
  rw [State.callHome_eq]
  rfl

theorem State.ilines_callHome (s : State) (n : Nat) (t : Target) : (s.callHome n t).ilines = s.ilines := by
  rw [State.callHome_eq]

/-- An undamaged line without committed pairs goes to the core's instruction cache as it stands in memory. -/
theorem State.lineArrives_of_intact {s : State} {p : Nat} (tn lane va : Nat) (hbatch : s.batch (p / 64) = [])
    (hparity : parityOk (s.lineAt p) = true) :
    let line : ILine := { core := (s.team tn).core, func := (s.block (s.team tn).block).func, va := va, words := s.lineAt p }
    (s.lineArrives tn lane va p .none).1 = { s.callHome (s.team tn).core (.hbm p) with
      ilines := line :: s.ilines.filter fun l => !(l.core == line.core && l.func == line.func && l.va == line.va) } := by
  have hpen : (s.callHome (s.team tn).core (.hbm p)).penApply (p / 64) = s.callHome (s.team tn).core (.hbm p) :=
    State.penApply_of_noBatch (by rw [State.batch_callHome, hbatch])
  simp only [State.lineArrives, hpen, State.lineAt_callHome, hparity, if_true, State.cacheLine, State.block_callHome,
    State.ilines_callHome]

theorem execLineFill_of_intact {s : State} {tn : Nat} {va : Dbl} {L p : Nat} (hruns : s.teamRuns tn = true)
    (hhead : (laneList.filter fun L => ((s.team tn).lane L).isReady && (lineOf ((s.team tn).lane L).pc == va ||
      s.fetchAhead tn ((s.team tn).lane L).pc == some va)).head? = some L)
    (htarget : s.fetchTarget tn L va.toNat = .ok (.hbm p)) :
    exec (.lineFill tn va .none) s = .next (s.lineArrives tn L va.toNat p .none).1 := by
  have hrun : exec (.lineFill tn va .none) s = execLineFill tn va .none s := rfl
  obtain ⟨r, hlanes⟩ := List.head?_eq_some_iff.mp hhead
  rw [hrun, execLineFill]
  simp only [hruns, if_true, hlanes, htarget]

/-! ### Register fills (05 R136, R137) -/

section
variable {s : State} {core : Nat} {named : List (Nat × Nat)} {p q : Nat × Nat}

/-- A group that has taken its place in the cache stands in it. -/
theorem State.mem_cacheGroup_self (s : State) (core : Nat) (named : List (Nat × Nat)) (p : Nat × Nat) :
    p ∈ ((s.cacheGroup core named p).core core).rcache := by
  unfold State.cacheGroup
  dsimp only
  split
  · rw [State.core_setCore_self]; exact List.mem_cons_self
  · split <;> rw [State.core_setCore_self] <;> exact List.mem_cons_self

/-- A group that the instruction names is of no victim class. -/
theorem State.victimClass_of_named (s : State) (h : q ∈ named) : s.victimClass named q = 0 := if_pos (List.contains_iff_mem.mpr h)

/-- The victim is no group that the instruction names. -/
theorem State.victim_not_named {cache : List (Nat × Nat)} {v : Nat × Nat} (hv : s.victim cache named = some v) : v ∉ named := by
  intro hmem
  have hzero := s.victimClass_of_named hmem
  have hclass : ∀ c, (cache.filter fun p => s.victimClass named p == c).getLast? = some v → c = 0 := fun c hc => by
    have := (List.mem_filter.mp (List.mem_of_getLast? hc)).2
    rw [hzero, beq_iff_eq] at this
    exact this.symm
  simp only [State.victim, Option.or_eq_some_iff] at hv
  rcases hv with h | ⟨-, h | ⟨-, h | ⟨-, h⟩⟩⟩ <;> exact absurd (hclass _ h) (by decide)

/-- A named group that stands in the cache stays in it. -/
theorem State.mem_cacheGroup_of_named (hq : q ∈ named) (hin : q ∈ (s.core core).rcache) :
    q ∈ ((s.cacheGroup core named p).core core).rcache := by
  by_cases hqp : q = p
  · rw [hqp]; exact s.mem_cacheGroup_self core named p
  have hrest : q ∈ (s.core core).rcache.filter (· != p) := List.mem_filter.mpr ⟨hin, bne_iff_ne.mpr hqp⟩
  unfold State.cacheGroup
  dsimp only
  split
  · rw [State.core_setCore_self]; exact List.mem_cons_of_mem _ hrest
  · split
    case h_1 v hv =>
      rw [State.core_setCore_self]
      have hne : q ≠ v := fun heq => State.victim_not_named hv (heq ▸ hq)
      exact List.mem_cons_of_mem _ (List.mem_filter.mpr ⟨hrest, bne_iff_ne.mpr hne⟩)
    case h_2 => rw [State.core_setCore_self]; exact List.mem_cons_of_mem _ hrest

end

/-- Named groups that take their places all stand in the cache then. -/
theorem mem_foldl_cacheGroup {named : List (Nat × Nat)} (core : Nat) {ps : List (Nat × Nat)} (hnamed : ∀ p ∈ ps, p ∈ named)
    (s : State) {q : Nat × Nat} (hq : q ∈ named) (h : q ∈ ps ∨ q ∈ (s.core core).rcache) :
    q ∈ ((ps.foldl (fun s p => s.cacheGroup core named p) s).core core).rcache := by
  induction ps generalizing s with
  | nil => exact h.resolve_left List.not_mem_nil
  | cons p r ih =>
    refine ih (fun x hx => hnamed x (List.mem_cons_of_mem _ hx)) _ ?_
    rcases h with h | h
    · rcases List.mem_cons.mp h with rfl | h
      · exact .inr (s.mem_cacheGroup_self core named q)
      · exact .inl h
    · exact .inr (State.mem_cacheGroup_of_named hq h)

theorem State.drainGroup_team_core (s : State) (core tn : Nat) : ((s.drainGroup core).team tn).core = (s.team tn).core := by
  unfold State.drainGroup
  dsimp only
  split
  · rfl
  · next w r hw =>
    rw [State.team_setTeam]
    split
    · next h => rw [h]; rfl
    · rfl

theorem State.drainAll_team_core (s : State) (core n tn : Nat) : ((s.drainAll core n).team tn).core = (s.team tn).core := by
  induction n generalizing s with
  | zero => rfl
  | succ k ih => rw [State.drainAll, ih, State.drainGroup_team_core]

/-- The state in which the write-back buffer is drained, where a group of the team that is to be filled stands in it. -/
def State.fillDrained (s : State) (tn : Nat) : State :=
  let n := (s.team tn).core
  if (s.core n).wbuf.any fun e => e.team == tn && (s.team tn).filling.contains e.group then s.drainAll n (s.core n).wbuf.length else s

theorem State.fillDrained_team_core (s : State) (tn : Nat) : ((s.fillDrained tn).team tn).core = (s.team tn).core := by
  unfold State.fillDrained
  dsimp only
  split
  · exact State.drainAll_team_core _ _ _ _
  · rfl

/-- The groups that a team waits for take their places. -/
def State.filled (s : State) (tn : Nat) : State := (s.fillDrained tn).useGroups tn (s.team tn).filling (s.team tn).fillFor

theorem execRegisterFill_of_filling {s : State} {tn : Nat} (hfill : (s.team tn).filling ≠ []) (hres : (s.team tn).resident = true) :
    exec (.registerFill tn) s = .next ((s.filled tn).setTeam tn { (s.filled tn).team tn with filling := [], fillFor := [] }) := by
  have hrun : exec (.registerFill tn) s = execRegisterFill tn s := rfl
  rw [hrun, execRegisterFill]
  refine if_neg ?_
  rw [hres]
  simpa using hfill

/-- Those that the instruction names stand in the cache then. -/
theorem State.mem_filled {s : State} {tn g : Nat} (hnamed : ∀ g ∈ (s.team tn).filling, g ∈ (s.team tn).fillFor)
    (hg : g ∈ (s.team tn).filling) : (tn, g) ∈ ((s.filled tn).core (s.team tn).core).rcache := by
  have hpairs : ∀ p ∈ (s.team tn).filling.map fun g => (tn, g), p ∈ (s.team tn).fillFor.map fun g => (tn, g) := fun p hp => by
    obtain ⟨k, hk, rfl⟩ := List.mem_map.mp hp
    exact List.mem_map_of_mem (hnamed k hk)
  have hmem : (tn, g) ∈ (s.team tn).filling.map fun g => (tn, g) := List.mem_map_of_mem hg
  have hin := mem_foldl_cacheGroup (s.team tn).core hpairs (s.fillDrained tn) (hpairs _ hmem) (.inl hmem)
  rw [List.foldl_map] at hin
  rw [State.filled, State.useGroups, State.fillDrained_team_core]
  exact hin

/-! ### The statement -/

/-- Settles O54: each event by its own lemma above. -/
theorem engineEvents : Obligations.EngineEvents := by
  unfold Obligations.EngineEvents
  refine ⟨?copyStart, ?copyComplete, ?watch, ?zscan, ?nmv, ?mxst, ?line, ?fill⟩
  case copyStart =>
    intro s n tag c htotal hstarted hclear hacq ag d r lap x
    exact ⟨fun e he hcode => copyStart_waits rfl htotal hstarted hclear hacq he hcode,
      fun he => copyStart_starts rfl htotal hstarted hclear hacq he⟩
  case copyComplete =>
    intro s n tag c htotal hstarted haborted hdone k err u T
    exact copyComplete_of_done rfl htotal hstarted haborted hdone
  case watch =>
    intro s tn L d hst hL hd
    refine ⟨_, execWaitwTimeout_of_waiting hst, ?_⟩
    rw [State.team_setTeam_self]
    refine ⟨rfl, ?_, ?_, fun M hM => ?_, fun M n _ hn hne => ?_⟩
    · rw [Team.watchTimedOut_vreg _ hd hd, if_pos ⟨rfl, rfl⟩]
    · rw [Team.watchTimedOut_lane, if_pos rfl]
      rfl
    · rw [Team.watchTimedOut_lane, if_neg hM]
    · rw [Team.watchTimedOut_vreg _ hd hn, if_neg hne]
  case zscan =>
    intro s id e h d early hfind hkind haborted hclear hacq ag zr ends hid
    subst hid
    refine ⟨fun hearly => zscanComplete_of_early hfind hkind haborted hearly, fun hearly u f hturn => ⟨fun hf hbegun => ?begins,
      fun hf hbegun => ?scanned, fun x hf => ⟨fun hcode => ?faults, fun hcode => ?waits⟩⟩⟩
    case begins =>
      subst hf
      rw [zscanComplete_of_turn hfind hkind haborted hearly hclear hacq hturn, hbegun, if_neg Bool.false_ne_true]
    case scanned =>
      subst hf
      have hrun := zscanComplete_of_turn hfind hkind haborted hearly hclear hacq hturn
      rw [hbegun, if_pos rfl] at hrun
      exact hrun
    case faults =>
      subst hf
      have hrun := zscanComplete_of_fault hfind hkind haborted hearly hclear hacq hturn
      rw [if_neg hcode] at hrun
      exact hrun
    case waits =>
      subst hf
      rw [zscanComplete_of_fault hfind hkind haborted hearly hclear hacq hturn, if_pos hcode]
  case nmv =>
    intro s id e y x h bc bo yf xf mode sat hfind hkind hclear hid hacq ag size front fails
    subst hid
    have hfails : ∀ v er, exec (.nmvComplete e.id) s = (if er.code = 0 then .next (s.waitFor ag er.src)
        else .next ((v.nmvFinish e bc bo (some er)).dropAnswers ag.who.team [ag.asks])) → fails v er := fun v er hrun => by
      by_cases hcode : er.code = 0
      · exact (if_pos hcode).mpr (hrun.trans (if_pos hcode))
      · exact (if_neg hcode).mpr (hrun.trans (if_neg hcode))
    refine ⟨fun er hfront hcode => ?stops, fun er hfront hcode => ?waits, fun hfront er hvec => ?vector,
      fun hfront s1 xs s2 evs err hvec hrows => ⟨fun herr => ?ends, fun er herr => ?rows⟩⟩
    case stops => rw [nmvComplete_of_stopped hfind hkind hclear hacq hfront, if_neg hcode]
    case waits => rw [nmvComplete_of_stopped hfind hkind hclear hacq hfront, if_pos hcode]
    case vector => exact hfails _ _ (nmvComplete_of_vectorError hfind hkind hclear hacq hfront hvec)
    case ends =>
      subst herr
      exact nmvComplete_of_rows hfind hkind hclear hacq hfront hvec hrows
    case rows =>
      subst herr
      exact hfails _ _ (nmvComplete_of_rows hfind hkind hclear hacq hfront hvec hrows)
  case mxst =>
    intro s id e hfind hkind hstored
    exact mxstComplete_of_stored hfind hkind hstored
  case line =>
    intro s tn va L p hruns hhead htarget hbatch hparity line rest
    rw [execLineFill_of_intact hruns hhead htarget, State.lineArrives_of_intact tn L va.toNat hbatch hparity]
  case fill =>
    intro s tn T hfill hres w d u
    have hd : s.fillDrained tn = d := by
      simp only [State.fillDrained, List.any_eq_true, Bool.and_eq_true, beq_iff_eq, List.contains_iff_mem]
      rfl
    have hu : s.filled tn = u := by rw [State.filled, hd]
    rw [← hu]
    exact ⟨execRegisterFill_of_filling hfill hres, fun hnamed g hg => State.mem_filled hnamed hg⟩

end Sys2Proof.Machine
end

section
/-! PROOFS of the statement of accesses at their homes (O53), which fails: a plain load is heard by its lane through the words of the
block of its team, where the statement looks at the words of the block that the access names, and a state may name two blocks. -/
namespace Sys2Proof.Machine
open Sys2Proof.Claims

/-- A plain load of four bytes at the start of vault 0, of lane 0 of team 0, that names block 0. -/
def strayLoad : Access :=
  { id := 0, ins := 0, kind := .load, team := 0, block := 0, core := 0, lane := 0, func := 0, va := 0, target := .vault 0 0, size := 4,
    ord := 0, dest := 0, ndest := 1, sx := false, nol1 := false, data := 0, data2 := 0, ts := 0, floored := false,
    supervisor := false, stage := .issued }

/-- Block 1, on whose word at the start of vault 0 a release has left what it carries. -/
def carryingBlock : Block := { words := [(vaultWord 0 0, [(0, 1)])] }

/-- That load is in flight, and its team stands in block 1. -/
def strayState : State :=
  { State.reset with accesses := [strayLoad], teams := [(0, { block := 1 })], blocks := [(1, carryingBlock)] }

/-- The load may be performed, with no log in its way and no committed pair on its line. -/
theorem strayLoad_ready : strayState.accessReady strayLoad = true ∧ strayState.homeLogOk strayLoad = true ∧
    strayState.det strayLoad.block = false := by decide +kernel

/-- The words of the block that it names carry nothing. -/
theorem strayLoad_unheard : (strayState.block strayLoad.block).carried strayLoad.target strayLoad.size = [] := by decide +kernel

/-- What lane 0 of team 0 has heard. -/
def heardOf (s : State) : SMap Nat := ((s.team 0).lane 0).heard

/-- The load is performed, and its lane has heard what the word of block 1 carries. -/
theorem strayLoad_heard : (match exec (.homeAccess 0) strayState with
    | .next t => heardOf t
    | _ => []) = [(0, 1)] := by decide +kernel

theorem heardOf_of_teams {s t : State} (h : t.teams = s.teams) : heardOf t = heardOf s := by
  unfold heardOf State.team
  rw [h]

/-- Refutes O53: in `strayState` the load that may be performed changes its team, though the words of the block that it names carry
nothing. -/
theorem not_homeEvents : ¬ Obligations.HomeEvents := by
  unfold Obligations.HomeEvents
  intro h
  obtain ⟨hready, hlog, hdet⟩ := strayLoad_ready
  obtain ⟨-, hload, -⟩ := h.1 strayState 0 strayLoad rfl hlog ⟨hdet, fun p hp => nomatch hp⟩ (by decide) fun o ho => nomatch ho
  obtain ⟨t, hexec, -, -, -, hteams⟩ := hload hready rfl
  have hheard := strayLoad_heard
  simp only [hexec] at hheard
  have hkept : heardOf t = [] := heardOf_of_teams (hteams strayLoad_unheard).1
  rw [hheard] at hkept
  cases hkept

end Sys2Proof.Machine
end

section
/-! PROOFS of the statement of rounding (O45): sums and products are exact; the magnitudes of a format rise with the low bits of its
encodings, every magnitude lies between two neighbours, and the mode names one of the two. -/
namespace Sys2Proof.Machine
open Sys2Proof.Claims

/-! ### Sums and products (13 R318) -/

theorem ratOf_fin (n : Bool) (m : Nat) (e : Int) : ratOf (.fin n m e) = (if n then -1 else 1) * m * (2 : ℚ) ^ e := rfl

/-- A power of two in units of a smaller one. -/
theorem two_zpow_eq_mul {q e : Int} (h : q ≤ e) : (2 : ℚ) ^ e = (2 ^ (e - q).toNat : ℕ) * (2 : ℚ) ^ q := by
  obtain ⟨j, rfl⟩ := Int.le.dest h
  rw [zpow_add₀ two_ne_zero, mul_comm, add_sub_cancel_left, Int.toNat_natCast, zpow_natCast, Nat.cast_pow, Nat.cast_ofNat]

theorem ratOf_fin_eq_units (n : Bool) (m : Nat) {q e : Int} (h : q ≤ e) :
    ratOf (.fin n m e) = (Num.units (.fin n m e) q : ℤ) * (2 : ℚ) ^ q := by
  rw [ratOf_fin, two_zpow_eq_mul h]
  cases n <;> simp [Num.units, mul_assoc]

theorem ratOf_ofInt (z q : Int) : ratOf (Num.ofInt z q) = z * (2 : ℚ) ^ q := by
  rw [Num.ofInt, ratOf_fin]
  rcases lt_or_ge z 0 with h | h
  · rw [← Int.cast_natCast, Int.ofNat_natAbs_of_nonpos h.le]
    simp [h]
  · rw [← Int.cast_natCast, Int.natAbs_of_nonneg h]
    simp [h.not_gt]

/-- A sum of finite values is zero, or the integer that their common units add up to. -/
theorem Num.add_fin (n n' : Bool) (m m' : Nat) (e e' : Int) (mode : Mode) :
    let q := min e e'
    let z := Num.units (.fin n m e) q + Num.units (.fin n' m' e') q
    (∃ a, z = 0 ∧ (Num.fin n m e).add (.fin n' m' e') mode = .fin a 0 0) ∨
      (Num.fin n m e).add (.fin n' m' e') mode = Num.ofInt z q := by
  intro q z
  by_cases hz : z = 0
  · exact .inl ⟨_, hz, if_pos hz⟩
  · exact .inr (if_neg hz)

theorem Num.add_fin_isFin (n n' : Bool) (m m' : Nat) (e e' : Int) (mode : Mode) :
    ∃ a b c, (Num.fin n m e).add (.fin n' m' e') mode = .fin a b c := by
  obtain ⟨a, -, h⟩ | h := Num.add_fin n n' m m' e e' mode
  · exact ⟨a, 0, 0, h⟩
  · exact ⟨_, _, _, h⟩

theorem ratOf_add (n n' : Bool) (m m' : Nat) (e e' : Int) (mode : Mode) :
    ratOf ((Num.fin n m e).add (.fin n' m' e') mode) = ratOf (.fin n m e) + ratOf (.fin n' m' e') := by
  rw [ratOf_fin_eq_units n m (min_le_left e e'), ratOf_fin_eq_units n' m' (min_le_right e e'), ← add_mul, ← Int.cast_add]
  obtain ⟨a, hz, h⟩ | h := Num.add_fin n n' m m' e e' mode
  · rw [h, hz, ratOf_fin]
    simp
  · rw [h, ratOf_ofInt]

theorem ratOf_mul (n n' : Bool) (m m' : Nat) (e e' : Int) :
    ratOf ((Num.fin n m e).mul (.fin n' m' e')) = ratOf (.fin n m e) * ratOf (.fin n' m' e') := by
  rw [Num.mul, ratOf_fin, ratOf_fin, ratOf_fin, zpow_add₀ two_ne_zero]
  cases n <;> cases n' <;> push_cast <;> simp <;> ring

/-! ### The rounding that a mode names (12 R302) -/

/-- Among the values `S`, `y` is the rounding of `x` that the mode names; `even` says that its last bit is 0. -/
def Mode.Names (mode : Mode) (S : Set ℚ) (x y : ℚ) (even : Prop) : Prop :=
  match mode with
  | .RN => ∀ z ∈ S, |y - x| < |z - x| ∨ z = y ∨ (|y - x| = |z - x| ∧ even)
  | .RZ => |y| ≤ |x| ∧ 0 ≤ y * x ∧ ∀ z ∈ S, |z| ≤ |x| → |z| ≤ |y|
  | .RU => x ≤ y ∧ ∀ z ∈ S, x ≤ z → y ≤ z
  | .RD => y ≤ x ∧ ∀ z ∈ S, z ≤ x → z ≤ y

/-- The mode that does to a negated value what this one does to the value. -/
def Mode.mirror (mode : Mode) : Mode :=
  match mode with
  | .RN => .RN
  | .RZ => .RZ
  | .RU => .RD
  | .RD => .RU

@[simp] theorem Mode.mirror_mirror (mode : Mode) : mode.mirror.mirror = mode := by cases mode <;> rfl

/-- Where the values lie symmetrically, so do the roundings. -/
theorem Mode.Names.neg {mode : Mode} {S : Set ℚ} {x y : ℚ} {even : Prop} (h : mode.Names S x y even) (hS : ∀ z ∈ S, -z ∈ S) :
    mode.mirror.Names S (-x) (-y) even := by
  cases mode with
  | RN =>
    intro z hz
    have hdist : ∀ w, |w - -x| = |-w - x| := fun w => by rw [sub_neg_eq_add, ← abs_neg, neg_add, sub_eq_add_neg]
    rw [hdist, hdist, neg_neg, ← neg_eq_iff_eq_neg]
    exact h (-z) (hS z hz)
  | RZ =>
    obtain ⟨hle, hsign, hmax⟩ := h
    exact ⟨by simpa using hle, by simpa using hsign, by simpa using hmax⟩
  | RU => exact ⟨neg_le_neg h.1, fun z hz hle => le_neg.mp (h.2 (-z) (hS z hz) (le_neg.mp hle))⟩
  | RD => exact ⟨neg_le_neg h.1, fun z hz hle => neg_le.mp (h.2 (-z) (hS z hz) (neg_le.mp hle))⟩

/-! ### The magnitudes of a format (12 R299) -/

namespace FloatFmt

/-- The sign bit of an encoding. -/
def signBit (F : FloatFmt) (neg : Bool) : Nat := if neg then 2 ^ (F.p + F.e) else 0

/-- The integer that the low bits `k` of an encoding name, with the hidden one of a normal number. -/
def significand (F : FloatFmt) (k : Nat) : Nat := if k / 2 ^ F.p = 0 then k % 2 ^ F.p else 2 ^ F.p + k % 2 ^ F.p

/-- The exponent of that integer's units. -/
def unitExp (F : FloatFmt) (k : Nat) : Int := (if k / 2 ^ F.p = 0 then 1 else (k / 2 ^ F.p : ℕ)) - F.bias - F.p

/-- The magnitude of the low bits `k` of an encoding, the exponent field unbounded above as R302 has it. -/
def magnitude (F : FloatFmt) (k : Nat) : ℚ := F.significand k * (2 : ℚ) ^ F.unitExp k

/-- The finite values of the format. -/
def values (F : FloatFmt) : Set ℚ := { y | ∃ n : Bool, ∃ k ≤ F.maxEnc, y = (if n then -1 else 1) * F.magnitude k }

variable {F : FloatFmt}

/-- The encodings from binade `c` on: `j` of its units lie `j` encodings above its start, up to the first of the next binade. -/
theorem magnitude_binade (F : FloatFmt) {c j : Nat} (hj : j ≤ 2 * 2 ^ F.p) (hc : c = 0 ∨ 2 ^ F.p ≤ j) :
    F.magnitude (c * 2 ^ F.p + j) = j * (2 : ℚ) ^ ((c : Int) + 1 - F.bias - F.p) := by
  have hpos : 0 < 2 ^ F.p := Nat.two_pow_pos _
  obtain hlow | hhigh | rfl : j < 2 ^ F.p ∨ (2 ^ F.p ≤ j ∧ j < 2 * 2 ^ F.p) ∨ j = 2 * 2 ^ F.p := by omega
  · obtain rfl : c = 0 := hc.resolve_right (by omega)
    simp [magnitude, significand, unitExp, Nat.div_eq_of_lt hlow, Nat.mod_eq_of_lt hlow]
  · obtain ⟨i, rfl⟩ := Nat.exists_eq_add_of_le hhigh.1
    have hi : i < 2 ^ F.p := by omega
    have hk : c * 2 ^ F.p + (2 ^ F.p + i) = i + 2 ^ F.p * (c + 1) := by ring
    rw [hk, magnitude, significand, unitExp, Nat.add_mul_div_left _ _ hpos, Nat.div_eq_of_lt hi, Nat.add_mul_mod_self_left,
      Nat.mod_eq_of_lt hi]
    simp
  · have hk : c * 2 ^ F.p + 2 * 2 ^ F.p = 2 ^ F.p * (c + 2) := by ring
    rw [hk, magnitude, significand, unitExp, Nat.mul_div_cancel_left _ hpos, Nat.mul_mod_right]
    have he : ((c + 2 : ℕ) : Int) - F.bias - F.p = 1 + ((c : Int) + 1 - F.bias - F.p) := by push_cast; ring
    rw [if_neg (by omega), if_neg (by omega), he, zpow_add₀ two_ne_zero]
    push_cast
    ring

/-- Every encoding lies in a binade, below its end. -/
theorem exists_binade (F : FloatFmt) (k : Nat) : ∃ c j, k = c * 2 ^ F.p + j ∧ j < 2 * 2 ^ F.p ∧ (c = 0 ∨ 2 ^ F.p ≤ j) := by
  have hmod := Nat.mod_lt k (Nat.two_pow_pos F.p)
  have hdiv := Nat.div_add_mod' k (2 ^ F.p)
  cases hc : k / 2 ^ F.p with
  | zero => exact ⟨0, k % 2 ^ F.p, by rw [hc] at hdiv; omega, by omega, .inl rfl⟩
  | succ c => exact ⟨c, 2 ^ F.p + k % 2 ^ F.p, by rw [hc] at hdiv; linarith, by omega, .inr (by omega)⟩

theorem magnitude_strictMono (F : FloatFmt) : StrictMono F.magnitude := by
  refine strictMono_nat_of_lt_succ fun k => ?_
  obtain ⟨c, j, rfl, hj, hc⟩ := F.exists_binade k
  rw [add_assoc, F.magnitude_binade hj.le hc, F.magnitude_binade (by omega) (by omega)]
  have := zpow_pos (two_pos (α := ℚ)) ((c : Int) + 1 - F.bias - F.p)
  gcongr
  omega

@[simp] theorem magnitude_zero (F : FloatFmt) : F.magnitude 0 = 0 := by simp [magnitude, significand]

theorem magnitude_nonneg (F : FloatFmt) (k : Nat) : 0 ≤ F.magnitude k := by unfold magnitude; positivity

/-- The first normal number. -/
theorem magnitude_two_pow (F : FloatFmt) : F.magnitude (2 ^ F.p) = (2 : ℚ) ^ (1 - F.bias) := by
  have h := F.magnitude_binade (c := 0) (j := 2 ^ F.p) (by omega) (.inl rfl)
  rw [zero_mul, zero_add] at h
  rw [h, Nat.cast_pow, Nat.cast_ofNat, ← zpow_natCast, ← zpow_add₀ two_ne_zero]
  congr 1
  push_cast
  ring

/-! ### The finite encodings (12 R298, R299) -/

theorem emax_add_one (F : FloatFmt) : F.emax + 1 = 2 ^ F.e := Nat.sub_add_cancel Nat.one_le_two_pow

theorem two_le_emax (he : 2 ≤ F.e) : 2 ≤ F.emax := by
  have hfour : 2 ^ 2 ≤ 2 ^ F.e := Nat.pow_le_pow_right two_pos he
  have := F.emax_add_one
  omega

/-- The encodings of the format: a sign bit and the low bits. -/
theorem lt_two_pow_width_iff (F : FloatFmt) {b : Nat} :
    b < 2 ^ F.width ↔ ∃ n, ∃ k < 2 ^ (F.p + F.e), b = F.signBit n + k := by
  rw [width, Nat.pow_succ]
  constructor
  · intro hb
    rcases Nat.lt_or_ge b (2 ^ (F.p + F.e)) with h | h
    · exact ⟨false, b, h, by simp [signBit]⟩
    · exact ⟨true, b - 2 ^ (F.p + F.e), by omega, by simp [signBit]; omega⟩
  · rintro ⟨n, k, hk, rfl⟩
    cases n <;> simp [signBit] <;> omega

/-- The three fields of an encoding. -/
theorem fields_signBit_add (n : Bool) {k : Nat} (hk : k < 2 ^ (F.p + F.e)) :
    ((F.signBit n + k) / 2 ^ (F.p + F.e) % 2 == 1) = n ∧ (F.signBit n + k) / 2 ^ F.p % 2 ^ F.e = k / 2 ^ F.p ∧
      (F.signBit n + k) % 2 ^ F.p = k % 2 ^ F.p := by
  have hexp : k / 2 ^ F.p < 2 ^ F.e := Nat.div_lt_of_lt_mul (by rwa [← Nat.pow_add])
  cases n with
  | false => simp [signBit, Nat.div_eq_of_lt hk, Nat.mod_eq_of_lt hexp]
  | true =>
    have hsign : (2 ^ (F.p + F.e) + k) / 2 ^ (F.p + F.e) = 1 := by
      rw [Nat.add_div_left _ (Nat.two_pow_pos _), Nat.div_eq_of_lt hk]
    have hlow : 2 ^ (F.p + F.e) + k = k + 2 ^ F.p * 2 ^ F.e := by rw [← Nat.pow_add, add_comm]
    refine ⟨by simp [signBit, hsign], ?_⟩
    simp [signBit, hlow, Nat.add_mul_div_left _ _ (Nat.two_pow_pos F.p), Nat.mod_eq_of_lt hexp]

/-- The low bits above the largest finite value are those of the infinities and NaNs. -/
theorem maxEnc_lt_iff (hp : 1 ≤ F.p) (he : 2 ≤ F.e) {k : Nat} (hk : k < 2 ^ (F.p + F.e)) :
    F.maxEnc < k ↔ k / 2 ^ F.p = F.emax ∧ (F.noInf = true → k % 2 ^ F.p = 2 ^ F.p - 1) := by
  have hmod := Nat.mod_lt k (Nat.two_pow_pos F.p)
  have hdiv := Nat.div_add_mod' k (2 ^ F.p)
  have htwo : 2 ≤ 2 ^ F.p := Nat.le_self_pow (by omega) 2
  have hexp : k / 2 ^ F.p ≤ F.emax := Nat.lt_succ_iff.mp
    (Nat.div_lt_of_lt_mul (by rwa [Nat.succ_eq_add_one, emax_add_one, ← Nat.pow_add]))
  have hlow : 2 * 2 ^ F.p ≤ F.emax * 2 ^ F.p := Nat.mul_le_mul_right _ (two_le_emax he)
  rcases hexp.lt_or_eq with hlt | heq
  · have hle : (k / 2 ^ F.p + 1) * 2 ^ F.p ≤ F.emax * 2 ^ F.p := Nat.mul_le_mul_right _ hlt
    rw [Nat.add_mul, one_mul] at hle
    unfold maxEnc
    constructor
    · split <;> omega
    · omega
  · rw [heq] at hdiv
    unfold maxEnc
    cases hinf : F.noInf <;> simp <;> omega

/-- The value of an encoding up to the largest finite one. -/
theorem value_signBit_add (hp : 1 ≤ F.p) (he : 2 ≤ F.e) (n : Bool) {k : Nat} (hk : k < 2 ^ (F.p + F.e)) (hmax : k ≤ F.maxEnc) :
    F.value (F.signBit n + k) = .fin n (F.significand k) (F.unitExp k) := by
  obtain ⟨hs, hx, hm⟩ := fields_signBit_add (F := F) n hk
  have hfin := mt (maxEnc_lt_iff hp he hk).mpr hmax.not_gt
  unfold value significand unitExp
  simp only [hs, hx, hm]
  rw [if_neg, if_neg]
  · split <;> rfl
  · cases hinf : F.noInf <;> simp_all
  · cases hinf : F.noInf <;> simp_all

/-- An encoding beyond the largest finite one has no finite value. -/
theorem value_signBit_add_ne_fin (hp : 1 ≤ F.p) (he : 2 ≤ F.e) (n : Bool) {k : Nat} (hk : k < 2 ^ (F.p + F.e)) (hmax : F.maxEnc < k)
    (a : Bool) (c : Nat) (d : Int) : F.value (F.signBit n + k) ≠ .fin a c d := by
  obtain ⟨hs, hx, hm⟩ := fields_signBit_add (F := F) n hk
  obtain ⟨hexp, hman⟩ := (maxEnc_lt_iff hp he hk).mp hmax
  unfold value
  simp only [hs, hx, hm, hexp]
  cases hinf : F.noInf with
  | true => simp [hman hinf]
  | false => by_cases h : k % 2 ^ F.p = 0 <;> simp [h]

theorem two_pow_le_maxEnc (hp : 1 ≤ F.p) (he : 2 ≤ F.e) : 2 ^ F.p ≤ F.maxEnc := by
  have htwo : 2 ≤ 2 ^ F.p := Nat.le_self_pow (by omega) 2
  have hlow : 2 * 2 ^ F.p ≤ F.emax * 2 ^ F.p := Nat.mul_le_mul_right _ (two_le_emax he)
  unfold maxEnc
  split <;> omega

theorem maxEnc_lt_two_pow (F : FloatFmt) : F.maxEnc < 2 ^ (F.p + F.e) := by
  have hpos : 0 < 2 ^ F.p := Nat.two_pow_pos _
  have hmul : F.emax * 2 ^ F.p + 2 ^ F.p = 2 ^ (F.p + F.e) := by
    rw [← Nat.succ_mul, Nat.succ_eq_add_one, emax_add_one, ← Nat.pow_add, add_comm]
  unfold maxEnc
  split <;> omega

theorem signBit_add_lt (n : Bool) {k : Nat} (hk : k ≤ F.maxEnc) : F.signBit n + k < 2 ^ F.width :=
  F.lt_two_pow_width_iff.mpr ⟨n, k, hk.trans_lt F.maxEnc_lt_two_pow, rfl⟩

theorem ratOf_value_signBit_add (n : Bool) (k : Nat) :
    ratOf (.fin n (F.significand k) (F.unitExp k)) = (if n then -1 else 1) * F.magnitude k := by
  rw [ratOf_fin, magnitude, mul_assoc]

/-- The rational values of the encodings of the format are its finite values. -/
theorem setOf_ratOf_value (hp : 1 ≤ F.p) (he : 2 ≤ F.e) :
    { y : ℚ | ∃ b a c d, b < 2 ^ F.width ∧ F.value b = .fin a c d ∧ y = ratOf (.fin a c d) } = F.values := by
  ext y
  constructor
  · rintro ⟨b, a, c, d, hb, hval, rfl⟩
    obtain ⟨n, k, hk, rfl⟩ := F.lt_two_pow_width_iff.mp hb
    have hmax : k ≤ F.maxEnc := not_lt.mp fun h => value_signBit_add_ne_fin hp he n hk h a c d hval
    rw [value_signBit_add hp he n hk hmax] at hval
    exact ⟨n, k, hmax, by rw [← hval, ratOf_value_signBit_add]⟩
  · rintro ⟨n, k, hmax, rfl⟩
    exact ⟨_, n, _, _, signBit_add_lt n hmax, value_signBit_add hp he n (hmax.trans_lt F.maxEnc_lt_two_pow) hmax,
      (ratOf_value_signBit_add n k).symm⟩

/-! ### The values around a magnitude -/

theorem magnitude_mem_values {k : Nat} (hk : k ≤ F.maxEnc) : F.magnitude k ∈ F.values := ⟨false, k, hk, by simp⟩

theorem zero_mem_values (F : FloatFmt) : 0 ∈ F.values := ⟨false, 0, Nat.zero_le _, by simp⟩

theorem neg_mem_values {z : ℚ} (hz : z ∈ F.values) : -z ∈ F.values := by
  obtain ⟨n, k, hk, rfl⟩ := hz
  exact ⟨!n, k, hk, by cases n <;> simp⟩

theorem abs_mem_values {z : ℚ} (hz : z ∈ F.values) : |z| ∈ F.values :=
  abs_by_cases (· ∈ F.values) hz (neg_mem_values hz)

theorem abs_mem_values_iff {z : ℚ} : |z| ∈ F.values ↔ z ∈ F.values := by
  refine ⟨fun h => ?_, abs_mem_values⟩
  rcases abs_choice z with hz | hz <;> rw [hz] at h
  · exact h
  · exact neg_neg z ▸ neg_mem_values h

theorem exists_abs_eq_magnitude {z : ℚ} (hz : z ∈ F.values) : ∃ k ≤ F.maxEnc, |z| = F.magnitude k := by
  obtain ⟨n, k, hk, rfl⟩ := hz
  exact ⟨k, hk, by cases n <;> simp [abs_of_nonneg (F.magnitude_nonneg k)]⟩

/-- `X` is at least the magnitude of the low bits `k`, and below the next. -/
structure Brackets (F : FloatFmt) (k : Nat) (X : ℚ) : Prop where
  le : F.magnitude k ≤ X
  lt : X < F.magnitude (k + 1)

variable {k : Nat} {X z : ℚ}

theorem Brackets.nonneg (h : F.Brackets k X) : 0 ≤ X := (F.magnitude_nonneg k).trans h.le

theorem Brackets.abs_lower_sub (h : F.Brackets k X) : |F.magnitude k - X| = X - F.magnitude k := by
  rw [abs_sub_comm, abs_of_nonneg (sub_nonneg.mpr h.le)]

theorem Brackets.abs_upper_sub (h : F.Brackets k X) : |F.magnitude (k + 1) - X| = F.magnitude (k + 1) - X :=
  abs_of_nonneg (sub_nonneg.mpr h.lt.le)

/-- No value lies between two neighbours. -/
theorem abs_le_or_le_abs (k : Nat) (hz : z ∈ F.values) : |z| ≤ F.magnitude k ∨ F.magnitude (k + 1) ≤ |z| := by
  obtain ⟨j, -, hj⟩ := exists_abs_eq_magnitude hz
  rw [hj, F.magnitude_strictMono.le_iff_le, F.magnitude_strictMono.le_iff_le]
  omega

theorem le_or_le (k : Nat) (hz : z ∈ F.values) : z ≤ F.magnitude k ∨ F.magnitude (k + 1) ≤ z := by
  rcases le_total z 0 with hneg | hpos
  · exact .inl (hneg.trans (F.magnitude_nonneg k))
  · simpa only [abs_of_nonneg hpos] using abs_le_or_le_abs k hz

theorem Brackets.le_of_le (h : F.Brackets k X) (hz : z ∈ F.values) (hle : z ≤ X) : z ≤ F.magnitude k :=
  (le_or_le k hz).resolve_right fun hge => (hge.trans hle).not_gt h.lt

/-- A magnitude that is a value is the lower of its neighbours. -/
theorem Brackets.eq_of_mem (h : F.Brackets k X) (hX : X ∈ F.values) : X = F.magnitude k := (h.le_of_le hX le_rfl).antisymm h.le

/-! ### The neighbour that the mode names (12 R302) -/

/-- Away from zero: the upper neighbour, or the magnitude itself. -/
def upper (F : FloatFmt) (X : ℚ) (k : Nat) : Nat := if X = F.magnitude k then k else k + 1

/-- To nearest: the nearer neighbour, on a tie the even one. -/
def nearer (F : FloatFmt) (X : ℚ) (k : Nat) : Nat :=
  if |F.magnitude k - X| < |F.magnitude (k + 1) - X| then k
  else if |F.magnitude (k + 1) - X| < |F.magnitude k - X| then k + 1
  else k + k % 2

/-- The low bits of the neighbour of `X` that the mode names, for a value of the given sign. -/
def neighbour (F : FloatFmt) (mode : Mode) (neg : Bool) (X : ℚ) (k : Nat) : Nat :=
  match mode with
  | .RN => F.nearer X k
  | .RZ => k
  | .RU => if neg then k else F.upper X k
  | .RD => if neg then F.upper X k else k

theorem neighbour_of_exact (mode : Mode) (neg : Bool) (hX : X = F.magnitude k) : F.neighbour mode neg X k = k := by
  have hlt := F.magnitude_strictMono (Nat.lt_succ_self k)
  have hnear : F.nearer X k = k := if_pos (by simpa [hX, sub_eq_zero] using hlt.ne')
  have hup : F.upper X k = k := if_pos hX
  cases mode <;> cases neg <;> simp [neighbour, hnear, hup]

theorem neighbour_eq_or (F : FloatFmt) (mode : Mode) (neg : Bool) (X : ℚ) (k : Nat) :
    F.neighbour mode neg X k = k ∨ F.neighbour mode neg X k = k + 1 := by
  have hnear : F.nearer X k = k ∨ F.nearer X k = k + 1 := by unfold nearer; split <;> [skip; split] <;> omega
  have hup : F.upper X k = k ∨ F.upper X k = k + 1 := by unfold upper; split <;> simp
  cases mode <;> cases neg <;> simp [neighbour, hnear, hup]

theorem Brackets.isGreatest (h : F.Brackets k X) (hk : k ≤ F.maxEnc) : IsGreatest { z ∈ F.values | z ≤ X } (F.magnitude k) :=
  ⟨⟨magnitude_mem_values hk, h.le⟩, fun _ hz => h.le_of_le hz.1 hz.2⟩

theorem Brackets.isLeast (h : F.Brackets k X) (hk : F.upper X k ≤ F.maxEnc) :
    IsLeast { z ∈ F.values | X ≤ z } (F.magnitude (F.upper X k)) := by
  refine ⟨⟨magnitude_mem_values hk, ?_⟩, fun z hz => ?_⟩ <;> unfold upper <;> split
  case refine_1.isTrue heq => exact heq.le
  case refine_1.isFalse => exact h.lt.le
  case refine_2.isTrue heq => exact heq ▸ hz.2
  case refine_2.isFalse hne =>
    exact (le_or_le k hz.1).resolve_left ((lt_of_le_of_ne h.le (Ne.symm hne)).trans_le hz.2).not_ge

/-- A value is one of the two neighbours, or farther than one of them. -/
theorem Brackets.farther_or_eq (h : F.Brackets k X) (hz : z ∈ F.values) :
    |F.magnitude k - X| < |z - X| ∨ |F.magnitude (k + 1) - X| < |z - X| ∨ z = F.magnitude k ∨ z = F.magnitude (k + 1) := by
  rcases le_or_le k hz with hle | hge
  · rcases hle.eq_or_lt with heq | hlt
    · exact .inr (.inr (.inl heq))
    · exact .inl (by rw [h.abs_lower_sub, abs_of_nonpos (by linarith [h.le])]; linarith)
  · rcases hge.eq_or_lt with heq | hlt
    · exact .inr (.inr (.inr heq.symm))
    · exact .inr (.inl (by rw [h.abs_upper_sub, abs_of_nonneg (by linarith [h.lt])]; linarith))

/-- The nearer neighbour is no farther than the other one, and even where they are equally far. -/
theorem nearer_cases (F : FloatFmt) (X : ℚ) (k : Nat) :
    let y := F.nearer X k
    ∃ o, (y = k ∧ o = k + 1 ∨ y = k + 1 ∧ o = k) ∧ |F.magnitude y - X| ≤ |F.magnitude o - X| ∧
      (|F.magnitude y - X| = |F.magnitude o - X| → y % 2 = 0) := by
  intro y
  obtain hlo | hhi | htie := lt_trichotomy |F.magnitude k - X| |F.magnitude (k + 1) - X|
  · have hy : y = k := if_pos hlo
    exact ⟨k + 1, .inl ⟨hy, rfl⟩, hy ▸ hlo.le, fun heq => absurd (hy ▸ heq) hlo.ne⟩
  · have hy : y = k + k % 2 := by simp only [y, nearer, hhi, lt_irrefl, if_false]
    rcases Nat.mod_two_eq_zero_or_one k with heven | hodd
    · exact ⟨k + 1, .inl ⟨by omega, rfl⟩, by rw [hy, heven, add_zero, hhi], fun _ => by omega⟩
    · exact ⟨k, .inr ⟨by omega, rfl⟩, by rw [hy, hodd, hhi], fun _ => by omega⟩
  · have hy : y = k + 1 := by simp only [y, nearer, htie, htie.not_gt, if_true, if_false]
    exact ⟨k, .inr ⟨hy, rfl⟩, hy ▸ htie.le, fun heq => absurd (hy ▸ heq) htie.ne⟩

/-- Every other value is farther, or as far where the last bit is even. -/
theorem Brackets.nearer_spec (h : F.Brackets k X) (hz : z ∈ F.values) :
    let y := F.magnitude (F.nearer X k)
    |y - X| < |z - X| ∨ z = y ∨ (|y - X| = |z - X| ∧ F.nearer X k % 2 = 0) := by
  obtain ⟨o, hpair, hnear, htie⟩ := F.nearer_cases X k
  have hz' : |F.magnitude (F.nearer X k) - X| < |z - X| ∨ |F.magnitude o - X| < |z - X| ∨ z = F.magnitude (F.nearer X k) ∨
      z = F.magnitude o := by
    obtain ⟨hy, ho⟩ | ⟨hy, ho⟩ := hpair <;> rw [hy, ho] <;> have := h.farther_or_eq hz <;> tauto
  obtain hlt | hlt | rfl | rfl := hz'
  · exact .inl hlt
  · exact .inl (hnear.trans_lt hlt)
  · exact .inr (.inl rfl)
  · exact hnear.lt_or_eq.imp id fun heq => .inr ⟨heq, htie heq⟩

theorem neighbour_true (mode : Mode) : F.neighbour mode true X k = F.neighbour mode.mirror false X k := by cases mode <;> rfl

/-- The neighbour of a magnitude is its rounding. -/
theorem Brackets.names_neighbour_false (h : F.Brackets k X) (mode : Mode) (hmax : F.neighbour mode false X k ≤ F.maxEnc) :
    mode.Names F.values X (F.magnitude (F.neighbour mode false X k)) (F.neighbour mode false X k % 2 = 0) := by
  cases mode with
  | RN => exact fun z hz => h.nearer_spec hz
  | RZ =>
    refine ⟨abs_le_abs_of_nonneg (F.magnitude_nonneg k) h.le, mul_nonneg (F.magnitude_nonneg k) h.nonneg, fun z hz hle => ?_⟩
    rw [abs_of_nonneg h.nonneg] at hle
    exact (h.isGreatest hmax).2 ⟨abs_mem_values hz, hle⟩ |>.trans (le_abs_self _)
  | RU => exact ⟨(h.isLeast hmax).1.2, fun z hz hle => (h.isLeast hmax).2 ⟨hz, hle⟩⟩
  | RD => exact ⟨h.le, fun z hz hle => (h.isGreatest hmax).2 ⟨hz, hle⟩⟩

/-- The neighbour of a magnitude, with the sign of the value, is the rounding of the value. -/
theorem Brackets.names_neighbour (h : F.Brackets k X) (mode : Mode) (n : Bool) (hmax : F.neighbour mode n X k ≤ F.maxEnc) :
    mode.Names F.values ((if n then -1 else 1) * X) ((if n then -1 else 1) * F.magnitude (F.neighbour mode n X k))
      (F.neighbour mode n X k % 2 = 0) := by
  cases n with
  | false => simpa using h.names_neighbour_false mode hmax
  | true =>
    rw [neighbour_true] at hmax ⊢
    simpa using (h.names_neighbour_false mode.mirror hmax).neg fun _ => neg_mem_values

/-- A magnitude whose neighbour overflows is beyond every value. -/
theorem Brackets.maxEnc_lt (h : F.Brackets k X) {mode : Mode} {neg : Bool} (hover : F.maxEnc < F.neighbour mode neg X k) :
    F.magnitude F.maxEnc < X := by
  have hexact := mt (neighbour_of_exact (F := F) (k := k) (X := X) mode neg)
  have hor := F.neighbour_eq_or mode neg X k
  rcases (show F.maxEnc ≤ k by omega).lt_or_eq with hlt | heq
  · exact (F.magnitude_strictMono hlt).trans_le h.le
  · rw [heq]
    exact lt_of_le_of_ne h.le (Ne.symm (hexact (by omega)))

theorem abs_lt_of_maxEnc_lt (hX : F.magnitude F.maxEnc < X) (hz : z ∈ F.values) : |z| < X := by
  obtain ⟨j, hj, hzj⟩ := exists_abs_eq_magnitude hz
  rw [hzj]
  exact (F.magnitude_strictMono.monotone hj).trans_lt hX

/-! ### What the rounding delivers (12 R302, R308) -/

/-- What an overflow delivers. -/
def overflowed (F : FloatFmt) (mode : Mode) (sat neg : Bool) : Nat :=
  if mode = .RZ ∨ (mode = .RU ∧ neg = true) ∨ (mode = .RD ∧ neg = false) ∨ sat = true then F.signBit neg + F.maxEnc
  else if F.noInf then F.nan else F.inf neg

/-- The rounding of a value of magnitude `X`, the low bits of whose lower neighbour are `k`. -/
def delivered (F : FloatFmt) (mode : Mode) (sat neg : Bool) (X : ℚ) (k : Nat) : Rounded :=
  let mag := F.neighbour mode neg X k
  if F.maxEnc < mag then ⟨F.overflowed mode sat neg, true, false⟩
  else ⟨F.signBit neg + mag, false, decide (X < (2 : ℚ) ^ (1 - F.bias) ∧ X ≠ F.magnitude k)⟩

theorem delivered_of_lt {mode : Mode} {sat neg : Bool} (h : F.maxEnc < F.neighbour mode neg X k) :
    F.delivered mode sat neg X k = ⟨F.overflowed mode sat neg, true, false⟩ := if_pos h

theorem delivered_of_le {mode : Mode} {sat neg : Bool} (h : F.neighbour mode neg X k ≤ F.maxEnc) :
    F.delivered mode sat neg X k = ⟨F.signBit neg + F.neighbour mode neg X k, false,
      decide (X < (2 : ℚ) ^ (1 - F.bias) ∧ X ≠ F.magnitude k)⟩ := if_neg h.not_gt

/-- The last bit of an encoding is the last bit of its mantissa. -/
theorem signBit_add_mod_two (hp : 1 ≤ F.p) (n : Bool) (j : Nat) : (F.signBit n + j) % 2 = j % 2 := by
  obtain ⟨p, hp⟩ := Nat.exists_eq_add_of_le' hp
  cases n with
  | false => simp [signBit]
  | true =>
    have hsign : F.signBit true = 2 ^ (p + F.e) * 2 := by rw [← pow_succ, signBit, if_pos rfl, hp, add_right_comm]
    omega

/-- Below the first normal number the values are the magnitudes. -/
theorem Brackets.mem_values_iff (h : F.Brackets k X) (hp : 1 ≤ F.p) (he : 2 ≤ F.e) (hX : X < (2 : ℚ) ^ (1 - F.bias)) :
    X ∈ F.values ↔ X = F.magnitude k := by
  refine ⟨h.eq_of_mem, fun heq => ?_⟩
  rw [← magnitude_two_pow, heq, F.magnitude_strictMono.lt_iff_lt] at hX
  exact heq ▸ magnitude_mem_values (hX.le.trans (two_pow_le_maxEnc hp he))

/-- A rounding without overflow is the one that the mode names. -/
theorem Brackets.delivered_names (h : F.Brackets k X) (hp : 1 ≤ F.p) (he : 2 ≤ F.e) (mode : Mode) (sat n : Bool) :
    let r := F.delivered mode sat n X k
    r.overflow = false → ∃ a c d, F.value r.bits = .fin a c d ∧ r.bits < 2 ^ F.width ∧
      mode.Names F.values ((if n then -1 else 1) * X) (ratOf (.fin a c d)) (r.bits % 2 = 0) := by
  intro r hr
  have hmax : F.neighbour mode n X k ≤ F.maxEnc := not_lt.mp fun hover => by simp [r, delivered_of_lt hover] at hr
  have hbits : r.bits = F.signBit n + F.neighbour mode n X k := congrArg Rounded.bits (delivered_of_le hmax)
  rw [hbits]
  refine ⟨n, _, _, value_signBit_add hp he n (hmax.trans_lt F.maxEnc_lt_two_pow) hmax, signBit_add_lt n hmax, ?_⟩
  rw [ratOf_value_signBit_add, signBit_add_mod_two hp]
  exact h.names_neighbour mode n hmax

theorem Brackets.delivered_overflow (h : F.Brackets k X) (mode : Mode) (sat n : Bool) :
    let r := F.delivered mode sat n X k
    r.overflow = true → (∀ z ∈ F.values, |z| < X) ∧ r.underflow = false ∧ r.bits = F.overflowed mode sat n := by
  intro r hr
  have hover : F.maxEnc < F.neighbour mode n X k := by
    refine not_le.mp fun hmax => ?_
    simp [r, delivered_of_le hmax] at hr
  have heq : r = ⟨F.overflowed mode sat n, true, false⟩ := delivered_of_lt hover
  rw [heq]
  exact ⟨fun z hz => abs_lt_of_maxEnc_lt (h.maxEnc_lt hover) hz, rfl, rfl⟩

theorem Brackets.delivered_underflow_iff (h : F.Brackets k X) (hp : 1 ≤ F.p) (he : 2 ≤ F.e) (mode : Mode) (sat n : Bool) :
    (F.delivered mode sat n X k).underflow = true ↔ X < (2 : ℚ) ^ (1 - F.bias) ∧ X ∉ F.values := by
  rcases lt_or_ge F.maxEnc (F.neighbour mode n X k) with hover | hmax
  · have hlow := F.magnitude_strictMono.monotone (two_pow_le_maxEnc hp he)
    rw [magnitude_two_pow] at hlow
    have hlarge := (hlow.trans_lt (h.maxEnc_lt hover)).not_gt
    simp [delivered_of_lt hover, hlarge]
  · rw [delivered_of_le hmax, decide_eq_true_iff]
    exact and_congr_right fun hlow => not_congr (h.mem_values_iff hp he hlow).symm

end FloatFmt

theorem roundStep_zero (mode : Mode) (neg : Bool) (j d : Nat) : roundStep mode neg j 0 d = j := by unfold roundStep; exact if_pos rfl

theorem roundStep_RN {r : Nat} (hr : r ≠ 0) (neg : Bool) (j d : Nat) :
    roundStep .RN neg j r d = if 2 * r < d then j else if d < 2 * r then j + 1 else j + j % 2 := by
  simp only [roundStep, if_neg hr]

/-- The integer and the remainder over the divisor that `scaleTo` gives. -/
theorem scaleTo_spec (m : Nat) (e q : Int) :
    let x := scaleTo m e q
    x.2.1 < x.2.2 ∧ (m : ℚ) * 2 ^ e = (x.1 + (x.2.1 : ℚ) / x.2.2) * 2 ^ q := by
  unfold scaleTo
  split
  case isTrue hq => exact ⟨one_pos, by rw [two_zpow_eq_mul hq]; simp [mul_assoc]⟩
  case isFalse hq =>
    have hpos := Nat.two_pow_pos (q - e).toNat
    refine ⟨Nat.mod_lt _ hpos, ?_⟩
    rw [two_zpow_eq_mul (not_le.mp hq).le]
    have hne : ((2 ^ (q - e).toNat : ℕ) : ℚ) ≠ 0 := by exact_mod_cast hpos.ne'
    have hm : (m : ℚ) = (m / 2 ^ (q - e).toNat : ℕ) * (2 ^ (q - e).toNat : ℕ) + (m % 2 ^ (q - e).toNat : ℕ) := by
      exact_mod_cast (Nat.div_add_mod' m _).symm
    simp only
    field_simp
    linarith

/-- The magnitude lies in the binade that its logarithm names. -/
theorem zpow_log2_le {m : Nat} (hm : m ≠ 0) (e : Int) :
    (2 : ℚ) ^ ((Nat.log2 m : Int) + e) ≤ m * 2 ^ e ∧ m * (2 : ℚ) ^ e < 2 ^ ((Nat.log2 m : Int) + e + 1) := by
  have hlo : ((2 ^ Nat.log2 m : ℕ) : ℚ) ≤ m := by exact_mod_cast Nat.log2_self_le hm
  have hhi : (m : ℚ) < (2 ^ (Nat.log2 m + 1) : ℕ) := by exact_mod_cast Nat.lt_log2_self
  have hpos := zpow_pos (two_pos (α := ℚ)) e
  push_cast at hlo hhi
  constructor
  · rw [zpow_add₀ two_ne_zero, zpow_natCast]
    gcongr
  · rw [add_right_comm, zpow_add₀ two_ne_zero, ← Nat.cast_succ, zpow_natCast]
    gcongr

/-! ### The rounding of a finite value -/

section
variable (F : FloatFmt)

/-- How many binades the magnitude `m · 2^e` lies above the first one. -/
def FloatFmt.binade (m : Nat) (e : Int) : Nat := ((Nat.log2 m : Int) + e - (1 - F.bias)).toNat

/-- The exponent of the units of that binade. -/
def FloatFmt.binadeExp (m : Nat) (e : Int) : Int := (F.binade m e : Int) + 1 - F.bias - F.p

theorem roundTo_zero (n : Bool) (e : Int) (mode : Mode) (sat : Bool) :
    roundTo (.fin n 0 e) F mode sat = ⟨F.signBit n, false, false⟩ := rfl

/-- Whether an overflow of a value of the given sign goes to the infinity under the mode. -/
def Mode.overflowsToInf (mode : Mode) (neg : Bool) : Bool :=
  match mode with
  | .RN => true
  | .RZ => false
  | .RU => !neg
  | .RD => neg

theorem FloatFmt.overflowed_eq (mode : Mode) (sat neg : Bool) :
    F.overflowed mode sat neg = if mode.overflowsToInf neg then
      (if sat then F.signBit neg + F.maxEnc else if F.noInf then F.nan else F.inf neg) else F.signBit neg + F.maxEnc := by
  cases mode <;> cases neg <;> simp [overflowed, Mode.overflowsToInf]

/-- The rounding in the units of the value's binade. -/
theorem roundTo_fin_of_ne_zero {m : Nat} (hm : m ≠ 0) (n : Bool) (e : Int) (mode : Mode) (sat : Bool) :
    let x := scaleTo m e (F.binadeExp m e)
    let mag := F.binade m e * 2 ^ F.p + roundStep mode n x.1 x.2.1 x.2.2
    roundTo (.fin n m e) F mode sat = if F.maxEnc < mag then ⟨F.overflowed mode sat n, true, false⟩
      else ⟨F.signBit n + mag, false, decide ((Nat.log2 m : Int) + e < 1 - F.bias) && x.2.1 != 0⟩ := by
  intro x mag
  have hq : max ((Nat.log2 m : Int) + e) (1 - F.bias) - F.p = F.binadeExp m e := by
    unfold FloatFmt.binadeExp FloatFmt.binade
    omega
  have hmag : (if (Nat.log2 m : Int) + e < 1 - F.bias then roundStep mode n x.1 x.2.1 x.2.2
      else (F.binadeExp m e + F.p + F.bias).toNat * 2 ^ F.p + roundStep mode n x.1 x.2.1 x.2.2 - 2 ^ F.p) = mag := by
    split
    case isTrue hlow =>
      have hc : F.binade m e = 0 := by unfold FloatFmt.binade; omega
      simp [mag, hc]
    case isFalse =>
      have hc : (F.binadeExp m e + F.p + F.bias).toNat = F.binade m e + 1 := by unfold FloatFmt.binadeExp; omega
      rw [hc, Nat.add_mul, one_mul]
      omega
  unfold roundTo
  simp only [if_neg hm, hq, FloatFmt.overflowed_eq, ← hmag]
  rfl

end

/-- The integer that is kept lies within the value's binade. -/
theorem scaleTo_binade (F : FloatFmt) {m : Nat} (hm : m ≠ 0) (e : Int) :
    let x := scaleTo m e (F.binadeExp m e)
    x.1 < 2 * 2 ^ F.p ∧ (F.binade m e = 0 ∨ 2 ^ F.p ≤ x.1) := by
  intro x
  obtain ⟨hrem, hX⟩ : x.2.1 < x.2.2 ∧ _ := scaleTo_spec m e (F.binadeExp m e)
  obtain ⟨hlo, hhi⟩ := zpow_log2_le hm e
  have hpos := zpow_pos (two_pos (α := ℚ)) (F.binadeExp m e)
  have hfrac : (0 : ℚ) ≤ (x.2.1 : ℚ) / x.2.2 := by positivity
  have hfrac1 : (x.2.1 : ℚ) / x.2.2 < 1 :=
    (div_lt_one (by exact_mod_cast (Nat.zero_le _).trans_lt hrem)).mpr (by exact_mod_cast hrem)
  rw [hX] at hlo hhi
  constructor
  · have hexp : (2 : ℚ) ^ ((Nat.log2 m : Int) + e + 1) ≤ (2 * 2 ^ F.p : ℕ) * 2 ^ F.binadeExp m e := by
      rw [← pow_succ', Nat.cast_pow, Nat.cast_ofNat, ← zpow_natCast, ← zpow_add₀ two_ne_zero]
      refine zpow_le_zpow_right₀ one_le_two ?_
      unfold FloatFmt.binadeExp FloatFmt.binade
      push_cast
      omega
    have hlt := lt_of_mul_lt_mul_right (hhi.trans_le hexp) hpos.le
    exact_mod_cast (le_add_of_nonneg_right hfrac).trans_lt hlt
  · refine or_iff_not_imp_left.mpr fun hne => ?_
    have hexp : (2 : ℚ) ^ ((Nat.log2 m : Int) + e) = (2 ^ F.p : ℕ) * 2 ^ F.binadeExp m e := by
      rw [Nat.cast_pow, Nat.cast_ofNat, ← zpow_natCast, ← zpow_add₀ two_ne_zero]
      congr 1
      unfold FloatFmt.binade at hne
      unfold FloatFmt.binadeExp FloatFmt.binade
      omega
    have hle := le_of_mul_le_mul_right (hexp ▸ hlo) hpos
    have hlt : ((2 ^ F.p : ℕ) : ℚ) < (x.1 + 1 : ℕ) := by push_cast at hle ⊢; linarith
    exact Nat.lt_succ_iff.mp (by exact_mod_cast hlt)

/-! A magnitude of `j` units and a fraction `r / d` of one, in binade `c`. -/

namespace FloatFmt

section
variable {F : FloatFmt} {c j r d : Nat} {X : ℚ} (hj : j < 2 * 2 ^ F.p) (hc : c = 0 ∨ 2 ^ F.p ≤ j) (hr : r < d)
  (hX : X = (j + (r : ℚ) / d) * (2 : ℚ) ^ ((c : Int) + 1 - F.bias - F.p))
include hj hc hr hX

/-- It lies above the lower neighbour by its fraction, and below the upper one by the rest. -/
theorem sub_magnitude_binade :
    X - F.magnitude (c * 2 ^ F.p + j) = (r : ℚ) / d * (2 : ℚ) ^ ((c : Int) + 1 - F.bias - F.p) ∧
      F.magnitude (c * 2 ^ F.p + j + 1) - X = (d - r : ℚ) / d * (2 : ℚ) ^ ((c : Int) + 1 - F.bias - F.p) := by
  have hd : (d : ℚ) ≠ 0 := by exact_mod_cast (Nat.zero_le r |>.trans_lt hr).ne'
  rw [add_assoc, F.magnitude_binade hj.le hc, F.magnitude_binade (by omega) (by omega), hX, sub_div, div_self hd]
  push_cast
  constructor <;> ring

theorem brackets_binade : F.Brackets (c * 2 ^ F.p + j) X := by
  obtain ⟨hlo, hhi⟩ := sub_magnitude_binade hj hc hr hX
  have hrd : (r : ℚ) < d := by exact_mod_cast hr
  have hd : (0 : ℚ) < d := (Nat.cast_nonneg r).trans_lt hrd
  refine ⟨sub_nonneg.mp ?_, sub_pos.mp ?_⟩
  · rw [hlo]
    positivity
  · rw [hhi]
    have := sub_pos.mpr hrd
    positivity

theorem eq_magnitude_binade_iff : X = F.magnitude (c * 2 ^ F.p + j) ↔ r = 0 := by
  have hd : (d : ℚ) ≠ 0 := by exact_mod_cast (Nat.zero_le r |>.trans_lt hr).ne'
  have hu : (2 : ℚ) ^ ((c : Int) + 1 - F.bias - F.p) ≠ 0 := zpow_ne_zero _ two_ne_zero
  rw [← sub_eq_zero, (sub_magnitude_binade hj hc hr hX).1, mul_eq_zero_iff_right hu, div_eq_zero_iff, or_iff_left hd, Nat.cast_eq_zero]

/-- To nearest, the step of the rounding compares the fraction with its half. -/
theorem nearer_binade (hp : 1 ≤ F.p) (hr0 : r ≠ 0) (neg : Bool) :
    F.nearer X (c * 2 ^ F.p + j) = c * 2 ^ F.p + roundStep .RN neg j r d := by
  obtain ⟨hlo, hhi⟩ := sub_magnitude_binade hj hc hr hX
  have hb := brackets_binade hj hc hr hX
  have hd : (0 : ℚ) < d := by exact_mod_cast (Nat.zero_le r).trans_lt hr
  have hu : (0 : ℚ) < 2 ^ ((c : Int) + 1 - F.bias - F.p) := zpow_pos two_pos _
  have hlt : |F.magnitude (c * 2 ^ F.p + j) - X| < |F.magnitude (c * 2 ^ F.p + j + 1) - X| ↔ 2 * r < d := by
    rw [hb.abs_lower_sub, hlo, hb.abs_upper_sub, hhi, mul_lt_mul_iff_left₀ hu, div_lt_div_iff_of_pos_right hd,
      lt_sub_iff_add_lt, ← two_mul]
    exact_mod_cast Iff.rfl
  have hgt : |F.magnitude (c * 2 ^ F.p + j + 1) - X| < |F.magnitude (c * 2 ^ F.p + j) - X| ↔ d < 2 * r := by
    rw [hb.abs_lower_sub, hlo, hb.abs_upper_sub, hhi, mul_lt_mul_iff_left₀ hu, div_lt_div_iff_of_pos_right hd,
      sub_lt_iff_lt_add, ← two_mul]
    exact_mod_cast Iff.rfl
  have heven : (c * 2 ^ F.p + j) % 2 = j % 2 := by
    obtain ⟨p, hp⟩ := Nat.exists_eq_add_of_le' hp
    rw [hp, pow_succ, ← mul_assoc]
    omega
  simp only [nearer, hlt, hgt, heven, roundStep_RN hr0]
  split <;> [skip; split] <;> omega

/-- The step of the rounding delivers the neighbour that the mode names. -/
theorem add_roundStep (hp : 1 ≤ F.p) (mode : Mode) (neg : Bool) :
    c * 2 ^ F.p + roundStep mode neg j r d = F.neighbour mode neg X (c * 2 ^ F.p + j) := by
  have hexact := eq_magnitude_binade_iff hj hc hr hX
  by_cases hr0 : r = 0
  · rw [neighbour_of_exact mode neg (hexact.mpr hr0), hr0, roundStep_zero]
  · have hup : F.upper X (c * 2 ^ F.p + j) = c * 2 ^ F.p + j + 1 := if_neg (mt hexact.mp hr0)
    cases mode with
    | RN => exact (nearer_binade hj hc hr hX hp hr0 neg).symm
    | RZ | RU | RD => cases neg <;> simp [neighbour, hup, roundStep, hr0, add_assoc]

end

end FloatFmt

/-- A finite value rounds to a neighbour of its magnitude, as its mode names it (12 R302). -/
theorem exists_roundTo_eq_delivered {F : FloatFmt} (hp : 1 ≤ F.p) (n : Bool) (m : Nat) (e : Int) (mode : Mode) (sat : Bool) :
    ∃ k, F.Brackets k (m * (2 : ℚ) ^ e) ∧ roundTo (.fin n m e) F mode sat = F.delivered mode sat n (m * (2 : ℚ) ^ e) k := by
  by_cases hm : m = 0
  · subst hm
    have hX : ((0 : ℕ) : ℚ) * 2 ^ e = F.magnitude 0 := by simp
    refine ⟨0, ⟨hX.ge, hX ▸ F.magnitude_strictMono Nat.zero_lt_one⟩, ?_⟩
    rw [roundTo_zero, FloatFmt.delivered, FloatFmt.neighbour_of_exact mode n hX, hX]
    simp
  · obtain ⟨hj, hc⟩ := scaleTo_binade F hm e
    obtain ⟨hr, hX⟩ := scaleTo_spec m e (F.binadeExp m e)
    have hlow : (Nat.log2 m : Int) + e < 1 - F.bias ↔ m * (2 : ℚ) ^ e < 2 ^ (1 - F.bias) := by
      obtain ⟨hlo, hhi⟩ := zpow_log2_le hm e
      refine ⟨fun hlt => hhi.trans_le (zpow_le_zpow_right₀ one_le_two hlt), fun hlt => ?_⟩
      exact (zpow_lt_zpow_iff_right₀ one_lt_two).mp (hlo.trans_lt hlt)
    refine ⟨_, FloatFmt.brackets_binade hj hc hr hX, ?_⟩
    rw [roundTo_fin_of_ne_zero F hm, FloatFmt.delivered, FloatFmt.add_roundStep hj hc hr hX hp]
    simp only [ne_eq, FloatFmt.eq_magnitude_binade_iff hj hc hr hX, hlow, Bool.decide_and, decide_not]
    rfl

/-! ### The statement -/

theorem abs_ratOf_fin (n : Bool) (m : Nat) (e : Int) : |ratOf (.fin n m e)| = m * (2 : ℚ) ^ e := by
  have hX : (0 : ℚ) ≤ m * 2 ^ e := by positivity
  cases n <;> simp [ratOf_fin, abs_of_nonneg hX]

/-- The five floating formats have a mantissa, and two bits of exponent at least. -/
theorem floatFmt_widths : ∀ F ∈ [fmtF32, fmtF16, fmtBF16, fmtF8A, fmtF8B], 1 ≤ F.p ∧ 2 ≤ F.e := by decide

/-- Settles O45: sums and products by their units, and the rounding by the neighbours of the value's magnitude. -/
theorem roundingIsCorrect : Obligations.RoundingIsCorrect := by
  unfold Obligations.RoundingIsCorrect
  refine ⟨fun n n' m m' e e' mode => ⟨Num.add_fin_isFin n n' m m' e e' mode, ratOf_add n n' m m' e e' mode, ⟨_, _, _, rfl⟩,
    ratOf_mul n n' m m' e e'⟩, fun F hF n m e mode sat => ?_⟩
  obtain ⟨hp, he⟩ := floatFmt_widths F hF
  obtain ⟨k, hk, hround⟩ := exists_roundTo_eq_delivered hp n m e mode sat
  have hx : ratOf (.fin n m e) = (if n then -1 else 1) * (m * (2 : ℚ) ^ e) := by rw [ratOf_fin, mul_assoc]
  simp only [FloatFmt.setOf_ratOf_value hp he]
  refine ⟨?zero, ?inRange, ?overflow, ?underflow⟩
  case zero =>
    rintro rfl
    exact roundTo_zero F n e mode sat
  case inRange =>
    rw [hround, hx]
    cases mode <;> exact hk.delivered_names hp he _ sat n
  case overflow =>
    rw [hround, abs_ratOf_fin]
    exact hk.delivered_overflow mode sat n
  case underflow =>
    have hne : ratOf (.fin n m e) ∉ F.values → ratOf (.fin n m e) ≠ 0 := fun h h0 => h (h0 ▸ FloatFmt.zero_mem_values F)
    rw [hround, hk.delivered_underflow_iff hp he, ← abs_ratOf_fin n m e, FloatFmt.abs_mem_values_iff]
    exact ⟨fun h => ⟨hne h.2, h⟩, And.right⟩

end Sys2Proof.Machine
end

section
/-! PROOFS of the statements of traps and faults (O19, O20, O21): TRAP and TRET, a fault that no handler takes, which stops the block, and
a fault that enters its handler, whose statement fails in a block whose words carry what a release left there. -/
namespace Sys2Proof.Machine
open Sys2Proof.Claims

/-! ### TRAP and TRET (17 R386, R387) -/

/-- Rows 6 and 7 let through only well-formed instructions. -/
theorem wf_of_issued {s : State} {iss : Issue} {i : Instr} (h : Issued s iss i) (hact : actives s iss ≠ []) : i.wf = true := by
  obtain ⟨-, -, hrows⟩ := h
  obtain ⟨L, hL⟩ := List.exists_mem_of_ne_nil _ hact
  have hrow := hrows L hL
  cases hwf : i.wf with
  | true => rfl
  | false => simp [rowFault, hwf] at hrow

/-- The code of a well-formed TRAP is no wait's. -/
theorem trap_code_ne {o : S32} (h : (Instr.trap o).wf = true) : o.d.toNat ≠ 0 := by
  have hok : (Instr.form (.trap o)).ok = true := h
  simp only [Form.ok, Bool.and_eq_true] at hok
  obtain ⟨⟨⟨⟨⟨hd, -⟩, -⟩, -⟩, -⟩, -⟩ := hok
  have hlow : 64 ≤ o.d.toNat := by
    have hrange : (decide (64 ≤ o.d.toNat) && decide (o.d.toNat ≤ 127)) = true := hd
    simp at hrange
    exact hrange.1
  omega

/-- A lane of a TRET in trap mode returns, any other goes on. -/
theorem Lane.after_rets (l : Lane) (iss : Issue) (u : State) (rets : List Nat) (order : List Dbl) (L : Nat) :
    l.after iss.pc (nextPc iss.pc iss.len) { st := u, rets := rets, order := order } L =
      if L ∈ rets then { l with trap := false, pc := l.tpc, pend := true, arrival := .newLine } else goneOn iss l := by
  by_cases hL : L ∈ rets
  · simp [Lane.after, hL, Lane.tret]
  · simp only [Lane.after, List.contains_eq_mem, hL, decide_false, Bool.false_eq_true, if_false]
    rfl

/-- No Active lane in trap mode has a reserved bit of TSTATUS set. -/
theorem tretBad_of_clear {c : Ctx} (h : ∀ L ∈ c.act, (c.team.lane L).trap = true → (c.team.lane L).tstatus.extractLsb' 20 12 = 0) :
    tretBad c = none := by
  refine List.find?_eq_none.mpr fun L hL => ?_
  cases htrap : (c.team.lane L).trap with
  | false => simp
  | true =>
    have hbits := congrArg BitVec.toNat (h L hL htrap)
    simp only [BitVec.extractLsb'_toNat] at hbits
    simpa [natBits] using hbits

/-- Settles O19: TRAP only raises faults; TRET without a reserved bit either returns lanes or faults the one outside trap mode. -/
theorem trapAndReturn : Obligations.TrapAndReturn := by
  unfold Obligations.TrapAndReturn
  refine ⟨fun o s iss h hact => ?trap, fun s iss h hall => ?returns, fun s iss L h hact hout => ?outside⟩
  case trap =>
    refine faultsWith_of_finish (runInstr_of_issued h _) (by simpa using hact) (ascending_map s iss _) fun x hx => ?_
    obtain ⟨L, -, rfl⟩ := List.mem_map.mp hx
    exact trap_code_ne (wf_of_issued h hact)
  case returns =>
    have hrets : ((actives s iss).filter fun L => ((s.team iss.team).lane L).trap) = actives s iss :=
      List.filter_eq_self.mpr fun L hL => (hall L hL).1
    have hfaults : ((actives s iss).filter fun L => !((s.team iss.team).lane L).trap) = [] :=
      List.filter_eq_nil_iff.mpr fun L hL => by simp [(hall L hL).1]
    have hgood : tretBad (seen s iss .tret) = none := tretBad_of_clear fun L hL _ => (hall L hL).2
    have hexec : exec .tret s = _ := runInstr_of_issued h _
    simp only [hgood] at hexec
    simp only [seen, hrets, hfaults, List.map_nil] at hexec
    obtain ⟨t, hnext, hframe, -⟩ := does_of_clean (also := fun _ => True) hexec rfl rfl (Effect.from_self (u := s) rfl)
      (fun L _ l => Lane.after_rets l iss s _ _ L) trivial
    exact ⟨t, hnext, hframe⟩
  case outside =>
    have hgood : tretBad (seen s iss .tret) = none := tretBad_of_clear fun M hM htrap => by
      have hML : M = L := List.mem_singleton.mp (hact ▸ hM)
      rw [hML] at htrap
      exact absurd (hout.symm.trans htrap) Bool.false_ne_true
    have hexec : exec .tret s = _ := runInstr_of_issued h _
    simp only [hgood] at hexec
    simp only [seen, hact, List.filter_cons, List.filter_nil, hout, Bool.not_false, if_true, Bool.false_eq_true, if_false,
      List.map_cons, List.map_nil] at hexec
    exact faultsWith_of_fault hexec (by decide) (.inl rfl)

/-! ### Faults that stop the block (17 R381, R389 to R391) -/

theorem State.dropWork_run (s : State) (b : Nat) (ts : List Nat) (c : Nat) : ((s.dropWork b ts).block c).run = (s.block c).run := by
  unfold State.dropWork State.discardHeld
  dsimp only
  rw [State.block_setBlock]
  split
  · next hc => subst hc; rfl
  · rfl

theorem State.addEvents_run (s : State) (b c : Nat) : ((s.addEvents b).block c).run = (s.block c).run := by
  have hadded : ∀ t : State, t.blocks = s.blocks → ((t.setBlock b { t.block b with events := [] }).block c).run = (s.block c).run :=
      fun t ht => by
    have hblock : t.block = s.block := funext fun d => by rw [State.block, ht, State.block]
    rw [State.block_setBlock, hblock]
    split
    · next hc => rw [hc]
    · rfl
  unfold State.addEvents
  dsimp only
  split
  · exact hadded _ rfl
  · exact hadded _ (State.Wakes.foldl (fun s e => State.wakes_addEvent s _ _ _ _) _ _).blocks

/-- A team that ends leaves the blocks. -/
theorem State.foldl_endTeam_blocks (ts : List Nat) (s : State) : (ts.foldl State.endTeam s).blocks = s.blocks :=
  foldl_keeps State.blocks fun t tn => congrArg Prod.fst (t.dropWalk_work tn)

/-- A halted block's run has a stopped block (17 R391). -/
theorem State.haltBlock_run (s : State) (b reason : Nat) : ((s.haltBlock b reason).run (s.block b).run).stopped = true := by
  have hblock : ((s.block b).teams.foldl State.endTeam s).block b = s.block b := by
    rw [State.block, State.foldl_endTeam_blocks, State.block]
  rw [State.haltBlock_eq]
  dsimp only
  have hrun : ∀ v : State, (v.block b).run = (s.block b).run →
      ((v.setRun (v.block b).run { v.run (v.block b).run with stopped := true }).run (s.block b).run).stopped = true := fun v hv => by
    rw [hv, State.run_setRun_self]
  rw [State.run_setBlock]
  refine hrun _ ?_
  split
  · rw [State.addEvents_run, State.dropWork_run, hblock]
  · rw [State.dropWork_run, hblock]

theorem State.stopBlock_run {s : State} {b : Nat} (i : StopInfo) (h : (s.block b).place ≠ .retired) :
    ((s.stopBlock b i).run (s.block b).run).stopped = true := by
  have hblock : (s.stopReport b i).block b = s.block b := by
    rw [State.block, (s.wakes_stopReport b i).blocks, State.block]
  rw [State.stopBlock, if_neg (by simpa using h), ← hblock]
  exact State.haltBlock_run _ _ _

/-- Block `b` has stopped with this reason, and every lane of its teams has ended. -/
def StoppedBlock (s t : State) (b reason : Nat) : Prop :=
  (t.block b).place = .retired ∧ (t.block b).stop = reason ∧ (t.run (s.block b).run).stopped = true ∧
    ∀ k ∈ (s.block b).teams, (t.team k).ended

theorem stoppedBlock_of_stopBlock {s : State} {b : Nat} (i : StopInfo) (h : (s.block b).place ≠ .retired) :
    StoppedBlock s (s.stopBlock b i) b i.reason := by
  obtain ⟨hplace, hstop, hended⟩ := State.stopBlock_stops i h
  exact ⟨hplace, hstop, State.stopBlock_run i h, hended⟩

/-- The default handler stops the block for every code but ATOMEMU and LOGFULL. -/
theorem stoppedBlock_of_defaultHandler {s : State} (tn L : Nat) {e : FaultInfo} (h : (s.block (s.team tn).block).place ≠ .retired)
    (hemu : e.code ≠ 0x11) (hlog : e.code ≠ 0x14) : StoppedBlock s (s.defaultHandler tn L e) (s.team tn).block 1 := by
  rw [State.defaultHandler, if_neg hlog, if_neg hemu]
  exact stoppedBlock_of_stopBlock _ h

/-- A fault in trap mode is a double fault. -/
theorem takeFault_of_trap {s : State} {tn L : Nat} (e : FaultInfo) (pc next : Dbl) (hlive : ((s.team tn).lane L).st ≠ .exited)
    (htrap : ((s.team tn).lane L).trap = true) : s.takeFault tn L e pc next =
      s.doubleFault tn L e.code e.cause pc ((s.team tn).lane L).tpc ((s.team tn).lane L).taddr ((s.team tn).lane L).tinfo := by
  have hexit : ((s.team tn).lane L).isExited = false := by simpa [Lane.isExited] using hlive
  simp only [State.takeFault, hexit, htrap, Bool.false_eq_true, if_false, if_true]

/-- A fault at user level without a trap table is the default handler's. -/
theorem takeFault_of_noTable {s : State} {tn L : Nat} (e : FaultInfo) (pc next : Dbl) (hlive : ((s.team tn).lane L).st ≠ .exited)
    (huser : ((s.team tn).lane L).trap = false) (htab : (s.nodeOf (s.team tn).block).traptab = 0) :
    s.takeFault tn L e pc next = (s.saveTrap tn L e pc next).defaultHandler tn L e := by
  have hexit : ((s.team tn).lane L).isExited = false := by simpa [Lane.isExited] using hlive
  have hblock : ((s.saveTrap tn L e pc next).team tn).block = (s.team tn).block := by
    rw [State.saveTrap, State.team_setTeam_self]
    rfl
  have hnode : ((s.saveTrap tn L e pc next).nodeOf ((s.saveTrap tn L e pc next).team tn).block).traptab.toNat = 0 := by
    rw [hblock]
    exact congrArg BitVec.toNat htab
  simp only [State.takeFault, hexit, huser, Bool.false_eq_true, if_false, State.enterTrap, hnode, if_true]

/-- Settles O21: both kinds of fault stop the block as `stoppedBlock_of_stopBlock` says. -/
theorem unhandledFaultStopsBlock : Obligations.UnhandledFaultStopsBlock := by
  unfold Obligations.UnhandledFaultStopsBlock
  intro s tn L e pc next b hruns hlive _ _ hfault t
  have hplace : (s.block b).place ≠ .retired := by rw [hruns]; decide
  suffices h : StoppedBlock s t b (if ((s.team tn).lane L).trap then 2 else 1) from
    h.imp_right (.imp_right (.imp_right fun hended k hk M => hended k hk M))
  cases htrap : ((s.team tn).lane L).trap with
  | true =>
    rw [show t = _ from takeFault_of_trap e pc next hlive htrap]
    exact stoppedBlock_of_stopBlock _ hplace
  | false =>
    obtain ⟨htab, hemu, hlog⟩ := hfault.resolve_left (by simp [htrap])
    rw [show t = _ from takeFault_of_noTable e pc next hlive htrap htab]
    have hblock : ((s.saveTrap tn L e pc next).team tn).block = b := by
      rw [State.saveTrap, State.team_setTeam_self]
      rfl
    have hstop := stoppedBlock_of_defaultHandler (s := s.saveTrap tn L e pc next) tn L (by rw [hblock]; exact hplace) hemu hlog
    rw [hblock] at hstop
    exact hstop

/-! ### A fault that enters its handler (17 R384) -/

/-- With nothing in any L1 a plain read of HBM is served at the home. -/
theorem State.readNow_of_noL1 {s : State} (tn L p n : Nat) (h : s.l1 = []) :
    s.readNow tn L (.hbm p) (n + 1) =
      let u := ((s.callHome (s.team tn).core (.hbm p)).reach (.hbm p)).dropSector (s.team tn).core (p / 32)
      (u.heard tn L (.hbm p) (n + 1),
        (s.block (s.team tn).block).overlay (s.agentOf tn L).who p (n + 1) (u.peek (.hbm p) (n + 1))) := by
  have hnone : s.l1Read (s.team tn).core p (n + 1) = none := by
    have hword : (wordsOf p (n + 1)).all (fun w => (s.l1.find? fun e => e.core == (s.team tn).core && e.word == w).isSome) = false := by
      rw [List.all_eq_false]
      exact ⟨p / 4, by simp [wordsOf, Nat.div_le_div_right], by simp [h]⟩
    rw [State.l1Read]
    exact if_neg (by rw [hword]; decide)
  simp [State.readNow, hnone]

/-- A node with a trap table at 0x20000. -/
def tabledNode : Node := { traptab := 0x20000 }

/-- Lane 0 of team 0 is at user level; entry 6 of the trap table is mapped and holds 0x20040, and a release has left something on its
word. -/
def releasedTable : State :=
  let s : State := { State.reset with
    dev := { stage := 5, schedulerUp := true }
    funcs := [(1, { ptroot := 0x1109 })]
    runs := [(0, { stage := .admitted, func := 1, graph := { nodes := [tabledNode] }, dies := [0], clusters := [0] })]
    blocks := [(0, { place := .running, func := 1, teams := [0], words := [(0x20030 / 4, [(0, 1)])] })]
    teams := [(0, { resident := true, lanes := [(0, { st := .ready, pc := 0x10000 })] })]
    cores := [(0, { blocks := [0] })]
    tlb := [{ cluster := 0, func := 1, page := 0x20, pte := 0x2002F, level := 1 }] }
  s.hbmWrite 0x20030 8 0x20040

/-- The fault that its lane takes. -/
def lineFault : FaultInfo := { code := 6 }

/-- That state once the lane has saved its trap state. -/
def savedTable : State := releasedTable.saveTrap 0 0 lineFault 0x10000 0x10004

/-- The table's entry may be read at once. -/
theorem savedTable_ready : savedTable.checkThread 0 0 .read (0x20000 + 8 * 6) 8 8 = .ok (.hbm 0x20030) ∧
    savedTable.readReady 0 0 (.hbm 0x20030) 8 = true := by decide +kernel

theorem savedTable_reads : (savedTable.readNow 0 0 (.hbm 0x20030) 8).2 = 0x20040 := by
  rw [State.readNow_of_noL1 0 0 0x20030 7 rfl]
  decide +kernel

/-- With a table entry that can be read at once and is a PC, the fault leaves the lane at its handler. -/
theorem takeFault_of_handler {s : State} {tn L : Nat} {e : FaultInfo} {pc next : Dbl} {tg : Target} {u r : State} {h : Nat}
    (hlive : ((s.team tn).lane L).isExited = false) (huser : ((s.team tn).lane L).trap = false)
    (hsaved : s.saveTrap tn L e pc next = u) (htab : (u.nodeOf (u.team tn).block).traptab.toNat ≠ 0)
    (hcheck : u.checkThread tn L .read ((u.nodeOf (u.team tn).block).traptab.toNat + 8 * e.code) 8 8 = .ok tg)
    (hready : u.readReady tn L tg 8 = true) (hread : u.readNow tn L tg 8 = (r, h)) (hne : h ≠ 0)
    (hpc : (decide (2 ^ 56 ≤ h) || decide (h % 4 ≠ 0)) = false) :
    s.takeFault tn L e pc next = r.setTeam tn ((r.team tn).setLane L
      { (r.team tn).lane L with pc := BitVec.ofNat 64 h, arrival := .transfer pc }).refresh := by
  simp only [State.takeFault, hlive, huser, Bool.false_eq_true, if_false, hsaved, State.enterTrap, if_neg htab, hcheck, hready,
    Bool.not_true, hread, if_neg hne, hpc]

/-- The lane has heard what the release left on the entry. -/
theorem savedTable_heard : ((((savedTable.readNow 0 0 (.hbm 0x20030) 8).1).team 0).lane 0).heard = [(0, 1)] := by
  rw [State.readNow_of_noL1 0 0 0x20030 7 rfl]
  decide +kernel

theorem releasedTable_heard :
    (((releasedTable.takeFault 0 0 lineFault 0x10000 0x10004).team 0).lane 0).heard = [(0, 1)] := by
  have htab : (savedTable.nodeOf (savedTable.team 0).block).traptab.toNat = 0x20000 := by decide +kernel
  obtain ⟨hcheck, hready⟩ := savedTable_ready
  have hread := savedTable_reads
  have hheard := savedTable_heard
  rcases hpair : savedTable.readNow 0 0 (.hbm 0x20030) 8 with ⟨r, h⟩
  rw [hpair] at hread hheard
  subst hread
  rw [takeFault_of_handler (by decide +kernel) (by decide +kernel) (u := savedTable) rfl (by rw [htab]; decide)
    (by rw [htab]; exact hcheck) hready hpair (by decide) (by decide), State.team_setTeam_self, Team.refresh_lane,
    Team.lane_setLane_self]
  exact hheard

/-- Refutes O20: in `releasedTable` the read of the trap table's entry adds to what the lane has heard what a release left on its
word (11 R281), where the statement keeps it. -/
theorem not_faultEntersHandler : ¬ Obligations.FaultEntersHandler := by
  unfold Obligations.FaultEntersHandler
  intro h
  obtain ⟨hcheck, hready⟩ := savedTable_ready
  have hread := savedTable_reads
  have hne : (savedTable.readNow 0 0 (.hbm 0x20030) 8).2 ≠ 0 := by rw [hread]; decide
  have hlt : (savedTable.readNow 0 0 (.hbm 0x20030) 8).2 < 2 ^ 56 := by rw [hread]; decide
  have halign : (savedTable.readNow 0 0 (.hbm 0x20030) 8).2 % 4 = 0 := by rw [hread]
  obtain ⟨-, -, hlane, -⟩ := h releasedTable 0 0 lineFault 0x10000 0x10004 0x20030 (by decide +kernel) (by decide +kernel)
    (by decide +kernel) hcheck hready hne hlt halign
  have hheard := releasedTable_heard
  rw [hlane] at hheard
  exact absurd hheard (by decide +kernel)

end Sys2Proof.Machine
end

section
/-! PROOFS of the statements of barriers and CANCEL (O30, O31, O32, O35): arrivals that begin, one that is recorded, the phase that
completes, and a CANCEL that waits or ends its runs. -/
namespace Sys2Proof.Machine
open Sys2Proof.Claims

/-! ### CANCEL (16 R377) -/

/-- The lanes of an issued instruction that pass rows 1 to 10 are its Active lanes. -/
theorem State.activeOf_of_issued {s : State} {iss : Issue} {i : Instr} (h : Issued s iss i) : s.activeOf iss i = actives s iss := by
  have hpass := passes_of_issued h
  rw [actives_eq_activeLanes, State.activeOf, State.activeLanes]
  refine List.filter_congr fun L hL => ?_
  by_cases hact : (iss.group.contains L && ((s.team iss.team).lane L).pend) = true
  · rw [hpass L (List.mem_filter.mpr ⟨hL, hact⟩), hact]
    rfl
  · rw [Bool.not_eq_true] at hact
    rw [hact]
    rfl

section
variable {i : Instr} {s : State} {iss : Issue} {level : Nat} {target : Nat → Nat} {rs : Nat → List Nat}
  {act : State → Nat → List Nat → State} (hx : exec i s = cancelInstr i s level target rs act) (h : Issued s iss i)
  (hact : actives s iss ≠ [])
include hx h hact

/-- A CANCEL waits for its team's earlier accesses, as a release does. -/
theorem cancelInstr_of_unacked (hwaits : s.unacked iss.team ≠ []) : CannotIssue i s := by
  rw [CannotIssue, hx, cancelInstr, h.1]
  simp only [State.activeOf_of_issued h, if_neg hact, if_pos hwaits]

/-- With none of them left, and room in the log, its lanes go on and its runs are cancelled. -/
theorem cancelInstr_of_room (hacked : s.unacked iss.team = [])
    (hroom : let b := (s.team iss.team).block
      ∀ L, Act s iss L → s.logNeed iss.team L ((s.run ((rs b).headD (s.block b).run)).homeDie 0) .yard 1 = none) :
    Does i s iss s [] id (fun _ l => goneOn iss l) (fun _ => True) fun t =>
      let b := (s.team iss.team).block
      act (t.cancelLog (rs b) level (target b) (s.team iss.team).core) b (rs b) := by
  refine ⟨_, ?exec, teamFrame_still s iss, trivial⟩
  have hnone : ((actives s iss).filterMap fun L => (s.logNeed iss.team L
      ((s.run ((rs (s.team iss.team).block).headD (s.block (s.team iss.team).block).run)).homeDie 0) .yard 1).map fun e => (L, e)) =
      [] := List.filterMap_eq_nil_iff.mpr fun L hL => by rw [hroom L hL]; rfl
  rw [hx, cancelInstr, h.1]
  simp only [State.activeOf_of_issued h, if_neg hact, hacked, ne_eq, not_true_eq_false, if_false, hnone,
    State.issueInstr_still (passes_of_issued h), if_true]

end

theorem exec_cancelRun (s : State) : exec .cancelRun s = cancelInstr .cancelRun s 0 (fun b => (s.runid b).toNat)
    (fun b => [(s.block b).run]) fun t _ rs => t.cancelRuns rs := rfl

theorem exec_cancelPhase (s : State) : exec .cancelPhase s = cancelInstr .cancelPhase s 1 (fun b => (s.jobid b).toNat)
    (fun b => s.runsOf (s.block b).func (s.block b).job (some (s.run (s.block b).run).phase))
    fun t b rs => (t.cancelUnits (s.block b).func (s.block b).job (some (s.run (s.block b).run).phase)).cancelRuns rs := rfl

theorem exec_cancelJob (s : State) : exec .cancelJob s = cancelInstr .cancelJob s 2 (fun b => (s.block b).job)
    (fun b => s.runsOf (s.block b).func (s.block b).job none)
    fun t b rs => (t.cancelUnits (s.block b).func (s.block b).job none).cancelRuns rs := rfl

/-- Settles O35: CANCEL waits by `cancelInstr_of_unacked` and cancels by `cancelInstr_of_room`. -/
theorem cancelsEndRuns : Obligations.CancelsEndRuns := by
  unfold Obligations.CancelsEndRuns
  intro cancels
  refine ⟨fun s iss h hact => ?run, fun s iss h hact => ?phase, fun s iss h hact => ?job⟩
  case run =>
    have hdoes := cancelInstr_of_room (exec_cancelRun s) h hact
    exact ⟨cancelInstr_of_unacked (exec_cancelRun s) h hact, hdoes⟩
  case phase =>
    have hdoes := cancelInstr_of_room (exec_cancelPhase s) h hact
    exact ⟨cancelInstr_of_unacked (exec_cancelPhase s) h hact, hdoes⟩
  case job =>
    have hdoes := cancelInstr_of_room (exec_cancelJob s) h hact
    exact ⟨cancelInstr_of_unacked (exec_cancelJob s) h hact, hdoes⟩

/-! ### Arrivals begin (16 R366, R371) -/

/-- The effect of an arrival at the barrier of the form, with room in the log. -/
theorem does_of_arriveInstr {i : Instr} {b : Nat} {w : List Nat → Nat → Wait} (hx : ∀ s, exec i s = arriveInstr i s w)
    (hb : i.form.d.field.toNat = b) {s : State} {iss : Issue} (h : Issued s iss i)
    (hroom : ∀ L, Act s iss L → s.logNeed iss.team L (dieOfCore (s.team iss.team).core) .order
      (if s.barOwes (s.team iss.team).block b then 0 else 1) = none) :
    Does i s iss (s.gives iss.team (actives s iss)) [] id
      (fun L l => if Act s iss L then waitsFor (w (s.unacked iss.team) b) l else goneOn iss l) (fun _ => True)
      fun t => t.checkDead iss.team := by
  have hnone : ((actives s iss).filterMap fun L => (s.logNeed iss.team L (dieOfCore (s.team iss.team).core) .order
      (if s.barOwes (s.team iss.team).block b then 0 else 1)).map fun e => (L, e)) = [] :=
    List.filterMap_eq_nil_iff.mpr fun L hL => by rw [hroom L hL]; rfl
  have hexec := (hx s).trans (runInstr_of_issued h _)
  simp only [seen, hb, hnone, List.lookup_nil, Option.isNone_none, List.filter_true] at hexec
  exact does_of_clean hexec rfl rfl (Effect.from_self rfl)
    (fun L _ l => Lane.after_waits l iss rfl (lookup_map_lane _ (fun _ => w (s.unacked iss.team) b) L)) trivial

theorem exec_bar (o : S32) (s : State) : exec (.bar o) s = arriveInstr (.bar o) s fun a b => .arrive .bar b a := rfl
theorem exec_barArv (o : S32) (s : State) : exec (.barArv o) s = arriveInstr (.barArv o) s fun a b => .arrive .arv b a := rfl
theorem exec_drain (o : S32) (s : State) : exec (.drain o) s = arriveInstr (.drain o) s fun a b => .drain b a := rfl

/-- The Active lanes that have arrived at barrier `b` in this phase, and those that have not. -/
def arrivedLanes (s : State) (iss : Issue) (b : Nat) : List Nat :=
  (actives s iss).filter fun L => ((s.block (s.team iss.team).block).bar b).arrived ((s.team iss.team).thread L)
def notArrivedLanes (s : State) (iss : Issue) (b : Nat) : List Nat :=
  (actives s iss).filter fun L => !(arrivedLanes s iss b).contains L

theorem notArrivedLanes_eq (s : State) (iss : Issue) (b : Nat) : notArrivedLanes s iss b = (actives s iss).filter fun L =>
    !((s.block (s.team iss.team).block).bar b).arr.getLsbD (64 * (s.team iss.team).index + L) :=
  List.filter_congr fun L hL => by
    simp only [arrivedLanes, List.contains_eq_mem, List.mem_filter, hL, true_and, Bool.decide_eq_true, Barrier.arrived, Team.thread]

/-- The state once the lanes that have not arrived have passed BAR.WAIT, an acquire. -/
def State.passedBar (s : State) (iss : Issue) (b : Nat) : State :=
  (s.acquire (s.team iss.team).core).learnNow iss.team (notArrivedLanes s iss b) ((s.block (s.team iss.team).block).bar b).last

theorem does_of_barWait {o : S32} {s : State} {iss : Issue} (h : Issued s iss (.barWait o)) :
    Does (.barWait o) s iss (if notArrivedLanes s iss o.d.toNat = [] then s else s.passedBar iss o.d.toNat) [] id
      (fun L l => if L ∈ arrivedLanes s iss o.d.toNat then waitsFor (.barWait o.d.toNat) l else goneOn iss l) (fun _ => True)
      fun t => t.checkDead iss.team := by
  have hexec : exec (.barWait o) s = .next (s.finish iss []
      { st := if notArrivedLanes s iss o.d.toNat = [] then s else s.passedBar iss o.d.toNat
        waits := (arrivedLanes s iss o.d.toNat).map fun L => (L, .barWait o.d.toNat), check := true }) := by
    have hrun : exec (.barWait o) s = execBarWait o s := rfl
    rw [hrun, execBarWait, runInstr_of_issued h]
    exact congrArg (fun e => Host.Outcome.next (s.finish iss [] e)) rfl
  exact does_of_clean hexec rfl rfl (Effect.from_self rfl)
    (fun L _ l => Lane.after_waits l iss rfl (lookup_map_lane _ (fun _ => Wait.barWait o.d.toNat) L)) trivial

/-- Settles O30: arrivals by `does_of_arriveInstr`, BAR.WAIT by `does_of_barWait`. -/
theorem barrierInstructionsWait : Obligations.BarrierInstructionsWait := by
  unfold Obligations.BarrierInstructionsWait
  intro room arrive
  refine ⟨fun o s iss h hroom => ?bar, fun o s iss h hroom => ?arv, fun o s iss h hroom => ?drain, fun o s iss h => ?wait⟩
  case bar => exact does_of_arriveInstr (exec_bar o) rfl h hroom
  case arv => exact does_of_arriveInstr (exec_barArv o) rfl h hroom
  case drain => exact does_of_arriveInstr (exec_drain o) rfl h hroom
  case wait =>
    intro T here clean runs
    have hmem : ∀ L, L ∈ arrivedLanes s iss o.d.toNat ↔
        (((s.block T.block).bar o.d.toNat).arr.getLsbD (64 * T.index + L) && decide (Act s iss L)) = true := fun L => by
      rw [arrivedLanes, List.mem_filter, Bool.and_eq_true, decide_eq_true_eq, and_comm]
      exact Iff.rfl
    have hdoes := does_of_barWait h
    rw [notArrivedLanes_eq] at hdoes
    simp only [hmem] at hdoes
    refine ⟨fun hall => ?all, fun ⟨L, hL, hnot⟩ => ?some⟩
    case all =>
      rw [if_pos] at hdoes
      · exact hdoes
      · exact List.filter_eq_nil_iff.mpr fun L hL => by simpa using (hall L hL).2
    case some =>
      rw [if_neg] at hdoes
      · rw [State.passedBar, notArrivedLanes_eq] at hdoes
        exact hdoes
      · exact List.ne_nil_of_mem (List.mem_filter.mpr ⟨hL, by simpa using fun harr => hnot ⟨hL, harr⟩⟩)

/-! ### An arrival is recorded (16 R365, R366, R371) -/

/-- The barrier once thread `th` has arrived, with what its arrival carries. -/
def Barrier.arrive (x : Barrier) (th : Nat) (clock : SMap Nat) : Barrier :=
  { x with arr := x.arr ||| (1 <<< th), clock := x.clock.join clock }

theorem Barrier.getLsbD_arrive (x : Barrier) (clock : SMap Nat) (th : Nat) {i : Nat} (hi : i < 1024) :
    (x.arrive th clock).arr.getLsbD i = true ↔ i = th ∨ x.arr.getLsbD i = true := by
  have hbit : ((1 <<< th : Nat) : BitVec 1024).getLsbD i = decide (i = th) := by
    rw [BitVec.natCast_eq_ofNat, BitVec.getLsbD_ofNat, Nat.one_shiftLeft, Nat.testBit_two_pow, decide_eq_true hi, Bool.true_and]
    exact decide_eq_decide.mpr eq_comm
  rw [Barrier.arrive, BitVec.getLsbD_or, hbit, Bool.or_eq_true, decide_eq_true_eq, or_comm]

/-- The lane once its arrival is recorded. -/
def Lane.arrived (l : Lane) (kind : BarKind) (b : Nat) : Lane :=
  if kind = .arv then l.release 1 else { l with st := .waiting (.phase b) }

/-- The state once the arrival of a lane is recorded, before the checks that follow. -/
def State.withArrival (s : State) (tn L : Nat) (kind : BarKind) (b : Nat) : State :=
  let T := s.team tn
  let k := s.block T.block
  let u := s.setBlock T.block (k.setBar b ((k.bar b).arrive (T.thread L) (T.lane L).gave))
  (if kind = .arv then u.acquire T.core else u).setTeam tn (T.setLane L ((T.lane L).arrived kind b)).refresh

theorem State.recordArrival_eq (s : State) (tn L : Nat) (kind : BarKind) (b : Nat) : s.recordArrival tn L kind b =
    ((s.withArrival tn L kind b).checkBar (s.team tn).block b).checkDead tn := by
  cases kind <;> rfl

/-- BARRIER_ARRIVAL of a lane whose arrival may be recorded. -/
theorem execBarrierArrival_of_ready {s : State} {tn L b : Nat} {kind : BarKind} {after : List Nat}
    (hst : ((s.team tn).lane L).st = .waiting (.arrive kind b after) ∨
      (kind = .drain ∧ ((s.team tn).lane L).st = .waiting (.drain b after) ∧ (s.team tn).drained = true))
    (hacked : s.acked after = true) (hclear : ((s.block (s.team tn).block).bar b).arr.getLsbD (64 * (s.team tn).index + L) = false)
    (hruns : (s.block (s.team tn).block).place = .running) :
    exec (.barrierArrival tn L) s = .next (((s.withArrival tn L kind b).checkBar (s.team tn).block b).checkDead tn) := by
  have hready : (s.acked after && !((s.block (s.team tn).block).bar b).arrived ((s.team tn).thread L) &&
      (s.block (s.team tn).block).place == .running) = true := by
    rw [Barrier.arrived, Team.thread, hacked, hclear, hruns]
    rfl
  rw [← State.recordArrival_eq]
  change execBarrierArrival tn L s = _
  rcases hst with hst | ⟨rfl, hst, hdrained⟩
  · simp only [execBarrierArrival, hst, hready, if_true]
  · simp only [execBarrierArrival, hst, hready, hdrained, Bool.not_true, Bool.false_eq_true, if_false, if_true]

theorem Team.drained_iff (t : Team) : t.drained = true ↔ t.stc = 0 ∧ t.cpc = 0 ∧ t.emc = 0 := by
  simp [Team.drained, and_assoc]

section
variable (s : State) (tn L : Nat) (kind : BarKind) (b : Nat)

theorem State.withArrival_block : (s.withArrival tn L kind b).block (s.team tn).block =
    (s.block (s.team tn).block).setBar b (((s.block (s.team tn).block).bar b).arrive ((s.team tn).thread L)
      ((s.team tn).lane L).gave) := by
  unfold State.withArrival
  rw [State.block_setTeam]
  split <;> exact State.block_setBlock_self _ _ _

theorem State.withArrival_team : (s.withArrival tn L kind b).team tn =
    ((s.team tn).setLane L (((s.team tn).lane L).arrived kind b)).refresh := State.team_setTeam_self _ _ _

end

/-- Settles O31: the arrival is recorded by `execBarrierArrival_of_ready`, and `Barrier.getLsbD_arrive` reads its bits. -/
theorem barrierArrivalRecords : Obligations.BarrierArrivalRecords := by
  unfold Obligations.BarrierArrivalRecords
  intro s tn L kind b after T k th hst hacked _ hclear hruns
  have hexec := execBarrierArrival_of_ready (hst.imp_right fun ⟨hk, hw, hc⟩ => ⟨hk, hw, T.drained_iff.mpr hc⟩) hacked hclear hruns
  refine ⟨_, hexec, ?_⟩
  have hblock := s.withArrival_block tn L kind b
  have hteam := s.withArrival_team tn L kind b
  have hbar : ((s.withArrival tn L kind b).block T.block).bar b = (k.bar b).arrive th (T.lane L).gave := by
    rw [hblock, Block.bar_setBar_self]
    rfl
  refine ⟨?state, ?block, fun i hi => ?arr, ?ph, ?last, ?clock, fun c hc => ?others, ?team, fun M hM => ?lanes, ?lane⟩
  case state =>
    rw [hblock, hteam]
    unfold State.withArrival
    split <;> rfl
  case block => rw [hblock]; rfl
  case arr => rw [hbar]; exact Barrier.getLsbD_arrive _ _ _ hi
  case ph | last | clock => rw [hbar]; rfl
  case others => rw [hblock]; exact (Block.bar_setBar _ _ _ _).trans (if_neg hc)
  case team => rw [hteam]; rfl
  case lanes => rw [hteam, Team.refresh_lane, Team.lane_setLane, if_neg hM]
  case lane => rw [hteam, Team.refresh_lane, Team.lane_setLane_self]; rfl

/-! ### A phase completes (16 R367) -/

/-- The lane waits for the phase of barrier `bar`. -/
def Lane.waitsPhase (l : Lane) (bar : Nat) : Prop := l.st = .waiting (.phase bar) ∨ l.st = .waiting (.barWait bar)

theorem Team.mem_atBar (t : Team) (bar L : Nat) : L ∈ t.atBar bar ↔ L < 64 ∧ (t.lane L).waitsPhase bar := by
  rw [Team.atBar, List.mem_filter, mem_laneList, Lane.waitsAt, Lane.waitsPhase]
  refine and_congr_right fun _ => ?_
  cases (t.lane L).st with
  | ready | exited => simp
  | waiting w => cases w <;> simp

theorem Team.atBar_nodup (t : Team) (bar : Nat) : (t.atBar bar).Nodup := laneList_nodup.filter _

theorem State.barComplete_iff (s : State) (b bar : Nat) : s.barComplete b bar = true ↔
    ((s.block b).bar bar).arr ≠ 0 ∧ ∀ tn ∈ (s.block b).teams, ∀ L, L < 64 → ((s.team tn).lane L).st ≠ .exited →
      ((s.block b).bar bar).arr.getLsbD (64 * (s.team tn).index + L) = true := by
  simp only [State.barComplete, Bool.and_eq_true, bne_iff_ne, List.all_eq_true, Team.live, List.mem_filter, mem_laneList,
    Lane.isExited, Bool.not_eq_true', beq_eq_false_iff_ne, Barrier.arrived, Team.thread, and_imp]

/-- A team whose waiters at barrier `bar` leave it, having learnt `clock`. -/
def Team.leaveBar (t : Team) (bar : Nat) (clock : SMap Nat) : Team :=
  if clock = [] then t.freeBar bar
  else (t.freeBar bar).mapLanes (t.atBar bar) fun _ l => { l with know := l.know.join clock }

section
variable (t : Team) (bar : Nat) (clock : SMap Nat)

theorem Team.freeBar_lane (L : Nat) : (t.freeBar bar).lane L = if L ∈ t.atBar bar then (t.lane L).release 1 else t.lane L := by
  unfold Team.freeBar
  dsimp only
  split
  · next hnone => simp [hnone]
  · exact Team.mapLanes_lane t _ _ (t.atBar_nodup bar) L

theorem Team.freeBar_insns (h : t.atBar bar ≠ []) : (t.freeBar bar).insns = 0 := by
  rw [Team.freeBar, if_neg h]

theorem Team.freeBar_vreg (L n : Nat) : (t.freeBar bar).vreg L n = t.vreg L n := by
  unfold Team.freeBar
  dsimp only
  split
  · rfl
  · exact Team.mapLanes_vreg t _ _ L n

theorem Team.leaveBar_lane (L : Nat) : (t.leaveBar bar clock).lane L =
    if L ∈ t.atBar bar then { (t.lane L).release 1 with know := (t.lane L).know.join clock } else t.lane L := by
  unfold Team.leaveBar
  split
  · next hclock =>
    subst hclock
    exact t.freeBar_lane bar L
  · rw [Team.mapLanes_lane _ _ _ (t.atBar_nodup bar), Team.freeBar_lane]
    split <;> rfl

theorem Team.leaveBar_insns (h : t.atBar bar ≠ []) : (t.leaveBar bar clock).insns = 0 := by
  unfold Team.leaveBar
  split
  · exact t.freeBar_insns bar h
  · rw [Team.mapLanes_eq]
    exact t.freeBar_insns bar h

theorem Team.leaveBar_vreg (L n : Nat) : (t.leaveBar bar clock).vreg L n = t.vreg L n := by
  unfold Team.leaveBar
  split
  · exact t.freeBar_vreg bar L n
  · exact (Team.mapLanes_vreg _ _ _ L n).trans (t.freeBar_vreg bar L n)

end

/-- One team's waiters leave the barrier. -/
def State.teamLeavesBar (bar : Nat) (clock : SMap Nat) (s : State) (tn : Nat) : State :=
  (s.setTeam tn ((s.team tn).freeBar bar)).learnNow tn ((s.team tn).atBar bar) clock

theorem State.teamLeavesBar_eq (bar : Nat) (clock : SMap Nat) (s : State) (tn : Nat) :
    s.teamLeavesBar bar clock tn = s.setTeam tn ((s.team tn).leaveBar bar clock) := by
  unfold State.teamLeavesBar State.learnNow Team.leaveBar
  split
  · rfl
  · rw [State.team_setTeam_self, State.setTeam_setTeam]

/-- The state once the phase of barrier `bar` has completed, but for the discard of the core's words. -/
def State.phaseDone (s : State) (b bar : Nat) : State :=
  let k := s.block b
  let x := k.bar bar
  k.teams.foldl (State.teamLeavesBar bar x.clock) (s.setBlock b (k.setBar bar { arr := 0, ph := x.ph + 1, last := x.clock }))

theorem State.checkBar_of_incomplete {s : State} {b bar : Nat} (h : s.barComplete b bar = false) : s.checkBar b bar = s := by
  simp [State.checkBar, h]

theorem State.teamLeavesBar_blocks (bar : Nat) (clock : SMap Nat) (s : State) (tn : Nat) :
    (s.teamLeavesBar bar clock tn).blocks = s.blocks := by
  rw [State.teamLeavesBar_eq]
  rfl

section
variable (s : State) (b bar : Nat)

/-- Its state but for blocks and teams is that before. -/
theorem State.phaseDone_rest : { s.phaseDone b bar with blocks := s.blocks, teams := s.teams } = s :=
  foldl_keeps (fun t : State => { t with blocks := s.blocks, teams := s.teams }) fun t tn => by
    rw [State.teamLeavesBar_eq]
    rfl

theorem State.phaseDone_eq : s.phaseDone b bar =
    { s with blocks := (s.phaseDone b bar).blocks, teams := (s.phaseDone b bar).teams } :=
  congrArg (fun u : State => { u with blocks := (s.phaseDone b bar).blocks, teams := (s.phaseDone b bar).teams })
    (s.phaseDone_rest b bar)

theorem State.phaseDone_block (c : Nat) : (s.phaseDone b bar).block c =
    if c = b then (s.block b).setBar bar
      { arr := 0, ph := ((s.block b).bar bar).ph + 1, last := ((s.block b).bar bar).clock } else s.block c := by
  rw [State.block, State.phaseDone, foldl_keeps State.blocks (State.teamLeavesBar_blocks _ _)]
  exact State.block_setBlock _ _ _ _

theorem State.phaseDone_team (hn : (s.block b).teams.Nodup) (tn : Nat) : (s.phaseDone b bar).team tn =
    if tn ∈ (s.block b).teams then (s.team tn).leaveBar bar ((s.block b).bar bar).clock else s.team tn := by
  have hstep : ∀ (t : State) (a c : Nat), (t.teamLeavesBar bar ((s.block b).bar bar).clock a).team c =
      if c = a then (t.team a).leaveBar bar ((s.block b).bar bar).clock else t.team c := fun t a c => by
    rw [State.teamLeavesBar_eq, State.team_setTeam]
  rw [State.phaseDone, foldl_visits State.team (fun _ T => T.leaveBar bar ((s.block b).bar bar).clock) _ hstep _ hn,
    State.team_setBlock]

theorem State.phaseDone_det : (s.phaseDone b bar).det b = s.det b := by
  have hrun : ((s.phaseDone b bar).block b).run = (s.block b).run := by
    rw [State.phaseDone_block, if_pos rfl, Block.setBar]
  have hruns : (s.phaseDone b bar).runs = s.runs := by
    have hrest := congrArg State.runs (s.phaseDone_rest b bar)
    exact hrest
  unfold State.det
  rw [hrun, State.run, hruns, State.run]

end

/-- Outside deterministic mode the check completes a phase that is due, which is an acquire of the block's core. -/
theorem State.checkBar_of_complete {s : State} {b bar : Nat} (hdet : s.det b = false) (h : s.barComplete b bar = true) :
    s.checkBar b bar = (s.phaseDone b bar).acquire (s.block b).core := by
  have hdet' : ((s.phaseDone b bar).acquire (s.block b).core).det b = false := (s.phaseDone_det b bar).trans hdet
  unfold State.checkBar
  simp only [h, hdet, Bool.not_true, Bool.false_and, Bool.or_false, Bool.false_eq_true, if_false]
  exact if_neg (by rw [← Bool.not_eq_true] at hdet'; exact hdet')

/-- Settles O32: the phase is due by `State.barComplete_iff`, and its completion is `State.checkBar_of_complete`. -/
theorem barrierRelease : Obligations.BarrierRelease := by
  unfold Obligations.BarrierRelease
  intro s b bar k x due t hdet hn
  refine ⟨fun hno => State.checkBar_of_incomplete ?no, fun hyes => ?yes⟩
  case no => rw [← Bool.not_eq_true, State.barComplete_iff]; exact hno
  case yes =>
    have ht : t = (s.phaseDone b bar).acquire k.core := State.checkBar_of_complete hdet ((s.barComplete_iff b bar).mpr hyes)
    have hblock : ∀ c, t.block c = (s.phaseDone b bar).block c := fun c => by rw [ht]; rfl
    have hteam : ∀ tn, t.team tn = (s.phaseDone b bar).team tn := fun tn => by rw [ht]; rfl
    refine ⟨?block, ?state, fun c hc => ?others, fun tn htn => ?outside, fun tn htn => ?inside⟩
    case block => rw [hblock, State.phaseDone_block, if_pos rfl]
    case state => rw [ht, State.phaseDone_eq]; rfl
    case others => rw [hblock, State.phaseDone_block, if_neg hc]
    case outside => rw [hteam, State.phaseDone_team s b bar hn, if_neg htn]
    case inside =>
      intro waits
      have hleaves : t.team tn = (s.team tn).leaveBar bar x.clock := by rw [hteam, State.phaseDone_team s b bar hn, if_pos htn]
      have hwaits : ∀ L, waits L ↔ L ∈ (s.team tn).atBar bar := fun L => (Team.mem_atBar _ _ _).symm
      rw [hleaves]
      refine ⟨fun L hL => ?gone, fun L hL => ?kept, fun ⟨L, hL⟩ => ?insns, fun L n => Team.leaveBar_vreg _ _ _ _ _⟩
      case gone => rw [Team.leaveBar_lane, if_pos ((hwaits L).mp hL)]; rfl
      case kept => rw [Team.leaveBar_lane, if_neg (mt (hwaits L).mpr hL)]
      case insns => exact Team.leaveBar_insns _ _ _ (List.ne_nil_of_mem ((hwaits L).mp hL))

end Sys2Proof.Machine
end

section
/-! PROOFS of the statement of WAITB (O34). -/
namespace Sys2Proof.Machine
open Sys2Proof.Claims

theorem filter_map_lane {α : Type} (ls : List Nat) (g : Nat → α) (p : Nat × α → Bool) :
    (ls.map fun L => (L, g L)).filter p = (ls.filter fun L => p (L, g L)).map fun L => (L, g L) := List.filter_map

theorem filterMap_ite {α β : Type} (ls : List α) (p : α → Prop) [DecidablePred p] (f : α → β) :
    (ls.filterMap fun x => if p x then some (f x) else none) = (ls.filter fun x => decide (p x)).map f := by
  induction ls with
  | nil => rfl
  | cons x r ih => by_cases h : p x <;> simp [h, ih]

/-- A barrier address that passes the checks of a 16-byte read stands in the vault window. -/
theorem State.vaultAddr_of_checkThread {s : State} {tn L a : Nat} {p : Nat × Nat} (hwin : a / 2 ^ 56 = 1)
    (hlast : (a + 15) / 2 ^ 56 = 1) (halign : a % 16 = 0)
    (hcheck : s.checkThread tn L .read a 16 16 = .ok (.vault p.1 p.2)) : (natBits a 31 24, natBits a 23 0) = p := by
  have haccess : s.checkAccess (s.agentOf tn L) .read a 16 16 = s.resolve (s.agentOf tn L) .read a 16 := by
    rw [s.checkAccess_of_window _ _ _ (by omega) (by rw [hwin, show a + 16 - 1 = a + 15 from rfl, hlast]), if_neg (by simp [halign])]
  have htarget : ∀ {c o : Nat}, (Except.ok (Target.vault c o) : Except FaultInfo Target) = .ok (.vault p.1 p.2) → (c, o) = p :=
      fun heq => by
    obtain ⟨hc, ho⟩ := Target.vault.inj (Except.ok.inj heq)
    exact Prod.ext hc ho
  unfold State.checkThread at hcheck
  simp only [haccess] at hcheck
  cases hbad : firstBad (s.vaultBad (s.agentOf tn L)) a 16 with
  | some b =>
    rw [s.resolve_of_vaultbound hwin (by decide) hbad] at hcheck
    cases hcheck
  | none =>
    rw [s.resolve_of_vault hwin (by decide) hbad] at hcheck
    dsimp only at hcheck
    split at hcheck
    · exact htarget hcheck
    · split at hcheck
      · cases hcheck
      · split at hcheck
        · cases hcheck
        · exact htarget hcheck

theorem frontChecks_of_vault {a : Nat} (hwin : a / 2 ^ 56 = 1) (hlast : (a + 15) / 2 ^ 56 = 1) (halign : a % 16 = 0) :
    frontChecks a 16 16 = none ∧ windowOf a = 1 := by
  have h1 : windowOf a = 1 := (windowOf_of_lt (by omega)).trans hwin
  have h2 : windowOf (a + 16 - 1) = 1 := (windowOf_of_lt (by omega)).trans hlast
  refine ⟨?_, h1⟩
  rw [frontChecks, h1, h2, if_neg (by decide), if_neg (by simp; omega), if_neg (by simp [halign])]

/-- Where the barrier object at an address stands, or the fault of the address. -/
def State.barrierAt (s : State) (tn L a : Nat) : Except FaultInfo (Nat × Nat) :=
  match frontChecks a 16 16 with
  | some e => .error e
  | none =>
    if windowOf a ≠ 1 then .error (.at codeVaultbound 0 a)
    else match s.checkThread tn L .read a 16 16 with
      | .error e => .error e
      | .ok _ => .ok (natBits a 31 24, natBits a 23 0)

theorem State.barrierAt_of_checkThread {s : State} {tn L a : Nat} {p : Nat × Nat} (hwin : a / 2 ^ 56 = 1)
    (hlast : (a + 15) / 2 ^ 56 = 1) (halign : a % 16 = 0)
    (hcheck : s.checkThread tn L .read a 16 16 = .ok (.vault p.1 p.2)) : s.barrierAt tn L a = .ok p := by
  obtain ⟨hfront, hone⟩ := frontChecks_of_vault hwin hlast halign
  rw [← State.vaultAddr_of_checkThread hwin hlast halign hcheck]
  simp only [State.barrierAt, hfront, hone, hcheck, ne_eq, not_true_eq_false, if_false]

section
variable (s : State) (iss : Issue) (at' : Nat → Nat × Nat)

/-- A field of the barrier of lane `L`. -/
def barrierField (L off : Nat) : Nat := s.bfield (at' L).1 (at' L).2 off

/-- The Active lanes whose barriers have PEND 0, those of them whose error flag is set, and those of them that read PHASE. -/
def passedLanes : List Nat := (actives s iss).filter fun L => barrierField s at' L 0 == 0
def failedLanes : List Nat := (passedLanes s iss at').filter fun L => decide (2 ^ 31 ≤ barrierField s at' L 4)
def phaseLanes : List Nat := (passedLanes s iss at').filter fun L => decide (barrierField s at' L 4 < 2 ^ 31)
/-- The Active lanes that wait. -/
def pendLanes : List Nat := (actives s iss).filter fun L => barrierField s at' L 0 != 0

/-- The fault of a barrier whose error flag is set. -/
def nmvFault (L : Nat) : FaultInfo :=
  { code := 0x1B, addr := BitVec.ofNat 64 (barrierField s at' L 12), info := BitVec.ofNat 32 (barrierField s at' L 8) }

/-- The team once the lanes that read PHASE have done so. -/
def phasesRead (d : Nat) : Team :=
  (phaseLanes s iss at').foldl (fun t L => t.setV L d (BitVec.ofNat 32 (barrierField s at' L 4))) (s.team iss.team)

/-- The state once the barriers that WAITB has passed are marked, an acquire, but for registers. -/
def State.barriersPassed : State :=
  if (passedLanes s iss at').isEmpty then s
  else ({ s with marks := (passedLanes s iss at').foldl (fun m L => SMap.set m 0 (barrierMark (at' L).1 (at' L).2) 1) s.marks } :
    State).acquire (s.team iss.team).core

/-- The effect of WAITB into register `d`. -/
def troughEffect (d : Nat) : Effect :=
  { st := (s.barriersPassed iss at').setTeam iss.team (phasesRead s iss at' d)
    faults := (failedLanes s iss at').map fun L => (L, nmvFault s at' L)
    waits := (pendLanes s iss at').map fun L => (L, .trough d (at' L).1 (at' L).2) }

end

/-- What WAITB into register `d` does with the lanes' barriers, or the faults of their addresses. -/
def barriersEffect (s : State) (iss : Issue) (d : Nat) (found : List (Nat × Except FaultInfo (Nat × Nat))) : Effect :=
  let bad := found.filterMap fun x => match x.2 with | .error e => some (x.1, e) | .ok _ => none
  let ok := found.filterMap fun x => match x.2 with | .ok p => some (x.1, p) | .error _ => none
  let wait := ok.filter fun x => s.bfield x.2.1 x.2.2 0 != 0
  let now := ok.filter fun x => s.bfield x.2.1 x.2.2 0 == 0
  let err := now.filterMap fun x =>
    if 2 ^ 31 ≤ s.bfield x.2.1 x.2.2 4 then
      some (x.1, ({ code := 0x1B, addr := BitVec.ofNat 64 (s.bfield x.2.1 x.2.2 12),
                    info := BitVec.ofNat 32 (s.bfield x.2.1 x.2.2 8) } : FaultInfo))
    else none
  let done := now.filter fun x => s.bfield x.2.1 x.2.2 4 < 2 ^ 31
  let s' := s.setTeam iss.team
    (done.foldl (fun t x => t.setV x.1 d (BitVec.ofNat 32 (s.bfield x.2.1 x.2.2 4))) (s.team iss.team))
  let passed : State := { s' with marks := now.foldl (fun m x => SMap.set m 0 (barrierMark x.2.1 x.2.2) 1) s'.marks }
  { st := if now.isEmpty then s' else passed.acquire (s.team iss.team).core, faults := bad ++ err
    waits := wait.map fun x => (x.1, .trough d x.2.1 x.2.2) }

/-- With no address that fails, it is the effect on the barriers. -/
theorem barriersEffect_ok (s : State) (iss : Issue) (d : Nat) (at' : Nat → Nat × Nat) :
    barriersEffect s iss d ((actives s iss).map fun L => (L, .ok (at' L))) = troughEffect s iss at' d := by
  have hbad : ((actives s iss).map fun L => (L, (Except.ok (at' L) : Except FaultInfo (Nat × Nat)))).filterMap
      (fun x => match x.2 with | .error e => some (x.1, e) | .ok _ => none) = [] := filterMap_map_eq_nil fun _ _ => rfl
  have hok : ((actives s iss).map fun L => (L, (Except.ok (at' L) : Except FaultInfo (Nat × Nat)))).filterMap
      (fun x => match x.2 with | .ok p => some (x.1, p) | .error _ => none) = (actives s iss).map fun L => (L, at' L) :=
    filterMap_map_eq_map fun _ _ => rfl
  simp only [barriersEffect, hbad, hok, filter_map_lane, filterMap_ite, List.map_map, List.foldl_map, List.isEmpty_map, List.nil_append]
  have hst : ∀ T : Team, (s.barriersPassed iss at').setTeam iss.team T =
      if (passedLanes s iss at').isEmpty then s.setTeam iss.team T
      else ({ s.setTeam iss.team T with
        marks := (passedLanes s iss at').foldl (fun m L => SMap.set m 0 (barrierMark (at' L).1 (at' L).2) 1) s.marks } : State).acquire
        (s.team iss.team).core := fun T => by
    unfold State.barriersPassed
    split <;> rfl
  rw [troughEffect, hst]
  rfl

theorem phasesRead_vreg (s : State) (iss : Issue) (at' : Nat → Nat × Nat) {d : Nat} (hd : d < 512) (L : Nat) {n : Nat} (hn : n < 512) :
    (phasesRead s iss at' d).vreg L n =
      if L ∈ phaseLanes s iss at' ∧ n = d then BitVec.ofNat 32 (barrierField s at' L 4) else (s.team iss.team).vreg L n :=
  Team.fold_setV (fun _ => d) (fun L => BitVec.ofNat 32 (barrierField s at' L 4)) _ _
    (((actives_nodup s iss).filter _).filter _) (fun _ _ => hd) L n hn

section
variable {s : State} {iss : Issue} {at' : Nat → Nat × Nat} {o : S32}

/-- WAITB of lanes whose barrier addresses pass the checks. -/
theorem execWaitb_of_issued (h : Issued s iss (.waitb o)) (hat : ∀ L, Act s iss L →
      let a := (op64 s iss (.waitb o) 1 L).toNat
      a / 2 ^ 56 = 1 ∧ (a + 15) / 2 ^ 56 = 1 ∧ a % 16 = 0 ∧
        s.checkThread iss.team L .read a 16 16 = .ok (.vault (at' L).1 (at' L).2)) :
    exec (.waitb o) s = .next (s.finish iss [] (troughEffect s iss at' o.d.toNat)) := by
  have hrun : exec (.waitb o) s = execWaitb o s := rfl
  rw [hrun, execWaitb, runInstr_of_issued h, ← barriersEffect_ok]
  refine congrArg (fun e => Host.Outcome.next (s.finish iss [] e)) ?_
  refine congrArg (barriersEffect s iss o.d.toNat) (List.map_congr_left fun L hL => ?_)
  obtain ⟨hwin, hlast, halign, hcheck⟩ := hat L hL
  exact congrArg (Prod.mk L) (State.barrierAt_of_checkThread hwin hlast halign hcheck)

/-- What WAITB does, once no barrier address fails. -/
theorem does_of_trough (hexec : exec (.waitb o) s = .next (s.finish iss [] (troughEffect s iss at' o.d.toNat))) :
    Does (.waitb o) s iss (s.barriersPassed iss at') ((failedLanes s iss at').map fun L => (L, nmvFault s at' L)) exceptRegs
      (fun L l => if L ∈ pendLanes s iss at' then waitsFor (.trough o.d.toNat (at' L).1 (at' L).2) l else goneOn iss l)
      (fun t => (∀ L, L ∈ phaseLanes s iss at' → (t.team iss.team).vreg L o.d.toNat = BitVec.ofNat 32 (barrierField s at' L 4)) ∧
        RegsKept s t iss fun L n => L ∈ phaseLanes s iss at' ∧ n = o.d.toNat) id := by
  have hregs : VectorsOnly (s.team iss.team) (phasesRead s iss at' o.d.toNat) := VectorsOnly.foldl (fun _ _ => ⟨_, _, rfl⟩) _
  obtain ⟨v, z, hvz⟩ := hregs
  have hteam : (s.barriersPassed iss at').team iss.team = s.team iss.team := by
    unfold State.barriersPassed
    split <;> rfl
  have hvreg : ∀ L n, n < 512 → ((((troughEffect s iss at' o.d.toNat).st.team iss.team).issuedBut iss
      (troughEffect s iss at' o.d.toNat) (troughEffect s iss at' o.d.toNat).faults).vreg L n) =
      if L ∈ phaseLanes s iss at' ∧ n = o.d.toNat then BitVec.ofNat 32 (barrierField s at' L 4)
      else (s.team iss.team).vreg L n := fun L n hn => by
    rw [← phasesRead_vreg s iss at' o.d.isLt L hn, Team.issuedBut_eq, troughEffect, State.team_setTeam_self]
    rfl
  refine does_of_from hexec
    (((actives_ascending s iss).filter _ |>.filter _).map _ fun _ _ hlt => hlt) (fun x hx => ?code) rfl
    (Effect.from_setTeam rfl (by rw [hteam, hvz]; rfl) (by rw [hteam, hvz]) fun _ => by rw [hteam, hvz]; rfl)
    (fun L _ _ l => Lane.after_waits l iss rfl (lookup_map_lane _ (fun M => Wait.trough o.d.toNat (at' M).1 (at' M).2) L))
    ⟨fun L hL => ?phase, fun L n _ hn hd => ?kept⟩
  case code =>
    obtain ⟨L, -, rfl⟩ := List.mem_map.mp hx
    exact show (0x1B : Nat) ≠ 0 by decide
  case phase =>
    rw [State.team_setTeam_self, hvreg L _ o.d.isLt, if_pos ⟨hL, rfl⟩]
  case kept =>
    rw [State.team_setTeam_self, hvreg L n hn, if_neg hd]

end

/-- Settles O34: with the addresses' checks passed WAITB is `does_of_trough`. -/
theorem troughWaits : Obligations.TroughWaits := by
  unfold Obligations.TroughWaits
  intro o s iss at' h i a fld d hat over' bad fault fs core
  have hdoes := does_of_trough (execWaitb_of_issued h hat)
  have hover : ∀ L, (barrierField s at' L 0 == 0) = over' L := fun _ => rfl
  have hpend : ∀ L, L ∈ pendLanes s iss at' ↔ Act s iss L ∧ over' L = false := fun L => by
    rw [pendLanes, List.mem_filter, bne, hover, Bool.not_eq_true']
  have hlow : ∀ L, over' L = true → (bad L = false ↔ barrierField s at' L 4 < 2 ^ 31) := fun L hL => by
    simp only [bad, hL, Bool.true_and, decide_eq_false_iff_not, Nat.not_le]
    rfl
  have hphase : ∀ L n, (L ∈ phaseLanes s iss at' ∧ n = d) ↔ Act s iss L ∧ over' L = true ∧ bad L = false ∧ n = d := fun L n => by
    rw [phaseLanes, passedLanes, List.mem_filter, List.mem_filter, decide_eq_true_eq, hover, and_assoc, and_assoc]
    exact and_congr_right fun _ => and_congr_right fun hL => and_congr_left fun _ => (hlow L hL).symm
  have hfailed : (failedLanes s iss at').map (fun L => (L, nmvFault s at' L)) = fs := by
    rw [failedLanes, passedLanes, List.filter_filter]
    exact congrArg (List.map _) (List.filter_congr fun L _ => Bool.and_comm _ _)
  have hst : s.barriersPassed iss at' = if (actives s iss).any over' then
      { s with l1 := s.l1.filter fun e => e.core != core || e.owned, marks := ((actives s iss).filter over').foldl
                 (fun m L => SMap.set m 0 (barrierMark (at' L).1 (at' L).2) 1) s.marks } else s := by
    have hempty : (passedLanes s iss at').isEmpty = !(actives s iss).any over' := by
      rw [Bool.eq_iff_iff]
      simp [passedLanes, hover]
    unfold State.barriersPassed
    rw [hempty]
    cases (actives s iss).any over' <;> rfl
  rw [hst, hfailed] at hdoes
  simp only [hpend] at hdoes
  obtain ⟨t, hexec, hframe, hread, hkept⟩ := hdoes
  exact ⟨t, hexec, hframe, fun L hL hyes hno => hread L ((hphase L d).mpr ⟨hL, hyes, hno, rfl⟩).1,
    fun L n hL hn hd => hkept L n hL hn (mt (hphase L n).mp hd)⟩

end Sys2Proof.Machine
end

section
/-! PROOFS of the statements of the matrix engine (O39, O40): products into accumulator slots, and the rows that MXRD and MXST read of
them; MXSKIP. -/
namespace Sys2Proof.Machine
open Sys2Proof.Claims

/-! ### Accumulator slots (14 R329, R334) -/

theorem Team.elem_setElem (t : Team) {slot i n c r m : Nat} (e : AccElem) (hi : i < 32) (hn : n < 32) (hr : r < 32) (hm : m < 32) :
    (t.setElem slot i n e).elem c r m = if c = slot ∧ r = i ∧ m = n then e else t.elem c r m := by
  have hkey : (1024 * c + 32 * r + m = 1024 * slot + 32 * i + n) = (c = slot ∧ r = i ∧ m = n) := propext (by omega)
  unfold Team.setElem Team.elem
  rw [SMap.get_set]
  exact if_congr (iff_of_eq hkey) rfl rfl

theorem Team.elem_clearAcc (t : Team) (slot c : Nat) {r m : Nat} (hr : r < 32) (hm : m < 32) :
    (t.clearAcc slot).elem c r m = if c = slot then {} else t.elem c r m := by
  have hkey : (1024 * c + 32 * r + m) / 1024 = c := by omega
  unfold Team.clearAcc Team.elem
  rw [SMap.get_filter_key t.acc {} (fun k => k / 1024 != slot), hkey]
  by_cases h : c = slot <;> simp [h]

/-- The team with its slot cleared where an instruction says so. -/
def Team.clearIf (t : Team) (z : Bool) (slot : Nat) : Team := if z then t.clearAcc slot else t

theorem Team.elem_clearIf (t : Team) (z : Bool) (slot c : Nat) {r m : Nat} (hr : r < 32) (hm : m < 32) :
    (t.clearIf z slot).elem c r m = if z = true ∧ c = slot then {} else t.elem c r m := by
  unfold Team.clearIf
  cases z with
  | false => simp
  | true => simp [Team.elem_clearAcc t slot c hr hm]

/-- Only accumulators differ. -/
def AccOnly (T T' : Team) : Prop := ∃ acc, T' = { T with acc := acc }

theorem accOnly_clearIf (t : Team) (z : Bool) (slot : Nat) : AccOnly t (t.clearIf z slot) := by
  unfold Team.clearIf
  split
  · exact ⟨_, rfl⟩
  · exact ⟨_, rfl⟩

theorem State.countEvents_setTeam (s : State) (tn b : Nat) (T : Team) (es : List Nat) :
    (s.setTeam tn T).countEvents b es = (s.countEvents b es).setTeam tn T := by
  cases es <;> rfl

theorem State.team_countEvents (s : State) (b : Nat) (es : List Nat) (tn : Nat) : (s.countEvents b es).team tn = s.team tn := by
  cases es <;> rfl

/-- An effect on accumulators alone. -/
theorem does_of_accOnly {i : Instr} {s u : State} {iss : Issue} {T : Team} {also : State → Prop}
    (hexec : exec i s = .next (s.finish iss [] { st := u.setTeam iss.team T })) (hacc : AccOnly (u.team iss.team) T)
    (halso : ∀ t : State, (∀ c r n, (t.team iss.team).elem c r n = T.elem c r n) → also t) :
    Does i s iss u [] (fun t => { t with acc := [] }) (fun _ l => goneOn iss l) also id := by
  obtain ⟨acc, rfl⟩ := hacc
  refine does_of_clean hexec rfl rfl (Effect.from_setTeam rfl rfl rfl fun _ => rfl) (fun _ _ _ => rfl)
    (halso _ fun c r n => ?_)
  rw [State.team_setTeam_self, Team.issuedBut_eq, State.team_setTeam_self]
  rfl

/-! ### Products (14 R333) -/

/-- One element of a product: it and the events so far after element `e`. -/
def productStep (slot : Nat) (sum : AccElem → Nat → Nat → AccElem × List Nat) (fmt : Nat) (acc : Team × List Nat) (e : Nat) :
    Team × List Nat :=
  let x := sum (acc.1.elem slot (e / 32) (e % 32)) (e / 32) (e % 32)
  (acc.1.setElem slot (e / 32) (e % 32) x.1, acc.2 ++ eventIndex fmt (firstMark x.2))

section
variable (slot : Nat) (sum : AccElem → Nat → Nat → AccElem × List Nat) (fmt : Nat) (t : Team)

/-- After `N` elements the first `N` of the slot hold their sums, and their events are listed. -/
theorem products_elem (N : Nat) (hN : N ≤ 1024) {c r n : Nat} (hr : r < 32) (hn : n < 32) :
    ((List.range N).foldl (productStep slot sum fmt) (t, [])).1.elem c r n =
      if c = slot ∧ 32 * r + n < N then (sum (t.elem slot r n) r n).1 else t.elem c r n := by
  induction N generalizing c r n with
  | zero => simp
  | succ N ih =>
    have hdiv : N / 32 < 32 := by omega
    have hmod : N % 32 < 32 := by omega
    rw [List.range_succ, List.foldl_append, List.foldl_cons, List.foldl_nil, productStep,
      Team.elem_setElem _ _ hdiv hmod hr hn, ih (by omega) hr hn, ih (by omega) hdiv hmod,
      if_neg (show ¬ (slot = slot ∧ 32 * (N / 32) + N % 32 < N) by omega)]
    by_cases hc : c = slot
    · by_cases hat : r = N / 32 ∧ n = N % 32
      · obtain ⟨rfl, rfl⟩ := hat
        rw [if_pos ⟨hc, rfl, rfl⟩, if_pos ⟨hc, by omega⟩]
      · rw [if_neg fun h => hat h.2]
        exact if_congr (and_congr_right fun _ => by omega) rfl rfl
    · rw [if_neg fun h => hc h.1, if_neg fun h => hc h.1, if_neg fun h => hc h.1]

theorem products_events (N : Nat) (hN : N ≤ 1024) : ((List.range N).foldl (productStep slot sum fmt) (t, [])).2 =
    (List.range N).flatMap fun e => eventIndex fmt (firstMark (sum (t.elem slot (e / 32) (e % 32)) (e / 32) (e % 32)).2) := by
  induction N with
  | zero => rfl
  | succ N ih =>
    rw [List.range_succ, List.foldl_append, List.foldl_cons, List.foldl_nil, productStep, ih (by omega),
      products_elem slot sum fmt t N (by omega) (by omega) (by omega),
      if_neg (show ¬ (slot = slot ∧ 32 * (N / 32) + N % 32 < N) by omega), List.flatMap_append, List.flatMap_singleton]

theorem products_accOnly (ls : List Nat) (es : List Nat) : AccOnly t (ls.foldl (productStep slot sum fmt) (t, es)).1 := by
  induction ls generalizing t es with
  | nil => exact ⟨_, rfl⟩
  | cons e r ih =>
    obtain ⟨acc, h⟩ := ih (t.setElem slot (e / 32) (e % 32)
      (sum (t.elem slot (e / 32) (e % 32)) (e / 32) (e % 32)).1) _
    exact ⟨acc, h⟩

end

/-- The sum of an element of a product. -/
def productSum (c : Ctx) (shape f : Nat) (b : Nat → Nat → Num) (x : AccElem) (i n : Nat) : AccElem × List Nat :=
  accumulateAll x (BitVec.ofNat 8 (natBits f 15 8)).toInt
    ((List.range (shapeK shape)).map fun k => (fragElem c (opReg c.team 0 c.form 1) shape (natBits f 3 0) i k, b k n))

/-- The team and the events of a product. -/
def productOf (c : Ctx) (shape : Nat) (z : Bool) (f : Nat) (b : Nat → Nat → Num) : Team × List Nat :=
  (List.range 1024).foldl (productStep c.form.d.field.toNat (productSum c shape f b) (markFmt (natBits f 3 0) (natBits f 7 4)))
    (c.team.clearIf z c.form.d.field.toNat, [])

section
variable (c : Ctx) (shape : Nat) (z : Bool) (f : Nat) (b : Nat → Nat → Num)

theorem productOf_elem (a : Nat) {r n : Nat} (hr : r < 32) (hn : n < 32) : (productOf c shape z f b).1.elem a r n =
    if a = c.form.d.field.toNat then (productSum c shape f b (if z then {} else c.team.elem a r n) r n).1 else c.team.elem a r n := by
  rw [productOf, products_elem _ _ _ _ 1024 (le_refl _) hr hn, Team.elem_clearIf _ _ _ _ hr hn, Team.elem_clearIf _ _ _ _ hr hn]
  by_cases ha : a = c.form.d.field.toNat
  · rw [if_pos ⟨ha, by omega⟩, if_pos ha, ha]
    simp
  · rw [if_neg fun h => ha h.1, if_neg fun h => ha h.2, if_neg ha]

theorem productOf_events : (productOf c shape z f b).2 = (List.range 1024).flatMap fun e =>
    eventIndex (markFmt (natBits f 3 0) (natBits f 7 4)) (firstMark
      (productSum c shape f b (if z then {} else c.team.elem c.form.d.field.toNat (e / 32) (e % 32)) (e / 32) (e % 32)).2) := by
  rw [productOf, products_events _ _ _ _ 1024 (le_refl _)]
  refine List.flatMap_congr fun e he => ?_
  have hlt : e < 1024 := List.mem_range.mp he
  rw [Team.elem_clearIf _ _ _ _ (by omega) (by omega)]
  simp

theorem productOf_accOnly : AccOnly c.team (productOf c shape z f b).1 := by
  obtain ⟨acc, hclear⟩ := accOnly_clearIf c.team z c.form.d.field.toNat
  obtain ⟨acc', hprod⟩ := products_accOnly c.form.d.field.toNat (productSum c shape f b)
    (markFmt (natBits f 3 0) (natBits f 7 4)) (c.team.clearIf z c.form.d.field.toNat) (List.range 1024) []
  exact ⟨acc', hprod.trans (by rw [hclear])⟩

end

theorem State.product_eq (s : State) (c : Ctx) (shape : Nat) (z : Bool) (f : Nat) (b : Nat → Nat → Num) :
    s.product c shape z f b =
      (s.countEvents c.team.block (productOf c shape z f b).2).setTeam c.iss.team (productOf c shape z f b).1 := by
  rw [← State.countEvents_setTeam]
  rfl

/-- An instruction whose effect is a product accumulates. -/
theorem multiplies_of_product {i : Instr} {s base : State} {iss : Issue} {shape : Nat} {z : Bool} {f : Word} {b : Nat → Nat → Num}
    (hteam : base.team iss.team = s.team iss.team)
    (hexec : exec i s = .next (s.finish iss [] { st := base.product (seen s iss i) shape z f.toNat b })) :
    Multiplies i s iss base shape z f (opReg (s.team iss.team) 0 i.form 1) b := by
  unfold Multiplies
  intro T slot old sum events
  have hst : base.product (seen s iss i) shape z f.toNat b = (base.countEvents T.block events).setTeam iss.team
      (productOf (seen s iss i) shape z f.toNat b).1 := by
    rw [State.product_eq, productOf_events]
    rfl
  have hsame : (base.countEvents T.block events).team iss.team = T := (State.team_countEvents _ _ _ _).trans hteam
  have hacc : AccOnly ((base.countEvents T.block events).team iss.team) (productOf (seen s iss i) shape z f.toNat b).1 :=
    hsame.symm ▸ productOf_accOnly (seen s iss i) shape z f.toNat b
  rw [hst] at hexec
  refine does_of_accOnly hexec hacc fun t ht => ⟨fun r n hr hn => ?slot, fun o r n ho hr hn => ?others⟩
  case slot => exact (ht slot r n).trans ((productOf_elem _ _ _ _ _ _ hr hn).trans (if_pos rfl))
  case others => exact (ht o r n).trans ((productOf_elem _ _ _ _ _ _ hr hn).trans (if_neg ho))

/-- The checks of the format word let an instruction pass (14 R331). -/
theorem fmtFault_of_passes {s : State} {iss : Issue} {i : Instr} {shape m : Nat} {f : Word} (h : FmtsPass s iss i shape f)
    (hm : Act s iss m) : fmtFault (seen s iss i) m shape = none ∧ rd32 (seen s iss i).team m (seen s iss i).form 3 = f := by
  obtain ⟨hsame, hhigh, hok⟩ := h
  have hword : ∀ L, Act s iss L → rd32 (seen s iss i).team L (seen s iss i).form 3 = f := hsame
  refine ⟨?_, hword m hm⟩
  have hall : (seen s iss i).act.any (fun L => rd32 (seen s iss i).team L (seen s iss i).form 3 != f) = false :=
    List.any_eq_false.mpr fun L hL => by rw [hword L hL]; simp
  simp only [fmtFault, hword m hm, hall, hhigh, hok, Bool.false_eq_true, if_false, bne_self_eq_false, Bool.not_true, Bool.or_self]

/-- MXM of each SHAPE accumulates the products of its fragments. -/
theorem multiplies_of_mxmInstr {i : Instr} {shape : Nat} {s : State} {iss : Issue} {m : Nat} {r : List Nat} {f : Word}
    (hx : exec i s = mxmInstr i shape s) (h : Issued s iss i) (hact : actives s iss = m :: r) (hf : FmtsPass s iss i shape f) :
    Multiplies i s iss s shape (i.form.imm.getLsbD 0) f (opReg (s.team iss.team) 0 i.form 1) fun k n =>
      fragElem (seen s iss i) (opReg (s.team iss.team) m i.form 2) shape (natBits f.toNat 7 4) n k := by
  obtain ⟨hnone, hword⟩ := fmtFault_of_passes hf (hact ▸ List.mem_cons_self)
  refine multiplies_of_product rfl ((exec_of_teamEffect hx h hact).trans ?_)
  simp only [hnone, hword]
  rfl

/-- A well-formed MXM.W names SHAPE 0, 1 or 2. -/
theorem mxmW_shape {o : L64} (h : (Instr.mxmW o).wf = true) : immBits o.imm 1 0 ≠ 3 := by
  have himm : (immBits o.imm 13 3 == 0 && immBits o.imm 1 0 ≠ 3) = true := Form.immOk_of_ok h
  simpa using (Bool.and_eq_true_iff.mp himm).2

theorem shapeFeature_of_lt {shape : Nat} (h : shape < 3) : shapeFeature shape = shape + 1 := by
  interval_cases shape <;> rfl

/-! ### MXM.W (14 R337) -/

/-- What MXM.W does with the next slot of the team's walk. -/
def tileEffect (s : State) (c : Ctx) (m : Nat) : Effect :=
  let n := c.team.core
  let w := (s.core n).walker
  let mine := w.owner == c.iss.team + 1
  let shape := immBits c.form.imm 1 0
  if mine && w.running && w.staged == [] then { st := s, stall := true }
  else match fmtFault c m shape with
  | some e => faultAll s c e
  | none =>
    let f := (rd32 c.team m c.form 3).toNat
    match (if mine then w.staged else []) with
    | [] => { st := s }
    | .marker code sub cause addr t :: _ =>
      faultAll s c { code := code, subcode := sub, cause := cause, addr := addr, info := BitVec.ofNat 32 t }
    | .tile fmt elems :: rest =>
      if fmt ≠ natBits f 7 4 then faultAll s c { code := 0x0E, info := BitVec.ofNat 32 f }
      else { st := (s.setWalker n { w with staged := rest }).product c shape (c.form.imm.getLsbD 2) f fun k i =>
               cvtSource fmt ((elems.getD (32 * k + i) 0).setWidth 64) }

section
variable {s : State} {c : Ctx} {m : Nat}

theorem tileEffect_of_waiting (hmine : (s.core c.team.core).walker.owner = c.iss.team + 1)
    (hruns : (s.core c.team.core).walker.running = true) (hnone : (s.core c.team.core).walker.staged = []) :
    tileEffect s c m = { st := s, stall := true } := by
  rw [tileEffect, hmine, hruns, hnone, beq_self_eq_true]
  rfl

variable (hfmt : fmtFault c m (immBits c.form.imm 1 0) = none)
include hfmt

theorem tileEffect_of_other (hother : ¬ (s.core c.team.core).walker.owner = c.iss.team + 1) : tileEffect s c m = { st := s } := by
  simp [tileEffect, hother, hfmt]

theorem tileEffect_of_over (hstopped : (s.core c.team.core).walker.running = false)
    (hempty : (s.core c.team.core).walker.staged = []) : tileEffect s c m = { st := s } := by
  simp [tileEffect, hstopped, hempty, hfmt]

theorem tileEffect_of_tile {f : Word} {elems : List Half} {rest : List Staged}
    (hmine : (s.core c.team.core).walker.owner = c.iss.team + 1) (hword : rd32 c.team m c.form 3 = f)
    (htile : (s.core c.team.core).walker.staged = .tile (natBits f.toNat 7 4) elems :: rest) :
    tileEffect s c m =
      { st := State.product (s.setWalker c.team.core { (s.core c.team.core).walker with staged := rest }) c
                (immBits c.form.imm 1 0) (c.form.imm.getLsbD 2) f.toNat fun k i =>
          cvtSource (natBits f.toNat 7 4) ((elems.getD (32 * k + i) 0).setWidth 64) } := by
  simp [tileEffect, hmine, htile, hfmt, hword]

end

section
variable {o : L64} {s : State} {iss : Issue} {m : Nat} {r : List Nat} (h : Issued s iss (.mxmW o)) (hact : actives s iss = m :: r)
  (hfeat : (nodeAt s iss).featreq.getLsbD (natBits o.imm.toNat 1 0 + 1) = true)
include h hact hfeat

theorem mxmW_featreq : (nodeAt s iss).featreq.getLsbD (shapeFeature (immBits o.imm 1 0)) = true := by
  have hne := mxmW_shape (wf_of_issued h (by rw [hact]; exact List.cons_ne_nil _ _))
  have hlt : immBits o.imm 1 0 < 4 := Nat.mod_lt _ (by decide)
  rw [shapeFeature_of_lt (by omega)]
  exact hfeat

/-- With its feature required MXM.W has the effect that the next slot says. -/
theorem execMxmW_of_feature : exec (.mxmW o) s = .next (s.finish iss [] (tileEffect s (seen s iss (.mxmW o)) m)) := by
  have hbit := mxmW_featreq h hact hfeat
  have hrun : exec (.mxmW o) s = execMxmW o s := rfl
  refine (exec_of_teamEffect (hrun.trans (execMxmW.eq_1 o s)) h hact).trans ?_
  refine congrArg (fun e => Host.Outcome.next (s.finish iss [] e)) ?_
  have hreq : ¬ (!(seen s iss (.mxmW o)).node.featreq.getLsbD (shapeFeature (immBits (seen s iss (.mxmW o)).form.imm 1 0))) = true :=
    fun hno => Bool.false_ne_true ((Bool.not_eq_true' _).mp hno ▸ hbit)
  exact if_neg hreq

/-- MXM.W of a running walk that has staged nothing cannot issue. -/
theorem mxmW_waits (hmine : (s.core (s.team iss.team).core).walker.owner = iss.team + 1)
    (hruns : (s.core (s.team iss.team).core).walker.running = true) (hnone : (s.core (s.team iss.team).core).walker.staged = []) :
    CannotIssue (.mxmW o) s := by
  have hexec := execMxmW_of_feature h hact hfeat
  rw [tileEffect_of_waiting hmine hruns hnone] at hexec
  exact cannotIssue_of_finish hexec

variable {f : Word} (hf : FmtsPass s iss (.mxmW o) (natBits o.imm.toNat 1 0) f)
include hf

/-- With no tile left for its team it goes on. -/
theorem mxmW_goesOn (hidle : ¬ (s.core (s.team iss.team).core).walker.owner = iss.team + 1 ∨
    ((s.core (s.team iss.team).core).walker.running = false ∧ (s.core (s.team iss.team).core).walker.staged = [])) :
    GoesOn (.mxmW o) s iss s := by
  obtain ⟨hfmt, -⟩ := fmtFault_of_passes hf (hact ▸ List.mem_cons_self)
  have hexec := execMxmW_of_feature h hact hfeat
  rcases hidle with hother | ⟨hstopped, hempty⟩
  · rw [tileEffect_of_other hfmt hother] at hexec
    exact goesOn_of_finish hexec
  · rw [tileEffect_of_over hfmt hstopped hempty] at hexec
    exact goesOn_of_finish hexec

/-- It accumulates the products of the tile that stands first. -/
theorem mxmW_multiplies {elems : List Half} {rest : List Staged} (hmine : (s.core (s.team iss.team).core).walker.owner = iss.team + 1)
    (htile : (s.core (s.team iss.team).core).walker.staged = .tile (natBits f.toNat 7 4) elems :: rest) :
    Multiplies (.mxmW o) s iss
      (s.setWalker (s.team iss.team).core { (s.core (s.team iss.team).core).walker with staged := rest })
      (natBits o.imm.toNat 1 0) (o.imm.getLsbD 2) f (opReg (s.team iss.team) 0 (Instr.mxmW o).form 1) fun k i =>
        cvtSource (natBits f.toNat 7 4) ((elems.getD (32 * k + i) 0).setWidth 64) := by
  obtain ⟨hfmt, hword⟩ := fmtFault_of_passes hf (hact ▸ List.mem_cons_self)
  have hexec := execMxmW_of_feature h hact hfeat
  rw [tileEffect_of_tile hfmt hmine hword htile] at hexec
  have hteam : (s.setWalker (s.team iss.team).core { (s.core (s.team iss.team).core).walker with staged := rest }).team iss.team =
      s.team iss.team := rfl
  exact multiplies_of_product hteam hexec

end

theorem exec_mxmF8 (o : L64) (s : State) : exec (.mxmF8 o) s = mxmInstr (.mxmF8 o) 0 s := rfl
theorem exec_mxmS2p8 (o : L64) (s : State) : exec (.mxmS2p8 o) s = mxmInstr (.mxmS2p8 o) 1 s := rfl
theorem exec_mxmH16 (o : L64) (s : State) : exec (.mxmH16 o) s = mxmInstr (.mxmH16 o) 2 s := rfl

/-- Settles O39: MXM by `multiplies_of_mxmInstr`, MXM.W by its three cases, and MXZERO clears its slot. -/
theorem matrixProducts : Obligations.MatrixProducts := by
  unfold Obligations.MatrixProducts
  intro frag
  refine ⟨fun o s iss m r f h hact hf => ?f8, fun o s iss m r f h hact hf => ?s2p8, fun o s iss m r f h hact hf => ?h16,
    fun o s iss m r f h hact => ?walk, fun o s iss h hact => ?zero⟩
  case f8 => exact multiplies_of_mxmInstr (exec_mxmF8 o s) h hact hf
  case s2p8 => exact multiplies_of_mxmInstr (exec_mxmS2p8 o s) h hact hf
  case h16 => exact multiplies_of_mxmInstr (exec_mxmH16 o s) h hact hf
  case walk =>
    intro n w mine shape hfeat
    exact ⟨mxmW_waits h hact hfeat, fun hidle hf => mxmW_goesOn h hact hfeat hf hidle,
      fun elems rest hmine htile hf => mxmW_multiplies h hact hfeat hf hmine htile⟩
  case zero =>
    obtain ⟨m, r, hcons⟩ := List.exists_cons_of_ne_nil hact
    have hrun : exec (.mxzero o) s = execMxzero o s := rfl
    refine does_of_accOnly (exec_of_teamEffect (hrun.trans (execMxzero.eq_1 o s)) h hcons) ⟨_, rfl⟩ fun t ht a r n hr hn => ?_
    exact (ht a r n).trans (Team.elem_clearAcc _ _ _ hr hn)

end Sys2Proof.Machine
end

section
/-! PROOFS of the statement of MXRD, MXST and MXSKIP (O40): rows of an accumulator packed into registers, or stored. -/
namespace Sys2Proof.Machine
open Sys2Proof.Claims

/-! ### Encodings fit their width (12 R298, R302) -/

theorem FloatFmt.nan_lt_width (F : FloatFmt) (hp : 1 ≤ F.p) : F.nan < 2 ^ F.width := by
  have htop : F.emax * 2 ^ F.p + 2 ^ F.p = 2 ^ (F.p + F.e) := by
    rw [← Nat.succ_mul, Nat.succ_eq_add_one, F.emax_add_one, ← Nat.pow_add, add_comm]
  have hpow : 2 ^ (F.p - 1) ≤ 2 ^ F.p := Nat.pow_le_pow_right two_pos (by omega)
  have hquiet : 2 ^ (F.p - 1) < 2 ^ F.p := Nat.pow_lt_pow_right (by decide) (by omega)
  have hpos : 0 < 2 ^ (F.p + F.e) := Nat.two_pow_pos _
  rw [FloatFmt.width, Nat.pow_succ, FloatFmt.nan]
  split <;> omega

theorem FloatFmt.inf_lt_width (F : FloatFmt) (n : Bool) : F.inf n < 2 ^ F.width := by
  have htop : F.emax * 2 ^ F.p + 2 ^ F.p = 2 ^ (F.p + F.e) := by
    rw [← Nat.succ_mul, Nat.succ_eq_add_one, F.emax_add_one, ← Nat.pow_add, add_comm]
  have hpos : 0 < 2 ^ F.p := Nat.two_pow_pos _
  rw [FloatFmt.width, Nat.pow_succ, FloatFmt.inf]
  split <;> omega

theorem FloatFmt.overflowed_lt_width (F : FloatFmt) (hp : 1 ≤ F.p) (mode : Mode) (sat n : Bool) :
    F.overflowed mode sat n < 2 ^ F.width := by
  unfold FloatFmt.overflowed
  split
  · exact F.signBit_add_lt n le_rfl
  · split
    · exact F.nan_lt_width hp
    · exact F.inf_lt_width n

/-- A rounded result fits its format. -/
theorem roundTo_bits_lt {F : FloatFmt} (hp : 1 ≤ F.p) (x : Num) (mode : Mode) (sat : Bool) :
    (roundTo x F mode sat).bits < 2 ^ F.width := by
  cases x with
  | nan => exact F.nan_lt_width hp
  | inf n =>
    change (if sat then F.signBit n + F.maxEnc else if F.noInf then F.nan else F.inf n) < 2 ^ F.width
    split
    · exact F.signBit_add_lt n le_rfl
    · split
      · exact F.nan_lt_width hp
      · exact F.inf_lt_width n
  | fin n m e =>
    obtain ⟨k, -, hround⟩ := exists_roundTo_eq_delivered hp n m e mode sat
    rw [hround, FloatFmt.delivered]
    split
    · exact F.overflowed_lt_width hp mode sat n
    · next hle => exact F.signBit_add_lt n (not_lt.mp hle)

/-- The format that DFMT names is one of the five. -/
theorem floatFmt_mem (i : Nat) : floatFmt i ∈ [fmtF32, fmtF16, fmtBF16, fmtF8A, fmtF8B] := by
  unfold floatFmt
  split_ifs <;> simp

theorem floatFmt_p_pos (i : Nat) : 1 ≤ (floatFmt i).p := (floatFmt_widths _ (floatFmt_mem i)).1

/-! ### Several registers of a lane -/

theorem Team.vreg_setVs (t : Team) {L d c M n : Nat} (v : Nat) (hd : d + c ≤ 512) (hn : n < 512) :
    (t.setVs L d c v).vreg M n =
      if M = L ∧ d ≤ n ∧ n < d + c then BitVec.ofNat 32 (v / 2 ^ (32 * (n - d))) else t.vreg M n := by
  induction c generalizing t d v with
  | zero =>
    rw [Team.setVs, if_neg]
    omega
  | succ c ih =>
    rw [Team.setVs, ih _ _ (by omega), Team.vreg_setV _ _ (by omega) hn]
    by_cases hM : M = L
    · by_cases hat : n = d
      · subst hat
        rw [if_neg (by omega), if_pos ⟨hM, rfl⟩, if_pos ⟨hM, by omega⟩]
        simp
      · by_cases hin : d ≤ n ∧ n < d + (c + 1)
        · rw [if_pos ⟨hM, by omega⟩, if_pos ⟨hM, hin⟩, Nat.div_div_eq_div_mul, ← Nat.pow_add,
            show 32 + 32 * (n - (d + 1)) = 32 * (n - d) by omega]
        · rw [if_neg (by omega), if_neg fun h => hat h.2, if_neg fun h => hin h.2]
    · rw [if_neg fun h => hM h.1, if_neg fun h => hM h.1, if_neg fun h => hM h.1]

/-- Lanes of a list write registers of their own. -/
theorem Team.fold_setVs (d c : Nat) (g : Nat → Nat) (ls : List Nat) (t : Team) (hd : d + c ≤ 512) (hnd : ls.Nodup) {M n : Nat}
    (hn : n < 512) : (ls.foldl (fun t L => t.setVs L d c (g L)) t).vreg M n =
      if M ∈ ls ∧ d ≤ n ∧ n < d + c then BitVec.ofNat 32 (g M / 2 ^ (32 * (n - d))) else t.vreg M n := by
  induction ls generalizing t with
  | nil => simp
  | cons a r ih =>
    obtain ⟨ha, hr⟩ := List.nodup_cons.mp hnd
    rw [List.foldl_cons, ih _ hr, Team.vreg_setVs _ _ hd hn]
    by_cases hMa : M = a
    · subst hMa
      simp [ha]
    · simp [hMa]

theorem vectorsOnly_setVs (t : Team) (L d c v : Nat) : VectorsOnly t (t.setVs L d c v) := by
  induction c generalizing t d v with
  | zero => exact ⟨_, _, rfl⟩
  | succ c ih =>
    obtain ⟨x, z, h⟩ := ih (t.setV L d (BitVec.ofNat 32 v)) (d + 1) (v / 2 ^ 32)
    exact ⟨x, z, h⟩

/-- Registers that hold the words of a number hold its low part. -/
theorem Team.vregs_of_words (t : Team) {L d c : Nat} (v : Nat) (h : ∀ k, k < c → t.vreg L (d + k) = BitVec.ofNat 32 (v / 2 ^ (32 * k))) :
    t.vregs L d c = v % 2 ^ (32 * c) := by
  induction c generalizing d v with
  | zero => rw [Team.vregs, Nat.mul_zero, Nat.pow_zero, Nat.mod_one]
  | succ c ih =>
    have hrest : t.vregs L (d + 1) c = v / 2 ^ 32 % 2 ^ (32 * c) := ih _ fun k hk => by
      rw [show d + 1 + k = d + (k + 1) by omega, h (k + 1) (by omega), Nat.div_div_eq_div_mul, ← Nat.pow_add,
        show 32 * (k + 1) = 32 + 32 * k by omega]
    have hfirst : (t.vreg L d).toNat = v % 2 ^ 32 := by
      have hd := h 0 (by omega)
      rw [Nat.add_zero] at hd
      rw [hd, BitVec.toNat_ofNat, Nat.mul_zero, Nat.pow_zero, Nat.div_one]
    rw [Team.vregs, hrest, hfirst, show 32 * (c + 1) = 32 + 32 * c by omega, Nat.pow_add, Nat.mod_mul]

/-! ### Packed rows (14 R335) -/

theorem packElems_lt {w : Nat} {es : List ElemResult} (h : ∀ e ∈ es, e.1 < 2 ^ w) : packElems w es < 2 ^ (w * es.length) := by
  induction es with
  | nil => simp [packElems]
  | cons e r ih =>
    have he := h e List.mem_cons_self
    have hr := ih fun x hx => h x (List.mem_cons_of_mem _ hx)
    rw [packElems, List.length_cons, Nat.mul_succ, Nat.add_comm (w * _), Nat.pow_add]
    calc e.1 + 2 ^ w * packElems w r < 2 ^ w + 2 ^ w * packElems w r := by omega
      _ = 2 ^ w * (packElems w r + 1) := by ring
      _ ≤ 2 ^ w * 2 ^ (w * r.length) := Nat.mul_le_mul_left _ hr

/-- Each element stands in its place. -/
theorem packElems_field {w : Nat} {es : List ElemResult} (h : ∀ e ∈ es, e.1 < 2 ^ w) {j : Nat} (hj : j < es.length) :
    packElems w es / 2 ^ (w * j) % 2 ^ w = es[j].1 := by
  induction es generalizing j with
  | nil => cases hj
  | cons e r ih =>
    have he := h e List.mem_cons_self
    cases j with
    | zero => rw [packElems, Nat.mul_zero, Nat.pow_zero, Nat.div_one, Nat.add_mul_mod_self_left, Nat.mod_eq_of_lt he]; rfl
    | succ j =>
      have hdrop : packElems w (e :: r) / 2 ^ (w * (j + 1)) = packElems w r / 2 ^ (w * j) := by
        rw [packElems, Nat.mul_succ, Nat.add_comm (w * j), Nat.pow_add, ← Nat.div_div_eq_div_mul,
          Nat.add_mul_div_left _ _ (Nat.two_pow_pos w), Nat.div_eq_of_lt he, Nat.zero_add]
      rw [hdrop, ih (fun x hx => h x (List.mem_cons_of_mem _ hx)) (Nat.lt_of_succ_lt_succ hj)]
      rfl

theorem AccElem.deliver_lt (x : AccElem) (scl : Int) (dfmt : Nat) (mode : Mode) (sat : Bool) :
    (x.deliver scl dfmt mode sat).1 < 2 ^ (floatFmt dfmt).width := roundTo_bits_lt (floatFmt_p_pos dfmt) _ _ _

theorem width_of_floatFmt (i : Nat) : (floatFmt i).width / 2 = dfmtRegs i ∧ 32 * ((floatFmt i).width / 2) = (floatFmt i).width * 16 := by
  rcases Nat.lt_or_ge i 3 with hlow | hhigh
  · interval_cases i <;> decide
  · have hregs : dfmtRegs i = 4 := by rw [dfmtRegs, if_neg (by omega), if_neg (by omega)]
    have hfmt : floatFmt i = fmtF8A ∨ floatFmt i = fmtF8B := by
      rw [floatFmt, if_neg (by omega), if_neg (by omega), if_neg (by omega)]
      exact ite_eq_or_eq _ _ _
    rcases hfmt with h | h <;> rw [h, hregs] <;> decide

/-! ### MXRD (14 R335) -/

/-- An effect on vector registers and accumulators alone. -/
theorem does_of_regsAndAcc {i : Instr} {s u : State} {iss : Issue} {T : Team} {also : State → Prop}
    (hexec : exec i s = .next (s.finish iss [] { st := u.setTeam iss.team T }))
    (hT : ∃ v z acc, T = { u.team iss.team with v := v, nonzero := z, acc := acc })
    (halso : ∀ t : State, (∀ L n, (t.team iss.team).vreg L n = T.vreg L n) →
      (∀ c r n, (t.team iss.team).elem c r n = T.elem c r n) → also t) :
    Does i s iss u [] (fun t => { t with v := [], nonzero := [], acc := [] }) (fun _ l => goneOn iss l) also id := by
  obtain ⟨v, z, acc, rfl⟩ := hT
  refine does_of_clean hexec rfl rfl (Effect.from_setTeam rfl rfl rfl fun _ => rfl) (fun _ _ _ => rfl)
    (halso _ (fun L n => ?vreg) fun c r n => ?elem)
  case vreg =>
    rw [State.team_setTeam_self, Team.issuedBut_eq, State.team_setTeam_self]
    rfl
  case elem =>
    rw [State.team_setTeam_self, Team.issuedBut_eq, State.team_setTeam_self]
    rfl

section
variable (c : Ctx) (d : Nat)

/-- The format of MXRD and MXST. -/
def Ctx.dfmt : Nat := immBits c.form.imm 2 0

/-- The team once each Active lane's registers from `d` hold its row. -/
def rowsRead : Team := c.act.foldl (fun t L => t.setVs L d ((floatFmt c.dfmt).width / 2)
  (packElems (floatFmt c.dfmt).width (mxRow c c.form.a.field.toNat L))) c.team

theorem rowsRead_regs : VectorsOnly c.team (rowsRead c d) := VectorsOnly.foldl (fun _ _ => vectorsOnly_setVs _ _ _ _ _) _

/-- The events of the rows of the Active lanes. -/
def rowEvents : List Nat := c.act.flatMap fun L => (mxRow c c.form.a.field.toNat L).flatMap fun e => eventIndex c.dfmt e.2

variable {c d} (hd : d + (floatFmt c.dfmt).width / 2 ≤ 512) (hact : c.act.Nodup)
include hd hact

theorem rowsRead_vreg (L : Nat) {n : Nat} (hn : n < 512) : (rowsRead c d).vreg L n =
    if L ∈ c.act ∧ d ≤ n ∧ n < d + (floatFmt c.dfmt).width / 2 then
      BitVec.ofNat 32 (packElems (floatFmt c.dfmt).width (mxRow c c.form.a.field.toNat L) / 2 ^ (32 * (n - d)))
    else c.team.vreg L n := Team.fold_setVs _ _ _ _ _ hd hact hn

/-- Each element of a lane's row stands in its place. -/
theorem rowsRead_field {T : Team} (hT : ∀ L n, T.vreg L n = (rowsRead c d).vreg L n) {L j : Nat} (hL : L ∈ c.act) (hj : j < 16) :
    T.vregs L d ((floatFmt c.dfmt).width / 2) / 2 ^ ((floatFmt c.dfmt).width * j) % 2 ^ (floatFmt c.dfmt).width =
      (mxElem c c.form.a.field.toNat (L % 32) (16 * (L / 32) + j)).1 := by
  have hlen : (mxRow c c.form.a.field.toNat L).length = 16 := by simp [mxRow]
  have hlt : ∀ e ∈ mxRow c c.form.a.field.toNat L, e.1 < 2 ^ (floatFmt c.dfmt).width := fun e he => by
    obtain ⟨k, -, rfl⟩ := List.mem_map.mp he
    exact AccElem.deliver_lt _ _ _ _ _
  have hwords := T.vregs_of_words (L := L) (d := d) (c := (floatFmt c.dfmt).width / 2)
    (packElems (floatFmt c.dfmt).width (mxRow c c.form.a.field.toNat L)) fun k hk => by
      rw [hT, rowsRead_vreg hd hact L (by omega), if_pos ⟨hL, by omega, by omega⟩, Nat.add_sub_cancel_left]
  have hfits := packElems_lt hlt
  rw [hlen] at hfits
  rw [hwords, (width_of_floatFmt _).2, Nat.mod_eq_of_lt hfits, packElems_field hlt (by rw [hlen]; exact hj)]
  simp [mxRow]

end

/-- MXRD reads rows into registers, counts their events, and clears its slot where it says so. -/
theorem does_of_mxrd {o : L64} {s : State} {iss : Issue} {m : Nat} {q : List Nat} (h : Issued s iss (.mxrd o))
    (hact : actives s iss = m :: q) :
    let c := seen s iss (.mxrd o)
    let d := destReg s iss (.mxrd o) m
    let w := (floatFmt c.dfmt).width
    let slot := (Instr.mxrd o).form.a.field.toNat
    Does (.mxrd o) s iss (s.countEvents (s.team iss.team).block (rowEvents c)) [] (fun u => { u with v := [], nonzero := [], acc := [] })
      (fun _ l => goneOn iss l)
      (fun t => (∀ L j, Act s iss L → j < 16 → (t.team iss.team).vregs L d (w / 2) / 2 ^ (w * j) % 2 ^ w =
          (mxElem c slot (L % 32) (16 * (L / 32) + j)).1) ∧
        RegsKept s t iss (fun L n => Act s iss L ∧ d ≤ n ∧ n < d + w / 2) ∧
        ∀ a r n, r < 32 → n < 32 → (t.team iss.team).elem a r n =
          if o.imm.getLsbD 4 = true ∧ a = slot then {} else (s.team iss.team).elem a r n) id := by
  intro c d w slot
  have hd : d + (floatFmt c.dfmt).width / 2 ≤ 512 := by
    have hcount : (Instr.mxrd o).form.d.kind.count = (floatFmt c.dfmt).width / 2 := (width_of_floatFmt c.dfmt).1.symm
    have hpos : 0 < (floatFmt c.dfmt).width / 2 := by
      rw [(width_of_floatFmt c.dfmt).1]
      unfold dfmtRegs
      split_ifs <;> decide
    have hlast := destReg_lt h (hact ▸ List.mem_cons_self) (n := (floatFmt c.dfmt).width / 2 - 1) (by omega)
    omega
  obtain ⟨v, z, hvz⟩ := rowsRead_regs c d
  have hexec : exec (.mxrd o) s = .next (s.finish iss []
      { st := (s.countEvents (s.team iss.team).block (rowEvents c)).setTeam iss.team ((rowsRead c d).clearIf (o.imm.getLsbD 4) slot) }) := by
    have hrun : exec (.mxrd o) s = execMxrd o s := rfl
    refine (exec_of_teamEffect (hrun.trans (execMxrd.eq_1 o s)) h hact).trans ?_
    simp only [List.foldl_map, List.flatMap_map, State.countEvents_setTeam]
    rfl
  have hnodup : c.act.Nodup := actives_nodup s iss
  have hvreg : ∀ L n, ((rowsRead c d).clearIf (o.imm.getLsbD 4) slot).vreg L n = (rowsRead c d).vreg L n := fun L n => by
    obtain ⟨acc, hacc⟩ := accOnly_clearIf (rowsRead c d) (o.imm.getLsbD 4) slot
    rw [hacc]
    rfl
  refine does_of_regsAndAcc hexec ?only fun t hv he => ⟨fun L j hL hj => ?rows, fun L n _ hn hno => ?kept, fun a r n hr hn => ?acc⟩
  case only =>
    obtain ⟨acc, hacc⟩ := accOnly_clearIf (rowsRead c d) (o.imm.getLsbD 4) slot
    rw [State.team_countEvents, hacc, hvz]
    exact ⟨v, z, acc, rfl⟩
  case rows => exact rowsRead_field hd hnodup (fun L n => (hv L n).trans (hvreg L n)) hL hj
  case kept =>
    rw [hv, hvreg, rowsRead_vreg hd hnodup L hn]
    exact if_neg hno
  case acc =>
    rw [he, Team.elem_clearIf _ _ _ _ hr hn, hvz]
    rfl

/-! ### MXST (14 R335) -/

theorem mxstStores_length (c : Ctx) (m ins id size dfmt slot e : Nat) (ts : List (Nat × Target)) :
    (mxstStores c m ins id size dfmt slot e ts).length = ts.length := by
  induction ts generalizing id e with
  | nil => rfl
  | cons x r ih => rw [mxstStores, List.length_cons, ih, List.length_cons]

/-- The stores ask for room as the checked elements say. -/
theorem mxstStores_request (c : Ctx) (m ins id size dfmt slot e : Nat) (ts : List (Nat × Target)) :
    (mxstStores c m ins id size dfmt slot e ts).map Access.request = ts.map fun x => (ins, x.2.sector) := by
  induction ts generalizing id e with
  | nil => rfl
  | cons x r ih =>
    rw [mxstStores, List.map_cons, List.map_cons, ih]
    rfl

/-- The store of one element. -/
def mxstStore (c : Ctx) (m ins id size dfmt slot e : Nat) (x : Nat × Target) : Access :=
  { id := id, ins := ins, kind := .store, team := c.iss.team, block := c.team.block, core := c.team.core, lane := m,
    func := c.block.func, va := BitVec.ofNat 64 x.1, target := x.2, size := size, ord := 0, dest := 0, ndest := 0, sx := false,
    nol1 := true, data := BitVec.ofNat 128 (mxElem c slot (e / 32) (e % 32)).1, data2 := 0, ts := (c.team.lane m).rel,
    floored := false, carries := (c.team.lane m).fenced,
    supervisor := (c.team.lane m).trap, stage := .issued, knows := (c.team.lane m).know,
    events := eventIndex dfmt (mxElem c slot (e / 32) (e % 32)).2 }

theorem mxstStores_getElem? (c : Ctx) (m ins id size dfmt slot e : Nat) (ts : List (Nat × Target)) (k : Nat) :
    (mxstStores c m ins id size dfmt slot e ts)[k]? = ts[k]?.map (mxstStore c m ins (id + k) size dfmt slot (e + k)) := by
  induction ts generalizing id e k with
  | nil => rfl
  | cons x r ih =>
    cases k with
    | zero => rfl
    | succ k =>
      rw [mxstStores, List.getElem?_cons_succ, ih, List.getElem?_cons_succ, Nat.add_right_comm id, Nat.add_right_comm e]
      rfl

/-- What passes the checks of MXST: an address and a target for each element. -/
theorem State.mxstCheck_passed {s : State} {c : Ctx} {ag : Agent} {base : Nat} {stride : Int} {size e n : Nat}
    {ts : List (Nat × Target)} (h : s.mxstCheck c ag base stride size e n = .ok ts) :
    ts.length = n ∧ ∀ k, k < n → ∃ tgt, s.engineAccess ag .write (mxstAddr base stride size (e + k)) size = .ok tgt ∧
      ts[k]? = some (mxstAddr base stride size (e + k), tgt) := by
  induction n generalizing e ts with
  | zero =>
    cases h
    exact ⟨rfl, fun k hk => absurd hk (Nat.not_lt_zero k)⟩
  | succ n ih =>
    rw [State.mxstCheck] at h
    split at h
    · cases h
    · next tgt htgt =>
      split at h
      · cases h
      · split at h
        · cases h
        · next r hr =>
          cases h
          obtain ⟨hlen, hrest⟩ := ih hr
          refine ⟨by rw [List.length_cons, hlen], fun k hk => ?_⟩
          cases k with
          | zero => exact ⟨tgt, htgt, rfl⟩
          | succ k =>
            obtain ⟨t, ht, hk⟩ := hrest k (by omega)
            rw [show e + 1 + k = e + (k + 1) by omega] at ht hk
            exact ⟨t, ht, hk⟩

theorem foldl_min_spec (ls : List Nat) (b : Nat) : (∀ x ∈ ls, ls.foldl min b ≤ x) ∧ ls.foldl min b ≤ b ∧
    (ls.foldl min b = b ∨ ls.foldl min b ∈ ls) := by
  induction ls generalizing b with
  | nil => simp
  | cons a r ih =>
    obtain ⟨hall, hle, hmem⟩ := ih (min b a)
    simp only [List.foldl_cons, List.mem_cons, forall_eq_or_imp]
    refine ⟨⟨hle.trans (min_le_right _ _), hall⟩, hle.trans (min_le_left _ _), ?_⟩
    rcases hmem with h | h
    · rw [h]
      rcases min_choice b a with hmin | hmin <;> simp [hmin]
    · exact .inr (.inr h)

theorem foldl_max_spec (ls : List Nat) (b : Nat) : (∀ x ∈ ls, x ≤ ls.foldl max b) ∧ b ≤ ls.foldl max b ∧
    (ls.foldl max b = b ∨ ls.foldl max b ∈ ls) := by
  induction ls generalizing b with
  | nil => simp
  | cons a r ih =>
    obtain ⟨hall, hle, hmem⟩ := ih (max b a)
    simp only [List.foldl_cons, List.mem_cons, forall_eq_or_imp]
    refine ⟨⟨(le_max_right _ _).trans hle, hall⟩, (le_max_left _ _).trans hle, ?_⟩
    rcases hmem with h | h
    · rw [h]
      rcases max_choice b a with hmax | hmax <;> simp [hmax]
    · exact .inr (.inr h)

theorem mxstAddr_zero {base : Nat} (stride : Int) (size : Nat) (h : base < 2 ^ 64) : mxstAddr base stride size 0 = base := by
  simp only [mxstAddr, Nat.zero_div, Nat.zero_mod, Nat.cast_zero, zero_mul, add_zero]
  omega

/-- Nothing is held outside a version. -/
theorem heldTarget_of_unversioned {nd : Node} (h : nd.versioned = false) (a : Nat) (t : Target) : heldTarget nd a t = none := by
  cases t <;> simp [heldTarget, h]

section
variable {s : State} {c : Ctx} {ag : Agent} {base : Nat} {stride : Int} {size : Nat} {ts : List (Nat × Target)}
  (hbase : base < 2 ^ 64) (hpass : s.mxstCheck c ag base stride size 0 1024 = .ok ts)
include hpass

theorem mxst_addr_mem {e : Nat} (he : e < 1024) : mxstAddr base stride size e ∈ ts.map (·.1) := by
  obtain ⟨tgt, -, hk⟩ := (State.mxstCheck_passed hpass).2 e he
  rw [Nat.zero_add] at hk
  exact List.mem_map.mpr ⟨_, List.mem_of_getElem? hk, rfl⟩

theorem mxst_mem_addr {x : Nat} (hx : x ∈ ts.map (·.1)) : ∃ e, e < 1024 ∧ mxstAddr base stride size e = x := by
  obtain ⟨hlen, hall⟩ := State.mxstCheck_passed hpass
  obtain ⟨y, hy, rfl⟩ := List.mem_map.mp hx
  obtain ⟨k, hk⟩ := List.mem_iff_getElem?.mp hy
  obtain ⟨hlt, -⟩ := List.getElem?_eq_some_iff.mp hk
  obtain ⟨tgt, -, hat⟩ := hall k (hlen ▸ hlt)
  rw [Nat.zero_add, hk] at hat
  exact ⟨k, hlen ▸ hlt, (congrArg Prod.fst (Option.some.inj hat)).symm⟩

include hbase

/-- The lowest and the highest address of the elements bound the range that is locked. -/
theorem mxst_bounds :
    let lo := (ts.map (·.1)).foldl min base
    let hi := (ts.map (·.1)).foldl max base
    (∀ e, e < 1024 → lo ≤ mxstAddr base stride size e ∧ mxstAddr base stride size e ≤ hi) ∧
    (∃ e, e < 1024 ∧ mxstAddr base stride size e = lo) ∧ ∃ e, e < 1024 ∧ mxstAddr base stride size e = hi := by
  obtain ⟨hmin, -, hlo⟩ := foldl_min_spec (ts.map (·.1)) base
  obtain ⟨hmax, -, hhi⟩ := foldl_max_spec (ts.map (·.1)) base
  have hfirst : mxstAddr base stride size 0 = base := mxstAddr_zero stride size hbase
  refine ⟨fun e he => ⟨hmin _ (mxst_addr_mem hpass he), hmax _ (mxst_addr_mem hpass he)⟩, ?_, ?_⟩
  · rcases hlo with h | h
    · exact ⟨0, by decide, hfirst.trans h.symm⟩
    · exact mxst_mem_addr hpass h
  · rcases hhi with h | h
    · exact ⟨0, by decide, hfirst.trans h.symm⟩
    · exact mxst_mem_addr hpass h

end

section
variable {o : L64} {s : State} {iss : Issue} {m : Nat} {q : List Nat} {ts : List (Nat × Target)}

/-- The bytes of an element. -/
def Ctx.elemSize (c : Ctx) : Nat := (floatFmt c.dfmt).width / 8
/-- The stores of an MXST. -/
def mxstAccesses (s : State) (c : Ctx) (m : Nat) (ts : List (Nat × Target)) : List Access :=
  mxstStores c m s.fresh (s.fresh + 1) c.elemSize c.dfmt c.form.d.field.toNat 0 ts

/-- The state once the stores of an MXST are in flight. -/
def mxstInFlight (s : State) (c : Ctx) (m : Nat) (ts : List (Nat × Target)) : State :=
  { s with fresh := s.fresh + 1 + (mxstAccesses s c m ts).length, accesses := s.accesses ++ mxstAccesses s c m ts }

/-- The state once an MXST has started, with its range locked in entry `s1`. -/
def mxstStarted (s : State) (iss : Issue) (c : Ctx) (m : Nat) (ts : List (Nat × Target)) (lock : RangeLock) : State :=
  { withEngine (withLocks { s with accesses := s.accesses ++ mxstAccesses s c m ts } (s.team iss.team).core [lock]) iss
      (engineOf s iss .mxst m) with fresh := s.fresh + 1025 }

theorem execMxst_of_checked (h : Issued s iss (.mxst o)) (hact : actives s iss = m :: q) :
    let c := seen s iss (.mxst o)
    let T := s.team iss.team
    let base := (op64 s iss (.mxst o) 1 m).toNat
    let stride := (op32 s iss (.mxst o) 2 m).toInt
    let ag := s.agentOf iss.team m
    base % c.elemSize = 0 → stride % (c.elemSize : Int) = 0 → s.mxstCheck c ag base stride c.elemSize 0 1024 = .ok ts →
    (nodeAt s iss).versioned = false → T.tlc ≠ 255 → 1 ≤ freeLocks s T.core →
    s.requestRoom T.core (ts.map fun x => (s.fresh, x.2.sector)) = true →
    ∃ s1, lockIn s T.core s1 ∧
      let u := mxstStarted s iss c m ts (lockOf ag s.fresh s1 ((ts.map (·.1)).foldl min base)
        ((ts.map (·.1)).foldl max base + c.elemSize - 1) true)
      exec (.mxst o) s = .next (s.finish iss []
        { st := u.setTeam iss.team ((u.team iss.team).clearIf (o.imm.getLsbD 4) c.form.d.field.toNat) }) := by
  intro c T base stride ag hbase hstride hpass hplain htlc hfree hroom
  obtain ⟨s1, hs1, hlock⟩ := lockRange_takes
    (s := mxstInFlight s c m ts) (n := T.core) hfree ag s.fresh
    ((ts.map (·.1)).foldl min base) ((ts.map (·.1)).foldl max base + c.elemSize - 1) true
  refine ⟨s1, hs1, ?_⟩
  have hrun : exec (.mxst o) s = execMxst o s := rfl
  refine (exec_of_teamEffect (hrun.trans (execMxst.eq_1 o s)) h hact).trans ?_
  refine congrArg (fun e => Host.Outcome.next (s.finish iss [] e)) ?_
  have haligned : ((base % c.elemSize ≠ 0 || stride % (c.elemSize : Int) ≠ 0) && !s.mxstStrange ag base stride c.elemSize) = false := by
    rw [decide_eq_false (not_not.mpr hbase), decide_eq_false (not_not.mpr hstride), Bool.or_self, Bool.false_and]
  have hlines : ts.filterMap (fun x => (heldTarget c.node x.1 x.2).map (· / 64)) = [] :=
    List.filterMap_eq_nil_iff.mpr fun x _ => by
      rw [show heldTarget c.node x.1 x.2 = none from heldTarget_of_unversioned hplain _ _]; rfl
  have hlength : (mxstAccesses s c m ts).length = 1024 :=
    (mxstStores_length _ _ _ _ _ _ _ _ _).trans (State.mxstCheck_passed hpass).1
  have hissues : (decide (T.tlc = 255) || (s.core T.core).freeSlots == [] ||
      !s.requestRoom T.core ((mxstAccesses s c m ts).map Access.request)) = false := by
    have hsome : (s.core T.core).freeSlots ≠ [] := List.ne_nil_of_length_pos hfree
    rw [show (mxstAccesses s c m ts).map Access.request = _ from mxstStores_request _ _ _ _ _ _ _ _ _, hroom, decide_eq_false htlc,
      beq_eq_false_iff_ne.mpr hsome]
    rfl
  change (if ((base % c.elemSize ≠ 0 || stride % (c.elemSize : Int) ≠ 0) && !s.mxstStrange ag base stride c.elemSize) = true then _
    else match s.mxstCheck c ag base stride c.elemSize 0 1024 with
      | .error e => _
      | .ok ts => _) = _
  rw [haligned, if_neg Bool.false_ne_true]
  simp only [hpass]
  refine (if_neg ?held).trans ((if_neg fun hstall => Bool.false_ne_true (hissues.symm.trans hstall)).trans ?started)
  case held =>
    rw [show List.filterMap (fun x => (heldTarget (seen s iss (.mxst o)).node x.1 x.2).map (· / 64)) ts = [] from hlines]
    simp
  case started =>
    have hfresh : s.fresh + 1 + (mxstAccesses s c m ts).length = s.fresh + 1025 := by rw [hlength]
    have hstarted : ((mxstInFlight s c m ts).lockRange T.core ag s.fresh ((ts.map (·.1)).foldl min base)
        ((ts.map (·.1)).foldl max base + c.elemSize - 1) true).startEngine c .mxst s.fresh m =
        mxstStarted s iss c m ts (lockOf ag s.fresh s1 ((ts.map (·.1)).foldl min base)
          ((ts.map (·.1)).foldl max base + c.elemSize - 1) true) := by
      rw [hlock, mxstStarted, ← hfresh]
      rfl
    exact congrArg (fun u : State =>
      ({ st := u.setTeam iss.team ((u.team iss.team).clearIf (o.imm.getLsbD 4) c.form.d.field.toNat) } : Effect)) hstarted

/-- What an MXST whose addresses pass leaves (14 R335). -/
theorem does_of_mxst (h : Issued s iss (.mxst o)) (hact : actives s iss = m :: q) :
    let c := seen s iss (.mxst o)
    let T := s.team iss.team
    let slot := c.form.d.field.toNat
    let base := (op64 s iss (.mxst o) 1 m).toNat
    let stride := (op32 s iss (.mxst o) 2 m).toInt
    let ag := s.agentOf iss.team m
    let a (e : Nat) : Nat := mxstAddr base stride c.elemSize e
    base % c.elemSize = 0 → stride % (c.elemSize : Int) = 0 → s.mxstCheck c ag base stride c.elemSize 0 1024 = .ok ts →
    (nodeAt s iss).versioned = false → T.tlc ≠ 255 → 1 ≤ freeLocks s T.core →
    s.requestRoom T.core (ts.map fun x => (s.fresh, x.2.sector)) = true →
    ∃ s1 lo hi accs, lockIn s T.core s1 ∧ accs.length = 1024 ∧
      (∀ e, e < 1024 → lo ≤ a e ∧ a e ≤ hi) ∧ (∃ e, e < 1024 ∧ a e = lo) ∧ (∃ e, e < 1024 ∧ a e = hi) ∧
      (∀ e, e < 1024 → ∃ tgt, s.engineAccess ag .write (a e) c.elemSize = .ok tgt ∧
        accs[e]? = some (mxstStore c m s.fresh (s.fresh + 1 + e) c.elemSize c.dfmt slot e (a e, tgt))) ∧
      let u := withEngine (withLocks { s with accesses := s.accesses ++ accs } T.core
        [lockOf ag s.fresh s1 lo (hi + c.elemSize - 1) true]) iss (engineOf s iss .mxst m)
      Does (.mxst o) s iss ({ u with fresh := s.fresh + 1025 } : State) [] (fun u => { u with acc := [] }) (fun _ l => goneOn iss l)
        (fun t => ∀ c r n, r < 32 → n < 32 → (t.team iss.team).elem c r n =
          if o.imm.getLsbD 4 = true ∧ c = slot then {} else T.elem c r n) id := by
  intro c T slot base stride ag a hbase hstride hpass hplain htlc hfree hroom
  obtain ⟨s1, hs1, hexec⟩ := execMxst_of_checked h hact hbase hstride hpass hplain htlc hfree hroom
  obtain ⟨hbounds, hlo, hhi⟩ := mxst_bounds (op64 s iss (.mxst o) 1 m).isLt hpass
  obtain ⟨hlength, hall⟩ := State.mxstCheck_passed hpass
  refine ⟨s1, _, _, mxstAccesses s c m ts, hs1, (mxstStores_length _ _ _ _ _ _ _ _ _).trans hlength, hbounds, hlo, hhi,
    fun e he => ?stores, ?does⟩
  case stores =>
    obtain ⟨tgt, htgt, hat⟩ := hall e he
    rw [Nat.zero_add] at htgt hat
    refine ⟨tgt, htgt, ?_⟩
    rw [mxstAccesses, mxstStores_getElem?, hat, Nat.zero_add]
    rfl
  case does =>
    refine does_of_accOnly hexec (accOnly_clearIf _ _ _) fun t ht a r n hr hn => ?_
    rw [ht, Team.elem_clearIf _ _ _ _ hr hn, mxstStarted]
    refine if_congr Iff.rfl rfl ?_
    rw [show ∀ (w : State) (f : Nat), ({ w with fresh := f } : State).team iss.team = w.team iss.team from fun _ _ => rfl,
      withEngine, State.team_setTeam_self]
    rfl

end

/-! ### MXSKIP (14 R338) -/

/-- The mask-wise trust of MXSKIP, and whether lane `L` needs its block. -/
def skipTrusted (s : State) (c : Ctx) (m : Nat) : Bool :=
  c.form.imm.getLsbD 11 &&
    s.trusted c.team.block (s.agentOf c.iss.team m) (Handle.parse (c.team.vregs m (opReg c.team m c.form 3) 4)) (immBits c.form.imm 10 0)
def skipNeeds (s : State) (c : Ctx) (m L : Nat) : Bool :=
  let a := opReg c.team m c.form 1
  skipNeeded (c.team.vreg L a).toNat (c.team.vreg L (a + 1)).toNat (c.team.vreg L (a + 2)).toNat
    (if skipTrusted s c m then 0 else (rd32 c.team L c.form 2).toNat)

theorem mxskip_of_handle {o : L64} {s : State} {iss : Issue} {m : Nat} {q : List Nat} (h : Issued s iss (.mxskip o))
    (hact : actives s iss = m :: q) (hhandle : (handleIn s iss (.mxskip o) 3 m).fault iss.word = none)
    (htlc : (s.team iss.team).tlc ≠ 255) :
    ∃ t, exec (.mxskip o) s = .next (t.checkMask iss.team o.d.toNat) ∧ MaskFrame s t iss (fun n => n = o.d.toNat) ∧
      ∀ L, L < 64 → ((t.team iss.team).kreg o.d.toNat).getLsbD L =
        if Act s iss L then skipNeeds s (seen s iss (.mxskip o)) m L else kbit s iss o.d.toNat L := by
  have hexec : exec (.mxskip o) s = .next (s.finish iss []
      { st := s.setTeam iss.team ((actives s iss).foldl
          (fun t L => t.setKbit o.d.toNat L (skipNeeds s (seen s iss (.mxskip o)) m L)) (s.team iss.team))
        masks := [o.d.toNat] }) := by
    have hrun : exec (.mxskip o) s = execMxskip o s := rfl
    refine (exec_of_teamEffect (hrun.trans (execMxskip.eq_1 o s)) h hact).trans ?_
    refine congrArg (fun e => Host.Outcome.next (s.finish iss [] e)) ?_
    have hnone : (Handle.parse ((seen s iss (.mxskip o)).team.vregs m
        (opReg (seen s iss (.mxskip o)).team m (seen s iss (.mxskip o)).form 3) 4)).fault (seen s iss (.mxskip o)).iss.word = none := hhandle
    simp only [hnone]
    exact if_neg htlc
  refine ⟨_, hexec.trans (congrArg Host.Outcome.next (State.finish_mask s iss _ _)),
    maskFrame_issuedBy (masksOnly_fold_setKbit _ _ _ _) fun n hn => ?stay, fun L hL => ?bit⟩
  case stay =>
    exact Team.fold_other (fun u => u.kreg n) (fun L (t : Team) => t.setKbit _ L (skipNeeds s (seen s iss (.mxskip o)) m L))
      (fun L t => (Team.kreg_setK _ _ _ _).trans (if_neg hn)) _ _
  case bit =>
    rw [State.team_setTeam_self, Team.issuedBy_kreg]
    exact Team.getLsbD_fold_setKbit _ _ _ _ hL

/-- Settles O40: MXRD by `does_of_mxrd`, MXST by `does_of_mxst`, MXSKIP by `mxskip_of_handle`. -/
theorem matrixReads : Obligations.MatrixReads := by
  unfold Obligations.MatrixReads
  intro size elem
  refine ⟨fun o s iss m q h hact => ?mxrd, fun o s iss m q ts h hact => ?mxst, fun o s iss m q h hact => ?mxskip⟩
  case mxrd => exact does_of_mxrd h hact
  case mxst =>
    intro i T slot b base stride a ag el hbase hstride hpass hplain htlc hfree hroom
    exact does_of_mxst h hact hbase hstride hpass hplain htlc hfree hroom
  case mxskip =>
    intro i T hd d a flag need hhandle htlc
    exact mxskip_of_handle h hact hhandle htlc

end Sys2Proof.Machine
end

section
/-! PROOFS: what reads and writes of memory leave of the cores, their clocks alone apart (11 R285): used by the statements of the
walker (O41, O46). -/
namespace Sys2Proof.Machine

/-- From `s` to `t` nothing of a core has changed but its clock: what accesses of memory leave. -/
def State.Leads (s t : State) : Prop := ∀ n, ∃ lead, t.core n = { s.core n with lead := lead }

theorem State.Leads.of_cores {s t : State} (h : t.cores = s.cores) : s.Leads t := fun n =>
  ⟨(s.core n).lead, by rw [State.core, h, State.core]⟩

theorem State.Leads.refl (s : State) : s.Leads s := .of_cores rfl

theorem State.Leads.trans {s t u : State} (h : s.Leads t) (h' : t.Leads u) : s.Leads u := fun n => by
  obtain ⟨l, hl⟩ := h n
  obtain ⟨l', hl'⟩ := h' n
  exact ⟨l', by rw [hl', hl]⟩

theorem State.Leads.foldl {α : Type} {f : State → α → State} (hf : ∀ (s : State) a, s.Leads (f s a)) (l : List α) (s : State) :
    s.Leads (l.foldl f s) := by
  induction l generalizing s with
  | nil => exact .refl s
  | cons a r ih => exact (hf s a).trans (ih _)

theorem State.Leads.walker {s t : State} (h : s.Leads t) (n : Nat) : (t.core n).walker = (s.core n).walker := by
  obtain ⟨l, hl⟩ := h n
  rw [hl]

theorem State.Leads.locks {s t : State} (h : s.Leads t) (n : Nat) : (t.core n).locks = (s.core n).locks := by
  obtain ⟨l, hl⟩ := h n
  rw [hl]

theorem State.tellLead_cores (s : State) (u l : Nat) : (s.tellLead u l).cores = s.cores := by rw [State.tellLead_eq]

theorem State.tellUnits_cores (s : State) (u v : Nat) : (s.tellUnits u v).cores = s.cores :=
  (State.tellLead_cores _ _ _).trans (State.tellLead_cores _ _ _)

theorem State.hbmWrite_cores (s : State) (p n v : Nat) : (s.hbmWrite p n v).cores = s.cores := by
  induction n generalizing s p v with
  | zero => rfl
  | succ k ih => exact ih _ _ _

theorem State.rawWrite_cores (s : State) (p n v : Nat) : (s.rawWrite p n v).cores = s.cores := State.hbmWrite_cores s p n v

theorem State.writeLog_cores (s : State) (die : Nat) (k : LogKind) (kind func job unit ts a b : Nat) :
    (s.writeLog die k kind func job unit ts a b).cores = s.cores := by
  unfold State.writeLog
  dsimp only
  split
  · rfl
  · rw [State.setYard_cores, State.rawWrite_cores, State.rawWrite_cores, State.rawWrite_cores, State.rawWrite_cores]

theorem State.logBatchCores_cores (s : State) (die func job unit ts : Nat) (cs : List (Nat × Nat)) :
    (s.logBatchCores die func job unit ts cs).cores = s.cores := by
  fun_induction State.logBatchCores s die func job unit ts cs with
  | case1 s => rfl
  | case2 s c => exact State.writeLog_cores _ _ _ _ _ _ _ _ _ _
  | case3 s c c' r enc ih => exact ih.trans (State.writeLog_cores _ _ _ _ _ _ _ _ _ _)

theorem State.logBatch_cores (s : State) (line : Nat) (b : List Pair) : (s.logBatch line b).cores = s.cores := by
  unfold State.logBatch
  split
  · rfl
  · exact (State.logBatchCores_cores _ _ _ _ _ _ _).trans (State.writeLog_cores _ _ _ _ _ _ _ _ _ _)

theorem State.leads_callHome (s : State) (n : Nat) (t : Target) : s.Leads (s.callHome n t) := fun m => by
  rw [State.callHome_core]
  split
  · next h => exact ⟨_, by rw [h]⟩
  · exact ⟨_, rfl⟩

theorem State.leads_revoke (s : State) (who w : Nat) : s.Leads (s.revoke who w) := by
  unfold State.revoke
  dsimp only
  split
  · exact .refl s
  · exact s.leads_callHome _ _

theorem State.l1Room_cores (s : State) (core line : Nat) : (s.l1Room core line).cores = s.cores := by
  unfold State.l1Room
  dsimp only
  split <;> rfl

theorem State.leads_own (s : State) (who ts : Nat) (keep : Bool) (w : Nat) : s.Leads (s.own who ts keep w) := by
  unfold State.own
  dsimp only
  split
  · exact (s.leads_revoke who w).trans (.of_cores rfl)
  · exact (s.leads_revoke who w).trans (.of_cores (State.l1Room_cores _ _ _))

theorem State.leads_poke (s : State) (who ts : Nat) (keep : Bool) (t : Target) (n v : Nat) : s.Leads (s.poke who ts keep t n v) := by
  cases t with
  | hbm p =>
    refine .trans (.of_cores (State.rawWrite_cores s p n v)) (.trans ?_ (.of_cores rfl))
    exact .foldl (fun s w => s.leads_own _ _ _ w) _ _
  | vault c o | host p | remote a p | door p => exact .of_cores rfl

theorem State.leads_applyLine (s : State) (line : Nat) : s.Leads (s.applyLine line) := by
  unfold State.applyLine
  split
  · exact .refl s
  · refine .trans (t := List.foldl _ _ _) ?_ (.of_cores rfl)
    refine .trans (.of_cores ?_) (.foldl (fun s k => s.leads_poke _ _ _ _ _ _) _ _)
    exact (foldl_keeps State.cores fun s q => State.hbmWrite_cores s _ _ _).trans
      ((State.logBatch_cores _ _ _).trans (State.tellUnits_cores _ _ _))

theorem State.leads_reach (s : State) (t : Target) : s.Leads (s.reach t) := by
  cases t with
  | hbm p => exact s.leads_applyLine _
  | vault c o | host p | remote a p | door o => exact .refl s

theorem State.heard_cores (s : State) (tn L : Nat) (t : Target) (n : Nat) : (s.heard tn L t n).cores = s.cores := by
  unfold State.heard
  dsimp only
  split <;> rfl

/-- A read that completes at once leaves the cores but for their clocks. -/
theorem State.leads_readNow (s : State) (tn L : Nat) (t : Target) (n : Nat) : s.Leads (s.readNow tn L t n).1 := by
  cases t with
  | hbm p =>
    unfold State.readNow
    dsimp only
    split
    · exact .of_cores (State.heard_cores _ _ _ _ _)
    · refine .trans (s.leads_callHome _ _) (.trans (State.leads_reach _ _) (.of_cores (State.heard_cores _ _ _ _ _)))
  | vault c o | host p | remote a p | door o => exact (s.leads_callHome _ _).trans (.of_cores (State.heard_cores _ _ _ _ _))

end Sys2Proof.Machine
end

section
/-! PROOFS of the statement of WALK.START, WALK.QUERY and WALK.STOP (O41). -/
namespace Sys2Proof.Machine
open Sys2Proof.Claims

/-- A core without the walk of its context (15 R347, R359). -/
def Core.walkless (c : Core) : Core :=
  { c with locks := c.locks.filter (fun l => l.op != c.walker.lockOp), walker := {} }

theorem State.dropWalk_eq (s : State) (tn : Nat) : s.dropWalk tn =
    if (s.core (s.team tn).core).walker.owner = tn + 1 then
      s.setCore (s.team tn).core (s.core (s.team tn).core).walkless else s := by
  unfold State.dropWalk State.unlock
  dsimp only
  split
  · rw [State.setCore_setCore, State.core_setCore_self]
    rfl
  · rfl

/-! ### The context that WALK.START leaves (15 R356) -/

/-- The four pairs of operand C, as y0 to y3. -/
theorem walkContext_y (c : Ctx) (m : Nat) (h : Handle) (shape v image op : Nat) (sup zflag : Bool) (after : List Nat) (y : Nat) :
    (walkContext c m h shape v image op sup zflag after).y.get 0 y =
      if y < 4 then c.team.vpair m (opReg c.team m c.form 3 + 2 * y) else 0 := by
  have hset : ∀ N, ((List.range N).foldl (fun (y : SMap Dbl) i => y.set 0 i (c.team.vpair m (opReg c.team m c.form 3 + 2 * i))) []).get
      0 y = if y < N then c.team.vpair m (opReg c.team m c.form 3 + 2 * y) else 0 := fun N => by
    induction N with
    | zero => rfl
    | succ N ih =>
      rw [List.range_succ, List.foldl_append, List.foldl_cons, List.foldl_nil, SMap.get_set, ih]
      by_cases hy : y = N
      · rw [if_pos hy, if_pos (by omega), hy]
      · rw [if_neg hy]
        exact if_congr (by omega) rfl rfl
  exact hset 4

theorem walkHeader_of_good {s : State} {v image : Nat} {tr : Bool} (hhigh : natBits v 63 48 = 0) (hmid : natBits v 31 16 = 0)
    (hfwd : 1 ≤ natBits v 15 0) (hfwd' : natBits v 15 0 ≤ 16384) (hinv : natBits v 47 32 ≤ 16384)
    (htr : tr = true → 1 ≤ natBits v 47 32) : s.walkHeader v image tr = none := by
  have hfields : (natBits v 63 48 != 0 || natBits v 31 16 != 0 || decide (natBits v 15 0 = 0) || decide (16384 < natBits v 15 0) ||
      decide (16384 < natBits v 47 32)) = false := by
    rw [hhigh, hmid, decide_eq_false (by omega), decide_eq_false (by omega), decide_eq_false (by omega)]
    rfl
  have hlen : (tr && decide (natBits v 47 32 = 0)) = false := by
    cases tr with
    | false => rfl
    | true => exact decide_eq_false (Nat.one_le_iff_ne_zero.mp (htr rfl))
  unfold State.walkHeader
  dsimp only
  rw [hfields, if_neg Bool.false_ne_true, hlen, if_neg Bool.false_ne_true]

/-- The context of a walk that WALK.START starts. -/
def startedWalk (s : State) (iss : Issue) (o : L64) (m v op : Nat) : Walker :=
  walkContext (seen s iss (.walkStart o)) m (handleIn s iss (.walkStart o) 2 m) (natBits o.imm.toNat 1 0) v
    (op64 s iss (.walkStart o) 1 m).toNat op (s.agentOf iss.team m).sup ((nodeAt s iss).featreq.getLsbD 12) (s.unacked iss.team)

/-- The state once a walk has started on core `n`, with its tile locked. -/
def walkStarted (r : State) (n : Nat) (lock : RangeLock) (w : Walker) : State :=
  ({ r with fresh := r.fresh + 1 } : State).setCore n { r.core n with locks := (r.core n).locks ++ [lock], walker := w }

section
variable {o : L64} {s : State} {iss : Issue} {m : Nat} {q : List Nat} {r : State} {v : Nat} {tgt : Target}

/-- WALK.START with its premises met: the header is read, the tile locked, and the context runs. -/
theorem goesOn_of_walkStart (hi : Issued s iss (.walkStart o)) (hact : actives s iss = m :: q) :
    let n := (s.team iss.team).core
    let u := s.dropWalk iss.team
    let h := handleIn s iss (.walkStart o) 2 m
    let image := (op64 s iss (.walkStart o) 1 m).toNat
    let ag := s.agentOf iss.team m
    ((s.core n).walker.owner = 0 ∨ (s.core n).walker.owner = iss.team + 1) → 1 ≤ freeLocks u n → (s.team iss.team).tlc ≠ 255 →
    walkFront (seen s iss (.walkStart o)) h (natBits o.imm.toNat 1 0) = none → u.headerAt ag image = .ok tgt →
    u.readReady iss.team m tgt 8 = true → u.readNow iss.team m tgt 8 = (r, v) → r.walkHeader v image (o.imm.getLsbD 2) = none →
    ∃ s1, lockIn r n s1 ∧ GoesOn (.walkStart o) s iss
      (walkStarted r n (lockOf ag r.fresh s1 h.base.toNat h.lastByte false) (startedWalk s iss o m v r.fresh)) := by
  intro n u h image ag hown hfree htlc hfront hheader hready hread hgood
  have hlocks : (r.core n).locks = (u.core n).locks := by
    have hleads := (u.leads_readNow iss.team m tgt 8).locks n
    rwa [hread] at hleads
  have hfree' : 1 ≤ freeLocks r n := by
    rw [freeLocks, hlocks]
    exact hfree
  obtain ⟨s1, hs1, hlock⟩ := lockRange_takes (s := { r with fresh := r.fresh + 1 }) (n := n) hfree' ag r.fresh h.base.toNat h.lastByte false
  refine ⟨s1, hs1, goesOn_of_finish ?_⟩
  have hstall : ((s.core n).walker.owner != 0 && !((s.core n).walker.owner == iss.team + 1) ||
      (u.core n).freeSlots == [] || decide ((s.team iss.team).tlc = 255)) = false := by
    have hsome : (u.core n).freeSlots ≠ [] := List.ne_nil_of_length_pos hfree
    rw [beq_eq_false_iff_ne.mpr hsome, decide_eq_false htlc]
    rcases hown with h0 | hmine
    · simp [h0]
    · simp [hmine]
  have hfront' : walkFront (seen s iss (.walkStart o)) (Handle.parse ((seen s iss (.walkStart o)).team.vregs m
      (opReg (seen s iss (.walkStart o)).team m (seen s iss (.walkStart o)).form 2) 4))
      (immBits (seen s iss (.walkStart o)).form.imm 1 0) = none := hfront
  have hheader' : (s.dropWalk (seen s iss (.walkStart o)).iss.team).headerAt (s.agentOf (seen s iss (.walkStart o)).iss.team m)
      (rd64 (seen s iss (.walkStart o)).team m (seen s iss (.walkStart o)).form 1).toNat = .ok tgt := hheader
  have hready' : (s.dropWalk (seen s iss (.walkStart o)).iss.team).readReady (seen s iss (.walkStart o)).iss.team m tgt 8 = true := hready
  have hread' : (s.dropWalk (seen s iss (.walkStart o)).iss.team).readNow (seen s iss (.walkStart o)).iss.team m tgt 8 = (r, v) := hread
  have hgood' : r.walkHeader v (rd64 (seen s iss (.walkStart o)).team m (seen s iss (.walkStart o)).form 1).toNat
      ((seen s iss (.walkStart o)).form.imm.getLsbD 2) = none := hgood
  have hrun : exec (.walkStart o) s = execWalkStart o s := rfl
  refine (exec_of_teamEffect (hrun.trans (execWalkStart.eq_1 o s)) hi hact).trans ?_
  refine congrArg (fun e => Host.Outcome.next (s.finish iss [] e)) ?_
  refine (if_neg fun hs => Bool.false_ne_true (hstall.symm.trans hs)).trans ?_
  simp only [hfront', hheader', hready', hread', hgood', Bool.not_true, Bool.false_eq_true, if_false]
  have hstarted : (({ r with fresh := r.fresh + 1 } : State).lockRange n ag r.fresh h.base.toNat h.lastByte false).setCore n
      { (({ r with fresh := r.fresh + 1 } : State).lockRange n ag r.fresh h.base.toNat h.lastByte false).core n with
        walker := startedWalk s iss o m v r.fresh } =
      walkStarted r n (lockOf ag r.fresh s1 h.base.toNat h.lastByte false) (startedWalk s iss o m v r.fresh) := by
    rw [hlock, withLocks, State.core_setCore_self, State.setCore_setCore]
    rfl
  exact congrArg (fun w : State => ({ st := w } : Effect)) hstarted

end

/-- Settles O41: WALK.START by `goesOn_of_walkStart`, WALK.QUERY reads its word, and WALK.STOP is `State.dropWalk`. -/
theorem walksStartAndStop : Obligations.WalksStartAndStop := by
  unfold Obligations.WalksStartAndStop
  intro ended
  have hended : ∀ s tn, ended s tn = s.dropWalk tn := fun s tn => (s.dropWalk_eq tn).symm
  refine ⟨fun o s iss m q r v tgt hi hact => ?start, fun o => ?query, fun s iss hi hact => ?stop⟩
  case start =>
    intro i T n u h image shape tr ag fwd inv hown hfree htlc hfront hheader hready hread hhigh hmid hfwd hfwd' hinv htr
    have hu : u = s.dropWalk iss.team := hended s iss.team
    clear_value u
    subst hu
    obtain ⟨s1, hs1, hgoes⟩ := goesOn_of_walkStart hi hact hown hfree htlc hfront hheader hready hread
      (walkHeader_of_good hhigh hmid hfwd hfwd' hinv htr)
    exact ⟨s1, hs1, startedWalk s iss o m v r.fresh, hgoes, rfl, rfl, rfl, rfl, rfl, rfl, rfl, rfl, rfl, rfl, rfl, rfl, rfl, rfl, rfl,
      rfl, rfl, rfl, rfl, rfl, rfl, rfl, rfl, rfl, fun y _ => walkContext_y _ _ _ _ _ _ _ _ _ _ y⟩
  case query =>
    exact gives32_of_laneInstr (val := fun s c _ => (s.core c.team.core).walker.query c.iss.team) (fun _ => rfl) rfl
      fun _ _ _ _ => rfl
  case stop =>
    obtain ⟨m, q, hcons⟩ := List.exists_cons_of_ne_nil hact
    rw [hended]
    exact goesOn_of_finish (exec_of_teamEffect rfl hi hcons)

end Sys2Proof.Machine
end

section
/-! PROOFS of the statement of the walk instructions (O46): what each outcome of an instruction leaves of the context, the effect of
each instruction, and that no turn stages more than one tile or marker. -/
namespace Sys2Proof.Machine
open Sys2Proof.Claims

/-! ### The outcomes of a walk instruction (15 R346, R354, R355) -/

theorem Walker.settle_of_running {w : Walker} (h : w.running = true) : w.settle = w := by simp [Walker.settle, h]

theorem Walker.flush_eq_flushed (w : Walker) : w.flush = flushed w := by
  unfold Walker.flush flushed
  by_cases hk : w.k = 0
  · rw [if_pos hk, if_neg (by omega)]
  · rw [if_neg hk, if_pos (by omega)]
    rfl

theorem Walker.flush_running (w : Walker) : w.flush.running = w.running := by
  unfold Walker.flush
  split <;> rfl

/-- A full tile lacks no row. -/
theorem Walker.stage_full {w : Walker} (h : w.k = w.rows) : w.stage =
    { w with staged := w.staged ++ [.tile w.handle.fmt w.part], produced := min (w.produced + 1) 0xFFFFFF, t := w.t + 1, k := 0,
             part := [] } := by
  simp [Walker.stage, h]

theorem setWalker_of_running (t : State) (n : Nat) {w : Walker} (hrun : w.running = true) : t.setWalker n w = withWalk t n w := by
  rw [State.setWalker, Walker.settle_of_running hrun]
  rfl

/-- A context stored once the range lock of its walk is gone. -/
theorem State.unlock_setWalker (s : State) (n op : Nat) (w : Walker) : (s.unlock n op).setWalker n w =
    s.setCore n { s.core n with locks := (s.core n).locks.filter (fun l => l.op != op), walker := w.settle } := by
  rw [State.setWalker, State.unlock]
  dsimp only
  rw [State.setCore_setCore, State.core_setCore_self]

theorem running_of_walking {s : State} {n : Nat} {w : Walker} (h : Walking s n w) : w.running = true := by
  obtain ⟨⟨-, -, -, -, -, hrun⟩, -⟩ := h
  exact hrun

/-- The outcome of an instruction, as the walk's step uses it. -/
theorem walkStep_of_outcome {s : State} {n : Nat} {w : Walker} {f : WalkFn} {r : State × WalkOut} (h : Walking s n w)
    (hf : f s (walkBlock s w) (Claims.walkAgent s w) w = r) : (s.core n).walker = w ∧
      f s (s.team ((s.core n).walker.owner - 1)).block (s.walkAgent n) (s.core n).walker = r := by
  obtain ⟨⟨iss, -, -, rfl, -, -⟩, -⟩ := h
  exact ⟨rfl, hf⟩

section
variable {s : State} {n : Nat} {w : Walker} (h : Walking s n w) {i : Instr} {f : WalkFn} (hx : exec i s = walkInstr s f)
include h hx

theorem exec_of_walking : exec i s = .next (s.walkStep n f) := by
  obtain ⟨⟨iss, hcur, rfl, rfl, howner, hrun⟩, -⟩ := h
  rw [hx, walkInstr, hcur]
  exact if_pos (by rw [howner, hrun, decide_eq_true rfl]; rfl)

theorem exec_of_walkOk {t : State} {w' : Walker} (hf : f s (walkBlock s w) (Claims.walkAgent s w) w = (t, .ok w'))
    (hrun : w'.running = true) : exec i s = .next (withWalk t n (w'.goTo (w.wpc + 1))) := by
  obtain ⟨rfl, hr⟩ := walkStep_of_outcome h hf
  rw [exec_of_walking h hx, ← setWalker_of_running (w := w'.goTo _) t n hrun]
  simp only [State.walkStep, hr]

theorem exec_of_walkJump {w' : Walker} {p : Nat} (hf : f s (walkBlock s w) (Claims.walkAgent s w) w = (s, .jump w' p))
    (hrun : w'.running = true) : exec i s = .next (withWalk s n (w'.goTo p)) := by
  obtain ⟨rfl, hr⟩ := walkStep_of_outcome h hf
  rw [exec_of_walking h hx, ← setWalker_of_running (w := w'.goTo p) s n hrun]
  simp only [State.walkStep, hr]

theorem exec_of_walkDone (hf : f s (walkBlock s w) (Claims.walkAgent s w) w = (s, .done w.flush)) :
    exec i s = .next (walkEnded s n w) := by
  obtain ⟨rfl, hr⟩ := walkStep_of_outcome h hf
  have hsettle : ∀ u : Walker, u.running = false → u.settle = if u.faulted = false ∧ u.staged = [] then {} else u := by
    intro u hu
    simp [Walker.settle, hu]
  rw [exec_of_walking h hx]
  simp only [State.walkStep, hr, State.unlock_setWalker, Walker.flush_eq_flushed]
  rw [hsettle _ rfl]
  rfl

theorem exec_of_walkBad (hf : f s (walkBlock s w) (Claims.walkAgent s w) w = (s, .bad)) :
    exec i s = .next (walkIllegal s n w) := by
  obtain ⟨rfl, hr⟩ := walkStep_of_outcome h hf
  have hsettle : ∀ u : Walker, u.faulted = true → u.settle = u := by
    intro u hu
    simp [Walker.settle, hu]
  rw [exec_of_walking h hx]
  simp only [State.walkStep, hr, State.unlock_setWalker]
  rw [hsettle _ rfl]
  rfl

end

/-! ### Registers (15 R351) -/

/-- An instruction that writes y_d and goes on. -/
def WalkSets (i : Instr) (d : BitVec 4) (f : Walker → Dbl) : Prop := ∀ s n w, Walking s n w →
  exec i s = .next (withWalk s n (({ w with y := w.y.set 0 d.toNat (f w) }).goTo (w.wpc + 1)))

theorem walkSets_of_walkReg {i : Instr} {d : BitVec 4} {f : Walker → Dbl} (hx : ∀ s, exec i s = walkInstr s (walkReg d f)) :
    WalkSets i d f := by
  intro s n w h
  have hrun := running_of_walking h
  exact exec_of_walkOk h (hx s) rfl hrun

/-- The bits of a sum of distinct powers of two. -/
theorem testBit_sum_powers (P : Nat → Bool) (N j : Nat) :
    ((List.range N).map fun i => if P i then 2 ^ i else 0).sum.testBit j = (decide (j < N) && P j) := by
  have hlt : ∀ N, ((List.range N).map fun i => if P i then 2 ^ i else 0).sum < 2 ^ N := by
    intro N
    induction N with
    | zero => exact Nat.one_pos
    | succ N ih =>
      rw [List.range_succ, List.map_append, List.sum_append, pow_succ]
      have : (if P N then 2 ^ N else 0) ≤ 2 ^ N := by split <;> omega
      simp only [List.map_cons, List.map_nil, List.sum_cons, List.sum_nil]
      omega
  induction N with
  | zero => simp
  | succ N ih =>
    rw [List.range_succ, List.map_append, List.sum_append, List.map_singleton, List.sum_singleton]
    by_cases hP : P N
    · rw [if_pos hP, Nat.add_comm]
      obtain hj | rfl | hj := lt_trichotomy j N
      · rw [Nat.testBit_two_pow_add_gt hj, ih]
        simp [hj, hj.trans (Nat.lt_succ_self N)]
      · rw [Nat.testBit_two_pow_add_eq, Nat.testBit_lt_two_pow (hlt j)]
        simp [hP]
      · have htop : 2 ^ N + ((List.range N).map fun i => if P i then 2 ^ i else 0).sum < 2 ^ j :=
          lt_of_lt_of_le (by rw [pow_succ]; have := hlt N; omega) (Nat.pow_le_pow_right two_pos hj)
        rw [Nat.testBit_lt_two_pow htop]
        simp [Nat.not_lt.mpr (Nat.succ_le_of_lt hj)]
    · rw [if_neg hP, add_zero, ih]
      obtain rfl | hj := eq_or_ne j N
      · simp [hP]
      · rw [show decide (j < N + 1) = decide (j < N) from decide_eq_decide.mpr (by omega)]

theorem walkMask_bit (a b : Dbl) (j : Nat) : (walkMask a b).getLsbD j = true ↔ j < 32 ∧ a.toInt ≤ j ∧ (j : Int) ≤ b.toInt := by
  rw [walkMask, BitVec.getLsbD_ofNat, testBit_sum_powers]
  simp only [Bool.and_eq_true, decide_eq_true_iff]
  omega

/-! ### Bodies and branches (15 R352) -/

theorem Walker.goTo_of_nil {w : Walker} (h : w.loops = []) (p : Nat) : w.goTo p = { w with wpc := p } := by
  simp only [Walker.goTo, h, loopEnd]

section
variable {w : Walker} {l : WalkLoop} {r : List WalkLoop} (h : w.loops = l :: r) {p : Nat}
include h

theorem Walker.goTo_within (hp : p ≠ l.last + 1) : w.goTo p = { w with wpc := p } := by
  rw [Walker.goTo, h, loopEnd, if_neg hp, ← h]

theorem Walker.goTo_next_pass (hp : p = l.last + 1) (hpass : l.pass + 1 < l.count) :
    w.goTo p = { w with wpc := l.first, loops := { l with pass := l.pass + 1 } :: r } := by
  rw [Walker.goTo, h, loopEnd, if_pos hp, if_pos hpass]

theorem Walker.goTo_past (hp : p = l.last + 1) (hpass : l.count ≤ l.pass + 1) : w.goTo p = ({ w with loops := r }).goTo p := by
  rw [Walker.goTo, h, loopEnd, if_pos hp, if_neg hpass.not_gt]
  rfl

end

section
variable (o : WalkOp) (s : State) (b : Nat) (ag : Agent) (w : Walker)

/-- A branch that is not taken goes on. -/
theorem walkBranch_of_not_taken {zero : Bool} (h : (w.reg o.a == 0) ≠ zero) : walkBranch o zero s b ag w = (s, .ok w) :=
  if_pos (bne_iff_ne.mpr h)

variable {o s b ag w}

theorem walkBranch_zero (himm : o.imm = 0) : walkBranch o (w.reg o.a == 0) s b ag w = (s, .bad) := by
  simp [walkBranch, himm]

variable (himm : o.imm ≠ 0)
include himm

/-- A taken branch in a body. -/
theorem walkBranch_in_body {first last : Nat} {r : List (Nat × Nat)} (hb : s.bodiesOf b ag w w.wpc w.wpc = .ok ((first, last) :: r)) :
    let p : Int := w.wpc + o.imm.toInt
    walkBranch o (w.reg o.a == 0) s b ag w = (s, if (first : Int) ≤ p ∧ p ≤ last + 1 then .jump w p.toNat else .bad) := by
  have hoff : o.imm.toInt ≠ 0 := fun h0 => himm (BitVec.eq_of_toInt_eq h0)
  intro p
  simp only [walkBranch, bne_self_eq_false, Bool.false_eq_true, if_false, hoff, hb, Bool.and_eq_true, decide_eq_true_iff]
  split <;> rfl

/-- A taken branch outside every body. -/
theorem walkBranch_outside (hb : s.bodiesOf b ag w w.wpc w.wpc = .ok []) :
    let p : Int := w.wpc + o.imm.toInt
    (p < 0 → walkBranch o (w.reg o.a == 0) s b ag w = (s, .bad)) ∧
    ((w.len : Int) ≤ p → walkBranch o (w.reg o.a == 0) s b ag w = (s, .done w.flush)) ∧
    (0 ≤ p → p < w.len → ∀ l, s.bodiesOf b ag w p.toNat p.toNat = .ok l →
      walkBranch o (w.reg o.a == 0) s b ag w = (s, if l = [] then .jump w p.toNat else .bad)) := by
  have hoff : o.imm.toInt ≠ 0 := fun h0 => himm (BitVec.eq_of_toInt_eq h0)
  intro p
  simp only [walkBranch, bne_self_eq_false, Bool.false_eq_true, if_false, hoff, hb]
  refine ⟨fun hlow => if_pos hlow, fun hhigh => ?beyond, fun hlow hhigh l hl => ?within⟩
  case beyond => exact (if_neg (by omega)).trans (if_pos hhigh)
  case within =>
    refine (if_neg (by omega)).trans ((if_neg (by omega)).trans ?_)
    rw [show (w.wpc : Int) + o.imm.toInt = p from rfl, hl]
    cases l <;> rfl

end

/-- What a taken BRZ and a taken BRNZ leave. -/
def BranchGoes (o : WalkOp) (s : State) (w : Walker) (t : State) : Prop :=
  (yOf w o.a = 0 → exec (.walkBrz o) s = .next t) ∧ (yOf w o.a ≠ 0 → exec (.walkBrnz o) s = .next t)

theorem branchGoes_of_taken {s t : State} {w : Walker} {o : WalkOp}
    (hgo : ∀ i, exec i s = walkInstr s (walkBranch o (w.reg o.a == 0)) → exec i s = .next t) : BranchGoes o s w t := by
  refine ⟨fun hzero => hgo _ ?brz, fun hne => hgo _ ?brnz⟩
  case brz =>
    have hreg : (w.reg o.a == 0) = true := beq_iff_eq.mpr hzero
    rw [hreg]
    rfl
  case brnz =>
    have hreg : (w.reg o.a == 0) = false := beq_eq_false_iff_ne.mpr hne
    rw [hreg]
    rfl

theorem walkFnLoop_of_fits {o : WalkOp} {s : State} {b : Nat} {ag : Agent} {w : Walker} {outer : List (Nat × Nat)}
    (hbodies : s.bodiesOf b ag w w.wpc w.wpc = .ok outer) (hlast : w.wpc + immBits o.imm 9 0 < w.len)
    (hinside : ∀ x ∈ outer, w.wpc + immBits o.imm 9 0 ≤ x.2) (hdepth : outer.length < 4) :
    let last := w.wpc + immBits o.imm 9 0
    let count := (w.reg o.a).toNat % 2 ^ 32
    walkFnLoop o s b ag w = (s, if count = 0 then .jump w (last + 1)
      else .ok { w with loops := { count := count, pass := 0, first := w.wpc + 1, last := last } :: w.loops }) := by
  intro last count
  have hfits : (decide (w.len ≤ last) || (outer.any fun x => decide (x.2 < last)) || decide (4 ≤ outer.length)) = false := by
    simpa [last, hlast, hdepth] using hinside
  unfold walkFnLoop
  dsimp only
  rw [hbodies]
  dsimp only
  rw [hfits, if_neg Bool.false_ne_true]
  split <;> rfl

/-! ### Rows (15 R353) -/

/-- The partial tile with a further row. -/
def Walker.withRow (w : Walker) (row : List Half) : Walker := { w with part := w.part ++ row, k := w.k + 1 }

theorem appended_eq (w : Walker) (row : List Half) : appended w row =
    if (w.withRow row).k = (w.withRow row).rows then (w.withRow row).stage else w.withRow row := by
  unfold appended
  change (if w.k + 1 = w.rows then _ else _) = if w.k + 1 = w.rows then _ else _
  split
  · next hk => exact (Walker.stage_full (w := w.withRow row) hk).symm
  · rfl

theorem appended_running (w : Walker) (row : List Half) : (appended w row).running = w.running := by
  rw [appended_eq]
  split <;> rfl

theorem exec_of_walkAppend {i : Instr} {row : Walker → Dbl} {col : Walker → Nat → Dbl} {on : Walker → Nat → Bool}
    (hx : ∀ s, exec i s = walkInstr s (walkAppend row col on)) (s : State) (n : Nat) (w : Walker) (t : State) (l : List Half)
    (h : Walking s n w)
    (hrow : s.rowElems (walkBlock s w) (Claims.walkAgent s w) w (row w).toInt (col w) (on w) 0 32 = .ok (t, l)) :
    exec i s = .next (withWalk t n ((appended w l).goTo (w.wpc + 1))) := by
  refine exec_of_walkOk h (hx s) ?_ ((appended_running w l).trans (running_of_walking h))
  rw [appended_eq, walkAppend, hrow]
  rfl

/-! ### What a walk instruction reads leaves the contexts as they are -/

/-- A choice between two reads that leave the contexts. -/
theorem State.leads_ite {α ε : Type} {p : Prop} [Decidable p] {s t : State} {a : α} {x y : Except ε (State × α)}
    (h : (if p then x else y) = .ok (t, a)) (hx : x = .ok (t, a) → s.Leads t) (hy : y = .ok (t, a) → s.Leads t) : s.Leads t := by
  split at h
  · exact hx h
  · exact hy h

theorem State.leads_ok {α ε : Type} {s t : State} {a b : α} (h : (.ok (s, b) : Except ε (State × α)) = .ok (t, a)) : s.Leads t := by
  cases h
  exact .refl s

theorem State.leads_engineRead {s t : State} {b a n v : Nat} {ag : Agent} (h : s.engineRead b ag a n = .ok (t, v)) : s.Leads t := by
  unfold State.engineRead at h
  split at h
  · cases h
  · next tgt _ =>
    have hlead := (s.leads_callHome (s.team ag.who.team).core tgt).trans (State.leads_reach _ tgt)
    dsimp only at h
    split at h <;> (cases h; exact hlead)

theorem State.leads_walkWord {s t : State} {b v : Nat} {ag : Agent} {a : Dbl} (h : s.walkWord b ag a = .ok (t, v)) : s.Leads t := by
  unfold State.walkWord at h
  split at h
  · exact State.leads_engineRead h
  · split at h
    · cases h
    · exact State.leads_ok h
    · cases h

theorem State.leads_walkCols {b : Nat} {ag : Agent} {a : Dbl} (n : Nat) {s t : State} {j : Nat} {cols cols' : SMap Dbl}
    (h : s.walkCols b ag a j n cols = .ok (t, cols')) : s.Leads t := by
  induction n generalizing s j cols with
  | zero => exact State.leads_ok h
  | succ n ih =>
    rw [State.walkCols] at h
    split at h
    · cases h
    · next hword => exact (State.leads_walkWord hword).trans (ih h)

theorem State.leads_readElem {s t : State} {b i j v : Nat} {ag : Agent} {x : Handle} (h : s.readElem b ag x i j = .ok (t, v)) :
    s.Leads t := by
  unfold State.readElem at h
  dsimp only at h
  split at h
  · cases h
  · next hread =>
    cases h
    exact State.leads_engineRead hread

theorem State.leads_viewElem {s t : State} {b v : Nat} {ag : Agent} {w : Walker} {r c : Int}
    (h : s.viewElem b ag w r c = .ok (t, v)) : s.Leads t :=
  State.leads_ite h State.leads_ok fun h => State.leads_ite h State.leads_ok State.leads_readElem

theorem State.leads_rowElems {b : Nat} {ag : Agent} {w : Walker} {r : Int} {col : Nat → Dbl} {on : Nat → Bool} (n : Nat)
    {s t : State} {j : Nat} {l : List Half} (h : s.rowElems b ag w r col on j n = .ok (t, l)) : s.Leads t := by
  induction n generalizing s t j l with
  | zero => exact State.leads_ok h
  | succ n ih =>
    rw [State.rowElems] at h
    split at h
    · cases h
    · next u v helem =>
      have hu : s.Leads u := State.leads_ite helem State.leads_viewElem State.leads_ok
      split at h
      · cases h
      · next hrest =>
        cases h
        exact hu.trans (ih hrest)

theorem State.assistEntry_cores (s : State) (n v : Nat) : (s.assistEntry n v).cores = s.cores := rfl

theorem State.assistCont_cores (s : State) (n : Nat) (cs : List (BitVec 256)) : (s.assistCont n cs).cores = s.cores := by
  induction cs generalizing s n with
  | nil => rfl
  | cons c r ih => exact (ih _ _).trans (s.assistEntry_cores n c.toNat)

theorem State.raise_cores (s : State) (f v : Nat) : (s.raise f v).cores = s.cores := by
  rw [State.raise]
  exact (apply_ite State.cores _ _ _).trans (ite_self _)

theorem State.postReferral_cores (s : State) (r : Referral) : (s.postReferral r).cores = s.cores := by
  unfold State.postReferral
  dsimp only
  split
  · rfl
  · rw [State.raise_cores]
    exact (State.assistCont_cores _ _ _).trans (State.assistEntry_cores _ _ _)

theorem State.postAll_cores (s : State) (rs : List Referral) : (s.postAll rs).cores = s.cores := by
  induction rs generalizing s with
  | nil => rfl
  | cons r rest ih =>
    rw [State.postAll]
    split
    · exact (ih _).trans (s.postReferral_cores r)
    · exact s.postReferral_cores r

/-- An access that waits leaves the cores as they are. -/
theorem State.waitFor_cores (s : State) (ag : Agent) (e : FaultInfo) : (s.waitFor ag e).cores = s.cores := by
  unfold State.waitFor State.referWalk
  dsimp only
  split
  · split
    · rfl
    · split
      · rfl
      · exact State.postAll_cores _ _
  · rfl

/-! ### A turn stages one tile or marker at most (15 R346) -/

/-- The contexts that an outcome leaves hold at most one more tile than `w`. -/
def WalkOut.stagesOne (w : Walker) : WalkOut → Prop
  | .ok w' | .jump w' _ | .done w' => w'.staged.length ≤ w.staged.length + 1
  | .bad | .failed _ => True

/-- A meaning that reads no context anew, and stages one tile at most. -/
def StagesOne (f : WalkFn) : Prop := ∀ s b ag w, s.Leads (f s b ag w).1 ∧ (f s b ag w).2.stagesOne w

theorem Walker.staged_settle_le (w : Walker) : w.settle.staged.length ≤ w.staged.length := by
  unfold Walker.settle
  split
  · exact Nat.zero_le _
  · exact le_rfl

theorem Walker.staged_stage (w : Walker) : w.stage.staged.length = w.staged.length + 1 := List.length_append

theorem Walker.staged_flush_le (w : Walker) : w.flush.staged.length ≤ w.staged.length + 1 := by
  unfold Walker.flush
  split
  · exact w.staged_stage.le
  · exact Nat.le_succ _

/-- Slots occupied in the buffer of core `m`. -/
def State.slots (s : State) (m : Nat) : Nat := (s.core m).walker.staged.length

theorem State.Leads.slots {s t : State} (h : s.Leads t) (m : Nat) : t.slots m = s.slots m := by
  rw [State.slots, h.walker m, State.slots]

theorem State.slots_setWalker_le {s : State} {n m k : Nat} {w : Walker} (hw : m = n → w.staged.length ≤ k) (hs : s.slots m ≤ k) :
    (s.setWalker n w).slots m ≤ k := by
  rw [State.slots, State.setWalker, State.core_setCore]
  split
  · next hm => exact w.staged_settle_le.trans (hw hm)
  · exact hs

theorem State.slots_unlock (s : State) (n op m : Nat) : (s.unlock n op).slots m = s.slots m := by
  rw [State.slots, State.unlock, State.slots, State.core_setCore]
  split
  · next hm => rw [hm]
  · rfl

theorem slots_walkStep_le {f : WalkFn} (hf : StagesOne f) {s : State} {m : Nat} (n : Nat) (hs : s.slots m < 4) :
    (s.walkStep n f).slots m ≤ 4 := by
  obtain ⟨hlead, hout⟩ := hf s (s.team ((s.core n).walker.owner - 1)).block (s.walkAgent n) (s.core n).walker
  have hle : ∀ k, k ≤ (s.core n).walker.staged.length + 1 → m = n → k ≤ 4 := by
    rintro k hk rfl
    exact hk.trans hs
  have hstays := hlead.slots m
  unfold State.walkStep
  dsimp only
  split
  · next w' hr =>
    rw [hr] at hout
    exact State.slots_setWalker_le (hle _ hout) (by omega)
  · next w' p hr =>
    rw [hr] at hout
    exact State.slots_setWalker_le (hle _ hout) (by omega)
  · next w' hr =>
    rw [hr] at hout
    exact State.slots_setWalker_le (hle _ hout) (by rw [State.slots_unlock]; omega)
  · exact State.slots_setWalker_le (hle _ List.length_append.le) (by rw [State.slots_unlock]; omega)
  · split
    · rw [(State.Leads.of_cores (State.waitFor_cores s _ _)).slots]
      omega
    · exact State.slots_setWalker_le (hle _ List.length_append.le) (by rw [State.slots_unlock]; omega)

theorem slots_walkInstr_le {f : WalkFn} (hf : StagesOne f) {s t : State} {m : Nat} (hs : s.slots m < 4)
    (ht : walkInstr s f = .next t) : t.slots m ≤ 4 := by
  unfold walkInstr at ht
  split at ht
  · cases ht
  · dsimp only at ht
    split at ht
    · cases ht
      exact slots_walkStep_le hf _ hs
    · cases ht
      exact hs.le

theorem stagesOne_walkReg (d : BitVec 4) (f : Walker → Dbl) : StagesOne (walkReg d f) := fun s _ _ _ => ⟨.refl s, Nat.le_succ _⟩

theorem stagesOne_bad : StagesOne fun s _ _ _ => (s, .bad) := fun s _ _ _ => ⟨.refl s, trivial⟩
theorem stagesOne_failed (e : FaultInfo) : StagesOne fun s _ _ _ => (s, .failed e) := fun s _ _ _ => ⟨.refl s, trivial⟩

theorem stagesOne_end : StagesOne walkFnEnd := fun s _ _ w => ⟨.refl s, w.staged_flush_le⟩
theorem stagesOne_flush : StagesOne fun s _ _ w => (s, .ok w.flush) := fun s _ _ w => ⟨.refl s, w.staged_flush_le⟩
theorem stagesOne_cset (o : WalkOp) : StagesOne (walkFnCset o) := fun s _ _ _ => ⟨.refl s, Nat.le_succ _⟩

theorem stagesOne_ldi (o : WalkOp) : StagesOne (walkFnLdi o) := by
  intro s b ag w
  unfold walkFnLdi
  split
  · exact ⟨.refl s, trivial⟩
  · next hread => exact ⟨State.leads_walkWord hread, Nat.le_succ _⟩

theorem stagesOne_cld (o : WalkOp) : StagesOne (walkFnCld o) := by
  intro s b ag w
  unfold walkFnCld
  split
  · exact ⟨.refl s, trivial⟩
  · next hread => exact ⟨State.leads_walkCols 32 hread, Nat.le_succ _⟩

theorem stagesOne_lidx (o : WalkOp) : StagesOne (walkFnLidx o) := by
  intro s b ag w
  unfold walkFnLidx
  split
  · exact ⟨.refl s, Nat.le_succ _⟩
  · exact ⟨.refl s, trivial⟩

theorem stagesOne_loop (o : WalkOp) : StagesOne (walkFnLoop o) := by
  intro s b ag w
  unfold walkFnLoop
  dsimp only
  split
  · exact ⟨.refl s, trivial⟩
  · split
    · exact ⟨.refl s, trivial⟩
    · split <;> exact ⟨.refl s, Nat.le_succ _⟩

theorem stagesOne_branch (o : WalkOp) (zero : Bool) : StagesOne (walkBranch o zero) := by
  intro s b ag w
  unfold walkBranch
  dsimp only
  split
  case isTrue => exact ⟨.refl s, Nat.le_succ _⟩
  case isFalse =>
    split
    case isTrue => exact ⟨.refl s, trivial⟩
    case isFalse =>
      split
      case h_1 => exact ⟨.refl s, trivial⟩
      case h_2 => split <;> [exact ⟨.refl s, Nat.le_succ _⟩; exact ⟨.refl s, trivial⟩]
      case h_3 =>
        split
        case isTrue => exact ⟨.refl s, trivial⟩
        case isFalse =>
          split
          case isTrue => exact ⟨.refl s, w.staged_flush_le⟩
          case isFalse => split <;> [exact ⟨.refl s, trivial⟩; exact ⟨.refl s, Nat.le_succ _⟩; exact ⟨.refl s, trivial⟩]

theorem stagesOne_append (row : Walker → Dbl) (col : Walker → Nat → Dbl) (on : Walker → Nat → Bool) :
    StagesOne (walkAppend row col on) := by
  intro s b ag w
  unfold walkAppend
  split
  · exact ⟨.refl s, trivial⟩
  · next t l hread =>
    refine ⟨State.leads_rowElems 32 hread, ?_⟩
    change (if (w.withRow l).k = (w.withRow l).rows then (w.withRow l).stage else w.withRow l).staged.length ≤ w.staged.length + 1
    split
    · exact (Walker.staged_stage _).le
    · exact Nat.le_succ _

/-- A meaning after which no buffer that had a free slot holds more than four. -/
def StagesOneMeaning (run : WalkOp → State → Host.Outcome State Fault Refusal) : Prop := ∀ o s t m, s.slots m < 4 →
  run o s = .next t → t.slots m ≤ 4

theorem stagesOneMeaning_of_walkInstr {run : WalkOp → State → Host.Outcome State Fault Refusal} {f : WalkOp → WalkFn}
    (hrun : ∀ o s, run o s = walkInstr s (f o)) (hf : ∀ o, StagesOne (f o)) : StagesOneMeaning run :=
  fun o s _ _ hs ht => slots_walkInstr_le (hf o) hs ((hrun o s).symm.trans ht)

theorem walkMeanings_stageOne : ∀ x ∈ walkMeanings, StagesOneMeaning x.2.2 := by
  simp only [walkMeanings, List.forall_mem_cons]
  refine ⟨?stop, ?movi, ?add, ?sub, ?addi, ?mul, ?divu, ?remu, ?and, ?xor, ?shli, ?shri, ?hash, ?ldi, ?loop, ?lidx, ?brz, ?brnz, ?row,
    ?rowm, ?cset, ?cld, ?rowl, ?msk, ?flush, List.forall_mem_nil _⟩
  case stop => exact stagesOneMeaning_of_walkInstr (fun _ _ => rfl) fun _ => stagesOne_end
  case ldi => exact stagesOneMeaning_of_walkInstr (fun _ _ => rfl) stagesOne_ldi
  case loop => exact stagesOneMeaning_of_walkInstr (fun _ _ => rfl) stagesOne_loop
  case lidx => exact stagesOneMeaning_of_walkInstr (fun _ _ => rfl) stagesOne_lidx
  case brz => exact stagesOneMeaning_of_walkInstr (fun _ _ => rfl) fun o => stagesOne_branch o true
  case brnz => exact stagesOneMeaning_of_walkInstr (fun _ _ => rfl) fun o => stagesOne_branch o false
  case row | rowm | rowl => exact stagesOneMeaning_of_walkInstr (fun _ _ => rfl) fun _ => stagesOne_append _ _ _
  case cset => exact stagesOneMeaning_of_walkInstr (fun _ _ => rfl) stagesOne_cset
  case cld => exact stagesOneMeaning_of_walkInstr (fun _ _ => rfl) stagesOne_cld
  case flush => exact stagesOneMeaning_of_walkInstr (fun _ _ => rfl) fun _ => stagesOne_flush
  all_goals exact stagesOneMeaning_of_walkInstr (fun _ _ => rfl) fun _ => stagesOne_walkReg _ _

theorem slots_walkRunWord_le {word : Word} {s t : State} {m : Nat} (hs : s.slots m < 4)
    (ht : walkRunWord word s = some (.next t)) : t.slots m ≤ 4 := by
  unfold walkRunWord at ht
  split at ht
  · next ok run hrow =>
    obtain ⟨_, _, hmem, -⟩ := List.lookup_eq_some_iff.mp hrow
    split at ht
    · exact walkMeanings_stageOne _ (hmem ▸ List.mem_append_right _ List.mem_cons_self) _ s t m hs (Option.some.inj ht)
    · cases ht
  · cases ht

theorem slots_walkTurn_le {s t : State} {n : Nat} (hs : s.slots n ≤ 4) (ht : s.walkTurn n = .next t) : t.slots n ≤ 4 := by
  unfold State.walkTurn at ht
  dsimp only at ht
  split at ht
  case isTrue =>
    cases ht
    exact hs
  case isFalse hready =>
    have hfree : ∀ c, State.slots { s with cur := c } n < 4 := by
      intro c
      simp only [State.walkReady, Bool.not_eq_true', Bool.not_eq_false, Bool.and_eq_true, decide_eq_true_iff] at hready
      exact hready.1.1.1.2
    split at ht
    · exact slots_walkInstr_le stagesOne_end (hfree _) ht
    · split at ht
      · next e _ =>
        cases ht
        exact slots_walkStep_le (stagesOne_failed e) n (hfree _)
      · next u v hfetch =>
        have hu : u.slots n < 4 := by
          rw [(State.leads_walkWord hfetch).slots n]
          exact hfree _
        cases hrun : walkRunWord (BitVec.ofNat 32 v) u with
        | none =>
          rw [hrun] at ht
          cases ht
          exact slots_walkStep_le stagesOne_bad n hu
        | some r =>
          rw [hrun] at ht
          exact slots_walkRunWord_le hu (hrun.trans (congrArg some ht))

/-! ### The statement -/

section
variable {o : WalkOp} {s t : State} {n : Nat} {w : Walker} (h : Walking s n w)
include h

theorem exec_walkLdi {v : Nat}
    (hword : s.walkWord (walkBlock s w) (Claims.walkAgent s w) (w.reg o.a + 4 * walkSext o) = .ok (t, v)) :
    exec (.walkLdi o) s = .next (withWalk t n ((w.setReg o.d (.ofNat 64 v)).goTo (w.wpc + 1))) := by
  have hrun := running_of_walking h
  refine exec_of_walkOk (f := walkFnLdi o) h rfl ?_ (w' := w.setReg o.d (.ofNat 64 v)) hrun
  rw [walkFnLdi, hword]

theorem exec_walkCld {cols : SMap Dbl}
    (hcols : s.walkCols (walkBlock s w) (Claims.walkAgent s w) (w.reg o.a) 0 32 w.cols = .ok (t, cols)) :
    exec (.walkCld o) s = .next (withWalk t n (({ w with cols := cols }).goTo (w.wpc + 1))) := by
  have hrun := running_of_walking h
  refine exec_of_walkOk (f := walkFnCld o) h rfl ?_ (w' := { w with cols := cols }) hrun
  rw [walkFnCld, hcols]

theorem exec_walkLidx {l : WalkLoop} (hl : w.loops[immBits o.imm 1 0]? = some l) :
    exec (.walkLidx o) s = .next (withWalk s n ((w.setReg o.d (.ofNat 64 l.pass)).goTo (w.wpc + 1))) := by
  have hrun := running_of_walking h
  refine exec_of_walkOk (f := walkFnLidx o) h rfl ?_ (w' := w.setReg o.d (.ofNat 64 l.pass)) hrun
  rw [walkFnLidx, hl]

theorem exec_walkFlush : exec .walkFlush s = .next (withWalk s n ((flushed w).goTo (w.wpc + 1))) := by
  rw [← Walker.flush_eq_flushed]
  exact exec_of_walkOk (f := fun s _ _ w => (s, .ok w.flush)) h rfl rfl (w.flush_running.trans (running_of_walking h))

theorem exec_walkLoop {outer : List (Nat × Nat)}
    (hbodies : s.bodiesOf (walkBlock s w) (Claims.walkAgent s w) w w.wpc w.wpc = .ok outer)
    (hlast : w.wpc + immBits o.imm 9 0 < w.len) (hinside : ∀ x ∈ outer, w.wpc + immBits o.imm 9 0 ≤ x.2) (hdepth : outer.length < 4) :
    let last := w.wpc + immBits o.imm 9 0
    let count := (w.reg o.a).toNat % 2 ^ 32
    exec (.walkLoop o) s = .next (withWalk s n (if count = 0 then w.goTo (last + 1) else
      ({ w with loops := { count := count, pass := 0, first := w.wpc + 1, last := last } :: w.loops }).goTo (w.wpc + 1))) := by
  intro last count
  have hrun := running_of_walking h
  have hf := walkFnLoop_of_fits hbodies hlast hinside hdepth
  dsimp only at hf
  split
  · next hcount =>
    rw [if_pos hcount] at hf
    exact exec_of_walkJump (f := walkFnLoop o) h rfl hf hrun
  · next hcount =>
    rw [if_neg hcount] at hf
    exact exec_of_walkOk (f := walkFnLoop o) h rfl hf hrun

/-- BRZ and BRNZ where the branch is not taken. -/
theorem exec_of_not_taken {i : Instr} {zero : Bool} (hx : exec i s = walkInstr s (walkBranch o zero))
    (hreg : (w.reg o.a == 0) ≠ zero) : exec i s = .next (withWalk s n (w.goTo (w.wpc + 1))) :=
  exec_of_walkOk h hx (walkBranch_of_not_taken o s _ _ w hreg) (running_of_walking h)

theorem branchGoes_illegal (hbad : walkBranch o (w.reg o.a == 0) s (walkBlock s w) (Claims.walkAgent s w) w = (s, .bad)) :
    BranchGoes o s w (walkIllegal s n w) :=
  branchGoes_of_taken fun _ hx => exec_of_walkBad h hx hbad

theorem branchGoes_ended (hdone : walkBranch o (w.reg o.a == 0) s (walkBlock s w) (Claims.walkAgent s w) w = (s, .done w.flush)) :
    BranchGoes o s w (walkEnded s n w) :=
  branchGoes_of_taken fun _ hx => exec_of_walkDone h hx hdone

theorem branchGoes_jump {P : Prop} [Decidable P] {p : Nat}
    (hjump : walkBranch o (w.reg o.a == 0) s (walkBlock s w) (Claims.walkAgent s w) w = (s, if P then .jump w p else .bad)) :
    BranchGoes o s w (if P then withWalk s n (w.goTo p) else walkIllegal s n w) := by
  split
  · next hP =>
    rw [if_pos hP] at hjump
    exact branchGoes_of_taken fun _ hx => exec_of_walkJump h hx hjump (running_of_walking h)
  · next hP =>
    rw [if_neg hP] at hjump
    exact branchGoes_illegal h hjump

end

theorem walkDivu_eq (o : WalkOp) (s : State) : exec (.walkDivu o) s =
    walkInstr s (walkReg o.d fun w => if yOf w o.b = 0 then .allOnes 64 else yOf w o.a / yOf w o.b) := rfl

/-- Settles O46: each instruction by the outcome of its meaning, and the slots by what one meaning stages. -/
theorem walkInstructions : Obligations.WalkInstructions := by
  unfold Obligations.WalkInstructions
  intro sets moves rows imm six c
  refine ⟨fun o => ?movi, fun o => ?add, fun o => ?sub, fun o => ?addi, fun o => ?mul, fun o => ?divu, fun o => ?remu, fun o => ?and,
    fun o => ?xor, fun o => ?shli, fun o => ?shri, fun o => ?hash, fun o => ?msk, walkMask_bit, fun o s n w t v h hword => ?ldi,
    fun o s n w h => ?loop, fun o s n w l h hl => ?lidx, fun o s n w h hne => ?brz, fun o s n w h hzero => ?brnz,
    fun o s n w h => ?taken, fun o => ?row, fun o => ?rowm, fun o => ?rowl, fun o s n w h => ?cset, fun o s n w t cols h hcols => ?cld,
    fun s n w h => exec_walkFlush h, fun s n w h => ?stop, fun s t n hs ht => slots_walkTurn_le hs ht,
    fun w p => ⟨fun hnil => Walker.goTo_of_nil hnil p, fun l r hl =>
      ⟨Walker.goTo_within hl, Walker.goTo_next_pass hl, Walker.goTo_past hl⟩⟩⟩
  case movi | add | sub | addi | mul | remu | and | xor | shli | shri | hash | msk => exact walkSets_of_walkReg fun _ => rfl
  case divu => exact walkSets_of_walkReg (walkDivu_eq o)
  case ldi => exact exec_walkLdi h hword
  case loop =>
    intro last count outer hbodies hlast hinside hdepth
    exact exec_walkLoop h hbodies hlast hinside hdepth
  case lidx => exact exec_walkLidx h hl
  case brz => exact exec_of_not_taken (zero := true) h rfl (mt beq_iff_eq.mp hne)
  case brnz =>
    have hreg : (w.reg o.a == 0) = true := beq_iff_eq.mpr hzero
    exact exec_of_not_taken (zero := false) h rfl (by rw [hreg]; decide)
  case taken =>
    intro p bodies goes
    refine ⟨fun himm => branchGoes_illegal h (walkBranch_zero himm),
      fun first last r himm hbody => branchGoes_jump h (walkBranch_in_body himm hbody), fun himm hfree => ?outside⟩
    obtain ⟨hbefore, hbeyond, hwithin⟩ := walkBranch_outside himm hfree
    exact ⟨fun hp => branchGoes_illegal h (hbefore hp), fun hp => branchGoes_ended h (hbeyond hp),
      fun hlow hhigh l hl => branchGoes_jump h (hwithin hlow hhigh l hl)⟩
  case row | rowm | rowl => exact exec_of_walkAppend fun _ => rfl
  case cset =>
    have hrun := running_of_walking h
    exact exec_of_walkOk (f := walkFnCset o) h rfl rfl hrun
  case cld => exact exec_walkCld h hcols
  case stop => exact exec_of_walkDone (f := walkFnEnd) h rfl rfl

end Sys2Proof.Machine
end

section
/-! PROOFS of the statement of emission (O42). -/
namespace Sys2Proof.Machine
open Sys2Proof.Claims

/-! ### Lists of lanes whose checks pass -/

theorem filterMap_eq_map_of_some {α β : Type} {f : α → Option β} {g : α → β} {ls : List α} (h : ∀ x ∈ ls, f x = some (g x)) :
    ls.filterMap f = ls.map g := by
  rw [List.filterMap_congr h, ← List.filterMap_eq_map]
  rfl

theorem emitLogs_of_notDet {s : State} {c : Ctx} (h : s.det (s.team c.iss.team).block = false) (ls : List (Nat × Nat)) :
    s.emitLogs c ls = [] := by
  refine List.filterMap_eq_nil_iff.mpr fun x _ => ?_
  simp [State.logNeed, h]

theorem recordBeyond_of_within {a n regs : Nat} (h : a + n ≤ regs) : recordBeyond a n regs = none := if_neg (not_lt.mpr h)

/-! ### Emissions (16 R373, R375) -/

/-- The emission of one lane. -/
def State.emissionOf (s : State) (c : Ctx) (a ins id : Nat) (seq : Word) (L n : Nat) : Emission :=
  { id := id, ins := ins, team := c.iss.team, block := c.team.block, core := c.team.core, lane := L, run := c.block.run,
    node := n,
    entry := { hdr := emitHeader seq c.block.node (s.newDepth c.iss.team L n),
               words := recordWords c.team L a (((s.run c.block.run).graph.nodes.getD n {}).rsize / 4), index := 0 },
    after := s.unacked c.iss.team, listed := false,
    sent := decide (s.unacked c.iss.team = []) }

theorem State.mkEmissions_eq (s : State) (c : Ctx) (a ins id : Nat) (seq : Word) (g : Nat → Nat) (ls : List Nat) (k : Nat) :
    s.mkEmissions c a ins (id + k) (seq + BitVec.ofNat 32 k) (ls.map fun L => (L, g L)) =
      (ls.zipIdx k).map fun x => s.emissionOf c a ins (id + x.2) (seq + BitVec.ofNat 32 x.2) x.1 (g x.1) := by
  induction ls generalizing k with
  | nil => rfl
  | cons L r ih =>
    have hseq : seq + BitVec.ofNat 32 k + 1 = seq + BitVec.ofNat 32 (k + 1) := by
      rw [BitVec.ofNat_add, BitVec.add_assoc]
      rfl
    have hsent : (s.unacked c.iss.team == []) = decide (s.unacked c.iss.team = []) := by
      rw [Bool.eq_iff_iff, beq_iff_eq, decide_eq_true_iff]
    rw [List.map_cons, State.mkEmissions, List.zipIdx_cons, List.map_cons, ← ih (k + 1), hseq, hsent]
    rfl

/-- What EMIT does with its lanes' targets and checks. -/
def emissionEffect (s : State) (c : Ctx) (found : List (Nat × Nat × Option FaultInfo)) : Effect :=
  let a := c.form.a.field.toNat
  let f1 := found.filterMap fun x => x.2.2.map fun e => (x.1, e)
  let ok1 := (found.filter fun x => x.2.2.isNone).map fun x => (x.1, x.2.1)
  let f2 := s.emitLogs c (ok1.map fun x => (x.1, (s.run c.block.run).homeDie x.2))
  let ok2 := ok1.filter fun x => (f2.lookup x.1).isNone
  let b := c.team.block
  let lines := s.pendingLines b
  let over' := if c.node.versioned then s.emitOver b ok2 ((s.block b).heldSize (s.rsizeOf b) lines) else []
  let f3 := over'.map fun L =>
    (L, ({ code := 0x13, info := BitVec.ofNat 32 ((s.block b).heldSize (s.rsizeOf b) [] / 1024) } : FaultInfo))
  let ok := ok2.filter fun x => !over'.contains x.1
  let faults := f1 ++ f2 ++ f3
  let es := s.mkEmissions c a s.fresh (s.fresh + 1) c.team.eseq ok
  let t := { c.team with eseq := c.team.eseq + BitVec.ofNat 32 es.length }
  if ok = [] then { st := s, faults := faults }
  else if c.node.versioned then
    if s.unacked c.iss.team != [] then { st := s, stall := true } else
    let held := es.map fun (e : Emission) => ({ node := e.node, team := e.team, entry := e.entry } : HeldRec)
    let k := s.block b
    { st := ((s.setBlock b { k with heldRecs := k.heldRecs ++ held }).setTeam c.iss.team t).releasePoint c.iss.team (ok.map (·.1))
      faults := faults }
  else if 65535 < c.team.emc + s.unsent c.iss.team + es.length then { st := s, stall := true }
  else
    { st := { s with emissions := s.emissions ++ es, fresh := s.fresh + 1 + es.length }.setTeam c.iss.team
        { t with emc := t.emc + (es.filter fun (e : Emission) => e.sent).length }
      faults := faults, waits := ok.map fun x => (x.1, .emit), check := true }

/-- The emissions of lanes `ls` to their nodes. -/
def State.emissionsOf (s : State) (c : Ctx) (g : Nat → Nat) (ls : List Nat) : List Emission :=
  ls.zipIdx.map fun x => s.emissionOf c c.form.a.field.toNat s.fresh (s.fresh + 1 + x.2) (c.team.eseq + BitVec.ofNat 32 x.2) x.1 (g x.1)

/-- The state once they are emitted. -/
def State.emitted (s : State) (c : Ctx) (g : Nat → Nat) : State :=
  let es := s.emissionsOf c g c.act
  { s with emissions := s.emissions ++ es, fresh := s.fresh + 1 + es.length }.setTeam c.iss.team
    { c.team with emc := c.team.emc + (if s.unacked c.iss.team = [] then es.length else 0)
                  eseq := c.team.eseq + BitVec.ofNat 32 es.length }

theorem emissionEffect_of_passed {s : State} {c : Ctx} {g : Nat → Nat} (hact : c.act ≠ []) (hplain : c.node.versioned = false)
    (hdet : s.det (s.team c.iss.team).block = false) (hroom : c.team.emc + s.unsent c.iss.team + c.act.length ≤ 65535) :
    emissionEffect s c (c.act.map fun L => (L, g L, none)) =
      { st := s.emitted c g, waits := c.act.map fun L => (L, .emit), check := true } := by
  have hfaults : (c.act.map fun L => (L, g L, (none : Option FaultInfo))).filterMap (fun x => x.2.2.map fun e => (x.1, e)) = [] :=
    filterMap_map_eq_nil fun _ _ => rfl
  have hpassed : (c.act.map fun L => (L, g L, (none : Option FaultInfo))).filter (fun x => x.2.2.isNone) =
      c.act.map fun L => (L, g L, none) := List.filter_eq_self.mpr fun x hx => by
    obtain ⟨L, -, rfl⟩ := List.mem_map.mp hx
    rfl
  have hlen : (s.emissionsOf c g c.act).length = c.act.length := by simp [State.emissionsOf]
  have hes : s.mkEmissions c c.form.a.field.toNat s.fresh (s.fresh + 1) c.team.eseq (c.act.map fun L => (L, g L)) =
      s.emissionsOf c g c.act := by
    have heq := s.mkEmissions_eq c c.form.a.field.toNat s.fresh (s.fresh + 1) c.team.eseq g c.act 0
    simpa [State.emissionsOf] using heq
  have hsent : ((s.emissionsOf c g c.act).filter fun (e : Emission) => e.sent).length =
      if s.unacked c.iss.team = [] then (s.emissionsOf c g c.act).length else 0 := by
    have hall : ∀ e ∈ s.emissionsOf c g c.act, e.sent = decide (s.unacked c.iss.team = []) := fun e he => by
      obtain ⟨x, -, rfl⟩ := List.mem_map.mp he
      rfl
    split
    · next h => rw [List.filter_eq_self.mpr fun e he => by rw [hall e he, h]; rfl]
    · next h =>
      rw [List.filter_eq_nil_iff.mpr fun e he => by rw [hall e he]; simpa using h]
      rfl
  have hne : c.act.map (fun L => (L, g L)) ≠ [] := by simpa using hact
  have hcount : ¬ 65535 < c.team.emc + s.unsent c.iss.team + (s.emissionsOf c g c.act).length := by omega
  simp only [emissionEffect, hfaults, hpassed, List.map_map, Function.comp_def, emitLogs_of_notDet hdet, List.lookup_nil,
    Option.isNone_none, List.filter_true, hplain, Bool.false_eq_true, if_false, List.contains_nil, Bool.not_false, List.map_nil,
    List.append_nil, hes, if_neg hne, if_neg hcount, hsent]
  rfl

/-- EMIT whose lanes' records pass their checks. -/
theorem does_of_emitInstr {i : Instr} {s : State} {iss : Issue} {self : Bool} {target : Ctx → Nat → Nat}
    (hx : exec i s = emitInstr i s self target) (h : Issued s iss i) (hact : actives s iss ≠ [])
    (hplain : (nodeAt s iss).versioned = false) (hdet : s.det (s.team iss.team).block = false)
    (hroom : (s.team iss.team).emc + s.unsent iss.team + (actives s iss).length ≤ 65535)
    (hpass : ∀ L, Act s iss L → s.emitCheck (seen s iss i) i.form.a.field.toNat (target (seen s iss i) L) L self = none) :
    Does i s iss (s.emitted (seen s iss i) (target (seen s iss i))) [] id
      (fun L l => if Act s iss L then waitsFor .emit l else goneOn iss l) (fun _ => True) fun t => t.checkDead iss.team := by
  have hfound : ((actives s iss).map fun L => (L, target (seen s iss i) L,
      s.emitCheck (seen s iss i) i.form.a.field.toNat (target (seen s iss i) L) L self)) =
      (actives s iss).map fun L => (L, target (seen s iss i) L, none) := List.map_congr_left fun L hL => by rw [hpass L hL]
  have hexec : exec i s = .next (s.finish iss []
      { st := s.emitted (seen s iss i) (target (seen s iss i)), waits := (actives s iss).map fun L => (L, .emit), check := true }) := by
    rw [hx, emitInstr, runInstr_of_issued h]
    refine congrArg (fun e => Host.Outcome.next (s.finish iss [] e)) ?_
    refine Eq.trans ?_ (emissionEffect_of_passed (c := seen s iss i) (g := target (seen s iss i)) hact hplain hdet hroom)
    exact congrArg (emissionEffect s (seen s iss i)) hfound
  exact does_of_clean hexec rfl rfl (Effect.from_self rfl)
    (fun L _ l => Lane.after_waits l iss rfl (lookup_map_lane _ (fun _ => Wait.emit) L)) trivial

theorem emitCheck_of_permitted {s : State} {c : Ctx} {a n L : Nat} {self : Bool} (hperm : s.permits c.team.block n self = true)
    (hregs : a + ((s.run c.block.run).graph.nodes.getD n {}).rsize / 4 ≤ c.node.regs)
    (hdepth : s.newDepth c.iss.team L n ≤ ((s.run c.block.run).graph.nodes.getD n {}).depth) : s.emitCheck c a n L self = none := by
  simp only [State.emitCheck, hperm, recordBeyond_of_within hregs, Bool.not_true, Bool.false_eq_true, if_false, if_neg (not_lt.mpr hdepth)]

/-! ### Reservations (16 R376) -/

/-- Every lane's target has a group. -/
theorem remoteTarget_mem_groups (c : Ctx) {ls : List Nat} {L : Nat} (hL : L ∈ ls) : remoteTarget c L ∈ remoteGroups c ls := by
  have hgrows : ∀ (ls : List Nat) (gs : List (Nat × Nat)) (g : Nat × Nat), (g ∈ gs ∨ g ∈ ls.map (remoteTarget c)) →
      g ∈ ls.foldl (fun gs L => if gs.contains (remoteTarget c L) then gs else gs ++ [remoteTarget c L]) gs := fun ls => by
    induction ls with
    | nil => simp
    | cons a r ih =>
      intro gs g hg
      rw [List.foldl_cons]
      refine ih _ _ ?_
      by_cases hin : gs.contains (remoteTarget c a) = true
      · rw [if_pos hin]
        rcases hg with hg | hg
        · exact .inl hg
        · rcases List.mem_cons.mp hg with rfl | hg
          · exact .inl (List.contains_iff_mem.mp hin)
          · exact .inr hg
      · rw [if_neg hin, List.mem_append, List.mem_singleton]
        rcases hg with hg | hg
        · exact .inl (.inl hg)
        · rcases List.mem_cons.mp hg with hg | hg
          · exact .inl (.inr hg)
          · exact .inr hg
  exact hgrows ls [] _ (.inr (List.mem_map_of_mem hL))

/-- The reservations of lanes `ls`, for records of `4 (n + 1)` words. -/
def State.reserves (s : State) (c : Ctx) (n : Nat) (ls : List Nat) : List RemoteOut :=
  (remoteGroups c ls).map (s.mkReserve c c.form.a.field.toNat n ls)

/-- Every lane is in a reservation. -/
theorem State.mem_reserves (s : State) (c : Ctx) (n : Nat) {ls : List Nat} {L : Nat} (hL : L ∈ ls) :
    ∃ x ∈ s.reserves c n ls, L ∈ x.lanes :=
  ⟨_, List.mem_map_of_mem (remoteTarget_mem_groups c hL), List.mem_filter.mpr ⟨hL, beq_self_eq_true _⟩⟩

/-- What a lane of an EMIT.REMOTE waits for. -/
def remoteWait (ms : List RemoteOut) (L : Nat) : Wait :=
  .remote (((ms.find? fun x => x.lanes.contains L).map (·.token)).getD 0)

/-- What EMIT.REMOTE does with its lanes' checks. -/
def reserveEffect (s : State) (c : Ctx) (n : Nat) (found : List (Nat × Option FaultInfo)) : Effect :=
  let f1 := found.filterMap fun x => x.2.map fun e => (x.1, e)
  let ok1 := (found.filter fun x => x.2.isNone).map (·.1)
  let f2 := s.emitLogs c (ok1.map fun L => (L, dieOfCore c.team.core))
  let ok := ok1.filter fun L => (f2.lookup L).isNone
  if ok = [] then { st := s, faults := f1 ++ f2 }
  else if 65535 < c.team.emc + s.unsent c.iss.team + ok.length then { st := s, stall := true }
  else
    let ms := s.reserves c n ok
    let t := { c.team with eseq := c.team.eseq + BitVec.ofNat 32 ok.length }
    { st := ms.foldl (fun s m => s.sendReserve c.block.func m) (s.setTeam c.iss.team t)
      faults := f1 ++ f2
      waits := ok.filterMap fun L => (ms.find? fun m => m.lanes.contains L).map fun m => (L, .remote m.token)
      check := true }

theorem reserveEffect_of_passed {s : State} {c : Ctx} {n : Nat} (hact : c.act ≠ []) (hdet : s.det (s.team c.iss.team).block = false)
    (hroom : c.team.emc + s.unsent c.iss.team + c.act.length ≤ 65535) :
    reserveEffect s c n (c.act.map fun L => (L, none)) =
      { st := (s.reserves c n c.act).foldl (fun s m => s.sendReserve c.block.func m)
          (s.setTeam c.iss.team { c.team with eseq := c.team.eseq + BitVec.ofNat 32 c.act.length })
        waits := c.act.map fun L => (L, remoteWait (s.reserves c n c.act) L), check := true } := by
  have hfaults : (c.act.map fun L => (L, (none : Option FaultInfo))).filterMap (fun x => x.2.map fun e => (x.1, e)) = [] :=
    filterMap_map_eq_nil fun _ _ => rfl
  have hpassed : (c.act.map fun L => (L, (none : Option FaultInfo))).filter (fun x => x.2.isNone) =
      c.act.map fun L => (L, none) := List.filter_eq_self.mpr fun x hx => by
    obtain ⟨L, -, rfl⟩ := List.mem_map.mp hx
    rfl
  have hwaits : c.act.filterMap (fun L => ((s.reserves c n c.act).find? fun m => m.lanes.contains L).map fun m => (L, Wait.remote m.token)) =
      c.act.map fun L => (L, remoteWait (s.reserves c n c.act) L) := filterMap_eq_map_of_some fun L hL => by
    obtain ⟨x, hx, hin⟩ := s.mem_reserves c n hL
    have hsome : ((s.reserves c n c.act).find? fun m => m.lanes.contains L).isSome = true :=
      List.find?_isSome.mpr ⟨x, hx, List.contains_iff_mem.mpr hin⟩
    obtain ⟨y, hy⟩ := Option.isSome_iff_exists.mp hsome
    rw [remoteWait, hy]
    rfl
  have hcount : ¬ 65535 < c.team.emc + s.unsent c.iss.team + c.act.length := by omega
  simp only [reserveEffect, hfaults, hpassed, List.map_map, Function.comp_def, List.map_id', emitLogs_of_notDet hdet, List.lookup_nil,
    Option.isNone_none, List.filter_true, List.append_nil, if_neg hact, if_neg hcount, hwaits]

theorem does_of_emitRemote {o : L64} {s : State} {iss : Issue} (h : Issued s iss (.emitRemote o)) (hact : actives s iss ≠ [])
    (hdet : s.det (s.team iss.team).block = false)
    (hroom : (s.team iss.team).emc + s.unsent iss.team + (actives s iss).length ≤ 65535)
    (hpass : ∀ L, Act s iss L → s.remoteCheck (seen s iss (.emitRemote o)) (Instr.emitRemote o).form.a.field.toNat
      (4 * (natBits o.imm.toNat 3 0 + 1)) L = none) :
    let c := seen s iss (.emitRemote o)
    let ms := s.reserves c (natBits o.imm.toNat 3 0) (actives s iss)
    Does (.emitRemote o) s iss (ms.foldl (fun u x => u.sendReserve c.block.func x)
        (s.setTeam iss.team { s.team iss.team with eseq := (s.team iss.team).eseq + BitVec.ofNat 32 (actives s iss).length })) [] id
      (fun L l => if Act s iss L then waitsFor (remoteWait ms L) l else goneOn iss l) (fun _ => True) fun t => t.checkDead iss.team := by
  intro c ms
  have hfound : ((actives s iss).map fun L => (L, s.remoteCheck c (Instr.emitRemote o).form.a.field.toNat
      (4 * (natBits o.imm.toNat 3 0 + 1)) L)) = (actives s iss).map fun L => (L, none) :=
    List.map_congr_left fun L hL => by rw [hpass L hL]
  have hexec : exec (.emitRemote o) s = .next (s.finish iss []
      { st := ms.foldl (fun s m => s.sendReserve c.block.func m)
          (s.setTeam iss.team { s.team iss.team with eseq := (s.team iss.team).eseq + BitVec.ofNat 32 (actives s iss).length })
        waits := (actives s iss).map fun L => (L, remoteWait ms L), check := true }) := by
    have hrun : exec (.emitRemote o) s = execEmitRemote o s := rfl
    rw [hrun, execEmitRemote, runInstr_of_issued h]
    refine congrArg (fun e => Host.Outcome.next (s.finish iss [] e)) ?_
    refine Eq.trans ?_ (reserveEffect_of_passed (c := c) (n := natBits o.imm.toNat 3 0) hact hdet hroom)
    exact congrArg (reserveEffect s c (natBits o.imm.toNat 3 0)) hfound
  exact does_of_clean hexec rfl rfl (Effect.from_self rfl)
    (fun L _ l => Lane.after_waits l iss rfl (lookup_map_lane _ (remoteWait ms) L)) trivial

theorem exec_emit (o : L64) (s : State) :
    exec (.emit o) s = emitInstr (.emit o) s false fun c _ => natBits c.form.imm.toNat 11 0 := rfl
theorem exec_emitReg (o : L64) (s : State) : exec (.emitReg o) s =
    emitInstr (.emitReg o) s false fun c L => natBits (c.team.vreg L c.form.b.field.toNat).toNat 11 0 := rfl
theorem exec_emitSelf (o : L64) (s : State) : exec (.emitSelf o) s = emitInstr (.emitSelf o) s true fun c _ => c.block.node := rfl

/-- Settles O42: EMIT and EMIT.SELF by `does_of_emitInstr`, EMIT.REMOTE by `does_of_emitRemote`. -/
theorem emitsSendRecords : Obligations.EmitsSendRecords := by
  unfold Obligations.EmitsSendRecords
  intro emits
  refine ⟨fun o s iss h hact => ?literal, fun o s iss h hact => ?register, fun o s iss h hact => ?self, fun o s iss h hact => ?remote⟩
  case literal =>
    intro T k target a depth hplain hdet hroom hpass
    exact does_of_emitInstr (exec_emit o s) h hact hplain hdet hroom fun L hL =>
      emitCheck_of_permitted (hpass L hL).1 (hpass L hL).2.1 (hpass L hL).2.2
  case register =>
    intro T k target a depth hplain hdet hroom hpass
    exact does_of_emitInstr (exec_emitReg o s) h hact hplain hdet hroom fun L hL =>
      emitCheck_of_permitted (hpass L hL).1 (hpass L hL).2.1 (hpass L hL).2.2
  case self =>
    intro T k target a depth hplain hdet hroom hpass
    exact does_of_emitInstr (exec_emitSelf o s) h hact hplain hdet hroom fun L hL =>
      emitCheck_of_permitted (hpass L hL).1 (hpass L hL).2.1 (hpass L hL).2.2
  case remote =>
    intro T c a n ms hdet hroom hpass
    exact ⟨fun L hL => s.mem_reserves c n hL, does_of_emitRemote h hact hdet hroom hpass⟩

end Sys2Proof.Machine
end

section
/-! PROOFS of the statement of scalar floating point (O43): a floating-point instruction writes the registers of its lanes and counts
their events in the block; each element is the one rounding of its exact value. -/
namespace Sys2Proof.Machine
open Sys2Proof.Claims

/-! ### Forms of the float instructions -/

@[simp] theorem Form.fmt_d (F : Form) (x : FFmt) : (F.fmt x).d = F.d := by cases x <;> rfl
@[simp] theorem Form.fmt_c (F : Form) (x : FFmt) : (F.fmt x).c = F.c := by cases x <;> rfl
@[simp] theorem Form.fmt_imm (F : Form) (x : FFmt) : (F.fmt x).imm = F.imm := by cases x <;> rfl
@[simp] theorem Form.fmt_hintv (F : Form) (x : FFmt) : (F.fmt x).hintv = F.hintv := by cases x <;> rfl

/-! ### Elements (13 R314) -/

theorem floatFmt_ffmtIndex (f : FFmt) : floatFmt (ffmtIndex f) = elFmt f := by cases f <;> rfl

/-- The elements of a result, computed from the elements of the operands. -/
theorem ffmtMap_part (f : FFmt) (g : (Word → Nat) → ElemResult) :
    ffmtMap f (fun h => g (ffmtPart f h)) = joined f fun h => g fun w => elOf f w h := by
  have hpart : ∀ h, h < ffmtElems f → ffmtPart f h = fun w => elOf f w h := by
    intro h hh
    funext w
    cases f with
    | f32 =>
      obtain rfl : h = 0 := Nat.lt_one_iff.mp hh
      rw [ffmtPart, Nat.mul_zero, pow_zero, Nat.div_one]
      exact Nat.mod_eq_of_lt w.isLt
    | f16 | bf16 | f16x2 => rfl
  have hmap : ffmtMap f (fun h => g (ffmtPart f h)) = ffmtMap f fun h => g fun w => elOf f w h := by
    unfold ffmtMap
    refine congrArg (fun rs : List (Nat × ElemResult) => (BitVec.ofNat 32 ((rs.map fun x => x.2.1 * 2 ^ (16 * x.1)).sum),
      rs.flatMap fun x => eventIndex (ffmtIndex f) x.2.2)) (List.map_congr_left fun h hh => ?_)
    simp only [hpart h (List.mem_range.mp hh)]
  have hevent : ∀ (k : Nat) (e : Option Nat), eventIndex k e = e.toList.map fun j => 4 * k + j := by
    intro k e
    cases e <;> rfl
  rw [hmap]
  cases f <;> simp [ffmtMap, joined, ffmtElems, ffmtIndex, List.range_succ, hevent, mul_comm]

/-! ### What a float instruction leaves -/

theorem vectorFrame_mono {s t : State} {iss : Issue} {dest dest' : Nat → Nat → Prop} (h : VectorFrame s t iss dest)
    (hsub : ∀ L n, dest L n → dest' L n) : VectorFrame s t iss dest' := by
  obtain ⟨honly, hteam, hlanes, hregs⟩ := h
  exact ⟨honly, hteam, hlanes, fun L n hL hn hd => hregs L n hL hn (mt (hsub L n) hd)⟩

/-- An effect on vector registers that counts events of a block. -/
theorem State.finish_countEvents (s : State) (iss : Issue) (W : Team) (b : Nat) (events : List Nat) :
    s.finish iss [] { st := (s.setTeam iss.team W).countEvents b events } =
      (s.countEvents b events).setTeam iss.team (W.issuedBy iss { st := s.countEvents b events }) := by
  rw [State.finish_clean _ _ _ rfl rfl]
  simp only [State.checkMasks, List.foldl_nil, Bool.false_eq_true, if_false, State.countEvents_setTeam, State.team_setTeam_self,
    State.setTeam_setTeam]
  rfl

/-- Its frame. -/
theorem vectorFrame_countEvents {s : State} {iss : Issue} {W : Team} {dest : Nat → Nat → Prop} (b : Nat) (events : List Nat)
    (hW : VectorsOnly (s.team iss.team) W) (hstay : ∀ L n, n < 512 → ¬ dest L n → W.vreg L n = (s.team iss.team).vreg L n) :
    VectorFrame (s.countEvents b events)
      ((s.countEvents b events).setTeam iss.team (W.issuedBy iss { st := s.countEvents b events })) iss dest := by
  refine vectorFrame_issuedBy ?_ ?_ <;> rw [State.team_countEvents]
  · exact hW
  · exact hstay

theorem floatInstr_of_issued {s : State} {iss : Issue} {i : Instr} (h : Issued s iss i) (g : Ctx → Nat → Word × List Nat) :
    let W := written32 s iss i fun L => (g (seen s iss i) L).1
    let events := (actives s iss).flatMap fun L => (g (seen s iss i) L).2
    floatInstr i s g = .next (s.finish iss [] { st := (s.setTeam iss.team W).countEvents (s.team iss.team).block events }) := by
  refine (runInstr_of_issued h _).trans ?_
  simp only [List.foldl_map, List.flatMap_map]
  rfl

theorem givesFloat_of_floatInstr {i : Instr} {g : Ctx → Nat → Word × List Nat} {val : State → Issue → Nat → Word × List Nat}
    (hx : ∀ s, exec i s = floatInstr i s g) (hd : i.form.d.kind = .v) (hval : ∀ s iss L, g (seen s iss i) L = val s iss L) :
    GivesFloat i val := by
  intro s iss h
  simp only [← hval]
  refine ⟨_, ((hx s).trans (floatInstr_of_issued h g)).trans (congrArg Host.Outcome.next (State.finish_countEvents _ _ _ _ _)),
    vectorFrame_countEvents _ _ ?frame fun L n hn hnot => ?stay, fun L hL => ?value⟩
  case frame => exact VectorsOnly.foldl (fun _ _ => vectorsOnly_wr32 _ _ _ _ _) _
  case stay => rw [written32_vreg h hd _ _ hn, if_neg hnot]
  case value =>
    have hlt : destReg s iss i L < 512 := destReg_lt (n := 0) h hL (by rw [hd]; decide)
    rw [State.team_setTeam_self, Team.issuedBy_vreg, written32_vreg h hd _ _ hlt, if_pos ⟨hL, rfl⟩]

/-- The result and events of each lane computed element by element. -/
theorem givesFloat_of_elements {i : Instr} {f : FFmt} {g : Ctx → Nat → (Word → Nat) → ElemResult}
    {el : State → Issue → Nat → Nat → Nat × Option Nat}
    (hx : ∀ s, exec i s = floatInstr i s fun c L => ffmtMap f fun h => g c L (ffmtPart f h)) (hd : i.form.d.kind = .v)
    (hel : ∀ s iss L h, g (seen s iss i) L (fun w => elOf f w h) = el s iss L h) :
    GivesFloat i fun s iss L => joined f (el s iss L) :=
  givesFloat_of_floatInstr hx hd fun s iss L => (ffmtMap_part f _).trans (congrArg (joined f) (funext (hel s iss L)))

/-! ### FADD, FSUB, FMUL and FFMA (13 R317, R318) -/

theorem Num.beq_nan (x : Num) : (x == .nan) = x.isNan := by cases x <;> rfl
theorem Num.beq_inf (x : Num) : (x == .inf true || x == .inf false) = x.isInf := by
  cases x with
  | nan => rfl
  | inf n => cases n <;> rfl
  | fin n m e => rfl

/-- A rounded result with its event, as the statements write it. -/
theorem roundedWith_eq (x : Num) (F : FloatFmt) (mode : Mode) (sat : Bool) (ops : List Num) : roundedWith x F mode sat ops =
    ((roundTo x F mode sat).bits, resultEvent x (roundTo x F mode sat) (ops.any Num.isNan) (ops.any Num.isInf)) := by
  simp only [roundedWith, resultEvent, Num.beq_nan, Num.beq_inf]

/-- The sum of two zeros that R318 writes out is the sum of their values. -/
theorem arithExact_three (mode : Mode) (a b c : Num) : arithExact 3 mode a b c = (a.mul b).add c mode := by
  simp only [arithExact]
  norm_num only [if_false]
  split
  · simp [*, Num.add, Num.units]
  · rfl

theorem arithElem_two {op : Nat} (hop : op ≠ 3) (f : FFmt) (mode : Mode) (sat : Bool) (a b c : Nat) (x : Num)
    (hx : arithExact op mode ((elFmt f).value a) ((elFmt f).value b) (.fin false 0 0) = x) :
    arithElem op (ffmtIndex f) mode sat a b c = roundedWith x (elFmt f) mode sat [(elFmt f).value a, (elFmt f).value b] := by
  subst hx
  rw [roundedWith_eq, arithElem, floatFmt_ffmtIndex, if_neg hop]
  simp [Num.isNan, Num.isInf]

theorem arithElem_three (f : FFmt) (mode : Mode) (sat : Bool) (a b c : Nat) : arithElem 3 (ffmtIndex f) mode sat a b c =
    roundedWith (((elFmt f).value a).mul ((elFmt f).value b) |>.add ((elFmt f).value c) mode) (elFmt f) mode sat
      [(elFmt f).value a, (elFmt f).value b, (elFmt f).value c] := by
  rw [roundedWith_eq, arithElem, floatFmt_ffmtIndex, if_pos rfl, arithExact_three]
  simp [Bool.or_assoc]

/-- What a form of an arithmetic instruction says of the rounding. -/
def FormRounds (F : Form) (hint : BitVec 2) (imm : BitVec 14) : Prop := F.d.kind = .v ∧ F.hintv = hint ∧ F.imm = imm

theorem givesFloat_of_arith {i : Instr} {f : FFmt} {op : Nat} {lit : Option Word} {hint : BitVec 2} {imm : BitVec 14}
    {x : Mode → Num → Num → Num → Num} {three : Bool} {b : State → Issue → Nat → Word}
    (hx : ∀ s, exec i s = arithInstr i op f lit s) (hform : FormRounds i.form hint imm)
    (hb : ∀ s iss L, opB32 lit (s.team iss.team) L i.form = b s iss L)
    (hel : ∀ mode sat a b c, let v := (elFmt f).value
      arithElem op (ffmtIndex f) mode sat a b c = roundedWith (x mode (v a) (v b) (v c)) (elFmt f) mode sat
        (if three then [v a, v b, v c] else [v a, v b])) :
    GivesFloat i fun s iss L => joined f fun h =>
      let v (w : Word) := (elFmt f).value (elOf f w h)
      roundedWith (x (.ofHint hint) (v (op32 s iss i 1 L)) (v (b s iss L)) (v (op32 s iss i 3 L))) (elFmt f) (.ofHint hint)
        (imm.getLsbD 8) (if three then [v (op32 s iss i 1 L), v (b s iss L), v (op32 s iss i 3 L)]
          else [v (op32 s iss i 1 L), v (b s iss L)]) := by
  obtain ⟨hd, rfl, rfl⟩ := hform
  simp only [← hb]
  exact givesFloat_of_elements (g := fun c L p => arithElem op (ffmtIndex f) (.ofHint c.form.hintv) (indSAT c.form.imm)
    (p (rd32 c.team L c.form 1)) (p (opB32 lit c.team L c.form)) (p (rd32 c.team L c.form 3))) hx hd
    fun s iss L h => hel _ _ _ _ _

/-! ### FMIN, FMAX and sign operations (13 R319, R321, R322) -/

theorem givesFloat_of_minMax {i : Instr} {f : FFmt} {max : Bool} {lit : Option Word} {b : State → Issue → Nat → Word}
    (hx : ∀ s, exec i s = minMaxInstr i max f lit s) (hd : i.form.d.kind = .v)
    (hb : ∀ s iss L, opB32 lit (s.team iss.team) L i.form = b s iss L) : GivesFloat i fun s iss L => joined f fun h =>
      (floatMinMax (elFmt f) max (elOf f (op32 s iss i 1 L) h) (elOf f (b s iss L) h), none) := by
  simp only [← hb]
  exact givesFloat_of_elements (g := fun c L p => (floatMinMax (floatFmt (ffmtIndex f)) max (p (rd32 c.team L c.form 1))
    (p (opB32 lit c.team L c.form)), none)) hx hd fun s iss L h => by rw [floatFmt_ffmtIndex]; rfl

theorem elOf_lt (f : FFmt) (w : Word) (h : Nat) : elOf f w h < 2 ^ (elFmt f).width := by
  cases f with
  | f32 => exact w.isLt
  | f16 | bf16 | f16x2 => exact Nat.mod_lt _ (Nat.two_pow_pos 16)

theorem givesFloat_of_sign {i : Instr} {f : FFmt} {g g' : FloatFmt → Nat → Nat} (hx : ∀ s, exec i s = signInstr i f g s)
    (hd : i.form.d.kind = .v) (hg : ∀ w, w < 2 ^ (elFmt f).width → g (elFmt f) w = g' (elFmt f) w) :
    GivesFloat i fun s iss L => joined f fun h => (g' (elFmt f) (elOf f (op32 s iss i 1 L) h), none) :=
  givesFloat_of_elements (g := fun c L p => (g (floatFmt (ffmtIndex f)) (p (rd32 c.team L c.form 1)), none)) hx hd
    fun s iss L h => by rw [floatFmt_ffmtIndex]; exact congrArg (·, none) (hg _ (elOf_lt f _ h))

/-- Flipping the top bit of a number is adding it modulo the next power of two. -/
theorem Nat.xor_two_pow_eq_add_mod {w k : Nat} (hw : w < 2 ^ (k + 1)) : Nat.xor w (2 ^ k) = (w + 2 ^ k) % 2 ^ (k + 1) := by
  refine Nat.eq_of_testBit_eq fun j => ?_
  rw [show Nat.xor w (2 ^ k) = w ^^^ 2 ^ k from rfl, Nat.testBit_xor, Nat.testBit_two_pow, Nat.testBit_mod_two_pow, Nat.add_comm w]
  obtain hj | rfl | hj := lt_trichotomy j k
  · simp [Nat.testBit_two_pow_add_gt hj, hj.ne', hj.trans (Nat.lt_succ_self k)]
  · simp [Nat.testBit_two_pow_add_eq]
  · simp [Nat.testBit_lt_two_pow (hw.trans_le (Nat.pow_le_pow_right two_pos hj)), hj.ne, Nat.not_lt.mpr (Nat.succ_le_of_lt hj)]

/-! ### FCMP (13 R320) -/

/-- The condition codes of R320, as the statements list them. -/
def floatCond (c : Nat) (a b : Num) : Bool :=
  let un := a.isNan || b.isNan
  match c with
  | 0 => !un && a.eqv b | 1 => un || !a.eqv b | 2 => !un && a.lt b | 3 => !un && (a.lt b || a.eqv b)
  | 4 => !un && !(a.lt b || a.eqv b) | 5 => !un && !a.lt b | 6 => un | _ => !un

theorem fcond_eq_floatCond {c : Nat} (hc : c ≤ 7) (a b : Num) : fcond c a b = floatCond c a b := by
  unfold fcond floatCond
  cases hun : a.isNan || b.isNan with
  | true => interval_cases c <;> simp
  | false => interval_cases c <;> simp [cond]

theorem givesMask_of_fcmp {i : Instr} {f : FFmt} {lit : Option Word} {c d : BitVec 9} {b : State → Issue → Nat → Word}
    (hx : ∀ s, exec i s = fcmpInstr i f lit s) (hd : i.form.d.field = d) (hc : i.form.c = ⟨.num 0 7, c⟩) (hwf : i.wf = true → i.form.ok = true)
    (hb : ∀ s iss L, opB32 lit (s.team iss.team) L i.form = b s iss L) :
    GivesMask i d.toNat fun s iss L => if Act s iss L then
      floatCond c.toNat ((elFmt f).value (elOf f (op32 s iss i 1 L) 0)) ((elFmt f).value (elOf f (b s iss L) 0))
      else kbit s iss d.toNat L := by
  subst hd
  simp only [← hb]
  have hpart : ∀ w, ffmtPart f 0 w = elOf f w 0 := fun w => by
    cases f with
    | f32 => exact (congrArg (· % 2 ^ 32) (by simp)).trans (Nat.mod_eq_of_lt w.isLt)
    | f16 | bf16 | f16x2 => rfl
  intro s iss h
  obtain ⟨t, hexec, hframe, hbits⟩ := givesMask_of_cmpInstr hx rfl (fun _ _ _ => rfl) s iss h
  refine ⟨t, hexec, hframe, fun L hL => (hbits L hL).trans ?_⟩
  by_cases hact : Act s iss L
  · have hok : i.form.ok = true := hwf (wf_of_issued h (List.ne_nil_of_mem hact))
    simp only [Form.ok, Bool.and_eq_true] at hok
    obtain ⟨⟨⟨-, hcode⟩, -⟩, -⟩ := hok
    have hcode : c.toNat ≤ 7 := by simpa [hc, Opnd.ok] using hcode
    have hfield : (seen s iss i).form.c.field = c := congrArg Opnd.field hc
    refine (if_pos hact).trans (Eq.trans ?_ (if_pos hact).symm)
    simp only [hfield, hpart, floatFmt_ffmtIndex, fcond_eq_floatCond hcode]
    rfl
  · exact (if_neg hact).trans (if_neg hact).symm

/-! ### CVT (13 R325) -/

/-- The source of CVT for lane `L`: a pair where its format has 64 bits. -/
def cvtOperand (s : State) (iss : Issue) (o : L64) (L : Nat) : Dbl :=
  if cvtKind (immBits o.imm 3 0) == .pair then op64 s iss (.cvt o) 1 L else (op32 s iss (.cvt o) 1 L).setWidth 64

/-- The conversion of lane `L`: result and events. -/
def cvtLane (s : State) (iss : Issue) (o : L64) (L : Nat) : Dbl × List Nat :=
  convert (immBits o.imm 7 4) (immBits o.imm 3 0) o.c.toInt (.ofHint o.hint) (o.imm.getLsbD 8) (cvtOperand s iss o L)

section
variable {s : State} {iss : Issue} {o : L64} (h : Issued s iss (.cvt o))
include h

theorem exec_cvt_of_issued {W : Team}
    (hW : (actives s iss).foldl (fun t L => if cvtKind (immBits o.imm 7 4) == .pair
      then wr64 (s.team iss.team) L (Instr.cvt o).form (cvtLane s iss o L).1 t
      else wr32 (s.team iss.team) L (Instr.cvt o).form ((cvtLane s iss o L).1.setWidth 32) t) (s.team iss.team) = W) :
    let events := (actives s iss).flatMap fun L => (cvtLane s iss o L).2
    exec (.cvt o) s = .next (((s.countEvents (s.team iss.team).block events).setTeam iss.team
      (W.issuedBy iss { st := s.countEvents (s.team iss.team).block events }))) := by
  subst hW
  intro events
  rw [← State.finish_countEvents]
  have hrun : exec (.cvt o) s = execCvt o s := rfl
  refine (hrun.trans (runInstr_of_issued h _)).trans ?_
  simp only [List.foldl_map, List.flatMap_map]
  rfl

/-- A conversion into a 64-bit format writes pairs. -/
theorem cvt_of_pair (hwide : cvtKind (immBits o.imm 7 4) = .pair) :
    ∃ t, exec (.cvt o) s = .next t ∧
      VectorFrame (s.countEvents (s.team iss.team).block ((actives s iss).flatMap fun L => (cvtLane s iss o L).2)) t iss
        (fun L n => Act s iss L ∧ (n = destReg s iss (.cvt o) L ∨ n = destReg s iss (.cvt o) L + 1)) ∧
      ∀ L, Act s iss L → (t.team iss.team).vpair L (destReg s iss (.cvt o) L) = (cvtLane s iss o L).1 := by
  have hd : (Instr.cvt o).form.d.kind = .pair := hwide
  refine ⟨_, exec_cvt_of_issued h (W := written64 s iss (.cvt o) fun L => (cvtLane s iss o L).1) (by rw [hwide]; rfl),
    vectorFrame_countEvents _ _ ?frame fun L n hn hnot => ?stay, fun L hL => ?value⟩
  case frame => exact VectorsOnly.foldl (fun _ _ => vectorsOnly_wr64 _ _ _ _ _) _
  case stay => rw [written64_vreg h hd _ _ hn, if_neg (by tauto), if_neg (by tauto)]
  case value => rw [State.team_setTeam_self, Team.issuedBy_vpair, written64_vpair h hd _ hL]

/-- A conversion into any other format writes single registers. -/
theorem cvt_of_single (hsingle : cvtKind (immBits o.imm 7 4) = .v) :
    ∃ t, exec (.cvt o) s = .next t ∧
      VectorFrame (s.countEvents (s.team iss.team).block ((actives s iss).flatMap fun L => (cvtLane s iss o L).2)) t iss
        (fun L n => Act s iss L ∧ n = destReg s iss (.cvt o) L) ∧
      ∀ L, Act s iss L → (t.team iss.team).vreg L (destReg s iss (.cvt o) L) = (cvtLane s iss o L).1.setWidth 32 := by
  have hd : (Instr.cvt o).form.d.kind = .v := hsingle
  refine ⟨_, exec_cvt_of_issued h (W := written32 s iss (.cvt o) fun L => (cvtLane s iss o L).1.setWidth 32) (by rw [hsingle]; rfl),
    vectorFrame_countEvents _ _ ?frame fun L n hn hnot => ?stay, fun L hL => ?value⟩
  case frame => exact VectorsOnly.foldl (fun _ _ => vectorsOnly_wr32 _ _ _ _ _) _
  case stay => rw [written32_vreg h hd _ _ hn, if_neg hnot]
  case value =>
    have hlt : destReg s iss (.cvt o) L < 512 := destReg_lt (n := 0) h hL (by rw [hd]; decide)
    rw [State.team_setTeam_self, Team.issuedBy_vreg, written32_vreg h hd _ _ hlt, if_pos ⟨hL, rfl⟩]

end

/-- The formats of 64 bits take pairs. -/
theorem cvtKind_beq_pair (code : Nat) : (cvtKind code == .pair) = (code == 0xD || code == 0xE) := by
  rw [Bool.eq_iff_iff]
  simp [cvtKind, or_iff_not_imp_left]

theorem cvtKind_eq_v_or_pair (code : Nat) : cvtKind code = .v ∨ cvtKind code = .pair := by
  unfold cvtKind
  split
  · exact .inr rfl
  · exact .inl rfl

/-! ### The statement -/

/-- An instruction that writes float results completes. -/
theorem completes_of_givesFloat {i : Instr} {val : State → Issue → Nat → Word × List Nat} (hi : GivesFloat i val) {s : State}
    {iss : Issue} (h : Issued s iss i) {wide : Bool} : ∃ t events, exec i s = .next t ∧
      VectorFrame (s.countEvents (s.team iss.team).block events) t iss
        (fun L n => Act s iss L ∧ (n = destReg s iss i L ∨ (wide = true ∧ n = destReg s iss i L + 1))) := by
  obtain ⟨t, hexec, hframe, -⟩ := hi s iss h
  exact ⟨t, _, hexec, vectorFrame_mono hframe fun _ _ hd => ⟨hd.1, .inl hd.2⟩⟩

theorem givesFloat_of_sfn {i : Instr} {f : FFmt} {fn : Nat} (hx : ∀ s, exec i s = sfnInstr i fn f s) (hd : i.form.d.kind = .v) :
    GivesFloat i fun s iss L => joined f fun h => sfnElem fn (ffmtIndex f) (elOf f (op32 s iss i 1 L) h) :=
  givesFloat_of_elements (g := fun c L p => sfnElem fn (ffmtIndex f) (p (rd32 c.team L c.form 1))) hx hd fun _ _ _ _ => rfl

/-- The 64-bit formats as the field of IMM14 gives them. -/
theorem cvt_dest_wide (imm : BitVec 14) :
    (imm.extractLsb' 4 4 == 0xD || imm.extractLsb' 4 4 == 0xE) = (cvtKind (immBits imm 7 4) == .pair) := by
  rw [cvtKind_beq_pair, immBits, natBits, Bool.eq_iff_iff]
  simp [← BitVec.toNat_inj]

theorem cvt_completes {o : L64} {s : State} {iss : Issue} (h : Issued s iss (.cvt o)) : ∃ t events, exec (.cvt o) s = .next t ∧
    VectorFrame (s.countEvents (s.team iss.team).block events) t iss (fun L n => Act s iss L ∧
      (n = destReg s iss (.cvt o) L ∨ ((cvtKind (immBits o.imm 7 4) == .pair) = true ∧ n = destReg s iss (.cvt o) L + 1))) := by
  obtain hkind | hkind := cvtKind_eq_v_or_pair (immBits o.imm 7 4)
  · obtain ⟨t, hexec, hframe, -⟩ := cvt_of_single h hkind
    exact ⟨t, _, hexec, vectorFrame_mono hframe fun _ _ hd => ⟨hd.1, .inl hd.2⟩⟩
  · obtain ⟨t, hexec, hframe, -⟩ := cvt_of_pair h hkind
    exact ⟨t, _, hexec, vectorFrame_mono hframe fun _ _ hd => ⟨hd.1, hd.2.imp_right fun hn => ⟨by rw [hkind]; rfl, hn⟩⟩⟩

section
variable {reg : FFmt → L64 → Instr} {lit : FFmt → X96 → Instr}

/-- The register forms and the literal forms of an arithmetic instruction. -/
theorem givesFloat_of_arithForms {op : Nat} {x : Mode → Num → Num → Num → Num} {three : Bool}
    (hreg : ∀ f o s, exec (reg f o) s = arithInstr (reg f o) op f none s)
    (hlit : ∀ f o s, exec (lit f o) s = arithInstr (lit f o) op f (some o.lit) s)
    (hregForm : ∀ f o, FormRounds (reg f o).form o.hint o.imm) (hlitForm : ∀ f o, FormRounds (lit f o).form o.lo.hint o.lo.imm)
    (hel : ∀ f mode sat a b c, let v := (elFmt f).value
      arithElem op (ffmtIndex f) mode sat a b c = roundedWith (x mode (v a) (v b) (v c)) (elFmt f) mode sat
        (if three then [v a, v b, v c] else [v a, v b])) :
    let el (f : FFmt) (hint : BitVec 2) (imm : BitVec 14) (a b c : Word) (h : Nat) : Nat × Option Nat :=
      let v (w : Word) := (elFmt f).value (elOf f w h)
      roundedWith (x (.ofHint hint) (v a) (v b) (v c)) (elFmt f) (.ofHint hint) (imm.getLsbD 8)
        (if three then [v a, v b, v c] else [v a, v b])
    (∀ f o, GivesFloat (reg f o) fun s iss L => joined f (el f o.hint o.imm (op32 s iss (reg f o) 1 L)
      (op32 s iss (reg f o) 2 L) (op32 s iss (reg f o) 3 L))) ∧
    ∀ f o, GivesFloat (lit f o) fun s iss L => joined f (el f o.lo.hint o.lo.imm (op32 s iss (lit f o) 1 L) o.lit
      (op32 s iss (lit f o) 3 L)) :=
  ⟨fun f o => givesFloat_of_arith (hreg f o) (hregForm f o) (fun _ _ _ => rfl) (hel f),
    fun f o => givesFloat_of_arith (hlit f o) (hlitForm f o) (fun _ _ _ => rfl) (hel f)⟩

/-- The register forms and the literal forms of FMIN and FMAX. -/
theorem givesFloat_of_minMaxForms {max : Bool} (hreg : ∀ f o s, exec (reg f o) s = minMaxInstr (reg f o) max f none s)
    (hlit : ∀ f o s, exec (lit f o) s = minMaxInstr (lit f o) max f (some o.lit) s)
    (hregForm : ∀ f o, (reg f o).form.d.kind = .v) (hlitForm : ∀ f o, (lit f o).form.d.kind = .v) :
    let el (f : FFmt) (a b : Word) (h : Nat) : Nat × Option Nat := (floatMinMax (elFmt f) max (elOf f a h) (elOf f b h), none)
    (∀ f o, GivesFloat (reg f o) fun s iss L => joined f (el f (op32 s iss (reg f o) 1 L) (op32 s iss (reg f o) 2 L))) ∧
    ∀ f o, GivesFloat (lit f o) fun s iss L => joined f (el f (op32 s iss (lit f o) 1 L) o.lit) :=
  ⟨fun f o => givesFloat_of_minMax (hreg f o) (hregForm f o) fun _ _ _ => rfl,
    fun f o => givesFloat_of_minMax (hlit f o) (hlitForm f o) fun _ _ _ => rfl⟩

end

theorem formRounds_l64 {ka kb kc : Kind} {role : Role} {sat : Bool} {hint : HintUse} {feat : Nat} {cls : PairClass} (o : L64)
    (f : FFmt) : FormRounds ((Form.l64 .v ka kb kc role sat hint feat cls o).fmt f) o.hint o.imm :=
  ⟨by rw [Form.fmt_d]; rfl, Form.fmt_hintv _ f, Form.fmt_imm _ f⟩

theorem s32_fmt_writesV {ka : Kind} {feat : Nat} {cls : PairClass} (o : S32) (f : FFmt) :
    ((Form.s32 .v ka feat cls o).fmt f).d.kind = .v := by rw [Form.fmt_d]; rfl

/-! The meanings of the forms. -/

theorem exec_fadd (f : FFmt) (o : L64) (s : State) : exec (.fadd f o) s = arithInstr (.fadd f o) 0 f none s := rfl
theorem exec_faddX96 (f : FFmt) (o : X96) (s : State) : exec (.faddX96 f o) s = arithInstr (.faddX96 f o) 0 f (some o.lit) s := rfl
theorem exec_fsub (f : FFmt) (o : L64) (s : State) : exec (.fsub f o) s = arithInstr (.fsub f o) 1 f none s := rfl
theorem exec_fsubX96 (f : FFmt) (o : X96) (s : State) : exec (.fsubX96 f o) s = arithInstr (.fsubX96 f o) 1 f (some o.lit) s := rfl
theorem exec_fmul (f : FFmt) (o : L64) (s : State) : exec (.fmul f o) s = arithInstr (.fmul f o) 2 f none s := rfl
theorem exec_fmulX96 (f : FFmt) (o : X96) (s : State) : exec (.fmulX96 f o) s = arithInstr (.fmulX96 f o) 2 f (some o.lit) s := rfl
theorem exec_ffma (f : FFmt) (o : L64) (s : State) : exec (.ffma f o) s = arithInstr (.ffma f o) 3 f none s := rfl
theorem exec_ffmaX96 (f : FFmt) (o : X96) (s : State) : exec (.ffmaX96 f o) s = arithInstr (.ffmaX96 f o) 3 f (some o.lit) s := rfl
theorem exec_fmin (f : FFmt) (o : L64) (s : State) : exec (.fmin f o) s = minMaxInstr (.fmin f o) false f none s := rfl
theorem exec_fminX96 (f : FFmt) (o : X96) (s : State) : exec (.fminX96 f o) s = minMaxInstr (.fminX96 f o) false f (some o.lit) s := rfl
theorem exec_fmax (f : FFmt) (o : L64) (s : State) : exec (.fmax f o) s = minMaxInstr (.fmax f o) true f none s := rfl
theorem exec_fmaxX96 (f : FFmt) (o : X96) (s : State) : exec (.fmaxX96 f o) s = minMaxInstr (.fmaxX96 f o) true f (some o.lit) s := rfl
theorem exec_fabs (f : FFmt) (o : S32) (s : State) :
    exec (.fabs f o) s = signInstr (.fabs f o) f (fun fm w => w % 2 ^ (fm.p + fm.e)) s := rfl
theorem exec_fneg (f : FFmt) (o : S32) (s : State) :
    exec (.fneg f o) s = signInstr (.fneg f o) f (fun fm w => Nat.xor w (2 ^ (fm.p + fm.e))) s := rfl
theorem exec_fclass (f : FFmt) (o : S32) (s : State) : exec (.fclass f o) s = signInstr (.fclass f o) f classMask s := rfl
theorem exec_fcmp (f : FFmt) (o : L64) (s : State) : exec (.fcmp f o) s = fcmpInstr (.fcmp f o) f none s := rfl
theorem exec_fcmpX96 (f : FFmt) (o : X96) (s : State) : exec (.fcmpX96 f o) s = fcmpInstr (.fcmpX96 f o) f (some o.lit) s := rfl
theorem exec_frcp (f : FFmt) (o : S32) (s : State) : exec (.frcp f o) s = sfnInstr (.frcp f o) 0 f s := rfl
theorem exec_fsqrt (f : FFmt) (o : S32) (s : State) : exec (.fsqrt f o) s = sfnInstr (.fsqrt f o) 1 f s := rfl
theorem exec_frsq (f : FFmt) (o : S32) (s : State) : exec (.frsq f o) s = sfnInstr (.frsq f o) 2 f s := rfl
theorem exec_fexp2 (f : FFmt) (o : S32) (s : State) : exec (.fexp2 f o) s = sfnInstr (.fexp2 f o) 3 f s := rfl
theorem exec_flog2 (f : FFmt) (o : S32) (s : State) : exec (.flog2 f o) s = sfnInstr (.flog2 f o) 4 f s := rfl
theorem exec_fsin (f : FFmt) (o : S32) (s : State) : exec (.fsin f o) s = sfnInstr (.fsin f o) 5 f s := rfl
theorem exec_fcos (f : FFmt) (o : S32) (s : State) : exec (.fcos f o) s = sfnInstr (.fcos f o) 6 f s := rfl
theorem exec_ftanh (f : FFmt) (o : S32) (s : State) : exec (.ftanh f o) s = sfnInstr (.ftanh f o) 7 f s := rfl

/-- Settles O43: the instructions are `floatInstr`s (FCMP a `cmpInstr`), computed element by element. -/
theorem scalarFloatResults : Obligations.ScalarFloatResults := by
  unfold Obligations.ScalarFloatResults
  refine ⟨?fadd, ?fsub, ?fmul, ?ffma, ?fmin, ?fmax, fun f o => ?fabs, fun f o => ?fneg, fun f o => ?fclass, fun f o => ?fcmp,
    fun f o => ?fcmpX96, fun f o => ?special, fun o s iss h => ?cvt⟩
  case fadd =>
    have hforms := givesFloat_of_arithForms (x := fun m a b _ => a.add b m) (three := false) exec_fadd exec_faddX96
      (fun f o => formRounds_l64 o f) (fun f o => formRounds_l64 o.lo f) fun f mode sat a b c => arithElem_two (by decide) f mode sat a b c _ rfl
    exact hforms
  case fsub =>
    have hforms := givesFloat_of_arithForms (x := fun m a b _ => a.add b.neg m) (three := false) exec_fsub exec_fsubX96
      (fun f o => formRounds_l64 o f) (fun f o => formRounds_l64 o.lo f) fun f mode sat a b c => arithElem_two (by decide) f mode sat a b c _ rfl
    exact hforms
  case fmul =>
    have hforms := givesFloat_of_arithForms (x := fun _ a b _ => a.mul b) (three := false) exec_fmul exec_fmulX96
      (fun f o => formRounds_l64 o f) (fun f o => formRounds_l64 o.lo f) fun f mode sat a b c => arithElem_two (by decide) f mode sat a b c _ rfl
    exact hforms
  case ffma =>
    have hforms := givesFloat_of_arithForms (x := fun m a b c => (a.mul b).add c m) (three := true) exec_ffma exec_ffmaX96
      (fun f o => formRounds_l64 o f) (fun f o => formRounds_l64 o.lo f) fun f mode sat a b c => arithElem_three f mode sat a b c
    exact hforms
  case fmin =>
    have hforms := givesFloat_of_minMaxForms exec_fmin exec_fminX96 (fun f o => (formRounds_l64 o f).1)
      fun f o => (formRounds_l64 o.lo f).1
    exact hforms
  case fmax =>
    have hforms := givesFloat_of_minMaxForms exec_fmax exec_fmaxX96 (fun f o => (formRounds_l64 o f).1)
      fun f o => (formRounds_l64 o.lo f).1
    exact hforms
  case fabs =>
    have hsign := givesFloat_of_sign (g' := fun F w => w % 2 ^ (F.p + F.e)) (exec_fabs f o) (s32_fmt_writesV o f) fun _ _ => rfl
    exact hsign
  case fneg =>
    have hsign := givesFloat_of_sign (g' := fun F w => (w + 2 ^ (F.p + F.e)) % 2 ^ (F.p + F.e + 1)) (exec_fneg f o)
      (s32_fmt_writesV o f) fun _ hw => Nat.xor_two_pow_eq_add_mod hw
    exact hsign
  case fclass =>
    have hsign := givesFloat_of_sign (g' := classMask) (exec_fclass f o) (s32_fmt_writesV o f) fun _ _ => rfl
    exact hsign
  case fcmp =>
    have hcmp := givesMask_of_fcmp (exec_fcmp f o) (congrArg Opnd.field (Form.fmt_d _ f)) (Form.fmt_c _ f)
      (fun hwf => (Bool.and_eq_true_iff.mp hwf).2) fun _ _ _ => rfl
    exact hcmp
  case fcmpX96 =>
    have hcmp := givesMask_of_fcmp (exec_fcmpX96 f o) (congrArg Opnd.field (Form.fmt_d _ f)) (Form.fmt_c _ f)
      (fun hwf => (Bool.and_eq_true_iff.mp hwf).2) fun _ _ _ => rfl
    exact hcmp
  case special =>
    have hsfn : ∀ {i : Instr} {fn : Nat}, (∀ s, exec i s = sfnInstr i fn f s) → i.form.d.kind = .v → ∀ s iss, Issued s iss i →
        ∃ t events, exec i s = .next t ∧ VectorFrame (s.countEvents (s.team iss.team).block events) t iss
          (fun L n => Act s iss L ∧ (n = destReg s iss i L ∨ (false = true ∧ n = destReg s iss i L + 1))) :=
      fun hx hd s iss h => completes_of_givesFloat (givesFloat_of_sfn hx hd) h
    exact ⟨hsfn (exec_frcp f o) (s32_fmt_writesV o f),
      hsfn (exec_fsqrt f o) (s32_fmt_writesV o f),
      hsfn (exec_frsq f o) (s32_fmt_writesV o f),
      hsfn (exec_fexp2 f o) (s32_fmt_writesV o f),
      hsfn (exec_flog2 f o) (s32_fmt_writesV o f),
      hsfn (exec_fsin f o) (s32_fmt_writesV o f),
      hsfn (exec_fcos f o) (s32_fmt_writesV o f),
      hsfn (exec_ftanh f o) (s32_fmt_writesV o f)⟩
  case cvt =>
    obtain ⟨t, events, hdone⟩ := cvt_completes h
    exact ⟨t, events, by rwa [← cvt_dest_wide] at hdone⟩

end Sys2Proof.Machine
end

section
/-! PROOFS of the statement of special functions and CVT (O44): a small dyadic value rounds to itself, a magnitude below 1 to at most
1, and the approximations are exact where the table of R323 says so. -/
namespace Sys2Proof.Machine
open Sys2Proof.Claims

/-! ### Roundings that are exact -/

/-- The formats of scalar elements: with infinities, as many binades above 1 as below, and integers enough for the logarithms of
their values. -/
structure SymmetricFmt (F : FloatFmt) : Prop where
  one_le_p : 1 ≤ F.p
  two_le_e : 2 ≤ F.e
  maxEnc_eq : F.maxEnc = F.emax * 2 ^ F.p - 1
  emax_eq : (F.emax : Int) = 2 * F.bias + 1
  p_le_bias : (F.p : Int) ≤ F.bias
  logs_fit : F.bias + F.p ≤ (2 ^ (F.p + 1) : ℕ)

theorem elFmt_symmetric (f : FFmt) : SymmetricFmt (elFmt f) := by cases f <;> constructor <;> decide

section
variable {F : FloatFmt} (hp : 1 ≤ F.p) (he : 2 ≤ F.e)
include hp he

/-- A value of the format rounds to itself. -/
theorem roundTo_of_mem_values {m : Nat} {e : Int} (hmem : m * (2 : ℚ) ^ e ∈ F.values) (n : Bool) (mode : Mode) (sat : Bool) :
    ∃ m' e', F.value (roundTo (.fin n m e) F mode sat).bits = .fin n m' e' ∧ ratOf (.fin n m' e') = ratOf (.fin n m e) := by
  obtain ⟨k, hk, hround⟩ := exists_roundTo_eq_delivered hp n m e mode sat
  have heq := hk.eq_of_mem hmem
  obtain ⟨i, hi, habs⟩ := FloatFmt.exists_abs_eq_magnitude hmem
  rw [abs_of_nonneg (by positivity), heq] at habs
  obtain rfl : k = i := F.magnitude_strictMono.injective habs
  have hnear := FloatFmt.neighbour_of_exact mode n heq
  rw [hround, FloatFmt.delivered_of_le (by rwa [hnear]), hnear]
  refine ⟨_, _, FloatFmt.value_signBit_add hp he n (hi.trans_lt F.maxEnc_lt_two_pow) hi, ?_⟩
  rw [FloatFmt.ratOf_value_signBit_add, ratOf_fin, mul_assoc, heq]

/-- A magnitude up to that of an encoding rounds to at most that. -/
theorem roundTo_le_magnitude {m i : Nat} {e : Int} (hi : i ≤ F.maxEnc) (hlt : m * (2 : ℚ) ^ e < F.magnitude i) (n : Bool)
    (mode : Mode) (sat : Bool) :
    ∃ m' e', F.value (roundTo (.fin n m e) F mode sat).bits = .fin n m' e' ∧ |ratOf (.fin n m' e')| ≤ F.magnitude i := by
  obtain ⟨k, hk, hround⟩ := exists_roundTo_eq_delivered hp n m e mode sat
  have hki : k < i := F.magnitude_strictMono.lt_iff_lt.mp (hk.le.trans_lt hlt)
  have hnear : F.neighbour mode n (m * (2 : ℚ) ^ e) k ≤ i := by
    rcases F.neighbour_eq_or mode n (m * (2 : ℚ) ^ e) k with h | h <;> omega
  have hmax := hnear.trans hi
  rw [hround, FloatFmt.delivered_of_le hmax]
  refine ⟨_, _, FloatFmt.value_signBit_add hp he n (hmax.trans_lt F.maxEnc_lt_two_pow) hmax, ?_⟩
  rw [abs_ratOf_fin]
  exact F.magnitude_strictMono.monotone hnear

end

/-- A magnitude lies below the power of two that ends its binade. -/
theorem lt_zpow_of_log2_le {m : Nat} {e b : Int} (hm : m ≠ 0) (h : (Nat.log2 m : Int) + e ≤ b) : m * (2 : ℚ) ^ e < 2 ^ (b + 1) :=
  (zpow_log2_le hm e).2.trans_le (zpow_le_zpow_right₀ one_le_two (by omega))

section
variable {F : FloatFmt} (hF : SymmetricFmt F)
include hF

/-- The magnitude after the largest finite one. -/
theorem magnitude_maxEnc_succ : F.magnitude (F.maxEnc + 1) = (2 : ℚ) ^ (F.bias + 1) := by
  have hemax := hF.emax_eq
  have hp := hF.p_le_bias
  obtain ⟨c, hc⟩ : ∃ c, F.emax = c + 1 := Nat.exists_eq_succ_of_ne_zero (by omega)
  have hindex : F.maxEnc + 1 = c * 2 ^ F.p + 2 ^ F.p := by
    have := Nat.two_pow_pos F.p
    rw [hF.maxEnc_eq, hc, Nat.add_mul, one_mul]
    omega
  rw [hindex, F.magnitude_binade (by omega) (.inr le_rfl), Nat.cast_pow, Nat.cast_ofNat, ← zpow_natCast, ← zpow_add₀ two_ne_zero]
  congr 1
  omega

/-- A number of few bits within the exponents of the format is one of its values. -/
theorem mem_values_of_log2 {m : Nat} {e : Int} (hm : m ≠ 0) (hbits : Nat.log2 m ≤ F.p) (hlow : 1 - F.bias - F.p ≤ e)
    (hhigh : (Nat.log2 m : Int) + e ≤ F.bias) : m * (2 : ℚ) ^ e ∈ F.values := by
  have hexp : F.binadeExp m e ≤ e := by
    unfold FloatFmt.binadeExp FloatFmt.binade
    omega
  have hscale : scaleTo m e (F.binadeExp m e) = (m * 2 ^ (e - F.binadeExp m e).toNat, 0, 1) := if_pos hexp
  obtain ⟨hj, hc⟩ := scaleTo_binade F hm e
  rw [hscale] at hj hc
  have hmag := F.magnitude_binade hj.le hc
  have heq : m * (2 : ℚ) ^ e = F.magnitude (F.binade m e * 2 ^ F.p + m * 2 ^ (e - F.binadeExp m e).toNat) := by
    rw [hmag, two_zpow_eq_mul hexp, Nat.cast_mul, mul_assoc]
    rfl
  have hlt := lt_zpow_of_log2_le hm hhigh
  rw [heq, ← magnitude_maxEnc_succ hF, F.magnitude_strictMono.lt_iff_lt] at hlt
  exact heq ▸ FloatFmt.magnitude_mem_values (Nat.lt_succ_iff.mp hlt)

/-- The binades of the finite values of the format. -/
theorem log2_of_value {w n m e} (hw : w < 2 ^ F.width) (hv : F.value w = .fin n m e) {k : Int}
    (hk : m * (2 : ℚ) ^ e = 2 ^ k) : 1 - F.bias - F.p ≤ k ∧ k ≤ F.bias := by
  have hmem : ratOf (.fin n m e) ∈ F.values := by
    rw [← FloatFmt.setOf_ratOf_value hF.one_le_p hF.two_le_e]
    exact ⟨w, n, m, e, hw, hv, rfl⟩
  obtain ⟨i, hi, habs⟩ := FloatFmt.exists_abs_eq_magnitude hmem
  rw [abs_ratOf_fin, hk] at habs
  have hpos := zpow_pos (two_pos (α := ℚ)) k
  have hone : F.magnitude 1 = (2 : ℚ) ^ (1 - F.bias - F.p) := by
    have h := F.magnitude_binade (c := 0) (j := 1) (by have := Nat.two_pow_pos F.p; omega) (.inl rfl)
    simpa using h
  have hi0 : 1 ≤ i := by
    rw [habs, ← F.magnitude_zero, F.magnitude_strictMono.lt_iff_lt] at hpos
    exact hpos
  have hlo := F.magnitude_strictMono.monotone hi0
  have hhi := F.magnitude_strictMono (Nat.lt_succ_of_le hi)
  rw [hone, ← habs] at hlo
  rw [magnitude_maxEnc_succ hF, ← habs] at hhi
  exact ⟨(zpow_le_zpow_iff_right₀ one_lt_two).mp hlo, Int.lt_add_one_iff.mp ((zpow_lt_zpow_iff_right₀ one_lt_two).mp hhi)⟩

end

/-! ### Values as numbers of units -/

/-- Finite values are equal where their rational values are. -/
theorem Num.eqv_fin_of_ratOf {n n' : Bool} {m m' : Nat} {e e' : Int} (h : ratOf (.fin n m e) = ratOf (.fin n' m' e')) :
    Num.eqv (.fin n m e) (.fin n' m' e') = true := by
  rw [ratOf_fin_eq_units n m (min_le_left e e'), ratOf_fin_eq_units n' m' (min_le_right e e')] at h
  have hunits := mul_right_cancel₀ (zpow_ne_zero (min e e') two_ne_zero) h
  exact decide_eq_true (by exact_mod_cast hunits)

/-- An integer in units of 2^-b. -/
theorem fixOf_of_nat {m k : Nat} {e : Int} (h : m * (2 : ℚ) ^ e = k) (b : Nat) : fixOf m e b = k * 2 ^ b := by
  have hscaled : m * (2 : ℚ) ^ (e + b) = (k * 2 ^ b : ℕ) := by
    rw [zpow_add₀ two_ne_zero, ← mul_assoc, h, zpow_natCast]
    push_cast
    rfl
  unfold fixOf
  simp only
  split
  case isTrue hpos =>
    obtain ⟨j, hj⟩ := Int.eq_ofNat_of_zero_le hpos
    rw [hj, zpow_natCast] at hscaled
    rw [hj, Int.toNat_natCast]
    exact_mod_cast hscaled
  case isFalse hneg =>
    obtain ⟨j, hj⟩ := Int.eq_ofNat_of_zero_le (a := -(e + b)) (by omega)
    rw [show e + (b : Int) = -(j : Int) by omega, zpow_neg, zpow_natCast, mul_inv_eq_iff_eq_mul₀ (by positivity)] at hscaled
    rw [hj, Int.toNat_natCast]
    exact Nat.div_eq_of_eq_mul_left (Nat.two_pow_pos j) (by exact_mod_cast hscaled)

/-! ### FEXP2, FLOG2 and FTANH (13 R323) -/

/-- The magnitude and the sign of an integral value. -/
theorem natAbs_of_ratOf {n : Bool} {m : Nat} {e k : Int} (h : ratOf (.fin n m e) = k) :
    m * (2 : ℚ) ^ e = k.natAbs ∧ (if n then -(k.natAbs : Int) else k.natAbs) = k := by
  have habs : m * (2 : ℚ) ^ e = k.natAbs := by
    rw [← abs_ratOf_fin n m e, h, ← Int.cast_abs, Int.abs_eq_natAbs, Int.cast_natCast]
  refine ⟨habs, ?_⟩
  rw [ratOf_fin, mul_assoc, habs] at h
  generalize k.natAbs = j at h
  cases n with
  | false => exact_mod_cast (by simpa using h : (j : ℚ) = k)
  | true => exact_mod_cast (by simpa using h : -(j : ℚ) = k)

/-- FEXP2 of an integer. -/
theorem exp2Real_of_int {n : Bool} {m : Nat} {e k : Int} (h : ratOf (.fin n m e) = k) (hk : k.natAbs < 1000) :
    exp2Real n m e = .fin false 1 k := by
  obtain ⟨habs, hsign⟩ := natAbs_of_ratOf h
  have hbig : fixOf m e 0 = k.natAbs := by rw [fixOf_of_nat habs, pow_zero, mul_one]
  have hunits := fixOf_of_nat habs sfnBits
  have hdiv : k.natAbs * 2 ^ sfnBits / 2 ^ sfnBits = k.natAbs := Nat.mul_div_cancel _ (Nat.two_pow_pos _)
  have heqv : Num.eqv (.fin false m e) (.fin false k.natAbs 0) = true :=
    Num.eqv_fin_of_ratOf (by simpa [ratOf_fin] using habs)
  unfold exp2Real
  simp only [hbig, hunits, hdiv, heqv, Nat.mul_mod_left, hsign]
  rw [if_neg (by rw [decide_eq_true_iff]; omega)]
  rfl

/-- FLOG2 of a power of two. -/
theorem log2Real_of_pow {m : Nat} {e k : Int} (hm : m ≠ 0) (h : m * (2 : ℚ) ^ e = 2 ^ k) : log2Real m e = .ofInt k 0 := by
  have hpow : (m : ℚ) = 2 ^ (k - e) := by rw [zpow_sub₀ two_ne_zero, ← h, mul_div_cancel_right₀ _ (zpow_ne_zero e two_ne_zero)]
  have hle : e ≤ k := by
    have hone : (2 : ℚ) ^ (0 : Int) ≤ 2 ^ (k - e) := by
      rw [zpow_zero, ← hpow]
      exact_mod_cast Nat.one_le_iff_ne_zero.mpr hm
    have := (zpow_le_zpow_iff_right₀ one_lt_two).mp hone
    omega
  obtain ⟨j, hj⟩ := Int.le.dest hle
  obtain rfl : k = e + j := hj.symm
  rw [add_sub_cancel_left, zpow_natCast] at hpow
  obtain rfl : m = 2 ^ j := by exact_mod_cast hpow
  unfold log2Real
  simp only [Nat.log2_two_pow, if_true]

/-- FTANH approximates by magnitudes below 1. -/
theorem tanhReal_lt_one (n : Bool) (m : Nat) (e : Int) :
    ∃ n' m' e', tanhReal n m e = .fin n' m' e' ∧ m' * (2 : ℚ) ^ e' < 1 := by
  have hsticky : ∀ z : Int, z.natAbs < 2 ^ sfnBits → ∃ n' m' e', sticky z = .fin n' m' e' ∧ m' * (2 : ℚ) ^ e' < 1 := by
    intro z hz
    refine ⟨_, _, _, rfl, ?_⟩
    have hlt : ((2 * z.natAbs + 1 : ℕ) : ℚ) < (2 ^ (sfnBits + 1) : ℕ) := by
      rw [pow_succ]
      exact_mod_cast (by omega)
    have hexp : -((sfnBits : ℕ) : Int) - 1 = -((sfnBits + 1 : ℕ) : Int) := by push_cast; ring
    rw [hexp, zpow_neg, zpow_natCast, ← div_eq_mul_inv, div_lt_one (by positivity)]
    exact_mod_cast hlt
  have hsign : ∀ v : Nat, v < 2 ^ sfnBits → (if n then -(v : Int) else v).natAbs < 2 ^ sfnBits := by
    intro v hv
    cases n <;> simpa using hv
  have hone := Nat.two_pow_pos sfnBits
  unfold tanhReal
  refine hsticky _ (hsign _ ?_)
  split
  · omega
  · exact (min_le_left _ _).trans_lt (by omega)

/-! ### One element of a special function -/

section
variable (fn : Nat) (f : FFmt) (w : Nat)

/-- The exact value that an element rounds. -/
def sfnValue : Num := sfnExact fn ((elFmt f).value w)

/-- The result of an element. -/
def sfnResult : Nat := (sfnElem fn (ffmtIndex f) w).1

theorem sfnElem_eq : sfnElem fn (ffmtIndex f) w =
    (sfnResult fn f w, (roundedWith (sfnValue fn f w) (elFmt f) .RN false [(elFmt f).value w]).2) := by
  rw [roundedWith_eq]
  simp only [sfnResult, sfnValue, sfnElem, floatFmt_ffmtIndex, List.any_cons, List.any_nil, Bool.or_false]

/-- The rounded value, or for F32 and where no exact result stands, a pick within the bound. -/
theorem sfnResult_eq_or : sfnResult fn f w = (roundTo (sfnValue fn f w) (elFmt f) .RN false).bits ∨
    (f = .f32 ∧ sfnPinned fn (sfnValue fn f w) = false ∧ sfnResult fn f w < 2 ^ 32 ∧
      sfnWithin fn (sfnValue fn f w) (sfnResult fn f w) = true) := by
  have hf : ffmtIndex f = 0 ↔ f = .f32 := by cases f <;> decide
  rw [sfnResult, sfnElem, floatFmt_ffmtIndex]
  simp only
  split
  case isTrue hpick =>
    simp only [Bool.and_eq_true, Bool.not_eq_true', decide_eq_true_iff, hf] at hpick
    obtain ⟨⟨hf32, hfree⟩, hwithin⟩ := hpick
    exact .inr ⟨hf32, hfree, Nat.mod_lt _ (Nat.two_pow_pos 32), hwithin⟩
  case isFalse => exact .inl rfl

variable {fn f w}

theorem sfnResult_of_pinned (h : sfnPinned fn (sfnValue fn f w) = true) :
    sfnResult fn f w = (roundTo (sfnValue fn f w) (elFmt f) .RN false).bits :=
  (sfnResult_eq_or fn f w).resolve_right fun ⟨_, hfree, _⟩ => by simp [h] at hfree

/-- FRCP and FSQRT are never picked. -/
theorem two_le_of_not_pinned {x : Num} (h : sfnPinned fn x = false) : 2 ≤ fn := by
  cases x with
  | nan | inf => simp [sfnPinned] at h
  | fin n m e =>
    simp only [sfnPinned, Bool.or_eq_false_iff, beq_eq_false_iff_ne] at h
    omega

end

/-- A signed 1 is a value of every format. -/
theorem roundTo_one (f : FFmt) (n : Bool) :
    roundTo (.fin n 1 0) (elFmt f) .RN false = ⟨(elFmt f).signBit n + (elFmt f).bias.toNat * 2 ^ (elFmt f).p, false, false⟩ := by
  cases f <;> cases n <;> decide

theorem roundTo_nan (F : FloatFmt) (mode : Mode) (sat : Bool) : roundTo .nan F mode sat = ⟨F.nan, false, false⟩ := rfl

/-- The special operands of R323: the exact value is pinned, and rounds to the table's entry. -/
theorem sfnTable_spec {fn : Nat} (hfn : fn ≤ 7) (f : FFmt) (v : Num) {r : Nat × Option Nat} (h : sfnTable fn (elFmt f) v = some r) :
    sfnPinned fn (sfnExact fn v) = true ∧ ((roundTo (sfnExact fn v) (elFmt f) .RN false).bits,
      (roundedWith (sfnExact fn v) (elFmt f) .RN false [v]).2) = r := by
  rw [roundedWith_eq]
  have hinf : ∀ n, roundTo (.inf n) (elFmt f) .RN false = ⟨(elFmt f).inf n, false, false⟩ := by
    intro n
    cases f <;> rfl
  cases v with
  | nan =>
    obtain rfl := Option.some.inj h
    exact ⟨rfl, rfl⟩
  | inf n =>
    obtain rfl := Option.some.inj h
    interval_cases fn <;> cases n <;>
      simp [sfnExact, sfnPinned, roundTo_zero, roundTo_one, hinf, roundTo_nan, resultEvent, Num.isNan, Num.isInf, FloatFmt.signBit]
  | fin n m e =>
    cases m with
    | zero =>
      obtain rfl := Option.some.inj h
      interval_cases fn <;>
        simp [sfnExact, sfnPinned, roundTo_zero, roundTo_one, hinf, resultEvent, Num.isNan, Num.isInf, FloatFmt.signBit]
    | succ m =>
      have hbad : (n && (fn == 1 || fn == 2 || fn == 4)) = true := by
        by_contra hnot
        simp [sfnTable, hnot] at h
      have hreal : sfnExact fn (.fin n (m + 1) e) = .nan := by
        have hne : fn ≠ 0 := by
          rintro rfl
          simp at hbad
        exact (if_neg hne).trans (if_pos hbad)
      simp only [sfnTable, hbad, if_true] at h
      obtain rfl := Option.some.inj h
      rw [hreal]
      exact ⟨rfl, rfl⟩

/-! ### The statement -/

/-- A special function of every lane, with the result that its elements deliver. -/
theorem givesFloat_of_sfnResult {ins : FFmt → S32 → Instr} {fn : Nat} (f : FFmt)
    (hx : ∀ f o s, exec (ins f o) s = sfnInstr (ins f o) fn f s) (hd : ∀ f o, (ins f o).form.d.kind = .v) (o : S32) :
    GivesFloat (ins f o) fun s iss L => joined f fun h =>
      let w := elOf f (op32 s iss (ins f o) 1 L) h
      (sfnResult fn f w, (roundedWith (sfnExact fn ((elFmt f).value w)) (elFmt f) .RN false [(elFmt f).value w]).2) := by
  have hsfn := givesFloat_of_sfn (hx f o) (hd f o)
  simp only [sfnElem_eq] at hsfn
  exact hsfn

theorem sfnReal_exp2 (n : Bool) (m : Nat) (e : Int) : sfnReal 3 n m e = exp2Real n m e := by simp [sfnReal]
theorem sfnReal_tanh (n : Bool) (m : Nat) (e : Int) : sfnReal 7 n m e = tanhReal n m e := by simp [sfnReal]

/-- The encoding of 1. -/
theorem magnitude_one {F : FloatFmt} (hF : SymmetricFmt F) :
    F.magnitude (F.bias.toNat * 2 ^ F.p) = 1 ∧ F.bias.toNat * 2 ^ F.p ≤ F.maxEnc := by
  have hp := hF.one_le_p
  have hbias := hF.p_le_bias
  have hpow := Nat.two_pow_pos F.p
  obtain ⟨c, hc⟩ : ∃ c, F.bias.toNat = c + 1 := Nat.exists_eq_succ_of_ne_zero (by omega)
  have hmag : F.magnitude (F.bias.toNat * 2 ^ F.p) = 1 := by
    rw [hc, Nat.add_mul, one_mul, F.magnitude_binade (by omega) (.inr le_rfl), Nat.cast_pow, Nat.cast_ofNat, ← zpow_natCast,
      ← zpow_add₀ two_ne_zero, ← zpow_zero (2 : ℚ)]
    congr 1
    omega
  refine ⟨hmag, Nat.lt_succ_iff.mp (F.magnitude_strictMono.lt_iff_lt.mp ?_)⟩
  rw [hmag, magnitude_maxEnc_succ hF]
  exact one_lt_zpow₀ one_lt_two (by omega)

/-- An encoding of F32 whose low bits are at most those of 1. -/
theorem abs_le_one_of_low {w : Nat} (hw : w < 2 ^ 32) (hlow : w % 2 ^ 31 ≤ 0x3F800000) :
    ∃ n m e, fmtF32.value w = .fin n m e ∧ |ratOf (.fin n m e)| ≤ 1 := by
  have hF : SymmetricFmt fmtF32 := elFmt_symmetric .f32
  obtain ⟨hone, hmax⟩ := magnitude_one hF
  obtain ⟨n, k, hk, rfl⟩ := (fmtF32.lt_two_pow_width_iff (b := w)).mp hw
  have hk31 : k < 2 ^ 31 := hk
  have hsign : (fmtF32.signBit n + k) % 2 ^ 31 = k := by
    cases n with
    | false => exact (congrArg (· % 2 ^ 31) (Nat.zero_add k)).trans (Nat.mod_eq_of_lt hk31)
    | true => exact (Nat.add_mod_left (2 ^ 31) k).trans (Nat.mod_eq_of_lt hk31)
  rw [hsign] at hlow
  have hle : k ≤ fmtF32.bias.toNat * 2 ^ fmtF32.p := hlow
  refine ⟨n, _, _, FloatFmt.value_signBit_add hF.one_le_p hF.two_le_e n hk (hle.trans hmax), ?_⟩
  rw [abs_ratOf_fin, ← hone]
  exact fmtF32.magnitude_strictMono.monotone hle

/-- The bound of FTANH keeps a pick's magnitude at most 1. -/
theorem low_of_sfnWithin_tanh {x : Num} {w : Nat} (h : sfnWithin 7 x w = true) : w % 2 ^ 31 ≤ 0x3F800000 := by
  unfold sfnWithin at h
  split at h
  · simp only [Bool.and_eq_true, Bool.or_eq_true, decide_eq_true_iff] at h
    exact h.2.resolve_left (by decide)
  · contradiction

section
variable {fn : Nat} {f : FFmt} {w : Nat} {n : Bool} {m : Nat} {e : Int} (hv : (elFmt f).value w = .fin n m e) (hm : m ≠ 0)
include hv hm

theorem sfnValue_of_ne_zero : sfnValue fn f w = sfnReal fn n m e := by
  obtain ⟨j, rfl⟩ := Nat.exists_eq_succ_of_ne_zero hm
  rw [sfnValue, hv]
  rfl

theorem sfnResult_exp2 {k : Int} (hk : ratOf (.fin n m e) = k) (hlow : 1 - (elFmt f).bias - (elFmt f).p ≤ k)
    (hhigh : k ≤ (elFmt f).bias) :
    ∃ m' e', (elFmt f).value (sfnResult 3 f w) = .fin false m' e' ∧ ratOf (.fin false m' e') = (2 : ℚ) ^ k := by
  have hF := elFmt_symmetric f
  have hsmall : k.natAbs < 1000 := by cases f <;> (simp only [elFmt] at hlow hhigh; omega)
  have hx : sfnValue 3 f w = .fin false 1 k := (sfnValue_of_ne_zero hv hm).trans ((sfnReal_exp2 n m e).trans (exp2Real_of_int hk hsmall))
  have hlog : Nat.log2 1 = 0 := by decide
  have hmem : ((1 : ℕ) : ℚ) * 2 ^ k ∈ (elFmt f).values :=
    mem_values_of_log2 hF one_ne_zero (hlog ▸ Nat.zero_le _) hlow (by rwa [hlog, Nat.cast_zero, zero_add])
  obtain ⟨m', e', hval, hrat⟩ := roundTo_of_mem_values hF.one_le_p hF.two_le_e hmem false .RN false
  refine ⟨m', e', ?_, by rw [hrat]; simp [ratOf_fin]⟩
  rw [sfnResult_of_pinned (by rw [hx]; rfl), hx, hval]

theorem sfnResult_log2 (hw : w < 2 ^ (elFmt f).width) {k : Int} (hk : ratOf (.fin n m e) = (2 : ℚ) ^ k) :
    (k = 0 → sfnResult 4 f w = 0) ∧
      ∃ n' m' e', (elFmt f).value (sfnResult 4 f w) = .fin n' m' e' ∧ ratOf (.fin n' m' e') = k := by
  have hF := elFmt_symmetric f
  have hpos := zpow_pos (two_pos (α := ℚ)) k
  have habs : m * (2 : ℚ) ^ e = 2 ^ k := by rw [← abs_ratOf_fin n, hk, abs_of_pos hpos]
  obtain rfl : n = false := by
    cases n with
    | false => rfl
    | true =>
      rw [ratOf_fin, mul_assoc, habs] at hk
      simp only [if_true] at hk
      linarith
  obtain ⟨hlow, hhigh⟩ := log2_of_value hF hw hv habs
  have hx : sfnValue 4 f w = .ofInt k 0 := (sfnValue_of_ne_zero hv hm).trans (log2Real_of_pow hm habs)
  have hbits : k.natAbs < 2 ^ ((elFmt f).p + 1) := by
    have := hF.logs_fit
    have := hF.one_le_p
    omega
  have hpinned : sfnPinned 4 (.ofInt k 0) = true := by
    have h64 : k.natAbs < 18446744073709551616 := hbits.trans_le (by cases f <;> decide)
    simp [Num.ofInt, sfnPinned, h64]
  have hmem : (k.natAbs : ℚ) * 2 ^ (0 : Int) ∈ (elFmt f).values := by
    by_cases hk0 : k = 0
    · simp [hk0, FloatFmt.zero_mem_values]
    · have hlog : Nat.log2 k.natAbs < (elFmt f).p + 1 := (Nat.log2_lt (by omega)).mpr hbits
      have := hF.p_le_bias
      exact mem_values_of_log2 hF (by omega) (by omega) (by omega) (by omega)
  obtain ⟨m', e', hval, hrat⟩ := roundTo_of_mem_values hF.one_le_p hF.two_le_e hmem (decide (k < 0)) .RN false
  rw [sfnResult_of_pinned (by rw [hx]; exact hpinned), hx]
  refine ⟨?_, _, m', e', hval, hrat.trans ((ratOf_ofInt k 0).trans (by simp))⟩
  rintro rfl
  rfl

theorem sfnResult_tanh :
    ∃ n' m' e', (elFmt f).value (sfnResult 7 f w) = .fin n' m' e' ∧ |ratOf (.fin n' m' e')| ≤ 1 := by
  have hF := elFmt_symmetric f
  obtain ⟨n', m', e', hreal, hlt⟩ := tanhReal_lt_one n m e
  have hx : sfnValue 7 f w = .fin n' m' e' := (sfnValue_of_ne_zero hv hm).trans ((sfnReal_tanh n m e).trans hreal)
  obtain ⟨hone, hmax⟩ := magnitude_one hF
  rcases sfnResult_eq_or 7 f w with hround | ⟨rfl, -, hpick, hwithin⟩
  · obtain ⟨m₁, e₁, hval, hle⟩ := roundTo_le_magnitude hF.one_le_p hF.two_le_e hmax (hone ▸ hlt) n' .RN false
    exact ⟨n', m₁, e₁, by rw [hround, hx, hval], hone ▸ hle⟩
  · exact abs_le_one_of_low hpick (low_of_sfnWithin_tanh hwithin)

end

/-- Settles O44: each element is the rounding of its exact value or a pick within the bound, and the table's operands are pinned. -/
theorem specialFunctionsAndConversions : Obligations.SpecialFunctionsAndConversions := by
  unfold Obligations.SpecialFunctionsAndConversions
  intro special
  have hspecial : ∀ {fn : Nat} {ins : FFmt → S32 → Instr}, fn ≤ 7 →
      (∀ f o s, exec (ins f o) s = sfnInstr (ins f o) fn f s) → (∀ f o, (ins f o).form.d.kind = .v) → special fn ins := by
    intro fn ins hfn hx hd f
    refine ⟨sfnResult fn f, givesFloat_of_sfnResult f hx hd, fun w => ?pick,
      fun w hw => ⟨fun r hr => ?table, fun n m e hv hm => ⟨?exp2, ?log2, ?tanh⟩⟩⟩
    case pick =>
      refine (sfnResult_eq_or fn f w).imp_right fun ⟨hf, hfree, _, hwithin⟩ => ⟨hf, two_le_of_not_pinned hfree, hwithin⟩
    case table =>
      obtain ⟨hpinned, heq⟩ := sfnTable_spec hfn f _ hr
      rw [← heq]
      exact congrArg (·, _) (sfnResult_of_pinned hpinned)
    case exp2 =>
      rintro rfl k hk hlow hhigh
      exact sfnResult_exp2 hv hm hk hlow hhigh
    case log2 =>
      rintro rfl k hk
      exact sfnResult_log2 hv hm hw hk
    case tanh =>
      rintro rfl
      exact sfnResult_tanh hv hm
  clear_value special
  have hwritesV : ∀ (f : FFmt) (o : S32), ((Form.s32 .v .v 9 .F o).fmt f).d.kind = .v := fun f o => s32_fmt_writesV o f
  refine ⟨hspecial (by decide) exec_frcp hwritesV, hspecial (by decide) exec_fsqrt hwritesV,
    hspecial (by decide) exec_frsq hwritesV, hspecial (by decide) exec_fexp2 hwritesV, hspecial (by decide) exec_flog2 hwritesV,
    hspecial (by decide) exec_fsin hwritesV, hspecial (by decide) exec_fcos hwritesV, hspecial (by decide) exec_ftanh hwritesV,
    fun o s iss h => ?cvt⟩
  intro i wide dfmt sfmt src r
  have hr : ∀ L, r L = cvtLane s iss o L := by
    intro L
    simp only [r, src, wide, cvtLane, cvtOperand, cvtKind_beq_pair]
    rfl
  have hwide : wide dfmt = (cvtKind (immBits o.imm 7 4) == .pair) := (cvtKind_beq_pair dfmt).symm
  simp only [hr, hwide]
  obtain hkind | hkind := cvtKind_eq_v_or_pair (immBits o.imm 7 4)
  · obtain ⟨t, hexec, hframe, hvalue⟩ := cvt_of_single h hkind
    rw [hkind]
    exact ⟨t, hexec, vectorFrame_mono hframe fun _ _ hd => ⟨hd.1, .inl hd.2⟩, hvalue⟩
  · obtain ⟨t, hexec, hframe, hvalue⟩ := cvt_of_pair h hkind
    rw [hkind]
    exact ⟨t, hexec, vectorFrame_mono hframe fun _ _ hd => ⟨hd.1, hd.2.imp_right fun hn => ⟨rfl, hn⟩⟩, hvalue⟩

end Sys2Proof.Machine
end
